-- ==== Sys2Proof/Word.lean ====
section
/-! DEFINITION. The machine word, and the plainest reading and writing of its bits. -/

namespace Sys2Proof

/-- A 32-bit register word (R14: registers are 32 bits and are accessed whole). -/
abbrev Word := BitVec 32

/-- One byte. -/
abbrev Byte := BitVec 8

/-- Bits `lo` to `lo + width - 1` of a word, as a number. -/
def Word.bits (w : Word) (lo width : Nat) : Nat := (w.toNat >>> lo) % 2 ^ width

/-- `w` with bits `lo` to `lo + width - 1` replaced by the low bits of `v`. -/
def Word.setBits (w : Word) (lo width v : Nat) : Word :=
  BitVec.ofNat 32 (w.toNat - (w.bits lo width) * 2 ^ lo + (v % 2 ^ width) * 2 ^ lo)

/-- One bit of a word. -/
def Word.bit (w : Word) (i : Nat) : Bool := w.toNat.testBit i

end Sys2Proof
end

