-- ==== Sys2Proof/Syntax.lean ====
section
/-! DEFINITION. The commands: one constructor for each row of spec/opcode_table.json, with what the outside supplies with it. -/

namespace Sys2Proof

/-- How an input changed: it rose, it fell, or (quadrature) A and B changed within the same fine unit (R61). -/
inductive EdgeKind
  | rise | fall | both
  deriving DecidableEq, Repr

/-- Which condition of a window monitor a write changes (R236). -/
inductive WmCondition
  | thr | hys | trim | port
  deriving DecidableEq, Repr

/-- An access to a data port. -/
inductive RegAccess
  | read
  | write (w : Word)
  deriving DecidableEq, Repr

/-- A host request to a memory BAR (R455): function, BAR (0 BAR0, 1 BAR2, 2 VF BAR0, 3 VF BAR2), byte offset, the words
written (none: a read of `len` words), the numbers of the written words (0, 1) whose byte enables are not all set, and whether
the request is poisoned (EP). -/
structure HostAccess where
  func : Nat
  bar : Nat
  ofs : Nat
  len : Nat
  wr : Option (List Word)
  cut : List Nat
  ep : Bool
  deriving DecidableEq, Repr

/-- An agent port that acts on Pigeonhole; and, for a standby, what the primary's matching port does: the channel and, for a
post, the word (R528). -/
structure PortAct where
  port : Nat
  mirror : Option (Nat × Nat)
  deriving DecidableEq, Repr

/-- What a window monitor senses: the differential voltage at the pins, and by how much each comparator's untrimmed switching
points lie off, in volts of the internal range (R230, R232). -/
structure SenseIn where
  pin : Rat
  errU : Rat
  errL : Rat
  deriving DecidableEq, Repr

/-- What CAL_RUN measures of one instance: the attempts of its steps, field by field (an attempt that is not listed
disagrees), its residual in 1/64 LSB, and the same of a slice's second calibration. For the reference buffer the attempts are
the two null-balance readings of REFQq in µV. -/
structure CalMeas where
  steps : List (List (Int × Int))
  res : Nat
  again : List (List (Int × Int))
  res2 : Nat
  deriving DecidableEq, Repr

/-- What the other die says when the two are to be paired (R522): whether its Bureau answers, whether it is in Run with the
same design, SECMASK, HERITAGE, LCS_CTL and LCS_TIME, whether it has anything in use, and its control registers and page
directory. -/
structure TwinPeer where
  answers : Bool
  run : Bool
  same : Bool
  busy : Bool
  regs : List (Nat × Word)
  pdir : List (Nat × Nat)
  deriving DecidableEq, Repr

/-- A capability or feature whose field the host reads (R447, R448, R451). -/
inductive PciCap
  | powerManagement | d0 | d3hot | pciExpress | flr | tag10 | aspmL1 | timeoutA | timeoutB | timeoutDisable | msix | aer | ari
  | sriov | resizableBar | serialNumber | secondaryPcie | dataLinkFeature | phys16GT | laneMargining
  | ats | pasid | pri | atomicOps | tph | ltr | aspmL0s | l1Substates | msi | intx | gt32
  deriving DecidableEq, Repr

/-- A number the host reads from configuration space (R446 to R448, R451, R454): sizes and speeds of the link, vectors, the
SR-IOV offer, the BARs (a size of 0: no such BAR; `bar2Sizes` has bit n for 2^n MiB), and what the writable items hold. -/
inductive PciNumber
  | msixVectors | maxPayload | maxReadRequest | maxSpeed | maxWidth | totalVfs | firstVfOffset | vfStride | interruptPin
  | barBytes (bar : Nat) | barAddressBits (bar : Nat) | barPrefetchable (bar : Nat) | bar2Sizes
  | busMaster | powerState | msixEnable | msixMask | numVf | aerStatus | aerCorrectable
  deriving DecidableEq, Repr

/-- What a configuration request reads or writes, of the items the spec names (R447, R448, R451, R453 to R455, R462). -/
inductive ConfigItem
  | vendorId | deviceId | classCode | serialNumber
  | capability (c : PciCap) | number (q : PciNumber) | aerClear (w : Nat) | aerCorClear (w : Nat)
  | busMaster (on : Bool) | powerState (d3 : Bool) | msixEnable (on : Bool) | msixMask (on : Bool)
  | numVf (n : Nat) | bar2Size (mib : Nat)
  deriving DecidableEq, Repr

/-- The pins that have a boundary cell (R544). -/
inductive ScanPin
  | dio (n : Nat)
  | prb (p : Nat)
  | qspi (k : Nat)
  | cfgErr | cfgDone | wakeN
  deriving DecidableEq, Repr

/-- A TAP instruction as it is loaded (R544): one of the five that the TAP decodes, or any other code. SAMPLE/PRELOAD and EXTEST
carry what is shifted into the boundary cells under them: the level a pin is driven to, or none. -/
inductive TapCode
  | bypass
  | sample (cells : List (ScanPin × Option Bool))
  | extest (cells : List (ScanPin × Option Bool))
  | clamp | highz
  | other (code : Nat)
  deriving DecidableEq, Repr

/-- The commands and events of the device, in the order of spec/opcode_table.json. -/
inductive Instr
  /-- POWER_ON. Power is applied. -/
  | powerOn
  /-- PORST_N_ASSERT. PORST_N goes low. -/
  | porstNAssert
  /-- PORST_N_RELEASE. PORST_N is released and the rails have been in tolerance for 1 ms (the later of the two), with the
  levels of the straps COMPAT and BOOT[1:0]. -/
  | porstNRelease (compat : Bool) (boot : Nat)
  /-- BUREAU_BOOT_COMPLETE. The Bureau's boot ends: the step that failed (0: none), whether the random source passed, whether
  the stored calibration record passes its check. -/
  | bureauBootComplete (err : Nat) (trng store : Bool)
  /-- BROWN_OUT. A monitored rail stays below 90 % of its nominal value for 1 µs. -/
  | brownOut
  /-- AUTONOMOUS_BOOT. The load that the straps select starts. -/
  | autonomousBoot
  /-- PERST_N_ASSERT. PERST_N goes low. -/
  | perstNAssert
  /-- PERST_N_RELEASE. PERST_N goes high. -/
  | perstNRelease
  /-- LINK_TRAINING. A link training ends, with the codes HOST_LINK shows. -/
  | linkTraining (speed width mps mrrs : Nat)
  /-- FUNCTION_LEVEL_RESET. A function-level reset of function `func` begins. -/
  | functionLevelReset (func : Nat)
  /-- CONFIG_REQUEST. A configuration request to function `func`. -/
  | configRequest (func : Nat) (item : ConfigItem)
  /-- WATCHDOG_EXPIRY. The Bureau's watchdog expires. -/
  | watchdogExpiry
  /-- SRAM_UNCORRECTABLE_ERROR. The Bureau's SRAM reports an uncorrectable error. -/
  | sramUncorrectableError
  /-- GET_INFO. GET_INFO is issued. -/
  | getInfo (tag : Nat) (args : List Word)
  /-- SET_MODE. SET_MODE is issued. -/
  | setMode (tag : Nat) (args : List Word)
  /-- GET_MODE. GET_MODE is issued. -/
  | getMode (tag : Nat) (args : List Word)
  /-- CFG_BEGIN. CFG_BEGIN is issued. -/
  | cfgBegin (tag : Nat) (args : List Word)
  /-- CFG_ABORT. CFG_ABORT is issued. -/
  | cfgAbort (tag : Nat) (args : List Word)
  /-- CFG_STATUS. CFG_STATUS is issued. -/
  | cfgStatus (tag : Nat) (args : List Word)
  /-- REGION_LOAD_BEGIN. REGION_LOAD_BEGIN is issued. -/
  | regionLoadBegin (tag : Nat) (args : List Word)
  /-- REGION_RELEASE. REGION_RELEASE is issued. -/
  | regionRelease (tag : Nat) (args : List Word)
  /-- CAL_RUN. Foreground calibration; `meas` is what it measures, stretch by stretch. -/
  | calRun (tag : Nat) (args : List Word) (meas : List CalMeas)
  /-- CAL_COMMIT. CAL_COMMIT is issued. -/
  | calCommit (tag : Nat) (args : List Word)
  /-- CAL_EXPORT. CAL_EXPORT is issued. -/
  | calExport (tag : Nat) (args : List Word)
  /-- CAL_IMPORT. CAL_IMPORT is issued. -/
  | calImport (tag : Nat) (args : List Word)
  /-- ROTATE_NOW. ROTATE_NOW is issued. -/
  | rotateNow (tag : Nat) (args : List Word)
  /-- CHAN_ALLOC. CHAN_ALLOC is issued. -/
  | chanAlloc (tag : Nat) (args : List Word)
  /-- CHAN_FREE. CHAN_FREE is issued. -/
  | chanFree (tag : Nat) (args : List Word)
  /-- RING_ADMIT. RING_ADMIT is issued; in a pair `peer` is the other die's DMA_BUDGET. -/
  | ringAdmit (tag : Nat) (args : List Word) (peer : Nat)
  /-- RING_RETIRE. RING_RETIRE is issued. -/
  | ringRetire (tag : Nat) (args : List Word)
  /-- ATTEST. ATTEST is issued. -/
  | attest (tag : Nat) (args : List Word)
  /-- KEY_ENROLL. KEY_ENROLL is issued; `good`: the OTP reads back as written. -/
  | keyEnroll (tag : Nat) (args : List Word) (good : Bool)
  /-- POLICY_SET. POLICY_SET is issued. -/
  | policySet (tag : Nat) (args : List Word)
  /-- TWIN_PAIR. TWIN_PAIR is issued here, or on the other die naming `there` as primary. -/
  | twinPair (tag : Nat) (args : List Word) (p : TwinPeer) (there : Option Nat)
  /-- TWIN_SPLIT. TWIN_SPLIT is issued here, or the other die splits the pair: by the command (0) or by a trigger on the
  standby (its cause). -/
  | twinSplit (tag : Nat) (args : List Word) (there : Option Nat)
  /-- PWR_CEILING. PWR_CEILING is issued. -/
  | pwrCeiling (tag : Nat) (args : List Word)
  /-- COMMAND_COMPLETE. The command in progress completes; in a pair `peer` is the other die's status. -/
  | commandComplete (peer : Option Nat)
  /-- RANDOM. The Bureau serves a RANDOM request on SCc, with 16 bits of its random source. -/
  | random (c v : Nat)
  /-- DIGEST_REQUEST. The Bureau serves a DIGEST request on SCc. -/
  | digestRequest (c : Nat)
  /-- CLAIM_LOW. The Bureau serves a CLAIM of a low halfword on SCc. -/
  | claimLow (c : Nat)
  /-- CLAIM_HIGH. The Bureau serves a CLAIM of a high halfword on SCc. -/
  | claimHigh (c : Nat)
  /-- BAR4_WRITE. The PF writes words to BAR4, each with whether its byte enables are all set. -/
  | bar4Write (words : List (Word × Bool))
  /-- TWIN_STREAM_WORD. A word that the peer's controller has taken arrives over the Bunk link. -/
  | twinStreamWord (w : Word)
  /-- PREAMBLE_WORD. A word before sync is taken; `flash` holds the words the QSPI flash delivers meanwhile, where that is the
  source. -/
  | preambleWord (flash : List Word)
  /-- SYNC_WORD. The sync word is taken. -/
  | syncWord (flash : List Word)
  /-- DEVICE. A DEVICE record is taken. -/
  | device (flash : List Word)
  /-- FRAMES. A FRAMES header with its first two body words is taken. -/
  | frames (flash : List Word)
  /-- FRAME. One frame of 32 words is taken. -/
  | frame (flash : List Word)
  /-- ANALOG_ENTRY. An ANALOG header or entry is taken. -/
  | analogEntry (flash : List Word)
  /-- STARTUP. A STARTUP record is taken. -/
  | startup (flash : List Word)
  /-- DIGEST. A DIGEST record is taken. -/
  | digest (flash : List Word)
  /-- SIGNATURE. A SIGNATURE record is taken. -/
  | signature (flash : List Word)
  /-- SIGNATURE_VERIFICATION. The Bureau's verification of the signature taken ends; `mclk`: the MCLK cycles it took, at most
  4 ms. -/
  | signatureVerification (mclk : Nat)
  /-- END. An END record is taken. -/
  | endRecord (flash : List Word)
  /-- REGION. A REGION record is taken. -/
  | region (flash : List Word)
  /-- VERIFY. The checks of Verify. -/
  | verify
  /-- REFERENCE_WAIT. The reference wait ends; Run begins `mclk` MCLK cycles after sync. -/
  | referenceWait (mclk : Nat)
  /-- REF_TMO. The reference wait times out; Run begins `mclk` MCLK cycles after sync. -/
  | refTmo (mclk : Nat)
  /-- REGION_STREAM_START. The clock gates of the cabinet under reload have closed. -/
  | regionStreamStart
  /-- REGION_VERIFY. The checks of a partial stream. -/
  | regionVerify
  /-- SCRUB_PASS_START. The gap between two scrub passes is over. -/
  | scrubPassStart
  /-- SCRUB_FRAME_CHECK. The scrubber checks its next frame, in which `flips` (0 to 1,023 data, 1,024 + j check bit j) have been
  upset; so have, from 1,036 on, the bits of the copies of SCRB_CTL (three times 32) and then of SCRB_IRQEN (R393). -/
  | scrubFrameCheck (flips : List Nat)
  /-- VOTE_REPAIR. A copy of a voted scrubber register has been rewritten. -/
  | voteRepair
  /-- PLL_LOCK_LOSS. The PLL loses lock. -/
  | pllLockLoss
  /-- PLL_RELOCK. The PLL locks again. -/
  | pllRelock
  /-- SMPCLK_STAMP. One sample-clock edge in 2^16 is stamped, in fine units. -/
  | smpclkStamp (stamp : Nat)
  /-- SMPCLK_STALL. SMPCLK has not toggled for 64 ticks. -/
  | smpclkStall
  /-- PR_EDGE. An edge of the main input of PRn with its stamp (fine units) and the tick it arrives in. -/
  | prEdge (n : Nat) (stamp tick : Nat) (kind : EdgeKind)
  /-- PR_INDEX_EDGE. An edge of the index input of PRn. -/
  | prIndexEdge (n : Nat) (stamp tick : Nat) (kind : EdgeKind)
  /-- EDGE_PROCESSING. The oldest edge waiting in PRn is processed. -/
  | edgeProcessing (n : Nat)
  /-- COAST_ENTRY. No edge came in time. -/
  | coastEntry (n tick : Nat)
  /-- COAST_LIMIT. The coasting limit is reached. -/
  | coastLimit (n tick : Nat)
  /-- PR_ENABLE. A write of PRn_CFG.EN. -/
  | prEnable (n : Nat) (en : Bool)
  /-- PR_SNAP. A write of 1 to PRn_SNAP in tick `tick`. -/
  | prSnap (n tick : Nat)
  /-- LCS_TIME_SNAP. A write of 1 to LCS_TIME_SNAP in tick `tick`. -/
  | lcsTimeSnap (tick : Nat)
  /-- PA_ENABLE. A write of PAn_CTL.EN in tick `tick`. -/
  | paEnable (n tick : Nat) (en : Bool)
  /-- ALARM_FIRING. PAn passes its instant in tick `tick`. -/
  | alarmFiring (n tick : Nat)
  /-- TIMER_START. A write of 1 to TTn_CTL.START in tick `tick`. -/
  | timerStart (n tick : Nat)
  /-- TIMER_EXPIRY. The count of TTn reaches 0. -/
  | timerExpiry (n : Nat)
  /-- FIRING_RECORD. The oldest firing not yet broadcast is broadcast. -/
  | firingRecord
  /-- SEQ_START. The oldest firing at CGg starts or restarts its sequence. -/
  | seqStart (g : Nat)
  /-- URGENT. The oldest firing at CGg requests an urgent burst. -/
  | urgent (g : Nat)
  /-- MARK. The oldest firing at CGg marks the samples nearest its instant. -/
  | mark (g : Nat)
  /-- RS_INSTANT. The oldest firing at FCn gives a resampler instant or a span end. -/
  | rsInstant (n : Nat)
  /-- SEG_START. The oldest firing at DAd starts a waiting entry. -/
  | segStart (d : Nat)
  /-- BLANK_OPEN. The monitor's oldest firing opens blanking. -/
  | blankOpen (n : Nat)
  /-- BLANK_CLOSE. The monitor's oldest firing closes blanking. -/
  | blankClose (n : Nat)
  /-- EVENT. A broadcast firing pulses its event line. -/
  | event
  /-- DOORBELL. A broadcast firing rings its doorbell. -/
  | doorbell
  /-- WAKE. A broadcast firing wakes the device. -/
  | wakeFiring
  /-- IRQ. A broadcast firing raises its interrupt. -/
  | irq
  /-- PERIOD_CLEAR. The monitor's oldest firing of its period source. -/
  | periodClear (n : Nat)
  /-- CAPTURE_EDGE. An edge of the input of CAPk, with its stamp. -/
  | captureEdge (k stamp : Nat) (kind : EdgeKind)
  /-- CAP_POP. A write of 1 to CAPk_POP. -/
  | capPop (k : Nat)
  /-- NEXT_EVENT_UPDATE. LCS_NEXT is computed at tick t; on a standby, peer is what the primary's power management does in
  that tick. -/
  | nextEventUpdate (t : Nat) (peer : Option Nat)
  /-- SELF_WAKE. The armed self-wake tick is reached. -/
  | selfWake
  /-- POWER_STATE_ENTRY. Entry into a low-power state completes. -/
  | powerStateEntry
  /-- POWER_STATE_EXIT. Exit from a low-power state completes at tick t. -/
  | powerStateExit (t : Nat)
  /-- TEMP_CONVERSION. Temperature sensor TSk converts, in 1/16 °C before its trim. -/
  | tempConversion (k : Nat) (raw : Int)
  /-- CG_ENABLE. CGg_CTL.EN goes from 0 to 1. -/
  | cgEnable (g : Nat)
  /-- CG_DISABLE. CGg_CTL.EN is cleared. -/
  | cgDisable (g : Nat)
  /-- CG_GO. A write of 1 to CGg_SEQCTL.GO. -/
  | cgGo (g : Nat)
  /-- CG_STOP. A write of 1 to CGg_SEQCTL.STOP. -/
  | cgStop (g : Nat)
  /-- FABRIC_REQUEST. A rising edge of request line f reaches the converter groups. -/
  | fabricRequest (f : Nat)
  /-- SETTLE_END. The settle count of the running entry is reached. -/
  | settleEnd (g : Nat)
  /-- DWELL_COMPLETE. The running dwell is complete. -/
  | dwellComplete (g : Nat)
  /-- URGENT_DWELL_COMPLETE. The urgent dwell is complete. -/
  | urgentDwellComplete (g : Nat)
  /-- CG_CNT_SNAP. A write of 1 to CGg_CNT_SNAP. -/
  | cgCntSnap (g : Nat)
  /-- ELOG_POP. A write of 1 to CGg_ELOG_POP. -/
  | elogPop (g : Nat)
  /-- WINDOW_COMPARATOR_FIRE. The comparator of lane l has fired. -/
  | windowComparatorFire (g l : Nat)
  /-- REF_SETTLED. The reference has stayed settled for 2,048 SCLK cycles. -/
  | refSettled (g : Nat)
  /-- REF_FAULT. REFQq stays outside its window for 1 µs. -/
  | refFault (q : Nat)
  /-- ROTATION_CHECK. The Bureau's 10 ms evaluation of the rotation triggers. -/
  | rotationCheck
  /-- OVERLAP_START. The next beat of a group in DUE comes, in tick `tick`. -/
  | overlapStart (g tick : Nat)
  /-- HANDOVER_TEST. The overlap has its 1,024 samples. -/
  | handoverTest (g : Nat)
  /-- SLICE_CALIBRATION. The background calibration of CGg's slice ends: the attempts of its five steps, and the residual
  error in 1/64 LSB. -/
  | sliceCalibration (g : Nat) (ofs gain skew rofs rgain : List (Int × Int)) (res : Nat)
  /-- ESTIMATOR_BLOCK. In tick `tick` the estimator acts on the block that has ended; in a pair, `pair` is TWN_MATCHg. -/
  | estimatorBlock (g tick : Nat) (pair : Word)
  /-- AZ_BOUNDARY. An auto-zero period boundary of cell ACc. -/
  | azBoundary (c : Nat)
  /-- AZ_SWAP. The 64-cycle parallel connection ends. -/
  | azSwap (c : Nat)
  /-- RST. A write of 1 to ACc_CTL.RST, after the inputs of ACc have been as they are for `dt` seconds (below 0: for none). -/
  | rst (c : Nat) (dt : Rat)
  /-- PORT_OVERLOAD. The differential input of APn moves to `v` volts. -/
  | portOverload (n : Nat) (v : Rat)
  /-- CELL_SATURATION. The inputs of ACc have been as they are for `dt` seconds (below 0: for none), and its output follows. -/
  | cellSaturation (c : Nat) (dt : Rat)
  /-- MATRIX_WRITE. A write to APn_CTL, ACc_CTL, ACc_LTt, AC_CGINg or AC_DAOUTd at BAR0 offset addr. -/
  | matrixWrite (addr : Nat) (w : Word)
  /-- FC_ENABLE. FCn_CTL.EN goes from 0 to 1. -/
  | fcEnable (n : Nat)
  /-- SOURCE_WRITE. The host writes the source register at offset a. -/
  | sourceWrite (a : Nat) (w : Word)
  /-- BANK. A write of FCn_FIR.BANK. -/
  | bank (n bank : Nat)
  /-- XFADE_START. The write crossing of a pending fade has completed. -/
  | xfadeStart (n : Nat)
  /-- XF_DONE. The last fade output is formed. -/
  | xfDone (n : Nat)
  /-- FC_CNT_SNAP. A write of 1 to FCn_CNT_SNAP. -/
  | fcCntSnap (n : Nat)
  /-- GAP_POP. A write of 1 to FCn_GAP_POP. -/
  | gapPop (n : Nat)
  /-- CDATA. An access to FCn_RS_CDATA. -/
  | cdata (n : Nat) (acc : RegAccess)
  /-- INC_COMMIT. A write of FCn_RS_INC_HI. -/
  | incCommit (n : Nat) (w : Word)
  /-- SLOT. The next locked slot of FCn is passed in tick `tick`. -/
  | slot (n tick : Nat)
  /-- TLOG_POP. A write of 1 to FCn_TLOG_POP. -/
  | tlogPop (n : Nat)
  /-- DET_WINDOW_CLOSE. A detector window closes and its results are latched. -/
  | detWindowClose (n : Nat)
  /-- WM_ENABLE. WMn_CTL.EN goes from 0 to 1. -/
  | wmEnable (n : Nat)
  /-- WM_POWER_UP. The 2 µs of power-up end. -/
  | wmPowerUp (n : Nat) (v : SenseIn)
  /-- WM_CONDITION_WRITE. A write to the threshold, hysteresis, trim or port register. -/
  | wmConditionWrite (n : Nat) (what : WmCondition) (w : Word)
  /-- WM_SETTLE. The 2 µs hold after a change of conditions ends. -/
  | wmSettle (n : Nat) (v : SenseIn)
  /-- WM_DISABLE. WMn_CTL.EN is cleared. -/
  | wmDisable (n : Nat)
  /-- COMPARATOR_EDGE. The pin voltage moves to that of v, stamped in fine units. -/
  | comparatorEdge (n : Nat) (v : SenseIn) (stamp : Nat)
  /-- WM_RESOLVE. v leaves the band of an UNRESOLVED comparator. -/
  | wmResolve (n : Nat) (v : SenseIn) (stamp : Nat)
  /-- EDGE_DELIVERY. The 48-tick hold of the oldest held edge ends. -/
  | edgeDelivery (n : Nat)
  /-- DA_GO. A write of 1 to DAd_CTL.GO. -/
  | daGo (d : Nat)
  /-- DA_STOP. A write of 1 to DAd_CTL.STOP. -/
  | daStop (d : Nat)
  /-- DA_ENABLE. A write of DAd_CTL.EN. -/
  | daEnable (d : Nat) (en : Bool)
  /-- SEGMENT_END. The running entry's last sample is played. -/
  | segmentEnd (d : Nat)
  /-- UNDERRUN. A stream sample has found the FIFO empty. -/
  | underrun (d : Nat)
  /-- PDATA. An access to DAd_PDATA. -/
  | pdata (d : Nat) (acc : RegAccess)
  /-- CLKEN_WRITE. The host writes FABk_CTL.CLKEN. -/
  | clkenWrite (k : Nat) (on : Bool)
  /-- FPLL_M_WRITE. The host writes FAB_FPLL.M. -/
  | fpllMWrite (m : Nat)
  /-- FPLL_LOCK. The fabric PLL locks. -/
  | fpllLock
  /-- PEEK_DATA. The host reads FABk_PEEK_DATA. -/
  | peekData (k : Nat)
  /-- FP_INPUT_WORD. The oldest word on its way to FPk.j input arrives. -/
  | fpInputWord (k j : Nat)
  /-- FP_INPUT_GROUP_TAKE. The group taken at FPk.j input leaves the FIFO. -/
  | fpInputGroupTake (k j : Nat)
  /-- FP_OUTPUT_WORD. The word presented at FPk.j output arrives at its FIFO. -/
  | fpOutputWord (k j : Nat)
  /-- AGENT_POST. The post of agent port a of CBk reaches Pigeonhole. -/
  | agentPost (k : Nat) (a : PortAct)
  /-- AGENT_TAKE. The take of agent port a of CBk reaches Pigeonhole. -/
  | agentTake (k : Nat) (a : PortAct)
  /-- AGENT_DBCLR. The DBCLR of agent port a of CBk reaches Pigeonhole. -/
  | agentDbclr (k : Nat) (a : PortAct)
  /-- VCCIO_CHANGE. The supply of DIO bank b is applied or removed. -/
  | vccioChange (b : Nat) (present : Bool)
  /-- DIO_PIN_CFG_WRITE. The host writes DIO_PINn_CFG. -/
  | dioPinCfgWrite (n : Nat) (w : Word)
  /-- DMA_PDIR_LO. The host writes DMA_PDIR_LO. -/
  | dmaPdirLo (w : Word)
  /-- DMA_PDIR_HI. The host writes DMA_PDIR_HI. -/
  | dmaPdirHi (w : Word)
  /-- TAIL_WRITE. The host writes DMAr_TAIL of an upstream ring. -/
  | tailWrite (r : Nat) (w : Word)
  /-- HEAD_WRITE. The host writes DMAr_HEAD of a downstream ring. -/
  | headWrite (r : Nat) (w : Word)
  /-- RING_WORD. The oldest word on its way to ring r reaches it, `ns` after the one before, at fine-unit time `at_`. -/
  | ringWord (r ns : Nat) (at_ : Int)
  /-- AGE_CLOSE. AGE × 100 µs have passed since ring r's open block opened. -/
  | ageClose (r : Nat)
  /-- BLOCK_WRITE. The oldest closed block of ring r is written. -/
  | blockWrite (r : Nat)
  /-- BLK_HOLD. HOLD µs have passed since the first counted block of ring r. -/
  | blkHold (r : Nat)
  /-- DMA_SNAP. The host writes 1 to DMAr_SNAP. -/
  | dmaSnap (r : Nat)
  /-- RING_FETCH. Downstream ring r asks for its next block. -/
  | ringFetch (r : Nat)
  /-- FETCH_COMPLETION. The 4,096 bytes of the block that ring r asked for arrive. -/
  | fetchCompletion (r : Nat) (data : List Nat)
  /-- COMPLETION_TIMEOUT. A fetch of ring r times out and is asked for again. -/
  | completionTimeout (r : Nat)
  /-- MSG_POST. Function `func` writes MSG_POST of channel c. -/
  | msgPost (func c : Nat) (w : Word)
  /-- MSG_TAKE. Function `func` reads MSG_TAKE of channel c. -/
  | msgTake (func c : Nat)
  /-- DB_SET. Function `func` writes DB_SET of channel c. -/
  | dbSet (func c : Nat) (w : Word)
  /-- DB_CLR. Function `func` writes DB_CLR of channel c. -/
  | dbClr (func c : Nat) (w : Word)
  /-- CHANNEL_TIMEOUT. FULL of channel c has stayed 1 for TMO µs. -/
  | channelTimeout (c : Nat)
  /-- MSIX_MESSAGE. Vector v of function `func` is looked at: it sends, waits or is idle. -/
  | msixMessage (func v : Nat)
  /-- CLOCK_STOPPED. Clock k (0 LCLK, 1 + g the SCLK of CGg) has not toggled for 64 HCLK cycles. -/
  | clockStopped (k : Nat)
  /-- RC_READ. A host read reaches the endpoint. -/
  | rcRead (tick : Nat) (x : HostAccess)
  /-- REGISTER_WRITE. A host write reaches the endpoint. -/
  | registerWrite (tick : Nat) (x : HostAccess)
  /-- HEARTBEAT. A heartbeat arrives on the lanes, on the strobe path or on both; `seqs`: the last SEQ of each ring, `closes`:
  the word indices at which the primary began new blocks. -/
  | heartbeat (lanes strobe : Bool) (seqs closes : List (Nat × Nat))
  /-- HEARTBEAT_LOSS. No heartbeat has arrived on either path for 4 µs. -/
  | heartbeatLoss
  /-- PRIMARY_PLL_LOSS. This die's PLL has been unlocked for 1 µs. -/
  | primaryPllLoss
  /-- FENCED. FENCED arrives from the primary, with the trigger's cause and, of each ring, the last SEQ and the word index
  after its last block where no heartbeat has brought it. -/
  | fenced (cause : Nat) (seqs : List (Nat × Nat × Option Nat))
  /-- TWIN_COMPARE. The fabric port outputs of CBk are compared; `peer`: the other die's cabinet had a scrub event since the
  last comparison. -/
  | twinCompare (k : Nat) (differ peer : Bool)
  /-- FORWARDED_WRITE. A forwarded access takes effect; on the standby `peer` is the primary's. -/
  | forwardedWrite (tick : Nat) (peer : Option HostAccess)
  /-- LANE_ERROR_BURST. A burst of lane errors. -/
  | laneErrorBurst
  /-- LINK_DOWN. The Bunk link goes down. -/
  | linkDown
  /-- JTAG_INSTRUCTION. A TAP instruction is loaded. -/
  | jtagInstruction (code : TapCode)
  /-- JTAG_RESET. TRST_N low, or five TCK cycles with TMS high. -/
  | jtagReset
  /-- PLL_LOCK. The PLL locks first after Reset or a clock write. -/
  | pllLock
  /-- REFQ_WINDOW_RETURN. REFQq comes back inside its window. -/
  | refqWindowReturn (q : Nat)
  /-- PCIE_LINK_DOWN. The link leaves L0 for Detect. -/
  | pcieLinkDown
  /-- UNKNOWN_COMMAND_CODE. A code outside the command table is submitted. -/
  | unknownCommandCode (code tag : Nat)
  /-- UNKNOWN_SECURE_OP. The Bureau serves a request with an undefined OP on SCc. -/
  | unknownSecureOp (c : Nat)
  /-- FIRMWARE_RESUME. The Bureau's restart ends: the step that failed (0: none). -/
  | firmwareResume (err : Nat)
  /-- BUNK_LINK_TRAINING. A training of the Bunk link completes with the eye width of each lane. -/
  | bunkLinkTraining (eyes : List Nat)
  /-- WAKE_N_RELEASE. WAKE_N has been held low for 1 ms. -/
  | wakeNRelease
  /-- FLR_COMPLETE. The function-level reset of function `func` completes. -/
  | flrComplete (func : Nat)
  /-- AUTO_ZERO_TRIM. The trim attempts end, each with its two results. -/
  | autoZeroTrim (c : Nat) (tries : List (Int × Int))
  /-- CONVERSION_BEAT. SCLK edge e of CGg in tick `tick`: what each position's slice gives for each input (16 fractional
  bits), lane 0's neighbours of the beat, and what an incoming slice gives. -/
  | conversionBeat (g e tick : Nat) (raw : List (List Int)) (before after inc : Int)
  /-- CHAIN_OUTPUT. FCn takes its words up to its next FIR output and forms what follows. -/
  | chainOutput (n : Nat)
  /-- DAC_SAMPLE. SCLK edge e of CGd in tick `tick`: the next two samples. -/
  | dacSample (d e tick : Nat)
  /-- CELL_CLOCK. Coincident rising edges of the global clocks in `mask`, with the levels applied to the DIO pins. -/
  | cellClock (mask pins : Nat)
  /-- PROBE_SAMPLE. Probe p meets an edge of its clock, or a word of its stream. -/
  | probeSample (p : Nat)
  /-- FC_DISABLE. FCn_CTL.EN is cleared. -/
  | fcDisable (n : Nat)
  /-- TIMER_DISABLE. TTn_CTL.EN is cleared. -/
  | timerDisable (n : Nat)
  deriving DecidableEq, Repr

end Sys2Proof
end

