-- ==== Sys2Proof/Decode.lean ====
section
/-! DEFINITION. The words that spell commands: the table gives no row any bits, so that no word spells one. -/

namespace Sys2Proof

/-- The command that a word spells by the table's bits (no row has bits: none). DESIGN CHOICE, log entry 43. -/
def decodeTableWord (_nbits _w : Nat) : Option Instr := none

end Sys2Proof
end

