-- ==== Sys2Proof/Config.lean ====
section
/-! DEFINITION. What one part fixes, and the free values: results that the spec leaves open. A free value is an
opaque constant, so that no proof can use a value of it. -/

namespace Sys2Proof

/-- The three parts (R1). -/
inductive Part
  | kn4820 | kn9640 | kn9640T
  deriving DecidableEq, Repr

/-- The part that State.reset describes (DESIGN CHOICE, log entry 2; every part is a value of State.part). -/
def Config.part : Part := .kn9640

/-- The places where the spec has a value brought to a whole number and does not say which way an inexact one goes. -/
inductive RoundSite
  | periodUpdate | periodRead | coastSteps | trackerError | tickLeft
  | codeTie | residualStep | spur | estimate | refMeasure | levelQ | handoverLog
  deriving DecidableEq, Repr

/-- Free value (log entry 5): whether an inexact value is brought to the next whole number up. -/
opaque Config.roundUp : RoundSite → Rat → Bool

/-- An exact value brought to a whole number: itself where it is whole, else one of its two neighbours. -/
def Config.toWhole (site : RoundSite) (x : Rat) : Int :=
  if x.den = 1 then x.num else if Config.roundUp site x then x.floor + 1 else x.floor

/-- An exact value rounded to the nearest whole number; which way an exact half goes is free. -/
def Config.nearest (site : RoundSite) (x : Rat) : Int :=
  let f := x.floor
  let r := x - f
  if r < 1 / 2 then f
  else if 1 / 2 < r then f + 1
  else if Config.roundUp site x then f + 1 else f

/-- Free value (log entry 6): the sample clock's period, in fine units per 2^16 samples, while LCS_SMPQ holds none. -/
opaque Config.unknownSmpq : Rat

/-- Free values (log entry 5): the numbers that steps take where the spec states no result. -/
opaque Config.freeNat : Nat → Nat

/-- Free value (log entry 7): the carry of a shift by 0, from the operand and the carry before: the spec names the last bit
out, and none goes out. -/
opaque Config.zeroShiftCarry : Nat → Bool → Bool

/-- Free values (log entry 25): the estimator's gain and skew of a position, from its mean, mean square and correlation and
those of the positions of its lane. -/
opaque Config.gainEstimate : Rat × Rat × Rat → List (Rat × Rat × Rat) → Rat
opaque Config.skewEstimate : Rat × Rat × Rat → List (Rat × Rat × Rat) → Rat

/-- Free value (log entry 27): a FIR output that has left the resampler's history before an instant that needs it came. -/
opaque Config.lostFirOutput : Int → Int

/-- Free value (log entry 30): the frequency in MHz of global clock `i` where it comes from a DIO pin (R490). -/
opaque Config.pinClockMhz : Nat → Nat

/-- Free values (log entry 29): what a word cell reads at an input whose path is too slow for its clock (R306), from the
count of clock edges, the cell and the input; and whether a global clock applied at a pin is too fast for a trunk over a
cabinet distance. -/
opaque Config.lateValue : Nat → Nat → Nat → Nat
opaque Config.pinClockTooFast : Nat → Nat → Bool

/-- Free value (log entry 9): byte `k`, after the index, of the attestation signature of an index over a digest, which the
private key of the keep store determines. -/
opaque Config.sigByte : Nat → List Nat → Nat → Nat

/-- Free values (log entry 18): the offset of a cell's amplifier (0 A, 1 B) in steps of OFS, of which only what a trim leaves
shows; the differential voltage of REFQq and the supply VDDA, in volts, at a tick. -/
opaque Config.ampOffset : Nat → Nat → Rat
opaque Config.refqVolts : Nat → Nat → Rat
opaque Config.vddaVolts : Nat → Rat

/-- Free value (log entry 18): the voltage of a net that several drivers drive, from theirs. -/
opaque Config.contention : List Rat → Rat

/-- Free values (log entry 9): what manufacture leaves in the die: its identifier, the root and seed of its
attestation key with the vendor's signature, the
attestation index that signed the first stored calibration set, the firmware's version and digest. -/
opaque Config.dieId : Nat
opaque Config.certByte : Nat → Nat
opaque Config.makerIndex : Nat
opaque Config.fwVersion : Nat
opaque Config.fwByte : Nat → Nat

end Sys2Proof
end

