-- ==== Sys2Proof/Machine/RegMap.lean ====
section
/-! DEFINITION. The register map: every register of the BAR0 space with its offset, its instances, its fields, their access
codes and reset values, as the field tables of the chapters 02 to 22 of spec/ give them. -/

namespace Sys2Proof.Machine

/-- A field of a register: the register's first offset, the stride of its two indices, and the field's place. -/
structure FieldRef where
  base : Nat
  st1 : Nat
  st2 : Nat
  lo : Nat
  width : Nat
  deriving DecidableEq, Repr

/-- The BAR0 offset of the register a field stands in, for instance `i` (and sub-instance `j`). -/
def FieldRef.addr (f : FieldRef) (i j : Nat) : Nat := f.base + i * f.st1 + j * f.st2

/-- The access codes of R9 and R10. -/
inductive Acc
  | rw | ro | wo | w1c | w1s | rc
  deriving DecidableEq, Repr

/-- One field of a row of the register map: place, access code, reset value. -/
structure FieldRow where
  lo : Nat
  width : Nat
  acc : Acc
  reset : Nat
  deriving DecidableEq, Repr

/-- One register (or array of registers) of the map. -/
structure RegRow where
  reg : FieldRef
  n1 : Nat
  n2 : Nat
  fields : List FieldRow
  deriving DecidableEq, Repr

/-! Whole registers. -/

def Reg.DEV_ID : FieldRef := ⟨0x0, 0x0, 0x0, 0, 32⟩
def Reg.DEV_MODE : FieldRef := ⟨0x10, 0x0, 0x0, 0, 32⟩
def Reg.DEV_COMPAT : FieldRef := ⟨0x14, 0x0, 0x0, 0, 32⟩
def Reg.DEV_XSTAT : FieldRef := ⟨0x20, 0x0, 0x0, 0, 32⟩
def Reg.HOST_LINK : FieldRef := ⟨0x10000, 0x0, 0x0, 0, 32⟩
def Reg.HOST_STAT : FieldRef := ⟨0x10004, 0x0, 0x0, 0, 32⟩
def Reg.HOST_IRQEN : FieldRef := ⟨0x10008, 0x0, 0x0, 0, 32⟩
def Reg.HOST_BADOFS : FieldRef := ⟨0x1000C, 0x0, 0x0, 0, 32⟩
def Reg.HOST_NUMVF : FieldRef := ⟨0x10010, 0x0, 0x0, 0, 32⟩
def Reg.MSIX_PBA : FieldRef := ⟨0x11000, 0x4, 0x0, 0, 32⟩
def Reg.MSIX_ADDR_LO : FieldRef := ⟨0x18000, 0x10, 0x0, 0, 32⟩
def Reg.MSIX_ADDR_HI : FieldRef := ⟨0x18004, 0x10, 0x0, 0, 32⟩
def Reg.MSIX_DATA : FieldRef := ⟨0x18008, 0x10, 0x0, 0, 32⟩
def Reg.MSIX_CTRL : FieldRef := ⟨0x1800C, 0x10, 0x0, 0, 32⟩
def Reg.PGH_STAT : FieldRef := ⟨0x20000, 0x0, 0x0, 0, 32⟩
def Reg.PGH_BADCHAN : FieldRef := ⟨0x20004, 0x0, 0x0, 0, 32⟩
def Reg.PGH_ALLOC : FieldRef := ⟨0x20008, 0x0, 0x0, 0, 32⟩
def Reg.PGH_SNDSUM : FieldRef := ⟨0x20100, 0x4, 0x0, 0, 32⟩
def Reg.PGH_RCVSUM : FieldRef := ⟨0x20180, 0x4, 0x0, 0, 32⟩
def Reg.CFG_STAT : FieldRef := ⟨0x40000, 0x0, 0x0, 0, 32⟩
def Reg.CFG_WORDS : FieldRef := ⟨0x40004, 0x0, 0x0, 0, 32⟩
def Reg.CFG_FRAMES : FieldRef := ⟨0x40008, 0x0, 0x0, 0, 32⟩
def Reg.CFG_NEXTFA : FieldRef := ⟨0x4000C, 0x0, 0x0, 0, 32⟩
def Reg.CFG_ERRPOS : FieldRef := ⟨0x40010, 0x0, 0x0, 0, 32⟩
def Reg.CFG_CRC : FieldRef := ⟨0x40014, 0x0, 0x0, 0, 32⟩
def Reg.CFG_CRC_END : FieldRef := ⟨0x40018, 0x0, 0x0, 0, 32⟩
def Reg.CFG_TIME : FieldRef := ⟨0x4001C, 0x0, 0x0, 0, 32⟩
def Reg.CFG_DESIGN_LO : FieldRef := ⟨0x40020, 0x0, 0x0, 0, 32⟩
def Reg.CFG_DESIGN_HI : FieldRef := ⟨0x40024, 0x0, 0x0, 0, 32⟩
def Reg.CFG_QSPI : FieldRef := ⟨0x40028, 0x0, 0x0, 0, 32⟩
def Reg.CFG_FIFO : FieldRef := ⟨0x4002C, 0x0, 0x0, 0, 32⟩
def Reg.SCRB_CTL : FieldRef := ⟨0x50000, 0x0, 0x0, 0, 32⟩
def Reg.SCRB_STAT : FieldRef := ⟨0x50004, 0x0, 0x0, 0, 32⟩
def Reg.SCRB_PASSES : FieldRef := ⟨0x50008, 0x0, 0x0, 0, 32⟩
def Reg.SCRB_POS : FieldRef := ⟨0x5000C, 0x0, 0x0, 0, 32⟩
def Reg.SCRB_IRQ : FieldRef := ⟨0x50010, 0x0, 0x0, 0, 32⟩
def Reg.SCRB_IRQEN : FieldRef := ⟨0x50014, 0x0, 0x0, 0, 32⟩
def Reg.SCRB_HB_SGL : FieldRef := ⟨0x50018, 0x0, 0x0, 0, 32⟩
def Reg.SCRB_HB_DBL : FieldRef := ⟨0x5001C, 0x0, 0x0, 0, 32⟩
def Reg.SCRB_RLD_STAT : FieldRef := ⟨0x50040, 0x0, 0x0, 0, 32⟩
def Reg.SCRB_RLD_WORDS : FieldRef := ⟨0x50044, 0x0, 0x0, 0, 32⟩
def Reg.SCRB_RLD_FRAMES : FieldRef := ⟨0x50048, 0x0, 0x0, 0, 32⟩
def Reg.SCRB_RLD_ERRPOS : FieldRef := ⟨0x5004C, 0x0, 0x0, 0, 32⟩
def Reg.SCRB_RLD_IRQ : FieldRef := ⟨0x50050, 0x0, 0x0, 0, 32⟩
def Reg.SCRB_RLD_IRQEN : FieldRef := ⟨0x50054, 0x0, 0x0, 0, 32⟩
def Reg.SCRB_CB_STATE : FieldRef := ⟨0x50100, 0x20, 0x0, 0, 32⟩
def Reg.SCRB_CB_ISO : FieldRef := ⟨0x50104, 0x20, 0x0, 0, 32⟩
def Reg.SCRB_CB_SAFE0 : FieldRef := ⟨0x50108, 0x20, 0x0, 0, 32⟩
def Reg.SCRB_CB_SAFE1 : FieldRef := ⟨0x5010C, 0x20, 0x0, 0, 32⟩
def Reg.SCRB_CB_SGL : FieldRef := ⟨0x50110, 0x20, 0x0, 0, 32⟩
def Reg.SCRB_CB_DBL : FieldRef := ⟨0x50114, 0x20, 0x0, 0, 32⟩
def Reg.BUR_CMD : FieldRef := ⟨0x60000, 0x0, 0x0, 0, 32⟩
def Reg.BUR_STATUS : FieldRef := ⟨0x60004, 0x0, 0x0, 0, 32⟩
def Reg.BUR_DB : FieldRef := ⟨0x60008, 0x0, 0x0, 0, 32⟩
def Reg.BUR_BOOT : FieldRef := ⟨0x6000C, 0x0, 0x0, 0, 32⟩
def Reg.BUR_POLICY : FieldRef := ⟨0x60010, 0x0, 0x0, 0, 32⟩
def Reg.BUR_STAT : FieldRef := ⟨0x60014, 0x0, 0x0, 0, 32⟩
def Reg.BUR_KEYIDX_LO : FieldRef := ⟨0x60018, 0x0, 0x0, 0, 32⟩
def Reg.BUR_KEYIDX_HI : FieldRef := ⟨0x6001C, 0x0, 0x0, 0, 32⟩
def Reg.BUR_KEYRES_LO : FieldRef := ⟨0x60020, 0x0, 0x0, 0, 32⟩
def Reg.BUR_KEYRES_HI : FieldRef := ⟨0x60024, 0x0, 0x0, 0, 32⟩
def Reg.BUR_TAINT : FieldRef := ⟨0x60028, 0x0, 0x0, 0, 32⟩
def Reg.BUR_ARG : FieldRef := ⟨0x60040, 0x4, 0x0, 0, 32⟩
def Reg.BUR_CLAIM : FieldRef := ⟨0x60100, 0x4, 0x0, 0, 32⟩
def Reg.LCS_CTL : FieldRef := ⟨0x80000, 0x0, 0x0, 0, 32⟩
def Reg.LCS_STAT : FieldRef := ⟨0x80004, 0x0, 0x0, 0, 32⟩
def Reg.LCS_TIME_SNAP : FieldRef := ⟨0x80008, 0x0, 0x0, 0, 32⟩
def Reg.LCS_TIME_LO : FieldRef := ⟨0x80010, 0x0, 0x0, 0, 32⟩
def Reg.LCS_TIME_HI : FieldRef := ⟨0x80014, 0x0, 0x0, 0, 32⟩
def Reg.LCS_SMPQ_LO : FieldRef := ⟨0x80018, 0x0, 0x0, 0, 32⟩
def Reg.LCS_SMPQ_HI : FieldRef := ⟨0x8001C, 0x0, 0x0, 0, 32⟩
def Reg.LCS_NEXT_LO : FieldRef := ⟨0x80020, 0x0, 0x0, 0, 32⟩
def Reg.LCS_NEXT_HI : FieldRef := ⟨0x80024, 0x0, 0x0, 0, 32⟩
def Reg.LCS_NEXT_SRC : FieldRef := ⟨0x80028, 0x0, 0x0, 0, 32⟩
def Reg.LCS_AIRQ : FieldRef := ⟨0x80040, 0x4, 0x0, 0, 32⟩
def Reg.LCS_TIRQ : FieldRef := ⟨0x80060, 0x0, 0x0, 0, 32⟩
def Reg.LCS_RIRQ : FieldRef := ⟨0x80064, 0x0, 0x0, 0, 32⟩
def Reg.PR_SRC : FieldRef := ⟨0x80100, 0x40, 0x0, 0, 32⟩
def Reg.PR_CFG : FieldRef := ⟨0x80104, 0x40, 0x0, 0, 32⟩
def Reg.PR_TRK : FieldRef := ⟨0x80108, 0x40, 0x0, 0, 32⟩
def Reg.PR_ADJ : FieldRef := ⟨0x8010C, 0x40, 0x0, 0, 32⟩
def Reg.PR_STAT : FieldRef := ⟨0x80110, 0x40, 0x0, 0, 32⟩
def Reg.PR_CNT : FieldRef := ⟨0x80114, 0x40, 0x0, 0, 32⟩
def Reg.PR_PERIOD_LO : FieldRef := ⟨0x80118, 0x40, 0x0, 0, 32⟩
def Reg.PR_PERIOD_HI : FieldRef := ⟨0x8011C, 0x40, 0x0, 0, 32⟩
def Reg.PR_FRAC : FieldRef := ⟨0x80120, 0x40, 0x0, 0, 32⟩
def Reg.PR_TURN : FieldRef := ⟨0x80124, 0x40, 0x0, 0, 32⟩
def Reg.PR_ERR : FieldRef := ⟨0x80128, 0x40, 0x0, 0, 32⟩
def Reg.PR_LAST_LO : FieldRef := ⟨0x8012C, 0x40, 0x0, 0, 32⟩
def Reg.PR_LAST_HI : FieldRef := ⟨0x80130, 0x40, 0x0, 0, 32⟩
def Reg.PR_SNAP : FieldRef := ⟨0x8013C, 0x40, 0x0, 0, 32⟩
def Reg.TT_CTL : FieldRef := ⟨0x80400, 0x20, 0x0, 0, 32⟩
def Reg.TT_PERIOD : FieldRef := ⟨0x80404, 0x20, 0x0, 0, 32⟩
def Reg.TT_COUNT : FieldRef := ⟨0x80408, 0x20, 0x0, 0, 32⟩
def Reg.TT_DEST : FieldRef := ⟨0x8040C, 0x20, 0x0, 0, 32⟩
def Reg.TT_CNT : FieldRef := ⟨0x80410, 0x20, 0x0, 0, 32⟩
def Reg.CAP_CTL : FieldRef := ⟨0x80800, 0x20, 0x0, 0, 32⟩
def Reg.CAP_STAT : FieldRef := ⟨0x80804, 0x20, 0x0, 0, 32⟩
def Reg.CAP_TS_LO : FieldRef := ⟨0x80808, 0x20, 0x0, 0, 32⟩
def Reg.CAP_TS_HI : FieldRef := ⟨0x8080C, 0x20, 0x0, 0, 32⟩
def Reg.CAP_TURN : FieldRef := ⟨0x80810, 0x20, 0x0, 0, 32⟩
def Reg.CAP_FRAC : FieldRef := ⟨0x80814, 0x20, 0x0, 0, 32⟩
def Reg.CAP_INFO : FieldRef := ⟨0x80818, 0x20, 0x0, 0, 32⟩
def Reg.CAP_POP : FieldRef := ⟨0x8081C, 0x20, 0x0, 0, 32⟩
def Reg.PA_CTL : FieldRef := ⟨0x81000, 0x20, 0x0, 0, 32⟩
def Reg.PA_TARGET : FieldRef := ⟨0x81004, 0x20, 0x0, 0, 32⟩
def Reg.PA_FILTER : FieldRef := ⟨0x81008, 0x20, 0x0, 0, 32⟩
def Reg.PA_DEST : FieldRef := ⟨0x8100C, 0x20, 0x0, 0, 32⟩
def Reg.PA_CNT : FieldRef := ⟨0x81010, 0x20, 0x0, 0, 32⟩
def Reg.PA_LASTT : FieldRef := ⟨0x81014, 0x20, 0x0, 0, 32⟩
def Reg.PA_LASTR : FieldRef := ⟨0x81018, 0x20, 0x0, 0, 32⟩
def Reg.AP_CTL : FieldRef := ⟨0xA0000, 0x100, 0x0, 0, 32⟩
def Reg.AP_STAT : FieldRef := ⟨0xA0008, 0x100, 0x0, 0, 32⟩
def Reg.AP_ITRIM : FieldRef := ⟨0xA0010, 0x100, 0x4, 0, 32⟩
def Reg.AP_OTRIM : FieldRef := ⟨0xA0030, 0x100, 0x4, 0, 32⟩
def Reg.AC_CTL : FieldRef := ⟨0xC0000, 0x100, 0x0, 0, 32⟩
def Reg.AC_GAIN : FieldRef := ⟨0xC0004, 0x100, 0x0, 0, 32⟩
def Reg.AC_TUNE : FieldRef := ⟨0xC0008, 0x100, 0x0, 0, 32⟩
def Reg.AC_SC : FieldRef := ⟨0xC000C, 0x100, 0x0, 0, 32⟩
def Reg.AC_AZ : FieldRef := ⟨0xC0010, 0x100, 0x0, 0, 32⟩
def Reg.AC_TRIM : FieldRef := ⟨0xC0020, 0x100, 0x4, 0, 32⟩
def Reg.AC_STAT : FieldRef := ⟨0xC0030, 0x100, 0x0, 0, 32⟩
def Reg.AC_AZCNT : FieldRef := ⟨0xC0034, 0x100, 0x0, 0, 32⟩
def Reg.AC_LT : FieldRef := ⟨0xC0040, 0x100, 0x4, 0, 32⟩
def Reg.AC_CENSUS : FieldRef := ⟨0xCC000, 0x0, 0x0, 0, 32⟩
def Reg.AC_CENSUS_TRK : FieldRef := ⟨0xCC004, 0x0, 0x0, 0, 32⟩
def Reg.AC_CENSUS_DRV : FieldRef := ⟨0xCC008, 0x0, 0x0, 0, 32⟩
def Reg.AC_CGIN : FieldRef := ⟨0xCC100, 0x4, 0x0, 0, 32⟩
def Reg.AC_DAOUT : FieldRef := ⟨0xCC200, 0x4, 0x0, 0, 32⟩
def Reg.CG_CTL : FieldRef := ⟨0x100000, 0x1000, 0x0, 0, 32⟩
def Reg.CG_SEQCTL : FieldRef := ⟨0x100004, 0x1000, 0x0, 0, 32⟩
def Reg.CG_STAT : FieldRef := ⟨0x100008, 0x1000, 0x0, 0, 32⟩
def Reg.CG_REF : FieldRef := ⟨0x10000C, 0x1000, 0x0, 0, 32⟩
def Reg.CG_LISTEN : FieldRef := ⟨0x100010, 0x1000, 0x4, 0, 32⟩
def Reg.CG_FTRIG : FieldRef := ⟨0x100020, 0x1000, 0x0, 0, 32⟩
def Reg.CG_URG_CFG : FieldRef := ⟨0x100024, 0x1000, 0x0, 0, 32⟩
def Reg.CG_URG_DWELL : FieldRef := ⟨0x100028, 0x1000, 0x0, 0, 32⟩
def Reg.CG_LAT : FieldRef := ⟨0x10002C, 0x1000, 0x0, 0, 32⟩
def Reg.CG_IRQ : FieldRef := ⟨0x100030, 0x1000, 0x0, 0, 32⟩
def Reg.CG_IRQEN : FieldRef := ⟨0x100034, 0x1000, 0x0, 0, 32⟩
def Reg.CG_EVCNT : FieldRef := ⟨0x100038, 0x1000, 0x0, 0, 32⟩
def Reg.CG_OVRCNT : FieldRef := ⟨0x10003C, 0x1000, 0x0, 0, 32⟩
def Reg.CG_CNT_SNAP : FieldRef := ⟨0x100040, 0x1000, 0x0, 0, 32⟩
def Reg.CG_CONV_LO : FieldRef := ⟨0x100048, 0x1000, 0x0, 0, 32⟩
def Reg.CG_CONV_HI : FieldRef := ⟨0x10004C, 0x1000, 0x0, 0, 32⟩
def Reg.CG_EMIT_LO : FieldRef := ⟨0x100050, 0x1000, 0x0, 0, 32⟩
def Reg.CG_EMIT_HI : FieldRef := ⟨0x100054, 0x1000, 0x0, 0, 32⟩
def Reg.CG_SDISC_LO : FieldRef := ⟨0x100058, 0x1000, 0x0, 0, 32⟩
def Reg.CG_SDISC_HI : FieldRef := ⟨0x10005C, 0x1000, 0x0, 0, 32⟩
def Reg.CG_PDISC_LO : FieldRef := ⟨0x100060, 0x1000, 0x0, 0, 32⟩
def Reg.CG_PDISC_HI : FieldRef := ⟨0x100064, 0x1000, 0x0, 0, 32⟩
def Reg.CG_ELOG_INFO : FieldRef := ⟨0x100070, 0x1000, 0x0, 0, 32⟩
def Reg.CG_ELOG_IDX : FieldRef := ⟨0x100074, 0x1000, 0x0, 0, 32⟩
def Reg.CG_ELOG_TICK : FieldRef := ⟨0x100078, 0x1000, 0x0, 0, 32⟩
def Reg.CG_ELOG_POP : FieldRef := ⟨0x10007C, 0x1000, 0x0, 0, 32⟩
def Reg.CG_WIN_BND : FieldRef := ⟨0x100080, 0x1000, 0x10, 0, 32⟩
def Reg.CG_WIN_ARM : FieldRef := ⟨0x100084, 0x1000, 0x10, 0, 32⟩
def Reg.CG_WIN_MASK : FieldRef := ⟨0x100088, 0x1000, 0x10, 0, 32⟩
def Reg.CG_WIN_HIT : FieldRef := ⟨0x10008C, 0x1000, 0x10, 0, 32⟩
def Reg.CG_SEQ_CFG : FieldRef := ⟨0x100100, 0x1000, 0x8, 0, 32⟩
def Reg.CG_SEQ_DWELL : FieldRef := ⟨0x100104, 0x1000, 0x8, 0, 32⟩
def Reg.CG_ROT_CTL : FieldRef := ⟨0x100400, 0x1000, 0x0, 0, 32⟩
def Reg.CG_ROT_HOTOL : FieldRef := ⟨0x100404, 0x1000, 0x0, 0, 32⟩
def Reg.CG_ROT_QCFG : FieldRef := ⟨0x100408, 0x1000, 0x0, 0, 32⟩
def Reg.CG_ROT_MAP : FieldRef := ⟨0x10040C, 0x1000, 0x0, 0, 32⟩
def Reg.CG_ROT_STAT : FieldRef := ⟨0x100410, 0x1000, 0x0, 0, 32⟩
def Reg.CG_ROT_CNT : FieldRef := ⟨0x100414, 0x1000, 0x0, 0, 32⟩
def Reg.CG_ROT_SPUR : FieldRef := ⟨0x100418, 0x1000, 0x0, 0, 32⟩
def Reg.CG_HO_LOG_SL : FieldRef := ⟨0x100420, 0x1000, 0x0, 0, 32⟩
def Reg.CG_HO_LOG_MS : FieldRef := ⟨0x100424, 0x1000, 0x0, 0, 32⟩
def Reg.CG_HO_IDX_LO : FieldRef := ⟨0x100428, 0x1000, 0x0, 0, 32⟩
def Reg.CG_HO_IDX_HI : FieldRef := ⟨0x10042C, 0x1000, 0x0, 0, 32⟩
def Reg.CG_ROT_IRQ : FieldRef := ⟨0x100430, 0x1000, 0x0, 0, 32⟩
def Reg.CG_ROT_IRQEN : FieldRef := ⟨0x100434, 0x1000, 0x0, 0, 32⟩
def Reg.CG_SL_TRIM : FieldRef := ⟨0x100500, 0x1000, 0x20, 0, 32⟩
def Reg.CG_SL_SKEW : FieldRef := ⟨0x100504, 0x1000, 0x20, 0, 32⟩
def Reg.CG_SL_RES_OG : FieldRef := ⟨0x100508, 0x1000, 0x20, 0, 32⟩
def Reg.CG_SL_RES_SK : FieldRef := ⟨0x10050C, 0x1000, 0x20, 0, 32⟩
def Reg.CG_SL_QUAL : FieldRef := ⟨0x100510, 0x1000, 0x20, 0, 32⟩
def Reg.FC_CTL : FieldRef := ⟨0x200000, 0x1000, 0x0, 0, 32⟩
def Reg.FC_SRC : FieldRef := ⟨0x200004, 0x1000, 0x0, 0, 32⟩
def Reg.FC_STAT : FieldRef := ⟨0x200008, 0x1000, 0x0, 0, 32⟩
def Reg.FC_CIC : FieldRef := ⟨0x20000C, 0x1000, 0x0, 0, 32⟩
def Reg.FC_CIC_SHI : FieldRef := ⟨0x200010, 0x1000, 0x0, 0, 32⟩
def Reg.FC_CIC_SHC : FieldRef := ⟨0x200014, 0x1000, 0x0, 0, 32⟩
def Reg.FC_FIR : FieldRef := ⟨0x200018, 0x1000, 0x0, 0, 32⟩
def Reg.FC_BANK_INFO : FieldRef := ⟨0x20001C, 0x1000, 0x4, 0, 32⟩
def Reg.FC_GDELAY : FieldRef := ⟨0x200024, 0x1000, 0x0, 0, 32⟩
def Reg.FC_LAT : FieldRef := ⟨0x200028, 0x1000, 0x0, 0, 32⟩
def Reg.FC_EVCNT : FieldRef := ⟨0x20002C, 0x1000, 0x0, 0, 32⟩
def Reg.FC_CNT_SNAP : FieldRef := ⟨0x200030, 0x1000, 0x0, 0, 32⟩
def Reg.FC_COMP_LO : FieldRef := ⟨0x200038, 0x1000, 0x0, 0, 32⟩
def Reg.FC_COMP_HI : FieldRef := ⟨0x20003C, 0x1000, 0x0, 0, 32⟩
def Reg.FC_EMIT_LO : FieldRef := ⟨0x200040, 0x1000, 0x0, 0, 32⟩
def Reg.FC_EMIT_HI : FieldRef := ⟨0x200044, 0x1000, 0x0, 0, 32⟩
def Reg.FC_SUPP_LO : FieldRef := ⟨0x200048, 0x1000, 0x0, 0, 32⟩
def Reg.FC_SUPP_HI : FieldRef := ⟨0x20004C, 0x1000, 0x0, 0, 32⟩
def Reg.FC_GAP_INFO : FieldRef := ⟨0x200050, 0x1000, 0x0, 0, 32⟩
def Reg.FC_GAP_IDX : FieldRef := ⟨0x200054, 0x1000, 0x0, 0, 32⟩
def Reg.FC_GAP_CNT : FieldRef := ⟨0x200058, 0x1000, 0x0, 0, 32⟩
def Reg.FC_GAP_POP : FieldRef := ⟨0x20005C, 0x1000, 0x0, 0, 32⟩
def Reg.FC_IRQ : FieldRef := ⟨0x200060, 0x1000, 0x0, 0, 32⟩
def Reg.FC_IRQEN : FieldRef := ⟨0x200064, 0x1000, 0x0, 0, 32⟩
def Reg.FC_COEFA : FieldRef := ⟨0x200800, 0x1000, 0x4, 0, 32⟩
def Reg.FC_COEFB : FieldRef := ⟨0x200A00, 0x1000, 0x4, 0, 32⟩
def Reg.FC_RS_CTL : FieldRef := ⟨0x200200, 0x1000, 0x0, 0, 32⟩
def Reg.FC_RS_INC_LO : FieldRef := ⟨0x200204, 0x1000, 0x0, 0, 32⟩
def Reg.FC_RS_INC_HI : FieldRef := ⟨0x200208, 0x1000, 0x0, 0, 32⟩
def Reg.FC_RS_PHOFS : FieldRef := ⟨0x20020C, 0x1000, 0x0, 0, 32⟩
def Reg.FC_RS_LISTEN : FieldRef := ⟨0x200210, 0x1000, 0x4, 0, 32⟩
def Reg.FC_RS_STAT : FieldRef := ⟨0x200220, 0x1000, 0x0, 0, 32⟩
def Reg.FC_RS_EVCNT : FieldRef := ⟨0x200224, 0x1000, 0x0, 0, 32⟩
def Reg.FC_RS_IRQ : FieldRef := ⟨0x200228, 0x1000, 0x0, 0, 32⟩
def Reg.FC_RS_IRQEN : FieldRef := ⟨0x20022C, 0x1000, 0x0, 0, 32⟩
def Reg.FC_RS_CADDR : FieldRef := ⟨0x200230, 0x1000, 0x0, 0, 32⟩
def Reg.FC_RS_CDATA : FieldRef := ⟨0x200234, 0x1000, 0x0, 0, 32⟩
def Reg.FC_RS_KDELAY : FieldRef := ⟨0x200238, 0x1000, 0x0, 0, 32⟩
def Reg.FC_TLOG_INFO : FieldRef := ⟨0x200240, 0x1000, 0x0, 0, 32⟩
def Reg.FC_TLOG_TURN : FieldRef := ⟨0x200244, 0x1000, 0x0, 0, 32⟩
def Reg.FC_TLOG_F_LO : FieldRef := ⟨0x200248, 0x1000, 0x0, 0, 32⟩
def Reg.FC_TLOG_F_HI : FieldRef := ⟨0x20024C, 0x1000, 0x0, 0, 32⟩
def Reg.FC_TLOG_NSLOT : FieldRef := ⟨0x200250, 0x1000, 0x0, 0, 32⟩
def Reg.FC_TLOG_POP : FieldRef := ⟨0x200254, 0x1000, 0x0, 0, 32⟩
def Reg.FC_DET_CTL : FieldRef := ⟨0x200300, 0x1000, 0x0, 0, 32⟩
def Reg.FC_DET_WIN : FieldRef := ⟨0x200304, 0x1000, 0x0, 0, 32⟩
def Reg.FC_DET_SPAN : FieldRef := ⟨0x200308, 0x1000, 0x0, 0, 32⟩
def Reg.FC_DET_HOLD : FieldRef := ⟨0x20030C, 0x1000, 0x0, 0, 32⟩
def Reg.FC_DET_RMS : FieldRef := ⟨0x200310, 0x1000, 0x0, 0, 32⟩
def Reg.FC_DET_PKMAX : FieldRef := ⟨0x200314, 0x1000, 0x0, 0, 32⟩
def Reg.FC_DET_PKMIN : FieldRef := ⟨0x200318, 0x1000, 0x0, 0, 32⟩
def Reg.FC_DET_ENV : FieldRef := ⟨0x20031C, 0x1000, 0x0, 0, 32⟩
def Reg.FC_DET_WSTAT : FieldRef := ⟨0x200320, 0x1000, 0x0, 0, 32⟩
def Reg.FC_DET_WCNT : FieldRef := ⟨0x200324, 0x1000, 0x0, 0, 32⟩
def Reg.FC_DET_WIDX_LO : FieldRef := ⟨0x200328, 0x1000, 0x0, 0, 32⟩
def Reg.FC_DET_WIDX_HI : FieldRef := ⟨0x20032C, 0x1000, 0x0, 0, 32⟩
def Reg.WM_CTL : FieldRef := ⟨0x500000, 0x40, 0x0, 0, 32⟩
def Reg.WM_THR : FieldRef := ⟨0x500004, 0x40, 0x0, 0, 32⟩
def Reg.WM_HYS : FieldRef := ⟨0x500008, 0x40, 0x0, 0, 32⟩
def Reg.WM_TRIM : FieldRef := ⟨0x50000C, 0x40, 0x0, 0, 32⟩
def Reg.WM_BLANK : FieldRef := ⟨0x500010, 0x40, 0x0, 0, 32⟩
def Reg.WM_PCLR : FieldRef := ⟨0x500014, 0x40, 0x0, 0, 32⟩
def Reg.WM_STAT : FieldRef := ⟨0x500018, 0x40, 0x0, 0, 32⟩
def Reg.WM_LATCH : FieldRef := ⟨0x50001C, 0x40, 0x0, 0, 32⟩
def Reg.WM_CNT : FieldRef := ⟨0x500020, 0x40, 0x0, 0, 32⟩
def Reg.WM_ISUM : FieldRef := ⟨0x501800, 0x4, 0x0, 0, 32⟩
def Reg.DA_CTL : FieldRef := ⟨0x520000, 0x100, 0x0, 0, 32⟩
def Reg.DA_SRC : FieldRef := ⟨0x520004, 0x100, 0x0, 0, 32⟩
def Reg.DA_IDLE : FieldRef := ⟨0x520008, 0x100, 0x0, 0, 32⟩
def Reg.DA_STAT : FieldRef := ⟨0x52000C, 0x100, 0x0, 0, 32⟩
def Reg.DA_LISTEN : FieldRef := ⟨0x520010, 0x100, 0x4, 0, 32⟩
def Reg.DA_TRIM : FieldRef := ⟨0x520018, 0x100, 0x0, 0, 32⟩
def Reg.DA_EVCNT : FieldRef := ⟨0x52001C, 0x100, 0x0, 0, 32⟩
def Reg.DA_UNDW : FieldRef := ⟨0x520020, 0x100, 0x0, 0, 32⟩
def Reg.DA_SKIPW : FieldRef := ⟨0x520024, 0x100, 0x0, 0, 32⟩
def Reg.DA_IRQ : FieldRef := ⟨0x520028, 0x100, 0x0, 0, 32⟩
def Reg.DA_IRQEN : FieldRef := ⟨0x52002C, 0x100, 0x0, 0, 32⟩
def Reg.DA_PADDR : FieldRef := ⟨0x520030, 0x100, 0x0, 0, 32⟩
def Reg.DA_PDATA : FieldRef := ⟨0x520034, 0x100, 0x0, 0, 32⟩
def Reg.DA_LASTS : FieldRef := ⟨0x520038, 0x100, 0x0, 0, 32⟩
def Reg.DA_SEG_CFG : FieldRef := ⟨0x520040, 0x100, 0x8, 0, 32⟩
def Reg.DA_SEG_LEN : FieldRef := ⟨0x520044, 0x100, 0x8, 0, 32⟩
def Reg.CAL_STAT : FieldRef := ⟨0x540000, 0x0, 0x0, 0, 32⟩
def Reg.CAL_STORE : FieldRef := ⟨0x540004, 0x0, 0x0, 0, 32⟩
def Reg.CAL_RUNCNT : FieldRef := ⟨0x540008, 0x0, 0x0, 0, 32⟩
def Reg.CAL_DIS_FIRST : FieldRef := ⟨0x54000C, 0x0, 0x0, 0, 32⟩
def Reg.CAL_RBUF_TRIM : FieldRef := ⟨0x540010, 0x0, 0x0, 0, 32⟩
def Reg.CAL_CDAC_TRIM : FieldRef := ⟨0x540020, 0x4, 0x0, 0, 32⟩
def Reg.CAL_TS : FieldRef := ⟨0x540040, 0x4, 0x0, 0, 32⟩
def Reg.CAL_TS_TRIM : FieldRef := ⟨0x540060, 0x4, 0x0, 0, 32⟩
def Reg.CAL_Q : FieldRef := ⟨0x540080, 0x4, 0x0, 0, 32⟩
def Reg.CAL_REFMEAS : FieldRef := ⟨0x5400A0, 0x4, 0x0, 0, 32⟩
def Reg.PWR_CTL : FieldRef := ⟨0x560000, 0x0, 0x0, 0, 32⟩
def Reg.PWR_STAT : FieldRef := ⟨0x560004, 0x0, 0x0, 0, 32⟩
def Reg.PWR_CBPAUSE : FieldRef := ⟨0x560008, 0x0, 0x0, 0, 32⟩
def Reg.PWR_TWAKE_LO : FieldRef := ⟨0x560010, 0x0, 0x0, 0, 32⟩
def Reg.PWR_TWAKE_HI : FieldRef := ⟨0x560014, 0x0, 0x0, 0, 32⟩
def Reg.PWR_CNT : FieldRef := ⟨0x560018, 0x0, 0x0, 0, 32⟩
def Reg.PWR_IRQ : FieldRef := ⟨0x56001C, 0x0, 0x0, 0, 32⟩
def Reg.PWR_IRQEN : FieldRef := ⟨0x560020, 0x0, 0x0, 0, 32⟩
def Reg.DMA_CFG : FieldRef := ⟨0x580000, 0x40, 0x0, 0, 32⟩
def Reg.DMA_DATA : FieldRef := ⟨0x580004, 0x40, 0x0, 0, 32⟩
def Reg.DMA_REC : FieldRef := ⟨0x580008, 0x40, 0x0, 0, 32⟩
def Reg.DMA_RATE : FieldRef := ⟨0x58000C, 0x40, 0x0, 0, 32⟩
def Reg.DMA_MOD : FieldRef := ⟨0x580010, 0x40, 0x0, 0, 32⟩
def Reg.DMA_RSTAT : FieldRef := ⟨0x580014, 0x40, 0x0, 0, 32⟩
def Reg.DMA_HEAD : FieldRef := ⟨0x580018, 0x40, 0x0, 0, 32⟩
def Reg.DMA_TAIL : FieldRef := ⟨0x58001C, 0x40, 0x0, 0, 32⟩
def Reg.DMA_IRQ : FieldRef := ⟨0x580020, 0x40, 0x0, 0, 32⟩
def Reg.DMA_RSNAP : FieldRef := ⟨0x580024, 0x40, 0x0, 0, 32⟩
def Reg.DMA_PRODUCED_LO : FieldRef := ⟨0x580028, 0x40, 0x0, 0, 32⟩
def Reg.DMA_PRODUCED_HI : FieldRef := ⟨0x58002C, 0x40, 0x0, 0, 32⟩
def Reg.DMA_WRITTEN_LO : FieldRef := ⟨0x580030, 0x40, 0x0, 0, 32⟩
def Reg.DMA_WRITTEN_HI : FieldRef := ⟨0x580034, 0x40, 0x0, 0, 32⟩
def Reg.DMA_DROPPED_LO : FieldRef := ⟨0x580038, 0x40, 0x0, 0, 32⟩
def Reg.DMA_DROPPED_HI : FieldRef := ⟨0x58003C, 0x40, 0x0, 0, 32⟩
def Reg.DMA_BUDGET : FieldRef := ⟨0x5C0000, 0x0, 0x0, 0, 32⟩
def Reg.DMA_UPSUM : FieldRef := ⟨0x5C0004, 0x0, 0x0, 0, 32⟩
def Reg.DMA_DNSUM : FieldRef := ⟨0x5C0008, 0x0, 0x0, 0, 32⟩
def Reg.DMA_GSTAT : FieldRef := ⟨0x5C000C, 0x0, 0x0, 0, 32⟩
def Reg.DMA_PDIR_IDX : FieldRef := ⟨0x5C0010, 0x0, 0x0, 0, 32⟩
def Reg.DMA_PDIR_LO : FieldRef := ⟨0x5C0014, 0x0, 0x0, 0, 32⟩
def Reg.DMA_PDIR_HI : FieldRef := ⟨0x5C0018, 0x0, 0x0, 0, 32⟩
def Reg.DMA_STAT : FieldRef := ⟨0x5C001C, 0x0, 0x0, 0, 32⟩
def Reg.FAB_CTL : FieldRef := ⟨0x600000, 0x1000, 0x0, 0, 32⟩
def Reg.FAB_CSTAT : FieldRef := ⟨0x600004, 0x1000, 0x0, 0, 32⟩
def Reg.FAB_PEEK_SEL : FieldRef := ⟨0x600010, 0x1000, 0x0, 0, 32⟩
def Reg.FAB_PEEK_DATA : FieldRef := ⟨0x600014, 0x1000, 0x0, 0, 32⟩
def Reg.FAB_GCLK : FieldRef := ⟨0x618000, 0x4, 0x0, 0, 32⟩
def Reg.FAB_FPLL : FieldRef := ⟨0x618020, 0x0, 0x0, 0, 32⟩
def Reg.FAB_STAT : FieldRef := ⟨0x618024, 0x0, 0x0, 0, 32⟩
def Reg.DIO_PIN_CFG : FieldRef := ⟨0x680000, 0x4, 0x0, 0, 32⟩
def Reg.DIO_BANK_CTL : FieldRef := ⟨0x680400, 0x4, 0x0, 0, 32⟩
def Reg.DIO_BANK_STAT : FieldRef := ⟨0x680420, 0x4, 0x0, 0, 32⟩
def Reg.DIO_IN : FieldRef := ⟨0x680440, 0x4, 0x0, 0, 32⟩
def Reg.DIO_STAT : FieldRef := ⟨0x680460, 0x0, 0x0, 0, 32⟩
def Reg.DIO_BND_CTL : FieldRef := ⟨0x690000, 0x100, 0x0, 0, 32⟩
def Reg.DIO_BND_STAT : FieldRef := ⟨0x690004, 0x100, 0x0, 0, 32⟩
def Reg.DIO_BND_SLOT : FieldRef := ⟨0x690010, 0x100, 0x4, 0, 32⟩
def Reg.DIO_FPI_SRC : FieldRef := ⟨0x690040, 0x100, 0x10, 0, 32⟩
def Reg.DIO_FPI_CFG : FieldRef := ⟨0x690044, 0x100, 0x10, 0, 32⟩
def Reg.DIO_FPI_STAT : FieldRef := ⟨0x690048, 0x100, 0x10, 0, 32⟩
def Reg.DIO_FPI_DROP : FieldRef := ⟨0x69004C, 0x100, 0x10, 0, 32⟩
def Reg.DIO_FPO_CFG : FieldRef := ⟨0x690080, 0x100, 0x10, 0, 32⟩
def Reg.DIO_FPO_STAT : FieldRef := ⟨0x690084, 0x100, 0x10, 0, 32⟩
def Reg.DIO_FPO_REFUSED : FieldRef := ⟨0x690088, 0x100, 0x10, 0, 32⟩
def Reg.PRB_CTL : FieldRef := ⟨0x6A0000, 0x20, 0x0, 0, 32⟩
def Reg.PRB_SEL : FieldRef := ⟨0x6A0004, 0x20, 0x0, 0, 32⟩
def Reg.PRB_STAT : FieldRef := ⟨0x6A0008, 0x20, 0x0, 0, 32⟩
def Reg.PRB_WORDS : FieldRef := ⟨0x6A000C, 0x20, 0x0, 0, 32⟩
def Reg.TWN_CTL : FieldRef := ⟨0x6C0000, 0x0, 0x0, 0, 32⟩
def Reg.TWN_STAT : FieldRef := ⟨0x6C0004, 0x0, 0x0, 0, 32⟩
def Reg.TWN_FOCNT : FieldRef := ⟨0x6C0008, 0x0, 0x0, 0, 32⟩
def Reg.TWN_HSEQ : FieldRef := ⟨0x6C000C, 0x0, 0x0, 0, 32⟩
def Reg.TWN_RPL : FieldRef := ⟨0x6C0010, 0x0, 0x0, 0, 32⟩
def Reg.TWN_FOTICK_LO : FieldRef := ⟨0x6C0018, 0x0, 0x0, 0, 32⟩
def Reg.TWN_FOTICK_HI : FieldRef := ⟨0x6C001C, 0x0, 0x0, 0, 32⟩
def Reg.TWN_IRQ : FieldRef := ⟨0x6C0020, 0x0, 0x0, 0, 32⟩
def Reg.TWN_IRQEN : FieldRef := ⟨0x6C0024, 0x0, 0x0, 0, 32⟩
def Reg.TWN_CMP : FieldRef := ⟨0x6C0028, 0x0, 0x0, 0, 32⟩
def Reg.TWN_LANE : FieldRef := ⟨0x6C0040, 0x4, 0x0, 0, 32⟩
def Reg.TWN_MATCH : FieldRef := ⟨0x6C0080, 0x4, 0x0, 0, 32⟩
def Reg.VF_MSIX_ADDR_LO : FieldRef := ⟨0x2040000, 0x80000, 0x10, 0, 32⟩
def Reg.VF_MSIX_ADDR_HI : FieldRef := ⟨0x2040004, 0x80000, 0x10, 0, 32⟩
def Reg.VF_MSIX_DATA : FieldRef := ⟨0x2040008, 0x80000, 0x10, 0, 32⟩
def Reg.VF_MSIX_CTRL : FieldRef := ⟨0x204000C, 0x80000, 0x10, 0, 32⟩

/-! Fields. A register whose one field has no name of its own is named as the register. -/

def Fld.DEV_ID_FAMILY : FieldRef := ⟨0x0, 0x0, 0x0, 16, 16⟩
def Fld.DEV_ID_PART : FieldRef := ⟨0x0, 0x0, 0x0, 0, 16⟩
def Fld.DEV_MODE_FAULT_ST : FieldRef := ⟨0x10, 0x0, 0x0, 16, 8⟩
def Fld.DEV_MODE_CHG : FieldRef := ⟨0x10, 0x0, 0x0, 12, 1⟩
def Fld.DEV_MODE_CAUSE : FieldRef := ⟨0x10, 0x0, 0x0, 8, 4⟩
def Fld.DEV_MODE_PREV : FieldRef := ⟨0x10, 0x0, 0x0, 4, 4⟩
def Fld.DEV_MODE_MODE : FieldRef := ⟨0x10, 0x0, 0x0, 0, 4⟩
def Fld.DEV_COMPAT_WR_IGN : FieldRef := ⟨0x14, 0x0, 0x0, 8, 1⟩
def Fld.DEV_COMPAT_PIN : FieldRef := ⟨0x14, 0x0, 0x0, 1, 1⟩
def Fld.DEV_COMPAT_HERITAGE : FieldRef := ⟨0x14, 0x0, 0x0, 0, 1⟩
def Fld.DEV_XSTAT_XRST : FieldRef := ⟨0x20, 0x0, 0x0, 16, 13⟩
def Fld.DEV_XSTAT_XOVF : FieldRef := ⟨0x20, 0x0, 0x0, 0, 13⟩
def Fld.HOST_LINK_UP : FieldRef := ⟨0x10000, 0x0, 0x0, 31, 1⟩
def Fld.HOST_LINK_SPEED : FieldRef := ⟨0x10000, 0x0, 0x0, 16, 4⟩
def Fld.HOST_LINK_WIDTH : FieldRef := ⟨0x10000, 0x0, 0x0, 8, 5⟩
def Fld.HOST_LINK_MPS : FieldRef := ⟨0x10000, 0x0, 0x0, 4, 3⟩
def Fld.HOST_LINK_MRRS : FieldRef := ⟨0x10000, 0x0, 0x0, 0, 3⟩
def Fld.HOST_STAT_CPLTO : FieldRef := ⟨0x10004, 0x0, 0x0, 5, 1⟩
def Fld.HOST_STAT_RETRAIN : FieldRef := ⟨0x10004, 0x0, 0x0, 4, 1⟩
def Fld.HOST_STAT_VFBAD : FieldRef := ⟨0x10004, 0x0, 0x0, 3, 1⟩
def Fld.HOST_STAT_STOPWR : FieldRef := ⟨0x10004, 0x0, 0x0, 2, 1⟩
def Fld.HOST_STAT_LONGACC : FieldRef := ⟨0x10004, 0x0, 0x0, 1, 1⟩
def Fld.HOST_STAT_PARTIAL : FieldRef := ⟨0x10004, 0x0, 0x0, 0, 1⟩
def Fld.HOST_IRQEN : FieldRef := ⟨0x10008, 0x0, 0x0, 0, 6⟩
def Fld.HOST_BADOFS_FUNC : FieldRef := ⟨0x1000C, 0x0, 0x0, 27, 5⟩
def Fld.HOST_BADOFS_BAR : FieldRef := ⟨0x1000C, 0x0, 0x0, 25, 2⟩
def Fld.HOST_BADOFS_OFS : FieldRef := ⟨0x1000C, 0x0, 0x0, 0, 25⟩
def Fld.HOST_NUMVF : FieldRef := ⟨0x10010, 0x0, 0x0, 0, 5⟩
def Fld.MSIX_PBA : FieldRef := ⟨0x11000, 0x4, 0x0, 0, 32⟩
def Fld.MSIX_ADDR_LO : FieldRef := ⟨0x18000, 0x10, 0x0, 2, 30⟩
def Fld.MSIX_ADDR_HI : FieldRef := ⟨0x18004, 0x10, 0x0, 0, 32⟩
def Fld.MSIX_DATA : FieldRef := ⟨0x18008, 0x10, 0x0, 0, 32⟩
def Fld.MSIX_CTRL_MASK : FieldRef := ⟨0x1800C, 0x10, 0x0, 0, 1⟩
def Fld.PGH_STAT_DBFREE : FieldRef := ⟨0x20000, 0x0, 0x0, 1, 1⟩
def Fld.PGH_STAT_BADACC : FieldRef := ⟨0x20000, 0x0, 0x0, 0, 1⟩
def Fld.PGH_BADCHAN_FUNC : FieldRef := ⟨0x20004, 0x0, 0x0, 16, 16⟩
def Fld.PGH_BADCHAN_CHAN : FieldRef := ⟨0x20004, 0x0, 0x0, 0, 10⟩
def Fld.PGH_ALLOC_SEC : FieldRef := ⟨0x20008, 0x0, 0x0, 16, 7⟩
def Fld.PGH_ALLOC_NONSEC : FieldRef := ⟨0x20008, 0x0, 0x0, 0, 11⟩
def Fld.PGH_SNDSUM : FieldRef := ⟨0x20100, 0x4, 0x0, 0, 32⟩
def Fld.PGH_RCVSUM : FieldRef := ⟨0x20180, 0x4, 0x0, 0, 32⟩
def Fld.CFG_STAT_REASON : FieldRef := ⟨0x40000, 0x0, 0x0, 24, 8⟩
def Fld.CFG_STAT_STRAY : FieldRef := ⟨0x40000, 0x0, 0x0, 15, 1⟩
def Fld.CFG_STAT_REF_TMO : FieldRef := ⟨0x40000, 0x0, 0x0, 14, 1⟩
def Fld.CFG_STAT_BOOT : FieldRef := ⟨0x40000, 0x0, 0x0, 12, 2⟩
def Fld.CFG_STAT_SIGNED : FieldRef := ⟨0x40000, 0x0, 0x0, 11, 1⟩
def Fld.CFG_STAT_SRC : FieldRef := ⟨0x40000, 0x0, 0x0, 8, 3⟩
def Fld.CFG_STAT_PHASE : FieldRef := ⟨0x40000, 0x0, 0x0, 0, 4⟩
def Fld.CFG_WORDS : FieldRef := ⟨0x40004, 0x0, 0x0, 0, 32⟩
def Fld.CFG_FRAMES : FieldRef := ⟨0x40008, 0x0, 0x0, 0, 32⟩
def Fld.CFG_NEXTFA : FieldRef := ⟨0x4000C, 0x0, 0x0, 0, 24⟩
def Fld.CFG_ERRPOS : FieldRef := ⟨0x40010, 0x0, 0x0, 0, 32⟩
def Fld.CFG_CRC : FieldRef := ⟨0x40014, 0x0, 0x0, 0, 32⟩
def Fld.CFG_CRC_END : FieldRef := ⟨0x40018, 0x0, 0x0, 0, 32⟩
def Fld.CFG_TIME : FieldRef := ⟨0x4001C, 0x0, 0x0, 0, 32⟩
def Fld.CFG_DESIGN_LO : FieldRef := ⟨0x40020, 0x0, 0x0, 0, 32⟩
def Fld.CFG_DESIGN_HI : FieldRef := ⟨0x40024, 0x0, 0x0, 0, 32⟩
def Fld.CFG_QSPI_CLKDIV : FieldRef := ⟨0x40028, 0x0, 0x0, 24, 4⟩
def Fld.CFG_QSPI_ADDR : FieldRef := ⟨0x40028, 0x0, 0x0, 2, 22⟩
def Fld.CFG_FIFO : FieldRef := ⟨0x4002C, 0x0, 0x0, 0, 11⟩
def Fld.SCRB_CTL_EN : FieldRef := ⟨0x50000, 0x0, 0x0, 31, 1⟩
def Fld.SCRB_CTL_GAP : FieldRef := ⟨0x50000, 0x0, 0x0, 0, 16⟩
def Fld.SCRB_STAT_VOTEFIX : FieldRef := ⟨0x50004, 0x0, 0x0, 8, 1⟩
def Fld.SCRB_STAT_RUNNING : FieldRef := ⟨0x50004, 0x0, 0x0, 0, 1⟩
def Fld.SCRB_PASSES : FieldRef := ⟨0x50008, 0x0, 0x0, 0, 32⟩
def Fld.SCRB_POS : FieldRef := ⟨0x5000C, 0x0, 0x0, 0, 24⟩
def Fld.SCRB_IRQ_VOTE : FieldRef := ⟨0x50010, 0x0, 0x0, 2, 1⟩
def Fld.SCRB_IRQ_DBL : FieldRef := ⟨0x50010, 0x0, 0x0, 1, 1⟩
def Fld.SCRB_IRQ_SGL : FieldRef := ⟨0x50010, 0x0, 0x0, 0, 1⟩
def Fld.SCRB_IRQEN : FieldRef := ⟨0x50014, 0x0, 0x0, 0, 3⟩
def Fld.SCRB_HB_SGL : FieldRef := ⟨0x50018, 0x0, 0x0, 0, 32⟩
def Fld.SCRB_HB_DBL : FieldRef := ⟨0x5001C, 0x0, 0x0, 0, 32⟩
def Fld.SCRB_RLD_STAT_REASON : FieldRef := ⟨0x50040, 0x0, 0x0, 24, 8⟩
def Fld.SCRB_RLD_STAT_STATUS : FieldRef := ⟨0x50040, 0x0, 0x0, 16, 8⟩
def Fld.SCRB_RLD_STAT_CB : FieldRef := ⟨0x50040, 0x0, 0x0, 8, 5⟩
def Fld.SCRB_RLD_STAT_SIGNED : FieldRef := ⟨0x50040, 0x0, 0x0, 4, 1⟩
def Fld.SCRB_RLD_STAT_PHASE : FieldRef := ⟨0x50040, 0x0, 0x0, 0, 4⟩
def Fld.SCRB_RLD_WORDS : FieldRef := ⟨0x50044, 0x0, 0x0, 0, 32⟩
def Fld.SCRB_RLD_FRAMES : FieldRef := ⟨0x50048, 0x0, 0x0, 0, 10⟩
def Fld.SCRB_RLD_ERRPOS : FieldRef := ⟨0x5004C, 0x0, 0x0, 0, 32⟩
def Fld.SCRB_RLD_IRQ_FAIL : FieldRef := ⟨0x50050, 0x0, 0x0, 1, 1⟩
def Fld.SCRB_RLD_IRQ_DONE : FieldRef := ⟨0x50050, 0x0, 0x0, 0, 1⟩
def Fld.SCRB_RLD_IRQEN : FieldRef := ⟨0x50054, 0x0, 0x0, 0, 2⟩
def Fld.SCRB_CB_STATE_REASON : FieldRef := ⟨0x50100, 0x20, 0x0, 24, 8⟩
def Fld.SCRB_CB_STATE_SECURE : FieldRef := ⟨0x50100, 0x20, 0x0, 8, 1⟩
def Fld.SCRB_CB_STATE_STATE : FieldRef := ⟨0x50100, 0x20, 0x0, 0, 3⟩
def Fld.SCRB_CB_ISO_FRQ1_SAFE : FieldRef := ⟨0x50104, 0x20, 0x0, 2, 1⟩
def Fld.SCRB_CB_ISO_FRQ0_SAFE : FieldRef := ⟨0x50104, 0x20, 0x0, 1, 1⟩
def Fld.SCRB_CB_ISO_HOLD : FieldRef := ⟨0x50104, 0x20, 0x0, 0, 1⟩
def Fld.SCRB_CB_SAFE0 : FieldRef := ⟨0x50108, 0x20, 0x0, 0, 32⟩
def Fld.SCRB_CB_SAFE1 : FieldRef := ⟨0x5010C, 0x20, 0x0, 0, 32⟩
def Fld.SCRB_CB_SGL : FieldRef := ⟨0x50110, 0x20, 0x0, 0, 32⟩
def Fld.SCRB_CB_DBL_VALID : FieldRef := ⟨0x50114, 0x20, 0x0, 31, 1⟩
def Fld.SCRB_CB_DBL_FA : FieldRef := ⟨0x50114, 0x20, 0x0, 0, 24⟩
def Fld.BUR_CMD_TAG : FieldRef := ⟨0x60000, 0x0, 0x0, 8, 8⟩
def Fld.BUR_CMD_CODE : FieldRef := ⟨0x60000, 0x0, 0x0, 0, 8⟩
def Fld.BUR_STATUS_BUSY : FieldRef := ⟨0x60004, 0x0, 0x0, 31, 1⟩
def Fld.BUR_STATUS_DONE : FieldRef := ⟨0x60004, 0x0, 0x0, 30, 1⟩
def Fld.BUR_STATUS_IGN : FieldRef := ⟨0x60004, 0x0, 0x0, 29, 1⟩
def Fld.BUR_STATUS_TAG : FieldRef := ⟨0x60004, 0x0, 0x0, 8, 8⟩
def Fld.BUR_STATUS_STATUS : FieldRef := ⟨0x60004, 0x0, 0x0, 0, 8⟩
def Fld.BUR_DB_GO : FieldRef := ⟨0x60008, 0x0, 0x0, 0, 1⟩
def Fld.BUR_BOOT_FW_OK : FieldRef := ⟨0x6000C, 0x0, 0x0, 31, 1⟩
def Fld.BUR_BOOT_ERR : FieldRef := ⟨0x6000C, 0x0, 0x0, 24, 4⟩
def Fld.BUR_BOOT_RESTARTS : FieldRef := ⟨0x6000C, 0x0, 0x0, 16, 8⟩
def Fld.BUR_BOOT_VERSION : FieldRef := ⟨0x6000C, 0x0, 0x0, 0, 16⟩
def Fld.BUR_POLICY_REVOKED : FieldRef := ⟨0x60010, 0x0, 0x0, 8, 4⟩
def Fld.BUR_POLICY_ENROLLED : FieldRef := ⟨0x60010, 0x0, 0x0, 4, 4⟩
def Fld.BUR_POLICY_ENROLL_LOCK : FieldRef := ⟨0x60010, 0x0, 0x0, 1, 1⟩
def Fld.BUR_POLICY_REQ_SIGNED : FieldRef := ⟨0x60010, 0x0, 0x0, 0, 1⟩
def Fld.BUR_STAT_RESTART : FieldRef := ⟨0x60014, 0x0, 0x0, 3, 1⟩
def Fld.BUR_STAT_TRNG_FAIL : FieldRef := ⟨0x60014, 0x0, 0x0, 2, 1⟩
def Fld.BUR_STAT_SREQ_DROP : FieldRef := ⟨0x60014, 0x0, 0x0, 1, 1⟩
def Fld.BUR_STAT_KEY_LOW : FieldRef := ⟨0x60014, 0x0, 0x0, 0, 1⟩
def Fld.BUR_KEYIDX_LO : FieldRef := ⟨0x60018, 0x0, 0x0, 0, 32⟩
def Fld.BUR_KEYIDX_HI : FieldRef := ⟨0x6001C, 0x0, 0x0, 0, 8⟩
def Fld.BUR_KEYRES_LO : FieldRef := ⟨0x60020, 0x0, 0x0, 0, 32⟩
def Fld.BUR_KEYRES_HI : FieldRef := ⟨0x60024, 0x0, 0x0, 0, 8⟩
def Fld.BUR_TAINT : FieldRef := ⟨0x60028, 0x0, 0x0, 0, 24⟩
def Fld.BUR_ARG : FieldRef := ⟨0x60040, 0x4, 0x0, 0, 32⟩
def Fld.BUR_CLAIM : FieldRef := ⟨0x60100, 0x4, 0x0, 0, 32⟩
def Fld.LCS_CTL_CLKSRC : FieldRef := ⟨0x80000, 0x0, 0x0, 16, 2⟩
def Fld.LCS_CTL_REFDIV : FieldRef := ⟨0x80000, 0x0, 0x0, 0, 9⟩
def Fld.LCS_STAT_WR_IGN : FieldRef := ⟨0x80004, 0x0, 0x0, 16, 1⟩
def Fld.LCS_STAT_PLL_SLIPS : FieldRef := ⟨0x80004, 0x0, 0x0, 8, 8⟩
def Fld.LCS_STAT_SMP_VALID : FieldRef := ⟨0x80004, 0x0, 0x0, 1, 1⟩
def Fld.LCS_STAT_PLL_LOCK : FieldRef := ⟨0x80004, 0x0, 0x0, 0, 1⟩
def Fld.LCS_TIME_SNAP_GO : FieldRef := ⟨0x80008, 0x0, 0x0, 0, 1⟩
def Fld.LCS_TIME_LO : FieldRef := ⟨0x80010, 0x0, 0x0, 0, 32⟩
def Fld.LCS_TIME_HI : FieldRef := ⟨0x80014, 0x0, 0x0, 0, 32⟩
def Fld.LCS_SMPQ_LO : FieldRef := ⟨0x80018, 0x0, 0x0, 0, 32⟩
def Fld.LCS_SMPQ_HI : FieldRef := ⟨0x8001C, 0x0, 0x0, 0, 16⟩
def Fld.LCS_NEXT_LO : FieldRef := ⟨0x80020, 0x0, 0x0, 0, 32⟩
def Fld.LCS_NEXT_HI : FieldRef := ⟨0x80024, 0x0, 0x0, 0, 32⟩
def Fld.LCS_NEXT_SRC_TMR : FieldRef := ⟨0x80028, 0x0, 0x0, 8, 1⟩
def Fld.LCS_NEXT_SRC_NUM : FieldRef := ⟨0x80028, 0x0, 0x0, 0, 8⟩
def Fld.LCS_AIRQ_BITS : FieldRef := ⟨0x80040, 0x4, 0x0, 0, 32⟩
def Fld.LCS_TIRQ_BITS : FieldRef := ⟨0x80060, 0x0, 0x0, 0, 32⟩
def Fld.LCS_RIRQ_BITS : FieldRef := ⟨0x80064, 0x0, 0x0, 0, 24⟩
def Fld.PR_SRC_IKIND : FieldRef := ⟨0x80100, 0x40, 0x0, 24, 2⟩
def Fld.PR_SRC_IINDEX : FieldRef := ⟨0x80100, 0x40, 0x0, 16, 8⟩
def Fld.PR_SRC_KIND : FieldRef := ⟨0x80100, 0x40, 0x0, 8, 2⟩
def Fld.PR_SRC_INDEX : FieldRef := ⟨0x80100, 0x40, 0x0, 0, 8⟩
def Fld.PR_CFG_EN : FieldRef := ⟨0x80104, 0x40, 0x0, 31, 1⟩
def Fld.PR_CFG_QDEC : FieldRef := ⟨0x80104, 0x40, 0x0, 29, 2⟩
def Fld.PR_CFG_DIR : FieldRef := ⟨0x80104, 0x40, 0x0, 28, 1⟩
def Fld.PR_CFG_EDGE : FieldRef := ⟨0x80104, 0x40, 0x0, 26, 2⟩
def Fld.PR_CFG_SMOOTH : FieldRef := ⟨0x80104, 0x40, 0x0, 23, 3⟩
def Fld.PR_CFG_EPT_M1 : FieldRef := ⟨0x80104, 0x40, 0x0, 0, 16⟩
def Fld.PR_TRK_TOL : FieldRef := ⟨0x80108, 0x40, 0x0, 24, 8⟩
def Fld.PR_TRK_ACQ : FieldRef := ⟨0x80108, 0x40, 0x0, 16, 8⟩
def Fld.PR_TRK_COAST : FieldRef := ⟨0x80108, 0x40, 0x0, 8, 8⟩
def Fld.PR_ADJ_DELAY : FieldRef := ⟨0x8010C, 0x40, 0x0, 16, 16⟩
def Fld.PR_ADJ_HOLDOFF : FieldRef := ⟨0x8010C, 0x40, 0x0, 0, 16⟩
def Fld.PR_STAT_EPOCH : FieldRef := ⟨0x80110, 0x40, 0x0, 24, 8⟩
def Fld.PR_STAT_STATE : FieldRef := ⟨0x80110, 0x40, 0x0, 0, 3⟩
def Fld.PR_CNT_SLIP : FieldRef := ⟨0x80114, 0x40, 0x0, 24, 8⟩
def Fld.PR_CNT_MISS : FieldRef := ⟨0x80114, 0x40, 0x0, 16, 8⟩
def Fld.PR_CNT_GLITCH : FieldRef := ⟨0x80114, 0x40, 0x0, 8, 8⟩
def Fld.PR_CNT_DECERR : FieldRef := ⟨0x80114, 0x40, 0x0, 0, 8⟩
def Fld.PR_PERIOD_LO : FieldRef := ⟨0x80118, 0x40, 0x0, 0, 32⟩
def Fld.PR_PERIOD_HI : FieldRef := ⟨0x8011C, 0x40, 0x0, 0, 16⟩
def Fld.PR_FRAC : FieldRef := ⟨0x80120, 0x40, 0x0, 0, 32⟩
def Fld.PR_TURN : FieldRef := ⟨0x80124, 0x40, 0x0, 0, 32⟩
def Fld.PR_ERR : FieldRef := ⟨0x80128, 0x40, 0x0, 0, 32⟩
def Fld.PR_LAST_LO : FieldRef := ⟨0x8012C, 0x40, 0x0, 0, 32⟩
def Fld.PR_LAST_HI : FieldRef := ⟨0x80130, 0x40, 0x0, 0, 32⟩
def Fld.PR_SNAP_GO : FieldRef := ⟨0x8013C, 0x40, 0x0, 0, 1⟩
def Fld.TT_CTL_EN : FieldRef := ⟨0x80400, 0x20, 0x0, 31, 1⟩
def Fld.TT_CTL_START : FieldRef := ⟨0x80400, 0x20, 0x0, 30, 1⟩
def Fld.TT_CTL_PERIODIC : FieldRef := ⟨0x80400, 0x20, 0x0, 29, 1⟩
def Fld.TT_CTL_PRESC : FieldRef := ⟨0x80400, 0x20, 0x0, 27, 2⟩
def Fld.TT_CTL_ARM_EN : FieldRef := ⟨0x80400, 0x20, 0x0, 26, 1⟩
def Fld.TT_CTL_ARM_PA : FieldRef := ⟨0x80400, 0x20, 0x0, 18, 8⟩
def Fld.TT_CTL_ACT : FieldRef := ⟨0x80400, 0x20, 0x0, 0, 12⟩
def Fld.TT_PERIOD : FieldRef := ⟨0x80404, 0x20, 0x0, 0, 32⟩
def Fld.TT_COUNT : FieldRef := ⟨0x80408, 0x20, 0x0, 0, 32⟩
def Fld.TT_DEST_CHAN : FieldRef := ⟨0x8040C, 0x20, 0x0, 16, 10⟩
def Fld.TT_DEST_DB_BIT : FieldRef := ⟨0x8040C, 0x20, 0x0, 8, 5⟩
def Fld.TT_DEST_EVT : FieldRef := ⟨0x8040C, 0x20, 0x0, 0, 6⟩
def Fld.TT_CNT : FieldRef := ⟨0x80410, 0x20, 0x0, 0, 32⟩
def Fld.CAP_CTL_EN : FieldRef := ⟨0x80800, 0x20, 0x0, 31, 1⟩
def Fld.CAP_CTL_EDGE : FieldRef := ⟨0x80800, 0x20, 0x0, 26, 2⟩
def Fld.CAP_CTL_KIND : FieldRef := ⟨0x80800, 0x20, 0x0, 24, 2⟩
def Fld.CAP_CTL_INDEX : FieldRef := ⟨0x80800, 0x20, 0x0, 16, 8⟩
def Fld.CAP_CTL_REF : FieldRef := ⟨0x80800, 0x20, 0x0, 0, 3⟩
def Fld.CAP_STAT_LEVEL : FieldRef := ⟨0x80804, 0x20, 0x0, 16, 5⟩
def Fld.CAP_STAT_OVF : FieldRef := ⟨0x80804, 0x20, 0x0, 8, 1⟩
def Fld.CAP_TS_LO : FieldRef := ⟨0x80808, 0x20, 0x0, 0, 32⟩
def Fld.CAP_TS_HI : FieldRef := ⟨0x8080C, 0x20, 0x0, 0, 32⟩
def Fld.CAP_TURN : FieldRef := ⟨0x80810, 0x20, 0x0, 0, 32⟩
def Fld.CAP_FRAC : FieldRef := ⟨0x80814, 0x20, 0x0, 0, 32⟩
def Fld.CAP_INFO_EPOCH : FieldRef := ⟨0x80818, 0x20, 0x0, 24, 8⟩
def Fld.CAP_INFO_STATE : FieldRef := ⟨0x80818, 0x20, 0x0, 0, 3⟩
def Fld.CAP_POP_GO : FieldRef := ⟨0x8081C, 0x20, 0x0, 0, 1⟩
def Fld.PA_CTL_EN : FieldRef := ⟨0x81000, 0x20, 0x0, 31, 1⟩
def Fld.PA_CTL_PEND : FieldRef := ⟨0x81000, 0x20, 0x0, 30, 1⟩
def Fld.PA_CTL_REF : FieldRef := ⟨0x81000, 0x20, 0x0, 27, 3⟩
def Fld.PA_CTL_ACT : FieldRef := ⟨0x81000, 0x20, 0x0, 0, 12⟩
def Fld.PA_TARGET : FieldRef := ⟨0x81004, 0x20, 0x0, 0, 32⟩
def Fld.PA_FILTER_EVERY_M1 : FieldRef := ⟨0x81008, 0x20, 0x0, 16, 16⟩
def Fld.PA_FILTER_SKIP : FieldRef := ⟨0x81008, 0x20, 0x0, 0, 16⟩
def Fld.PA_DEST_CHAN : FieldRef := ⟨0x8100C, 0x20, 0x0, 16, 10⟩
def Fld.PA_DEST_DB_BIT : FieldRef := ⟨0x8100C, 0x20, 0x0, 8, 5⟩
def Fld.PA_DEST_EVT : FieldRef := ⟨0x8100C, 0x20, 0x0, 0, 6⟩
def Fld.PA_CNT : FieldRef := ⟨0x81010, 0x20, 0x0, 0, 32⟩
def Fld.PA_LASTT : FieldRef := ⟨0x81014, 0x20, 0x0, 0, 32⟩
def Fld.PA_LASTR_COAST : FieldRef := ⟨0x81018, 0x20, 0x0, 16, 1⟩
def Fld.PA_LASTR_REM : FieldRef := ⟨0x81018, 0x20, 0x0, 0, 16⟩
def Fld.AP_CTL_EN : FieldRef := ⟨0xA0000, 0x100, 0x0, 8, 1⟩
def Fld.AP_CTL_DIR : FieldRef := ⟨0xA0000, 0x100, 0x0, 4, 1⟩
def Fld.AP_CTL_TERM : FieldRef := ⟨0xA0000, 0x100, 0x0, 3, 1⟩
def Fld.AP_CTL_RANGE : FieldRef := ⟨0xA0000, 0x100, 0x0, 0, 3⟩
def Fld.AP_STAT_TERM_ADJ : FieldRef := ⟨0xA0008, 0x100, 0x0, 2, 1⟩
def Fld.AP_STAT_OVLD : FieldRef := ⟨0xA0008, 0x100, 0x0, 1, 1⟩
def Fld.AP_STAT_ACTIVE : FieldRef := ⟨0xA0008, 0x100, 0x0, 0, 1⟩
def Fld.AP_ITRIM_OFS : FieldRef := ⟨0xA0010, 0x100, 0x4, 16, 10⟩
def Fld.AP_ITRIM_GAIN : FieldRef := ⟨0xA0010, 0x100, 0x4, 0, 10⟩
def Fld.AP_OTRIM_OFS : FieldRef := ⟨0xA0030, 0x100, 0x4, 16, 10⟩
def Fld.AP_OTRIM_GAIN : FieldRef := ⟨0xA0030, 0x100, 0x4, 0, 10⟩
def Fld.AC_CTL_PKDEC : FieldRef := ⟨0xC0000, 0x100, 0x0, 11, 1⟩
def Fld.AC_CTL_RST : FieldRef := ⟨0xC0000, 0x100, 0x0, 10, 1⟩
def Fld.AC_CTL_SEL : FieldRef := ⟨0xC0000, 0x100, 0x0, 8, 2⟩
def Fld.AC_CTL_FUNC : FieldRef := ⟨0xC0000, 0x100, 0x0, 0, 4⟩
def Fld.AC_GAIN_GCODE : FieldRef := ⟨0xC0004, 0x100, 0x0, 0, 7⟩
def Fld.AC_TUNE_RSEL : FieldRef := ⟨0xC0008, 0x100, 0x0, 16, 8⟩
def Fld.AC_TUNE_CAP : FieldRef := ⟨0xC0008, 0x100, 0x0, 8, 6⟩
def Fld.AC_TUNE_M : FieldRef := ⟨0xC0008, 0x100, 0x0, 7, 1⟩
def Fld.AC_TUNE_QSEL : FieldRef := ⟨0xC0008, 0x100, 0x0, 0, 4⟩
def Fld.AC_SC_SWDIV : FieldRef := ⟨0xC000C, 0x100, 0x0, 16, 12⟩
def Fld.AC_SC_CS : FieldRef := ⟨0xC000C, 0x100, 0x0, 0, 6⟩
def Fld.AC_AZ_AZPER : FieldRef := ⟨0xC0010, 0x100, 0x0, 16, 5⟩
def Fld.AC_AZ_HOLD : FieldRef := ⟨0xC0010, 0x100, 0x0, 0, 1⟩
def Fld.AC_TRIM_OFS : FieldRef := ⟨0xC0020, 0x100, 0x4, 16, 10⟩
def Fld.AC_TRIM_GAIN : FieldRef := ⟨0xC0020, 0x100, 0x4, 0, 10⟩
def Fld.AC_STAT_SERVING : FieldRef := ⟨0xC0030, 0x100, 0x0, 16, 1⟩
def Fld.AC_STAT_WR_IGN : FieldRef := ⟨0xC0030, 0x100, 0x0, 4, 1⟩
def Fld.AC_STAT_FC_RANGE : FieldRef := ⟨0xC0030, 0x100, 0x0, 3, 1⟩
def Fld.AC_STAT_SAT : FieldRef := ⟨0xC0030, 0x100, 0x0, 2, 1⟩
def Fld.AC_STAT_AZ_DIS : FieldRef := ⟨0xC0030, 0x100, 0x0, 1, 1⟩
def Fld.AC_AZCNT_DISAGREE : FieldRef := ⟨0xC0034, 0x100, 0x0, 16, 16⟩
def Fld.AC_AZCNT_SWAPS : FieldRef := ⟨0xC0034, 0x100, 0x0, 0, 16⟩
def Fld.AC_LT_SPEN : FieldRef := ⟨0xC0040, 0x100, 0x4, 15, 1⟩
def Fld.AC_LT_SPINE : FieldRef := ⟨0xC0040, 0x100, 0x4, 8, 6⟩
def Fld.AC_LT_P_OUT : FieldRef := ⟨0xC0040, 0x100, 0x4, 7, 1⟩
def Fld.AC_LT_P_IN1 : FieldRef := ⟨0xC0040, 0x100, 0x4, 6, 1⟩
def Fld.AC_LT_P_IN0 : FieldRef := ⟨0xC0040, 0x100, 0x4, 5, 1⟩
def Fld.AC_LT_OUT : FieldRef := ⟨0xC0040, 0x100, 0x4, 4, 1⟩
def Fld.AC_LT_IN1 : FieldRef := ⟨0xC0040, 0x100, 0x4, 3, 1⟩
def Fld.AC_LT_IN0 : FieldRef := ⟨0xC0040, 0x100, 0x4, 2, 1⟩
def Fld.AC_LT_DRV : FieldRef := ⟨0xC0040, 0x100, 0x4, 1, 1⟩
def Fld.AC_LT_FE : FieldRef := ⟨0xC0040, 0x100, 0x4, 0, 1⟩
def Fld.AC_CENSUS_WR_REFUSED : FieldRef := ⟨0xCC000, 0x0, 0x0, 24, 1⟩
def Fld.AC_CENSUS_NFAIL : FieldRef := ⟨0xCC000, 0x0, 0x0, 16, 8⟩
def Fld.AC_CENSUS_FLOAT : FieldRef := ⟨0xCC000, 0x0, 0x0, 8, 8⟩
def Fld.AC_CENSUS_PASS : FieldRef := ⟨0xCC000, 0x0, 0x0, 0, 1⟩
def Fld.AC_CENSUS_TRK : FieldRef := ⟨0xCC004, 0x0, 0x0, 0, 16⟩
def Fld.AC_CENSUS_DRV_SECOND : FieldRef := ⟨0xCC008, 0x0, 0x0, 16, 16⟩
def Fld.AC_CENSUS_DRV_LOWEST : FieldRef := ⟨0xCC008, 0x0, 0x0, 0, 16⟩
def Fld.AC_CGIN_KIND0 : FieldRef := ⟨0xCC100, 0x4, 0x0, 6, 2⟩
def Fld.AC_CGIN_SPINE0 : FieldRef := ⟨0xCC100, 0x4, 0x0, 0, 6⟩
def Fld.AC_CGIN_KIND1 : FieldRef := ⟨0xCC100, 0x4, 0x0, 14, 2⟩
def Fld.AC_CGIN_SPINE1 : FieldRef := ⟨0xCC100, 0x4, 0x0, 8, 6⟩
def Fld.AC_CGIN_KIND2 : FieldRef := ⟨0xCC100, 0x4, 0x0, 22, 2⟩
def Fld.AC_CGIN_SPINE2 : FieldRef := ⟨0xCC100, 0x4, 0x0, 16, 6⟩
def Fld.AC_CGIN_KIND3 : FieldRef := ⟨0xCC100, 0x4, 0x0, 30, 2⟩
def Fld.AC_CGIN_SPINE3 : FieldRef := ⟨0xCC100, 0x4, 0x0, 24, 6⟩
def Fld.AC_DAOUT_EN : FieldRef := ⟨0xCC200, 0x4, 0x0, 7, 1⟩
def Fld.AC_DAOUT_SPINE : FieldRef := ⟨0xCC200, 0x4, 0x0, 0, 6⟩
def Fld.CG_CTL_EN : FieldRef := ⟨0x100000, 0x1000, 0x0, 8, 1⟩
def Fld.CG_CTL_MODE : FieldRef := ⟨0x100000, 0x1000, 0x0, 0, 2⟩
def Fld.CG_SEQCTL_RESTART : FieldRef := ⟨0x100004, 0x1000, 0x0, 20, 1⟩
def Fld.CG_SEQCTL_LAST : FieldRef := ⟨0x100004, 0x1000, 0x0, 16, 4⟩
def Fld.CG_SEQCTL_TRIG : FieldRef := ⟨0x100004, 0x1000, 0x0, 8, 1⟩
def Fld.CG_SEQCTL_STOP : FieldRef := ⟨0x100004, 0x1000, 0x0, 1, 1⟩
def Fld.CG_SEQCTL_GO : FieldRef := ⟨0x100004, 0x1000, 0x0, 0, 1⟩
def Fld.CG_STAT_ENTRY : FieldRef := ⟨0x100008, 0x1000, 0x0, 16, 5⟩
def Fld.CG_STAT_SEQST : FieldRef := ⟨0x100008, 0x1000, 0x0, 12, 3⟩
def Fld.CG_STAT_DCLAMP : FieldRef := ⟨0x100008, 0x1000, 0x0, 4, 1⟩
def Fld.CG_STAT_WR_IGN : FieldRef := ⟨0x100008, 0x1000, 0x0, 3, 1⟩
def Fld.CG_STAT_REF_FAULT : FieldRef := ⟨0x100008, 0x1000, 0x0, 2, 1⟩
def Fld.CG_STAT_REF_SETTLED : FieldRef := ⟨0x100008, 0x1000, 0x0, 0, 1⟩
def Fld.CG_REF_SEL : FieldRef := ⟨0x10000C, 0x1000, 0x0, 0, 2⟩
def Fld.CG_LISTEN_EN : FieldRef := ⟨0x100010, 0x1000, 0x4, 31, 1⟩
def Fld.CG_LISTEN_TMR : FieldRef := ⟨0x100010, 0x1000, 0x4, 8, 1⟩
def Fld.CG_LISTEN_NUM : FieldRef := ⟨0x100010, 0x1000, 0x4, 0, 8⟩
def Fld.CG_FTRIG_EN : FieldRef := ⟨0x100020, 0x1000, 0x0, 31, 1⟩
def Fld.CG_FTRIG_LINE : FieldRef := ⟨0x100020, 0x1000, 0x0, 0, 6⟩
def Fld.CG_URG_CFG_LOG : FieldRef := ⟨0x100024, 0x1000, 0x0, 25, 1⟩
def Fld.CG_URG_CFG_EIRQ : FieldRef := ⟨0x100024, 0x1000, 0x0, 24, 1⟩
def Fld.CG_URG_CFG_SETTLE : FieldRef := ⟨0x100024, 0x1000, 0x0, 12, 12⟩
def Fld.CG_URG_CFG_INSEL : FieldRef := ⟨0x100024, 0x1000, 0x0, 0, 8⟩
def Fld.CG_URG_DWELL_DWELL : FieldRef := ⟨0x100028, 0x1000, 0x0, 0, 15⟩
def Fld.CG_LAT_D : FieldRef := ⟨0x10002C, 0x1000, 0x0, 16, 13⟩
def Fld.CG_LAT_LAT : FieldRef := ⟨0x10002C, 0x1000, 0x0, 0, 13⟩
def Fld.CG_IRQ_WIN : FieldRef := ⟨0x100030, 0x1000, 0x0, 8, 4⟩
def Fld.CG_IRQ_REF_CHG : FieldRef := ⟨0x100030, 0x1000, 0x0, 4, 1⟩
def Fld.CG_IRQ_ELOG_OVF : FieldRef := ⟨0x100030, 0x1000, 0x0, 3, 1⟩
def Fld.CG_IRQ_URG_DROP : FieldRef := ⟨0x100030, 0x1000, 0x0, 2, 1⟩
def Fld.CG_IRQ_WRAP : FieldRef := ⟨0x100030, 0x1000, 0x0, 1, 1⟩
def Fld.CG_IRQ_ENTRY_END : FieldRef := ⟨0x100030, 0x1000, 0x0, 0, 1⟩
def Fld.CG_IRQEN_WIN : FieldRef := ⟨0x100034, 0x1000, 0x0, 8, 4⟩
def Fld.CG_IRQEN_LOW : FieldRef := ⟨0x100034, 0x1000, 0x0, 0, 5⟩
def Fld.CG_EVCNT_URGENTS : FieldRef := ⟨0x100038, 0x1000, 0x0, 16, 16⟩
def Fld.CG_EVCNT_URG_DROP : FieldRef := ⟨0x100038, 0x1000, 0x0, 8, 8⟩
def Fld.CG_EVCNT_MARK_LOST : FieldRef := ⟨0x100038, 0x1000, 0x0, 0, 8⟩
def Fld.CG_OVRCNT_L0 : FieldRef := ⟨0x10003C, 0x1000, 0x0, 0, 8⟩
def Fld.CG_OVRCNT_L1 : FieldRef := ⟨0x10003C, 0x1000, 0x0, 8, 8⟩
def Fld.CG_OVRCNT_L2 : FieldRef := ⟨0x10003C, 0x1000, 0x0, 16, 8⟩
def Fld.CG_OVRCNT_L3 : FieldRef := ⟨0x10003C, 0x1000, 0x0, 24, 8⟩
def Fld.CG_CNT_SNAP_GO : FieldRef := ⟨0x100040, 0x1000, 0x0, 0, 1⟩
def Fld.CG_CONV_LO : FieldRef := ⟨0x100048, 0x1000, 0x0, 0, 32⟩
def Fld.CG_CONV_HI : FieldRef := ⟨0x10004C, 0x1000, 0x0, 0, 32⟩
def Fld.CG_EMIT_LO : FieldRef := ⟨0x100050, 0x1000, 0x0, 0, 32⟩
def Fld.CG_EMIT_HI : FieldRef := ⟨0x100054, 0x1000, 0x0, 0, 32⟩
def Fld.CG_SDISC_LO : FieldRef := ⟨0x100058, 0x1000, 0x0, 0, 32⟩
def Fld.CG_SDISC_HI : FieldRef := ⟨0x10005C, 0x1000, 0x0, 0, 32⟩
def Fld.CG_PDISC_LO : FieldRef := ⟨0x100060, 0x1000, 0x0, 0, 32⟩
def Fld.CG_PDISC_HI : FieldRef := ⟨0x100064, 0x1000, 0x0, 0, 32⟩
def Fld.CG_ELOG_INFO_VALID : FieldRef := ⟨0x100070, 0x1000, 0x0, 31, 1⟩
def Fld.CG_ELOG_INFO_LEVEL : FieldRef := ⟨0x100070, 0x1000, 0x0, 24, 6⟩
def Fld.CG_ELOG_INFO_ENTRY : FieldRef := ⟨0x100070, 0x1000, 0x0, 16, 5⟩
def Fld.CG_ELOG_INFO_IDX_HI : FieldRef := ⟨0x100070, 0x1000, 0x0, 0, 16⟩
def Fld.CG_ELOG_IDX : FieldRef := ⟨0x100074, 0x1000, 0x0, 0, 32⟩
def Fld.CG_ELOG_TICK : FieldRef := ⟨0x100078, 0x1000, 0x0, 0, 32⟩
def Fld.CG_ELOG_POP_GO : FieldRef := ⟨0x10007C, 0x1000, 0x0, 0, 1⟩
def Fld.CG_WIN_BND_UPPER : FieldRef := ⟨0x100080, 0x1000, 0x10, 16, 14⟩
def Fld.CG_WIN_BND_LOWER : FieldRef := ⟨0x100080, 0x1000, 0x10, 0, 14⟩
def Fld.CG_WIN_ARM_EN : FieldRef := ⟨0x100084, 0x1000, 0x10, 31, 1⟩
def Fld.CG_WIN_ARM_HYS : FieldRef := ⟨0x100084, 0x1000, 0x10, 16, 8⟩
def Fld.CG_WIN_ARM_ARM_M1 : FieldRef := ⟨0x100084, 0x1000, 0x10, 0, 16⟩
def Fld.CG_WIN_MASK_ENTRIES : FieldRef := ⟨0x100088, 0x1000, 0x10, 0, 17⟩
def Fld.CG_WIN_HIT_ARMED : FieldRef := ⟨0x10008C, 0x1000, 0x10, 31, 1⟩
def Fld.CG_WIN_HIT_SIDE : FieldRef := ⟨0x10008C, 0x1000, 0x10, 16, 1⟩
def Fld.CG_WIN_HIT_CODE : FieldRef := ⟨0x10008C, 0x1000, 0x10, 0, 14⟩
def Fld.CG_SEQ_CFG_LOG : FieldRef := ⟨0x100100, 0x1000, 0x8, 25, 1⟩
def Fld.CG_SEQ_CFG_EIRQ : FieldRef := ⟨0x100100, 0x1000, 0x8, 24, 1⟩
def Fld.CG_SEQ_CFG_SETTLE : FieldRef := ⟨0x100100, 0x1000, 0x8, 12, 12⟩
def Fld.CG_SEQ_CFG_INSEL : FieldRef := ⟨0x100100, 0x1000, 0x8, 0, 8⟩
def Fld.CG_SEQ_DWELL_DWELL : FieldRef := ⟨0x100104, 0x1000, 0x8, 0, 15⟩
def Fld.CG_ROT_CTL_AUTO : FieldRef := ⟨0x100400, 0x1000, 0x0, 31, 1⟩
def Fld.CG_ROT_CTL_EST_EN : FieldRef := ⟨0x100400, 0x1000, 0x0, 30, 1⟩
def Fld.CG_ROT_CTL_DT : FieldRef := ⟨0x100400, 0x1000, 0x0, 16, 8⟩
def Fld.CG_ROT_CTL_INTERVAL : FieldRef := ⟨0x100400, 0x1000, 0x0, 0, 16⟩
def Fld.CG_ROT_HOTOL_RMS_TOL : FieldRef := ⟨0x100404, 0x1000, 0x0, 16, 16⟩
def Fld.CG_ROT_HOTOL_OFS_TOL : FieldRef := ⟨0x100404, 0x1000, 0x0, 0, 16⟩
def Fld.CG_ROT_QCFG_RES_LIM : FieldRef := ⟨0x100408, 0x1000, 0x0, 16, 16⟩
def Fld.CG_ROT_QCFG_FTEST : FieldRef := ⟨0x100408, 0x1000, 0x0, 0, 16⟩
def Fld.CG_ROT_MAP_OUT : FieldRef := ⟨0x10040C, 0x1000, 0x0, 16, 3⟩
def Fld.CG_ROT_MAP_P0 : FieldRef := ⟨0x10040C, 0x1000, 0x0, 0, 3⟩
def Fld.CG_ROT_MAP_P1 : FieldRef := ⟨0x10040C, 0x1000, 0x0, 4, 3⟩
def Fld.CG_ROT_MAP_P2 : FieldRef := ⟨0x10040C, 0x1000, 0x0, 8, 3⟩
def Fld.CG_ROT_MAP_P3 : FieldRef := ⟨0x10040C, 0x1000, 0x0, 12, 3⟩
def Fld.CG_ROT_STAT_UNCONV : FieldRef := ⟨0x100410, 0x1000, 0x0, 16, 4⟩
def Fld.CG_ROT_STAT_RETRY : FieldRef := ⟨0x100410, 0x1000, 0x0, 11, 1⟩
def Fld.CG_ROT_STAT_REJRUN : FieldRef := ⟨0x100410, 0x1000, 0x0, 8, 3⟩
def Fld.CG_ROT_STAT_WR_IGN : FieldRef := ⟨0x100410, 0x1000, 0x0, 7, 1⟩
def Fld.CG_ROT_STAT_ROTST : FieldRef := ⟨0x100410, 0x1000, 0x0, 0, 3⟩
def Fld.CG_ROT_CNT_REJECTS : FieldRef := ⟨0x100414, 0x1000, 0x0, 24, 8⟩
def Fld.CG_ROT_CNT_ABORTS : FieldRef := ⟨0x100414, 0x1000, 0x0, 16, 8⟩
def Fld.CG_ROT_CNT_ACCEPTS : FieldRef := ⟨0x100414, 0x1000, 0x0, 0, 16⟩
def Fld.CG_ROT_SPUR_KIND : FieldRef := ⟨0x100418, 0x1000, 0x0, 18, 1⟩
def Fld.CG_ROT_SPUR_K : FieldRef := ⟨0x100418, 0x1000, 0x0, 16, 2⟩
def Fld.CG_ROT_SPUR_DBC : FieldRef := ⟨0x100418, 0x1000, 0x0, 0, 16⟩
def Fld.CG_HO_LOG_SL_VALID : FieldRef := ⟨0x100420, 0x1000, 0x0, 31, 1⟩
def Fld.CG_HO_LOG_SL_RESULT : FieldRef := ⟨0x100420, 0x1000, 0x0, 29, 2⟩
def Fld.CG_HO_LOG_SL_EXCL : FieldRef := ⟨0x100420, 0x1000, 0x0, 16, 7⟩
def Fld.CG_HO_LOG_SL_SL_IN : FieldRef := ⟨0x100420, 0x1000, 0x0, 8, 3⟩
def Fld.CG_HO_LOG_SL_SL_OUT : FieldRef := ⟨0x100420, 0x1000, 0x0, 4, 3⟩
def Fld.CG_HO_LOG_SL_POS : FieldRef := ⟨0x100420, 0x1000, 0x0, 0, 2⟩
def Fld.CG_HO_LOG_MS_S : FieldRef := ⟨0x100424, 0x1000, 0x0, 16, 16⟩
def Fld.CG_HO_LOG_MS_M : FieldRef := ⟨0x100424, 0x1000, 0x0, 0, 16⟩
def Fld.CG_HO_IDX_LO : FieldRef := ⟨0x100428, 0x1000, 0x0, 0, 32⟩
def Fld.CG_HO_IDX_HI : FieldRef := ⟨0x10042C, 0x1000, 0x0, 0, 16⟩
def Fld.CG_ROT_IRQ_SAT : FieldRef := ⟨0x100430, 0x1000, 0x0, 4, 1⟩
def Fld.CG_ROT_IRQ_CONV : FieldRef := ⟨0x100430, 0x1000, 0x0, 3, 1⟩
def Fld.CG_ROT_IRQ_RETIRED : FieldRef := ⟨0x100430, 0x1000, 0x0, 2, 1⟩
def Fld.CG_ROT_IRQ_HO_REJ : FieldRef := ⟨0x100430, 0x1000, 0x0, 1, 1⟩
def Fld.CG_ROT_IRQ_HO_DONE : FieldRef := ⟨0x100430, 0x1000, 0x0, 0, 1⟩
def Fld.CG_ROT_IRQEN : FieldRef := ⟨0x100434, 0x1000, 0x0, 0, 5⟩
def Fld.CG_SL_TRIM_OFS : FieldRef := ⟨0x100500, 0x1000, 0x20, 16, 12⟩
def Fld.CG_SL_TRIM_GAIN : FieldRef := ⟨0x100500, 0x1000, 0x20, 0, 12⟩
def Fld.CG_SL_SKEW_SKEW : FieldRef := ⟨0x100504, 0x1000, 0x20, 0, 8⟩
def Fld.CG_SL_RES_OG_ROFS : FieldRef := ⟨0x100508, 0x1000, 0x20, 16, 12⟩
def Fld.CG_SL_RES_OG_RGAIN : FieldRef := ⟨0x100508, 0x1000, 0x20, 0, 12⟩
def Fld.CG_SL_RES_SK_RSKEW : FieldRef := ⟨0x10050C, 0x1000, 0x20, 0, 10⟩
def Fld.CG_SL_QUAL_RETIRED : FieldRef := ⟨0x100510, 0x1000, 0x20, 31, 1⟩
def Fld.CG_SL_QUAL_SAT : FieldRef := ⟨0x100510, 0x1000, 0x20, 30, 1⟩
def Fld.CG_SL_QUAL_TCAL : FieldRef := ⟨0x100510, 0x1000, 0x20, 16, 12⟩
def Fld.CG_SL_QUAL_RES : FieldRef := ⟨0x100510, 0x1000, 0x20, 0, 16⟩
def Fld.FC_CTL_CLKG : FieldRef := ⟨0x200000, 0x1000, 0x0, 16, 5⟩
def Fld.FC_CTL_XF_EMIT : FieldRef := ⟨0x200000, 0x1000, 0x0, 11, 1⟩
def Fld.FC_CTL_ENTRY_SYNC : FieldRef := ⟨0x200000, 0x1000, 0x0, 10, 1⟩
def Fld.FC_CTL_RSEN : FieldRef := ⟨0x200000, 0x1000, 0x0, 9, 1⟩
def Fld.FC_CTL_EN : FieldRef := ⟨0x200000, 0x1000, 0x0, 8, 1⟩
def Fld.FC_SRC_SRC : FieldRef := ⟨0x200004, 0x1000, 0x0, 0, 16⟩
def Fld.FC_STAT_GD_CLAMP : FieldRef := ⟨0x200008, 0x1000, 0x0, 9, 1⟩
def Fld.FC_STAT_WR_IGN : FieldRef := ⟨0x200008, 0x1000, 0x0, 8, 1⟩
def Fld.FC_STAT_FIR_SAT : FieldRef := ⟨0x200008, 0x1000, 0x0, 7, 1⟩
def Fld.FC_STAT_CIC_SAT : FieldRef := ⟨0x200008, 0x1000, 0x0, 6, 1⟩
def Fld.FC_STAT_ASYM : FieldRef := ⟨0x200008, 0x1000, 0x0, 5, 1⟩
def Fld.FC_STAT_GD_DECL : FieldRef := ⟨0x200008, 0x1000, 0x0, 4, 1⟩
def Fld.FC_STAT_ACTBANK : FieldRef := ⟨0x200008, 0x1000, 0x0, 3, 1⟩
def Fld.FC_STAT_XFADE : FieldRef := ⟨0x200008, 0x1000, 0x0, 2, 1⟩
def Fld.FC_STAT_SETTLING : FieldRef := ⟨0x200008, 0x1000, 0x0, 1, 1⟩
def Fld.FC_STAT_ACTIVE : FieldRef := ⟨0x200008, 0x1000, 0x0, 0, 1⟩
def Fld.FC_CIC_D : FieldRef := ⟨0x20000C, 0x1000, 0x0, 16, 14⟩
def Fld.FC_CIC_K : FieldRef := ⟨0x20000C, 0x1000, 0x0, 8, 1⟩
def Fld.FC_CIC_N : FieldRef := ⟨0x20000C, 0x1000, 0x0, 0, 3⟩
def Fld.FC_CIC_SHI_SI1 : FieldRef := ⟨0x200010, 0x1000, 0x0, 0, 5⟩
def Fld.FC_CIC_SHI_SI2 : FieldRef := ⟨0x200010, 0x1000, 0x0, 5, 5⟩
def Fld.FC_CIC_SHI_SI3 : FieldRef := ⟨0x200010, 0x1000, 0x0, 10, 5⟩
def Fld.FC_CIC_SHI_SI4 : FieldRef := ⟨0x200010, 0x1000, 0x0, 15, 5⟩
def Fld.FC_CIC_SHI_SI5 : FieldRef := ⟨0x200010, 0x1000, 0x0, 20, 5⟩
def Fld.FC_CIC_SHC_SC1 : FieldRef := ⟨0x200014, 0x1000, 0x0, 0, 5⟩
def Fld.FC_CIC_SHC_SC2 : FieldRef := ⟨0x200014, 0x1000, 0x0, 5, 5⟩
def Fld.FC_CIC_SHC_SC3 : FieldRef := ⟨0x200014, 0x1000, 0x0, 10, 5⟩
def Fld.FC_CIC_SHC_SC4 : FieldRef := ⟨0x200014, 0x1000, 0x0, 15, 5⟩
def Fld.FC_CIC_SHC_SC5 : FieldRef := ⟨0x200014, 0x1000, 0x0, 20, 5⟩
def Fld.FC_FIR_XFLEN_M1 : FieldRef := ⟨0x200018, 0x1000, 0x0, 16, 12⟩
def Fld.FC_FIR_FSH : FieldRef := ⟨0x200018, 0x1000, 0x0, 8, 5⟩
def Fld.FC_FIR_BANK : FieldRef := ⟨0x200018, 0x1000, 0x0, 7, 1⟩
def Fld.FC_FIR_NTAP_M1 : FieldRef := ⟨0x200018, 0x1000, 0x0, 0, 7⟩
def Fld.FC_BANK_INFO_GDD : FieldRef := ⟨0x20001C, 0x1000, 0x4, 8, 24⟩
def Fld.FC_BANK_INFO_KIND : FieldRef := ⟨0x20001C, 0x1000, 0x4, 0, 2⟩
def Fld.FC_GDELAY : FieldRef := ⟨0x200024, 0x1000, 0x0, 0, 32⟩
def Fld.FC_LAT : FieldRef := ⟨0x200028, 0x1000, 0x0, 0, 8⟩
def Fld.FC_EVCNT_SATS : FieldRef := ⟨0x20002C, 0x1000, 0x0, 8, 8⟩
def Fld.FC_EVCNT_MARK_LOST : FieldRef := ⟨0x20002C, 0x1000, 0x0, 0, 8⟩
def Fld.FC_CNT_SNAP_GO : FieldRef := ⟨0x200030, 0x1000, 0x0, 0, 1⟩
def Fld.FC_COMP_LO : FieldRef := ⟨0x200038, 0x1000, 0x0, 0, 32⟩
def Fld.FC_COMP_HI : FieldRef := ⟨0x20003C, 0x1000, 0x0, 0, 32⟩
def Fld.FC_EMIT_LO : FieldRef := ⟨0x200040, 0x1000, 0x0, 0, 32⟩
def Fld.FC_EMIT_HI : FieldRef := ⟨0x200044, 0x1000, 0x0, 0, 32⟩
def Fld.FC_SUPP_LO : FieldRef := ⟨0x200048, 0x1000, 0x0, 0, 32⟩
def Fld.FC_SUPP_HI : FieldRef := ⟨0x20004C, 0x1000, 0x0, 0, 32⟩
def Fld.FC_GAP_INFO_VALID : FieldRef := ⟨0x200050, 0x1000, 0x0, 31, 1⟩
def Fld.FC_GAP_INFO_LEVEL : FieldRef := ⟨0x200050, 0x1000, 0x0, 24, 5⟩
def Fld.FC_GAP_INFO_CAUSE : FieldRef := ⟨0x200050, 0x1000, 0x0, 16, 3⟩
def Fld.FC_GAP_INFO_IDX_HI : FieldRef := ⟨0x200050, 0x1000, 0x0, 0, 16⟩
def Fld.FC_GAP_IDX : FieldRef := ⟨0x200054, 0x1000, 0x0, 0, 32⟩
def Fld.FC_GAP_CNT : FieldRef := ⟨0x200058, 0x1000, 0x0, 0, 32⟩
def Fld.FC_GAP_POP_GO : FieldRef := ⟨0x20005C, 0x1000, 0x0, 0, 1⟩
def Fld.FC_IRQ_SAT : FieldRef := ⟨0x200060, 0x1000, 0x0, 4, 1⟩
def Fld.FC_IRQ_XF_DONE : FieldRef := ⟨0x200060, 0x1000, 0x0, 3, 1⟩
def Fld.FC_IRQ_GAP_OVF : FieldRef := ⟨0x200060, 0x1000, 0x0, 2, 1⟩
def Fld.FC_IRQ_GAP : FieldRef := ⟨0x200060, 0x1000, 0x0, 1, 1⟩
def Fld.FC_IRQ_SETTLED : FieldRef := ⟨0x200060, 0x1000, 0x0, 0, 1⟩
def Fld.FC_IRQEN : FieldRef := ⟨0x200064, 0x1000, 0x0, 0, 5⟩
def Fld.FC_COEFA_COEF : FieldRef := ⟨0x200800, 0x1000, 0x4, 0, 18⟩
def Fld.FC_COEFB_COEF : FieldRef := ⟨0x200A00, 0x1000, 0x4, 0, 18⟩
def Fld.FC_RS_CTL_SPT_M1 : FieldRef := ⟨0x200200, 0x1000, 0x0, 16, 16⟩
def Fld.FC_RS_CTL_REF : FieldRef := ⟨0x200200, 0x1000, 0x0, 8, 3⟩
def Fld.FC_RS_CTL_OUTSEL : FieldRef := ⟨0x200200, 0x1000, 0x0, 4, 2⟩
def Fld.FC_RS_CTL_MODE : FieldRef := ⟨0x200200, 0x1000, 0x0, 0, 2⟩
def Fld.FC_RS_INC_LO : FieldRef := ⟨0x200204, 0x1000, 0x0, 0, 32⟩
def Fld.FC_RS_INC_HI : FieldRef := ⟨0x200208, 0x1000, 0x0, 0, 16⟩
def Fld.FC_RS_PHOFS : FieldRef := ⟨0x20020C, 0x1000, 0x0, 0, 32⟩
def Fld.FC_RS_LISTEN_EN : FieldRef := ⟨0x200210, 0x1000, 0x4, 31, 1⟩
def Fld.FC_RS_LISTEN_NUM : FieldRef := ⟨0x200210, 0x1000, 0x4, 0, 8⟩
def Fld.FC_RS_STAT_WR_IGN : FieldRef := ⟨0x200220, 0x1000, 0x0, 8, 1⟩
def Fld.FC_RS_STAT_NOREF : FieldRef := ⟨0x200220, 0x1000, 0x0, 4, 1⟩
def Fld.FC_RS_EVCNT_SKIP : FieldRef := ⟨0x200224, 0x1000, 0x0, 24, 8⟩
def Fld.FC_RS_EVCNT_NOPOS : FieldRef := ⟨0x200224, 0x1000, 0x0, 16, 8⟩
def Fld.FC_RS_EVCNT_QOVF : FieldRef := ⟨0x200224, 0x1000, 0x0, 8, 8⟩
def Fld.FC_RS_EVCNT_MARK_LOST : FieldRef := ⟨0x200224, 0x1000, 0x0, 0, 8⟩
def Fld.FC_RS_IRQ_LONG : FieldRef := ⟨0x200228, 0x1000, 0x0, 4, 1⟩
def Fld.FC_RS_IRQ_WIN : FieldRef := ⟨0x200228, 0x1000, 0x0, 3, 1⟩
def Fld.FC_RS_IRQ_SKIP : FieldRef := ⟨0x200228, 0x1000, 0x0, 2, 1⟩
def Fld.FC_RS_IRQ_TLOG_OVF : FieldRef := ⟨0x200228, 0x1000, 0x0, 1, 1⟩
def Fld.FC_RS_IRQ_TLOG : FieldRef := ⟨0x200228, 0x1000, 0x0, 0, 1⟩
def Fld.FC_RS_IRQEN : FieldRef := ⟨0x20022C, 0x1000, 0x0, 0, 5⟩
def Fld.FC_RS_CADDR : FieldRef := ⟨0x200230, 0x1000, 0x0, 0, 12⟩
def Fld.FC_RS_CDATA_DATA : FieldRef := ⟨0x200234, 0x1000, 0x0, 0, 18⟩
def Fld.FC_RS_KDELAY : FieldRef := ⟨0x200238, 0x1000, 0x0, 0, 32⟩
def Fld.FC_TLOG_INFO_VALID : FieldRef := ⟨0x200240, 0x1000, 0x0, 31, 1⟩
def Fld.FC_TLOG_INFO_LEVEL : FieldRef := ⟨0x200240, 0x1000, 0x0, 24, 6⟩
def Fld.FC_TLOG_INFO_NEWEPOCH : FieldRef := ⟨0x200240, 0x1000, 0x0, 17, 1⟩
def Fld.FC_TLOG_INFO_COAST : FieldRef := ⟨0x200240, 0x1000, 0x0, 16, 1⟩
def Fld.FC_TLOG_INFO_FIRST_SLOT : FieldRef := ⟨0x200240, 0x1000, 0x0, 0, 16⟩
def Fld.FC_TLOG_TURN : FieldRef := ⟨0x200244, 0x1000, 0x0, 0, 32⟩
def Fld.FC_TLOG_F_LO : FieldRef := ⟨0x200248, 0x1000, 0x0, 0, 32⟩
def Fld.FC_TLOG_F_HI : FieldRef := ⟨0x20024C, 0x1000, 0x0, 0, 16⟩
def Fld.FC_TLOG_NSLOT : FieldRef := ⟨0x200250, 0x1000, 0x0, 0, 17⟩
def Fld.FC_TLOG_POP_GO : FieldRef := ⟨0x200254, 0x1000, 0x0, 0, 1⟩
def Fld.FC_DET_CTL_PDK : FieldRef := ⟨0x200300, 0x1000, 0x0, 16, 5⟩
def Fld.FC_DET_CTL_ESH_R : FieldRef := ⟨0x200300, 0x1000, 0x0, 12, 4⟩
def Fld.FC_DET_CTL_ESH_A : FieldRef := ⟨0x200300, 0x1000, 0x0, 8, 4⟩
def Fld.FC_DET_CTL_PK_RST : FieldRef := ⟨0x200300, 0x1000, 0x0, 3, 1⟩
def Fld.FC_DET_CTL_SPAN : FieldRef := ⟨0x200300, 0x1000, 0x0, 2, 1⟩
def Fld.FC_DET_CTL_ALIGN : FieldRef := ⟨0x200300, 0x1000, 0x0, 1, 1⟩
def Fld.FC_DET_CTL_TAP : FieldRef := ⟨0x200300, 0x1000, 0x0, 0, 1⟩
def Fld.FC_DET_WIN_NW_M1 : FieldRef := ⟨0x200304, 0x1000, 0x0, 0, 24⟩
def Fld.FC_DET_SPAN_CLOSE_PA : FieldRef := ⟨0x200308, 0x1000, 0x0, 8, 8⟩
def Fld.FC_DET_SPAN_OPEN_PA : FieldRef := ⟨0x200308, 0x1000, 0x0, 0, 8⟩
def Fld.FC_DET_HOLD : FieldRef := ⟨0x20030C, 0x1000, 0x0, 0, 24⟩
def Fld.FC_DET_RMS : FieldRef := ⟨0x200310, 0x1000, 0x0, 0, 32⟩
def Fld.FC_DET_PKMAX : FieldRef := ⟨0x200314, 0x1000, 0x0, 0, 32⟩
def Fld.FC_DET_PKMIN : FieldRef := ⟨0x200318, 0x1000, 0x0, 0, 32⟩
def Fld.FC_DET_ENV : FieldRef := ⟨0x20031C, 0x1000, 0x0, 0, 31⟩
def Fld.FC_DET_WSTAT_SETTLING : FieldRef := ⟨0x200320, 0x1000, 0x0, 31, 1⟩
def Fld.FC_DET_WSTAT_LONG : FieldRef := ⟨0x200320, 0x1000, 0x0, 30, 1⟩
def Fld.FC_DET_WSTAT_NS : FieldRef := ⟨0x200320, 0x1000, 0x0, 0, 25⟩
def Fld.FC_DET_WCNT : FieldRef := ⟨0x200324, 0x1000, 0x0, 0, 32⟩
def Fld.FC_DET_WIDX_LO : FieldRef := ⟨0x200328, 0x1000, 0x0, 0, 32⟩
def Fld.FC_DET_WIDX_HI : FieldRef := ⟨0x20032C, 0x1000, 0x0, 0, 16⟩
def Fld.WM_CTL_EN : FieldRef := ⟨0x500000, 0x40, 0x0, 31, 1⟩
def Fld.WM_CTL_INIT_U : FieldRef := ⟨0x500000, 0x40, 0x0, 17, 1⟩
def Fld.WM_CTL_INIT_L : FieldRef := ⟨0x500000, 0x40, 0x0, 16, 1⟩
def Fld.WM_CTL_IRQEN_U : FieldRef := ⟨0x500000, 0x40, 0x0, 9, 1⟩
def Fld.WM_CTL_IRQEN_L : FieldRef := ⟨0x500000, 0x40, 0x0, 8, 1⟩
def Fld.WM_CTL_WAKE_U : FieldRef := ⟨0x500000, 0x40, 0x0, 5, 1⟩
def Fld.WM_CTL_WAKE_L : FieldRef := ⟨0x500000, 0x40, 0x0, 4, 1⟩
def Fld.WM_THR_UTH : FieldRef := ⟨0x500004, 0x40, 0x0, 16, 10⟩
def Fld.WM_THR_LTH : FieldRef := ⟨0x500004, 0x40, 0x0, 0, 10⟩
def Fld.WM_HYS_HYS_U : FieldRef := ⟨0x500008, 0x40, 0x0, 8, 5⟩
def Fld.WM_HYS_HYS_L : FieldRef := ⟨0x500008, 0x40, 0x0, 0, 5⟩
def Fld.WM_TRIM_OFS_U : FieldRef := ⟨0x50000C, 0x40, 0x0, 16, 8⟩
def Fld.WM_TRIM_OFS_L : FieldRef := ⟨0x50000C, 0x40, 0x0, 0, 8⟩
def Fld.WM_BLANK_EN : FieldRef := ⟨0x500010, 0x40, 0x0, 31, 1⟩
def Fld.WM_BLANK_S1_TMR : FieldRef := ⟨0x500010, 0x40, 0x0, 24, 1⟩
def Fld.WM_BLANK_S1_NUM : FieldRef := ⟨0x500010, 0x40, 0x0, 16, 8⟩
def Fld.WM_BLANK_S0_TMR : FieldRef := ⟨0x500010, 0x40, 0x0, 8, 1⟩
def Fld.WM_BLANK_S0_NUM : FieldRef := ⟨0x500010, 0x40, 0x0, 0, 8⟩
def Fld.WM_PCLR_EN : FieldRef := ⟨0x500014, 0x40, 0x0, 31, 1⟩
def Fld.WM_PCLR_TMR : FieldRef := ⟨0x500014, 0x40, 0x0, 8, 1⟩
def Fld.WM_PCLR_NUM : FieldRef := ⟨0x500014, 0x40, 0x0, 0, 8⟩
def Fld.WM_STAT_BLANKED : FieldRef := ⟨0x500018, 0x40, 0x0, 6, 1⟩
def Fld.WM_STAT_UNRES_U : FieldRef := ⟨0x500018, 0x40, 0x0, 5, 1⟩
def Fld.WM_STAT_UNRES_L : FieldRef := ⟨0x500018, 0x40, 0x0, 4, 1⟩
def Fld.WM_STAT_RAW_U : FieldRef := ⟨0x500018, 0x40, 0x0, 3, 1⟩
def Fld.WM_STAT_RAW_L : FieldRef := ⟨0x500018, 0x40, 0x0, 2, 1⟩
def Fld.WM_STAT_OUT_U : FieldRef := ⟨0x500018, 0x40, 0x0, 1, 1⟩
def Fld.WM_STAT_OUT_L : FieldRef := ⟨0x500018, 0x40, 0x0, 0, 1⟩
def Fld.WM_LATCH_PREV_U : FieldRef := ⟨0x50001C, 0x40, 0x0, 9, 1⟩
def Fld.WM_LATCH_PREV_L : FieldRef := ⟨0x50001C, 0x40, 0x0, 8, 1⟩
def Fld.WM_LATCH_UHIT : FieldRef := ⟨0x50001C, 0x40, 0x0, 1, 1⟩
def Fld.WM_LATCH_LHIT : FieldRef := ⟨0x50001C, 0x40, 0x0, 0, 1⟩
def Fld.WM_CNT_HITS : FieldRef := ⟨0x500020, 0x40, 0x0, 16, 16⟩
def Fld.WM_CNT_BLANKED : FieldRef := ⟨0x500020, 0x40, 0x0, 8, 8⟩
def Fld.WM_ISUM : FieldRef := ⟨0x501800, 0x4, 0x0, 0, 32⟩
def Fld.DA_CTL_UNDHOLD : FieldRef := ⟨0x520000, 0x100, 0x0, 10, 1⟩
def Fld.DA_CTL_GAPHOLD : FieldRef := ⟨0x520000, 0x100, 0x0, 9, 1⟩
def Fld.DA_CTL_EN : FieldRef := ⟨0x520000, 0x100, 0x0, 8, 1⟩
def Fld.DA_CTL_FIRST : FieldRef := ⟨0x520000, 0x100, 0x0, 4, 2⟩
def Fld.DA_CTL_STOP : FieldRef := ⟨0x520000, 0x100, 0x0, 1, 1⟩
def Fld.DA_CTL_GO : FieldRef := ⟨0x520000, 0x100, 0x0, 0, 1⟩
def Fld.DA_SRC_SRC : FieldRef := ⟨0x520004, 0x100, 0x0, 0, 16⟩
def Fld.DA_IDLE_CODE : FieldRef := ⟨0x520008, 0x100, 0x0, 0, 16⟩
def Fld.DA_STAT_LEVEL : FieldRef := ⟨0x52000C, 0x100, 0x0, 16, 13⟩
def Fld.DA_STAT_WR_IGN : FieldRef := ⟨0x52000C, 0x100, 0x0, 8, 1⟩
def Fld.DA_STAT_ENTRY : FieldRef := ⟨0x52000C, 0x100, 0x0, 4, 2⟩
def Fld.DA_STAT_STATE : FieldRef := ⟨0x52000C, 0x100, 0x0, 0, 2⟩
def Fld.DA_LISTEN_EN : FieldRef := ⟨0x520010, 0x100, 0x4, 31, 1⟩
def Fld.DA_LISTEN_TMR : FieldRef := ⟨0x520010, 0x100, 0x4, 8, 1⟩
def Fld.DA_LISTEN_NUM : FieldRef := ⟨0x520010, 0x100, 0x4, 0, 8⟩
def Fld.DA_TRIM_OFS : FieldRef := ⟨0x520018, 0x100, 0x0, 16, 10⟩
def Fld.DA_TRIM_GAIN : FieldRef := ⟨0x520018, 0x100, 0x0, 0, 10⟩
def Fld.DA_EVCNT_SEGS : FieldRef := ⟨0x52001C, 0x100, 0x0, 16, 16⟩
def Fld.DA_EVCNT_SEG_DROP : FieldRef := ⟨0x52001C, 0x100, 0x0, 8, 8⟩
def Fld.DA_EVCNT_UNDRUN : FieldRef := ⟨0x52001C, 0x100, 0x0, 0, 8⟩
def Fld.DA_UNDW : FieldRef := ⟨0x520020, 0x100, 0x0, 0, 32⟩
def Fld.DA_SKIPW : FieldRef := ⟨0x520024, 0x100, 0x0, 0, 32⟩
def Fld.DA_IRQ_UNDERRUN : FieldRef := ⟨0x520028, 0x100, 0x0, 2, 1⟩
def Fld.DA_IRQ_SEG_DROP : FieldRef := ⟨0x520028, 0x100, 0x0, 1, 1⟩
def Fld.DA_IRQ_SEG_END : FieldRef := ⟨0x520028, 0x100, 0x0, 0, 1⟩
def Fld.DA_IRQEN : FieldRef := ⟨0x52002C, 0x100, 0x0, 0, 3⟩
def Fld.DA_PADDR : FieldRef := ⟨0x520030, 0x100, 0x0, 0, 16⟩
def Fld.DA_PDATA_DATA : FieldRef := ⟨0x520034, 0x100, 0x0, 0, 16⟩
def Fld.DA_LASTS : FieldRef := ⟨0x520038, 0x100, 0x0, 0, 32⟩
def Fld.DA_SEG_CFG_WAIT : FieldRef := ⟨0x520040, 0x100, 0x8, 31, 1⟩
def Fld.DA_SEG_CFG_EIRQ : FieldRef := ⟨0x520040, 0x100, 0x8, 30, 1⟩
def Fld.DA_SEG_CFG_NEXT : FieldRef := ⟨0x520040, 0x100, 0x8, 28, 2⟩
def Fld.DA_SEG_CFG_KIND : FieldRef := ⟨0x520040, 0x100, 0x8, 24, 1⟩
def Fld.DA_SEG_CFG_REPEAT_M1 : FieldRef := ⟨0x520040, 0x100, 0x8, 16, 8⟩
def Fld.DA_SEG_CFG_START : FieldRef := ⟨0x520040, 0x100, 0x8, 1, 15⟩
def Fld.DA_SEG_LEN_LEN : FieldRef := ⟨0x520044, 0x100, 0x8, 0, 17⟩
def Fld.CAL_STAT_RUNNING : FieldRef := ⟨0x540000, 0x0, 0x0, 31, 1⟩
def Fld.CAL_STAT_IMPORTED : FieldRef := ⟨0x540000, 0x0, 0x0, 30, 1⟩
def Fld.CAL_STAT_DIRTY : FieldRef := ⟨0x540000, 0x0, 0x0, 29, 1⟩
def Fld.CAL_STAT_CMT_WHY : FieldRef := ⟨0x540000, 0x0, 0x0, 24, 2⟩
def Fld.CAL_STAT_WR_IGN : FieldRef := ⟨0x540000, 0x0, 0x0, 16, 1⟩
def Fld.CAL_STAT_NDIS : FieldRef := ⟨0x540000, 0x0, 0x0, 0, 16⟩
def Fld.CAL_STORE_SEQ : FieldRef := ⟨0x540004, 0x0, 0x0, 16, 16⟩
def Fld.CAL_STORE_EXPORTED : FieldRef := ⟨0x540004, 0x0, 0x0, 1, 1⟩
def Fld.CAL_STORE_VALID : FieldRef := ⟨0x540004, 0x0, 0x0, 0, 1⟩
def Fld.CAL_RUNCNT_DONE : FieldRef := ⟨0x540008, 0x0, 0x0, 16, 16⟩
def Fld.CAL_RUNCNT_SKIPPED : FieldRef := ⟨0x540008, 0x0, 0x0, 8, 8⟩
def Fld.CAL_RUNCNT_DIS : FieldRef := ⟨0x540008, 0x0, 0x0, 0, 8⟩
def Fld.CAL_DIS_FIRST : FieldRef := ⟨0x54000C, 0x0, 0x0, 0, 24⟩
def Fld.CAL_RBUF_TRIM_GAIN : FieldRef := ⟨0x540010, 0x0, 0x0, 0, 12⟩
def Fld.CAL_CDAC_TRIM_OFS : FieldRef := ⟨0x540020, 0x4, 0x0, 16, 12⟩
def Fld.CAL_CDAC_TRIM_GAIN : FieldRef := ⟨0x540020, 0x4, 0x0, 0, 12⟩
def Fld.CAL_TS_VALID : FieldRef := ⟨0x540040, 0x4, 0x0, 31, 1⟩
def Fld.CAL_TS_TEMP : FieldRef := ⟨0x540040, 0x4, 0x0, 0, 16⟩
def Fld.CAL_TS_TRIM_OFS : FieldRef := ⟨0x540060, 0x4, 0x0, 0, 8⟩
def Fld.CAL_Q_INST : FieldRef := ⟨0x540080, 0x4, 0x0, 16, 8⟩
def Fld.CAL_Q_RES : FieldRef := ⟨0x540080, 0x4, 0x0, 0, 16⟩
def Fld.CAL_REFMEAS : FieldRef := ⟨0x5400A0, 0x4, 0x0, 0, 32⟩
def Fld.PWR_CTL_MARGIN : FieldRef := ⟨0x560000, 0x0, 0x0, 0, 10⟩
def Fld.PWR_STAT_CEIL : FieldRef := ⟨0x560004, 0x0, 0x0, 24, 4⟩
def Fld.PWR_STAT_LIMIT : FieldRef := ⟨0x560004, 0x0, 0x0, 20, 4⟩
def Fld.PWR_STAT_WHY : FieldRef := ⟨0x560004, 0x0, 0x0, 16, 4⟩
def Fld.PWR_STAT_BLOCK : FieldRef := ⟨0x560004, 0x0, 0x0, 0, 6⟩
def Fld.PWR_CBPAUSE : FieldRef := ⟨0x560008, 0x0, 0x0, 0, 24⟩
def Fld.PWR_TWAKE_LO : FieldRef := ⟨0x560010, 0x0, 0x0, 0, 32⟩
def Fld.PWR_TWAKE_HI : FieldRef := ⟨0x560014, 0x0, 0x0, 0, 32⟩
def Fld.PWR_CNT_DOZES : FieldRef := ⟨0x560018, 0x0, 0x0, 16, 16⟩
def Fld.PWR_CNT_NAPS : FieldRef := ⟨0x560018, 0x0, 0x0, 8, 8⟩
def Fld.PWR_CNT_SLUMBERS : FieldRef := ⟨0x560018, 0x0, 0x0, 0, 8⟩
def Fld.PWR_IRQ_LATE : FieldRef := ⟨0x56001C, 0x0, 0x0, 1, 1⟩
def Fld.PWR_IRQ_EXIT : FieldRef := ⟨0x56001C, 0x0, 0x0, 0, 1⟩
def Fld.PWR_IRQEN : FieldRef := ⟨0x560020, 0x0, 0x0, 0, 2⟩
def Fld.DMA_CFG_DIR : FieldRef := ⟨0x580000, 0x40, 0x0, 31, 1⟩
def Fld.DMA_CFG_POLICY : FieldRef := ⟨0x580000, 0x40, 0x0, 30, 1⟩
def Fld.DMA_CFG_PREF : FieldRef := ⟨0x580000, 0x40, 0x0, 27, 3⟩
def Fld.DMA_CFG_FUNC : FieldRef := ⟨0x580000, 0x40, 0x0, 22, 5⟩
def Fld.DMA_CFG_IRQEN : FieldRef := ⟨0x580000, 0x40, 0x0, 16, 3⟩
def Fld.DMA_CFG_SRC : FieldRef := ⟨0x580000, 0x40, 0x0, 0, 16⟩
def Fld.DMA_DATA_NPG_M1 : FieldRef := ⟨0x580004, 0x40, 0x0, 16, 16⟩
def Fld.DMA_DATA_DPG : FieldRef := ⟨0x580004, 0x40, 0x0, 0, 16⟩
def Fld.DMA_REC_ROFS : FieldRef := ⟨0x580008, 0x40, 0x0, 16, 9⟩
def Fld.DMA_REC_RPG : FieldRef := ⟨0x580008, 0x40, 0x0, 0, 16⟩
def Fld.DMA_RATE : FieldRef := ⟨0x58000C, 0x40, 0x0, 0, 20⟩
def Fld.DMA_MOD_BLKS : FieldRef := ⟨0x580010, 0x40, 0x0, 24, 8⟩
def Fld.DMA_MOD_HOLD : FieldRef := ⟨0x580010, 0x40, 0x0, 12, 12⟩
def Fld.DMA_MOD_AGE : FieldRef := ⟨0x580010, 0x40, 0x0, 0, 12⟩
def Fld.DMA_RSTAT_ADMITTED : FieldRef := ⟨0x580014, 0x40, 0x0, 31, 1⟩
def Fld.DMA_RSTAT_FULL : FieldRef := ⟨0x580014, 0x40, 0x0, 30, 1⟩
def Fld.DMA_RSTAT_HELD : FieldRef := ⟨0x580014, 0x40, 0x0, 29, 1⟩
def Fld.DMA_RSTAT_RESET : FieldRef := ⟨0x580014, 0x40, 0x0, 3, 1⟩
def Fld.DMA_RSTAT_BADPTR : FieldRef := ⟨0x580014, 0x40, 0x0, 2, 1⟩
def Fld.DMA_RSTAT_WR_IGN : FieldRef := ⟨0x580014, 0x40, 0x0, 1, 1⟩
def Fld.DMA_HEAD : FieldRef := ⟨0x580018, 0x40, 0x0, 0, 32⟩
def Fld.DMA_TAIL : FieldRef := ⟨0x58001C, 0x40, 0x0, 0, 32⟩
def Fld.DMA_IRQ_OVERRATE : FieldRef := ⟨0x580020, 0x40, 0x0, 2, 1⟩
def Fld.DMA_IRQ_DROP : FieldRef := ⟨0x580020, 0x40, 0x0, 1, 1⟩
def Fld.DMA_IRQ_BLK : FieldRef := ⟨0x580020, 0x40, 0x0, 0, 1⟩
def Fld.DMA_RSNAP_GO : FieldRef := ⟨0x580024, 0x40, 0x0, 0, 1⟩
def Fld.DMA_PRODUCED_LO : FieldRef := ⟨0x580028, 0x40, 0x0, 0, 32⟩
def Fld.DMA_PRODUCED_HI : FieldRef := ⟨0x58002C, 0x40, 0x0, 0, 32⟩
def Fld.DMA_WRITTEN_LO : FieldRef := ⟨0x580030, 0x40, 0x0, 0, 32⟩
def Fld.DMA_WRITTEN_HI : FieldRef := ⟨0x580034, 0x40, 0x0, 0, 32⟩
def Fld.DMA_DROPPED_LO : FieldRef := ⟨0x580038, 0x40, 0x0, 0, 32⟩
def Fld.DMA_DROPPED_HI : FieldRef := ⟨0x58003C, 0x40, 0x0, 0, 32⟩
def Fld.DMA_BUDGET : FieldRef := ⟨0x5C0000, 0x0, 0x0, 0, 16⟩
def Fld.DMA_UPSUM : FieldRef := ⟨0x5C0004, 0x0, 0x0, 0, 20⟩
def Fld.DMA_DNSUM : FieldRef := ⟨0x5C0008, 0x0, 0x0, 0, 20⟩
def Fld.DMA_GSTAT_OVER_DN : FieldRef := ⟨0x5C000C, 0x0, 0x0, 1, 1⟩
def Fld.DMA_GSTAT_OVER_UP : FieldRef := ⟨0x5C000C, 0x0, 0x0, 0, 1⟩
def Fld.DMA_PDIR_IDX : FieldRef := ⟨0x5C0010, 0x0, 0x0, 0, 16⟩
def Fld.DMA_PDIR_LO_DATA : FieldRef := ⟨0x5C0014, 0x0, 0x0, 0, 32⟩
def Fld.DMA_PDIR_HI_DATA : FieldRef := ⟨0x5C0018, 0x0, 0x0, 0, 32⟩
def Fld.DMA_STAT_WR_IGN : FieldRef := ⟨0x5C001C, 0x0, 0x0, 0, 1⟩
def Fld.FAB_CTL_CLKEN : FieldRef := ⟨0x600000, 0x1000, 0x0, 0, 1⟩
def Fld.FAB_CSTAT_CLK_USED : FieldRef := ⟨0x600004, 0x1000, 0x0, 8, 8⟩
def Fld.FAB_CSTAT_PEEK_ERR : FieldRef := ⟨0x600004, 0x1000, 0x0, 2, 1⟩
def Fld.FAB_CSTAT_WR_IGN : FieldRef := ⟨0x600004, 0x1000, 0x0, 1, 1⟩
def Fld.FAB_CSTAT_RUNNING : FieldRef := ⟨0x600004, 0x1000, 0x0, 0, 1⟩
def Fld.FAB_PEEK_SEL_ITEM : FieldRef := ⟨0x600010, 0x1000, 0x0, 8, 3⟩
def Fld.FAB_PEEK_SEL_CELL : FieldRef := ⟨0x600010, 0x1000, 0x0, 0, 8⟩
def Fld.FAB_PEEK_DATA_VALUE : FieldRef := ⟨0x600014, 0x1000, 0x0, 0, 16⟩
def Fld.FAB_GCLK_EN : FieldRef := ⟨0x618000, 0x4, 0x0, 31, 1⟩
def Fld.FAB_GCLK_SRC : FieldRef := ⟨0x618000, 0x4, 0x0, 16, 2⟩
def Fld.FAB_GCLK_DIV : FieldRef := ⟨0x618000, 0x4, 0x0, 0, 12⟩
def Fld.FAB_FPLL_LOCK : FieldRef := ⟨0x618020, 0x0, 0x0, 31, 1⟩
def Fld.FAB_FPLL_M : FieldRef := ⟨0x618020, 0x0, 0x0, 0, 6⟩
def Fld.FAB_STAT_WR_IGN : FieldRef := ⟨0x618024, 0x0, 0x0, 0, 1⟩
def Fld.DIO_PIN_CFG_DRV : FieldRef := ⟨0x680000, 0x4, 0x0, 27, 2⟩
def Fld.DIO_PIN_CFG_SLEW : FieldRef := ⟨0x680000, 0x4, 0x0, 26, 1⟩
def Fld.DIO_PIN_CFG_PULL : FieldRef := ⟨0x680000, 0x4, 0x0, 24, 2⟩
def Fld.DIO_PIN_CFG_OESEL : FieldRef := ⟨0x680000, 0x4, 0x0, 12, 12⟩
def Fld.DIO_PIN_CFG_OSEL : FieldRef := ⟨0x680000, 0x4, 0x0, 0, 12⟩
def Fld.DIO_BANK_CTL_MODE : FieldRef := ⟨0x680400, 0x4, 0x0, 0, 1⟩
def Fld.DIO_BANK_STAT_VOK : FieldRef := ⟨0x680420, 0x4, 0x0, 0, 1⟩
def Fld.DIO_IN : FieldRef := ⟨0x680440, 0x4, 0x0, 0, 32⟩
def Fld.DIO_STAT_WR_IGN : FieldRef := ⟨0x680460, 0x0, 0x0, 0, 1⟩
def Fld.DIO_BND_CTL_EVCLK : FieldRef := ⟨0x690000, 0x100, 0x0, 8, 3⟩
def Fld.DIO_BND_CTL_AGCLK : FieldRef := ⟨0x690000, 0x100, 0x0, 0, 3⟩
def Fld.DIO_BND_STAT_AG_BADCH : FieldRef := ⟨0x690004, 0x100, 0x0, 1, 1⟩
def Fld.DIO_BND_STAT_WR_IGN : FieldRef := ⟨0x690004, 0x100, 0x0, 0, 1⟩
def Fld.DIO_BND_SLOT : FieldRef := ⟨0x690010, 0x100, 0x4, 0, 32⟩
def Fld.DIO_FPI_SRC_SRC : FieldRef := ⟨0x690040, 0x100, 0x10, 0, 16⟩
def Fld.DIO_FPI_CFG_CLK : FieldRef := ⟨0x690044, 0x100, 0x10, 8, 3⟩
def Fld.DIO_FPI_CFG_G : FieldRef := ⟨0x690044, 0x100, 0x10, 0, 2⟩
def Fld.DIO_FPI_STAT : FieldRef := ⟨0x690048, 0x100, 0x10, 0, 9⟩
def Fld.DIO_FPI_DROP : FieldRef := ⟨0x69004C, 0x100, 0x10, 0, 32⟩
def Fld.DIO_FPO_CFG_CLK : FieldRef := ⟨0x690080, 0x100, 0x10, 8, 3⟩
def Fld.DIO_FPO_STAT_HELD : FieldRef := ⟨0x690084, 0x100, 0x10, 16, 1⟩
def Fld.DIO_FPO_STAT_LEVEL : FieldRef := ⟨0x690084, 0x100, 0x10, 0, 9⟩
def Fld.DIO_FPO_REFUSED : FieldRef := ⟨0x690088, 0x100, 0x10, 0, 32⟩
def Fld.PRB_CTL_EN : FieldRef := ⟨0x6A0000, 0x20, 0x0, 31, 1⟩
def Fld.PRB_CTL_PIN : FieldRef := ⟨0x6A0000, 0x20, 0x0, 30, 1⟩
def Fld.PRB_CTL_BIT : FieldRef := ⟨0x6A0000, 0x20, 0x0, 24, 4⟩
def Fld.PRB_CTL_CLK : FieldRef := ⟨0x6A0000, 0x20, 0x0, 16, 3⟩
def Fld.PRB_CTL_DIV_M1 : FieldRef := ⟨0x6A0000, 0x20, 0x0, 0, 16⟩
def Fld.PRB_SEL_KIND : FieldRef := ⟨0x6A0004, 0x20, 0x0, 30, 2⟩
def Fld.PRB_SEL_HALF : FieldRef := ⟨0x6A0004, 0x20, 0x0, 29, 1⟩
def Fld.PRB_SEL_CB : FieldRef := ⟨0x6A0004, 0x20, 0x0, 24, 5⟩
def Fld.PRB_SEL_CODE : FieldRef := ⟨0x6A0004, 0x20, 0x0, 0, 16⟩
def Fld.PRB_STAT_DENIED : FieldRef := ⟨0x6A0008, 0x20, 0x0, 2, 1⟩
def Fld.PRB_STAT_WR_IGN : FieldRef := ⟨0x6A0008, 0x20, 0x0, 1, 1⟩
def Fld.PRB_STAT_ACTIVE : FieldRef := ⟨0x6A0008, 0x20, 0x0, 0, 1⟩
def Fld.PRB_WORDS : FieldRef := ⟨0x6A000C, 0x20, 0x0, 0, 32⟩
def Fld.TWN_CTL_FO_EN : FieldRef := ⟨0x6C0000, 0x0, 0x0, 8, 1⟩
def Fld.TWN_CTL_DUAL : FieldRef := ⟨0x6C0000, 0x0, 0x0, 0, 8⟩
def Fld.TWN_STAT_WR_IGN : FieldRef := ⟨0x6C0004, 0x0, 0x0, 24, 1⟩
def Fld.TWN_STAT_LANES : FieldRef := ⟨0x6C0004, 0x0, 0x0, 16, 5⟩
def Fld.TWN_STAT_HB_SIDE : FieldRef := ⟨0x6C0004, 0x0, 0x0, 12, 1⟩
def Fld.TWN_STAT_HB_LINK : FieldRef := ⟨0x6C0004, 0x0, 0x0, 11, 1⟩
def Fld.TWN_STAT_LINK_UP : FieldRef := ⟨0x6C0004, 0x0, 0x0, 10, 1⟩
def Fld.TWN_STAT_PAIRED : FieldRef := ⟨0x6C0004, 0x0, 0x0, 9, 1⟩
def Fld.TWN_STAT_PRIMARY : FieldRef := ⟨0x6C0004, 0x0, 0x0, 8, 1⟩
def Fld.TWN_STAT_CAUSE : FieldRef := ⟨0x6C0004, 0x0, 0x0, 0, 4⟩
def Fld.TWN_FOCNT_FAILOVERS : FieldRef := ⟨0x6C0008, 0x0, 0x0, 16, 16⟩
def Fld.TWN_FOCNT_MISMATCH : FieldRef := ⟨0x6C0008, 0x0, 0x0, 0, 16⟩
def Fld.TWN_HSEQ : FieldRef := ⟨0x6C000C, 0x0, 0x0, 0, 32⟩
def Fld.TWN_RPL_PEAK : FieldRef := ⟨0x6C0010, 0x0, 0x0, 16, 7⟩
def Fld.TWN_RPL_LEVEL : FieldRef := ⟨0x6C0010, 0x0, 0x0, 0, 7⟩
def Fld.TWN_FOTICK_LO : FieldRef := ⟨0x6C0018, 0x0, 0x0, 0, 32⟩
def Fld.TWN_FOTICK_HI : FieldRef := ⟨0x6C001C, 0x0, 0x0, 0, 32⟩
def Fld.TWN_IRQ_MISMATCH : FieldRef := ⟨0x6C0020, 0x0, 0x0, 3, 1⟩
def Fld.TWN_IRQ_RPL_OVF : FieldRef := ⟨0x6C0020, 0x0, 0x0, 2, 1⟩
def Fld.TWN_IRQ_LINK : FieldRef := ⟨0x6C0020, 0x0, 0x0, 1, 1⟩
def Fld.TWN_IRQ_FAILOVER : FieldRef := ⟨0x6C0020, 0x0, 0x0, 0, 1⟩
def Fld.TWN_IRQEN : FieldRef := ⟨0x6C0024, 0x0, 0x0, 0, 4⟩
def Fld.TWN_CMP : FieldRef := ⟨0x6C0028, 0x0, 0x0, 0, 24⟩
def Fld.TWN_LANE_GOOD : FieldRef := ⟨0x6C0040, 0x4, 0x0, 31, 1⟩
def Fld.TWN_LANE_EYE : FieldRef := ⟨0x6C0040, 0x4, 0x0, 0, 8⟩
def Fld.TWN_MATCH_OFS : FieldRef := ⟨0x6C0080, 0x4, 0x0, 16, 16⟩
def Fld.TWN_MATCH_GAIN : FieldRef := ⟨0x6C0080, 0x4, 0x0, 0, 16⟩
def Fld.VF_MSIX_ADDR_LO : FieldRef := ⟨0x2040000, 0x80000, 0x10, 2, 30⟩
def Fld.VF_MSIX_ADDR_HI : FieldRef := ⟨0x2040004, 0x80000, 0x10, 0, 32⟩
def Fld.VF_MSIX_DATA : FieldRef := ⟨0x2040008, 0x80000, 0x10, 0, 32⟩
def Fld.VF_MSIX_CTRL_MASK : FieldRef := ⟨0x204000C, 0x80000, 0x10, 0, 1⟩

/-! The rows, block by block. -/

def RegMap.dev : List RegRow := [
  ⟨Reg.DEV_ID, 1, 1, [⟨16, 16, .ro, 0x4b4e⟩, ⟨0, 16, .ro, 0⟩]⟩,
  ⟨Reg.DEV_MODE, 1, 1, [⟨16, 8, .ro, 0⟩, ⟨12, 1, .w1c, 0⟩, ⟨8, 4, .ro, 0⟩, ⟨4, 4, .ro, 0⟩, ⟨0, 4, .ro, 0⟩]⟩,
  ⟨Reg.DEV_COMPAT, 1, 1, [⟨8, 1, .w1c, 0⟩, ⟨1, 1, .ro, 0⟩, ⟨0, 1, .rw, 0⟩]⟩,
  ⟨Reg.DEV_XSTAT, 1, 1, [⟨16, 13, .w1c, 0⟩, ⟨0, 13, .w1c, 0⟩]⟩]

def RegMap.host : List RegRow := [
  ⟨Reg.HOST_LINK, 1, 1, [⟨31, 1, .ro, 0⟩, ⟨16, 4, .ro, 0⟩, ⟨8, 5, .ro, 0⟩, ⟨4, 3, .ro, 0⟩, ⟨0, 3, .ro, 0⟩]⟩,
  ⟨Reg.HOST_STAT, 1, 1, [⟨5, 1, .w1c, 0⟩, ⟨4, 1, .w1c, 0⟩, ⟨3, 1, .w1c, 0⟩, ⟨2, 1, .w1c, 0⟩, ⟨1, 1, .w1c, 0⟩, ⟨0, 1, .w1c, 0⟩]⟩,
  ⟨Reg.HOST_IRQEN, 1, 1, [⟨0, 6, .rw, 0⟩]⟩,
  ⟨Reg.HOST_BADOFS, 1, 1, [⟨27, 5, .ro, 0⟩, ⟨25, 2, .ro, 0⟩, ⟨0, 25, .ro, 0⟩]⟩,
  ⟨Reg.HOST_NUMVF, 1, 1, [⟨0, 5, .ro, 0⟩]⟩]

def RegMap.msix : List RegRow := [
  ⟨Reg.MSIX_PBA, 64, 1, [⟨0, 32, .ro, 0⟩]⟩,
  ⟨Reg.MSIX_ADDR_LO, 2048, 1, [⟨2, 30, .rw, 0⟩]⟩,
  ⟨Reg.MSIX_ADDR_HI, 2048, 1, [⟨0, 32, .rw, 0⟩]⟩,
  ⟨Reg.MSIX_DATA, 2048, 1, [⟨0, 32, .rw, 0⟩]⟩,
  ⟨Reg.MSIX_CTRL, 2048, 1, [⟨0, 1, .rw, 1⟩]⟩]

def RegMap.pgh : List RegRow := [
  ⟨Reg.PGH_STAT, 1, 1, [⟨1, 1, .w1c, 0⟩, ⟨0, 1, .w1c, 0⟩]⟩,
  ⟨Reg.PGH_BADCHAN, 1, 1, [⟨16, 16, .ro, 0⟩, ⟨0, 10, .ro, 0⟩]⟩,
  ⟨Reg.PGH_ALLOC, 1, 1, [⟨16, 7, .ro, 0⟩, ⟨0, 11, .ro, 0⟩]⟩,
  ⟨Reg.PGH_SNDSUM, 32, 1, [⟨0, 32, .ro, 0⟩]⟩,
  ⟨Reg.PGH_RCVSUM, 32, 1, [⟨0, 32, .ro, 0⟩]⟩]

def RegMap.cfg : List RegRow := [
  ⟨Reg.CFG_STAT, 1, 1, [⟨24, 8, .ro, 0⟩, ⟨15, 1, .w1c, 0⟩, ⟨14, 1, .ro, 0⟩, ⟨12, 2, .ro, 0⟩, ⟨11, 1, .ro, 0⟩, ⟨8, 3, .ro, 0⟩, ⟨0, 4, .ro, 0⟩]⟩,
  ⟨Reg.CFG_WORDS, 1, 1, [⟨0, 32, .ro, 0⟩]⟩,
  ⟨Reg.CFG_FRAMES, 1, 1, [⟨0, 32, .ro, 0⟩]⟩,
  ⟨Reg.CFG_NEXTFA, 1, 1, [⟨0, 24, .ro, 0⟩]⟩,
  ⟨Reg.CFG_ERRPOS, 1, 1, [⟨0, 32, .ro, 0⟩]⟩,
  ⟨Reg.CFG_CRC, 1, 1, [⟨0, 32, .ro, 0⟩]⟩,
  ⟨Reg.CFG_CRC_END, 1, 1, [⟨0, 32, .ro, 0⟩]⟩,
  ⟨Reg.CFG_TIME, 1, 1, [⟨0, 32, .ro, 0⟩]⟩,
  ⟨Reg.CFG_DESIGN_LO, 1, 1, [⟨0, 32, .ro, 0⟩]⟩,
  ⟨Reg.CFG_DESIGN_HI, 1, 1, [⟨0, 32, .ro, 0⟩]⟩,
  ⟨Reg.CFG_QSPI, 1, 1, [⟨24, 4, .rw, 1⟩, ⟨2, 22, .rw, 0⟩]⟩,
  ⟨Reg.CFG_FIFO, 1, 1, [⟨0, 11, .ro, 0⟩]⟩]

def RegMap.scrb : List RegRow := [
  ⟨Reg.SCRB_CTL, 1, 1, [⟨31, 1, .rw, 1⟩, ⟨0, 16, .rw, 0⟩]⟩,
  ⟨Reg.SCRB_STAT, 1, 1, [⟨8, 1, .w1c, 0⟩, ⟨0, 1, .ro, 0⟩]⟩,
  ⟨Reg.SCRB_PASSES, 1, 1, [⟨0, 32, .ro, 0⟩]⟩,
  ⟨Reg.SCRB_POS, 1, 1, [⟨0, 24, .ro, 0⟩]⟩,
  ⟨Reg.SCRB_IRQ, 1, 1, [⟨2, 1, .w1c, 0⟩, ⟨1, 1, .w1c, 0⟩, ⟨0, 1, .w1c, 0⟩]⟩,
  ⟨Reg.SCRB_IRQEN, 1, 1, [⟨0, 3, .rw, 0⟩]⟩,
  ⟨Reg.SCRB_HB_SGL, 1, 1, [⟨0, 32, .ro, 0⟩]⟩,
  ⟨Reg.SCRB_HB_DBL, 1, 1, [⟨0, 32, .ro, 0⟩]⟩,
  ⟨Reg.SCRB_RLD_STAT, 1, 1, [⟨24, 8, .ro, 0⟩, ⟨16, 8, .ro, 0⟩, ⟨8, 5, .ro, 0⟩, ⟨4, 1, .ro, 0⟩, ⟨0, 4, .ro, 0⟩]⟩,
  ⟨Reg.SCRB_RLD_WORDS, 1, 1, [⟨0, 32, .ro, 0⟩]⟩,
  ⟨Reg.SCRB_RLD_FRAMES, 1, 1, [⟨0, 10, .ro, 0⟩]⟩,
  ⟨Reg.SCRB_RLD_ERRPOS, 1, 1, [⟨0, 32, .ro, 0⟩]⟩,
  ⟨Reg.SCRB_RLD_IRQ, 1, 1, [⟨1, 1, .w1c, 0⟩, ⟨0, 1, .w1c, 0⟩]⟩,
  ⟨Reg.SCRB_RLD_IRQEN, 1, 1, [⟨0, 2, .rw, 0⟩]⟩,
  ⟨Reg.SCRB_CB_STATE, 24, 1, [⟨24, 8, .ro, 0⟩, ⟨8, 1, .ro, 0⟩, ⟨0, 3, .ro, 0⟩]⟩,
  ⟨Reg.SCRB_CB_ISO, 24, 1, [⟨2, 1, .rw, 0⟩, ⟨1, 1, .rw, 0⟩, ⟨0, 1, .rw, 0⟩]⟩,
  ⟨Reg.SCRB_CB_SAFE0, 24, 1, [⟨0, 32, .rw, 0⟩]⟩,
  ⟨Reg.SCRB_CB_SAFE1, 24, 1, [⟨0, 32, .rw, 0⟩]⟩,
  ⟨Reg.SCRB_CB_SGL, 24, 1, [⟨0, 32, .ro, 0⟩]⟩,
  ⟨Reg.SCRB_CB_DBL, 24, 1, [⟨31, 1, .ro, 0⟩, ⟨0, 24, .ro, 0⟩]⟩]

def RegMap.bur : List RegRow := [
  ⟨Reg.BUR_CMD, 1, 1, [⟨8, 8, .rw, 0⟩, ⟨0, 8, .rw, 0⟩]⟩,
  ⟨Reg.BUR_STATUS, 1, 1, [⟨31, 1, .ro, 0⟩, ⟨30, 1, .w1c, 0⟩, ⟨29, 1, .w1c, 0⟩, ⟨8, 8, .ro, 0⟩, ⟨0, 8, .ro, 0⟩]⟩,
  ⟨Reg.BUR_DB, 1, 1, [⟨0, 1, .wo, 0⟩]⟩,
  ⟨Reg.BUR_BOOT, 1, 1, [⟨31, 1, .ro, 0⟩, ⟨24, 4, .ro, 0⟩, ⟨16, 8, .ro, 0⟩, ⟨0, 16, .ro, 0⟩]⟩,
  ⟨Reg.BUR_POLICY, 1, 1, [⟨8, 4, .ro, 0⟩, ⟨4, 4, .ro, 0⟩, ⟨1, 1, .ro, 0⟩, ⟨0, 1, .ro, 0⟩]⟩,
  ⟨Reg.BUR_STAT, 1, 1, [⟨3, 1, .w1c, 0⟩, ⟨2, 1, .w1c, 0⟩, ⟨1, 1, .w1c, 0⟩, ⟨0, 1, .w1c, 0⟩]⟩,
  ⟨Reg.BUR_KEYIDX_LO, 1, 1, [⟨0, 32, .ro, 0⟩]⟩,
  ⟨Reg.BUR_KEYIDX_HI, 1, 1, [⟨0, 8, .ro, 0⟩]⟩,
  ⟨Reg.BUR_KEYRES_LO, 1, 1, [⟨0, 32, .ro, 0⟩]⟩,
  ⟨Reg.BUR_KEYRES_HI, 1, 1, [⟨0, 8, .ro, 0⟩]⟩,
  ⟨Reg.BUR_TAINT, 1, 1, [⟨0, 24, .ro, 0⟩]⟩,
  ⟨Reg.BUR_ARG, 16, 1, [⟨0, 32, .rw, 0⟩]⟩,
  ⟨Reg.BUR_CLAIM, 24, 1, [⟨0, 32, .ro, 0⟩]⟩]

def RegMap.lcs : List RegRow := [
  ⟨Reg.LCS_CTL, 1, 1, [⟨16, 2, .rw, 1⟩, ⟨0, 9, .rw, 0x28⟩]⟩,
  ⟨Reg.LCS_STAT, 1, 1, [⟨16, 1, .w1c, 0⟩, ⟨8, 8, .ro, 0⟩, ⟨1, 1, .ro, 0⟩, ⟨0, 1, .ro, 0⟩]⟩,
  ⟨Reg.LCS_TIME_SNAP, 1, 1, [⟨0, 1, .wo, 0⟩]⟩,
  ⟨Reg.LCS_TIME_LO, 1, 1, [⟨0, 32, .ro, 0⟩]⟩,
  ⟨Reg.LCS_TIME_HI, 1, 1, [⟨0, 32, .ro, 0⟩]⟩,
  ⟨Reg.LCS_SMPQ_LO, 1, 1, [⟨0, 32, .ro, 0⟩]⟩,
  ⟨Reg.LCS_SMPQ_HI, 1, 1, [⟨0, 16, .ro, 0⟩]⟩,
  ⟨Reg.LCS_NEXT_LO, 1, 1, [⟨0, 32, .ro, 0xffffffff⟩]⟩,
  ⟨Reg.LCS_NEXT_HI, 1, 1, [⟨0, 32, .ro, 0xffffffff⟩]⟩,
  ⟨Reg.LCS_NEXT_SRC, 1, 1, [⟨8, 1, .ro, 0⟩, ⟨0, 8, .ro, 0⟩]⟩,
  ⟨Reg.LCS_AIRQ, 8, 1, [⟨0, 32, .w1c, 0⟩]⟩,
  ⟨Reg.LCS_TIRQ, 1, 1, [⟨0, 32, .w1c, 0⟩]⟩,
  ⟨Reg.LCS_RIRQ, 1, 1, [⟨0, 24, .w1c, 0⟩]⟩]

def RegMap.pr : List RegRow := [
  ⟨Reg.PR_SRC, 8, 1, [⟨24, 2, .rw, 0⟩, ⟨16, 8, .rw, 0⟩, ⟨8, 2, .rw, 0⟩, ⟨0, 8, .rw, 0⟩]⟩,
  ⟨Reg.PR_CFG, 8, 1, [⟨31, 1, .rw, 0⟩, ⟨29, 2, .rw, 0⟩, ⟨28, 1, .rw, 0⟩, ⟨26, 2, .rw, 0⟩, ⟨23, 3, .rw, 0⟩, ⟨0, 16, .rw, 0⟩]⟩,
  ⟨Reg.PR_TRK, 8, 1, [⟨24, 8, .rw, 0xd⟩, ⟨16, 8, .rw, 8⟩, ⟨8, 8, .rw, 1⟩]⟩,
  ⟨Reg.PR_ADJ, 8, 1, [⟨16, 16, .rw, 0⟩, ⟨0, 16, .rw, 0⟩]⟩,
  ⟨Reg.PR_STAT, 8, 1, [⟨24, 8, .ro, 0⟩, ⟨0, 3, .ro, 0⟩]⟩,
  ⟨Reg.PR_CNT, 8, 1, [⟨24, 8, .rc, 0⟩, ⟨16, 8, .rc, 0⟩, ⟨8, 8, .rc, 0⟩, ⟨0, 8, .rc, 0⟩]⟩,
  ⟨Reg.PR_PERIOD_LO, 8, 1, [⟨0, 32, .ro, 0⟩]⟩,
  ⟨Reg.PR_PERIOD_HI, 8, 1, [⟨0, 16, .ro, 0⟩]⟩,
  ⟨Reg.PR_FRAC, 8, 1, [⟨0, 32, .ro, 0⟩]⟩,
  ⟨Reg.PR_TURN, 8, 1, [⟨0, 32, .ro, 0⟩]⟩,
  ⟨Reg.PR_ERR, 8, 1, [⟨0, 32, .ro, 0⟩]⟩,
  ⟨Reg.PR_LAST_LO, 8, 1, [⟨0, 32, .ro, 0⟩]⟩,
  ⟨Reg.PR_LAST_HI, 8, 1, [⟨0, 32, .ro, 0⟩]⟩,
  ⟨Reg.PR_SNAP, 8, 1, [⟨0, 1, .wo, 0⟩]⟩]

def RegMap.tt : List RegRow := [
  ⟨Reg.TT_CTL, 32, 1, [⟨31, 1, .rw, 0⟩, ⟨30, 1, .w1s, 0⟩, ⟨29, 1, .rw, 0⟩, ⟨27, 2, .rw, 0⟩, ⟨26, 1, .rw, 0⟩, ⟨18, 8, .rw, 0⟩, ⟨0, 12, .rw, 0⟩]⟩,
  ⟨Reg.TT_PERIOD, 32, 1, [⟨0, 32, .rw, 0⟩]⟩,
  ⟨Reg.TT_COUNT, 32, 1, [⟨0, 32, .ro, 0⟩]⟩,
  ⟨Reg.TT_DEST, 32, 1, [⟨16, 10, .rw, 0⟩, ⟨8, 5, .rw, 0⟩, ⟨0, 6, .rw, 0⟩]⟩,
  ⟨Reg.TT_CNT, 32, 1, [⟨0, 32, .ro, 0⟩]⟩]

def RegMap.cap : List RegRow := [
  ⟨Reg.CAP_CTL, 16, 1, [⟨31, 1, .rw, 0⟩, ⟨26, 2, .rw, 0⟩, ⟨24, 2, .rw, 0⟩, ⟨16, 8, .rw, 0⟩, ⟨0, 3, .rw, 0⟩]⟩,
  ⟨Reg.CAP_STAT, 16, 1, [⟨16, 5, .ro, 0⟩, ⟨8, 1, .w1c, 0⟩]⟩,
  ⟨Reg.CAP_TS_LO, 16, 1, [⟨0, 32, .ro, 0⟩]⟩,
  ⟨Reg.CAP_TS_HI, 16, 1, [⟨0, 32, .ro, 0⟩]⟩,
  ⟨Reg.CAP_TURN, 16, 1, [⟨0, 32, .ro, 0⟩]⟩,
  ⟨Reg.CAP_FRAC, 16, 1, [⟨0, 32, .ro, 0⟩]⟩,
  ⟨Reg.CAP_INFO, 16, 1, [⟨24, 8, .ro, 0⟩, ⟨0, 3, .ro, 0⟩]⟩,
  ⟨Reg.CAP_POP, 16, 1, [⟨0, 1, .wo, 0⟩]⟩]

def RegMap.pa : List RegRow := [
  ⟨Reg.PA_CTL, 256, 1, [⟨31, 1, .rw, 0⟩, ⟨30, 1, .ro, 0⟩, ⟨27, 3, .rw, 0⟩, ⟨0, 12, .rw, 0⟩]⟩,
  ⟨Reg.PA_TARGET, 256, 1, [⟨0, 32, .rw, 0⟩]⟩,
  ⟨Reg.PA_FILTER, 256, 1, [⟨16, 16, .rw, 0⟩, ⟨0, 16, .rw, 0⟩]⟩,
  ⟨Reg.PA_DEST, 256, 1, [⟨16, 10, .rw, 0⟩, ⟨8, 5, .rw, 0⟩, ⟨0, 6, .rw, 0⟩]⟩,
  ⟨Reg.PA_CNT, 256, 1, [⟨0, 32, .ro, 0⟩]⟩,
  ⟨Reg.PA_LASTT, 256, 1, [⟨0, 32, .ro, 0⟩]⟩,
  ⟨Reg.PA_LASTR, 256, 1, [⟨16, 1, .ro, 0⟩, ⟨0, 16, .ro, 0⟩]⟩]

def RegMap.ap : List RegRow := [
  ⟨Reg.AP_CTL, 96, 1, [⟨8, 1, .rw, 0⟩, ⟨4, 1, .rw, 0⟩, ⟨3, 1, .rw, 0⟩, ⟨0, 3, .rw, 4⟩]⟩,
  ⟨Reg.AP_STAT, 96, 1, [⟨2, 1, .w1c, 0⟩, ⟨1, 1, .w1c, 0⟩, ⟨0, 1, .ro, 0⟩]⟩,
  ⟨Reg.AP_ITRIM, 96, 5, [⟨16, 10, .rw, 0⟩, ⟨0, 10, .rw, 0⟩]⟩,
  ⟨Reg.AP_OTRIM, 96, 3, [⟨16, 10, .rw, 0⟩, ⟨0, 10, .rw, 0⟩]⟩]

def RegMap.ac : List RegRow := [
  ⟨Reg.AC_CTL, 192, 1, [⟨11, 1, .rw, 0⟩, ⟨10, 1, .wo, 0⟩, ⟨8, 2, .rw, 0⟩, ⟨0, 4, .rw, 0⟩]⟩,
  ⟨Reg.AC_GAIN, 192, 1, [⟨0, 7, .rw, 0⟩]⟩,
  ⟨Reg.AC_TUNE, 192, 1, [⟨16, 8, .rw, 0⟩, ⟨8, 6, .rw, 0⟩, ⟨7, 1, .rw, 0⟩, ⟨0, 4, .rw, 0⟩]⟩,
  ⟨Reg.AC_SC, 192, 1, [⟨16, 12, .rw, 4⟩, ⟨0, 6, .rw, 1⟩]⟩,
  ⟨Reg.AC_AZ, 192, 1, [⟨16, 5, .rw, 0⟩, ⟨0, 1, .rw, 0⟩]⟩,
  ⟨Reg.AC_TRIM, 192, 2, [⟨16, 10, .rw, 0⟩, ⟨0, 10, .rw, 0⟩]⟩,
  ⟨Reg.AC_STAT, 192, 1, [⟨16, 1, .ro, 0⟩, ⟨4, 1, .w1c, 0⟩, ⟨3, 1, .ro, 0⟩, ⟨2, 1, .w1c, 0⟩, ⟨1, 1, .w1c, 0⟩]⟩,
  ⟨Reg.AC_AZCNT, 192, 1, [⟨16, 16, .ro, 0⟩, ⟨0, 16, .ro, 0⟩]⟩,
  ⟨Reg.AC_LT, 192, 4, [⟨15, 1, .rw, 0⟩, ⟨8, 6, .rw, 0⟩, ⟨7, 1, .rw, 0⟩, ⟨6, 1, .rw, 0⟩, ⟨5, 1, .rw, 0⟩, ⟨4, 1, .rw, 0⟩, ⟨3, 1, .rw, 0⟩, ⟨2, 1, .rw, 0⟩, ⟨1, 1, .rw, 0⟩, ⟨0, 1, .rw, 0⟩]⟩,
  ⟨Reg.AC_CENSUS, 1, 1, [⟨24, 1, .w1c, 0⟩, ⟨16, 8, .ro, 0⟩, ⟨8, 8, .ro, 0⟩, ⟨0, 1, .ro, 0⟩]⟩,
  ⟨Reg.AC_CENSUS_TRK, 1, 1, [⟨0, 16, .ro, 0⟩]⟩,
  ⟨Reg.AC_CENSUS_DRV, 1, 1, [⟨16, 16, .ro, 0⟩, ⟨0, 16, .ro, 0⟩]⟩,
  ⟨Reg.AC_CGIN, 24, 1, [⟨6, 2, .rw, 0⟩, ⟨0, 6, .rw, 0⟩, ⟨14, 2, .rw, 0⟩, ⟨8, 6, .rw, 0⟩, ⟨22, 2, .rw, 0⟩, ⟨16, 6, .rw, 0⟩, ⟨30, 2, .rw, 0⟩, ⟨24, 6, .rw, 0⟩]⟩,
  ⟨Reg.AC_DAOUT, 24, 1, [⟨7, 1, .rw, 0⟩, ⟨0, 6, .rw, 0⟩]⟩]

def RegMap.cg0 : List RegRow := [
  ⟨Reg.CG_CTL, 24, 1, [⟨8, 1, .rw, 0⟩, ⟨0, 2, .rw, 0⟩]⟩,
  ⟨Reg.CG_SEQCTL, 24, 1, [⟨20, 1, .rw, 0⟩, ⟨16, 4, .rw, 0⟩, ⟨8, 1, .rw, 0⟩, ⟨1, 1, .wo, 0⟩, ⟨0, 1, .wo, 0⟩]⟩,
  ⟨Reg.CG_STAT, 24, 1, [⟨16, 5, .ro, 0⟩, ⟨12, 3, .ro, 0⟩, ⟨4, 1, .w1c, 0⟩, ⟨3, 1, .w1c, 0⟩, ⟨2, 1, .ro, 0⟩, ⟨0, 1, .ro, 0⟩]⟩,
  ⟨Reg.CG_REF, 24, 1, [⟨0, 2, .rw, 0⟩]⟩,
  ⟨Reg.CG_LISTEN, 24, 4, [⟨31, 1, .rw, 0⟩, ⟨8, 1, .rw, 0⟩, ⟨0, 8, .rw, 0⟩]⟩,
  ⟨Reg.CG_FTRIG, 24, 1, [⟨31, 1, .rw, 0⟩, ⟨0, 6, .rw, 0⟩]⟩,
  ⟨Reg.CG_URG_CFG, 24, 1, [⟨25, 1, .rw, 0⟩, ⟨24, 1, .rw, 0⟩, ⟨12, 12, .rw, 0⟩, ⟨0, 8, .rw, 0⟩]⟩,
  ⟨Reg.CG_URG_DWELL, 24, 1, [⟨0, 15, .rw, 0⟩]⟩,
  ⟨Reg.CG_LAT, 24, 1, [⟨16, 13, .ro, 0⟩, ⟨0, 13, .ro, 0xe⟩]⟩,
  ⟨Reg.CG_IRQ, 24, 1, [⟨8, 4, .w1c, 0⟩, ⟨4, 1, .w1c, 0⟩, ⟨3, 1, .w1c, 0⟩, ⟨2, 1, .w1c, 0⟩, ⟨1, 1, .w1c, 0⟩, ⟨0, 1, .w1c, 0⟩]⟩,
  ⟨Reg.CG_IRQEN, 24, 1, [⟨8, 4, .rw, 0⟩, ⟨0, 5, .rw, 0⟩]⟩,
  ⟨Reg.CG_EVCNT, 24, 1, [⟨16, 16, .rc, 0⟩, ⟨8, 8, .rc, 0⟩, ⟨0, 8, .rc, 0⟩]⟩,
  ⟨Reg.CG_OVRCNT, 24, 1, [⟨0, 8, .rc, 0⟩, ⟨8, 8, .rc, 0⟩, ⟨16, 8, .rc, 0⟩, ⟨24, 8, .rc, 0⟩]⟩,
  ⟨Reg.CG_CNT_SNAP, 24, 1, [⟨0, 1, .wo, 0⟩]⟩,
  ⟨Reg.CG_CONV_LO, 24, 1, [⟨0, 32, .ro, 0⟩]⟩,
  ⟨Reg.CG_CONV_HI, 24, 1, [⟨0, 32, .ro, 0⟩]⟩,
  ⟨Reg.CG_EMIT_LO, 24, 1, [⟨0, 32, .ro, 0⟩]⟩,
  ⟨Reg.CG_EMIT_HI, 24, 1, [⟨0, 32, .ro, 0⟩]⟩,
  ⟨Reg.CG_SDISC_LO, 24, 1, [⟨0, 32, .ro, 0⟩]⟩,
  ⟨Reg.CG_SDISC_HI, 24, 1, [⟨0, 32, .ro, 0⟩]⟩,
  ⟨Reg.CG_PDISC_LO, 24, 1, [⟨0, 32, .ro, 0⟩]⟩,
  ⟨Reg.CG_PDISC_HI, 24, 1, [⟨0, 32, .ro, 0⟩]⟩,
  ⟨Reg.CG_ELOG_INFO, 24, 1, [⟨31, 1, .ro, 0⟩, ⟨24, 6, .ro, 0⟩, ⟨16, 5, .ro, 0⟩, ⟨0, 16, .ro, 0⟩]⟩,
  ⟨Reg.CG_ELOG_IDX, 24, 1, [⟨0, 32, .ro, 0⟩]⟩]

def RegMap.cg1 : List RegRow := [
  ⟨Reg.CG_ELOG_TICK, 24, 1, [⟨0, 32, .ro, 0⟩]⟩,
  ⟨Reg.CG_ELOG_POP, 24, 1, [⟨0, 1, .wo, 0⟩]⟩,
  ⟨Reg.CG_WIN_BND, 24, 4, [⟨16, 14, .rw, 0⟩, ⟨0, 14, .rw, 0⟩]⟩,
  ⟨Reg.CG_WIN_ARM, 24, 4, [⟨31, 1, .rw, 0⟩, ⟨16, 8, .rw, 0⟩, ⟨0, 16, .rw, 0⟩]⟩,
  ⟨Reg.CG_WIN_MASK, 24, 4, [⟨0, 17, .rw, 0⟩]⟩,
  ⟨Reg.CG_WIN_HIT, 24, 4, [⟨31, 1, .ro, 0⟩, ⟨16, 1, .ro, 0⟩, ⟨0, 14, .ro, 0⟩]⟩,
  ⟨Reg.CG_SEQ_CFG, 24, 16, [⟨25, 1, .rw, 0⟩, ⟨24, 1, .rw, 0⟩, ⟨12, 12, .rw, 0⟩, ⟨0, 8, .rw, 0⟩]⟩,
  ⟨Reg.CG_SEQ_DWELL, 24, 16, [⟨0, 15, .rw, 0⟩]⟩,
  ⟨Reg.CG_ROT_CTL, 24, 1, [⟨31, 1, .rw, 1⟩, ⟨30, 1, .rw, 1⟩, ⟨16, 8, .rw, 0x10⟩, ⟨0, 16, .rw, 0x258⟩]⟩,
  ⟨Reg.CG_ROT_HOTOL, 24, 1, [⟨16, 16, .rw, 0x30⟩, ⟨0, 16, .rw, 0x10⟩]⟩,
  ⟨Reg.CG_ROT_QCFG, 24, 1, [⟨16, 16, .rw, 0x20⟩, ⟨0, 16, .rw, 0xdac⟩]⟩,
  ⟨Reg.CG_ROT_MAP, 24, 1, [⟨16, 3, .ro, 4⟩, ⟨0, 3, .ro, 0⟩, ⟨4, 3, .ro, 1⟩, ⟨8, 3, .ro, 2⟩, ⟨12, 3, .ro, 3⟩]⟩,
  ⟨Reg.CG_ROT_STAT, 24, 1, [⟨16, 4, .ro, 0xf⟩, ⟨11, 1, .ro, 0⟩, ⟨8, 3, .ro, 0⟩, ⟨7, 1, .w1c, 0⟩, ⟨0, 3, .ro, 0⟩]⟩,
  ⟨Reg.CG_ROT_CNT, 24, 1, [⟨24, 8, .rc, 0⟩, ⟨16, 8, .rc, 0⟩, ⟨0, 16, .rc, 0⟩]⟩,
  ⟨Reg.CG_ROT_SPUR, 24, 1, [⟨18, 1, .ro, 0⟩, ⟨16, 2, .ro, 0⟩, ⟨0, 16, .ro, 0⟩]⟩,
  ⟨Reg.CG_HO_LOG_SL, 24, 1, [⟨31, 1, .ro, 0⟩, ⟨29, 2, .ro, 0⟩, ⟨16, 7, .ro, 0⟩, ⟨8, 3, .ro, 0⟩, ⟨4, 3, .ro, 0⟩, ⟨0, 2, .ro, 0⟩]⟩,
  ⟨Reg.CG_HO_LOG_MS, 24, 1, [⟨16, 16, .ro, 0⟩, ⟨0, 16, .ro, 0⟩]⟩,
  ⟨Reg.CG_HO_IDX_LO, 24, 1, [⟨0, 32, .ro, 0⟩]⟩,
  ⟨Reg.CG_HO_IDX_HI, 24, 1, [⟨0, 16, .ro, 0⟩]⟩,
  ⟨Reg.CG_ROT_IRQ, 24, 1, [⟨4, 1, .w1c, 0⟩, ⟨3, 1, .w1c, 0⟩, ⟨2, 1, .w1c, 0⟩, ⟨1, 1, .w1c, 0⟩, ⟨0, 1, .w1c, 0⟩]⟩,
  ⟨Reg.CG_ROT_IRQEN, 24, 1, [⟨0, 5, .rw, 0⟩]⟩,
  ⟨Reg.CG_SL_TRIM, 24, 5, [⟨16, 12, .rw, 0⟩, ⟨0, 12, .rw, 0⟩]⟩,
  ⟨Reg.CG_SL_SKEW, 24, 5, [⟨0, 8, .rw, 0⟩]⟩,
  ⟨Reg.CG_SL_RES_OG, 24, 5, [⟨16, 12, .rw, 0⟩, ⟨0, 12, .rw, 0⟩]⟩]

def RegMap.cg2 : List RegRow := [
  ⟨Reg.CG_SL_RES_SK, 24, 5, [⟨0, 10, .rw, 0⟩]⟩,
  ⟨Reg.CG_SL_QUAL, 24, 5, [⟨31, 1, .ro, 0⟩, ⟨30, 1, .w1c, 0⟩, ⟨16, 12, .ro, 0⟩, ⟨0, 16, .ro, 0⟩]⟩]

def RegMap.fc0 : List RegRow := [
  ⟨Reg.FC_CTL, 48, 1, [⟨16, 5, .rw, 0⟩, ⟨11, 1, .rw, 0⟩, ⟨10, 1, .rw, 0⟩, ⟨9, 1, .rw, 0⟩, ⟨8, 1, .rw, 0⟩]⟩,
  ⟨Reg.FC_SRC, 48, 1, [⟨0, 16, .rw, 0⟩]⟩,
  ⟨Reg.FC_STAT, 48, 1, [⟨9, 1, .ro, 0⟩, ⟨8, 1, .w1c, 0⟩, ⟨7, 1, .w1c, 0⟩, ⟨6, 1, .w1c, 0⟩, ⟨5, 1, .ro, 0⟩, ⟨4, 1, .ro, 0⟩, ⟨3, 1, .ro, 0⟩, ⟨2, 1, .ro, 0⟩, ⟨1, 1, .ro, 0⟩, ⟨0, 1, .ro, 0⟩]⟩,
  ⟨Reg.FC_CIC, 48, 1, [⟨16, 14, .rw, 2⟩, ⟨8, 1, .rw, 0⟩, ⟨0, 3, .rw, 3⟩]⟩,
  ⟨Reg.FC_CIC_SHI, 48, 1, [⟨0, 5, .rw, 0⟩, ⟨5, 5, .rw, 0⟩, ⟨10, 5, .rw, 0⟩, ⟨15, 5, .rw, 0⟩, ⟨20, 5, .rw, 0⟩]⟩,
  ⟨Reg.FC_CIC_SHC, 48, 1, [⟨0, 5, .rw, 0⟩, ⟨5, 5, .rw, 0⟩, ⟨10, 5, .rw, 0⟩, ⟨15, 5, .rw, 0⟩, ⟨20, 5, .rw, 0⟩]⟩,
  ⟨Reg.FC_FIR, 48, 1, [⟨16, 12, .rw, 0xff⟩, ⟨8, 5, .rw, 9⟩, ⟨7, 1, .rw, 0⟩, ⟨0, 7, .rw, 0x7f⟩]⟩,
  ⟨Reg.FC_BANK_INFO, 48, 2, [⟨8, 24, .rw, 0⟩, ⟨0, 2, .rw, 0⟩]⟩,
  ⟨Reg.FC_GDELAY, 48, 1, [⟨0, 32, .ro, 0⟩]⟩,
  ⟨Reg.FC_LAT, 48, 1, [⟨0, 8, .ro, 0x14⟩]⟩,
  ⟨Reg.FC_EVCNT, 48, 1, [⟨8, 8, .rc, 0⟩, ⟨0, 8, .rc, 0⟩]⟩,
  ⟨Reg.FC_CNT_SNAP, 48, 1, [⟨0, 1, .wo, 0⟩]⟩,
  ⟨Reg.FC_COMP_LO, 48, 1, [⟨0, 32, .ro, 0⟩]⟩,
  ⟨Reg.FC_COMP_HI, 48, 1, [⟨0, 32, .ro, 0⟩]⟩,
  ⟨Reg.FC_EMIT_LO, 48, 1, [⟨0, 32, .ro, 0⟩]⟩,
  ⟨Reg.FC_EMIT_HI, 48, 1, [⟨0, 32, .ro, 0⟩]⟩,
  ⟨Reg.FC_SUPP_LO, 48, 1, [⟨0, 32, .ro, 0⟩]⟩,
  ⟨Reg.FC_SUPP_HI, 48, 1, [⟨0, 32, .ro, 0⟩]⟩,
  ⟨Reg.FC_GAP_INFO, 48, 1, [⟨31, 1, .ro, 0⟩, ⟨24, 5, .ro, 0⟩, ⟨16, 3, .ro, 0⟩, ⟨0, 16, .ro, 0⟩]⟩,
  ⟨Reg.FC_GAP_IDX, 48, 1, [⟨0, 32, .ro, 0⟩]⟩,
  ⟨Reg.FC_GAP_CNT, 48, 1, [⟨0, 32, .ro, 0⟩]⟩,
  ⟨Reg.FC_GAP_POP, 48, 1, [⟨0, 1, .wo, 0⟩]⟩,
  ⟨Reg.FC_IRQ, 48, 1, [⟨4, 1, .w1c, 0⟩, ⟨3, 1, .w1c, 0⟩, ⟨2, 1, .w1c, 0⟩, ⟨1, 1, .w1c, 0⟩, ⟨0, 1, .w1c, 0⟩]⟩,
  ⟨Reg.FC_IRQEN, 48, 1, [⟨0, 5, .rw, 0⟩]⟩]

def RegMap.fc1 : List RegRow := [
  ⟨Reg.FC_COEFA, 48, 128, [⟨0, 18, .rw, 0⟩]⟩,
  ⟨Reg.FC_COEFB, 48, 128, [⟨0, 18, .rw, 0⟩]⟩,
  ⟨Reg.FC_RS_CTL, 48, 1, [⟨16, 16, .rw, 0⟩, ⟨8, 3, .rw, 0⟩, ⟨4, 2, .rw, 0⟩, ⟨0, 2, .rw, 0⟩]⟩,
  ⟨Reg.FC_RS_INC_LO, 48, 1, [⟨0, 32, .rw, 0⟩]⟩,
  ⟨Reg.FC_RS_INC_HI, 48, 1, [⟨0, 16, .rw, 0x100⟩]⟩,
  ⟨Reg.FC_RS_PHOFS, 48, 1, [⟨0, 32, .rw, 0⟩]⟩,
  ⟨Reg.FC_RS_LISTEN, 48, 4, [⟨31, 1, .rw, 0⟩, ⟨0, 8, .rw, 0⟩]⟩,
  ⟨Reg.FC_RS_STAT, 48, 1, [⟨8, 1, .w1c, 0⟩, ⟨4, 1, .ro, 0⟩]⟩,
  ⟨Reg.FC_RS_EVCNT, 48, 1, [⟨24, 8, .rc, 0⟩, ⟨16, 8, .rc, 0⟩, ⟨8, 8, .rc, 0⟩, ⟨0, 8, .rc, 0⟩]⟩,
  ⟨Reg.FC_RS_IRQ, 48, 1, [⟨4, 1, .w1c, 0⟩, ⟨3, 1, .w1c, 0⟩, ⟨2, 1, .w1c, 0⟩, ⟨1, 1, .w1c, 0⟩, ⟨0, 1, .w1c, 0⟩]⟩,
  ⟨Reg.FC_RS_IRQEN, 48, 1, [⟨0, 5, .rw, 0⟩]⟩,
  ⟨Reg.FC_RS_CADDR, 48, 1, [⟨0, 12, .rw, 0⟩]⟩,
  ⟨Reg.FC_RS_CDATA, 48, 1, [⟨0, 18, .wo, 0⟩]⟩,
  ⟨Reg.FC_RS_KDELAY, 48, 1, [⟨0, 32, .ro, 0⟩]⟩,
  ⟨Reg.FC_TLOG_INFO, 48, 1, [⟨31, 1, .ro, 0⟩, ⟨24, 6, .ro, 0⟩, ⟨17, 1, .ro, 0⟩, ⟨16, 1, .ro, 0⟩, ⟨0, 16, .ro, 0⟩]⟩,
  ⟨Reg.FC_TLOG_TURN, 48, 1, [⟨0, 32, .ro, 0⟩]⟩,
  ⟨Reg.FC_TLOG_F_LO, 48, 1, [⟨0, 32, .ro, 0⟩]⟩,
  ⟨Reg.FC_TLOG_F_HI, 48, 1, [⟨0, 16, .ro, 0⟩]⟩,
  ⟨Reg.FC_TLOG_NSLOT, 48, 1, [⟨0, 17, .ro, 0⟩]⟩,
  ⟨Reg.FC_TLOG_POP, 48, 1, [⟨0, 1, .wo, 0⟩]⟩,
  ⟨Reg.FC_DET_CTL, 48, 1, [⟨16, 5, .rw, 0⟩, ⟨12, 4, .rw, 0⟩, ⟨8, 4, .rw, 0⟩, ⟨3, 1, .rw, 0⟩, ⟨2, 1, .rw, 0⟩, ⟨1, 1, .rw, 0⟩, ⟨0, 1, .rw, 0⟩]⟩,
  ⟨Reg.FC_DET_WIN, 48, 1, [⟨0, 24, .rw, 0⟩]⟩,
  ⟨Reg.FC_DET_SPAN, 48, 1, [⟨8, 8, .rw, 0⟩, ⟨0, 8, .rw, 0⟩]⟩,
  ⟨Reg.FC_DET_HOLD, 48, 1, [⟨0, 24, .rw, 0⟩]⟩]

def RegMap.fc2 : List RegRow := [
  ⟨Reg.FC_DET_RMS, 48, 1, [⟨0, 32, .ro, 0⟩]⟩,
  ⟨Reg.FC_DET_PKMAX, 48, 1, [⟨0, 32, .ro, 0⟩]⟩,
  ⟨Reg.FC_DET_PKMIN, 48, 1, [⟨0, 32, .ro, 0⟩]⟩,
  ⟨Reg.FC_DET_ENV, 48, 1, [⟨0, 31, .ro, 0⟩]⟩,
  ⟨Reg.FC_DET_WSTAT, 48, 1, [⟨31, 1, .ro, 0⟩, ⟨30, 1, .ro, 0⟩, ⟨0, 25, .ro, 0⟩]⟩,
  ⟨Reg.FC_DET_WCNT, 48, 1, [⟨0, 32, .ro, 0⟩]⟩,
  ⟨Reg.FC_DET_WIDX_LO, 48, 1, [⟨0, 32, .ro, 0⟩]⟩,
  ⟨Reg.FC_DET_WIDX_HI, 48, 1, [⟨0, 16, .ro, 0⟩]⟩]

def RegMap.wm : List RegRow := [
  ⟨Reg.WM_CTL, 96, 1, [⟨31, 1, .rw, 0⟩, ⟨17, 1, .rw, 0⟩, ⟨16, 1, .rw, 0⟩, ⟨9, 1, .rw, 0⟩, ⟨8, 1, .rw, 0⟩, ⟨5, 1, .rw, 0⟩, ⟨4, 1, .rw, 0⟩]⟩,
  ⟨Reg.WM_THR, 96, 1, [⟨16, 10, .rw, 0⟩, ⟨0, 10, .rw, 0⟩]⟩,
  ⟨Reg.WM_HYS, 96, 1, [⟨8, 5, .rw, 0⟩, ⟨0, 5, .rw, 0⟩]⟩,
  ⟨Reg.WM_TRIM, 96, 1, [⟨16, 8, .rw, 0⟩, ⟨0, 8, .rw, 0⟩]⟩,
  ⟨Reg.WM_BLANK, 96, 1, [⟨31, 1, .rw, 0⟩, ⟨24, 1, .rw, 0⟩, ⟨16, 8, .rw, 0⟩, ⟨8, 1, .rw, 0⟩, ⟨0, 8, .rw, 0⟩]⟩,
  ⟨Reg.WM_PCLR, 96, 1, [⟨31, 1, .rw, 0⟩, ⟨8, 1, .rw, 0⟩, ⟨0, 8, .rw, 0⟩]⟩,
  ⟨Reg.WM_STAT, 96, 1, [⟨6, 1, .ro, 0⟩, ⟨5, 1, .ro, 0⟩, ⟨4, 1, .ro, 0⟩, ⟨3, 1, .ro, 0⟩, ⟨2, 1, .ro, 0⟩, ⟨1, 1, .ro, 0⟩, ⟨0, 1, .ro, 0⟩]⟩,
  ⟨Reg.WM_LATCH, 96, 1, [⟨9, 1, .ro, 0⟩, ⟨8, 1, .ro, 0⟩, ⟨1, 1, .w1c, 0⟩, ⟨0, 1, .w1c, 0⟩]⟩,
  ⟨Reg.WM_CNT, 96, 1, [⟨16, 16, .rc, 0⟩, ⟨8, 8, .rc, 0⟩]⟩,
  ⟨Reg.WM_ISUM, 3, 1, [⟨0, 32, .ro, 0⟩]⟩]

def RegMap.da : List RegRow := [
  ⟨Reg.DA_CTL, 24, 1, [⟨10, 1, .rw, 0⟩, ⟨9, 1, .rw, 0⟩, ⟨8, 1, .rw, 0⟩, ⟨4, 2, .rw, 0⟩, ⟨1, 1, .wo, 0⟩, ⟨0, 1, .wo, 0⟩]⟩,
  ⟨Reg.DA_SRC, 24, 1, [⟨0, 16, .rw, 0⟩]⟩,
  ⟨Reg.DA_IDLE, 24, 1, [⟨0, 16, .rw, 0⟩]⟩,
  ⟨Reg.DA_STAT, 24, 1, [⟨16, 13, .ro, 0⟩, ⟨8, 1, .w1c, 0⟩, ⟨4, 2, .ro, 0⟩, ⟨0, 2, .ro, 0⟩]⟩,
  ⟨Reg.DA_LISTEN, 24, 2, [⟨31, 1, .rw, 0⟩, ⟨8, 1, .rw, 0⟩, ⟨0, 8, .rw, 0⟩]⟩,
  ⟨Reg.DA_TRIM, 24, 1, [⟨16, 10, .rw, 0⟩, ⟨0, 10, .rw, 0⟩]⟩,
  ⟨Reg.DA_EVCNT, 24, 1, [⟨16, 16, .rc, 0⟩, ⟨8, 8, .rc, 0⟩, ⟨0, 8, .rc, 0⟩]⟩,
  ⟨Reg.DA_UNDW, 24, 1, [⟨0, 32, .ro, 0⟩]⟩,
  ⟨Reg.DA_SKIPW, 24, 1, [⟨0, 32, .ro, 0⟩]⟩,
  ⟨Reg.DA_IRQ, 24, 1, [⟨2, 1, .w1c, 0⟩, ⟨1, 1, .w1c, 0⟩, ⟨0, 1, .w1c, 0⟩]⟩,
  ⟨Reg.DA_IRQEN, 24, 1, [⟨0, 3, .rw, 0⟩]⟩,
  ⟨Reg.DA_PADDR, 24, 1, [⟨0, 16, .rw, 0⟩]⟩,
  ⟨Reg.DA_PDATA, 24, 1, [⟨0, 16, .wo, 0⟩]⟩,
  ⟨Reg.DA_LASTS, 24, 1, [⟨0, 32, .ro, 0⟩]⟩,
  ⟨Reg.DA_SEG_CFG, 24, 4, [⟨31, 1, .rw, 0⟩, ⟨30, 1, .rw, 0⟩, ⟨28, 2, .rw, 0⟩, ⟨24, 1, .rw, 0⟩, ⟨16, 8, .rw, 0⟩, ⟨1, 15, .rw, 0⟩]⟩,
  ⟨Reg.DA_SEG_LEN, 24, 4, [⟨0, 17, .rw, 0⟩]⟩]

def RegMap.cal : List RegRow := [
  ⟨Reg.CAL_STAT, 1, 1, [⟨31, 1, .ro, 0⟩, ⟨30, 1, .ro, 0⟩, ⟨29, 1, .ro, 0⟩, ⟨24, 2, .ro, 0⟩, ⟨16, 1, .w1c, 0⟩, ⟨0, 16, .ro, 0⟩]⟩,
  ⟨Reg.CAL_STORE, 1, 1, [⟨16, 16, .ro, 0⟩, ⟨1, 1, .ro, 0⟩, ⟨0, 1, .ro, 0⟩]⟩,
  ⟨Reg.CAL_RUNCNT, 1, 1, [⟨16, 16, .ro, 0⟩, ⟨8, 8, .ro, 0⟩, ⟨0, 8, .ro, 0⟩]⟩,
  ⟨Reg.CAL_DIS_FIRST, 1, 1, [⟨0, 24, .ro, 0⟩]⟩,
  ⟨Reg.CAL_RBUF_TRIM, 1, 1, [⟨0, 12, .rw, 0⟩]⟩,
  ⟨Reg.CAL_CDAC_TRIM, 4, 1, [⟨16, 12, .rw, 0⟩, ⟨0, 12, .rw, 0⟩]⟩,
  ⟨Reg.CAL_TS, 8, 1, [⟨31, 1, .ro, 0⟩, ⟨0, 16, .ro, 0⟩]⟩,
  ⟨Reg.CAL_TS_TRIM, 8, 1, [⟨0, 8, .rw, 0⟩]⟩,
  ⟨Reg.CAL_Q, 4, 1, [⟨16, 8, .ro, 0⟩, ⟨0, 16, .ro, 0⟩]⟩,
  ⟨Reg.CAL_REFMEAS, 4, 1, [⟨0, 32, .ro, 0⟩]⟩]

def RegMap.pwr : List RegRow := [
  ⟨Reg.PWR_CTL, 1, 1, [⟨0, 10, .rw, 0xa⟩]⟩,
  ⟨Reg.PWR_STAT, 1, 1, [⟨24, 4, .ro, 5⟩, ⟨20, 4, .ro, 5⟩, ⟨16, 4, .ro, 0⟩, ⟨0, 6, .ro, 0⟩]⟩,
  ⟨Reg.PWR_CBPAUSE, 1, 1, [⟨0, 24, .rw, 0⟩]⟩,
  ⟨Reg.PWR_TWAKE_LO, 1, 1, [⟨0, 32, .ro, 0xffffffff⟩]⟩,
  ⟨Reg.PWR_TWAKE_HI, 1, 1, [⟨0, 32, .ro, 0xffffffff⟩]⟩,
  ⟨Reg.PWR_CNT, 1, 1, [⟨16, 16, .ro, 0⟩, ⟨8, 8, .ro, 0⟩, ⟨0, 8, .ro, 0⟩]⟩,
  ⟨Reg.PWR_IRQ, 1, 1, [⟨1, 1, .w1c, 0⟩, ⟨0, 1, .w1c, 0⟩]⟩,
  ⟨Reg.PWR_IRQEN, 1, 1, [⟨0, 2, .rw, 0⟩]⟩]

def RegMap.dma : List RegRow := [
  ⟨Reg.DMA_CFG, 4096, 1, [⟨31, 1, .rw, 0⟩, ⟨30, 1, .rw, 0⟩, ⟨27, 3, .rw, 0⟩, ⟨22, 5, .rw, 0⟩, ⟨16, 3, .rw, 0⟩, ⟨0, 16, .rw, 0⟩]⟩,
  ⟨Reg.DMA_DATA, 4096, 1, [⟨16, 16, .rw, 0⟩, ⟨0, 16, .rw, 0⟩]⟩,
  ⟨Reg.DMA_REC, 4096, 1, [⟨16, 9, .rw, 0⟩, ⟨0, 16, .rw, 0⟩]⟩,
  ⟨Reg.DMA_RATE, 4096, 1, [⟨0, 20, .rw, 0⟩]⟩,
  ⟨Reg.DMA_MOD, 4096, 1, [⟨24, 8, .rw, 0⟩, ⟨12, 12, .rw, 0⟩, ⟨0, 12, .rw, 0⟩]⟩,
  ⟨Reg.DMA_RSTAT, 4096, 1, [⟨31, 1, .ro, 0⟩, ⟨30, 1, .ro, 0⟩, ⟨29, 1, .ro, 0⟩, ⟨3, 1, .w1c, 0⟩, ⟨2, 1, .w1c, 0⟩, ⟨1, 1, .w1c, 0⟩]⟩,
  ⟨Reg.DMA_HEAD, 4096, 1, [⟨0, 32, .ro, 0⟩]⟩,
  ⟨Reg.DMA_TAIL, 4096, 1, [⟨0, 32, .ro, 0⟩]⟩,
  ⟨Reg.DMA_IRQ, 4096, 1, [⟨2, 1, .w1c, 0⟩, ⟨1, 1, .w1c, 0⟩, ⟨0, 1, .w1c, 0⟩]⟩,
  ⟨Reg.DMA_RSNAP, 4096, 1, [⟨0, 1, .wo, 0⟩]⟩,
  ⟨Reg.DMA_PRODUCED_LO, 4096, 1, [⟨0, 32, .ro, 0⟩]⟩,
  ⟨Reg.DMA_PRODUCED_HI, 4096, 1, [⟨0, 32, .ro, 0⟩]⟩,
  ⟨Reg.DMA_WRITTEN_LO, 4096, 1, [⟨0, 32, .ro, 0⟩]⟩,
  ⟨Reg.DMA_WRITTEN_HI, 4096, 1, [⟨0, 32, .ro, 0⟩]⟩,
  ⟨Reg.DMA_DROPPED_LO, 4096, 1, [⟨0, 32, .ro, 0⟩]⟩,
  ⟨Reg.DMA_DROPPED_HI, 4096, 1, [⟨0, 32, .ro, 0⟩]⟩,
  ⟨Reg.DMA_BUDGET, 1, 1, [⟨0, 16, .ro, 0⟩]⟩,
  ⟨Reg.DMA_UPSUM, 1, 1, [⟨0, 20, .ro, 0⟩]⟩,
  ⟨Reg.DMA_DNSUM, 1, 1, [⟨0, 20, .ro, 0⟩]⟩,
  ⟨Reg.DMA_GSTAT, 1, 1, [⟨1, 1, .ro, 0⟩, ⟨0, 1, .ro, 0⟩]⟩,
  ⟨Reg.DMA_PDIR_IDX, 1, 1, [⟨0, 16, .rw, 0⟩]⟩,
  ⟨Reg.DMA_PDIR_LO, 1, 1, [⟨0, 32, .wo, 0⟩]⟩,
  ⟨Reg.DMA_PDIR_HI, 1, 1, [⟨0, 32, .wo, 0⟩]⟩,
  ⟨Reg.DMA_STAT, 1, 1, [⟨0, 1, .w1c, 0⟩]⟩]

def RegMap.fab : List RegRow := [
  ⟨Reg.FAB_CTL, 24, 1, [⟨0, 1, .rw, 0⟩]⟩,
  ⟨Reg.FAB_CSTAT, 24, 1, [⟨8, 8, .ro, 0⟩, ⟨2, 1, .w1c, 0⟩, ⟨1, 1, .w1c, 0⟩, ⟨0, 1, .ro, 0⟩]⟩,
  ⟨Reg.FAB_PEEK_SEL, 24, 1, [⟨8, 3, .rw, 0⟩, ⟨0, 8, .rw, 0⟩]⟩,
  ⟨Reg.FAB_PEEK_DATA, 24, 1, [⟨0, 16, .ro, 0⟩]⟩,
  ⟨Reg.FAB_GCLK, 8, 1, [⟨31, 1, .rw, 0⟩, ⟨16, 2, .rw, 0⟩, ⟨0, 12, .rw, 7⟩]⟩,
  ⟨Reg.FAB_FPLL, 1, 1, [⟨31, 1, .ro, 0⟩, ⟨0, 6, .rw, 0x18⟩]⟩,
  ⟨Reg.FAB_STAT, 1, 1, [⟨0, 1, .w1c, 0⟩]⟩]

def RegMap.dio : List RegRow := [
  ⟨Reg.DIO_PIN_CFG, 256, 1, [⟨27, 2, .rw, 0⟩, ⟨26, 1, .rw, 0⟩, ⟨24, 2, .rw, 0⟩, ⟨12, 12, .rw, 0⟩, ⟨0, 12, .rw, 0⟩]⟩,
  ⟨Reg.DIO_BANK_CTL, 8, 1, [⟨0, 1, .rw, 0⟩]⟩,
  ⟨Reg.DIO_BANK_STAT, 8, 1, [⟨0, 1, .ro, 0⟩]⟩,
  ⟨Reg.DIO_IN, 8, 1, [⟨0, 32, .ro, 0⟩]⟩,
  ⟨Reg.DIO_STAT, 1, 1, [⟨0, 1, .w1c, 0⟩]⟩,
  ⟨Reg.DIO_BND_CTL, 24, 1, [⟨8, 3, .rw, 0⟩, ⟨0, 3, .rw, 0⟩]⟩,
  ⟨Reg.DIO_BND_STAT, 24, 1, [⟨1, 1, .w1c, 0⟩, ⟨0, 1, .w1c, 0⟩]⟩,
  ⟨Reg.DIO_BND_SLOT, 24, 8, [⟨0, 32, .rw, 0⟩]⟩,
  ⟨Reg.DIO_FPI_SRC, 24, 4, [⟨0, 16, .rw, 0⟩]⟩,
  ⟨Reg.DIO_FPI_CFG, 24, 4, [⟨8, 3, .rw, 0⟩, ⟨0, 2, .rw, 0⟩]⟩,
  ⟨Reg.DIO_FPI_STAT, 24, 4, [⟨0, 9, .ro, 0⟩]⟩,
  ⟨Reg.DIO_FPI_DROP, 24, 4, [⟨0, 32, .ro, 0⟩]⟩,
  ⟨Reg.DIO_FPO_CFG, 24, 4, [⟨8, 3, .rw, 0⟩]⟩,
  ⟨Reg.DIO_FPO_STAT, 24, 4, [⟨16, 1, .ro, 0⟩, ⟨0, 9, .ro, 0⟩]⟩,
  ⟨Reg.DIO_FPO_REFUSED, 24, 4, [⟨0, 32, .ro, 0⟩]⟩]

def RegMap.prb : List RegRow := [
  ⟨Reg.PRB_CTL, 16, 1, [⟨31, 1, .rw, 0⟩, ⟨30, 1, .rw, 0⟩, ⟨24, 4, .rw, 0⟩, ⟨16, 3, .rw, 0⟩, ⟨0, 16, .rw, 0⟩]⟩,
  ⟨Reg.PRB_SEL, 16, 1, [⟨30, 2, .rw, 0⟩, ⟨29, 1, .rw, 0⟩, ⟨24, 5, .rw, 0⟩, ⟨0, 16, .rw, 0⟩]⟩,
  ⟨Reg.PRB_STAT, 16, 1, [⟨2, 1, .w1c, 0⟩, ⟨1, 1, .w1c, 0⟩, ⟨0, 1, .ro, 0⟩]⟩,
  ⟨Reg.PRB_WORDS, 16, 1, [⟨0, 32, .ro, 0⟩]⟩]

def RegMap.twn : List RegRow := [
  ⟨Reg.TWN_CTL, 1, 1, [⟨8, 1, .rw, 1⟩, ⟨0, 8, .rw, 0⟩]⟩,
  ⟨Reg.TWN_STAT, 1, 1, [⟨24, 1, .w1c, 0⟩, ⟨16, 5, .ro, 0⟩, ⟨12, 1, .ro, 0⟩, ⟨11, 1, .ro, 0⟩, ⟨10, 1, .ro, 0⟩, ⟨9, 1, .ro, 0⟩, ⟨8, 1, .ro, 0⟩, ⟨0, 4, .ro, 0⟩]⟩,
  ⟨Reg.TWN_FOCNT, 1, 1, [⟨16, 16, .ro, 0⟩, ⟨0, 16, .ro, 0⟩]⟩,
  ⟨Reg.TWN_HSEQ, 1, 1, [⟨0, 32, .ro, 0⟩]⟩,
  ⟨Reg.TWN_RPL, 1, 1, [⟨16, 7, .ro, 0⟩, ⟨0, 7, .ro, 0⟩]⟩,
  ⟨Reg.TWN_FOTICK_LO, 1, 1, [⟨0, 32, .ro, 0⟩]⟩,
  ⟨Reg.TWN_FOTICK_HI, 1, 1, [⟨0, 32, .ro, 0⟩]⟩,
  ⟨Reg.TWN_IRQ, 1, 1, [⟨3, 1, .w1c, 0⟩, ⟨2, 1, .w1c, 0⟩, ⟨1, 1, .w1c, 0⟩, ⟨0, 1, .w1c, 0⟩]⟩,
  ⟨Reg.TWN_IRQEN, 1, 1, [⟨0, 4, .rw, 0⟩]⟩,
  ⟨Reg.TWN_CMP, 1, 1, [⟨0, 24, .rw, 0⟩]⟩,
  ⟨Reg.TWN_LANE, 16, 1, [⟨31, 1, .ro, 0⟩, ⟨0, 8, .ro, 0⟩]⟩,
  ⟨Reg.TWN_MATCH, 24, 1, [⟨16, 16, .ro, 0⟩, ⟨0, 16, .ro, 0⟩]⟩]

def RegMap.vf : List RegRow := [
  ⟨Reg.VF_MSIX_ADDR_LO, 32, 64, [⟨2, 30, .rw, 0⟩]⟩,
  ⟨Reg.VF_MSIX_ADDR_HI, 32, 64, [⟨0, 32, .rw, 0⟩]⟩,
  ⟨Reg.VF_MSIX_DATA, 32, 64, [⟨0, 32, .rw, 0⟩]⟩,
  ⟨Reg.VF_MSIX_CTRL, 32, 64, [⟨0, 1, .rw, 1⟩]⟩]

/-- The pieces of the map with the range of offsets each lies in. -/
def RegMap.pieces : List (Nat × Nat × List RegRow) := [
  (0x0, 0x24, RegMap.dev),
  (0x10000, 0x10014, RegMap.host),
  (0x11000, 0x20000, RegMap.msix),
  (0x20000, 0x20200, RegMap.pgh),
  (0x40000, 0x40030, RegMap.cfg),
  (0x50000, 0x503F8, RegMap.scrb),
  (0x60000, 0x60160, RegMap.bur),
  (0x80000, 0x80068, RegMap.lcs),
  (0x80100, 0x80300, RegMap.pr),
  (0x80400, 0x807F4, RegMap.tt),
  (0x80800, 0x80A00, RegMap.cap),
  (0x81000, 0x82FFC, RegMap.pa),
  (0xA0000, 0xA5F3C, RegMap.ap),
  (0xC0000, 0xCC260, RegMap.ac),
  (0x100000, 0x117078, RegMap.cg0),
  (0x100078, 0x11758C, RegMap.cg1),
  (0x10050C, 0x117594, RegMap.cg2),
  (0x200000, 0x22F068, RegMap.fc0),
  (0x200200, 0x22FC00, RegMap.fc1),
  (0x200310, 0x22F330, RegMap.fc2),
  (0x500000, 0x50180C, RegMap.wm),
  (0x520000, 0x521760, RegMap.da),
  (0x540000, 0x5400B0, RegMap.cal),
  (0x560000, 0x560024, RegMap.pwr),
  (0x580000, 0x5C0020, RegMap.dma),
  (0x600000, 0x618028, RegMap.fab),
  (0x680000, 0x6917BC, RegMap.dio),
  (0x6A0000, 0x6A01F0, RegMap.prb),
  (0x6C0000, 0x6C00E0, RegMap.twn),
  (0x2040000, 0x2FC0400, RegMap.vf)]

/-- Instance numbers of a register at offset `a`, where the row has it. -/
def RegRow.index (r : RegRow) (a : Nat) : Option (Nat × Nat) :=
  if a < r.reg.base then none
  else
    let d := a - r.reg.base
    let i := if r.reg.st1 = 0 then 0 else min (d / r.reg.st1) (r.n1 - 1)
    let e := d - i * r.reg.st1
    let j := if r.reg.st2 = 0 then 0 else e / r.reg.st2
    if i < r.n1 ∧ j < r.n2 ∧ d = i * r.reg.st1 + j * r.reg.st2 then some (i, j) else none

/-- The row of a list that has a register at offset `a`. -/
def RegMap.findIn (l : List RegRow) (a : Nat) : Option RegRow := l.find? fun r => (r.index a).isSome

/-- The row of the map that has a register at offset `a`; none where no register is there. -/
def RegMap.row (a : Nat) : Option RegRow :=
  RegMap.pieces.findSome? fun p => if p.1 ≤ a ∧ a < p.2.1 then RegMap.findIn p.2.2 a else none

/-- The reset value of a row. -/
def RegRow.resetWord (r : RegRow) : Word :=
  r.fields.foldl (fun w f => w.setBits f.lo f.width f.reset) 0

/-- The value every register holds right after reset, before the model's own entries (the part number and the like). -/
def RegMap.resetAt (a : Nat) : Word :=
  match RegMap.row a with
  | some r => r.resetWord
  | none => 0

/-- The bits of a row whose fields carry one of the codes that `p` picks. -/
def RegRow.mask (r : RegRow) (p : Acc → Bool) : Word :=
  r.fields.foldl (fun w f => if p f.acc then w.setBits f.lo f.width (2 ^ f.width - 1) else w) 0

end Sys2Proof.Machine
end

