-- ==== Sys2Proof/Machine/Tab.lean ====
section
/-! DEFINITION. A sparse table: numbered entries in strictly rising order, with a default for every number
that is not listed and no listed entry equal to its default, so that equal tables are equal data. -/

namespace Sys2Proof.Machine

/-- A sparse table of `α` by number. DESIGN CHOICE, log entry 8. -/
abbrev Tab (α : Type) := List (Nat × α)

variable {α : Type}

/-- The entry of number `k`; `d k` where none is listed. -/
def Tab.get (d : Nat → α) (t : Tab α) (k : Nat) : α :=
  match t with
  | [] => d k
  | (a, v) :: r => if a = k then v else Tab.get d r k

/-- `t` without any entry of number `k`. -/
def Tab.erase (t : Tab α) (k : Nat) : Tab α := t.filter fun e => e.1 != k

/-- `t` with `v` listed under `k`, at its place in the order. -/
def Tab.ins (t : Tab α) (k : Nat) (v : α) : Tab α :=
  match t with
  | [] => [(k, v)]
  | (a, w) :: r =>
    if k < a then (k, v) :: (a, w) :: r
    else if k = a then (k, v) :: r
    else (a, w) :: Tab.ins r k v

/-- `t` with entry `k` holding `v`; an entry equal to its default is not listed. DESIGN CHOICE, log entry 8. -/
def Tab.put [DecidableEq α] (d : Nat → α) (t : Tab α) (k : Nat) (v : α) : Tab α :=
  if v = d k then t.erase k else t.ins k v

/-- The numbers listed rise strictly and start above `lo` (`lo = none`: anywhere). -/
def Tab.rising (lo : Option Nat) (t : Tab α) : Bool :=
  match t with
  | [] => true
  | (a, _) :: r => (match lo with | none => true | some b => decide (b < a)) && Tab.rising (some a) r

/-- The canonical form: numbers strictly rising, and no entry equal to its default. -/
def Tab.wf [DecidableEq α] (d : Nat → α) (t : Tab α) : Bool :=
  Tab.rising none t && t.all fun e => decide (e.2 ≠ d e.1)

end Sys2Proof.Machine
end

