-- ==== Sys2Proof/Machine/State.lean ====
section
/-! DEFINITION. The state of one die: everything the spec gives the machine, as plain data (R6: a statement that names no
die applies to each die alone), and the reasons a step can stop. -/

namespace Sys2Proof.Machine

/-! ## Streams (chapter 01) -/

/-- A word of the stream plane with its side band (R26). `edge` is the sample-clock edge of a converter sample,
`entryStart` marks the first word of a sequence entry on the lane (R195), `switched` the first word a consumer takes from
a new source (R24). -/
structure StreamWord where
  val : Nat
  index : Nat
  mark : Bool
  ovr : Bool
  settling : Bool
  handover : Bool
  refUnset : Bool
  failover : Bool
  edge : Option Nat
  entryStart : Bool
  switched : Bool
  deriving DecidableEq, Repr

/-- A consumer's connection: the source code in force, the words that have arrived and wait, and whether the next word is
the first of a new source. -/
structure Feed where
  src : Nat
  inq : List StreamWord
  fresh : Bool
  deriving DecidableEq, Repr

def Feed.init : Feed := { src := 0, inq := [], fresh := false }

/-! ## Modes (chapter 02) -/

/-- The twelve modes (R33). -/
inductive Mode
  | reset | blank | load | verify | wakeUp | run | partialRun | doze | nap | slumber | bench | faultMode
  deriving DecidableEq, Repr



/-! ## Longcase (chapter 03) -/

/-- The PLL: not yet locked since Reset or a clock write, locked, or locked once and lost (R55, R58). -/
inductive PllState
  | waiting | locked | lost
  deriving DecidableEq, Repr

/-- A firing record (R75). A timer has no reference, so it carries no turn count. `dest` is the word of PAn_DEST or TTn_DEST
in force at its broadcast (R72), 0 before. -/
structure FiringRec where
  tick : Nat
  timer : Bool
  num : Nat
  act : Nat
  rem : Nat
  coast : Bool
  turn : Option Nat
  dest : Word
  deriving DecidableEq, Repr

/-- An accepted edge on its way to the tracker: its stamp in fine units, the tick it arrived in, and whether it is a
reversal (R60, R61). -/
structure EdgeRec where
  stamp : Int
  tick : Nat
  rev : Bool
  deriving DecidableEq, Repr

/-- The tracker's states (R64). -/
inductive TrkState
  | unlocked | acquiring | locked | coasting | lost
  deriving DecidableEq, Repr

/-- A stretch of the phase at one rate, with the state and the epoch it stood in. -/
structure PhaseSeg where
  t0 : Int
  phi0 : Rat
  rate : Rat
  state : TrkState
  epoch : Nat
  deriving DecidableEq, Repr

/-- What reference PR2k held before the latest quadrature edge, for a second edge in its fine unit (R61): the last kept edge,
GLITCH, and whether the edge went into the queue. -/
structure QuadUndo where
  keptMain : Option Int
  glitch : Nat
  queued : Bool
  deriving DecidableEq, Repr

/-- What a phase reference holds beside its registers (R60 to R68). The phase at fine-unit time `t` is
`phi0 + rate * (t - t0)` from `t0` on; `past` keeps the segments before it, latest first. -/
structure Tracker where
  state : TrkState
  haveFirst : Bool
  /-- P in 1/256 of a fine unit. -/
  p : Nat
  last : Int
  good : Nat
  count : Nat
  origin : Nat
  t0 : Int
  phi0 : Rat
  rate : Rat
  epoch : Nat
  locks : Nat
  err : Int
  lockedOnce : Bool
  coastFrom : Rat
  keptMain : Option Int
  keptIndex : Option Int
  indexEdges : List Int
  queue : List EdgeRec
  level : Bool
  lastRaw : Option Int
  past : List PhaseSeg
  undo : Option QuadUndo
  deriving DecidableEq, Repr

def Tracker.init : Tracker :=
  { state := .unlocked, haveFirst := false, p := 0, last := 0, good := 0, count := 0, origin := 0, t0 := 0, phi0 := 0,
    rate := 0, epoch := 0, locks := 0, err := 0, lockedOnce := false, coastFrom := 0, keptMain := none, keptIndex := none,
    indexEdges := [], queue := [], level := false, lastRaw := none, past := [], undo := none }

/-- What an alarm holds beside its registers: skip counter, shadows, the tick EN was set in, the last tick tested. -/
structure Alarm where
  skip : Nat
  shTarget : Option Word
  shFilter : Option Word
  enTick : Nat
  lastTick : Option Nat
  deriving DecidableEq, Repr

def Alarm.init : Alarm := { skip := 0, shTarget := none, shFilter := none, enTick := 0, lastTick := none }

/-- What a timer holds beside its registers: whether it runs, the tick it expires in, and the remainder and COAST it
carries. -/
structure Timer where
  running : Bool
  next : Nat
  rem : Nat
  coast : Bool
  deriving DecidableEq, Repr

def Timer.init : Timer := { running := false, next := 0, rem := 0, coast := false }

/-- An entry of a capture FIFO (R80). -/
structure CapEntry where
  ts : Int
  turn : Nat
  frac : Nat
  epoch : Nat
  state : Nat
  deriving DecidableEq, Repr

/-- A sample-clock edge stamped in CLKSRC 2: its stamp and its number (R56). -/
structure SmpEdge where
  stamp : Nat
  edge : Nat
  deriving DecidableEq, Repr

/-- Longcase. -/
structure Longcase where
  /-- LCS_TIME, in ticks. -/
  time : Nat
  pll : PllState
  smpEdge : Option SmpEdge
  smpq : Option Nat
  /-- SMPCLK has not toggled for 64 ticks and no edge has been stamped since (R57). -/
  smpStalled : Bool
  trackers : Tab Tracker
  alarms : Tab Alarm
  timers : Tab Timer
  captures : Tab (List CapEntry)
  /-- Firings not yet broadcast, in broadcast order (R75). -/
  firings : List FiringRec
  /-- Broadcast firings whose own actions (R76) are still to be performed. -/
  actions : List FiringRec
  /-- The tick of the last EVENT performed, with each line that has had its pulse in it (R77). -/
  pulsed : List (Nat × Nat)
  /-- The next known event (R81): tick, whether a timer, number. -/
  next : Option (Nat × Bool × Nat)
  deriving DecidableEq, Repr

def Longcase.init : Longcase :=
  { time := 0, pll := .waiting, smpEdge := none, smpq := none, smpStalled := false, trackers := [], alarms := [], timers := [],
    captures := [], firings := [], actions := [], pulsed := [], next := none }

/-! ## Analog cells (chapter 04) -/

/-- An auto-zero cycle (R102): none running; the idle amplifier being trimmed; trimmed and waiting for the boundary; the
swap to be skipped at the boundary (R103); both amplifiers in parallel. -/
inductive AzStep
  | stopped | trimming | trimmed | skipping | parallel
  deriving DecidableEq, Repr

/-- What a cell holds beside its registers: the auto-zero cycle, whether its boundary has passed while it was trimming, the
integrator and the peak holds (in volts), the section's two states, the output, and for each amplifier the OFS at which its
own offset is nulled, where a write has left that point (none: within one step of the OFS it holds, log entry 18). -/
structure Cell where
  az : AzStep
  azLate : Bool
  servingB : Bool
  integ : Rat
  peakMax : Rat
  peakMin : Rat
  lp : Rat
  bp : Rat
  out : Rat
  nullA : Option Rat
  nullB : Option Rat
  deriving DecidableEq, Repr

def Cell.init : Cell :=
  { az := .stopped, azLate := false, servingB := false, integ := 0, peakMax := 0, peakMin := 0, lp := 0, bp := 0,
    out := 0, nullA := none, nullB := none }

/-! ## Converter groups (chapters 05 and 06) -/

/-- The sequencer's states (R135). -/
inductive SeqSt
  | idle | armed | settle | dwell | usettle | udwell | paused
  deriving DecidableEq, Repr

/-- A converted sample: CODE, whether it was over range, its sample-clock edge, MARK. -/
structure Sample where
  code : Int
  ovr : Bool
  edge : Nat
  mark : Bool
  deriving DecidableEq, Repr

/-- A beat in the delay line whose words are neither emitted nor discarded: the beat it was converted in, its latency, the
entry and the attempt it belongs to, whether that entry logs, its samples lane by lane, its side band, the tick it was
converted in, and whether its fate is settled (a completed dwell or a continuous entry). -/
structure HeldBeat where
  beat : Nat
  lat : Nat
  entry : Nat
  attempt : Nat
  log : Bool
  lanes : List (List Sample)
  refUnset : Bool
  handover : List Bool
  tick : Nat
  done : Bool
  deriving DecidableEq, Repr

/-- The sequencer: state, running entry, the entry to resume at, whether the entry's fields are still to be read at its
first beat, its inputs, beats left to settle, beats left to dwell (none: continuous), whether the dwell has no samples
(R130), its LOG and EIRQ, restart pending, the delay D, the attempt's number. -/
structure Seq where
  st : SeqSt
  entry : Nat
  resume : Nat
  fresh : Bool
  insel : Nat
  settleLeft : Nat
  dwellLeft : Option Nat
  empty : Bool
  log : Bool
  eirq : Bool
  restart : Bool
  next : Nat
  d : Nat
  attempt : Nat
  deriving DecidableEq, Repr

/-- What events that meet a group in one SCLK cycle act on (R134): the sequencer, the delay line, the word counts of R137
(in words summed over the lanes), and what has happened since the last SCLK edge. -/
structure CgCore where
  seq : Seq
  held : List HeldBeat
  conv : Nat
  emit : Nat
  sdisc : Nat
  pdisc : Nat
  drops : Nat
  urgents : Nat
  wraps : Bool
  ends : Bool
  clamped : Bool
  marksLost : Nat
  deriving DecidableEq, Repr

/-- The requests that have reached the group since its last SCLK edge. -/
structure CgReqs where
  stop : Bool
  go : Bool
  seqStart : Bool
  urgent : Bool
  deriving DecidableEq, Repr

/-- An entry log record (R138). -/
structure ElogRec where
  entry : Nat
  idx : Nat
  tick : Nat
  deriving DecidableEq, Repr

/-- A result window comparator (R141): armed, consecutive in-band samples seen, a firing not yet reported (side, CODE). -/
structure WinCmp where
  armed : Bool
  run : Nat
  fired : Option (Bool × Int)
  deriving DecidableEq, Repr

/-- Dwell samples on their way to the window comparators, 14 cycles long (R142). -/
structure WinBeat where
  beat : Nat
  entry : Nat
  lanes : List (List Sample)
  deriving DecidableEq, Repr

/-- A handover overlap (R150 to R152): position, slices, samples taken, N, A, B, exclusions. -/
structure Overlap where
  pos : Nat
  slIn : Nat
  slOut : Nat
  taken : Nat
  n : Nat
  a : Int
  b : Nat
  excl : Nat
  deriving DecidableEq, Repr

/-- What the estimator sums over a block for one position, at the output of the residual stage: the samples, their squares, and
each with the following sample of its lane (R170). -/
structure PosStat where
  sum : Rat
  squares : Rat
  follow : Rat
  deriving DecidableEq, Repr

/-- Slice rotation beside its registers: the slice chosen to go out, the overlap in progress, consecutive abandonments, the
tick before which no overlap starts, the slice in CALIB, whether its calibration failed once, the tick of the last accepted
handover, the order in which the slices were calibrated, each position's estimator samples (R171) and the samples of the
running block (R170). -/
structure Rotation where
  chosen : Option Nat
  overlap : Option Overlap
  abandons : Nat
  notBefore : Nat
  calib : Option Nat
  failedOnce : Bool
  lastAccept : Nat
  calAt : List Nat
  posCount : List Nat
  block : Nat
  stats : List PosStat
  lastYs : List Rat
  done : Option (List PosStat)
  deriving DecidableEq, Repr

/-- A converter group beside its registers. `base` and `reqs` hold the state at the last SCLK edge and the requests since,
so that requests that meet in one cycle act in the order of R134. `beat` counts SCLK edges, `lastEdge` is the number of the
last SCLK edge, `marksAhead` holds the sample-clock edges yet to come that carry MARK. `lane0` holds of the last beat
converted in INTERLEAVE4 its edge, the slice output of its last sample, and that of the sample after it (R169). The last
`queued` records of `inbox` are still in the FIFO of firing records (R495). -/
structure Group where
  core : CgCore
  base : Option CgCore
  reqs : CgReqs
  beat : Nat
  lastEdge : Option Nat
  emitted : Option Nat
  cmps : List WinCmp
  winQ : List WinBeat
  elog : List ElogRec
  marksAhead : List Nat
  inbox : List FiringRec
  queued : Nat
  lane0 : Option (Nat × Int × Int)
  rot : Rotation
  deriving DecidableEq, Repr

def Seq.init : Seq :=
  { st := .idle, entry := 0, resume := 0, fresh := false, insel := 0, settleLeft := 0, dwellLeft := none, empty := false,
    log := false, eirq := false, restart := false, next := 0, d := 0, attempt := 0 }
def CgCore.init : CgCore :=
  { seq := Seq.init, held := [], conv := 0, emit := 0, sdisc := 0, pdisc := 0, drops := 0, urgents := 0, wraps := false,
    ends := false, clamped := false, marksLost := 0 }
def CgReqs.nil : CgReqs := { stop := false, go := false, seqStart := false, urgent := false }
def Rotation.init : Rotation :=
  { chosen := none, overlap := none, abandons := 0, notBefore := 0, calib := none, failedOnce := false, lastAccept := 0,
    calAt := [0, 0, 0, 0, 0], posCount := [0, 0, 0, 0], block := 0, stats := [], lastYs := [], done := none }
def WinCmp.init : WinCmp := { armed := false, run := 0, fired := none }
def Group.init : Group :=
  { core := CgCore.init, base := none, reqs := CgReqs.nil, beat := 0, lastEdge := none, emitted := none,
    cmps := [WinCmp.init, WinCmp.init, WinCmp.init, WinCmp.init], winQ := [], elog := [], marksAhead := [], inbox := [],
    queued := 0, lane0 := none, rot := Rotation.init }

/-! ## Filter chains, resamplers and detectors (chapters 07 and 08) -/

/-- The side band of a chain sample; `mark` is the number of MARKs that stand on it (R199, R217), `causes` has bit 0 START,
bit 1 SWITCH, bit 2 XFADE, and is not 0 where SETTLING is
carried (R196, R198). -/
structure ChainBand where
  ovr : Bool
  handover : Bool
  refUnset : Bool
  failover : Bool
  mark : Nat
  causes : Nat
  deriving DecidableEq, Repr

/-- A FIR output in the resampler history. -/
structure FirOut where
  m : Nat
  val : Int
  band : ChainBand
  deriving DecidableEq, Repr

/-- A locked slot: turn, slot, whether placed in Coasting, the number of the reference's entry to Locked (R212, R214). -/
structure RsSlot where
  turn : Nat
  slot : Nat
  coast : Bool
  epoch : Nat
  deriving DecidableEq, Repr

/-- What waits for a position (R211, R215, R222). -/
inductive RsWhat
  | slot (s : RsSlot)
  | alarm
  | spanOpen
  | spanClose
  deriving DecidableEq, Repr

/-- An instant that waits for the word that fixes its position; its sample position, where it has one. -/
structure RsInst where
  sigma : Option Rat
  what : RsWhat
  deriving DecidableEq, Repr

/-- An output that waits for its last tap; a slot of a turn that has ended early is never formed (R213, R217). -/
structure RsPos where
  pi : Rat
  slot : Option RsSlot
  ghost : Bool
  deriving DecidableEq, Repr

/-- The lane entry that the chain is in (R211): its first input word, that word's edge, the last word's edge. -/
structure LaneEntry where
  a : Nat
  first : Nat
  last : Nat
  deriving DecidableEq, Repr

/-- A gap log entry (R198). -/
structure GapRec where
  idx : Nat
  cnt : Nat
  cause : Nat
  deriving DecidableEq, Repr

/-- A turn log entry, or the turn being formed (R214). -/
structure TurnRec where
  turn : Nat
  firstSlot : Nat
  nslot : Nat
  f : Nat
  coast : Bool
  newEpoch : Bool
  deriving DecidableEq, Repr

/-- A detector window (R221): samples, sum of squares, side band, the tap-stream count of its first sample, LONG. -/
structure DetWin where
  n : Nat
  sumsq : Nat
  band : ChainBand
  first : Nat
  long : Bool
  deriving DecidableEq, Repr

/-- The detectors beside their registers: maximum, minimum, their hold counts, the envelope, the tap-stream count, the open
window, a window that has closed and is not yet latched, span events not yet reached (true: OPEN). -/
structure Detect where
  hi : Option Int
  lo : Option Int
  holdM : Nat
  holdN : Nat
  env : Nat
  taps : Nat
  win : Option DetWin
  closed : Option DetWin
  spans : List (Bool × Rat)
  deriving DecidableEq, Repr

/-- A filter chain beside its registers. The last `queued` records of `inbox` are still in the FIFO of firing records (R495). -/
structure Chain where
  t : Nat
  integ : List Int
  comb : List (List Int)
  cic : List Int
  m : Nat
  lastSwitch : Nat
  lastOvr : Option Nat
  lastHo : Option Nat
  lastRef : Option Nat
  lastFo : Option Nat
  lastSat : Option Nat
  resumed : Bool
  marks : List Nat
  pend : Option Nat
  crossed : Bool
  fade : Option (Nat × Nat)
  comp : Nat
  emit : Nat
  supp : Nat
  run : Option (Nat × Nat)
  gaps : List GapRec
  hist : List FirOut
  entry : Option LaneEntry
  insts : List RsInst
  slots : List RsPos
  nextPi : Rat
  lastPi : Option Rat
  lastOut : Option Rat
  inc : Nat
  rsMarks : List Nat
  lastJ : Option Int
  dead : Option Nat
  turn : Option TurnRec
  lastEpoch : Option Nat
  tlog : List TurnRec
  det : Detect
  inbox : List FiringRec
  queued : Nat
  store : Tab Nat
  deriving DecidableEq, Repr

def ChainBand.nil : ChainBand :=
  { ovr := false, handover := false, refUnset := false, failover := false, mark := 0, causes := 0 }
def DetWin.init (first : Nat) : DetWin := { n := 0, sumsq := 0, band := ChainBand.nil, first := first, long := false }
def Detect.init : Detect :=
  { hi := none, lo := none, holdM := 0, holdN := 0, env := 0, taps := 0, win := none, closed := none, spans := [] }
def Chain.init : Chain :=
  { t := 0, integ := [0, 0, 0, 0, 0], comb := [[], [], [], [], []], cic := [], m := 0, lastSwitch := 0, lastOvr := none,
    lastHo := none, lastRef := none, lastFo := none, lastSat := none, resumed := false, marks := [], pend := none,
    crossed := false, fade := none, comp := 0, emit := 0, supp := 0, run := none, gaps := [], hist := [], entry := none, insts := [],
    slots := [], nextPi := 0, lastPi := none, lastOut := none, inc := 2 ^ 40, rsMarks := [], lastJ := none, dead := none,
    turn := none, lastEpoch := none, tlog := [], det := Detect.init, inbox := [], queued := 0,
    store := [] }

/-! ## Window monitors (chapter 09) -/

/-- Where a monitor stands: off, powering up (R234), live, or settling after a change of conditions (R236). -/
inductive WmPhase
  | off | powerUp | live | settling
  deriving DecidableEq, Repr

/-- One comparator: raw level, gated level, unresolved. -/
structure WmSide where
  raw : Bool
  out : Bool
  unres : Bool
  deriving DecidableEq, Repr

/-- A raw edge held back for 48 ticks (R239): stamp in fine units, which comparator, new level. -/
structure WmEdge where
  stamp : Nat
  upper : Bool
  level : Bool
  deriving DecidableEq, Repr

/-- A blanking window: its opening instant and, once closed, its closing instant, in fine units (R238). -/
structure WmWindow where
  opened : Rat
  closed : Option Rat
  deriving DecidableEq, Repr

/-- A comparator's latch bit was set by an activation, or cleared by a W1C write: the tick, and the bit before (R242 to
R244). -/
structure LatchEvt where
  up : Bool
  tick : Nat
  set : Bool
  was : Bool
  deriving DecidableEq, Repr

/-- What a monitor holds beside its registers: `resyncs`, the close instants whose resynchronisation waits for older held edges
(R240); `latchLog`, what happened to its latch of late, for a period clear whose record comes after (R243, R244). -/
structure Monitor where
  phase : WmPhase
  upper : WmSide
  lower : WmSide
  held : List WmEdge
  windows : List WmWindow
  blanked : Bool
  resyncs : List Rat
  latchLog : List LatchEvt
  inbox : List FiringRec
  deriving DecidableEq, Repr

def WmSide.init : WmSide := { raw := false, out := false, unres := false }
def Monitor.init : Monitor :=
  { phase := .off, upper := WmSide.init, lower := WmSide.init, held := [], windows := [], blanked := false, resyncs := [],
    latchLog := [], inbox := [] }

/-! ## Waveform DACs (chapter 10) -/

/-- DAd_STAT.STATE (R251). -/
inductive DacSt
  | idle | wait | play
  deriving DecidableEq, Repr

/-- The running segment entry, as read when it started (R250): entry, stream or pattern, start address, length (none: without
end), samples played, plays left, EIRQ, NEXT; `begun` once its first sample is played, `ended` once its last is. -/
structure DacSeg where
  entry : Nat
  stream : Bool
  start : Nat
  len : Option Nat
  pos : Nat
  reps : Nat
  eirq : Bool
  next : Nat
  begun : Bool
  ended : Bool
  deriving DecidableEq, Repr

/-- A DAC beside its registers. `startEdge` is the sample-clock edge before which the entry does not play; `debt` is UNDW −
SKIPW without wrap; `under` says that an underrun run goes on, `undNew` and `undRuns` hold underruns not yet counted;
`edges` counts its SCLK edges; `recent` holds pattern writes with the edge count, the address and the old value, until
samples read 20 cycles ahead no longer need it (R256); `undo` holds what a STOP in the cycle of an accepted firing takes
back (R253); `resume` says that WAIT on FIRST follows (R249); the last `queued` records of `inbox` are still in the FIFO of
firing records (R495). -/
structure Dac where
  st : DacSt
  seg : DacSeg
  startEdge : Option Nat
  fifo : List Nat
  last : Nat
  out : Nat
  debt : Int
  under : Bool
  undNew : Nat
  undRuns : Nat
  edges : Nat
  pattern : Tab Nat
  recent : List (Nat × Nat × Nat)
  undo : Option (Nat × Nat × Nat)
  resume : Bool
  held : Bool
  inbox : List FiringRec
  queued : Nat
  deriving DecidableEq, Repr

def DacSeg.init : DacSeg :=
  { entry := 0, stream := false, start := 0, len := none, pos := 0, reps := 0, eirq := false, next := 0, begun := false,
    ended := false }
def Dac.init : Dac :=
  { st := .idle, seg := DacSeg.init, startEdge := none, fifo := [], last := 0, out := 0, debt := 0, under := false,
    undNew := 0, undRuns := 0, edges := 0, pattern := [], recent := [], undo := none, resume := false, held := false, inbox := [],
    queued := 0 }

/-! ## Calibration (chapter 11) -/

/-- The stored calibration set (R275, R276): SEQ, CAL_TS7.TEMP at commit, the registers of R264 by offset (a register that is
not listed holds its nominal value, calNominal), and the signature's bytes. -/
structure CalSet where
  seq : Nat
  temp : Nat
  regs : Tab Word
  sig : List Nat
  deriving DecidableEq, Repr

/-- Calibration beside its registers: the fields marked CAL_DISAGREE (register offset, lowest bit) and the keep store's set
(none: the record fails the check of R266), and the group that holds each quadrant's calibration bus (R263). -/
structure Calib where
  marks : List (Nat × Nat)
  store : Option CalSet
  bus : List (Option Nat)
  deriving DecidableEq, Repr

def Calib.init : Calib :=
  { marks := [], store := some { seq := 0, temp := 0, regs := [], sig := [] }, bus := [none, none, none, none] }

/-! ## The fabric (chapters 12 and 13) -/

/-- What an executed instruction will write: registers, OW, and the flags (C, T, V where given; N, Z). -/
structure FlagUpd where
  c : Option Bool
  t : Option Bool
  v : Option Bool
  n : Bool
  z : Bool
  deriving DecidableEq, Repr

structure CellRes where
  regs : List (Nat × Nat)
  ow : Option Nat
  flags : Option FlagUpd
  deriving DecidableEq, Repr

/-- A word cell (R287): W0 to W3, C, F, OW, the sequence index, WRAP, the control inputs' values of the previous cycle (bit n:
ICn), the previous level of IC(EVSEL) (none: no clock since start-up), and the multiplies executed one clock ago. -/
structure FabCell where
  w : List Nat
  c : Bool
  t : Bool
  v : Bool
  n : Bool
  z : Bool
  ow : Nat
  index : Nat
  wrap : Bool
  icr : Nat
  ev : Option Bool
  mul : List CellRes
  deriving DecidableEq, Repr

def FabCell.init : FabCell :=
  { w := [0, 0, 0, 0], c := false, t := false, v := false, n := false, z := false, ow := 0, index := 0, wrap := false,
    icr := 0, ev := none, mul := [] }

/-- A pulse crossing (R494): the source count, the transfer on its way to acceptance with the destination edges it still takes,
the edges that the acknowledge of an accepted one still takes, the delivery count, and the line the destination sees. -/
structure PulseX where
  count : Nat
  fly : Option (Nat × Nat)
  ack : Option Nat
  got : Nat
  line : Bool
  deriving DecidableEq, Repr

def PulseX.init : PulseX := { count := 0, fly := none, ack := none, got := 0, line := false }

/-- A fabric port input: FIFO, whether the next group presented carries GAP, whether the presented one does, whether a group
is presented, whether it is being taken; the groups at its head that stand for earlier sources, oldest source first, with their
G and whether their words are 32 bits wide (R316 to R319). -/
structure InPort where
  fifo : List StreamWord
  gapNext : Bool
  gapNow : Bool
  shown : Bool
  taking : Bool
  olds : List (Nat × Nat × Bool)
  deriving DecidableEq, Repr

/-- A fabric port output: FIFO, the word presented at the last clock edge, the words emitted (R321). -/
structure OutPort where
  fifo : List StreamWord
  offer : Option StreamWord
  emitted : Nat
  deriving DecidableEq, Repr

/-- A Pigeonhole agent port (R324): TXBUSY, the post on its way (TXCHAN, word), the channel of a take and of a doorbell clear
on their way, the TXACK and TXREJ pulses, the EMPTY and CHFAULT crossings. -/
structure AgentPort where
  busy : Bool
  post : Option (Nat × Nat)
  take : Option Nat
  dbclr : Option Nat
  ack : Bool
  rej : Bool
  empty : PulseX
  fault : PulseX
  deriving DecidableEq, Repr

/-- The levels an isolated cabinet shows: word trunks, control trunks (bit j: TCk.j), request lines (R376). -/
structure IsoLevels where
  words : List Nat
  ctrl : Nat
  frq : Nat
  deriving DecidableEq, Repr

/-- The Bureau's measurement record of a cabinet (R387): DSTATE, the bytes the digest covers, design identifier, frames,
reason, SIGNED. -/
structure MeasRec where
  dstate : Nat
  bytes : List Nat
  design : Nat
  frames : Nat
  reason : Nat
  signed : Bool
  deriving DecidableEq, Repr

/-- A cabinet beside its registers. `released` says that its release in Wake-up is over (R309); `loaded` holds SECURE and the
CBMASK bit of the partial stream that made it LOADED (R384). -/
structure Cabinet where
  ins : List InPort
  outs : List OutPort
  agents : List AgentPort
  frqLast : Nat
  iso : Option IsoLevels
  released : Bool
  loaded : Bool × Bool
  meas : MeasRec
  deriving DecidableEq, Repr

/-- The DIO pins: the levels applied from outside (bit n: DIOn), the banks whose supply is present, the levels and enables
latched in a low-power state or in Bench (R329). -/
structure Dio where
  levels : Nat
  vok : Nat
  latched : Option (Nat × Nat)
  ioOn : Bool
  deriving DecidableEq, Repr

/-- A probe: samples or words since the last one emitted, the words emitted since its start, the last sample. -/
structure Probe where
  skip : Nat
  emitted : Nat
  last : Nat
  deriving DecidableEq, Repr

def InPort.init : InPort :=
  { fifo := [], gapNext := false, gapNow := false, shown := false, taking := false, olds := [] }
def OutPort.init : OutPort := { fifo := [], offer := none, emitted := 0 }
def AgentPort.init : AgentPort :=
  { busy := false, post := none, take := none, dbclr := none, ack := false, rej := false, empty := PulseX.init,
    fault := PulseX.init }
def MeasRec.none : MeasRec := { dstate := 0, bytes := [], design := 0, frames := 0, reason := 0, signed := false }
def Cabinet.init : Cabinet :=
  { ins := [InPort.init, InPort.init, InPort.init, InPort.init],
    outs := [OutPort.init, OutPort.init, OutPort.init, OutPort.init], agents := [AgentPort.init, AgentPort.init],
    frqLast := 0, iso := none, released := false, loaded := (false, false), meas := MeasRec.none }
def Dio.init : Dio := { levels := 0, vok := 0, latched := none, ioOn := false }
def Probe.init : Probe := { skip := 0, emitted := 0, last := 0 }

/-! ## Configuration streams (chapters 14 and 15) -/

/-- What a stream loads: the whole device, or cabinet k (R377). -/
inductive LoadKind
  | full | region (k : Nat)
  deriving DecidableEq, Repr

/-- A read of the QSPI flash as one transaction, QSPI_CS_N low (R358): the byte address it began at, CLKDIV, and the words that
have come. -/
structure QspiRead where
  start : Nat
  clkdiv : Nat
  words : Nat
  deriving DecidableEq, Repr

/-- A stream on its way in (R336 to R355): whether words are taken (PHASE 1 or 2), what it loads, from which source and ring,
the words that have arrived and wait (R357, R359, R416), preamble words taken, whether the sync word has been taken, the
position of the next word, the CRC register over p = 1 on, those words (latest first), and CFG_CRC before the END body. -/
structure Stream where
  active : Bool
  kind : LoadKind
  src : Nat
  ring : Nat
  waiting : List Word
  pre : Nat
  synced : Bool
  pos : Nat
  crc : Nat
  taken : List Word
  /-- The last record's tag (0: none yet), the record in progress (0: a header comes next), its length, its words taken. -/
  last : Nat
  tag : Nat
  len : Nat
  got : Nat
  /-- The address the next frame must have (none: no frame is left), the next frame of the FRAMES record, the words of the
  frame in progress, and the frames written. -/
  next : Option Nat
  fa : Option Nat
  frame : List Word
  frames : Nat
  /-- An ANALOG entry in progress: its offset, whether it is a burst, the values it still takes (none: the count comes next). -/
  entry : Option (Nat × Bool × Option Nat)
  /-- The deferred writes, in stream order (R351). -/
  deferred : List (Nat × Word)
  /-- What the records said: DEVICE words 2 to 4, REGION, STARTUP, the computed and the stated digest, SIGNATURE, END. -/
  design : Nat
  secmask : Nat
  secure : Bool
  cbmask : Nat
  refwait : Bool
  digest : List Nat
  stated : List Word
  sig : List Word
  sigWait : Bool
  signed : Bool
  crcEnd : Nat
  /-- The words that enter the measurement digests (R366), latest first: cabinet k under k, the hard blocks under 32. -/
  meas : Tab (List Word)
  analog : List Word
  /-- Whether a partial stream's END body has been taken and its checks are to come (R382); whether its cabinet's clock gate
  has closed (R381); whether the cabinet was secure when the load was accepted (R383). -/
  ended : Bool
  gate : Bool
  wasSecure : Bool
  /-- The transaction with the flash, while one runs. -/
  qspi : Option QspiRead
  deriving DecidableEq, Repr

/-- A write to a register image that waits for a check (R505); `copied`: the pair's copy of the primary's value (R522). -/
structure HeldWrite where
  reg : Nat
  word : Word
  copied : Bool
  deriving DecidableEq, Repr

/-- The scrubber: the frame it reads within its pass (none: between passes, or stopped), whether a word of that frame has
been written since, the checks of it discarded in a row (R392), and, while register-image writes to it are held, those that
wait (R505). -/
structure Scrub where
  at_ : Option Nat
  touched : Bool
  discards : Nat
  hold : Bool
  held : List HeldWrite
  deriving DecidableEq, Repr

/-- The three copies of SCRB_CTL and of SCRB_IRQEN (R393). -/
structure Voted where
  ctl : Word × Word × Word
  irqen : Word × Word × Word
  deriving DecidableEq, Repr

/-- The JTAG instruction in force (R544). -/
inductive JtagInstr
  | bypass | sample | extest | clamp | highz
  deriving DecidableEq, Repr

/-- The dedicated pins (R542 to R544): the straps as sampled (COMPAT, BOOT), CFG_DONE, WAKE_N held low, the TAP's
instruction and the update stage of the boundary cells (scanCode numbers them; a cell not listed drives nothing). -/
structure Pins where
  compat : Bool
  boot : Nat
  done : Bool
  wakeLow : Bool
  jtag : JtagInstr
  cells : Tab (Option Bool)
  deriving DecidableEq, Repr

def Stream.init : Stream :=
  { active := false, kind := .full, src := 0, ring := 0, waiting := [], pre := 0, synced := false, pos := 0, crc := 0xFFFFFFFF,
    taken := [], last := 0, tag := 0, len := 0, got := 0, next := some 0, fa := none, frame := [], frames := 0, entry := none,
    deferred := [], design := 0, secmask := 0, secure := false, cbmask := 0, refwait := false, digest := [], stated := [],
    sig := [], sigWait := false, signed := false, crcEnd := 0, meas := [], analog := [], ended := false, gate := false,
    wasSecure := false, qspi := none }
def Scrub.init : Scrub := { at_ := none, touched := false, discards := 0, hold := false, held := [] }
def Voted.init : Voted := { ctl := (0x80000000, 0x80000000, 0x80000000), irqen := (0, 0, 0) }
def Pins.init : Pins := { compat := false, boot := 0, done := false, wakeLow := false, jtag := .bypass, cells := [] }

/-! ## Capture rings (chapter 16) -/

/-- What the record of a block says of its stamp instant (R405, R407). -/
structure BlockStamp where
  arr : Bool
  fine : Int
  turn : Nat
  frac : Nat
  state : Nat
  epoch : Nat
  deriving DecidableEq, Repr

/-- A block of an upstream ring, open or closed and not yet written: its block count, its words with the instant each
reached the ring (in fine units), its stamp, and the flags DROPPED, FIRST and FAILOVER (R405, R406). -/
structure RingBlock where
  seq : Nat
  words : List (StreamWord × Int)
  stamp : BlockStamp
  dropped : Bool
  first : Bool
  failover : Bool
  deriving DecidableEq, Repr

/-- A ring beside its registers. Upstream: the open block, the closed blocks that await their writes, whether the next block
carries FIRST or DROPPED, after how many more words the source stops, the tokens in thousandths of a byte (R409), the ledger
(R410), the blocks counted since the last BLK event (R418), whether a word of the Bureau's payload was dropped (R471).
Downstream: the blocks asked for, the words that have arrived and are not delivered, those that came while the ledger stood in
Bench (R36), the words of the block at TAIL
delivered so far, the words emitted since the ring's start (R415). -/
structure Ring where
  opened : Option RingBlock
  closed : List RingBlock
  first : Bool
  dropped : Bool
  stopIn : Option Nat
  tokens : Nat
  produced : Nat
  written : Nat
  droppedCnt : Nat
  blkCount : Nat
  bulkLost : Bool
  asked : Nat
  arrived : List Nat
  late : List Nat
  sent : Nat
  emitted : Nat
  deriving DecidableEq, Repr

def Ring.init : Ring :=
  { opened := none, closed := [], first := false, dropped := false, stopIn := none, tokens := 0, produced := 0, written := 0,
    droppedCnt := 0, blkCount := 0, bulkLost := false, asked := 0, arrived := [], late := [], sent := 0, emitted := 0 }

/-! ## Pigeonhole (chapter 17) -/

/-- A channel with its page registers (R426, R431, R445). `mute`: the EMPTY notification of the word it holds is discarded
(R441); `waited`: TIMEOUT has been set for the word it holds (R440). -/
structure Chan where
  alloc : Bool
  snd : Nat
  rcv : Nat
  word : Word
  full : Bool
  db : Word
  posts : Nat
  rej : Nat
  last : Nat
  timeout : Bool
  aborted : Bool
  emptyEv : Bool
  takes : Nat
  srst : Bool
  arrive : Bool
  sndCtl : Word
  rcvCtl : Word
  mute : Bool
  waited : Bool
  deriving DecidableEq, Repr

def Chan.init : Chan :=
  { alloc := false, snd := 0, rcv := 0, word := 0, full := false, db := 0, posts := 0, rej := 0, last := 0, timeout := false,
    aborted := false, emptyEv := false, takes := 0, srst := false, arrive := false, sndCtl := 0x2710, rcvCtl := 0,
    mute := false, waited := false }

/-! ## The host interface (chapter 18) -/

/-- What a function's configuration space holds of the items the spec names (R447, R453, R462), and whether a function-level
reset of it is in progress (R463); `aer` and `cor` are its uncorrectable and its correctable error status (R447, R455). -/
structure PciFunc where
  busMaster : Bool
  d3 : Bool
  msixEnable : Bool
  msixMask : Bool
  flr : Bool
  aer : Nat
  cor : Nat
  deriving DecidableEq, Repr

/-- An MSI-X vector beside its table entry (R462): the level of its cause when it was last looked at, Pending, and whether a
message is on its way that no look has met. -/
structure Vector where
  cause : Bool
  pendingBit : Bool
  owed : Bool
  deriving DecidableEq, Repr

/-- How a request of the host ended: the words read, Unsupported Request, Configuration Request Retry Status, or no
completion. -/
inductive Completion
  | value (ws : List Word)
  | unsupported
  | retry
  | dropped
  deriving DecidableEq, Repr

/-- The host interface beside its registers: the functions, the vectors (by 2048·function + vector), the resets PORST_N and
PERST_N, whether the first training since PERST_N is over, whether the host configuration is loaded (R459), which clocks are
marked stopped, the accesses that wait for a clock, each with whether it is the primary's on the standby (R497), BAR2's size
in MiB (R454), and how the last request ended. -/
structure HostIf where
  funcs : Tab PciFunc
  vecs : Tab Vector
  porst : Bool
  perst : Bool
  trained : Bool
  ready : Bool
  stopped : List Nat
  held : List (HostAccess × Bool)
  bar2 : Nat
  cpl : Completion
  deriving DecidableEq, Repr

def PciFunc.init : PciFunc :=
  { busMaster := false, d3 := false, msixEnable := false, msixMask := false, flr := false, aer := 0, cor := 0 }
def Vector.init : Vector := { cause := false, pendingBit := false, owed := false }
def HostIf.init : HostIf :=
  { funcs := [], vecs := [], porst := false, perst := false, trained := false, ready := false, stopped := [], held := [],
    bar2 := 4, cpl := .dropped }

/-! ## The Bureau (chapter 19) -/

/-- What a running command still has to do (R466): its status so far, the registers it writes at completion, whether it writes
them on ST_OK only, the upstream ring its payload is on, the downstream ring and the bytes it still waits for with the bytes
it has, and the calibration set that a commit makes the stored one with its final write (R281). -/
structure Job where
  status : Nat
  results : List (Nat × Word)
  always : Bool
  out : Option Nat
  need : Nat
  got : List Nat
  commit : Option CalSet
  deriving DecidableEq, Repr

/-- What the Bureau keeps without power: the OTP (R478, R481), slot digests and the bits of BUR_POLICY; BUR_KEYRES in the keep
store (R482). -/
structure Nonvolatile where
  slots : List (List Nat)
  policy : Nat
  keyres : Nat
  deriving DecidableEq, Repr

def Nonvolatile.init : Nonvolatile := { slots := [[], [], [], []], policy := 0, keyres := 0 }

/-- The Bureau beside its registers: whether it runs (R31) and whether it is halted for good (R475); the command in
progress; a command that waits for the Bureau to run (R467), and whether the doorbell last rung was the primary's (R524);
the downstream ring a command names (R36); the 10 ms checks of R163 since Reset; what survives without power; whether the
random source fails (R473); whether the first entry to Blank since Reset is still to come (R360); the hard-block digest
(R366; empty: none); the corrections in all cabinets since Reset (R486). -/
structure Bureau where
  running : Bool
  dead : Bool
  job : Option Job
  waiting : Option Instr
  mirrored : Bool
  bulkIn : Option Nat
  checks : Nat
  nv : Nonvolatile
  trngFails : Bool
  firstBlank : Bool
  hard : List Nat
  corrections : Nat
  deriving DecidableEq, Repr

def Bureau.init : Bureau :=
  { running := false, dead := false, job := none, waiting := none, mirrored := false, bulkIn := none, checks := 0,
    nv := Nonvolatile.init,
    trngFails := false, firstBlank := true, hard := [], corrections := 0 }

/-! ## Power management (chapter 21) -/

/-- Where the device stands in a low-power state (R507, R512). -/
inductive PwrStage
  | awake | entering | asleep | leaving
  deriving DecidableEq, Repr

/-- Power management beside its registers: the stage, a wake that came during entry, the armed self-wake tick, the firing
it is armed for, the tick of the last return to Run, the cause code the return takes, the tick of the last wake that came in
Run (R41), the tick at which the exit began (R512), and the sensors whose first reading after Slumber is to come (R515). -/
structure Power where
  stage : PwrStage
  wakeHeld : Bool
  selfWake : Option Nat
  armedFor : Option Nat
  lastRun : Option Nat
  cause : Nat
  wakeSeen : Option Nat
  leftAt : Option Nat
  resense : List Nat
  deriving DecidableEq, Repr

def Power.init : Power :=
  { stage := .awake, wakeHeld := false, selfWake := none, armedFor := none, lastRun := none, cause := 13, wakeSeen := none,
    leftAt := none, resense := [] }

/-! ## The twin (chapter 22) -/

/-- Twin operation beside its registers: this die's number, the replay buffer (R527, oldest first, with the ring of each
block), the indices at which the primary closed blocks that this die has not reached, the host accesses that wait to take
effect with the tick they do so in (R523), whether this die is fenced (R532), whether
its drivers stay off after a split (R525), the cabinets with a scrub event since the last
comparison (R531), one more than the SEQ the last heartbeat named for each ring (0: none), a trigger that waits for the
Bureau (R31), whether the link is to be trained again (R519), the tick up to which samples carry FAILOVER (R535). -/
structure Twin where
  die : Nat
  replay : List (Nat × RingBlock)
  closeAt : List (Nat × Nat)
  waiting : List (Nat × HostAccess)
  fenced : Bool
  silent : Bool
  scrubbed : List Nat
  lastHb : Tab Nat
  trigger : Option Nat
  retrain : Bool
  foUntil : Option Nat
  deriving DecidableEq, Repr

def Twin.init : Twin :=
  { die := 0, replay := [], closeAt := [], waiting := [], fenced := false, silent := false, scrubbed := [], lastHb := [],
    trigger := none, retrain := false, foUntil := none }

/-! ## The whole state -/

/-- Where the round-robin arbiters stand (R504): the ring last granted a block of its writes, the ring last granted a fetch, and
the agent port, 2·k + a, last granted a Pigeonhole operation. -/
structure Arbiter where
  up : Nat
  down : Nat
  port : Nat
  deriving DecidableEq, Repr

/-- The first requester is the one of number 0. -/
def Arbiter.init : Arbiter := { up := 4095, down := 4095, port := 47 }

/-- The state of one die. `regs` holds the registers by BAR0 offset (RegMap names them); the other fields hold what the
spec gives the machine beside its registers. -/
structure State where
  /-- The consumers' source connections, by consumer number (feedFC and the like). -/
  feeds : Tab Feed
  /-- The model's own counter that picks fresh free values. -/
  freeCount : Nat
  part : Part
  mode : Mode
  regs : Tab Word
  /-- What the last read of a register returned (the model's own field). -/
  readData : Word
  lcs : Longcase
  /-- The differential voltage at the pins of APn (an input of the device). -/
  apPins : Tab Rat
  cells : Tab Cell
  groups : Tab Group
  chains : Tab Chain
  monitors : Tab Monitor
  dacs : Tab Dac
  cal : Calib
  /-- The type 0 and type 1 frames (R341): word w of frame fa under 32·fa + w. -/
  frames : Tab Word
  /-- The stored check words of those frames (R343, R389). -/
  checks : Tab Nat
  /-- Word cells: cell i of CBk under 256·k + i. -/
  fcells : Tab FabCell
  cabs : Tab Cabinet
  /-- The event-line crossings: line e of CBk under 64·k + e (R322). -/
  lines : Tab PulseX
  /-- The fabric request line crossings (R323). -/
  frqs : Tab PulseX
  dio : Dio
  probes : Tab Probe
  /-- The configuration stream on its way in. -/
  stream : Stream
  /-- The scrubber. -/
  scrub : Scrub
  /-- The voted copies of the scrubber's control registers. -/
  voted : Voted
  /-- The dedicated pins. -/
  pins : Pins
  rings : Tab Ring
  /-- The page directory (R397): 64-bit entries; an entry not listed is 0, not valid. -/
  pdir : Tab Nat
  /-- What the device has written to host memory, byte by byte (an address not listed reads 0, log entry 8). -/
  hostMem : Tab Nat
  /-- Channels: c non-secure, 1024 + i for SCi. -/
  chans : Tab Chan
  host : HostIf
  bur : Bureau
  pwr : Power
  twin : Twin
  /-- The arbiters. -/
  arb : Arbiter
  /-- Commands waiting, first in first out. -/
  pending : List Instr
  deriving DecidableEq, Repr

/-- Why a command stops with a fault. -/
inductive Fault
  /-- Raised by every command that carries an instance number, an address or a word count which no part has (an ill-formed
  command: see WellFormed). Safe: the hardware has no such command. -/
  | illFormed
  deriving DecidableEq, Repr

/-- Why a command is refused. -/
inductive Refusal
  /-- Raised by a command that has no meaning yet. Safe. -/
  | notModelled (mnemonic : String)
  deriving DecidableEq, Repr

/-- The outcome of a command. -/
abbrev Out := Host.Outcome State Fault Refusal

/-- The state right after power-on: every register at its reset value (the table of RegMap; log entry 1 for what the
spec leaves open), mode Reset, the Bureau not yet booted, nothing waiting. -/
def State.reset : State :=
  { feeds := [],
    freeCount := 0,
    part := Config.part,
    mode := .reset,
    regs := [],
    readData := 0,
    lcs := Longcase.init,
    apPins := [],
    cells := [],
    groups := [],
    chains := [],
    monitors := [],
    dacs := [],
    cal := Calib.init,
    frames := [],
    checks := [],
    fcells := [],
    cabs := [],
    lines := [],
    frqs := [],
    dio := Dio.init,
    probes := [],
    stream := Stream.init,
    scrub := Scrub.init,
    voted := Voted.init,
    pins := Pins.init,
    rings := [],
    pdir := [],
    hostMem := [],
    chans := [],
    host := HostIf.init,
    bur := Bureau.init,
    pwr := Power.init,
    twin := Twin.init,
    arb := Arbiter.init,
    pending := [] }

end Sys2Proof.Machine
end

