-- ==== Sys2Proof/Machine/Ops.lean ====
section
/-! DEFINITION. The named operations over registers that every meaning uses, and the part's instances. -/

namespace Sys2Proof.Machine

/-- The stored word of the register at offset `a`. -/
def State.word (s : State) (a : Nat) : Word := Tab.get RegMap.resetAt s.regs a

/-- `s` with the register at offset `a` holding `w`. -/
def State.setWord (s : State) (a : Nat) (w : Word) : State :=
  { s with regs := Tab.put RegMap.resetAt s.regs a w }

/-- The value of a field of instance `i` (sub-instance `j`). -/
def State.f (s : State) (r : FieldRef) (i : Nat := 0) (j : Nat := 0) : Nat :=
  (s.word (r.addr i j)).bits r.lo r.width

/-- `s` with a field holding the low bits of `v`. -/
def State.setF (s : State) (r : FieldRef) (v : Nat) (i : Nat := 0) (j : Nat := 0) : State :=
  s.setWord (r.addr i j) ((s.word (r.addr i j)).setBits r.lo r.width v)

/-- A one-bit field as a truth value. -/
def State.on (s : State) (r : FieldRef) (i : Nat := 0) (j : Nat := 0) : Bool := s.f r i j != 0

/-- `s` with a field holding a truth value. -/
def State.setB (s : State) (r : FieldRef) (b : Bool) (i : Nat := 0) (j : Nat := 0) : State :=
  s.setF r (if b then 1 else 0) i j

/-- `s` with a one-bit flag set. -/
def State.flag (s : State) (r : FieldRef) (i : Nat := 0) (j : Nat := 0) : State := s.setF r 1 i j

/-- `s` with a flag set where `b` holds. -/
def State.flagIf (s : State) (b : Bool) (r : FieldRef) (i : Nat := 0) (j : Nat := 0) : State :=
  if b then s.flag r i j else s

/-- `s` with a counting field raised by `n`, saturating. -/
def State.addSat (s : State) (r : FieldRef) (n : Nat) (i : Nat := 0) (j : Nat := 0) : State :=
  s.setF r (min (s.f r i j + n) (2 ^ r.width - 1)) i j

/-- `s` with a counting field raised by `n`, wrapping. -/
def State.addWrap (s : State) (r : FieldRef) (n : Nat) (i : Nat := 0) (j : Nat := 0) : State :=
  s.setF r (s.f r i j + n) i j

/-- `s` with bit `k` of a field set. -/
def State.setBit (s : State) (r : FieldRef) (k : Nat) (i : Nat := 0) (j : Nat := 0) : State :=
  s.setF r (s.f r i j ||| 2 ^ k) i j

/-- `s` with a 64-bit value in a pair of registers (R13). -/
def State.setPair (s : State) (lo hi : FieldRef) (v : Nat) (i : Nat := 0) (j : Nat := 0) : State :=
  (s.setF lo v i j).setF hi (v / 2 ^ 32) i j

/-- A number as a signed number of `w` bits. -/
def toSigned (w v : Nat) : Int := if v % 2 ^ w < 2 ^ (w - 1) then (v % 2 ^ w : Nat) else (v % 2 ^ w : Nat) - 2 ^ w

/-- A signed number as `w` bits, two's complement. -/
def ofSigned (w : Nat) (x : Int) : Nat := (x % 2 ^ w).toNat

/-- A signed number limited to `lo` to `hi`. -/
def clamp (lo hi x : Int) : Int := max lo (min hi x)

/-- A signed number saturated to `w` bits. -/
def satSigned (w : Nat) (x : Int) : Int := clamp (-2 ^ (w - 1)) (2 ^ (w - 1) - 1) x

/-- A write protected by R554: `new` is what the write would leave; where it would change a bit of `prot`, every bit of
`prot` stays, and the second result is true. -/
def guardWrite (old new prot : Word) : Word × Bool :=
  if (old ^^^ new) &&& prot = 0 then (new, false) else ((new &&& ~~~prot) ||| (old &&& prot), true)

/-- The word a write leaves by the access codes alone (R9, R11): RW bits take the written value, W1C bits clear where 1 is
written, W1S bits set where 1 is written, every other bit stays. -/
def RegRow.apply (r : RegRow) (old w : Word) : Word :=
  let rw := r.mask (· == .rw)
  let c := r.mask (· == .w1c)
  let st := r.mask (· == .w1s)
  ((((old &&& ~~~rw) ||| (w &&& rw)) &&& ~~~(w &&& c)) ||| (w &&& st))

/-- The free value `k` (0 to 3) of this step; the step advances freeCount, so that no other step takes the same ones.
DESIGN CHOICE, log entry 5. -/
def State.fresh (s : State) (k : Nat) : Nat := Config.freeNat (4 * s.freeCount + k)

/-- What stays of cell `c` when its held state is cleared (R115): which amplifier serves, and where each is nulled. -/
def Cell.cleared (x : Cell) (c : Nat) (servingB : Bool) : Option (Nat × Cell) :=
  let y : Cell := { Cell.init with servingB := servingB, nullA := x.nullA, nullB := x.nullB }
  if y = Cell.init then none else some (c, y)

/-- Names the instance: the command stops where the number is beyond what any part has. DESIGN CHOICE, log entry 12. -/
def onInst (n bound : Nat) (k : Out) : Out := if n < bound then k else .fault .illFormed

end Sys2Proof.Machine

namespace Sys2Proof

/-! ## The part's instances (R1, R3) -/

def Part.is4820 (p : Part) : Bool := p == .kn4820
def Part.isTwin (p : Part) : Bool := p == .kn9640T
def Part.numCG (p : Part) : Nat := if p.is4820 then 12 else 24
def Part.numFC (p : Part) : Nat := if p.is4820 then 24 else 48
def Part.numAP (p : Part) : Nat := if p.is4820 then 48 else 96
def Part.numAC (p : Part) : Nat := if p.is4820 then 96 else 192
def Part.numWM (p : Part) : Nat := if p.is4820 then 48 else 96
def Part.numDA (p : Part) : Nat := if p.is4820 then 12 else 24
def Part.numCB (p : Part) : Nat := if p.is4820 then 12 else 24

/-- The part code (R42). -/
def Part.code : Part → Nat
  | .kn4820 => 0x4820
  | .kn9640 => 0x9640
  | .kn9640T => 0x964A

end Sys2Proof

namespace Sys2Proof.Machine

/-- A command to an instance that is fused off changes nothing (R3). DESIGN CHOICE, log entry 12. -/
def ifPresent (n count bound : Nat) (s : State) (k : Out) : Out :=
  onInst n bound (if n < count then k else .next s)

/-- A read of a register: one of an instance that is fused off reads 0 (R3). -/
def readPresent (n count bound : Nat) (s : State) (k : Out) : Out :=
  onInst n bound (if n < count then k else .next { s with readData := 0 })

/-- The mode's code (R33). -/
def Mode.code : Mode → Nat
  | .reset => 0 | .blank => 1 | .load => 2 | .verify => 3 | .wakeUp => 4 | .run => 5 | .partialRun => 6
  | .doze => 7 | .nap => 8 | .slumber => 9 | .bench => 10 | .faultMode => 11

/-- Whether this die is the standby of a pair (R522). -/
def State.standby (s : State) : Bool := s.on Fld.TWN_STAT_PAIRED && !s.on Fld.TWN_STAT_PRIMARY

/-- Whether this die drives its single-drive outputs: in Solo, or as the primary (R529, R530). -/
def State.drivesPins (s : State) : Bool := !s.standby && !s.twin.fenced && !s.twin.silent

/-! ## Arbiters (R504) -/

/-- How many of `n` requesters come before `r` in the order that starts after `last`. -/
def turnsTo (n last r : Nat) : Nat := (r + n - 1 - last % n) % n

/-- Whether `r` is next among the `n` requesters of which those in `waiting` wait, `last` having had the last grant. -/
def roundRobin (n last : Nat) (waiting : List Nat) (r : Nat) : Bool :=
  waiting.all fun q => decide (turnsTo n last r ≤ turnsTo n last q)

/-! ## Host writes in a pair (R523) -/

/-- A host write has been applied: TWN_HSEQ counts it in a pair, on both dies alike. -/
def State.counted (s : State) : State := if s.on Fld.TWN_STAT_PAIRED then s.addWrap Fld.TWN_HSEQ 1 else s

/-- The outcome of a row that is one host write of its own. DESIGN CHOICE, log entry 37. -/
def hostRow : Out → Out
  | .next t => .next t.counted
  | o => o

/-! ## Boundary scan (R544) -/

/-- The number of a pin's boundary cell. -/
def scanCode : ScanPin → Nat
  | .dio n => n % 256
  | .prb p => 256 + p % 16
  | .cfgErr => 272
  | .cfgDone => 273
  | .wakeN => 274
  | .qspi k => 275 + k

/-- The TAP instruction as it acts: EXTEST, CLAMP and HIGHZ take effect in Reset, Blank and Fault only.
DESIGN CHOICE, log entry 42. -/
def State.tapInForce (s : State) : JtagInstr :=
  match s.pins.jtag, s.mode with
  | .bypass, _ => .bypass
  | .sample, _ => .sample
  | j, .reset | j, .blank | j, .faultMode => j
  | _, _ => .bypass

/-- The TAP's instruction after a transition out of the present mode: a test in force ends (R544). -/
def State.tapLeaves (s : State) : JtagInstr :=
  match s.tapInForce with
  | .extest | .clamp | .highz => .bypass
  | _ => s.pins.jtag

/-- What a pin drives under a test in force: what its boundary cell holds, under HIGHZ nothing; none: the pin has its
function. -/
def State.scanDrive (s : State) (p : ScanPin) : Option (Option Bool) :=
  match s.tapInForce with
  | .extest | .clamp => some (Tab.get (fun _ => none) s.pins.cells (scanCode p))
  | .highz => some none
  | _ => none

end Sys2Proof.Machine
end

