-- ==== Sys2Proof/Machine/Longcase.lean ====
section
/-! DEFINITION. Longcase: time, phase references, alarms, timers and captures (chapter 03 of spec/). -/

namespace Sys2Proof.Machine

/-! ## Access to the parts of Longcase -/

def State.trk (s : State) (n : Nat) : Tracker := Tab.get (fun _ => Tracker.init) s.lcs.trackers n
def State.setTrk (s : State) (n : Nat) (t : Tracker) : State :=
  { s with lcs := { s.lcs with trackers := Tab.put (fun _ => Tracker.init) s.lcs.trackers n t } }
def State.alarm (s : State) (n : Nat) : Alarm := Tab.get (fun _ => Alarm.init) s.lcs.alarms n
def State.setAlarm (s : State) (n : Nat) (a : Alarm) : State :=
  { s with lcs := { s.lcs with alarms := Tab.put (fun _ => Alarm.init) s.lcs.alarms n a } }
def State.timer (s : State) (n : Nat) : Timer := Tab.get (fun _ => Timer.init) s.lcs.timers n
def State.setTimer (s : State) (n : Nat) (t : Timer) : State :=
  { s with lcs := { s.lcs with timers := Tab.put (fun _ => Timer.init) s.lcs.timers n t } }
def State.capture (s : State) (n : Nat) : List CapEntry := Tab.get (fun _ => []) s.lcs.captures n
def State.setCapture (s : State) (n : Nat) (l : List CapEntry) : State :=
  { s with lcs := { s.lcs with captures := Tab.put (fun _ => []) s.lcs.captures n l } }

/-- Whether LCLK toggles: the PLL is locked, and the device has left Reset (R33, R58). -/
def State.lclk (s : State) : Bool := s.lcs.pll == .locked && s.mode != .reset

/-- `s` at tick `t` or later: time never runs back (log entry 4), and stands while LCLK does (R58). -/
def State.atTick (s : State) (t : Nat) : State :=
  { s with lcs := { s.lcs with time := if s.lclk then max s.lcs.time t else s.lcs.time } }

/-- Whether the sample clock runs: in CLKSRC 2 it is SMPCLK itself, else it comes from the PLL (R54). -/
def State.sampleClock (s : State) : Bool :=
  if s.f Fld.LCS_CTL_CLKSRC = 2 then !s.lcs.smpStalled else s.lclk

/-- Whether the SCLK of a group runs: Slumber stops every SCLK, and so does the want of a sample clock (R507, R497).
DESIGN CHOICE, log entry 21. -/
def State.sclk (s : State) (_g : Nat) : Bool :=
  s.sampleClock && !(s.mode == .slumber && (s.pwr.stage == .asleep || s.pwr.stage == .leaving)) && s.mode != .reset

/-- A write to a block whose clock is stopped: discarded, STOPWR set, HOST_BADOFS loaded (R458). -/
def State.stopWrite (s : State) (a : Nat) : State :=
  (((s.flag Fld.HOST_STAT_STOPWR).setF Fld.HOST_BADOFS_FUNC 0).setF Fld.HOST_BADOFS_BAR 0).setF Fld.HOST_BADOFS_OFS a

/-- A write to a register file at offset `a` whose clock runs where `runs` holds (R458, R497). -/
def State.writeIn (s : State) (runs : Bool) (a : Nat) (k : State → State) : State := if runs then k s else s.stopWrite a

/-- A write to the LCS register file: discarded while LCLK stands. -/
def State.lcsWrite (s : State) (a : Nat) (k : State → State) : State := s.writeIn s.lclk a k

/-- A write to the register file of a block clocked by the SCLK of group `g`. -/
def State.sclkWrite (s : State) (g a : Nat) (k : State → State) : State := s.writeIn (s.sclk g) a k

/-! ## The sample clock (R54 to R57) -/

/-- LCS_STAT.SMP_VALID. -/
def State.smpValid (s : State) : Bool :=
  if s.f Fld.LCS_CTL_CLKSRC = 2 then s.lcs.smpq.isSome else s.lclk

/-- LCS_SMPQ, in fine units per 2^16 samples. -/
def State.smpq (s : State) : Nat :=
  if s.f Fld.LCS_CTL_CLKSRC = 2 then s.lcs.smpq.getD 0 else 5242880

/-- The sample position of an instant `t` in fine units; none while SMP_VALID is 0 (R55, R56). -/
def State.samplePos (s : State) (t : Rat) : Option Rat :=
  if s.smpValid then
    if s.f Fld.LCS_CTL_CLKSRC = 2 then
      match s.lcs.smpEdge, s.lcs.smpq with
      | some e, some q => some (e.edge + (t - e.stamp) * 65536 / q)
      | _, _ => none
    else some (t / 80)
  else none

/-! ## Time of a sample -/

/-- The instant of sample-clock edge `e` in fine units, where the relation of R55 or R56 stands. -/
def State.edgeInstant (s : State) (e : Nat) : Option Rat :=
  if s.f Fld.LCS_CTL_CLKSRC = 2 then
    match s.lcs.smpEdge, s.lcs.smpq with
    | some x, some q => some (x.stamp + ((e : Rat) - x.edge) * q / 65536)
    | _, _ => none
  else some (80 * e)

/-- The tick in which sample-clock edge `e` lies; `seen` where no relation stands. -/
def State.edgeTick (s : State) (e seen : Nat) : Nat :=
  match s.edgeInstant e with
  | some t => (t / 64).floor.toNat
  | none => seen

/-- The stamp of a sample-clock edge. The first one after SMP_VALID fell is numbered 0, and the later ones count on from it by
2^16: the spec numbers none of them in CLKSRC 2. DESIGN CHOICE, log entry 45. -/
def State.smpStamp (s : State) (stamp : Nat) : State :=
  if s.lclk then
    let l := s.lcs
    { s with lcs := match l.smpEdge with
      | none => { l with smpEdge := some ⟨stamp, 0⟩ }
      | some e => { l with smpEdge := some ⟨stamp, e.edge + 65536⟩, smpq := some (stamp - e.stamp) } }
  else s

/-- Forgets the tick-to-sample relation (R57), the last difference with it: a snapshot of LCS_SMPQ then gives 0.
DESIGN CHOICE, log entry 45. -/
def State.smpLost (s : State) : State := { s with lcs := { s.lcs with smpEdge := none, smpq := none } }

/-- SMPCLK stands (R57), and in CLKSRC 2 SCLK with it. -/
def execSmpclkStall (s : State) : Out :=
  if s.f Fld.LCS_CTL_CLKSRC = 2 then .next ({ s.smpLost with lcs := { s.smpLost.lcs with smpStalled := true } }) else .next s

/-! ## Phase references -/

/-- The phase at fine-unit time `t`. -/
def Tracker.phase (t : Tracker) (at_ : Int) : Rat := t.phi0 + t.rate * ((max 0 (at_ - t.t0) : Int) : Rat)

/-- The tracker with its phase held from `at_` on (R68). -/
def Tracker.hold (t : Tracker) (at_ : Int) : Tracker := { t with phi0 := t.phase at_, t0 := at_, rate := 0 }

/-- PRn_TURN and PRn_FRAC of a phase. -/
def turnOf (phi : Rat) : Nat := phi.floor.toNat % 2 ^ 32
def fracOf (phi : Rat) : Nat := ((phi - phi.floor) * 2 ^ 32).floor.toNat

/-- Whether alarms fire and the phase advances (R70). -/
def TrkState.tracking : TrkState → Bool
  | .locked | .coasting => true
  | _ => false

def TrkState.code : TrkState → Nat
  | .unlocked => 0 | .acquiring => 1 | .locked => 2 | .coasting => 3 | .lost => 4

/-- The settings of a reference that its tracker uses (R62 to R64). -/
structure TrkCfg where
  ept : Nat
  smooth : Nat
  tol : Nat
  acq : Nat
  coast : Nat
  index : Bool
  deriving DecidableEq, Repr

def State.trkCfg (s : State) (n : Nat) : TrkCfg :=
  { ept := s.f Fld.PR_CFG_EPT_M1 n + 1, smooth := s.f Fld.PR_CFG_SMOOTH n, tol := max 1 (s.f Fld.PR_TRK_TOL n),
    acq := max 2 (s.f Fld.PR_TRK_ACQ n), coast := s.f Fld.PR_TRK_COAST n, index := s.on Fld.PR_SRC_IKIND n }

/-- A period in 1/256 fine unit, in its 48-bit counter (R62). -/
def satPeriod (p : Nat) : Nat := min p ((2 ^ 48 - 1) * 256)

/-- Whether an interval `d` (1/256 fine unit) is good for `k` periods. -/
def goodInterval (c : TrkCfg) (p d k : Nat) : Bool :=
  ((d : Int) - k * p).natAbs * 256 ≤ p * c.tol

/-- P after a good interval of `d` (in 1/256 fine unit, exact). -/
def smoothPeriod (c : TrkCfg) (p : Nat) (d : Rat) : Nat :=
  satPeriod (Config.toWhole .periodUpdate (p + (d - p) / (2 ^ c.smooth : Nat))).toNat

/-- The rate while coasting and at a lock: 1/(EPT P), in turns per fine unit. -/
def freeRate (c : TrkCfg) (p : Nat) : Rat := 256 / ((c.ept : Rat) * p)

/-- What processing an edge does beside the tracker itself: the counters it raises. -/
structure TrkOut where
  trk : Tracker
  slip : Nat
  miss : Nat
  decerr : Nat
  deriving DecidableEq, Repr

/-- The stretch of the phase that a tracker is in. -/
def Tracker.seg (t : Tracker) : PhaseSeg := ⟨t.t0, t.phi0, t.rate, t.state, t.epoch⟩

/-- The stretch that holds the instant `at_`, in fine units, and the phase there. -/
def Tracker.segAt (t : Tracker) (at_ : Int) : PhaseSeg × Rat :=
  let g := ((t.seg :: t.past).find? fun g => decide (g.t0 ≤ at_)).getD (t.past.getLast?.getD t.seg)
  (g, g.phi0 + g.rate * ((max 0 (at_ - g.t0) : Int) : Rat))

/-- An edge that counts as the `k`-th after the last in Locked or as a return from Coasting (R64, R65). φ(t_i) is the phase
of the stretch that held t_i. The current rate of E is the one in force before this edge's update; at rate 0 E saturates by
the sign of the difference. DEDUCED, log entry 13; DESIGN CHOICE, log entry 45. -/
def Tracker.follow (c : TrkCfg) (t : Tracker) (e : EdgeRec) (tp : Int) (k : Nat) (d : Rat) : Tracker :=
  let p := smoothPeriod c t.p d
  let count := t.count + k
  let phi : Rat := t.origin + (count : Rat) / c.ept
  let now := t.phase tp
  let dt : Rat := (e.stamp : Rat) + (p : Rat) / 256 - tp
  let rate := if dt ≤ 0 then freeRate c p else max 0 ((phi + 1 / (c.ept : Rat) - now) / dt)
  let diff := phi - (t.segAt e.stamp).2
  let err : Int :=
    if t.rate = 0 then (if diff = 0 then 0 else if diff < 0 then -2 ^ 31 else 2 ^ 31 - 1)
    else satSigned 32 (Config.toWhole .trackerError (diff / t.rate))
  { t with state := .locked, p := p, last := e.stamp, count := count, t0 := tp, phi0 := now, rate := rate, err := err }

/-- Entry to Locked with the lock edge `e` (R67). DEDUCED, log entry 13. -/
def Tracker.lock (c : TrkCfg) (t : Tracker) (e : EdgeRec) (tp : Int) (p : Nat) : Tracker :=
  let origin := if t.lockedOnce then t.phi0.floor.toNat + 1 else 0
  let rate := freeRate c p
  { t with state := .locked, p := p, last := e.stamp, count := 0, origin := origin, t0 := tp, rate := rate,
           phi0 := origin + rate * ((tp - e.stamp : Int) : Rat), epoch := (t.epoch + 1) % 256,
           locks := t.locks + 1, err := 0,
           lockedOnce := true }

/-- One edge in the tracker, by the table of R64; `tp` is the start of the tick from which a new rate counts, `hit` says
that the edge is the first at or after an index edge. -/
def Tracker.edge (c : TrkCfg) (t : Tracker) (e : EdgeRec) (tp : Int) (hit : Bool) : TrkOut :=
  let d := satPeriod ((e.stamp - t.last).toNat * 256)
  let slip := if e.rev then 1 else 0
  match t.state with
  | .lost => ⟨{ t with state := .unlocked, haveFirst := true, last := e.stamp, good := 0 }, slip, 0, 0⟩
  | .unlocked =>
    if e.rev ∨ ¬ t.haveFirst then ⟨{ t with haveFirst := true, last := e.stamp }, slip, 0, 0⟩
    else ⟨{ t with state := .acquiring, p := d, last := e.stamp, good := 0 }, 0, 0, 0⟩
  | .acquiring =>
    if e.rev ∨ ¬ goodInterval c t.p d 1 then ⟨{ t with p := d, last := e.stamp, good := 0 }, slip, 0, 0⟩
    else
      let p := smoothPeriod c t.p d
      if t.good + 1 ≥ c.acq ∧ (c.index = false ∨ hit) then ⟨t.lock c e tp p, 0, 0, 0⟩
      else ⟨{ t with p := p, last := e.stamp, good := t.good + 1 }, 0, 0, 0⟩
  | .locked =>
    if e.rev ∨ ¬ goodInterval c t.p d 1 then
      ⟨{ t.hold tp with state := .acquiring, last := e.stamp, good := 0 }, 1, 0, 0⟩
    else if c.index ∧ hit ∧ (t.count + 1) % c.ept ≠ 0 then
      ⟨{ t.hold tp with state := .acquiring, last := e.stamp, good := 0 }, 0, 0, 1⟩
    else ⟨t.follow c e tp 1 d, 0, 0, 0⟩
  | .coasting =>
    let k := (Config.nearest .coastSteps ((d : Rat) / t.p)).toNat
    if e.rev = false ∧ 1 ≤ k ∧ goodInterval c t.p d k then ⟨t.follow c e tp k ((d : Rat) / k), 0, k - 1, 0⟩
    else ⟨{ t.hold tp with state := .acquiring, last := e.stamp, good := 0 }, 1, 0, 0⟩

/-- `s` with tracker `n` replaced; a change of its state sets its bit of LCS_RIRQ (R64). -/
def State.putTrk (s : State) (n : Nat) (t : Tracker) : State :=
  let old := s.trk n
  let s' := s.setTrk n (if t.seg = old.seg then t else { t with past := (old.seg :: t.past).take 64 })
  if old.state = t.state then s' else s'.setBit Fld.LCS_RIRQ_BITS n

/-- The oldest waiting edge of PRn is processed, eight ticks after it arrived (R63, R64, R77). DEDUCED, log entry 13. -/
def State.processEdge (s : State) (n : Nat) : State :=
  let t := s.trk n
  match t.queue with
  | [] => s
  | e :: rest =>
    let c := s.trkCfg n
    let tp : Int := (e.tick + 9 : Nat) * 64
    let hit := t.indexEdges.any (· ≤ e.stamp)
    let o := Tracker.edge c { t with queue := rest, indexEdges := t.indexEdges.filter (fun x => !(x ≤ e.stamp)) } e tp hit
    (((((s.atTick (e.tick + 8)).putTrk n o.trk).addSat Fld.PR_CNT_SLIP o.slip n).addSat Fld.PR_CNT_MISS o.miss n).addSat
      Fld.PR_CNT_DECERR o.decerr n)

/-- Whether an edge of the given kind matches an EDGE field (R87). -/
def edgeMatches (sel : Nat) (k : EdgeKind) : Bool :=
  match k with
  | .rise => sel = 0 || sel = 2
  | .fall => sel = 1 || sel = 2
  | .both => false

/-- An input of R59: none, a DIO pin whose bank is powered (R325), or a comparator that the part has (R3). Only its edges come
in. -/
def State.lcsInput (s : State) (kind idx : Nat) : Bool :=
  match kind with
  | 0 => false
  | 1 => s.dio.vok.testBit (idx / 32)
  | _ => decide (idx < s.part.numWM)

/-- The main input of reference `n`. -/
def State.mainInput (s : State) (n : Nat) : Bool := s.lcsInput (s.f Fld.PR_SRC_KIND n) (s.f Fld.PR_SRC_INDEX n)

/-- An edge taken in by reference `n`, held off against the last one kept (step 4 of R60); one exactly the hold-off after it
is kept. DESIGN CHOICE, log entry 45. -/
def State.keepEdge (s : State) (n : Nat) (stamp : Int) (tick : Nat) (rev : Bool) : State :=
  let t := s.trk n
  let held : Int := (s.f Fld.PR_ADJ_HOLDOFF n) * 4096
  if t.keptMain.any (fun k => stamp - k < held) then s.addSat Fld.PR_CNT_GLITCH 1 n
  else s.setTrk n { t with keptMain := some stamp, queue := t.queue ++ [⟨stamp, tick, rev⟩] }

/-- The pair's even reference decodes quadrature. -/
def State.qdec (s : State) (n : Nat) : Nat := s.f Fld.PR_CFG_QDEC (n - n % 2)

/-- The decoded step of a quadrature edge: whether it counts, and whether it is forward with A leading B (R61). -/
def quadStep (mode : Nat) (isA rise other : Bool) : Bool × Bool :=
  (mode = 3 || (isA && (mode = 2 || rise)), if isA then rise != other else rise == other)

/-- The latest quadrature edge of PR2k is discarded after all: the other phase changed in its fine unit (R61). -/
def State.undoQuad (s : State) (m : Nat) : State :=
  let t := s.trk m
  match t.undo with
  | none => s
  | some u =>
    (s.setTrk m { t with keptMain := u.keptMain, queue := if u.queued then t.queue.dropLast else t.queue,
                         undo := none }).setF Fld.PR_CNT_GLITCH u.glitch m

/-- One phase of a quadrature pair changes to `rise`. A change in the fine unit of the other phase's is an illegal transition:
DECERR counts, and neither edge stands (R60, R61). -/
def State.quadOne (s : State) (n stamp tick : Nat) (rise : Bool) : State :=
  let m := n - n % 2
  let isA := n % 2 = 0
  let other := s.trk (if isA then m + 1 else m)
  let s' := s.setTrk n { s.trk n with level := rise, lastRaw := some stamp }
  if s.on Fld.PR_CFG_EN m then
    if other.lastRaw = some (stamp : Int) then (s'.undoQuad m).addSat Fld.PR_CNT_DECERR 1 m
    else
      let q := quadStep (s.f Fld.PR_CFG_QDEC m) isA rise (other.level && s.mainInput (m + (if isA then 1 else 0)))
      let fwd := q.2 != s.on Fld.PR_CFG_DIR m
      let k := if q.1 then s'.keepEdge m (stamp + toSigned 16 (s.f Fld.PR_ADJ_DELAY m)) tick (!fwd) else s'
      k.setTrk m { k.trk m with undo := some ⟨(s.trk m).keptMain, s.f Fld.PR_CNT_GLITCH m,
        decide ((s.trk m).queue.length < (k.trk m).queue.length)⟩ }
  else s'

/-- An edge of a quadrature pair: of one phase, or of both in one fine unit, where a phase without an input changes nothing
(R3, R60, R61). -/
def State.quadEdge (s : State) (n stamp tick : Nat) (kind : EdgeKind) : State :=
  let m := n - n % 2
  match kind with
  | .both =>
    let p := if n % 2 = 0 then m + 1 else m
    if s.mainInput p then
      let a := s.trk m
      let b := s.trk (m + 1)
      let s := s.setTrk m { a with level := !a.level, lastRaw := some stamp }
      let s := s.setTrk (m + 1) { b with level := !b.level, lastRaw := some stamp }
      if s.on Fld.PR_CFG_EN m then s.addSat Fld.PR_CNT_DECERR 1 m else s
    else s.quadOne n stamp tick (!(s.trk n).level)
  | _ => s.quadOne n stamp tick (kind == .rise)

/-- An edge of the main input of reference `n` (R60). -/
def State.mainEdge (s : State) (n stamp tick : Nat) (kind : EdgeKind) : State :=
  let s := s.atTick tick
  if !s.mainInput n then s
  else if s.qdec n ≠ 0 then s.quadEdge n stamp tick kind
  else
    let s' := s.setTrk n { s.trk n with level := kind == .rise, lastRaw := some stamp }
    if s.on Fld.PR_CFG_EN n ∧ edgeMatches (s.f Fld.PR_CFG_EDGE n) kind then
      s'.keepEdge n (stamp + toSigned 16 (s.f Fld.PR_ADJ_DELAY n)) tick false
    else s'

def execPrEdge (n stamp tick : Nat) (kind : EdgeKind) (s : State) : Out :=
  onInst n 8 (.next (if s.lclk then s.mainEdge n stamp tick kind else s))

def execPrIndexEdge (n stamp tick : Nat) (kind : EdgeKind) (s : State) : Out :=
  onInst n 8 (.next <|
    if s.lclk ∧ s.lcsInput (s.f Fld.PR_SRC_IKIND n) (s.f Fld.PR_SRC_IINDEX n) ∧ s.on Fld.PR_CFG_EN n ∧ kind = .rise then
      let s := s.atTick tick
      let t := s.trk n
      let st : Int := stamp + toSigned 16 (s.f Fld.PR_ADJ_DELAY n)
      if t.keptIndex.any (fun k => st - k < (s.f Fld.PR_ADJ_HOLDOFF n) * 4096) then s.addSat Fld.PR_CNT_GLITCH 1 n
      else s.setTrk n { t with keptIndex := some st, indexEdges := t.indexEdges ++ [st] }
    else s)

/-- The instant by which the next edge is due: t_last + P (1 + TOL/256), in fine units (R64). -/
def State.edgeDue (s : State) (n : Nat) : Rat :=
  let t := s.trk n
  t.last + ((t.p * (256 + (s.trkCfg n).tol) : Nat) : Rat) / 65536

/-- Locked leaves for Coasting (or Lost) in `tick` when no edge came in time (R64). -/
def State.enterCoast (s : State) (n tick : Nat) : State :=
  let t := s.trk n
  let due := s.edgeDue n
  let at_ : Int := (tick : Int) * 64
  if t.state = .locked ∧ due < at_ ∧ t.t0 ≤ at_ ∧ t.queue.all (fun e => due < e.stamp) then
    let c := s.trkCfg n
    let h := t.hold at_
    (s.atTick tick).putTrk n
      (if c.coast = 0 then { h with state := .lost }
       else { h with state := .coasting, coastFrom := h.phi0, rate := freeRate c t.p })
  else s

/-- Coasting ends in Lost in `tick` once the phase has advanced COAST turns (R64). -/
def State.endCoast (s : State) (n tick : Nat) : State :=
  let t := s.trk n
  let at_ : Int := (tick : Int) * 64
  if t.state = .coasting ∧ t.t0 ≤ at_ ∧ t.coastFrom + (s.f Fld.PR_TRK_COAST n) ≤ t.phase at_ then
    (s.atTick tick).putTrk n { t.hold at_ with state := .lost }
  else s

/-- Reference `n` enters Unlocked because its EN is cleared (R63, R68); the hold-off of R60 forgets the last kept edges.
DESIGN CHOICE, log entry 45. -/
def State.unlockRef (s : State) (n : Nat) : State :=
  let t := s.trk n
  s.putTrk n { t.hold ((s.lcs.time : Int) * 64) with
    state := .unlocked, haveFirst := false, queue := [], indexEdges := [], keptMain := none, keptIndex := none }

/-- PRn_CFG written with the word `w` (R61, R63, R87). An EN bit that QDEC holds at 0 is protected as R554 says and sets WR_IGN;
the QDEC of an odd reference is a field it does not have, and sets none. DESIGN CHOICE, log entry 45. -/
def State.writePrCfg (s : State) (n : Nat) (w : Word) : State :=
  let a := Fld.PR_CFG_EN.addr n 0
  let old := s.word a
  let row : RegRow := ⟨Reg.PR_CFG, 8, 1, [⟨31, 1, .rw, 0⟩, ⟨29, 2, .rw, 0⟩, ⟨28, 1, .rw, 0⟩, ⟨26, 2, .rw, 0⟩,
    ⟨23, 3, .rw, 0⟩, ⟨0, 16, .rw, 0⟩]⟩
  let new := row.apply 0 w
  let new := if new.bits 26 2 = 3 then new.setBits 26 2 0 else new
  let new := if n % 2 = 1 then new.setBits 29 2 0 else new
  let enBit : Word := 0x80000000
  let prot : Word := (if old.bit 31 then ~~~enBit else 0) ||| (if n % 2 = 1 ∧ s.qdec n ≠ 0 then enBit else 0)
  let g := guardWrite old new prot
  let s1 := (s.setWord a g.1).flagIf g.2 Fld.LCS_STAT_WR_IGN
  let s2 := if old.bit 31 ∧ ¬ g.1.bit 31 then s1.unlockRef n else s1
  if n % 2 = 0 ∧ g.1.bits 29 2 ≠ 0 ∧ s2.on Fld.PR_CFG_EN (n + 1) then
    (s2.setF Fld.PR_CFG_EN 0 (n + 1)).unlockRef (n + 1)
  else s2

/-- A write of PRn_CFG.EN alone: ignored for the odd reference of a pair that decodes quadrature (R61). -/
def State.enableRef (s : State) (n : Nat) (en : Bool) : State :=
  let a := Fld.PR_CFG_EN.addr n 0
  let old := s.word a
  let g := guardWrite old (old.setBits 31 1 en.toNat) (if n % 2 = 1 ∧ s.qdec n ≠ 0 then 0x80000000 else 0)
  let s1 := (s.setWord a g.1).flagIf g.2 Fld.LCS_STAT_WR_IGN
  if old.bit 31 ∧ ¬ g.1.bit 31 then s1.unlockRef n else s1

/-- P of reference `n`, rounded to a fine unit (R85). -/
def Tracker.period (t : Tracker) : Nat := (Config.nearest .periodRead ((t.p : Rat) / 256)).toNat

/-- PRn_SNAP: PERIOD, FRAC, TURN, ERR and LAST are latched together (R85). -/
def State.snapRef (s : State) (n : Nat) : State :=
  let t := s.trk n
  let phi := t.phase ((s.lcs.time : Int) * 64)
  let s := s.setPair Fld.PR_PERIOD_LO Fld.PR_PERIOD_HI t.period n
  let s := (s.setF Fld.PR_FRAC (fracOf phi) n).setF Fld.PR_TURN (turnOf phi) n
  let s := s.setF Fld.PR_ERR (ofSigned 32 t.err) n
  s.setPair Fld.PR_LAST_LO Fld.PR_LAST_HI (ofSigned 64 t.last) n

def execPrSnap (n tick : Nat) (s : State) : Out := hostRow (
  onInst n 8 (.next (s.lcsWrite (Reg.PR_SNAP.addr n 0) fun s => (s.atTick tick).snapRef n)))

/-- LCS_TIME_SNAP: LCS_TIME, LCS_SMPQ and LCS_NEXT are latched (R13, R85). -/
def State.snapTime (s : State) : State :=
  let s := s.setPair Fld.LCS_TIME_LO Fld.LCS_TIME_HI s.lcs.time
  let s := s.setPair Fld.LCS_SMPQ_LO Fld.LCS_SMPQ_HI s.smpq
  s.setPair Fld.LCS_NEXT_LO Fld.LCS_NEXT_HI (match s.lcs.next with | some e => e.1 | none => 2 ^ 64 - 1)

def execLcsTimeSnap (tick : Nat) (s : State) : Out :=
  hostRow (.next (s.lcsWrite (Reg.LCS_TIME_SNAP.addr 0 0) fun s => (s.atTick tick).snapTime))

/-! ## Phase alarms -/

/-- The target in force: under heritage its bits [15:0] are taken as zero (R51). -/
def State.target (s : State) (n : Nat) : Nat :=
  let t := s.f Fld.PA_TARGET n
  if s.on Fld.DEV_COMPAT_HERITAGE then t / 65536 * 65536 else t

/-- The instant the phase passes from `a` to below `b`, if the alarm at `target` has one there (R69). -/
def passes (target : Nat) (a b : Rat) : Option Rat :=
  let tau : Rat := (target : Rat) / 2 ^ 32
  let m := (a - tau).ceil
  let inst := m + tau
  if inst < b then some inst else none

/-- A pending shadow takes the place of the target and the filter (R72). -/
def State.loadShadow (s : State) (n : Nat) : State :=
  let a := s.alarm n
  let s := match a.shTarget with | some w => s.setWord (Reg.PA_TARGET.addr n 0) w | none => s
  let s := match a.shFilter with | some w => s.setWord (Reg.PA_FILTER.addr n 0) w | none => s
  (s.setAlarm n { a with shTarget := none, shFilter := none }).setF Fld.PA_CTL_PEND 0 n

/-- The order of broadcast: by tick, alarms before timers, by number (R75). -/
def FiringRec.before (a b : FiringRec) : Bool :=
  a.tick < b.tick || (a.tick = b.tick && ((!a.timer && b.timer) || (a.timer == b.timer && a.num ≤ b.num)))

/-- A record put at its place in the order of broadcast. -/
def insertFiring (r : FiringRec) : List FiringRec → List FiringRec
  | [] => [r]
  | x :: l => if x.before r then x :: insertFiring r l else r :: x :: l

def State.pushFiring (s : State) (r : FiringRec) : State :=
  { s with lcs := { s.lcs with firings := insertFiring r s.lcs.firings } }

/-- The ticks in one prescaled tick (R78). -/
def prescale : Nat → Nat
  | 1 => 256
  | 2 => 65536
  | _ => 1

/-- The ticks from a start or reload of timer `n` to its expiry. -/
def State.timerSpan (s : State) (n : Nat) : Nat :=
  max 1 (s.f Fld.TT_PERIOD n) * prescale (s.f Fld.TT_CTL_PRESC n)

/-- Timer `n` starts in `tick` with the given remainder (R78), and with the COAST of the firing that arms it (false for a
write): its own records carry that. DESIGN CHOICE, log entry 45. -/
def State.startTimer (s : State) (n tick rem : Nat) (coast : Bool) : State :=
  s.setTimer n { running := true, next := tick + s.timerSpan n, rem := rem, coast := coast }

/-- Timer `n` expires: it fires, and reloads or stops (R78, R79). -/
def State.expireTimer (s : State) (n : Nat) : State :=
  let t := s.timer n
  if t.running then
    let rec_ : FiringRec :=
      { tick := t.next, timer := true, num := n, act := s.f Fld.TT_CTL_ACT n, rem := t.rem, coast := t.coast, turn := none,
        dest := 0 }
    let s := ((s.atTick t.next).addWrap Fld.TT_CNT 1 n).pushFiring rec_
    s.setTimer n (if s.on Fld.TT_CTL_PERIODIC n then { t with next := t.next + s.timerSpan n } else Timer.init)
  else s

/-- An expiry of timer `n` in `tick` comes before what else happens to it there (R79). -/
def State.expireFirst (s : State) (n tick : Nat) : State :=
  if (s.timer n).running ∧ (s.timer n).next ≤ tick then s.expireTimer n else s

/-- The timers that alarm `n` arms start in its firing tick, unless they run; an expiry in that tick comes first (R78, R79). -/
def State.armTimers (s : State) (n tick rem : Nat) (coast : Bool) : State :=
  (List.range 32).foldl (fun s k =>
    if s.on Fld.TT_CTL_EN k ∧ s.on Fld.TT_CTL_ARM_EN k ∧ s.f Fld.TT_CTL_ARM_PA k = n then
      let s := s.expireFirst k tick
      if (s.timer k).running then s else s.startTimer k tick rem coast
    else s) s

/-- Alarm `n` fires in `tick` at `inst`, with the phase `a` at the tick's start (R71 to R73). DEDUCED, log entry 13. -/
def State.fireAlarm (s : State) (n tick : Nat) (a inst : Rat) : State :=
  let r := s.f Fld.PA_CTL_REF n
  let t := s.trk r
  let rem := ((inst - a) / t.rate / 64 * 65536).floor.toNat
  let coast := t.state == .coasting
  let rec_ : FiringRec :=
    { tick := tick, timer := false, num := n, act := s.f Fld.PA_CTL_ACT n % 2048, rem := rem, coast := coast,
      turn := some (turnOf inst), dest := 0 }
  let s := (s.setAlarm n { s.alarm n with skip := s.f Fld.PA_FILTER_EVERY_M1 n }).addWrap Fld.PA_CNT 1 n
  let s := (s.setF Fld.PA_LASTT tick n).setF Fld.PA_LASTR_REM rem n
  let s := s.setB Fld.PA_LASTR_COAST coast n
  let s := (s.pushFiring rec_).armTimers n tick rem coast
  s.loadShadow n

/-- Alarm `n` is tested in `tick`: it passes its instant there or not, and fires or skips (R69 to R71, R77). -/
def State.testAlarm (s : State) (n tick : Nat) : State :=
  let a := s.alarm n
  let t := s.trk (s.f Fld.PA_CTL_REF n)
  let from_ : Int := (tick : Int) * 64
  if s.on Fld.PA_CTL_EN n ∧ t.state.tracking ∧ t.t0 ≤ from_ ∧ a.enTick < tick ∧ a.lastTick.all (· < tick) then
    match passes (s.target n) (t.phase from_) (t.phase (from_ + 64)) with
    | none => s
    | some inst =>
      let s := (s.atTick tick).setAlarm n { a with lastTick := some tick }
      if a.skip = 0 then s.fireAlarm n tick (t.phase from_) inst
      else s.setAlarm n { a with lastTick := some tick, skip := a.skip - 1 }
  else s

def execAlarmFiring (n tick : Nat) (s : State) : Out :=
  onInst n 256 (.next (if s.lclk then s.testAlarm n tick else s))

/-- PAn_CTL written with the word `w` (R71, R72, R88). -/
def State.writePaCtl (s : State) (n : Nat) (w : Word) : State :=
  let a := Reg.PA_CTL.addr n 0
  let old := s.word a
  let new := (w &&& 0xB80007FF) ||| (old &&& 0x40000000)
  let g := guardWrite old new (if old.bit 31 then 0x38000FFF else 0)
  let s := (s.setWord a g.1).flagIf g.2 Fld.LCS_STAT_WR_IGN
  match old.bit 31, g.1.bit 31 with
  | false, true =>
    let every := s.f Fld.PA_FILTER_EVERY_M1 n
    s.setAlarm n { s.alarm n with skip := min (s.f Fld.PA_FILTER_SKIP n) every, enTick := s.lcs.time }
  | true, false => s.loadShadow n
  | _, _ => s

def execPaEnable (n tick : Nat) (en : Bool) (s : State) : Out := hostRow (
  onInst n 256 (.next (s.lcsWrite (Reg.PA_CTL.addr n 0) fun s =>
    let s := s.atTick tick
    s.writePaCtl n ((s.word (Reg.PA_CTL.addr n 0)).setBits 31 1 (if en then 1 else 0)))))

/-- PAn_TARGET written with `w`: at once while EN = 0, else to the shadow (R72). -/
def State.writePaTarget (s : State) (n : Nat) (w : Word) : State :=
  if s.on Fld.PA_CTL_EN n then
    (s.setAlarm n { s.alarm n with shTarget := some w }).flag Fld.PA_CTL_PEND n
  else s.setWord (Reg.PA_TARGET.addr n 0) w

/-- PAn_FILTER written with `w`, as PAn_TARGET (R72). -/
def State.writePaFilter (s : State) (n : Nat) (w : Word) : State :=
  if s.on Fld.PA_CTL_EN n then
    (s.setAlarm n { s.alarm n with shFilter := some w }).flag Fld.PA_CTL_PEND n
  else s.setWord (Reg.PA_FILTER.addr n 0) w

/-! ## Time timers -/

/-- TTn_COUNT: the prescaled ticks still to count. -/
def State.timerCount (s : State) (n : Nat) : Nat :=
  let t := s.timer n
  if t.running then
    let d := prescale (s.f Fld.TT_CTL_PRESC n)
    (t.next - s.lcs.time + d - 1) / d
  else 0

/-- The tick in which a running timer expires after its divider has changed from `old` to `new` in the present tick: the count
and the ticks since its last decrement stay, and the next decrement comes once `new` ticks have passed since then.
DESIGN CHOICE, log entry 45. -/
def Timer.rescale (t : Timer) (now old new : Nat) : Nat :=
  let left := t.next - now
  let count := (left + old - 1) / old
  let since := count * old - left
  if count = 0 then t.next else now + (count - 1) * new + max 1 (new - since)

/-- TTn_CTL written with the word `w` (R78, R89). While EN = 0 neither START nor an arming alarm starts the timer.
DESIGN CHOICE, log entry 45. -/
def State.writeTtCtl (s : State) (n : Nat) (w : Word) : State :=
  let a := Reg.TT_CTL.addr n 0
  let new := w &&& 0xBFFC07F7
  let new := if new.bits 27 2 = 3 then new.setBits 27 2 0 else new
  let was := prescale (s.f Fld.TT_CTL_PRESC n)
  if ¬ new.bit 31 then (s.setWord a new).setTimer n Timer.init
  else if w.bit 30 then ((s.expireFirst n s.lcs.time).setWord a new).startTimer n s.lcs.time 0 false
  else
    let t := s.timer n
    let s := s.setWord a new
    let now := prescale (s.f Fld.TT_CTL_PRESC n)
    if t.running ∧ was ≠ now then s.setTimer n { t with next := t.rescale s.lcs.time was now } else s

def execTimerStart (n tick : Nat) (s : State) : Out := hostRow (
  onInst n 32 (.next (s.lcsWrite (Reg.TT_CTL.addr n 0) fun s =>
    let s := s.atTick tick
    s.writeTtCtl n (s.word (Reg.TT_CTL.addr n 0) ||| 0x40000000))))

def execTimerDisable (n : Nat) (s : State) : Out := hostRow (
  onInst n 32 (.next <| s.lcsWrite (Reg.TT_CTL.addr n 0) fun s =>
    s.writeTtCtl n ((s.word (Reg.TT_CTL.addr n 0)).setBits 31 1 0)))

def execTimerExpiry (n : Nat) (s : State) : Out :=
  onInst n 32 (.next (if s.lclk then s.expireTimer n else s))

/-! ## Captures (R80) -/

def execCaptureEdge (k stamp : Nat) (kind : EdgeKind) (s : State) : Out :=
  onInst k 16 (.next <|
    if s.lclk ∧ s.on Fld.CAP_CTL_EN k ∧ s.lcsInput (s.f Fld.CAP_CTL_KIND k) (s.f Fld.CAP_CTL_INDEX k) ∧
        edgeMatches (s.f Fld.CAP_CTL_EDGE k) kind then
      let l := s.capture k
      if l.length < 16 then
        let g := (s.trk (s.f Fld.CAP_CTL_REF k)).segAt stamp
        let e : CapEntry :=
          { ts := stamp, turn := turnOf g.2, frac := fracOf g.2, epoch := g.1.epoch, state := g.1.state.code }
        ((s.atTick (stamp / 64)).setCapture k (l ++ [e])).setBit Fld.LCS_RIRQ_BITS (8 + k)
      else s.flag Fld.CAP_STAT_OVF k
    else s)

def execCapPop (k : Nat) (s : State) : Out := hostRow (
  onInst k 16 (.next (s.lcsWrite (Reg.CAP_POP.addr k 0) fun s => s.setCapture k ((s.capture k).drop 1))))

/-! ## The next known event (R81) -/

/-- The tick of the first firing of alarm `n` from the present tick on, at the present rate. -/
def State.alarmNext (s : State) (n : Nat) : Option Nat :=
  let a := s.alarm n
  let t := s.trk (s.f Fld.PA_CTL_REF n)
  if s.on Fld.PA_CTL_EN n ∧ t.state.tracking ∧ 0 < t.rate then
    let tick := max s.lcs.time (a.enTick + 1)
    let tick := match a.lastTick with | some l => max tick (l + 1) | none => tick
    let tau : Rat := (s.target n : Rat) / 2 ^ 32
    let phi := t.phase ((tick : Int) * 64)
    let inst : Rat := (phi - tau).ceil + tau + a.skip
    some ((t.t0 + (inst - t.phi0) / t.rate) / 64).floor.toNat
  else none

/-- The earlier of two predicted firings; the first where they meet: the lowest alarm, and an alarm before a timer.
DESIGN CHOICE, log entry 45. -/
def earlier (a : Option (Nat × Bool × Nat)) (b : Option (Nat × Bool × Nat)) : Option (Nat × Bool × Nat) :=
  match a, b with
  | none, b => b
  | a, none => a
  | some x, some y => if y.1 < x.1 then some y else some x

/-- The earliest predicted firing (R81). -/
def State.nextKnown (s : State) : Option (Nat × Bool × Nat) :=
  let al := (List.range 256).foldl (fun b n => earlier b ((s.alarmNext n).map fun t => (t, false, n))) none
  (List.range 32).foldl (fun b n =>
    earlier b (if (s.timer n).running then some ((s.timer n).next, true, n) else none)) al

/-- LCS_NEXT and LCS_NEXT_SRC take the earliest predicted firing; with none, LCS_NEXT_SRC keeps what it holds.
DESIGN CHOICE, log entry 45. -/
def State.updateNext (s : State) (tick : Nat) : State :=
  let s := s.atTick tick
  let e := s.nextKnown
  let s := { s with lcs := { s.lcs with next := e } }
  match e with
  | some (_, tmr, n) => (s.setB Fld.LCS_NEXT_SRC_TMR tmr).setF Fld.LCS_NEXT_SRC_NUM n
  | none => s

/-! ## The PLL -/

/-- At a relock every enabled reference enters Lost (R58, R68). -/
def State.loseRefs (s : State) : State :=
  (List.range 8).foldl (fun s n =>
    if s.on Fld.PR_CFG_EN n then
      let t := s.trk n
      s.putTrk n { t.hold ((s.lcs.time : Int) * 64) with state := .lost, queue := [], indexEdges := [] }
    else s) s

/-- Time set to `t`; running timers keep the counts they hold (R58). -/
def State.resumeTime (s : State) (t : Nat) : State :=
  let old := s.lcs.time
  let s := { s with lcs := { s.lcs with time := t } }
  (List.range 32).foldl (fun s n =>
    let m := s.timer n
    if m.running then s.setTimer n { m with next := t + (m.next - old) } else s) s

/-- A write of CLKSRC or REFDIV took effect: the PLL locks anew (R55, R57). -/
def State.pllRestart (s : State) : State :=
  { s with lcs := { s.lcs with pll := .waiting, smpEdge := none, smpq := none, smpStalled := false } }

/-- LCS_CTL written with the word `w` (R54, R86). A write that leaves every field as it is changes nothing, and SMP_VALID stays.
DESIGN CHOICE, log entry 45. -/
def State.writeLcsCtl (s : State) (w : Word) : State :=
  let a := Reg.LCS_CTL.addr 0 0
  let old := s.word a
  let src := if w.bits 16 2 = 3 then old.bits 16 2 else w.bits 16 2
  let div := max 40 (min 400 (w.bits 0 9))
  let new : Word := ((0 : Word).setBits 16 2 src).setBits 0 9 div
  if new = old then s.flagIf (w.bits 16 2 = 3) Fld.LCS_STAT_WR_IGN
  else if s.mode = .blank then ((s.setWord a new).pllRestart).flagIf (w.bits 16 2 = 3) Fld.LCS_STAT_WR_IGN
  else s.flag Fld.LCS_STAT_WR_IGN

/-- The PLL locks first after Reset or a clock write: the dividers align and LCS_TIME starts from 0 (R55).
DEDUCED, log entry 14. -/
def State.pllLock (s : State) : State :=
  if s.lcs.pll = .waiting ∧ s.mode ≠ .reset then
    (({ s with lcs := { s.lcs with pll := .locked } } : State).loseRefs).resumeTime 0
  else s

/-- The PLL loses lock: Longcase stands (R58). -/
def State.pllLost (s : State) : State :=
  if s.lcs.pll = .locked then { s with lcs := { s.lcs with pll := .lost } } else s

/-- The PLL locks again (R58). -/
def State.pllRelock (s : State) : State :=
  if s.lcs.pll = .lost then
    let s := { s with lcs := { s.lcs with pll := .locked, smpEdge := none, smpq := none } }
    let s := s.addSat Fld.LCS_STAT_PLL_SLIPS 1
    (s.loseRefs).resumeTime ((s.lcs.time + 4) / 5 * 5)
  else s

end Sys2Proof.Machine
end

