-- ==== Sys2Proof/Machine/Ports.lean ====
section
/-! DEFINITION. Port front ends: ranges, trims, the clamp, and which ports are live (R90 to R95, R362). Voltages are
rational numbers of volts. -/

namespace Sys2Proof.Machine

/-- The input gain of a range code: ×4, ×2, ×1, ×0.5, ×0.25 (R90). -/
def portGain (range : Nat) : Rat := 4 / 2 ^ range

/-- The clamp threshold of a range at the pins: 1.1 times its full scale (R95). -/
def clampThreshold (range : Nat) : Rat := 11 / 10 / portGain range

/-- A voltage limited to ± `top`. -/
def limited (top v : Rat) : Rat := max (-top) (min top v)

/-- Whether the ports have come up: from Load on they are off until the I/O-enable step (R362). -/
def State.portsUp (s : State) : Bool :=
  match s.mode with
  | .reset | .load | .verify | .faultMode => false
  | .wakeUp => s.dio.ioOn
  | _ => true

/-- APn_STAT.ACTIVE: the port is enabled and powered, which it is not in Slumber (R117, R362, R507). -/
def State.portActive (s : State) (n : Nat) : Bool := s.on Fld.AP_CTL_EN n && s.portsUp && s.mode != .slumber

/-- The trim register in force: the one that RANGE and DIR select (R94). An output range above 2 is stored by no write. -/
def State.portTrim (s : State) (n : Nat) : Word :=
  let r := s.f Fld.AP_CTL_RANGE n
  if s.on Fld.AP_CTL_DIR n then s.word (Reg.AP_OTRIM.addr n (min 2 r)) else s.word (Reg.AP_ITRIM.addr n (min 4 r))

/-- A voltage after a trim register: OFS in steps of 2^-13 V, GAIN in relative steps of 2^-14 (R94). -/
def trimBy (w : Word) (v : Rat) : Rat :=
  v * (1 + (toSigned 10 (w.bits 0 10) : Rat) / 2 ^ 14) + (toSigned 10 (w.bits 16 10) : Rat) / 2 ^ 13

/-- What the front end drives into the matrix, from the differential voltage at the pins (R90, R92, R94, R95). -/
def State.frontEnd (s : State) (n : Nat) (v : Rat) : Rat :=
  let r := s.f Fld.AP_CTL_RANGE n
  trimBy (s.portTrim n) (limited (clampThreshold r) v * portGain r)

/-- What an output port drives the pins to, from the signal at its DRV terminal; none where the pins are high-impedance, in
Blank too, where user I/O is disabled (R33, R90, R92, R94, R362). -/
def State.pinDrive (s : State) (n : Nat) (v : Rat) : Option Rat :=
  if s.portActive n && s.mode != .blank && s.on Fld.AP_CTL_DIR n then
    some (trimBy (s.portTrim n) v / portGain (s.f Fld.AP_CTL_RANGE n))
  else none

/-- The sense path: the pin voltage scaled by the range, in both directions, in Slumber too; at the common mode while the port
is not enabled or not up (R93, R362). -/
def State.sensed (s : State) (n : Nat) (v : Rat) : Rat :=
  if s.on Fld.AP_CTL_EN n && s.portsUp then v * portGain (s.f Fld.AP_CTL_RANGE n) else 0

/-- What this die presents at each leg of port n, in ohms (R91, R550): in a pair a termination is 100 (R529), and stays so after
a takeover until the survivor switches (R535); before the I/O-enable step and in Fault the pin is high-impedance (R362). -/
def State.legOhms (s : State) (n : Nat) : Nat :=
  if s.on Fld.AP_CTL_EN n && s.on Fld.AP_CTL_TERM n && s.portsUp then
    if s.on Fld.TWN_STAT_PAIRED || s.twin.foUntil.any fun t => decide (s.lcs.time < t) then 100 else 50
  else 1000000

/-! ## Numbers that are no fractions (log entry 18) -/

/-- The greatest number below 2^`bits` whose `k`-th power is at most `x`. -/
def rootFloor (k x : Nat) : Nat → Nat
  | 0 => 0
  | b + 1 =>
    -- the bits above `b` are found first, in units of 2^(b+1)
    let r := 2 * rootFloor k (x / 2 ^ k) b
    if (r + 1) ^ k ≤ x then r + 1 else r

/-- The `k`-th root of a fraction, to 2^-48. DESIGN CHOICE, log entry 18. -/
def ratRoot (k : Nat) (x : Rat) : Rat := (rootFloor k (x * 2 ^ (48 * k)).floor.toNat 80 : Rat) / 2 ^ 48

/-- A voltage on the grid of 2^-48 V. -/
def grid (x : Rat) : Rat := ((x * 2 ^ 48).floor : Rat) / 2 ^ 48

/-- e^-x for x ≥ 0, from 40 terms of the series of e^x. DESIGN CHOICE, log entry 18. -/
def expNeg (x : Rat) : Rat :=
  let y := ((List.range 40).foldl (fun (a : Rat × Rat) (k : Nat) => (a.1 + a.2, a.2 * x / ((k : Rat) + 1))) (0, 1)).1
  grid (1 / y)

end Sys2Proof.Machine
end

