-- ==== Sys2Proof/Machine/Vectors.lean ====
section
/-! DEFINITION. Channels and their agents (R423, R424); the interrupt vectors: their causes, and what becomes of a vector when
causes fall or a host access passes (R437, R460 to R462). -/

namespace Sys2Proof.Machine

def State.chan (s : State) (c : Nat) : Chan := Tab.get (fun _ => Chan.init) s.chans c
def State.setChan (s : State) (c : Nat) (x : Chan) : State :=
  { s with chans := Tab.put (fun _ => Chan.init) s.chans c x }

/-! ## Agents (R423, R424) -/

inductive Agent
  | host (func ctx : Nat)
  | bureau
  | port (k a : Nat)
  | twin
  deriving DecidableEq, Repr

/-- The agent a code names; none where the code is invalid. -/
def Agent.ofCode (c : Nat) : Option Agent :=
  let kind := c / 2 ^ 28
  if 2 ^ 32 ≤ c then none
  else if kind = 1 then
    let f := c / 2 ^ 16 % 32
    let x := c % 2 ^ 10
    if c = 2 ^ 28 + f * 2 ^ 16 + x then some (.host f x) else none
  else if kind = 2 then (if c = 2 ^ 29 then some .bureau else none)
  else if kind = 3 then
    let k := c / 256 % 32
    let a := c % 2
    if c = 3 * 2 ^ 28 + k * 256 + a ∧ k < 24 then some (.port k a) else none
  else if kind = 4 then (if c = 2 ^ 30 then some .twin else none)
  else none

def Agent.code : Agent → Nat
  | .host f x => 2 ^ 28 + f * 2 ^ 16 + x
  | .bureau => 2 ^ 29
  | .port k a => 3 * 2 ^ 28 + k * 256 + a
  | .twin => 2 ^ 30

/-- Whether the end with code `c` belongs to function `f` (R424). -/
def ofFunction (f c : Nat) : Bool :=
  match Agent.ofCode c with
  | some (.host g _) => g == f
  | _ => false

/-! ## Interrupts of a channel -/

/-- The interrupt of the sender end, and of the receiver end (R437). -/
def Chan.sndIrq (x : Chan) : Bool :=
  x.alloc && ((x.sndCtl.bit 31 && x.emptyEv) || (x.sndCtl.bit 30 && (x.aborted || x.timeout)))
def Chan.rcvIrq (x : Chan) : Bool :=
  x.alloc && ((x.rcvCtl.bit 31 && x.arrive) || (x.rcvCtl.bit 30 && x.db != 0) || (x.rcvCtl.bit 29 && x.srst))

/-- The 32 truth values of a summary register. -/
def bits32 (p : Nat → Bool) : Word := BitVec.ofNat 32 (((List.range 32).map fun b => if p b then 2 ^ b else 0).sum)

/-- Whether an enabled latch bit of monitor `n` is set (R242). -/
def State.wmPending (s : State) (n : Nat) : Bool :=
  (s.on Fld.WM_LATCH_UHIT n && s.on Fld.WM_CTL_IRQEN_U n) || (s.on Fld.WM_LATCH_LHIT n && s.on Fld.WM_CTL_IRQEN_L n)

/-- WM_ISUMm: the monitors with a latched hit that is enabled (R242). -/
def State.wmSum (s : State) (m : Nat) : Word :=
  bits32 fun k => decide (32 * m + k < s.part.numWM) && s.wmPending (32 * m + k)

def State.func (s : State) (f : Nat) : PciFunc := Tab.get (fun _ => PciFunc.init) s.host.funcs f
def State.setFunc (s : State) (f : Nat) (x : PciFunc) : State :=
  { s with host := { s.host with funcs := Tab.put (fun _ => PciFunc.init) s.host.funcs f x } }

/-- The function holds an uncorrectable error in AER: the bit of its status register. PRESUMED, log entry 37. -/
def State.aer (s : State) (func k : Nat) : State :=
  s.setFunc func { s.func func with aer := (s.func func).aer ||| 2 ^ k }

/-- The function holds an advisory non-fatal error, a correctable one. PRESUMED, log entry 37. -/
def State.aerAdvisory (s : State) (func : Nat) : State :=
  s.setFunc func { s.func func with cor := (s.func func).cor ||| 2 ^ 13 }

/-! ## Causes of the vectors (R460 to R462) -/

/-- A flag register under its enables. -/
def State.under (s : State) (flags enables : Nat) : Word := s.word flags &&& s.word enables

def boolWord (b : Bool) : Word := if b then 1 else 0

/-- The flags of ring `r` under its IRQEN (R422). -/
def State.ringIrq (s : State) (r : Nat) : Word :=
  s.word (Reg.DMA_IRQ.addr r 0) &&& BitVec.ofNat 32 (s.f Fld.DMA_CFG_IRQEN r)

/-- The sources of vector `v` of the PF. -/
def State.pfSources (s : State) (v : Nat) : List Word :=
  if v < 20 then
    (match v with
    | 0 => [BitVec.ofNat 32 (s.f Fld.DEV_MODE_CHG)]
    | 1 => [BitVec.ofNat 32 (s.f Fld.BUR_STATUS_DONE)]
    | 2 => [s.under Reg.SCRB_IRQ.base Reg.SCRB_IRQEN.base]
    | 3 => [s.under Reg.SCRB_RLD_IRQ.base Reg.SCRB_RLD_IRQEN.base]
    | 12 => [s.word Reg.LCS_TIRQ.base]
    | 13 => [s.word Reg.LCS_RIRQ.base]
    | 17 => [s.under Reg.HOST_STAT.base Reg.HOST_IRQEN.base]
    | 18 => [s.under Reg.PWR_IRQ.base Reg.PWR_IRQEN.base]
    | 19 => [s.under Reg.TWN_IRQ.base Reg.TWN_IRQEN.base]
    | _ => if v < 12 then [s.word (Reg.LCS_AIRQ.addr (v - 4) 0)] else [s.wmSum (v - 14)])
  else if v < 32 then []
  else if v < 56 then [s.under (Reg.CG_IRQ.addr (v - 32) 0) (Reg.CG_IRQEN.addr (v - 32) 0)]
  else if v < 80 then [s.under (Reg.CG_ROT_IRQ.addr (v - 56) 0) (Reg.CG_ROT_IRQEN.addr (v - 56) 0)]
  else if v < 128 then [s.under (Reg.FC_IRQ.addr (v - 80) 0) (Reg.FC_IRQEN.addr (v - 80) 0)]
  else if v < 176 then [s.under (Reg.FC_RS_IRQ.addr (v - 128) 0) (Reg.FC_RS_IRQEN.addr (v - 128) 0)]
  else if v < 200 then [s.under (Reg.DA_IRQ.addr (v - 176) 0) (Reg.DA_IRQEN.addr (v - 176) 0)]
  else if v < 512 then []
  else if v < 768 then
    (List.range 4).map fun i => let x := s.chan (256 * i + v - 512); boolWord (ofFunction 0 x.snd && x.sndIrq)
  else if v < 1024 then
    (List.range 4).map fun i => let x := s.chan (256 * i + v - 768); boolWord (ofFunction 0 x.rcv && x.rcvIrq)
  else
    (List.range 4).map fun i =>
      let r := 1024 * i + v - 1024
      if s.f Fld.DMA_CFG_FUNC r = 0 then s.ringIrq r else 0

/-- The sources of vector `v` of VF `f`. -/
def State.vfSources (s : State) (f v : Nat) : List Word :=
  if v < 32 then
    (List.range 128).map fun i =>
      let r := 32 * i + v
      if s.f Fld.DMA_CFG_FUNC r = f then s.ringIrq r else 0
  else if v < 48 then
    (List.range 64).map fun i => let x := s.chan (16 * i + v - 32); boolWord (ofFunction f x.snd && x.sndIrq)
  else
    (List.range 64).map fun i => let x := s.chan (16 * i + v - 48); boolWord (ofFunction f x.rcv && x.rcvIrq)

def State.sources (s : State) (f v : Nat) : List Word := if f = 0 then s.pfSources v else s.vfSources f v

/-- The cause of a vector: the OR of its sources. -/
def State.cause (s : State) (f v : Nat) : Bool := (s.sources f v).any (· != 0)

/-- The vectors a function has. -/
def vectorsOf (f : Nat) : Nat := if f = 0 then 2048 else 64

/-! ## Vectors -/

def State.vec (s : State) (f v : Nat) : Vector := Tab.get (fun _ => Vector.init) s.host.vecs (2048 * f + v)

def State.setVec (s : State) (f v : Nat) (x : Vector) : State :=
  { s with host := { s.host with vecs := Tab.put (fun _ => Vector.init) s.host.vecs (2048 * f + v) x } }

/-- The table entry's register of a vector. -/
def msixReg (f v : Nat) (pf vf : FieldRef) : Nat := if f = 0 then pf.addr v 0 else vf.addr f v

/-- Whether a vector can send: MSI-X enabled, the function and the vector unmasked, and no fence before it (R532). -/
def State.canSend (s : State) (f v : Nat) : Bool :=
  !s.twin.fenced && (s.func f).msixEnable && !(s.func f).msixMask && !(s.word (msixReg f v Reg.MSIX_CTRL Reg.VF_MSIX_CTRL)).bit 0

/-- What becomes of vector `v` when the machine goes from `before` to `s`: a rise that no look has met yet has sent its
message; a cause that fell takes Pending with it; by an access of the host (`acc`), a source lost under a cause that stays
sends again, and a cause met by a mask has sent before. DESIGN CHOICE, log entry 37. -/
def State.noteVector (s before : State) (acc : Bool) (f v : Nat) : State :=
  let c := before.cause f v
  let can := before.canSend f v
  let x := s.vec f v
  let x := if c then x else { x with cause := false, pendingBit := false }
  let rose := c && can && (!x.cause || x.pendingBit)
  if !s.cause f v then s.setVec f v { cause := false, pendingBit := false, owed := x.owed || rose }
  else
    let lost := acc && c && ((before.sources f v).zip (s.sources f v)).any fun p => p.1 &&& ~~~p.2 != 0
    if lost then s.setVec f v { cause := true, pendingBit := !can, owed := x.owed || can }
    else if rose && !s.canSend f v then s.setVec f v { cause := true, pendingBit := false, owed := true }
    else s.setVec f v x

/-- The vectors of which something is recorded or can be sent. -/
def State.liveVectors (s : State) : List (Nat × Nat) :=
  s.host.vecs.map (fun e => (e.1 / 2048, e.1 % 2048)) ++
    s.host.funcs.flatMap fun e => if e.2.msixEnable then (List.range (vectorsOf e.1)).map fun v => (e.1, v) else []

def State.noteVectors (s before : State) (acc : Bool) (vs : List (Nat × Nat)) : State :=
  vs.foldl (fun s e => s.noteVector before acc e.1 e.2) s

/-- The vectors of the two ends of a channel (R460, R461); a secure channel has none. -/
def chanVectors (c : Nat) (x : Chan) : List (Nat × Nat) :=
  let one := fun (code pf vf : Nat) => match Agent.ofCode code with
    | some (.host f _) => [(f, if f = 0 then pf + c % 256 else vf + c % 16)]
    | _ => []
  if c < 1024 ∧ x.alloc then one x.snd 512 32 ++ one x.rcv 768 48 else []

/-- Channel `c` becomes `x` by an event that may lower its interrupts. -/
def State.lowerChan (s : State) (c : Nat) (x : Chan) : State :=
  (s.setChan c x).noteVectors s false (chanVectors c (s.chan c))

end Sys2Proof.Machine
end

