-- ==== Sys2Proof/Machine/Wake.lean ====
section
/-! DEFINITION. Waking from a low-power state (R511, R513), shared by everything that wakes. -/

namespace Sys2Proof.Machine

def Mode.low : Mode → Bool
  | .doze | .nap | .slumber => true
  | _ => false

/-- REF_SETTLED of group `g` becomes `b`; each change sets REF_CHG (R126). -/
def State.setSettled (s : State) (g : Nat) (b : Bool) : State :=
  if s.on Fld.CG_STAT_REF_SETTLED g = b then s
  else (s.setB Fld.CG_STAT_REF_SETTLED b g).flag Fld.CG_IRQ_REF_CHG g

/-- The exit from a low-power state starts (R512): out of Nap and Slumber every reference must settle again (R126, R515).
DEDUCED, log entry 21. -/
def State.leave (s : State) : State :=
  let s := { s with pwr := { s.pwr with stage := .leaving, leftAt := some s.lcs.time } }
  if s.mode = .doze then s else (List.range s.part.numCG).foldl (fun s g => s.setSettled g false) s

/-- A wake with cause `why` (R511): during entry it is kept until the entry completes, in the state the exit starts, during
the exit it has no effect (R513). In Run it discards a selection made in its tick (R41). -/
def State.wakeOwn (s : State) (why : Nat) : State :=
  if s.mode.low then
    match s.pwr.stage with
    | .entering =>
      if s.pwr.wakeHeld then s
      else ({ s with pwr := { s.pwr with wakeHeld := true, cause := if why = 5 then 2 else 13 } }).setF Fld.PWR_STAT_WHY why
    | .asleep =>
      (({ s with pwr := { s.pwr with cause := if why = 5 then 2 else 13 } }).setF Fld.PWR_STAT_WHY why).leave
    | _ => s
  else if s.mode = .run then { s with pwr := { s.pwr with wakeSeen := some s.lcs.time } }
  else s

/-- A wake at this die's own hand: a standby leaves a low-power state with its primary alone (R524). -/
def State.wake (s : State) (why : Nat) : State := if s.standby then s else s.wakeOwn why

end Sys2Proof.Machine
end

