-- ==== Sys2Proof/Machine/Monitor.lean ====
section
/-! DEFINITION. Window monitors (chapter 09 of spec/). Voltages are volts of the internal range. -/

namespace Sys2Proof.Machine

def State.wm (s : State) (n : Nat) : Monitor := Tab.get (fun _ => Monitor.init) s.monitors n
def State.setWm (s : State) (n : Nat) (m : Monitor) : State :=
  { s with monitors := Tab.put (fun _ => Monitor.init) s.monitors n m }

def Monitor.side (m : Monitor) (up : Bool) : WmSide := if up then m.upper else m.lower
def Monitor.setSide (m : Monitor) (up : Bool) (d : WmSide) : Monitor :=
  if up then { m with upper := d } else { m with lower := d }

/-- A comparator's threshold: the code in steps of 2^-9 V, and the trim, which moves the switching points up, in steps of
0.25 mV (R231, R232). DESIGN CHOICE, log entry 16. -/
def State.wmThreshold (s : State) (n : Nat) (up : Bool) : Rat :=
  let code := toSigned 10 (s.f (if up then Fld.WM_THR_UTH else Fld.WM_THR_LTH) n)
  let trim := toSigned 8 (s.f (if up then Fld.WM_TRIM_OFS_U else Fld.WM_TRIM_OFS_L) n)
  (code : Rat) / 512 + (trim : Rat) / 4000

/-- The hysteresis band of a comparator, lower and upper end, both inclusive; a step is 2.5 mV (R231, R234). -/
def State.wmBand (s : State) (n : Nat) (up : Bool) : Rat × Rat :=
  let th := s.wmThreshold n up
  if up then (th - (s.f Fld.WM_HYS_HYS_U n : Rat) / 400, th) else (th, th + (s.f Fld.WM_HYS_HYS_L n : Rat) / 400)

/-- The level that `v` forces: none inside the band (R230). -/
def forcedLevel (band : Rat × Rat) (up : Bool) (v : Rat) : Option Bool :=
  if v < band.1 then some (!up) else if band.2 < v then some up else none

/-- The level that the pin voltage forces on a comparator of monitor `n`, whose own error lifts its switching points
(R93, R230, R232). -/
def State.wmForced (s : State) (n : Nat) (x : SenseIn) (up : Bool) : Option Bool :=
  forcedLevel (s.wmBand n up) up (s.sensed n x.pin - if up then x.errU else x.errL)

/-- Step 2 and 3 of R234 for one comparator, with the level it holds. DEDUCED, log entry 16. -/
def WmSide.resolve (d : WmSide) (lev : Option Bool) : WmSide :=
  match lev with
  | some l => { raw := l, out := l, unres := false }
  | none => { d with raw := d.out, unres := true }

/-- Both comparators sample v and resolve or become UNRESOLVED (R234). DEDUCED, log entry 16. -/
def State.wmResolveAll (s : State) (n : Nat) (v : SenseIn) : State :=
  let m := s.wm n
  s.setWm n { m with
    phase := .live, upper := m.upper.resolve (s.wmForced n v true), lower := m.lower.resolve (s.wmForced n v false),
    resyncs := [] }

/-- LHIT or UHIT of the side. -/
def hitFld (up : Bool) : FieldRef := if up then Fld.WM_LATCH_UHIT else Fld.WM_LATCH_LHIT

/-- A monitor with one more event of its latch to remember, and those of the last 64 ticks (R243, R244). -/
def Monitor.latchEvt (m : Monitor) (e : LatchEvt) : Monitor :=
  { m with latchLog := (m.latchLog.filter fun h => decide (e.tick ≤ h.tick + 64)) ++ [e] }

/-- The latch bit as it stood before the first event at or after tick `t`; none where there was no such event. -/
def Monitor.latchBefore (m : Monitor) (up : Bool) (t : Nat) : Option Bool :=
  (m.latchLog.find? fun h => h.up == up && decide (t ≤ h.tick)).map (·.was)

/-- The events at or after tick `t` happen again to a latch bit that is `b` then: the log that remains, and the bit at its
end. -/
def replayLatch (up : Bool) (t : Nat) : List LatchEvt → Bool → List LatchEvt × Bool
  | [], b => ([], b)
  | h :: l, b =>
    if h.up = up ∧ t ≤ h.tick then
      let r := replayLatch up t l h.set
      ({ h with was := b } :: r.1, r.2)
    else
      let r := replayLatch up t l b
      (h :: r.1, r.2)

/-- A gated output becomes active in tick `tick` (R242). -/
def State.wmActivate (s : State) (n : Nat) (up : Bool) (tick : Nat) : State :=
  let s := s.setWm n ((s.wm n).latchEvt ⟨up, tick, true, s.on (hitFld up) n⟩)
  let s := (s.flag (hitFld up) n).addWrap Fld.WM_CNT_HITS 1 n
  if s.on (if up then Fld.WM_CTL_WAKE_U else Fld.WM_CTL_WAKE_L) n then s.wake 2 else s

/-- A gated edge reaches the references and capture units that take this comparator (R59, R80). -/
def State.wmFeed (s : State) (n : Nat) (up : Bool) (level : Bool) (stamp tick : Nat) : State :=
  let kind := if up then 2 else 3
  let ek : EdgeKind := if level then .rise else .fall
  let s := (List.range 8).foldl (fun s r =>
    let s := if s.f Fld.PR_SRC_KIND r = kind ∧ s.f Fld.PR_SRC_INDEX r = n then s.mainEdge r stamp tick ek else s
    if s.f Fld.PR_SRC_IKIND r = kind ∧ s.f Fld.PR_SRC_IINDEX r = n then
      match execPrIndexEdge r stamp tick ek s with | .next s' => s' | _ => s
    else s) s
  (List.range 16).foldl (fun s k =>
    if s.f Fld.CAP_CTL_KIND k = kind ∧ s.f Fld.CAP_CTL_INDEX k = n then
      match execCaptureEdge k stamp ek s with | .next s' => s' | _ => s
    else s) s

/-- An edge is delivered: the gated output follows, an activation latches, references and captures see it (R242). -/
def State.wmDeliver (s : State) (n : Nat) (e : WmEdge) (tick : Nat) : State :=
  let m := s.wm n
  let was := (m.side e.upper).out
  let s := s.setWm n (m.setSide e.upper { m.side e.upper with out := e.level })
  let s := if e.level && !was then s.wmActivate n e.upper tick else s
  s.wmFeed n e.upper e.level e.stamp tick

/-- A raw edge: counted while the monitor settles (R236), not stamped while Longcase has no clock (R241), held for 48 ticks
with blanking enabled (R239), else delivered. DEDUCED, log entry 16. -/
def State.wmEdge (s : State) (n : Nat) (e : WmEdge) : State :=
  let m := s.wm n
  if m.phase = .settling then s.addSat Fld.WM_CNT_BLANKED 1 n
  else if !s.lclk then s
  else if s.on Fld.WM_BLANK_EN n then s.setWm n { m with held := m.held ++ [e] }
  else s.wmDeliver n e (e.stamp / 64)

/-- One comparator meets the voltage v (R230, R235). -/
def State.wmSense (s : State) (n : Nat) (up : Bool) (v : SenseIn) (stamp : Nat) (unresOnly : Bool) : State :=
  let m := s.wm n
  let d := m.side up
  match s.wmForced n v up with
  | none => s
  | some l =>
    if d.unres then
      let s := s.setWm n (m.setSide up { d with raw := l, unres := false })
      if l = d.out then s else s.wmEdge n ⟨stamp, up, l⟩
    else if unresOnly ∨ l = d.raw then s
    else (s.setWm n (m.setSide up { d with raw := l })).wmEdge n ⟨stamp, up, l⟩

/-- WMn_CTL written with the word `w` (R234, R237). -/
def State.writeWmCtl (s : State) (n : Nat) (w : Word) : State :=
  let was := s.on Fld.WM_CTL_EN n
  let s := s.setWord (Reg.WM_CTL.addr n 0) (w &&& 0x80030330)
  let m := s.wm n
  match was, w.bit 31 with
  | false, true =>
    s.setWm n { m with
      phase := .powerUp, held := [], resyncs := [], upper := ⟨w.bit 17, w.bit 17, false⟩, lower := ⟨w.bit 16, w.bit 16, false⟩ }
  | true, false => s.setWm n { m with phase := .off, held := [], resyncs := [], upper := WmSide.init, lower := WmSide.init }
  | _, _ => s

/-- A change of the monitor's conditions holds its outputs for 2 µs (R236). -/
def State.wmHold (s : State) (n : Nat) : State :=
  if s.on Fld.WM_CTL_EN n then s.setWm n { s.wm n with phase := .settling } else s

/-- WMn_THR, WMn_HYS or WMn_TRIM written (R231, R236). -/
def State.writeWmThr (s : State) (n : Nat) (w : Word) : State :=
  (s.setWord (Reg.WM_THR.addr n 0) (w &&& 0x03FF03FF)).wmHold n
def State.writeWmHys (s : State) (n : Nat) (w : Word) : State :=
  ((s.setF Fld.WM_HYS_HYS_U (min 16 (w.bits 8 5)) n).setF Fld.WM_HYS_HYS_L (min 16 (w.bits 0 5)) n).wmHold n
def State.writeWmTrim (s : State) (n : Nat) (w : Word) : State :=
  (s.setWord (Reg.WM_TRIM.addr n 0) (w &&& 0x00FF00FF)).wmHold n

/-- The raw level a comparator had at the instant `t`, before any held edge at or after it. -/
def Monitor.rawAt (m : Monitor) (up : Bool) (t : Rat) : Bool :=
  match m.held.find? (fun e => e.upper == up && decide (t ≤ (e.stamp : Rat))) with
  | some e => !e.level
  | none => (m.side up).raw

/-- The gated outputs take the raw levels of instant `t`, without edges (R240). -/
def Monitor.resync (m : Monitor) (t : Rat) : Monitor :=
  if m.phase = .live then
    { m with
      upper := if m.upper.unres then m.upper else { m.upper with out := m.rawAt true t },
      lower := if m.lower.unres then m.lower else { m.lower with out := m.rawAt false t } }
  else m

/-- The gated outputs are to take the raw levels of instant `t` (R240): at once, or, where edges stamped before it are still
held, when the last of them has been delivered or discarded. DEDUCED, log entry 16. -/
def Monitor.resyncAt (m : Monitor) (t : Rat) : Monitor :=
  if m.held.any fun e => decide ((e.stamp : Rat) < t) then { m with resyncs := m.resyncs ++ [t] } else m.resync t

/-- The resynchronisations that no held edge precedes any longer. -/
def Monitor.settleResyncs (m : Monitor) : Monitor :=
  let early := fun (t : Rat) => m.held.any fun e => decide ((e.stamp : Rat) < t)
  (m.resyncs.filter fun t => !early t).foldl (fun m t => m.resync t) { m with resyncs := m.resyncs.filter early }

/-- Held edges that can no longer be delivered are dropped; what waited for them takes place (R240, R241). -/
def Monitor.dropHeld (m : Monitor) : Monitor := { (m.resyncs.foldl Monitor.resync m) with held := [], resyncs := [] }

/-- Blanking closes at instant `t` (R238, R240). -/
def Monitor.close (m : Monitor) (t : Rat) : Monitor :=
  if m.blanked then
    (({ m with
      blanked := false,
      windows := m.windows.map fun (x : WmWindow) =>
        if x.closed.isNone then { x with closed := some t } else x } : Monitor).resyncAt t)
  else m

/-- Blanking opens at instant `t`; windows that no held edge can still meet are dropped. -/
def Monitor.opens (m : Monitor) (t : Rat) : Monitor :=
  if m.blanked then m
  else
    let live := fun (x : WmWindow) => m.held.any fun e => x.closed.any fun c => (e.stamp : Rat) < c
    { m with blanked := true, windows := m.windows.filter live ++ [⟨t, none⟩] }

/-- Whether an edge stamped `t` is blanked (R239). -/
def Monitor.blanks (m : Monitor) (t : Nat) : Bool :=
  m.windows.any fun x => x.opened ≤ t && x.closed.all fun c => (t : Rat) < c

/-- The oldest held edge leaves: discarded and counted where it is blanked or the monitor settles, else delivered in tick
`tick`; a resynchronisation that waited for it follows (R236, R239, R240). -/
def State.wmRelease (s : State) (n tick : Nat) : State :=
  let m := s.wm n
  match m.held with
  | [] => s
  | e :: rest =>
    let s := s.setWm n { m with held := rest }
    let s := if m.phase = .settling ∨ m.blanks e.stamp then s.addSat Fld.WM_CNT_BLANKED 1 n else s.wmDeliver n e tick
    s.setWm n (s.wm n).settleResyncs

/-- Every held edge leaves. -/
def State.wmReleaseAll (s : State) (n tick : Nat) : Nat → State
  | 0 => s
  | k + 1 => (s.wmRelease n tick).wmReleaseAll n tick k

/-- WMn_BLANK written: clearing its EN lets the held edges go at once, as edges are not held with EN = 0, and closes blanking
(R239, R241). While Longcase has no clock no edge is delivered, and those held are dropped. DEDUCED, log entry 16. -/
def State.writeWmBlank (s : State) (n : Nat) (w : Word) : State :=
  let w := w &&& 0x81FF01FF
  let w := if w.bits 16 8 > 31 then w.setBits 24 1 0 else w
  let w := if w.bits 0 8 > 31 then w.setBits 8 1 0 else w
  let was := s.on Fld.WM_BLANK_EN n
  let s := s.setWord (Reg.WM_BLANK.addr n 0) w
  if was ∧ ¬ w.bit 31 then
    let s := if s.lclk then s.wmReleaseAll n s.lcs.time (s.wm n).held.length else s.setWm n (s.wm n).dropHeld
    s.setWm n ((s.wm n).close ((s.lcs.time : Rat) * 64))
  else s

/-- WMn_PCLR written. -/
def State.writeWmPclr (s : State) (n : Nat) (w : Word) : State :=
  let w := w &&& 0x800001FF
  s.setWord (Reg.WM_PCLR.addr n 0) (if w.bits 0 8 > 31 then w.setBits 8 1 0 else w)

/-- A firing's instant in fine units (R73, R238). -/
def FiringRec.instant (r : FiringRec) : Rat := (r.tick + (r.rem : Rat) / 65536) * 64

/-- The bit by which a monitor's inbox carries a firing of its period source (the model's own). -/
def pclrBit : Nat := 12

/-- The ACT bits of an inbox record left to act on, `k` taken away; the record goes when none is left. -/
def takeBit (k : Nat) : List FiringRec → List FiringRec
  | [] => []
  | r :: l =>
    let a := r.act - (if r.act.testBit k then 2 ^ k else 0)
    if a = 0 then l else { r with act := a } :: l

/-- The oldest record of an inbox, where it still carries bit `k`. -/
def headBit (k : Nat) (l : List FiringRec) : Option FiringRec :=
  match l with
  | r :: _ => if r.act.testBit k then some r else none
  | [] => none

/-- What a monitor obeys of a firing (R238, R243). -/
def State.wmObeys (s : State) (n : Nat) (r : FiringRec) : Nat :=
  let isSrc := fun (tmr num : FieldRef) => s.on tmr n == r.timer && s.f num n == r.num
  let b := if s.on Fld.WM_BLANK_EN n &&
      (isSrc Fld.WM_BLANK_S0_TMR Fld.WM_BLANK_S0_NUM || isSrc Fld.WM_BLANK_S1_TMR Fld.WM_BLANK_S1_NUM)
    then r.act &&& 0x60 else 0
  let p := if s.on Fld.WM_PCLR_EN n && isSrc Fld.WM_PCLR_TMR Fld.WM_PCLR_NUM then 2 ^ pclrBit else 0
  b + p

/-- A firing reaches the monitors that obey it. -/
def State.wmBroadcast (s : State) (r : FiringRec) : State :=
  (List.range s.part.numWM).foldl (fun s n =>
    let a := s.wmObeys n r
    if a = 0 then s else s.setWm n { s.wm n with inbox := (s.wm n).inbox ++ [{ r with act := a }] }) s

/-! ## Meanings -/

def execWmEnable (n : Nat) (s : State) : Out := hostRow (
  ifPresent n s.part.numWM 96 s (.next (s.writeWmCtl n (s.word (Reg.WM_CTL.addr n 0) ||| 0x80000000))))

def execWmDisable (n : Nat) (s : State) : Out := hostRow (
  ifPresent n s.part.numWM 96 s (.next (s.writeWmCtl n ((s.word (Reg.WM_CTL.addr n 0)).setBits 31 1 0))))

def execWmPowerUp (n : Nat) (v : SenseIn) (s : State) : Out :=
  ifPresent n s.part.numWM 96 s (.next (if (s.wm n).phase = .powerUp then s.wmResolveAll n v else s))

def execWmSettle (n : Nat) (v : SenseIn) (s : State) : Out :=
  ifPresent n s.part.numWM 96 s (.next (if (s.wm n).phase = .settling then s.wmResolveAll n v else s))

def execComparatorEdge (n : Nat) (v : SenseIn) (stamp : Nat) (s : State) : Out :=
  ifPresent n s.part.numWM 96 s (.next <|
    match (s.wm n).phase with
    | .live | .settling => ((s.atTick (stamp / 64)).wmSense n true v stamp false).wmSense n false v stamp false
    | _ => s)

def execWmResolve (n : Nat) (v : SenseIn) (stamp : Nat) (s : State) : Out :=
  ifPresent n s.part.numWM 96 s (.next <|
    if (s.wm n).phase = .live then ((s.atTick (stamp / 64)).wmSense n true v stamp true).wmSense n false v stamp true else s)

def execEdgeDelivery (n : Nat) (s : State) : Out :=
  ifPresent n s.part.numWM 96 s (.next <|
    match (s.wm n).held with
    | [] => s
    | e :: _ => if s.lclk then (s.atTick (e.stamp / 64 + 48)).wmRelease n (e.stamp / 64 + 48) else s)

def execBlankOpen (n : Nat) (s : State) : Out :=
  ifPresent n s.part.numWM 96 s (.next <|
    let m := s.wm n
    match headBit 5 m.inbox with
    | some r =>
      let m := { m with inbox := takeBit 5 m.inbox }
      s.setWm n (if s.on Fld.WM_BLANK_EN n then m.opens r.instant else m)
    | none => s)

def execBlankClose (n : Nat) (s : State) : Out :=
  ifPresent n s.part.numWM 96 s (.next <|
    let m := s.wm n
    match headBit 6 m.inbox with
    | some r => s.setWm n ({ m with inbox := takeBit 6 m.inbox }.close r.instant)
    | none => s)

/-- The period clear of a firing in tick `t`, for one comparator: PREV takes the latch as it stood then, the latch clears,
and what has happened to it since happens to the cleared one (R243, R244). -/
def State.wmPeriod (s : State) (n : Nat) (up : Bool) (t : Nat) : State :=
  let prev := if up then Fld.WM_LATCH_PREV_U else Fld.WM_LATCH_PREV_L
  let m := s.wm n
  let r := replayLatch up t m.latchLog false
  let was := (m.latchBefore up t).getD (s.on (hitFld up) n)
  ((s.setWm n { m with latchLog := r.1 }).setB prev was n).setB (hitFld up) r.2 n

def execPeriodClear (n : Nat) (s : State) : Out :=
  ifPresent n s.part.numWM 96 s (.next <|
    let m := s.wm n
    match headBit pclrBit m.inbox with
    | some r =>
      let t := ((s.setWm n { m with inbox := takeBit pclrBit m.inbox }).wmPeriod n true r.tick).wmPeriod n false r.tick
      t.noteVectors s false [(0, 14 + n / 32)]
    | none => s)

/-- WMn_LATCH written: a bit that is written 1 clears, but for an activation in the tick of the write (R242, R244). While
Longcase has no clock no activation falls with the write. -/
def State.writeWmLatch (s : State) (n : Nat) (w : Word) : State :=
  [(true, Fld.WM_LATCH_UHIT.lo), (false, Fld.WM_LATCH_LHIT.lo)].foldl (fun (s : State) e =>
    let now := s.lcs.time
    if !w.bit e.2 ∨ (s.lclk ∧ ((s.wm n).latchLog.any fun h => h.up == e.1 && h.set && decide (now ≤ h.tick)) = true) then s
    else (s.setWm n ((s.wm n).latchEvt ⟨e.1, now, false, s.on (hitFld e.1) n⟩)).setB (hitFld e.1) false n) s

/-- At a PLL relock the gated outputs take the raw levels, as at a close that comes after every edge stamped so far (R241).
DEDUCED, log entry 16. -/
def State.wmRelock (s : State) : State :=
  (List.range s.part.numWM).foldl (fun s n =>
    let m := s.wm n
    s.setWm n (m.resyncAt (m.held.foldl (fun t e => max t ((e.stamp : Rat) + 1)) ((s.lcs.time : Rat) * 64)))) s

end Sys2Proof.Machine
end

