-- ==== Sys2Proof/Machine/Sequencer.lean ====
section
/-! DEFINITION. The sequencer and the delay line of a converter group (R128 to R137), as functions of the group's core
alone. Counts are words summed over the driven lanes; a beat is four words in every mode (R121). -/

namespace Sys2Proof.Machine

/-- An entry as the group reads it (R128): inputs, settle and dwell in beats (no dwell: continuous), LOG, EIRQ. -/
structure SeqEntry where
  insel : Nat
  settle : Nat
  dwell : Option Nat
  log : Bool
  eirq : Bool
  deriving DecidableEq, Repr

/-- What the sequencer reads of the group's registers and of the mode; entry 16 is the urgent entry. -/
structure SeqCfg where
  en : Bool
  trig : Bool
  doRestart : Bool
  last : Nat
  converts : Bool
  entries : List SeqEntry
  deriving DecidableEq, Repr

def SeqEntry.nil : SeqEntry := { insel := 0, settle := 0, dwell := none, log := false, eirq := false }
def SeqCfg.entry (c : SeqCfg) (e : Nat) : SeqEntry := (c.entries[e]?).getD SeqEntry.nil

/-- The delay D (R130). -/
def SeqCfg.delay (c : SeqCfg) : Nat :=
  let need := fun e => ((c.entry e).dwell).getD 0
  min 4096 ((List.range (c.last + 1)).foldl (fun d e => max d (need e)) (need 16))

/-- The sequence starts at entry 0, with D fixed (R130). -/
def CgCore.start (c : CgCore) (f : SeqCfg) : CgCore :=
  { c with seq := { c.seq with st := .settle, entry := 0, fresh := true, restart := false, d := f.delay } }

/-- The number of marked samples of a beat. -/
def HeldBeat.marks (h : HeldBeat) : Nat := (h.lanes.map fun l => l.countP (·.mark)).sum

/-- The partial finite dwell is discarded (R133, R137). -/
def CgCore.interrupt (c : CgCore) : CgCore :=
  let lost := c.held.filter fun h => !h.done
  { c with
    held := c.held.filter fun h => h.done, pdisc := c.pdisc + 4 * lost.length,
    marksLost := c.marksLost + (lost.map HeldBeat.marks).sum }

/-- A dwell is complete: its beats may be emitted (R136). -/
def CgCore.settleFate (c : CgCore) : CgCore := { c with held := c.held.map fun h => { h with done := true } }

/-- A dwell is complete with its last beat: EIRQ acts, and LAST says which entry follows (R129). -/
def CgCore.complete (c : CgCore) (f : SeqCfg) : CgCore :=
  let q := c.seq
  let isLast := decide (f.last ≤ q.entry)
  if q.st = .dwell then
    { c with seq := { q with dwellLeft := some 0, next := if isLast then 0 else q.entry + 1 }, ends := c.ends || q.eirq,
             wraps := c.wraps || isLast }
  else { c with seq := { q with dwellLeft := some 0 }, ends := c.ends || q.eirq }

/-- Transitions that are due (R135): the settle count is reached, or the dwell is complete and the next entry follows. -/
def CgCore.advance (c : CgCore) (f : SeqCfg) : CgCore :=
  let q := c.seq
  match q.st with
  | .settle => if !q.fresh && q.settleLeft = 0 then { c with seq := { q with st := .dwell } } else c
  | .usettle => if !q.fresh && q.settleLeft = 0 then { c with seq := { q with st := .udwell } } else c
  | .dwell =>
    if q.dwellLeft = some 0 then { c with seq := { q with st := .settle, entry := q.next, fresh := true } } else c
  | .udwell =>
    if q.dwellLeft = some 0 then
      if q.restart then c.start f else { c with seq := { q with st := .settle, entry := q.resume, fresh := true } }
    else c
  | _ => c

/-- STOP (R131). -/
def CgCore.stop (c : CgCore) : CgCore :=
  let c := c.interrupt
  { c with seq := { c.seq with st := .idle, restart := false, fresh := false } }

/-- GO (R131, R135). -/
def CgCore.go (c : CgCore) (f : SeqCfg) : CgCore :=
  if f.en ∧ c.seq.st = .idle then
    if f.trig then { c with seq := { c.seq with st := .armed } }
    else if f.converts then c.start f
    else
      let c := c.start f
      { c with seq := { c.seq with st := .paused, resume := 0 } }
  else c

/-- A SEQ_START firing (R131, R134, R135). -/
def CgCore.seqStart (c : CgCore) (f : SeqCfg) : CgCore :=
  match c.seq.st with
  | .armed => if f.converts then c.start f else c
  | .settle | .dwell => if f.doRestart then c.interrupt.start f else c
  | .usettle | .udwell => if f.doRestart then { c with seq := { c.seq with restart := true } } else c
  | _ => c

/-- An urgent request (R133, R134); those of one SCLK cycle are one. DESIGN CHOICE, log entry 48. -/
def CgCore.urgent (c : CgCore) : CgCore :=
  match c.seq.st with
  | .settle | .dwell =>
    let c := c.interrupt
    { c with seq := { c.seq with st := .usettle, resume := c.seq.entry, entry := 16, fresh := true } }
  | _ => { c with drops := c.drops + 1 }

/-- The requests of one SCLK cycle, in the order of R134. -/
def CgCore.apply (c : CgCore) (f : SeqCfg) (r : CgReqs) : CgCore :=
  let c := c.advance f
  let c := if r.stop then c.stop else c
  let c := if r.go then c.go f else c
  let c := if r.seqStart then c.seqStart f else c
  if r.urgent then c.urgent else c

/-- Entry to a mode in which the positions do not convert (R135). -/
def CgCore.pause (c : CgCore) (f : SeqCfg) : CgCore :=
  let c := c.advance f
  let go := fun (e : Nat) =>
    let d := c.interrupt
    { d with seq := { d.seq with st := .paused, resume := e, entry := e, fresh := false } }
  match c.seq.st with
  | .settle | .dwell => go (if c.seq.restart then 0 else c.seq.entry)
  | .usettle | .udwell => go (if c.seq.restart then 0 else c.seq.resume)
  | _ => c

/-- The mode becomes one in which the positions convert (R135). -/
def CgCore.resume (c : CgCore) (f : SeqCfg) : CgCore :=
  if c.seq.st = .paused then
    if c.seq.restart then c.start f
    else { c with seq := { c.seq with st := .settle, entry := c.seq.resume, fresh := true } }
  else c

/-- Every word in the delay line is discarded (R131, R137). -/
def CgCore.discardAll (c : CgCore) : CgCore := { c with held := [], pdisc := c.pdisc + 4 * c.held.length }

/-- Clearing of EN (R131); MARK is counted as lost only while EN = 1 (R139). -/
def CgCore.clear (c : CgCore) (f : SeqCfg) : CgCore := { ((c.advance f).stop).discardAll with marksLost := c.marksLost }

/-- The running entry's fields are read at its first beat (R128, R130). -/
def CgCore.enter (c : CgCore) (f : SeqCfg) : CgCore :=
  let q := c.seq
  if q.fresh then
    let e := f.entry q.entry
    let tooLong := match e.dwell with | some n => decide (q.d < n) | none => false
    let len := match e.dwell with
      | none => none
      | some n => some (if q.d = 0 then 1 else min n q.d)
    let isU := q.entry = 16
    { c with
      seq := { q with
        fresh := false, insel := e.insel, settleLeft := e.settle, dwellLeft := len, empty := tooLong && q.d = 0,
        log := e.log, eirq := e.eirq, attempt := q.attempt + 1,
        st := if e.settle = 0 then (if isU then .udwell else .dwell) else q.st },
      clamped := c.clamped || tooLong, urgents := c.urgents + (if isU then 1 else 0) }
  else c

/-- What becomes of the beat that an SCLK edge takes. -/
inductive BeatFate
  | unused | settle | dwell
  deriving DecidableEq, Repr

/-- What the sequencer does with the next beat. -/
def CgCore.fate (c : CgCore) : BeatFate :=
  match c.seq.st with
  | .settle | .usettle => .settle
  | .dwell | .udwell => if c.seq.empty then .settle else .dwell
  | _ => .unused

/-- One beat counted as settle samples: of the settle, or of a dwell that has no samples (R130). -/
def CgCore.takeSettle (c : CgCore) (f : SeqCfg) (marks : Nat) : CgCore :=
  let c := { c with conv := c.conv + 4, sdisc := c.sdisc + 4, marksLost := c.marksLost + marks }
  let q := c.seq
  if q.st = .settle ∨ q.st = .usettle then { c with seq := { q with settleLeft := q.settleLeft - 1 } } else c.complete f

/-- One beat of a dwell is held (R136). -/
def CgCore.takeDwell (c : CgCore) (f : SeqCfg) (h : HeldBeat) : CgCore :=
  let q := c.seq
  let c := { c with conv := c.conv + 4, held := c.held ++ [h] }
  match q.dwellLeft with
  | none => c.settleFate
  | some n =>
    if n - 1 = 0 then (c.complete f).settleFate else { c with seq := { q with dwellLeft := some (n - 1) } }

/-- The oldest held beat that leaves the delay line at SCLK edge `beat` (R136): each keeps the delay it was converted with.
DESIGN CHOICE, log entry 48. -/
def CgCore.due (c : CgCore) (beat : Nat) : Option HeldBeat :=
  match c.held with
  | h :: _ => if h.done ∧ h.beat + h.lat ≤ beat then some h else none
  | [] => none

/-- It is emitted. -/
def CgCore.release (c : CgCore) : CgCore :=
  match c.held with
  | _ :: r => { c with held := r, emit := c.emit + 4 }
  | [] => c

/-- The counts since the last SCLK edge are taken over. -/
def CgCore.settleUp (c : CgCore) : CgCore :=
  { c with drops := 0, urgents := 0, wraps := false, ends := false, clamped := false, marksLost := 0 }

def SeqSt.code : SeqSt → Nat
  | .idle => 0 | .armed => 1 | .settle => 2 | .dwell => 3 | .usettle => 4 | .udwell => 5 | .paused => 6

end Sys2Proof.Machine
end

