-- ==== Sys2Proof/Machine/Streams.lean ====
section
/-! DEFINITION. The stream plane (R17 to R26): sources emit words, and every consumer connected to a source receives each of
them. A consumer's connection is a Feed, by a consumer number of the model's own. -/

namespace Sys2Proof.Machine

/-- The consumer numbers: filter chain n, input j of fabric port k, DAC d, probe p, upstream ring r. -/
def feedFC (n : Nat) : Nat := n
def feedFP (k j : Nat) : Nat := 0x100 + 4 * k + j
def feedDA (d : Nat) : Nat := 0x200 + d
def feedPRB (p : Nat) : Nat := 0x300 + p
def feedCfg : Nat := 0x400
def feedBur : Nat := 0x401
def feedRing (r : Nat) : Nat := 0x1000 + r

/-- The source codes of R17. -/
def laneCode (g l : Nat) : Nat := 0x1000 + 4 * g + l
def chainCode (n : Nat) : Nat := 0x2000 + n
def portCode (k j : Nat) : Nat := 0x3000 + 4 * k + j
def downCode (r : Nat) : Nat := 0x4000 + r
def probeCode (p : Nat) : Nat := 0x5000 + p

def State.feed (s : State) (c : Nat) : Feed := Tab.get (fun _ => Feed.init) s.feeds c
def State.setFeed (s : State) (c : Nat) (f : Feed) : State :=
  { s with feeds := Tab.put (fun _ => Feed.init) s.feeds c f }

/-- A word with no side band. -/
def plainWord (val index : Nat) : StreamWord :=
  { val := val, index := index, mark := false, ovr := false, settling := false, handover := false, refUnset := false,
    failover := false, edge := none, entryStart := false, switched := false }

/-- Words arrive at a consumer; the first after a connection is marked as the first of a new source. -/
def Feed.arrive (f : Feed) (ws : List StreamWord) : Feed :=
  match ws with
  | [] => f
  | w :: r => { f with inq := f.inq ++ { w with switched := f.fresh } :: r, fresh := false }

/-- A source emits words: every consumer connected to it receives them (R21). -/
def State.emit (s : State) (code : Nat) (ws : List StreamWord) : State :=
  if ws = [] then s
  else { s with feeds := s.feeds.map fun e => if e.2.src = code then (e.1, e.2.arrive ws) else e }

/-- The classes a consumer accepts (R18). -/
inductive ConsumerKind
  | chain | port | ring | dac
  deriving DecidableEq, Repr

def ConsumerKind.accepts (k : ConsumerKind) (cls : Nat) : Bool :=
  match k with
  | .chain => cls == 1 || cls == 3
  | .port => cls == 1 || cls == 2 || cls == 4
  | .ring => cls == 1 || cls == 2 || cls == 3 || cls == 5
  | .dac => cls == 3 || cls == 4

/-- The number of valid indices of a class (R17). -/
def classCount (cls : Nat) : Nat :=
  match cls with
  | 1 => 96 | 2 => 48 | 3 => 96 | 4 => 4096 | 5 => 16 | _ => 0

/-- The source code that a write of `v` stores (R19). -/
def storedSource (k : ConsumerKind) (v : Nat) : Nat :=
  let v := v % 65536
  if k.accepts (v / 4096) ∧ v % 4096 < classCount (v / 4096) then v else 0

/-- Consumer `c` is connected to `code`; words that wait are dropped with the old source (R24).
DESIGN CHOICE, log entry 26. -/
def State.connect (s : State) (c code : Nat) : State :=
  if (s.feed c).src = code then s else s.setFeed c { src := code, inq := [], fresh := code != 0 }

/-- Consumer `c` has taken `n` words. -/
def State.consume (s : State) (c n : Nat) : State :=
  let f := s.feed c
  s.setFeed c { f with inq := f.inq.drop n }

end Sys2Proof.Machine
end

