-- ==== Sys2Proof/Machine/Converter.lean ====
section
/-! DEFINITION. Converter groups: access, requests, the result word, MARK (chapter 05 of spec/). -/

namespace Sys2Proof.Machine

def State.group (s : State) (g : Nat) : Group := Tab.get (fun _ => Group.init) s.groups g
def State.setGroup (s : State) (g : Nat) (x : Group) : State :=
  { s with groups := Tab.put (fun _ => Group.init) s.groups g x }
def State.setCore (s : State) (g : Nat) (c : CgCore) : State := s.setGroup g { s.group g with core := c }

/-- The modes in which the positions convert (R123). -/
def Mode.converts : Mode → Bool
  | .run | .partialRun | .doze => true
  | _ => false

/-- The samples per lane per beat (R121). -/
def lanePerBeat (mode : Nat) : Nat := if mode = 0 then 4 else if mode = 1 then 2 else 1

/-- The positions of each driven lane (R121). -/
def lanePositions (mode : Nat) : List (List Nat) :=
  if mode = 0 then [[0, 1, 2, 3]] else if mode = 1 then [[0, 2], [1, 3]] else [[0], [1], [2], [3]]

/-- The lane that contains position `p`, and the place of its sample in the lane's beat. -/
def laneOf (mode p : Nat) : Nat := if mode = 0 then 0 else if mode = 1 then p % 2 else p
def placeOf (mode p : Nat) : Nat := if mode = 0 then p else if mode = 1 then p / 2 else 0

def ceilDiv (a b : Nat) : Nat := (a + b - 1) / b

/-- An entry's registers as the group reads them (R128): settle and dwell rounded up to whole beats, a dwell above the
mode's limit used as that limit (4,096 beats in every mode); an urgent dwell of 0 acts as k (R133). -/
def readEntry (k : Nat) (cfg dwell : Word) (urgent : Bool) : SeqEntry :=
  let n := dwell.bits 0 15
  { insel := cfg.bits 0 8, settle := ceilDiv (cfg.bits 12 12) k,
    dwell := if n = 0 then (if urgent then some 1 else none) else some (min 4096 (ceilDiv n k)),
    log := cfg.bit 25, eirq := cfg.bit 24 }

/-- What the sequencer of group `g` reads. -/
def State.seqCfg (s : State) (g : Nat) : SeqCfg :=
  let k := lanePerBeat (s.f Fld.CG_CTL_MODE g)
  { en := s.on Fld.CG_CTL_EN g, trig := s.on Fld.CG_SEQCTL_TRIG g, doRestart := s.on Fld.CG_SEQCTL_RESTART g,
    last := s.f Fld.CG_SEQCTL_LAST g, converts := s.mode.converts,
    entries := ((List.range 16).map fun e =>
        readEntry k (s.word (Reg.CG_SEQ_CFG.addr g e)) (s.word (Reg.CG_SEQ_DWELL.addr g e)) false)
      ++ [readEntry k (s.word (Reg.CG_URG_CFG.addr g 0)) (s.word (Reg.CG_URG_DWELL.addr g 0)) true] }

/-- A request reaches group `g`: the requests of the cycle act anew, in the order of R134, on the state at its start. -/
def State.cgRequest (s : State) (g : Nat) (r : CgReqs → CgReqs) : State :=
  let x := s.group g
  let base := x.base.getD x.core
  let reqs := r (if x.base.isSome then x.reqs else CgReqs.nil)
  s.setGroup g { x with base := some base, reqs := reqs, core := base.apply (s.seqCfg g) reqs }

/-- What has happened in the group since the last SCLK edge shows in its registers (R134, R139, R146). -/
def State.cgCommit (s : State) (g : Nat) : State :=
  let x := s.group g
  let c := x.core
  let s := s.setGroup g { x with core := c.settleUp, base := none, reqs := CgReqs.nil }
  let s := (s.addSat Fld.CG_EVCNT_URG_DROP c.drops g).addWrap Fld.CG_EVCNT_URGENTS c.urgents g
  let s := s.addSat Fld.CG_EVCNT_MARK_LOST c.marksLost g
  let s := (s.flagIf (c.drops != 0) Fld.CG_IRQ_URG_DROP g).flagIf c.wraps Fld.CG_IRQ_WRAP g
  let s := (s.flagIf c.ends Fld.CG_IRQ_ENTRY_END g).flagIf c.clamped Fld.CG_STAT_DCLAMP g
  (s.setF Fld.CG_LAT_D c.seq.d g).setF Fld.CG_LAT_LAT (14 + c.seq.d) g

/-- The sequencer of group `g` does `k` at once, outside the order of a cycle. -/
def State.cgNow (s : State) (g : Nat) (k : CgCore → CgCore) : State := (s.setCore g (k (s.group g).core)).cgCommit g

/-- Entry to Nap, Slumber or Bench for every group (R135). -/
def State.pauseGroups (s : State) : State :=
  (List.range s.part.numCG).foldl (fun s g => s.cgNow g (·.pause (s.seqCfg g))) s

/-- The mode becomes one in which the positions convert (R135). -/
def State.resumeGroups (s : State) : State :=
  (List.range s.part.numCG).foldl (fun s g => s.cgNow g (·.resume (s.seqCfg g))) s

/-- Entry to Bench: every word in a delay line is discarded (R36, R137). -/
def State.benchGroups (s : State) : State :=
  (List.range s.part.numCG).foldl (fun s g =>
    s.cgNow g fun c => { c.discardAll with marksLost := c.marksLost + (c.held.map HeldBeat.marks).sum }) s

/-! ## The residual stage and the result word (R124, R169) -/

/-- The skew term of R169 for one femtosecond, as a factor of x(n+1) − x(n−1); f_s is 2^16 samples in LCS_SMPQ fine units
of 15.625 ps. -/
def State.skewFactor (s : State) : Rat :=
  let q : Rat := if s.smpValid then s.smpq else Config.unknownSmpq
  65536 / (q * 15625) / 2

/-- y of R169, in LSB; the raw values have 16 fractional bits. -/
def State.residual (s : State) (g slice : Nat) (raw before after : Int) (skew : Bool) : Rat :=
  let rofs := toSigned 12 (s.f Fld.CG_SL_RES_OG_ROFS g slice)
  let rgain := toSigned 12 (s.f Fld.CG_SL_RES_OG_RGAIN g slice)
  let rskew := toSigned 10 (s.f Fld.CG_SL_RES_SK_RSKEW g slice)
  let x : Rat := (raw : Rat) / 65536
  let y := (x - (rofs : Rat) / 256) * (1 + (rgain : Rat) / 1048576)
  if skew then y - rskew * s.skewFactor * (((after - before : Int) : Rat) / 65536) else y

/-- CODE and OVR of R124. -/
def codeOf (y : Rat) : Int × Bool :=
  let c := Config.nearest .codeTie y
  (clamp (-8192) 8191 c, decide (c < -8192 ∨ 8191 < c))

/-- The word of a sample (R124; under HERITAGE bit [1] is 0, R51). -/
def Sample.word (x : Sample) (heritage : Bool) : Nat :=
  ofSigned 14 x.code * 4 + (if x.ovr && !heritage then 2 else 0) + (if x.mark then 1 else 0)

/-! ## MARK (R139) -/

/-- The edge of a lane nearest to a sample position, a tie going to the later edge. -/
def nearestEdge (mode lane : Nat) (pos : Rat) : Nat :=
  let m := 4 / lanePerBeat mode
  (lane + m * (((pos - lane) / m + 1 / 2).floor)).toNat

/-- Whether a beat holds the sample of edge `e`. -/
def HeldBeat.holds (h : HeldBeat) (e : Nat) : Bool := h.lanes.any fun l => l.any fun x => x.edge == e

/-- The beat with the sample of edge `e` marked. -/
def HeldBeat.mark (h : HeldBeat) (e : Nat) : HeldBeat :=
  { h with lanes := h.lanes.map fun l => l.map fun x => if x.edge = e then { x with mark := true } else x }

/-- MARK goes to edge `e`: a sample still held, or one yet to come, else it is lost. DEDUCED, log entry 23. -/
def Group.markEdge (x : Group) (e : Nat) : Group :=
  if x.lastEdge.all fun l => 4 * l + 3 < e then
    (if x.marksAhead.contains e then x else { x with marksAhead := x.marksAhead ++ [e] })
  else
    let put := fun (c : CgCore) =>
      if c.held.any fun h => h.holds e then { c with held := c.held.map fun h => h.mark e }
      else { c with marksLost := c.marksLost + 1 }
    { x with core := put x.core, base := x.base.map put }

/-- A MARK firing in group `g` (R57, R139). -/
def State.cgMark (s : State) (g : Nat) (r : FiringRec) : State :=
  let mode := s.f Fld.CG_CTL_MODE g
  let n := (lanePositions mode).length
  match s.samplePos r.instant with
  | some pos => s.setGroup g ((List.range n).foldl (fun x l => x.markEdge (nearestEdge mode l pos)) (s.group g))
  | none => s.addSat Fld.CG_EVCNT_MARK_LOST n g

/-! ## Window comparators (R140 to R142) -/

/-- The settings of a window comparator. -/
structure WinCfg where
  en : Bool
  upper : Int
  lower : Int
  hys : Nat
  armN : Nat
  mask : Nat
  deriving DecidableEq, Repr

def State.winCfg (s : State) (g l : Nat) : WinCfg :=
  { en := s.on Fld.CG_WIN_ARM_EN g l, upper := toSigned 14 (s.f Fld.CG_WIN_BND_UPPER g l),
    lower := toSigned 14 (s.f Fld.CG_WIN_BND_LOWER g l), hys := s.f Fld.CG_WIN_ARM_HYS g l,
    armN := s.f Fld.CG_WIN_ARM_ARM_M1 g l + 1, mask := s.f Fld.CG_WIN_MASK_ENTRIES g l }

/-- One sample seen by a comparator. DEDUCED, log entry 23. -/
def WinCmp.see (w : WinCmp) (c : WinCfg) (x : Sample) : WinCmp :=
  let above := decide (c.upper < x.code) || (x.ovr && decide (0 < x.code))
  let below := decide (x.code < c.lower) || (x.ovr && decide (x.code < 0))
  let inside := decide (c.lower + c.hys ≤ x.code ∧ x.code ≤ c.upper - c.hys)
  if w.armed then
    if above || below then { armed := false, run := 0, fired := some (above, x.code) } else w
  else if inside then
    if c.armN ≤ w.run + 1 then { w with armed := true, run := 0 } else { w with run := w.run + 1 }
  else { w with run := 0 }

/-- The comparators of group `g` see the dwell samples that are 14 cycles old. -/
def State.cgWindows (s : State) (g : Nat) : State :=
  let x := s.group g
  let now := x.winQ.filter fun w => w.beat + 14 ≤ x.beat
  let one := fun (l : Nat) (w : WinCmp) =>
    let c := s.winCfg g l
    if c.en then
      now.foldl (fun w b => if c.mask.testBit b.entry then ((b.lanes[l]?).getD []).foldl (fun w y => w.see c y) w else w) w
    else w
  s.setGroup g { x with
    winQ := x.winQ.filter fun w => !(w.beat + 14 ≤ x.beat), cmps := x.cmps.zipIdx.map fun e => one e.2 e.1 }

/-- A firing of comparator `l` shows in its registers (R141). -/
def State.winReport (s : State) (g l : Nat) : State :=
  let x := s.group g
  match (x.cmps[l]?).bind (·.fired) with
  | some (side, code) =>
    let s := s.setGroup g { x with cmps := x.cmps.modify l fun w => { w with fired := none } }
    ((s.setBit Fld.CG_IRQ_WIN l g).setB Fld.CG_WIN_HIT_SIDE side g l).setF Fld.CG_WIN_HIT_CODE (ofSigned 14 code) g l
  | none => s

/-! ## The entry log (R138) -/

/-- A record joins the entry log, or meets it full. -/
def State.elogPush (s : State) (g : Nat) (r : ElogRec) : State :=
  let x := s.group g
  if x.elog.length < 32 then s.setGroup g { x with elog := x.elog ++ [r] } else s.flag Fld.CG_IRQ_ELOG_OVF g

/-! ## Register writes -/

/-- CGg_CTL.EN set from 0 to 1 (R138). -/
def State.cgEnable (s : State) (g : Nat) : State :=
  let x := s.group g
  let c := x.core
  s.setGroup g { x with
    core := { c with conv := 0, emit := 0, sdisc := 0, pdisc := 0, held := [] }, base := none, reqs := CgReqs.nil,
    elog := [], emitted := none, marksAhead := [] }

/-- CGg_CTL.EN cleared: the sequencer's part (R131). -/
def State.cgDisable (s : State) (g : Nat) : State :=
  let x := s.group g
  let s := s.setGroup g { x with core := (x.base.getD x.core).clear (s.seqCfg g), base := none, marksAhead := [] }
  s.cgCommit g

/-- CGg_SEQCTL written with `w`; LAST, TRIG and RESTART store, GO and STOP act (R131). -/
def State.writeSeqctl (s : State) (g : Nat) (w : Word) : State :=
  let s := s.setWord (Reg.CG_SEQCTL.addr g 0) (w &&& 0x001F0100)
  if w.bit 0 ∨ w.bit 1 then s.cgRequest g fun r => { r with stop := r.stop || w.bit 1, go := r.go || w.bit 0 } else s

/-- CGg_LISTENs, CGg_FTRIG and CGg_WINl_ARM written (R141, R145). Clearing CGg_WINl_ARM.EN leaves ARMED and the in-band run as
they are. DESIGN CHOICE, log entry 48. -/
def State.writeListen (s : State) (g k : Nat) (w : Word) : State :=
  let w := w &&& 0x800001FF
  s.setWord (Reg.CG_LISTEN.addr g k) (if w.bit 8 ∧ w.bits 0 8 > 31 then w.setBits 31 1 0 else w)
def State.writeFtrig (s : State) (g : Nat) (w : Word) : State :=
  let w := w &&& 0x8000003F
  s.setWord (Reg.CG_FTRIG.addr g 0) (if w.bits 0 6 > 47 then w.setBits 31 1 0 else w)
def State.writeWinArm (s : State) (g l : Nat) (w : Word) : State :=
  let was := s.on Fld.CG_WIN_ARM_EN g l
  let s := s.setWord (Reg.CG_WIN_ARM.addr g l) (w &&& 0x80FFFFFF)
  if !was && w.bit 31 then
    let x := s.group g
    s.setGroup g { x with cmps := x.cmps.modify l fun c => { c with armed := false, run := 0 } }
  else s

/-! ## What a group obeys of a firing (R132) -/

def State.cgObeys (s : State) (g : Nat) (r : FiringRec) : Nat :=
  if s.on Fld.CG_CTL_EN g ∧ (List.range 4).any fun k =>
      s.on Fld.CG_LISTEN_EN g k && s.on Fld.CG_LISTEN_TMR g k == r.timer && s.f Fld.CG_LISTEN_NUM g k == r.num
  then r.act &&& 0x07 else 0

end Sys2Proof.Machine
end

