-- ==== Sys2Proof/Machine/Chain.lean ====
section
/-! DEFINITION. Filter chains: the arithmetic of the CIC, the FIR and the group delay, and the words a chain forms (chapter
07 of spec/). -/

namespace Sys2Proof.Machine

def State.chain (s : State) (n : Nat) : Chain := Tab.get (fun _ => Chain.init) s.chains n
def State.setChain (s : State) (n : Nat) (c : Chain) : State :=
  { s with chains := Tab.put (fun _ => Chain.init) s.chains n c }

/-- Class and index of the chain's source. -/
def State.fcClass (s : State) (n : Nat) : Nat := s.f Fld.FC_SRC_SRC n / 4096
def State.fcLane (s : State) (n : Nat) : Nat := s.f Fld.FC_SRC_SRC n % 4096

/-- The group whose SCLK clocks the chain with source code `src` (R181). -/
def State.fcGroup (s : State) (n src : Nat) : Nat :=
  if src / 4096 = 1 then src % 4096 / 4 else s.f Fld.FC_CTL_CLKG n

/-- Whether the SCLK that clocks the chain runs (R181). -/
def State.fcSclk (s : State) (n : Nat) : Bool := s.sclk (s.fcGroup n (s.f Fld.FC_SRC_SRC n))

/-- Whether the chain's state moves: its SCLK runs, in a mode that does not hold the chain (R181, R200). -/
def State.fcMoves (s : State) (n : Nat) : Bool := s.mode.converts && s.fcSclk n

/-- Whether the chain takes words (R181, R200). -/
def State.fcRuns (s : State) (n : Nat) : Bool := s.on Fld.FC_CTL_EN n && s.fcMoves n

/-- The spacing of the source lane in sample periods (R211). -/
def State.fcSpacing (s : State) (n : Nat) : Nat := 4 / lanePerBeat (s.f Fld.CG_CTL_MODE (s.fcLane n / 4))

/-! ## CIC (R184, R185) -/

/-- The CIC's parameters. -/
structure CicCfg where
  n : Nat
  d : Nat
  k : Nat
  si : List Nat
  sc : List Nat
  heritage : Bool
  deriving DecidableEq, Repr

def State.cicCfg (s : State) (n : Nat) : CicCfg :=
  let sh := fun (w : Word) => (List.range 5).map fun j => w.bits (5 * j) 5
  { n := s.f Fld.FC_CIC_N n, d := s.f Fld.FC_CIC_D n, k := s.f Fld.FC_CIC_K n + 1,
    si := sh (s.word (Reg.FC_CIC_SHI.addr n 0)), sc := sh (s.word (Reg.FC_CIC_SHC.addr n 0)),
    heritage := s.on Fld.DEV_COMPAT_HERITAGE }

/-- The shift after a stage; none between stages under HERITAGE (R51). -/
def CicCfg.shift (c : CicCfg) (l : List Nat) (j : Nat) : Nat := if c.heritage then 0 else (l[j]?).getD 0

/-- The shift at the CIC output under HERITAGE. -/
def CicCfg.total (c : CicCfg) : Nat := min 63 (((c.si.take c.n).sum) + ((c.sc.take c.n).sum))

/-- A value in an 88-bit register. -/
def wrap88 (x : Int) : Int := toSigned 88 (ofSigned 88 x)

/-- The integrators take an input; what each hands on is shifted with floor rounding. -/
def integrate (c : CicCfg) (u : Int) : Nat → List Int → List Int × Int
  | _, [] => ([], u)
  | j, r :: rest =>
    if j < c.n then
      let r' := wrap88 (r + u)
      let x := integrate c (r' / 2 ^ c.shift c.si j) (j + 1) rest
      (r' :: x.1, x.2)
    else (r :: rest, u)

/-- The combs take a decimated value; each holds its last K inputs, newest first. -/
def combine (c : CicCfg) (u : Int) : Nat → List (List Int) → List (List Int) × Int
  | _, [] => ([], u)
  | j, h :: rest =>
    if j < c.n then
      let old := (h[c.k - 1]?).getD 0
      let y := wrap88 (u - old)
      let x := combine c (y / 2 ^ c.shift c.sc j) (j + 1) rest
      ((u :: h).take c.k :: x.1, x.2)
    else (h :: rest, u)

/-- The CIC output, saturated to 24 bits, and whether it saturated. -/
def cicOut (c : CicCfg) (y : Int) : Int × Bool :=
  let v := if c.heritage then y / 2 ^ c.total else y
  (satSigned 24 v, v != satSigned 24 v)

/-! ## FIR and group delay (R188, R190, R192, R193) -/

/-- Bits [17:0] of tap i of a bank, signed. -/
def State.coef (s : State) (n bank i : Nat) : Int :=
  toSigned 18 (s.f (if bank = 0 then Fld.FC_COEFA_COEF else Fld.FC_COEFB_COEF) n i)

def State.ntap (s : State) (n : Nat) : Nat := s.f Fld.FC_FIR_NTAP_M1 n + 1

/-- round(x / 2^k), halves toward +∞. -/
def roundShift (x : Int) (k : Nat) : Int := if k = 0 then x else (x + 2 ^ (k - 1)) / 2 ^ k

/-- The FIR output of a bank over the history of CIC outputs, newest first: value and whether it saturated. -/
def State.firOut (s : State) (n bank : Nat) (h : List Int) : Int × Bool :=
  let sum := ((h.take (s.ntap n)).zipIdx.map fun e => s.coef n bank e.2 * e.1).sum
  let v := roundShift sum (s.f Fld.FC_FIR_FSH n)
  (satSigned 32 v, v != satSigned 32 v)

/-- Whether a bank's set is symmetric or antisymmetric over its taps (R192). -/
def State.symmetric (s : State) (n bank : Nat) : Bool :=
  let k := s.ntap n
  let l := (List.range k).map fun i => (s.coef n bank i, s.coef n bank (k - 1 - i))
  l.all (fun e => e.1 == e.2) || l.all fun e => e.1 == -e.2

def State.bankKind (s : State) (n bank : Nat) : Nat := s.f Fld.FC_BANK_INFO_KIND n bank

/-- The check of a bank that becomes ACTBANK or the requested bank (R192). -/
def State.checkBank (s : State) (n bank : Nat) : State :=
  if s.bankKind n bank = 0 then s.setB Fld.FC_STAT_ASYM (!s.symmetric n bank) n else s

/-- τ_F before the clamp, and whether it is the declared one (R193). -/
def State.firDelay (s : State) (n bank : Nat) : Rat × Bool :=
  let k := s.ntap n
  if s.bankKind n bank = 0 ∧ s.symmetric n bank then (((k : Rat) - 1) / 2, false)
  else
    let c := (List.range k).map fun i => s.coef n bank i
    let sum := c.sum
    let num : Int := (c.zipIdx.map fun e => e.1 * (e.2 : Int)).sum
    if sum = 0 then ((toSigned 24 (s.f Fld.FC_BANK_INFO_GDD n bank) : Rat) / 256, true)
    else ((num : Rat) / sum, false)

/-- FCn_GDELAY is computed for the bank named by BANK (R193). -/
def State.updateGdelay (s : State) (n : Nat) : State :=
  let c := s.cicCfg n
  let r := s.firDelay n (s.f Fld.FC_FIR_BANK n)
  let tau : Rat := max (-256) (min 256 r.1)
  let g := (256 * (((c.n * (c.d * c.k - 1) : Nat) : Rat) / 2 + c.d * tau) + 1 / 2).floor
  ((s.setF Fld.FC_GDELAY (ofSigned 32 g) n).setB Fld.FC_STAT_GD_DECL r.2 n).setB Fld.FC_STAT_GD_CLAMP (tau != r.1) n

def State.gdelay (s : State) (n : Nat) : Rat := (toSigned 32 (s.f Fld.FC_GDELAY n) : Rat) / 256

/-! ## Cross-fades (R189 to R191) -/

/-- A finished fade hands over to the new bank (R190). -/
def State.fadeEnd (s : State) (n : Nat) : State :=
  let c := s.chain n
  match c.fade with
  | some (bank, i) =>
    if i ≤ s.f Fld.FC_FIR_XFLEN_M1 n then s
    else
      let s := s.setChain n { c with fade := none }
      let s := (s.setF Fld.FC_STAT_ACTBANK bank n).setF Fld.FC_STAT_XFADE 0 n
      (s.flag Fld.FC_IRQ_XF_DONE n).checkBank n bank
  | none => s

/-- A pending fade whose write has crossed starts, with the FIR output that is computed now (R189). -/
def State.fadeStart (s : State) (n : Nat) : State :=
  let c := s.chain n
  match c.pend with
  | some bank =>
    if c.crossed then
      ((s.setChain n { c with pend := none, crossed := false, fade := some (bank, 0) }).setF Fld.FC_STAT_XFADE 1 n).updateGdelay n
    else s
  | none => s

/-- The write that requested a fade has crossed: the fade starts at the next FIR output (R189). -/
def State.fadeCross (s : State) (n : Nat) : State :=
  let s := s.fadeEnd n
  let c := s.chain n
  if c.pend.isSome then s.setChain n { c with crossed := true } else s

/-- A write of FCn_FIR.BANK (R189, R191). -/
def State.writeBank (s : State) (n bank : Nat) : State :=
  let s := s.fadeEnd n
  let c := s.chain n
  if !s.on Fld.FC_CTL_EN n then
    ((s.setF Fld.FC_FIR_BANK bank n).setF Fld.FC_STAT_ACTBANK bank n).checkBank n bank
  else if s.f Fld.FC_FIR_BANK n = bank then s
  else if c.fade.isSome then s.flag Fld.FC_STAT_WR_IGN n
  else
    let s := s.setF Fld.FC_FIR_BANK bank n
    (s.setChain n { c with
      pend := if s.f Fld.FC_STAT_ACTBANK n = bank then none else some bank, crossed := false }).checkBank n bank

/-! ## The words a chain forms (R197, R198) -/

/-- An entry joins the gap log. -/
def State.pushGap (s : State) (n : Nat) (g : GapRec) : State :=
  let c := s.chain n
  if c.gaps.length < 16 then (s.setChain n { c with gaps := c.gaps ++ [g] }).flag Fld.FC_IRQ_GAP n
  else s.flag Fld.FC_IRQ_GAP_OVF n

/-- Whether a chain output is emitted (R51, R197). -/
def State.shows (s : State) (n : Nat) (b : ChainBand) : Bool :=
  b.causes == 0 || s.on Fld.DEV_COMPAT_HERITAGE || (s.on Fld.FC_CTL_XF_EMIT n && b.causes == 4)

/-- One chain output is formed: emitted, or suppressed and counted. -/
def State.formWord (s : State) (n val : Nat) (b : ChainBand) : State :=
  let c := { s.chain n with comp := (s.chain n).comp + 1 }
  if s.shows n b then
    let idx := c.emit
    let s := s.setChain n { c with emit := c.emit + 1, run := none }
    let s := match c.run with
      | some (cnt, cause) =>
        (s.pushGap n { idx := idx % 2 ^ 48, cnt := min cnt (2 ^ 32 - 1), cause := cause }).flagIf (cause % 2 == 1)
          Fld.FC_IRQ_SETTLED n
      | none => s
    s.emit (chainCode n)
      [{ val := val, index := idx, mark := b.mark != 0, ovr := b.ovr, settling := b.causes != 0, handover := b.handover,
         refUnset := b.refUnset, failover := b.failover, edge := none, entryStart := false, switched := false }]
  else
    let r := c.run.getD (0, 0)
    s.setChain n { c with supp := c.supp + 1, run := some (r.1 + 1, r.2 ||| b.causes) }

/-- The MARKs on an output that is suppressed are lost (R199, R217). -/
def State.markLost (s : State) (n : Nat) (b : ChainBand) : State :=
  if s.shows n b || b.mark == 0 then s
  else s.addSat (if s.on Fld.FC_CTL_RSEN n then Fld.FC_RS_EVCNT_MARK_LOST else Fld.FC_EVCNT_MARK_LOST) b.mark n

/-- One chain output, with what it does to its MARKs. -/
def State.formOut (s : State) (n val : Nat) (b : ChainBand) : State := (s.formWord n val b).markLost n b

/-- Two side bands joined. -/
def ChainBand.join (a b : ChainBand) : ChainBand :=
  { ovr := a.ovr || b.ovr, handover := a.handover || b.handover, refUnset := a.refUnset || b.refUnset,
    failover := a.failover || b.failover, mark := a.mark + b.mark, causes := a.causes ||| b.causes }

end Sys2Proof.Machine
end

