-- ==== Sys2Proof/Machine/Detect.lean ====
section
/-! DEFINITION. The detectors of a filter chain (R218 to R224 of spec/). -/

namespace Sys2Proof.Machine

def State.det (s : State) (n : Nat) : Detect := (s.chain n).det
def State.setDet (s : State) (n : Nat) (d : Detect) : State := s.setChain n { s.chain n with det := d }

/-- The detector's settings. -/
structure DetCfg where
  pdk : Nat
  eshR : Nat
  eshA : Nat
  pkRst : Bool
  span : Bool
  hold : Nat
  nw : Nat
  deriving DecidableEq, Repr

def State.detCfg (s : State) (n : Nat) : DetCfg :=
  { pdk := s.f Fld.FC_DET_CTL_PDK n, eshR := s.f Fld.FC_DET_CTL_ESH_R n, eshA := s.f Fld.FC_DET_CTL_ESH_A n,
    pkRst := s.on Fld.FC_DET_CTL_PK_RST n, span := s.on Fld.FC_DET_CTL_SPAN n, hold := s.f Fld.FC_DET_HOLD n,
    nw := s.f Fld.FC_DET_WIN_NW_M1 n + 1 }

/-- The peaks take a sample (R219). -/
def Detect.peaks (d : Detect) (c : DetCfg) (y : Int) : Detect :=
  match d.hi, d.lo with
  | some m, some n =>
    let d := if m ≤ y then { d with hi := some y, holdM := c.hold }
      else if 0 < d.holdM then { d with holdM := d.holdM - 1 }
      else if c.pdk < 31 then { d with hi := some (m - (m - y) / 2 ^ c.pdk) } else d
    if y ≤ n then { d with lo := some y, holdN := c.hold }
    else if 0 < d.holdN then { d with holdN := d.holdN - 1 }
    else if c.pdk < 31 then { d with lo := some (n + (y - n) / 2 ^ c.pdk) } else d
  | _, _ => { d with hi := some y, lo := some y, holdM := c.hold, holdN := c.hold }

/-- The envelope takes a sample (R220). -/
def Detect.envelope (d : Detect) (c : DetCfg) (y : Int) : Detect :=
  let a := min y.natAbs (2 ^ 31 - 1)
  if d.env < a then { d with env := d.env + (a - d.env) / 2 ^ c.eshA }
  else { d with env := d.env - (d.env - a) / 2 ^ c.eshR }

/-- The results of a closed window are latched, and its words formed (R223, R224). A window without samples has no stated
RMS, and peaks that no sample has loaded have no stated value: free values. -/
def State.detLatch (s : State) (n : Nat) : State :=
  let d := s.det n
  match d.closed with
  | none => s
  | some w =>
    let free := fun k => s.fresh k % 2 ^ 32
    let rms := if w.n = 0 then free 0 else Nat.sqrt (w.sumsq / w.n)
    let m := match d.hi with | some x => ofSigned 32 x | none => free 1
    let lo := match d.lo with | some x => ofSigned 32 x | none => free 2
    let s := { s with freeCount := s.freeCount + 1 }
    let rst := s.on Fld.FC_DET_CTL_PK_RST n
    let s := s.setDet n (if rst then { d with closed := none, hi := none, lo := none } else { d with closed := none })
    let s := ((s.setF Fld.FC_DET_RMS rms n).setF Fld.FC_DET_PKMAX m n).setF Fld.FC_DET_PKMIN lo n
    let s := ((s.setF Fld.FC_DET_WSTAT_NS w.n n).setB Fld.FC_DET_WSTAT_LONG w.long n).setB Fld.FC_DET_WSTAT_SETTLING
      (w.band.causes != 0) n
    let s := (s.setPair Fld.FC_DET_WIDX_LO Fld.FC_DET_WIDX_HI w.first n).addWrap Fld.FC_DET_WCNT 1 n
    let s := (s.flag Fld.FC_RS_IRQ_WIN n).flagIf w.long Fld.FC_RS_IRQ_LONG n
    match s.f Fld.FC_RS_CTL_OUTSEL n with
    | 2 => s.formOut n rms w.band
    | 3 => (s.formOut n m w.band).formWord n lo w.band
    | _ => s

/-- The open window closes. -/
def State.detClose (s : State) (n : Nat) : State :=
  let s := s.detLatch n
  let d := s.det n
  match d.win with
  | some w => s.setDet n { d with win := none, closed := some w }
  | none => s

/-- The open window closes if it holds a sample, and a new one starts (R221). -/
def State.detAlign (s : State) (n : Nat) : State :=
  if (s.det n).win.any fun w => 0 < w.n then s.detClose n else s

/-- Span events up to position `pos` act (R222). -/
def State.detSpans (s : State) (n : Nat) (pos : Rat) (fuel : Nat) : State :=
  match fuel with
  | 0 => s
  | k + 1 =>
    match (s.det n).spans with
    | (isOpen, b) :: rest =>
      if b ≤ pos then
        let s := (s.setDet n { s.det n with spans := rest }).detClose n
        (if isOpen then s.setDet n { s.det n with win := some (DetWin.init (s.det n).taps) } else s).detSpans n pos k
      else s
    | [] => s

/-- One sample of the tap stream (R218 to R222). -/
def State.detSample (s : State) (n : Nat) (y : Int) (pos : Rat) (b : ChainBand) : State :=
  let c := s.detCfg n
  let s := s.detLatch n
  let s := if c.span then s.detSpans n pos ((s.det n).spans.length) else s
  let s := s.detLatch n
  let d := s.det n
  let win := match d.win with
    | some w => some w
    | none => if c.span then none else some (DetWin.init d.taps)
  let win := win.map fun w =>
    { w with n := w.n + 1, sumsq := w.sumsq + y.natAbs * y.natAbs, band := w.band.join b }
  let d := ({ d with taps := d.taps + 1, win := win }.peaks c y).envelope c y
  let s := (s.setDet n d).setF Fld.FC_DET_ENV d.env n
  let s := if s.f Fld.FC_RS_CTL_OUTSEL n = 1 then s.formOut n d.env b else s
  match win with
  | some w =>
    if c.span then
      if 2 ^ 24 ≤ w.n then (s.setDet n { s.det n with win := some { w with long := true } }).detClose n else s
    else if c.nw ≤ w.n then s.detClose n else s
  | none => s

end Sys2Proof.Machine
end

