-- ==== Sys2Proof/Machine/Resampler.lean ====
section
/-! DEFINITION. The polyphase resampler: kernel, positions, slots, turn log (R204 to R217 of spec/). -/

namespace Sys2Proof.Machine

/-! ## The kernel (R204, R205, R208) -/

/-- Entry `k` of the coefficient store, signed, in units of 2^-17. -/
def Chain.kernel (c : Chain) (k : Nat) : Int := toSigned 18 (Tab.get (fun _ => 0) c.store k)

/-- A position truncated to 24 fractional bits. -/
def truncPos (p : Rat) : Rat := ((p * 2 ^ 24).floor : Rat) / 2 ^ 24

/-- The interpolated tap j of R205, in units of 2^-33. -/
def Chain.tap (c : Chain) (q beta j : Nat) : Int :=
  let x := c.kernel (16 * q + j)
  let y := if q < 255 then c.kernel (16 * (q + 1) + j) else if j = 15 then 0 else c.kernel (j + 1)
  2 ^ 16 * x + beta * (y - x)

/-- FIR output `m` of the history; one before the first has value 0 and counts as START (R217), one that has left has a free
value. DEDUCED, log entry 27. -/
def Chain.fir (c : Chain) (m : Int) : FirOut :=
  match c.hist.find? fun h => (h.m : Int) = m with
  | some h => h
  | none =>
    if m < 0 then { m := 0, val := 0, band := { ChainBand.nil with causes := 1 } }
    else { m := m.toNat, val := satSigned 32 (Config.lostFirOutput m), band := ChainBand.nil }

/-- Whether the history keeps `h` when output `m` joins it: one that a waiting output needs, and what a later one can (R206).
DEDUCED, log entry 27. -/
def Chain.keeps (c : Chain) (m : Nat) (h : FirOut) : Bool :=
  decide (m < h.m + 1024) || c.slots.any fun x => decide (x.pi.floor - 7 ≤ (h.m : Int))

/-- The output at position `p` (R205): value, whether it saturated, and the side band of its taps. -/
def Chain.resample (c : Chain) (p : Rat) : Int × Bool × ChainBand :=
  let p := truncPos p
  let i := p.floor
  let frac := ((p - i) * 2 ^ 24).floor.toNat
  let q := frac / 65536
  let beta := frac % 65536
  let taps := (List.range 16).map fun j => (c.tap q beta j, c.fir (i + 8 - j))
  let v := ((taps.map fun e => e.1 * e.2.val).sum + 2 ^ 32) / 2 ^ 33
  let b := taps.foldl (fun b e => b.join { e.2.band with mark := 0 }) ChainBand.nil
  (satSigned 32 v, v != satSigned 32 v, b)

/-- FCn_RS_KDELAY (R208); entry 16q + j is h[256j + q]. -/
def Chain.kdelay (c : Chain) : Int :=
  let l := (List.range 4096).map fun k => (c.kernel k, 256 * (k % 16) + k / 16)
  let sum := (l.map (·.1)).sum
  let num := (l.map fun e => e.1 * (e.2 : Int)).sum
  if sum = 0 then 0 else ((num : Rat) / sum + 1 / 2).floor - 2048

/-! ## MARK at the resampler (R217) -/

/-- A MARK on FIR output `m` waits for its output; a fifth is lost (R217). -/
def State.rsMark (s : State) (n m : Nat) : State :=
  let c := s.chain n
  if c.rsMarks.length < 4 then s.setChain n { c with rsMarks := c.rsMarks ++ [m] }
  else s.addSat Fld.FC_RS_EVCNT_MARK_LOST 1 n

/-- How far two positions lie apart. -/
def apart (a b : Rat) : Rat := max (a - b) (b - a)

/-- What becomes of a waiting MARK at `m` as the output at `p` is reached, the last one lying at `prev` and the next at or after
`next`: it waits (none), it goes to the output at `p` (true), or the output it belongs to has already gone (false). DEDUCED, log
entry 27. -/
def markFate (prev : Option Rat) (p next : Rat) (m : Nat) : Option Bool :=
  if p < m ∧ next - m ≤ m - p then none else some (!prev.any fun q => decide (apart m q < apart m p))

/-- The outputs of the chain have reached `p`; the MARKs that go there, and the number of those that are lost. -/
def Chain.reach (c : Chain) (p next : Rat) : Chain × Nat × Nat :=
  let fate := markFate c.lastOut p next
  ({ c with lastOut := some p, rsMarks := c.rsMarks.filter fun m => (fate m).isNone },
   c.rsMarks.countP (fun m => fate m == some true), c.rsMarks.countP (fun m => fate m == some false))

/-- `k` MARKs of the resampler are lost. -/
def State.rsMarksLost (s : State) (n k : Nat) : State := if k = 0 then s else s.addSat Fld.FC_RS_EVCNT_MARK_LOST k n

/-! ## Forming outputs -/

def State.rsMode (s : State) (n : Nat) : Nat := s.f Fld.FC_RS_CTL_MODE n

/-- The turn being formed joins the turn log (R214). -/
def State.turnEnd (s : State) (n : Nat) : State :=
  let c := s.chain n
  match c.turn with
  | none => s
  | some t =>
    let s := s.setChain n { c with turn := none }
    if c.tlog.length < 32 then (s.setChain n { s.chain n with tlog := c.tlog ++ [t] }).flag Fld.FC_RS_IRQ_TLOG n
    else s.flag Fld.FC_RS_IRQ_TLOG_OVF n

/-- The first formed slot of a turn; it may start a window (R221). -/
def State.turnFirst (s : State) (n : Nat) (x : RsSlot) : State :=
  let c := s.chain n
  let s := s.setChain n { c with
    turn := some { turn := x.turn, firstSlot := x.slot, nslot := 1, f := c.comp, coast := x.coast,
                   newEpoch := c.lastEpoch != some x.epoch },
    lastEpoch := some x.epoch }
  if s.on Fld.FC_DET_CTL_ALIGN n && s.on Fld.FC_DET_CTL_TAP n && !s.on Fld.FC_DET_CTL_SPAN n then s.detAlign n else s

/-- A formed slot joins its turn (R214). -/
def State.turnSlot (s : State) (n : Nat) (x : RsSlot) : State :=
  match (s.chain n).turn with
  | some t =>
    if t.turn = x.turn then
      s.setChain n { s.chain n with turn := some { t with nslot := t.nslot + 1, coast := t.coast || x.coast } }
    else (s.turnEnd n).turnFirst n x
  | none => s.turnFirst n x

/-- One resampler output is formed at `p`; the next lies at or after `next`. -/
def State.rsForm (s : State) (n : Nat) (p next : Rat) (slot : Option RsSlot) : State :=
  let c := s.chain n
  let r := c.resample p
  let k := c.reach p next
  let b := { r.2.2 with ovr := r.2.2.ovr || r.2.1, mark := k.2.1 }
  let s := (s.setChain n { k.1 with lastPi := some p }).rsMarksLost n k.2.2
  let s := if r.2.1 then s.addSat Fld.FC_EVCNT_SATS 1 n else s
  let s : State := match slot with | some x => s.turnSlot n x | none => s
  let s := if s.on Fld.FC_DET_CTL_TAP n then s.detSample n r.1 (truncPos p) b else s
  if s.f Fld.FC_RS_CTL_OUTSEL n = 0 then s.formOut n (ofSigned 32 r.1) b else s

/-- A slot that is never formed is passed: its MARKs are lost (R213, R217). -/
def State.rsPass (s : State) (n : Nat) (p next : Rat) : State :=
  let k := (s.chain n).reach p next
  (s.setChain n k.1).rsMarksLost n (k.2.1 + k.2.2)

/-- The outputs that FIR output `m` completes (R206, R210). -/
def State.rsRun (s : State) (n m : Nat) (fuel : Nat) : State :=
  match fuel with
  | 0 => s
  | k + 1 =>
    let c := s.chain n
    if s.rsMode n = 0 then
      if c.nextPi.floor + 8 ≤ m then
        let p := c.nextPi
        let next := p + (c.inc : Rat) / 2 ^ 40
        ((s.setChain n { c with nextPi := next }).rsForm n p next none).rsRun n m k
      else s
    else
      match c.slots with
      | x :: rest =>
        if x.pi.floor + 8 ≤ m then
          let next : Rat := match rest with | y :: _ => y.pi | [] => m + s.gdelay n / s.f Fld.FC_CIC_D n
          let s := s.setChain n { c with slots := rest }
          (if x.ghost then s.rsPass n x.pi next else s.rsForm n x.pi next x.slot).rsRun n m k
        else s
      | [] => s

/-! ## From an instant to a position (R211) -/

/-- The last output formed, or that will be before a slot placed now. -/
def Chain.lastFormed (c : Chain) : Option Rat :=
  match (c.slots.filter fun x => !x.ghost).getLast? with
  | some x => some x.pi
  | none => c.lastPi

/-- What a position does: an output in its order (R213, R215), or a detector span (R222). -/
def State.rsPlace (s : State) (n : Nat) (x : RsInst) (p : Option Rat) : State :=
  let c := s.chain n
  match x.what, p with
  | .slot t, none =>
    if c.dead = some t.turn then s
    else (s.setChain n { c with dead := some t.turn }).addSat Fld.FC_RS_EVCNT_NOPOS 1 n
  | .slot t, some p =>
    let put := fun (ghost : Bool) => c.slots ++ [⟨p, some t, ghost⟩]
    if c.dead = some t.turn then s.setChain n { c with slots := put true }
    else if c.lastFormed.any fun l => p - l < 1 / 2 then
      ((s.setChain n { c with dead := some t.turn, slots := put true }).addSat Fld.FC_RS_EVCNT_SKIP 1 n).flag
        Fld.FC_RS_IRQ_SKIP n
    else s.setChain n { c with slots := put false }
  | .alarm, some p => s.setChain n { c with slots := c.slots ++ [⟨p, none, false⟩] }
  | .spanOpen, some p => s.setDet n { c.det with spans := c.det.spans ++ [(true, truncPos p)] }
  | .spanClose, some p => s.setDet n { c.det with spans := c.det.spans ++ [(false, truncPos p)] }
  | _, none => s.addSat Fld.FC_RS_EVCNT_NOPOS 1 n

/-- The position of a sample position in lane entry `e` (R211). -/
def State.posOf (s : State) (n : Nat) (e : LaneEntry) (sigma : Rat) : Rat :=
  let d := s.f Fld.FC_CIC_D n
  let pin := e.a + (sigma - e.first) / s.fcSpacing n
  (pin + s.gdelay n - d + 1) / d

/-- Whether no word of the chain's lane holds the sample position `sg`: the group has passed it, or converts nothing, and no
word on its way covers it (R211). -/
def State.laneSilent (s : State) (n : Nat) (sg : Rat) : Bool :=
  let g := s.fcLane n / 4
  let x := s.group g
  let half : Rat := (s.fcSpacing n : Rat) / 2
  let stands := !s.on Fld.CG_CTL_EN g || x.core.seq.st == .idle || x.core.seq.st == .armed || x.core.seq.st == .paused
  let passed := x.lastEdge.any fun e => decide (sg < ((4 * e + 4 : Nat) : Rat) - half)
  let ways := ((s.feed (feedFC n)).inq.map fun w => w.edge.getD 0) ++
    x.core.held.flatMap fun h => ((h.lanes[s.fcLane n % 4]?).getD []).map (·.edge)
  (stands || passed) && !ways.any fun e => decide ((e : Rat) - half ≤ sg ∧ sg < e + half)

/-- The waiting instants whose place in the lane is known act, in order; one that no word will hold has none. `gapTo` is the
first edge of the entry that now begins, where one begins: instants before it lie in no entry. -/
def State.rsResolve (s : State) (n : Nat) (gapTo : Option Nat) (fuel : Nat) : State :=
  match fuel with
  | 0 => s
  | k + 1 =>
    let c := s.chain n
    match c.insts with
    | [] => s
    | x :: rest =>
      let half : Rat := (s.fcSpacing n : Rat) / 2
      let drop := s.setChain n { c with insts := rest }
      match x.sigma with
      | none => (drop.rsPlace n x none).rsResolve n gapTo k
      | some sg =>
        let inside := match c.entry with
          | some e => decide ((e.first : Rat) - half ≤ sg ∧ sg < e.last + half)
          | none => false
        let before := match c.entry with
          | some e => decide (sg < (e.first : Rat) - half)
          | none => false
        let gap := match gapTo with | some g => decide (sg < (g : Rat) - half) | none => false
        if inside then
          match c.entry with
          | some e => (drop.rsPlace n x (some (s.posOf n e sg))).rsResolve n gapTo k
          | none => s
        else if before || gap || s.laneSilent n sg then (drop.rsPlace n x none).rsResolve n gapTo k
        else s

/-- A chain takes up an instant in fine units, with the position of R55 or R56; outside the modes in which the chain runs it
has none (R226). -/
def State.rsQueue (s : State) (n : Nat) (inst : Rat) (what : RsWhat) : State :=
  let c := s.chain n
  let sg := if s.mode.converts ∧ s.fcClass n = 1 then s.samplePos inst else none
  let s := s.setChain n { c with insts := c.insts ++ [⟨sg, what⟩] }
  s.rsResolve n none (c.insts.length + 1)

/-- The alarm instants that wait for a position or for their output. -/
def Chain.alarmsQueued (c : Chain) : Nat := (c.insts.filter fun x => x.what == .alarm).length + c.slots.length

/-- The instants of the chains on group `g` that no word will hold are discarded (R211, R215). -/
def State.rsSweep (s : State) (g : Nat) : State :=
  s.chains.foldl (fun s e =>
    if e.2.insts ≠ [] ∧ s.fcClass e.1 = 1 ∧ s.fcLane e.1 / 4 = g then s.rsResolve e.1 none (e.2.insts.length + 1) else s) s

/-- A firing with RS_INSTANT at a chain (R215, R222). -/
def State.rsInstant (s : State) (n : Nat) (r : FiringRec) : State :=
  let num := r.num
  let hears := (List.range 4).any fun k => s.on Fld.FC_RS_LISTEN_EN n k && s.f Fld.FC_RS_LISTEN_NUM n k == num
  let s :=
    if s.on Fld.FC_CTL_RSEN n ∧ s.rsMode n = 2 ∧ s.fcClass n = 1 ∧ hears then
      if 64 ≤ (s.chain n).alarmsQueued then s.addSat Fld.FC_RS_EVCNT_QOVF 1 n else s.rsQueue n r.instant .alarm
    else s
  if s.on Fld.FC_DET_CTL_SPAN n then
    if s.f Fld.FC_DET_SPAN_OPEN_PA n = num then s.rsQueue n r.instant .spanOpen
    else if s.f Fld.FC_DET_SPAN_CLOSE_PA n = num then s.rsQueue n r.instant .spanClose
    else s
  else s

/-- What a chain obeys of a firing: RS_INSTANT of a listened alarm (R215, R222). -/
def State.fcObeys (s : State) (n : Nat) (r : FiringRec) : Nat :=
  let hears := s.on Fld.FC_CTL_RSEN n && s.rsMode n == 2 &&
    (List.range 4).any fun k => s.on Fld.FC_RS_LISTEN_EN n k && s.f Fld.FC_RS_LISTEN_NUM n k == r.num
  let spans := s.on Fld.FC_DET_CTL_SPAN n &&
    (s.f Fld.FC_DET_SPAN_OPEN_PA n == r.num || s.f Fld.FC_DET_SPAN_CLOSE_PA n == r.num)
  if s.on Fld.FC_CTL_EN n && !r.timer && (hears || spans) then r.act &&& 0x08 else 0

/-! ## Locked slots (R212) -/

/-- The phase of slot J (slots counted through the turns): k/S to 40 fractional bits, and PHOFS. -/
def slotPhase (spt : Nat) (phofs : Nat) (j : Int) : Rat :=
  let k := j % spt
  let frac := ((k * 2 ^ 40 : Int) : Rat) / spt
  (j / spt : Int) + ((frac + 1 / 2).floor : Rat) / 2 ^ 40 + (phofs : Rat) / 2 ^ 32

/-- The first slot at or after phase `a`. -/
def slotAfter (spt phofs : Nat) (a : Rat) : Int :=
  let j := ((a - (phofs : Rat) / 2 ^ 32) * spt).floor - 1
  if a ≤ slotPhase spt phofs j then j
  else if a ≤ slotPhase spt phofs (j + 1) then j + 1
  else if a ≤ slotPhase spt phofs (j + 2) then j + 2
  else j + 3

/-- The next slot of chain `n` is passed in `tick`, if one is. -/
def State.rsSlot (s : State) (n tick : Nat) : State :=
  let c := s.chain n
  let ref := s.f Fld.FC_RS_CTL_REF n
  let t := s.trk ref
  let from_ : Int := (tick : Int) * 64
  if s.on Fld.FC_CTL_EN n ∧ s.on Fld.FC_CTL_RSEN n ∧ s.rsMode n = 1 ∧ s.fcClass n = 1 ∧ s.lclk ∧ t.state.tracking ∧
      t.t0 ≤ from_ then
    let spt := s.f Fld.FC_RS_CTL_SPT_M1 n + 1
    let ph := s.f Fld.FC_RS_PHOFS n
    let a := t.phase from_
    let j := slotAfter spt ph a
    let j := match c.lastJ with | some l => max j (l + 1) | none => j
    let inst := slotPhase spt ph j
    if inst < t.phase (from_ + 64) then
      let rem := ((inst - a) / t.rate / 64 * 65536).floor.toNat
      let x : RsSlot :=
        { turn := ((j / spt) % 2 ^ 32).toNat, slot := (j % spt).toNat, coast := t.state == .coasting, epoch := t.locks }
      ((s.atTick tick).setChain n { c with lastJ := some j }).rsQueue n ((tick + (rem : Rat) / 65536) * 64) (.slot x)
    else s
  else s

/-- Reference `r` leaves Locked and Coasting: the turns locked to it end, so that a new lock goes on with the
next turn, and the MARKs that wait have no output (R213, R214, R217). -/
def State.rsRefLost (s : State) (r : Nat) : State :=
  (List.range s.part.numFC).foldl (fun s n =>
    if s.on Fld.FC_CTL_EN n ∧ s.on Fld.FC_CTL_RSEN n ∧ s.rsMode n = 1 ∧ s.f Fld.FC_RS_CTL_REF n = r then
      let s := s.rsResolve n none ((s.chain n).insts.length + 1)
      let s := (s.turnEnd n).rsMarksLost n (s.chain n).rsMarks.length
      let c := s.chain n
      let spt := s.f Fld.FC_RS_CTL_SPT_M1 n + 1
      s.setChain n { c with
        slots := [], lastJ := none, rsMarks := [],
        dead := match c.lastJ with
          | some j => some ((j / spt) % 2 ^ 32).toNat
          | none => c.dead,
        insts := c.insts.filter fun x => match x.what with | .slot _ => false | _ => true }
    else s) s

/-- The entry to Locked that a chain enabled now takes as seen (R214): that of a reference that tracks, past the first turn
after its entry to Locked. -/
def State.startEpoch (s : State) (n : Nat) : Option Nat :=
  let t := s.trk (s.f Fld.FC_RS_CTL_REF n)
  let turn : Rat → Int := fun phase => (phase - (s.f Fld.FC_RS_PHOFS n : Rat) / 2 ^ 32).floor
  if t.state.tracking && decide (turn t.origin < turn (t.phase ((s.lcs.time : Int) * 64))) then some t.locks else none

end Sys2Proof.Machine
end

