-- ==== Sys2Proof/Machine/RingCore.lean ====
section
/-! DEFINITION. The upstream half of the capture rings: blocks, the token bucket, the ledger (chapter 16 of spec/). -/

namespace Sys2Proof.Machine

def State.ring (s : State) (r : Nat) : Ring := Tab.get (fun _ => Ring.init) s.rings r
def State.setRing (s : State) (r : Nat) (x : Ring) : State :=
  { s with rings := Tab.put (fun _ => Ring.init) s.rings r x }

/-- DMAr_STAT.ADMITTED and DMAr_CFG.DIR. -/
def State.admitted (s : State) (r : Nat) : Bool := s.on Fld.DMA_RSTAT_ADMITTED r
def State.downstream (s : State) (r : Nat) : Bool := s.on Fld.DMA_CFG_DIR r

/-- NBLK (R399). -/
def State.nblk (s : State) (r : Nat) : Nat := 512 * (s.f Fld.DMA_DATA_NPG_M1 r + 1)

/-- The class of the ring's source, and W and the bytes of a word that follow from it (R402). -/
def State.ringClass (s : State) (r : Nat) : Nat := s.f Fld.DMA_CFG_SRC r / 4096
def State.ringW (s : State) (r : Nat) : Nat := if s.ringClass r = 2 then 1024 else 2048
def State.wordBytes (s : State) (r : Nat) : Nat := if s.ringClass r = 2 then 4 else 2

/-- HEAD − TAIL, computed modulo 2^32 (R400). -/
def State.ringFill (s : State) (r : Nat) : Nat := (s.f Fld.DMA_HEAD r + 2 ^ 32 - s.f Fld.DMA_TAIL r) % 2 ^ 32

/-- The blocks of ring `r` in the replay buffer (R527). -/
def State.replayOf (s : State) (r : Nat) : List RingBlock := (s.twin.replay.filter fun e => e.1 == r).map (·.2)

/-- The blocks after HEAD that are closed and not yet confirmed or written. -/
def State.ringAhead (s : State) (r : Nat) : Nat := (s.ring r).closed.length + (s.replayOf r).length

/-- Whether the ring's ledger moves: in Bench only the Bureau's bulk rings do (R36). -/
def State.ringLive (s : State) (r : Nat) : Bool :=
  s.mode != .bench || (!s.downstream r && s.f Fld.DMA_CFG_SRC r == 0) || s.bur.bulkIn == some r

/-- Whether a block may open (R402). -/
def State.canOpen (s : State) (r : Nat) : Bool :=
  decide (s.ringFill r + s.ringAhead r < s.nblk r) && decide ((s.ring r).closed.length ≤ 1)

/-- Whether the ring has a place for a word, tokens apart. -/
def State.ringPlace (s : State) (r : Nat) : Bool := (s.ring r).opened.isSome || s.canOpen r

/-- Whether ring `r` holds its source back (R23, R408). -/
def State.ringHolds (s : State) (r : Nat) : Bool :=
  s.admitted r && !s.downstream r && s.on Fld.DMA_CFG_POLICY r &&
    (!(s.feed (feedRing r)).inq.isEmpty || !s.ringPlace r)

/-- The stamp of a block whose first word is `w`, at the ring since `at_` (R57, R407, R417): the sample-clock edge for a lane
while SMP_VALID = 1, the arrival else. -/
def State.stampOf (s : State) (r : Nat) (w : StreamWord) (at_ : Int) : BlockStamp :=
  let cls := s.ringClass r
  if cls = 0 then ⟨true, 0, 0, 0, 0, 0⟩
  else
    let lane := if cls = 1 ∧ s.smpValid then w.edge.bind s.edgeInstant else none
    let fine : Int := match lane with
      | some x => Config.toWhole .tickLeft x
      | none => at_
    let g := (s.trk (s.f Fld.DMA_CFG_PREF r)).segAt fine
    ⟨lane.isNone, fine, turnOf g.2, fracOf g.2, g.1.state.code, g.1.epoch⟩

/-- The open block of ring `r` closes (R403). -/
def State.closeBlock (s : State) (r : Nat) : State :=
  let x := s.ring r
  match x.opened with
  | some b => s.setRing r { x with opened := none, closed := x.closed ++ [b] }
  | none => s

/-- The source of ring `r` restarts or stops (R403): the open block closes, the next carries FIRST. -/
def State.ringRestart (s : State) (r : Nat) : State :=
  let s := s.closeBlock r
  s.setRing r { s.ring r with first := true }

/-- A source stops: it restarts at every ring that takes it, after the words still on their way (R403). -/
def State.sourceStops (s : State) (code : Nat) : State :=
  s.feeds.foldl (fun s e =>
    if feedRing 0 ≤ e.1 ∧ e.2.src = code ∧ code ≠ 0 then
      let r := e.1 - feedRing 0
      if e.2.inq.isEmpty then s.ringRestart r
      else s.setRing r { s.ring r with stopIn := some e.2.inq.length }
    else s) s

/-- On the standby, the open block closes before the word at which the primary's next block began (R527). -/
def State.closeHere (s : State) (r : Nat) (w : StreamWord) : State :=
  if s.twin.closeAt.contains (r, w.index) then
    let s := s.closeBlock r
    { s with twin := { s.twin with closeAt := s.twin.closeAt.filter fun e => e != (r, w.index) } }
  else s

/-- A word is placed in the open block, or opens one (R402). -/
def State.placeWord (s : State) (r : Nat) (w : StreamWord) (at_ : Int) : State :=
  let x := s.ring r
  let s' := match x.opened with
    | some b => s.setRing r { x with opened := some { b with words := b.words ++ [(w, at_)] } }
    | none =>
      let b : RingBlock := { seq := (s.f Fld.DMA_HEAD r + s.ringAhead r) % 2 ^ 32, words := [(w, at_)],
                             stamp := s.stampOf r w at_, dropped := x.dropped, first := x.first, failover := false }
      s.setRing r { x with opened := some b, dropped := false, first := false }
  match (s'.ring r).opened with
  | some b => if s'.ringW r ≤ b.words.length then s'.closeBlock r else s'
  | none => s'

/-- The ring drops a word: DROP_NEW (R408). -/
def State.dropWord (s : State) (r : Nat) : State :=
  let s := s.closeBlock r
  (s.setRing r { s.ring r with dropped := true, droppedCnt := (s.ring r).droppedCnt + 1,
                               bulkLost := (s.ring r).bulkLost || s.ringClass r == 0 }).flag Fld.DMA_IRQ_DROP r

/-- The tokens after `ns` nanoseconds more (R409). -/
def State.refillTokens (s : State) (r ns : Nat) : State :=
  s.setRing r { s.ring r with tokens := min 8192000 ((s.ring r).tokens + s.f Fld.DMA_RATE r * ns) }

/-- After a word has left the way to the ring: a source that stopped behind it has now stopped. -/
def State.ringStep (s : State) (r : Nat) : State :=
  match (s.ring r).stopIn with
  | some 0 => (s.ringRestart r).setRing r { (s.ringRestart r).ring r with stopIn := none }
  | some 1 => (s.ringRestart r).setRing r { (s.ringRestart r).ring r with stopIn := none }
  | some (k + 2) => s.setRing r { s.ring r with stopIn := some (k + 1) }
  | none => s

/-- Ring `r` meets the oldest word on its way, `ns` nanoseconds after the word before, at the instant `at_` (R402, R408 to
R410). -/
def State.ringWord (s : State) (r ns : Nat) (at_ : Int) : State :=
  let s := s.refillTokens r ns
  match (s.feed (feedRing r)).inq with
  | [] => s
  | w :: _ =>
    if s.admitted r ∧ ¬ s.downstream r then
      let s := (if w.index = 0 then s.ringRestart r else s).closeHere r w
      let cost := 1000 * s.wordBytes r
      let poor := decide ((s.ring r).tokens < cost)
      let ok := s.ringPlace r && !poor
      let s := s.flagIf poor Fld.DMA_IRQ_OVERRATE r
      if ok then
        let x := s.ring r
        let s := (s.consume (feedRing r) 1).setRing r { x with tokens := x.tokens - cost, produced := x.produced + 1 }
        (s.placeWord r w at_).ringStep r
      else if s.on Fld.DMA_CFG_POLICY r then s
      else
        let x := s.ring r
        (((s.consume (feedRing r) 1).setRing r { x with produced := x.produced + 1 }).dropWord r).ringStep r
    else s.consume (feedRing r) 1

/-! ## Retirement without final writes (R419, R463) -/

/-- The charge of ring `r` (R411). -/
def State.ringCharge (s : State) (r : Nat) : Nat :=
  let rate := s.f Fld.DMA_RATE r
  if s.downstream r then rate else (rate * 4128 + 4095) / 4096

/-- DMA_GSTAT follows the sums and the budget (R412). -/
def State.gstat (s : State) : State :=
  let b := s.f Fld.DMA_BUDGET
  (s.setB Fld.DMA_GSTAT_OVER_UP (decide (b < s.f Fld.DMA_UPSUM))).setB Fld.DMA_GSTAT_OVER_DN (decide (b < s.f Fld.DMA_DNSUM))

/-- The charge of ring `r` joins or leaves its direction's sum. -/
def State.addCharge (s : State) (r : Nat) (on : Bool) : State :=
  let c := s.ringCharge r
  let put := fun (s : State) (f : FieldRef) => s.setF f (if on then s.f f + c else s.f f - c)
  (if s.downstream r then put s Fld.DMA_DNSUM else put s Fld.DMA_UPSUM).gstat

/-- Every consumer that takes downstream ring `r`, and ring `r` itself, lose the connection's waiting words (R414). -/
def State.detachRing (s : State) (r : Nat) : State := s.setFeed (feedRing r) Feed.init

/-- A block is counted towards the ring's next BLK event, which only that event clears (R418). -/
def State.countBlock (s : State) (r : Nat) : State :=
  let x := s.ring r
  let n := s.f Fld.DMA_MOD_BLKS r
  if n ≠ 0 ∧ n ≤ x.blkCount + 1 then (s.setRing r { x with blkCount := 0 }).flag Fld.DMA_IRQ_BLK r
  else s.setRing r { x with blkCount := x.blkCount + 1 }

/-- TAIL of a downstream ring passes the blocks whose words that had arrived are now discarded, and counts them (R415, R418). -/
def State.passTail (s : State) (r : Nat) : State :=
  let x := s.ring r
  let n := (x.arrived.length + x.late.length + 2047) / 2048
  if s.downstream r then (List.range n).foldl (fun s _ => s.countBlock r) (s.addWrap Fld.DMA_TAIL n r) else s

/-- Ring `r` is retired without final writes: INFLIGHT and what its input crossing holds are added to DROPPED (R419, bit 11 of
R499). -/
def State.retireRing (s : State) (r : Nat) : State :=
  if s.admitted r then
    let x := s.ring r
    let q := (s.feed (feedRing r)).inq.length
    let produced := x.produced + (if s.downstream r then x.late.length else q)
    let s := (s.passTail r).setRing r { Ring.init with
      produced := produced, written := x.written, droppedCnt := produced - x.written,
      blkCount := ((s.passTail r).ring r).blkCount }
    let s := { s with twin := { s.twin with replay := s.twin.replay.filter fun e => e.1 != r } }
    let s := if 0 < q then s.setBit Fld.DEV_XSTAT_XRST 11 else s
    let s := (s.detachRing r).addCharge r false
    (s.setF Fld.DMA_RSTAT_ADMITTED 0 r).flag Fld.DMA_RSTAT_RESET r
  else s

/-- The rings that the registers show as admitted. -/
def State.admittedRings (s : State) : List Nat :=
  s.regs.filterMap fun e =>
    if 0x580000 ≤ e.1 ∧ e.1 < 0x5C0000 ∧ (e.1 - 0x580000) % 0x40 = 0x14 ∧ e.2.bit 31 then some ((e.1 - 0x580000) / 0x40)
    else none

/-- Every admitted ring of a function (none: of any function) is retired without final writes. -/
def State.retireRings (s : State) (func : Option Nat) : State :=
  s.admittedRings.foldl (fun s r => if func.all (· == s.f Fld.DMA_CFG_FUNC r) then s.retireRing r else s) s

end Sys2Proof.Machine
end

