-- ==== Sys2Proof/Machine/CalStep.lean ====
section
/-! DEFINITION. Repeat agreement (R267) and the CAL_DISAGREE marks (R268). -/

namespace Sys2Proof.Machine

/-- The value an agreed step writes: of the first of at most four attempts whose two results differ by no more than the
tolerance, their mean rounded toward zero (R267); none where all disagree. -/
def calStep (tol : Nat) (tries : List (Int × Int)) : Option Int :=
  ((tries.take 4).find? fun t => decide ((t.1 - t.2).natAbs ≤ tol)).map fun t => Int.tdiv (t.1 + t.2) 2

/-- `s` with the set of marked fields replaced, and NDIS with it. -/
def State.setMarks (s : State) (m : List (Nat × Nat)) : State :=
  ({ s with cal := { s.cal with marks := m } }).setF Fld.CAL_STAT_NDIS (min m.length 0xFFFF)

def State.markField (s : State) (r : FieldRef) (i j : Nat) : State :=
  let k := (r.addr i j, r.lo)
  if s.cal.marks.contains k then s else s.setMarks (k :: s.cal.marks)

def State.unmarkField (s : State) (r : FieldRef) (i j : Nat) : State :=
  let k := (r.addr i j, r.lo)
  if s.cal.marks.contains k then s.setMarks (s.cal.marks.filter (· != k)) else s

/-- The mark of the field in the low or the high half of the register at offset `a` is cleared: a host write (R268). -/
def State.unmarkHalf (s : State) (a : Nat) (low : Bool) : State :=
  let here := fun (e : Nat × Nat) => e.1 == a && decide (e.2 < 16) == low
  if s.cal.marks.any here then s.setMarks (s.cal.marks.filter fun e => !here e) else s

/-- One calibration step of a field: accepted and written, or kept and marked; the second result says which. -/
def State.calField (s : State) (r : FieldRef) (i j tol : Nat) (tries : List (Int × Int)) : State × Bool :=
  match calStep tol tries with
  | some v => ((s.setF r (ofSigned r.width v) i j).unmarkField r i j, true)
  | none => (s.markField r i j, false)

end Sys2Proof.Machine
end

