-- ==== Sys2Proof/Machine/Rotation.lean ====
section
/-! DEFINITION. Slice rotation, handover, and the background estimator (chapter 06 of spec/). -/

namespace Sys2Proof.Machine

/-- CGg_ROT_MAP.Pp. -/
def rotPos (p : Nat) : FieldRef := ⟨0x10040C, 0x1000, 0x0, 4 * p, 3⟩

def State.rot (s : State) (g : Nat) : Rotation := (s.group g).rot
def State.setRot (s : State) (g : Nat) (r : Rotation) : State := s.setGroup g { s.group g with rot := r }
def State.rotst (s : State) (g : Nat) : Nat := s.f Fld.CG_ROT_STAT_ROTST g
def State.setRotst (s : State) (g v : Nat) : State := s.setF Fld.CG_ROT_STAT_ROTST v g

/-- The slices that serve P0 to P3. -/
def State.serving (s : State) (g : Nat) : List Nat := (List.range 4).map fun p => s.f (rotPos p) g

/-- The reading of the sensor of group `g`, in 1/16 °C, where it is valid (R269). -/
def State.groupTemp (s : State) (g : Nat) : Option Int :=
  if s.on Fld.CAL_TS_VALID (g / 6) then some (toSigned 16 (s.f Fld.CAL_TS_TEMP (g / 6))) else none

/-! ## The calibration bus (R263) -/

/-- Whether a background calibration of group `g` may proceed (R31, R164). -/
def State.calibRuns (s : State) (g : Nat) : Bool := s.rotst g == 3 && s.mode.converts && s.bur.running

/-- The groups of quadrant `q` in ascending order. -/
def State.quadGroups (s : State) (q : Nat) : List Nat := (List.range s.part.numCG).filter fun g => g / 6 == q

/-- The bus of quadrant `q` is kept by its holder, and taken by the lowest waiting group when it is free.
DEDUCED, log entry 24. -/
def State.busUpdate (s : State) (q : Nat) : State :=
  let holder := (s.cal.bus[q]?).getD none
  let keep := holder.any fun g => s.calibRuns g
  if keep then s
  else { s with cal := { s.cal with bus := s.cal.bus.set q ((s.quadGroups q).find? fun g => s.calibRuns g) } }

/-- Every bus is taken by the lowest group that waits for it (R263). -/
def State.busUpdates (s : State) : State := (List.range 4).foldl (fun s q => s.busUpdate q) s

def State.busHolder (s : State) (g : Nat) : Option Nat := (s.cal.bus[g / 6]?).getD none

/-! ## Ending a handover -/

/-- A rounded square root over a whole number: round(√v / n), an exact half going either way. -/
def roundRoot (v n : Nat) : Nat :=
  let x := 4 * v
  let q := (Nat.sqrt x + n) / (2 * n)
  if Nat.sqrt x * Nat.sqrt x = x ∧ (Nat.sqrt x + n) % (2 * n) = 0 then
    (if Config.roundUp .handoverLog ((Nat.sqrt x : Rat) / (2 * n)) then q else q - 1)
  else q

/-- m and s of the log (R178); with no sample compared they are free values. DEDUCED, log entry 25. -/
def State.logMs (s : State) (o : Overlap) : Nat × Nat :=
  if o.n = 0 then (s.fresh 0 % 65536, s.fresh 1 % 65536)
  else
    let m := Config.nearest .handoverLog ((16 * o.a : Int) / (o.n : Rat))
    let v := ((o.n : Int) * o.b - o.a * o.a).toNat
    (ofSigned 16 (satSigned 16 m), min 65535 (roundRoot (256 * v) o.n))

/-- The log fields are written when a handover ends: 0 accepted, 1 rejected, 2 abandoned (R178). -/
def State.logHandover (s : State) (g : Nat) (o : Overlap) (result : Nat) : State :=
  let ms := s.logMs o
  let s := { s with freeCount := s.freeCount + 1 }
  let s := (s.setF Fld.CG_HO_LOG_SL_VALID 1 g).setF Fld.CG_HO_LOG_SL_RESULT result g
  let s := (s.setF Fld.CG_HO_LOG_SL_EXCL (min 127 o.excl) g).setF Fld.CG_HO_LOG_SL_SL_IN o.slIn g
  let s := (s.setF Fld.CG_HO_LOG_SL_SL_OUT o.slOut g).setF Fld.CG_HO_LOG_SL_POS o.pos g
  (s.setF Fld.CG_HO_LOG_MS_M ms.1 g).setF Fld.CG_HO_LOG_MS_S ms.2 g

/-- The wait W after the k-th consecutive abandonment, in ticks (R156). -/
def abandonWait (k : Nat) : Nat := 10000000 * 2 ^ (min k 11 - 1)

/-- The handover of group `g`, if one runs, is abandoned (R156). -/
def State.abandon (s : State) (g : Nat) : State :=
  let r := s.rot g
  match r.overlap with
  | none => s
  | some o =>
    let k := r.abandons + 1
    let s := s.setRot g { r with overlap := none, abandons := k, notBefore := s.lcs.time + abandonWait k }
    ((s.logHandover g o 2).addSat Fld.CG_ROT_CNT_ABORTS 1 g).setRotst g 1

/-- Every handover is abandoned, and no calibration keeps a bus: entry to Nap, Slumber, Bench or Blank (R156, R164). -/
def State.abandonAll (s : State) : State :=
  let s := (List.range s.part.numCG).foldl (fun s g => s.abandon g) s
  { s with cal := { s.cal with bus := [none, none, none, none] } }

/-- REF_SETTLED of group `g` falls (R126, R156). -/
def State.refFalls (s : State) (g : Nat) : State := (s.setSettled g false).abandon g

/-- Slice `sl` of group `g` is retired (R159). -/
def State.retire (s : State) (g sl : Nat) : State :=
  let s := (s.flag Fld.CG_SL_QUAL_RETIRED g sl).flag Fld.CG_ROT_IRQ_RETIRED g
  (s.setRot g { s.rot g with calib := none, failedOnce := false }).setRotst g 4

/-- A slice leaves for calibration (R166). -/
def State.sendCalib (s : State) (g sl : Nat) (retry : Bool) : State :=
  let s := s.setRot g { s.rot g with calib := some sl, failedOnce := false }
  ((s.setRotst g 3).setB Fld.CG_ROT_STAT_RETRY retry g).busUpdate (g / 6)

/-- The test of R152. -/
def State.handoverPasses (s : State) (g : Nat) (o : Overlap) : Bool :=
  let ofs := s.f Fld.CG_ROT_HOTOL_OFS_TOL g
  let rms := s.f Fld.CG_ROT_HOTOL_RMS_TOL g
  decide (16 * o.a.natAbs ≤ ofs * o.n) &&
    decide (256 * ((o.n : Int) * o.b - o.a * o.a) ≤ ((rms * rms * (o.n * o.n) : Nat) : Int))

/-- The word index of the first incoming sample: the words of the lane emitted and held, and the place in the beat.
DEDUCED, log entry 25. -/
def State.firstIncoming (s : State) (g pos : Nat) : Nat :=
  let mode := s.f Fld.CG_CTL_MODE g
  let c := (s.group g).core
  (c.emit + 4 * c.held.length) / (lanePositions mode).length + placeOf mode pos

/-- Whether a residual field of a slice stands at an end of its range (R173). -/
def State.residualAtEnd (s : State) (g sl : Nat) : Bool :=
  let e := fun v => v == 0x7FF || v == 0x800
  e (s.f Fld.CG_SL_RES_OG_ROFS g sl) || e (s.f Fld.CG_SL_RES_OG_RGAIN g sl) ||
    s.f Fld.CG_SL_RES_SK_RSKEW g sl == 0x1FF || s.f Fld.CG_SL_RES_SK_RSKEW g sl == 0x200

/-- A serving slice with a residual field at an end of its range sets SAT (R173). -/
def State.checkSat (s : State) (g sl : Nat) : State :=
  if (s.serving g).contains sl && s.residualAtEnd g sl then (s.flag Fld.CG_SL_QUAL_SAT g sl).flag Fld.CG_ROT_IRQ_SAT g
  else s

/-- The overlap has its 1,024 samples: the handover is accepted or rejected (R152, R153, R157). A REJRUN of 3 that a CAL_RUN has
left stays 3, so that the next rejection retires (R178; DESIGN CHOICE, log entry 48). -/
def State.handoverEnd (s : State) (g : Nat) : State :=
  let r := s.rot g
  match r.overlap with
  | none => s
  | some o =>
    if o.taken < 1024 then s
    else if s.handoverPasses g o then
      let s := s.setRot g { r with
        overlap := none, abandons := 0, notBefore := 0, chosen := none, lastAccept := s.bur.checks + 1,
        posCount := r.posCount.set o.pos 0 }
      let s := (s.setF (rotPos o.pos) o.slIn g).setF Fld.CG_ROT_MAP_OUT o.slOut g
      let s := s.setPair Fld.CG_HO_IDX_LO Fld.CG_HO_IDX_HI (s.firstIncoming g o.pos) g
      let s := ((s.logHandover g o 0).addWrap Fld.CG_ROT_CNT_ACCEPTS 1 g).flag Fld.CG_ROT_IRQ_HO_DONE g
      let s := (s.setF Fld.CG_ROT_STAT_REJRUN 0 g).setBit Fld.CG_ROT_STAT_UNCONV o.pos g
      (s.checkSat g o.slIn).sendCalib g o.slOut false
    else
      let s := s.setRot g { r with overlap := none, abandons := 0, notBefore := 0, chosen := some o.slOut }
      let s := ((s.logHandover g o 1).addSat Fld.CG_ROT_CNT_REJECTS 1 g).flag Fld.CG_ROT_IRQ_HO_REJ g
      let n := min 3 (s.f Fld.CG_ROT_STAT_REJRUN g + 1)
      let s := s.setF Fld.CG_ROT_STAT_REJRUN n g
      if n ≥ 3 then s.retire g o.slIn else s.sendCalib g o.slIn true

/-- One sample of the overlap (R150 to R152, R156): the outgoing and the incoming result at the position. -/
def State.overlapSample (s : State) (g : Nat) (out inc : Int × Bool) : State :=
  let r := s.rot g
  match r.overlap with
  | none => s
  | some o =>
    if 1024 ≤ o.taken then s
    else
      let o := { o with taken := o.taken + 1 }
      if out.2 || inc.2 then
        let s := s.setRot g { r with overlap := some { o with excl := o.excl + 1 } }
        if 64 < o.excl + 1 then s.abandon g else s
      else
        let d := inc.1 - out.1
        s.setRot g { r with overlap := some { o with n := o.n + 1, a := o.a + d, b := o.b + d.natAbs * d.natAbs } }

/-! ## When a rotation is due (R163, R164) -/

/-- The serving slice with the oldest calibration, the lower number where two meet. DEDUCED, log entry 24. -/
def State.oldestSlice (s : State) (g : Nat) : Nat :=
  let sv := s.serving g
  let at_ := fun sl => ((s.rot g).calAt[sl]?).getD 0
  ((List.range 5).filter sv.contains).foldl (fun b sl => match b with
    | none => some sl
    | some x => if at_ sl < at_ x then some sl else some x) none |>.getD 0

/-- The serving slice whose TCAL is furthest from the sensor, where it exceeds DT (trigger 3). -/
def State.driftSlice (s : State) (g : Nat) : Option Nat :=
  match s.groupTemp g with
  | none => none
  | some t =>
    let diff := fun sl => (t - 2 * toSigned 12 (s.f Fld.CG_SL_QUAL_TCAL g sl)).natAbs
    let dt := s.f Fld.CG_ROT_CTL_DT g
    if dt = 0 then none
    else ((List.range 5).filter fun sl => (s.serving g).contains sl && decide (2 * dt < diff sl)).foldl
      (fun b sl => match b with
        | none => some sl
        | some x => if diff x < diff sl then some sl else some x) none

/-- The rotation of group `g` becomes due. -/
def State.rotDue (s : State) (g : Nat) (slice : Option Nat) : State :=
  (s.setRot g { s.rot g with chosen := slice }).setRotst g 1

/-- The interval of group `g` has run out (trigger 4). -/
def State.intervalOut (s : State) (g : Nat) : Bool :=
  s.on Fld.CG_ROT_CTL_AUTO g && decide ((s.rot g).lastAccept + 10 * s.f Fld.CG_ROT_CTL_INTERVAL g ≤ s.bur.checks)

/-- In Nap and Slumber trigger 4 waits for the return to Run (R515). -/
def State.intervalWaits (s : State) : Bool := s.mode == .nap || s.mode == .slumber

/-- What a return from Nap or Slumber makes due (R515), by a Bureau that runs. -/
def State.dueOnReturn (s : State) : State :=
  if s.bur.running then
    (List.range s.part.numCG).foldl (fun s g => if s.rotst g = 0 ∧ s.intervalOut g then s.rotDue g none else s) s
  else s

/-- The first valid reading of sensor `k` after Slumber: the Bureau evaluates the drift trigger of its groups (R515). -/
def State.firstReading (s : State) (k : Nat) : State :=
  if s.pwr.resense.contains k ∧ s.bur.running then
    let s := { s with pwr := { s.pwr with resense := s.pwr.resense.filter (· ≠ k) } }
    (List.range s.part.numCG).foldl (fun s g =>
      if g / 6 = k ∧ s.rotst g = 0 then
        match s.driftSlice g with
        | some sl => s.rotDue g (some sl)
        | none => s
      else s) s
  else s

/-- Triggers 2 to 4 of R163 for one group. DEDUCED, log entry 24. -/
def State.rotCheck (s : State) (g : Nat) : State :=
  if s.rotst g = 0 then
    match (List.range 5).find? fun sl => (s.serving g).contains sl && s.on Fld.CG_SL_QUAL_SAT g sl with
    | some sl => s.rotDue g (some sl)
    | none =>
      match s.driftSlice g with
      | some sl => s.rotDue g (some sl)
      | none =>
        if s.intervalOut g && !s.intervalWaits then s.rotDue g none else s
  else s

/-- The overlap of a due group starts (R164). -/
def State.overlapStart (s : State) (g : Nat) : State :=
  let r := s.rot g
  if s.rotst g = 1 ∧ s.on Fld.CG_CTL_EN g ∧ s.on Fld.CG_STAT_REF_SETTLED g ∧ s.mode.converts ∧ s.bur.running ∧
      r.notBefore ≤ s.lcs.time then
    let out := r.chosen.getD (s.oldestSlice g)
    let pos := ((List.range 4).find? fun p => s.f (rotPos p) g == out).getD 0
    (s.setRot g { r with
      chosen := some out,
      overlap := some { pos := pos, slIn := s.f Fld.CG_ROT_MAP_OUT g, slOut := out, taken := 0, n := 0, a := 0, b := 0,
                        excl := 0 } }).setRotst g 2
  else s

/-! ## Calibration of the slice out of service (R158, R168, R174) -/

/-- What a slice calibration measures: the attempts of its five steps and the residual error in 1/64 LSB. -/
structure SliceCal where
  ofs : List (Int × Int)
  gain : List (Int × Int)
  skew : List (Int × Int)
  rofs : List (Int × Int)
  rgain : List (Int × Int)
  res : Nat
  deriving DecidableEq, Repr

/-- The steps of a slice calibration write their fields; the second result is whether every step agreed.
DEDUCED, log entry 24. -/
def State.sliceSteps (s : State) (g sl : Nat) (c : SliceCal) : State × Bool :=
  let a := s.calField Fld.CG_SL_TRIM_OFS g sl 2 c.ofs
  let b := a.1.calField Fld.CG_SL_TRIM_GAIN g sl 4 c.gain
  let k := b.1.calField Fld.CG_SL_SKEW_SKEW g sl 1 c.skew
  let o := k.1.calField Fld.CG_SL_RES_OG_ROFS g sl 4 c.rofs
  let n := o.1.calField Fld.CG_SL_RES_OG_RGAIN g sl 4 c.rgain
  let s := n.1.setF Fld.CG_SL_RES_SK_RSKEW 0 g sl
  let tc := match s.groupTemp g with
    | some t => Config.nearest .estimate ((t : Rat) / 2)
    | none => Config.nearest .estimate ((toSigned 16 (s.f Fld.CAL_TS_TEMP (g / 6)) : Rat) / 2)
  let s := (s.setF Fld.CG_SL_QUAL_RES (min 65535 c.res) g sl).setF Fld.CG_SL_QUAL_TCAL (ofSigned 12 (satSigned 12 tc)) g sl
  (s, a.2 && b.2 && k.2 && o.2 && n.2)

/-- Whether an analog trim of a slice stands at an end of its range (R158). -/
def State.trimAtEnd (s : State) (g sl : Nat) : Bool :=
  let e := fun v => v == 0x7FF || v == 0x800
  e (s.f Fld.CG_SL_TRIM_OFS g sl) || e (s.f Fld.CG_SL_TRIM_GAIN g sl) || s.f Fld.CG_SL_SKEW_SKEW g sl == 0 ||
    s.f Fld.CG_SL_SKEW_SKEW g sl == 255

/-- A slice is calibrated once; whether it passes R158. -/
def State.calSlice (s : State) (g sl : Nat) (c : SliceCal) : State × Bool :=
  let r := s.sliceSteps g sl c
  let ok := r.2 && !r.1.trimAtEnd g sl && decide (c.res ≤ s.f Fld.CG_ROT_QCFG_RES_LIM g)
  let rot := r.1.rot g
  let s := if ok then r.1.setRot g { rot with calAt := rot.calAt.set sl (rot.calAt.foldl max 0 + 1) } else r.1
  (s, ok)

/-- A background calibration of group `g` ends (R158, R166). -/
def State.calibEnd (s : State) (g : Nat) (c : SliceCal) : State :=
  let s := s.busUpdate (g / 6)
  match (s.rot g).calib with
  | none => s
  | some sl =>
    if s.calibRuns g ∧ s.busHolder g = some g then
      let r := s.calSlice g sl c
      let t := r.1
      let free := fun (t : State) => { t with cal := { t.cal with bus := t.cal.bus.set (g / 6) none } }
      if r.2 then
        let t := free (t.setRot g { t.rot g with calib := none, failedOnce := false })
        (t.setRotst g (if t.on Fld.CG_ROT_STAT_RETRY g then 1 else 0)).busUpdate (g / 6)
      else if (t.rot g).failedOnce then ((free t).retire g sl).busUpdate (g / 6)
      else (free (t.setRot g { t.rot g with failedOnce := true })).busUpdate (g / 6)
    else s

/-! ## The map from the RETIRED marks (R148, R162) -/

/-- The slices of positions P0 to P3 and the slice out of service. -/
def mapFrom (retired : List Bool) : List Nat :=
  let bad := fun k => (retired[k]?).getD false
  let good := (List.range 5).filter fun k => !bad k
  let serve := (good ++ (List.range 5).filter bad).take 4
  serve ++ ((List.range 5).filter fun k => !serve.contains k)

/-- The positions are filled and ROTST set: at Reset, at CAL_IMPORT, and at the end of a class 5 CAL_RUN. -/
def State.refillMap (s : State) (g : Nat) : State :=
  let ret := (List.range 5).map fun k => s.on Fld.CG_SL_QUAL_RETIRED g k
  let m := mapFrom ret
  let s := (List.range 4).foldl (fun s p => s.setF (rotPos p) ((m[p]?).getD 0) g) s
  let s := s.setF Fld.CG_ROT_MAP_OUT ((m[4]?).getD 0) g
  let n := ret.countP id
  let s := s.setRot g { s.rot g with chosen := none, overlap := none, calib := none, failedOnce := false }
  let s := s.setRotst g (if n = 0 then 0 else if n = 1 then 4 else 5)
  let s := s.flagIf (decide (2 ≤ n)) Fld.CG_ROT_IRQ_RETIRED g
  (s.serving g).foldl (fun s sl => s.checkSat g sl) s

/-! ## The background estimator (R170 to R175) -/

/-- What the estimator measures of one position: offset in LSB, relative gain, skew in fs, relative to its lane's mean. -/
structure PosEst where
  ofs : Rat
  gain : Rat
  skew : Rat
  deriving DecidableEq, Repr

/-- A signed field of the serving slice moves by one quarter of an estimate, rounded toward zero and clamped (R170); an end
of the range sets SAT (R173). -/
def State.moveField (s : State) (r : FieldRef) (g sl : Nat) (est : Rat) : State :=
  let q := est / 4
  let step : Int := if q < 0 then -(-q).floor else q.floor
  let lo : Int := -2 ^ (r.width - 1)
  let hi : Int := 2 ^ (r.width - 1) - 1
  let v := clamp lo hi (toSigned r.width (s.f r g sl) + step)
  let s := s.setF r (ofSigned r.width v) g sl
  if v = lo ∨ v = hi then (s.flag Fld.CG_SL_QUAL_SAT g sl).flag Fld.CG_ROT_IRQ_SAT g else s

/-- The positions that share a lane with position `p` (R121). -/
def lanePeers (mode p : Nat) : List Nat := ((lanePositions mode).find? fun l => l.contains p).getD []

/-- What a block's sums say of a position: mean, mean square, and correlation with the following sample (R170). -/
def PosStat.measured (x : PosStat) : Rat × Rat × Rat := (x.sum / 65536, x.squares / 65536, x.follow / 65536)

/-- The estimates of a block (R170): the offset is the position's mean less the mean of its lane's positions; how gain and skew
follow from the measurements the spec does not say: free values; in PAIR2 no skew is estimated. DEDUCED, log entry 25. -/
def blockEstimates (mode : Nat) (stats : List PosStat) : List PosEst :=
  let at_ := fun (p : Nat) => ((stats[p]?).map PosStat.measured).getD (0, 0, 0)
  (List.range 4).map fun p =>
    let lane := (lanePeers mode p).map at_
    let own := at_ p
    { ofs := own.1 - (lane.map (·.1)).sum / lane.length, gain := Config.gainEstimate own lane,
      skew := if mode = 0 then Config.skewEstimate own lane else 0 }

/-- π, to 36 digits. DEDUCED, log entry 25. -/
def piQ : Rat := 3141592653589793238462643383279502884 / 10 ^ 36

/-- The squared magnitude of Σ z_p e^(−j2πkp/4) over four positions, z_p = re_p + j im_p. -/
def dft4 (k : Nat) (z : List (Rat × Rat)) : Rat :=
  let t := z.zipIdx.foldl (fun (a : Rat × Rat) e =>
    let (re, im) := e.1
    match (k * e.2) % 4 with
    | 0 => (a.1 + re, a.2 + im)
    | 1 => (a.1 + im, a.2 - re)
    | 2 => (a.1 - re, a.2 - im)
    | _ => (a.1 - im, a.2 + re)) (0, 0)
  t.1 * t.1 + t.2 * t.2

/-- The spurs of a lane as (KIND, k, squared ratio to the carrier) (R175). -/
def spurs (ftest : Nat) (mode : Nat) (est : List PosEst) : List (Nat × Nat × Rat) :=
  let w : Rat := 2 * piQ * ftest * 100000 / 10 ^ 15
  let o := est.map fun e => (e.ofs, (0 : Rat))
  let g := est.map fun e => (e.gain, w * e.skew)
  let at4 := fun i : Nat => ([(o[i]?).getD (0, 0)], [(g[i]?).getD (0, 0)])
  let sq2 := fun (a b : Rat × Rat) => ((a.1 - b.1) * (a.1 - b.1) + (a.2 - b.2) * (a.2 - b.2)) / 4
  if mode = 0 then
    ([1, 2, 3].map fun k => (0, k, dft4 k o / 16 / (8192 * 8192))) ++ [1, 2, 3].map fun k => (1, k, dft4 k g / 16)
  else
    [0, 1].flatMap fun l =>
      match at4 l, at4 (l + 2) with
      | ([oa], [ga]), ([ob], [gb]) => [(0, 1, sq2 oa ob / (8192 * 8192)), (1, 1, sq2 ga gb)]
      | _, _ => []

/-- −100 log10(r) brought to a whole number: the whole numbers n with r^100 ≤ 10^(−n), counted up to the register's top. -/
def spurDbc (r : Rat) (fuel : Nat) : Nat :=
  match fuel with
  | 0 => 0
  | k + 1 =>
    let n := spurDbc r k
    if r ^ 100 * 10 ^ (n + 1) ≤ 1 then n + 1 else n

/-- CGg_ROT_SPUR at the end of a block (R175); where the worst spur is 0 its figure is not stated and is a free value.
DEDUCED, log entry 25. -/
def State.setSpur (s : State) (g : Nat) (est : List PosEst) : State :=
  let l := spurs (s.f Fld.CG_ROT_QCFG_FTEST g) (s.f Fld.CG_CTL_MODE g) est
  let worst := l.foldl (fun b x => match b with
    | none => some x
    | some y => if y.2.2 < x.2.2 ∨ (y.2.2 = x.2.2 ∧ Config.roundUp .spur x.2.2) then some x else some y) none
  match worst with
  | none => s
  | some (kind, k, r) =>
    let n := spurDbc r 65535
    let exact := r ^ 100 * 10 ^ n = 1
    let d := if r = 0 then s.fresh 0 % 65536
      else if exact || !Config.roundUp .spur (r * 10 ^ n) then n else min 65535 (n + 1)
    let s := { s with freeCount := s.freeCount + 1 }
    ((s.setF Fld.CG_ROT_SPUR_KIND kind g).setF Fld.CG_ROT_SPUR_K k g).setF Fld.CG_ROT_SPUR_DBC d g

/-- Whether a block of 2^16 samples has ended and the estimator works on it (R170). -/
def State.estimates (s : State) (g : Nat) : Bool :=
  (s.rot g).done.isSome && s.on Fld.CG_ROT_CTL_EST_EN g && s.f Fld.CG_CTL_MODE g != 2

/-- A block of 2^16 samples has ended (R170). DEDUCED, log entry 25. -/
def State.estimate (s : State) (g : Nat) : State :=
  let mode := s.f Fld.CG_CTL_MODE g
  let r := s.rot g
  match r.done with
  | some stats =>
    let s := s.setRot g { r with done := none }
    if s.on Fld.CG_ROT_CTL_EST_EN g ∧ mode ≠ 2 then
      let est := blockEstimates mode stats
      let s := est.zipIdx.foldl (fun s e =>
        let sl := s.f (rotPos e.2) g
        let s := (s.moveField Fld.CG_SL_RES_OG_ROFS g sl (e.1.ofs * 256)).moveField Fld.CG_SL_RES_OG_RGAIN g sl
          (e.1.gain * 1048576)
        if mode = 0 then s.moveField Fld.CG_SL_RES_SK_RSKEW g sl e.1.skew else s) s
      if s.f Fld.CG_ROT_STAT_UNCONV g = 0 then s.setSpur g est else s
    else s
  | none => s

/-- The sums with one beat's residual-stage outputs `ys`; `last` are those of the beat before (none: it was not used). -/
def PosStat.joined (mode : Nat) (stats : List PosStat) (last ys : List Rat) : List PosStat :=
  let y := fun (l : List Rat) (p : Nat) => (l[p]?).getD 0
  (List.range 4).map fun p =>
    let x := (stats[p]?).getD ⟨0, 0, 0⟩
    let lane := lanePeers mode p
    -- the product that this beat completes: with the position before in the lane, which for the first is the beat before's last
    let place := lane.idxOf p
    let pair := if place + 1 < lane.length then y ys p * y ys ((lane[place + 1]?).getD p)
      else y last p * y ys ((lane[0]?).getD p)
    { sum := x.sum + y ys p, squares := x.squares + y ys p * y ys p, follow := x.follow + pair }

/-- Every position contributes one sample to the estimator: to the block's sums (R170), and to its count, at whose 2^20 its
UNCONV bit clears (R171). -/
def State.estCount (s : State) (g : Nat) (ys : List Rat) : State :=
  let r := s.rot g
  let pc := r.posCount.map fun n => min (n + 1) 1048576
  let old := s.f Fld.CG_ROT_STAT_UNCONV g
  let stats := PosStat.joined (s.f Fld.CG_CTL_MODE g) r.stats r.lastYs ys
  let full := decide (65536 ≤ r.block + 1)
  let s := s.setRot g { r with
    block := if full then 0 else r.block + 1, posCount := pc, lastYs := ys,
    stats := if full then [] else stats, done := if full then some stats else r.done }
  if old = 0 then s
  else
    let new := (List.range 4).foldl (fun v p =>
      if (pc[p]?).getD 0 < 1048576 ∨ v / 2 ^ p % 2 = 0 then v else v - 2 ^ p) old
    (s.setF Fld.CG_ROT_STAT_UNCONV new g).flagIf (new == 0) Fld.CG_ROT_IRQ_CONV g

/-- A beat that the estimator does not use: no sample follows the last one it used. -/
def State.estBreak (s : State) (g : Nat) : State :=
  let r := s.rot g
  if r.lastYs = [] then s else s.setRot g { r with lastYs := [] }

/-- Entry to Bench clears the estimator's counts (R176). -/
def State.estClear (s : State) : State :=
  (List.range s.part.numCG).foldl (fun s g =>
    let s := s.setRot g { s.rot g with posCount := [0, 0, 0, 0], block := 0, stats := [], lastYs := [], done := none }
    s.setF Fld.CG_ROT_STAT_UNCONV 15 g) s

/-! ## Register writes (R168, R170, R178) -/

/-- CGg_ROT_CTL written: INTERVAL stores 1 to 36,000. -/
def State.writeRotCtl (s : State) (g : Nat) (w : Word) : State :=
  let w := w &&& 0xC0FFFFFF
  s.setWord (Reg.CG_ROT_CTL.addr g 0) (w.setBits 0 16 (max 1 (min 36000 (w.bits 0 16))))

/-- A write to a slice's trims or residuals, open in some states only; an ignored one sets WR_IGN (R554). -/
def State.writeSlice (s : State) (g a : Nat) (mask : Word) (open_ : Bool) (w : Word) : State :=
  let x := guardWrite (s.word a) (w &&& mask) (if open_ then 0 else mask)
  (s.setWord a x.1).flagIf x.2 Fld.CG_ROT_STAT_WR_IGN g

/-- A write to a slice's residuals: it may bring a serving slice's field to an end of its range (R170, R173). -/
def State.writeResidual (s : State) (g sl a : Nat) (mask w : Word) : State :=
  let t := s.writeSlice g a mask (!s.on Fld.CG_ROT_CTL_EST_EN g) w
  if t.word a = s.word a then t else t.checkSat g sl

/-- Whether the analog trims of slice `sl` may be written (R168). -/
def State.sliceOpen (s : State) (g sl : Nat) : Bool :=
  s.mode == .bench || (!(s.serving g).contains sl && s.rotst g != 3)

/-! ## Meanings -/

def execOverlapStart (g tick : Nat) (s : State) : Out :=
  ifPresent g s.part.numCG 24 s (.next ((s.atTick tick).overlapStart g))

def execHandoverTest (g : Nat) (s : State) : Out := ifPresent g s.part.numCG 24 s (.next (s.handoverEnd g))

def execSliceCalibration (g : Nat) (ofs gain skew rofs rgain : List (Int × Int)) (res : Nat) (s : State) : Out :=
  ifPresent g s.part.numCG 24 s (.next (s.calibEnd g ⟨ofs, gain, skew, rofs, rgain, res⟩))

/-- A block ends; in a pair TWN_MATCHg takes the match that the two Bureaus find, `pair` (R538). -/
def execEstimatorBlock (g tick : Nat) (pair : Word) (s : State) : Out :=
  ifPresent g s.part.numCG 24 s <|
    let t := (s.atTick tick).estimate g
    .next (if s.on Fld.TWN_STAT_PAIRED ∧ s.estimates g then t.setWord (Reg.TWN_MATCH.addr g 0) pair else t)

end Sys2Proof.Machine
end

