-- ==== Sys2Proof/Machine/Nets.lean ====
section
/-! DEFINITION. The analog switch matrix as nets of tracks, and the driver census (R107 to R113). -/

namespace Sys2Proof.Machine

/-- A track or a terminal of the matrix (R107). -/
inductive Node
  | track (n : Nat)
  | fe (p : Nat) | drv (p : Nat)
  | in0 (c : Nat) | in1 (c : Nat) | out (c : Nat)
  | dac (d : Nat)
  | cgIn (g i : Nat)
  deriving DecidableEq, Repr

/-- The number of local track t of cell c, and of spine track k of quadrant q (R112). -/
def localTrack (c t : Nat) : Node := .track (4 * c + t)
def spineTrack (q k : Nat) : Node := .track (0x8000 + 48 * q + k)

abbrev Edges := List (Node × Node)

/-- The switches that ACc_LTt closes (R108). -/
def ltEdges (c t : Nat) (w : Word) : Edges :=
  let p := c + 1 - 2 * (c % 2)
  let k := localTrack c t
  let sw := fun (b : Nat) (x : Node) => if w.bit b then [(k, x)] else []
  sw 0 (.fe (c / 2)) ++ sw 1 (.drv (c / 2)) ++ sw 2 (.in0 c) ++ sw 3 (.in1 c) ++ sw 4 (.out c) ++ sw 5 (.in0 p) ++
    sw 6 (.in1 p) ++ sw 7 (.out p) ++ (if w.bit 15 then [(k, spineTrack (c / 48) (w.bits 8 6))] else [])

/-- The connections of AC_CGINg (R109). -/
def cgInEdges (g : Nat) (w : Word) : Edges :=
  (List.range 4).flatMap fun i =>
    match w.bits (8 * i + 6) 2 with
    | 1 => [(localTrack (8 * g + 2 * i + 1) 3, .cgIn g i)]
    | 2 => [(spineTrack (g / 6) (w.bits (8 * i) 6), .cgIn g i)]
    | _ => []

/-- The connection of AC_DAOUTd. -/
def daOutEdges (d : Nat) (w : Word) : Edges :=
  if w.bit 7 then [(spineTrack (d / 6) (w.bits 0 6), .dac d)] else []

/-- The quadrant of a matrix register, and the switches it closes when it holds `w`; none for another register. -/
def matrixEdges (a : Nat) (w : Word) : Option (Nat × Edges) :=
  if 0xC0000 ≤ a ∧ a < 0xCC000 then
    let c := (a - 0xC0000) / 0x100
    let o := (a - 0xC0000) % 0x100
    if 0x40 ≤ o ∧ o < 0x50 ∧ o % 4 = 0 then some (c / 48, ltEdges c ((o - 0x40) / 4) w)
    else if o = 0 then some (c / 48, [])
    else none
  else if 0xA0000 ≤ a ∧ a < 0xA6000 ∧ a % 0x100 = 0 then some ((a - 0xA0000) / 0x100 / 24, [])
  else if 0xCC100 ≤ a ∧ a < 0xCC160 ∧ a % 4 = 0 then
    let g := (a - 0xCC100) / 4
    some (g / 6, cgInEdges g w)
  else if 0xCC200 ≤ a ∧ a < 0xCC260 ∧ a % 4 = 0 then
    let d := (a - 0xCC200) / 4
    some (d / 6, daOutEdges d w)
  else none

/-- Every closed switch of quadrant `q`, from the registers that hold something. -/
def State.edges (s : State) (q : Nat) : Edges :=
  s.regs.flatMap fun e =>
    match matrixEdges e.1 e.2 with
    | some (k, l) => if k = q then l else []
    | none => []

/-- Whether a terminal drives, and its driver code (R92, R107, R112). -/
def State.driver (s : State) (x : Node) : Option Nat :=
  match x with
  | .fe p => if s.on Fld.AP_CTL_EN p ∧ ¬ s.on Fld.AP_CTL_DIR p then some (0x1000 + p) else none
  | .out c => if s.on Fld.AC_CTL_FUNC c then some (0x2000 + c) else none
  | .dac d => some (0x3000 + d)
  | _ => none

def Node.receives : Node → Bool
  | .drv _ | .in0 _ | .in1 _ | .cgIn _ _ => true
  | _ => false

/-- One round of growing a net along closed switches. -/
def growNet (es : Edges) (net : List Node) : List Node :=
  es.foldl (fun net e =>
    if net.contains e.1 && !net.contains e.2 then e.2 :: net
    else if net.contains e.2 && !net.contains e.1 then e.1 :: net
    else net) net

/-- The net that holds `x` (R110). -/
def netOf (es : Edges) (fuel : Nat) (net : List Node) : List Node :=
  match fuel with
  | 0 => net
  | k + 1 =>
    let n := growNet es net
    if n.length = net.length then net else netOf es k n

/-- The distinct driver codes on a net. -/
def State.driversOf (s : State) (net : List Node) : List Nat := (net.filterMap s.driver).eraseDups

/-- The lowest-numbered track of a net. -/
def lowestTrack (net : List Node) : Nat :=
  net.foldl (fun m x => match x with | .track n => min m n | _ => m) 0xFFFF

/-- The lowest and the second lowest of a list of driver codes. -/
def lowestTwo (l : List Nat) : Nat × Nat :=
  let a := l.foldl min 0xFFFF
  (a, (l.filter (· != a)).foldl min 0xFFFF)

/-- `s` with the registers of the census naming a net by its lowest track and its two lowest drivers (R112). -/
def State.nameNet (s : State) (trk : Nat) (d : Nat × Nat) : State :=
  ((s.setF Fld.AC_CENSUS_TRK trk).setF Fld.AC_CENSUS_DRV_LOWEST d.1).setF Fld.AC_CENSUS_DRV_SECOND d.2

/-- Every net of a list of switches. -/
def allNets (es : Edges) (todo : List Node) (fuel : Nat) : List (List Node) :=
  match fuel, todo with
  | 0, _ => []
  | _, [] => []
  | k + 1, x :: rest =>
    let n := netOf es (2 * es.length + 1) [x]
    n :: allNets es (rest.filter fun y => !n.contains y) k

/-- The nets of quadrant `q`. -/
def State.nets (s : State) (q : Nat) : List (List Node) :=
  let es := s.edges q
  allNets es (es.map (·.1)) (es.length + 1)

/-- The failing net of a list that the census or a refused write records: that with the lowest track. R112 orders quadrants
only, and R113 names one net. DESIGN CHOICE, log entry 47. -/
def lowestNet (l : List (List Node)) : Option (List Node) :=
  l.foldl (fun b n => match b with
    | none => some n
    | some m => if lowestTrack n < lowestTrack m then some n else some m) none

/-- The census (R111, R112): every net of every quadrant is walked. -/
def State.census (s : State) : State :=
  let per := (List.range 4).map fun q => s.nets q
  let bad := per.map fun l => l.filter fun n => (s.driversOf n).length > 1
  let nfail := (bad.map List.length).sum
  let nfloat := (per.map fun l =>
    (l.filter fun n => (s.driversOf n).isEmpty && n.any Node.receives).length).sum
  let s := (s.setF Fld.AC_CENSUS_NFAIL (min 255 nfail)).setF Fld.AC_CENSUS_FLOAT (min 255 nfloat)
  let s := s.setB Fld.AC_CENSUS_PASS (nfail == 0)
  match bad.findSome? lowestNet with
  | some n => s.nameNet (lowestTrack n) (lowestTwo (s.driversOf n))
  | none => s.nameNet 0 (0, 0)

/-- The double-driven net that a write would make or feed: one that holds a switch it closes or a terminal it makes a driver
(R113); none where the write is allowed. `after` is the state with the write applied. -/
def refusedNet (before after : State) (a : Nat) : Option (List Node) :=
  match matrixEdges a (before.word a), matrixEdges a (after.word a) with
  | some (q, old), some (_, new) =>
    let es := after.edges q
    let fresh := (new.filter fun e => !old.contains e).map (·.1)
    let ends := (es.map (·.2)).filter fun x => (after.driver x).isSome && (before.driver x).isNone
    lowestNet (((fresh ++ ends).map fun x => netOf es (2 * es.length + 1) [x]).filter fun n =>
      (after.driversOf n).length > 1)
  | _, _ => none

end Sys2Proof.Machine
end

