-- ==== Sys2Proof/Machine/Signal.lean ====
section
/-! DEFINITION. The signals in the analog core: what drives a terminal, and what a cell makes of its inputs (R90 to R101, R105,
R110, R248). -/

namespace Sys2Proof.Machine

def State.cell (s : State) (c : Nat) : Cell := Tab.get (fun _ => Cell.init) s.cells c
def State.setCell (s : State) (c : Nat) (x : Cell) : State :=
  { s with cells := Tab.put (fun _ => Cell.init) s.cells c x }

/-- The home group of a cell: the group of its home port (R109, worked example). -/
def homeGroup (c : Nat) : Nat := c / 8

/-! ## Terminals -/

/-- The switches that conduct: in Bench they are overridden open (R36, R115). -/
def State.closedSwitches (s : State) (q : Nat) : Edges := if s.mode = .bench then [] else s.edges q

/-- The quadrant of a terminal (R15, R16). -/
def Node.quadrant : Node → Nat
  | .track n => if n < 0x8000 then n / 192 else (n - 0x8000) / 48
  | .fe p | .drv p => p / 24
  | .in0 c | .in1 c | .out c => c / 48
  | .dac d => d / 6
  | .cgIn g _ => g / 6

/-- DAd.OUT: the code in steps of 2^-15 V after DAd_TRIM; 0 V while the DAC is held (R248, R249). -/
def State.dacVolts (s : State) (d : Nat) : Rat :=
  let x := Tab.get (fun _ => Dac.init) s.dacs d
  if x.held then 0 else trimBy (s.word (Reg.DA_TRIM.addr d 0)) ((toSigned 16 x.out : Rat) / 2 ^ 15)

/-- The voltage of a driver, by its code (R112). -/
def State.driverVolts (s : State) (code : Nat) : Rat :=
  if code < 0x2000 then
    let n := code - 0x1000
    if s.portActive n then s.frontEnd n (Tab.get (fun _ => 0) s.apPins n) else 0
  else if code < 0x3000 then (s.cell (code - 0x2000)).out
  else s.dacVolts (code - 0x3000)

/-- The voltage at a terminal: that of its net's one driver; the common mode where none drives (R96, R110); a free value where
several do, as the spec states none. -/
def State.terminal (s : State) (x : Node) : Rat :=
  let es := s.closedSwitches x.quadrant
  match s.driversOf (netOf es (2 * es.length + 1) [x]) with
  | [] => 0
  | [d] => s.driverVolts d
  | l => Config.contention (l.map s.driverVolts)

/-- The voltage that port n puts at its pins; none: high-impedance (R92, R362, R365). In a pair only the primary drives
(R529). -/
def State.apPin (s : State) (n : Nat) : Option Rat := if s.drivesPins then s.pinDrive n (s.terminal (.drv n)) else none

/-! ## What a cell is set to (R97 to R99, R105) -/

/-- The gain of PGA and auto-zero pair: −12 + 0.5 GCODE dB (R97). -/
def State.cellGain (s : State) (c : Nat) : Rat :=
  let g := s.f Fld.AC_GAIN_GCODE c
  ratRoot 40 (if 24 ≤ g then 10 ^ (g - 24) else 1 / 10 ^ (24 - g))

/-- τ = R C M in seconds, of functions 3, 5 and 6 (R98). -/
def State.cellTau (s : State) (c : Nat) : Rat :=
  let r := 1000 * ratRoot 64 (10 ^ s.f Fld.AC_TUNE_RSEL c)
  let cap := (s.f Fld.AC_TUNE_CAP c + 1 : Rat) / 4 / 10 ^ 12
  r * cap * (if s.on Fld.AC_TUNE_M c then 16 else 1)

/-- Q = 2^((QSEL − 4)/4) (R98). -/
def State.cellQ (s : State) (c : Nat) : Rat := ratRoot 4 (2 ^ s.f Fld.AC_TUNE_QSEL c) / 2

/-- The frequency of SCLK in Hz: a quarter of the sample clock's, which LCS_SMPQ measures (R54, R56). -/
def State.sclkHz (s : State) : Rat :=
  if s.f Fld.LCS_CTL_CLKSRC = 2 then
    (64000000000 * 65536 : Rat) / ((s.lcs.smpq.map fun q => (q : Rat)).getD Config.unknownSmpq) / 4
  else 200000000

/-- ω0 = 2π fc of the section, in radians a second: 1/τ in function 3, f_sw CS / (64 − CS) in function 4 (R98, R99). -/
def State.cellOmega (s : State) (c : Nat) : Rat :=
  if s.f Fld.AC_CTL_FUNC c = 4 then
    let cs := s.f Fld.AC_SC_CS c
    s.sclkHz / s.f Fld.AC_SC_SWDIV c * cs / (64 - cs)
  else 1 / s.cellTau c

/-- The OFS at which amplifier k (0 A, 1 B) has its own offset nulled: within one step of the OFS it holds, by a free amount,
until a write leaves that point (R102, R105). DESIGN CHOICE, log entry 18. -/
def State.ampNull (s : State) (c k : Nat) : Rat :=
  let x := s.cell c
  let ofs := toSigned 10 ((s.word (Reg.AC_TRIM.addr c k)).bits 16 10)
  (if k = 0 then x.nullA else x.nullB).getD (max (ofs - 1) (min (ofs + 1) (Config.ampOffset c k)))

/-- The nulling point of amplifier k stays where it is (`some`), or is found anew at the OFS written (`none`). -/
def Cell.setNull (x : Cell) (k : Nat) (v : Option Rat) : Cell := if k = 0 then { x with nullA := v } else { x with nullB := v }

/-- A voltage through amplifier k: its own offset and OFS, in steps of 20 µV referred to the input, and GAIN in relative steps
of 2^-14 (R105). -/
def State.amp (s : State) (c k : Nat) (v : Rat) : Rat :=
  let w := s.word (Reg.AC_TRIM.addr c k)
  (v + ((toSigned 10 (w.bits 16 10) : Rat) - s.ampNull c k) * 20 / 1000000) * (1 + (toSigned 10 (w.bits 0 10) : Rat) / 2 ^ 14)

/-! ## The cell at work (R96 to R101) -/

/-- The high-pass voltage of a state-variable section: what drives the two integrators (R98). -/
def highPass (q u lp bp : Rat) : Rat := u - lp - bp / q

/-- A section whose input holds at `u` for `x` time constants: 32 terms of the exact response, the derivatives of (LP, BP) being
(BP, HP). DESIGN CHOICE, log entry 18. -/
def sectionRun (q u x lp bp : Rat) : Rat × Rat :=
  let step := fun (a : (Rat × Rat) × (Rat × Rat)) (k : Nat) =>
    let d := a.2
    let n := ((d.2 * x / (k + 1)), (-d.1 - d.2 / q) * x / (k + 1))
    ((a.1.1 + d.1, a.1.2 + d.2), n)
  let first := (bp * x, highPass q u lp bp * x)
  let r := ((List.range 32).foldl (fun a k => step a (k + 1)) ((lp, bp), first)).1
  (grid r.1, grid r.2)

/-- The same over a longer time, in `n` equal parts. -/
def sectionRuns (q u x lp bp : Rat) : Nat → Rat × Rat
  | 0 => (lp, bp)
  | n + 1 => let r := sectionRun q u x lp bp; sectionRuns q u x r.1 r.2 n

/-- IN0 of a cell through amplifier k. -/
def State.cellIn (s : State) (c k : Nat) : Rat := s.amp c k (s.terminal (.in0 c))

/-- The section of a cell whose input has held at `u` for `dt` seconds: Q is below 8, so that after 1,024 time constants
nothing is left of where it began. -/
def State.sectionTo (s : State) (c : Nat) (u dt : Rat) : Cell :=
  let x := s.cell c
  let w := min 1024 (s.cellOmega c * dt)
  let n := w.ceil.toNat
  let r := sectionRuns (s.cellQ c) u (if n = 0 then 0 else w / n) x.lp x.bp n
  { x with lp := r.1, bp := r.2 }

/-- The cell after its inputs have been as they are for `dt` seconds: the integral forms, the holds track and decay, the
section runs; a switched-capacitor section stands while its SCLK does (R98 to R101). -/
def State.cellRun (s : State) (c : Nat) (clocked : Bool) (dt : Rat) : Cell :=
  let x := s.cell c
  let u := s.cellIn c 0
  match s.f Fld.AC_CTL_FUNC c with
  | 3 => s.sectionTo c u dt
  | 4 => if clocked then s.sectionTo c u dt else x
  | 5 => { x with integ := x.integ + u * dt / s.cellTau c }
  | 6 =>
    let low := s.cellIn c 1
    let keep := fun (h v : Rat) => if s.on Fld.AC_CTL_PKDEC c then v + (h - v) * expNeg (dt / s.cellTau c) else h
    { x with peakMax := max u (keep x.peakMax u), peakMin := min low (keep x.peakMin low) }
  | _ => x

/-- What the output would be without its clamp (R96). While the amplifiers of function 7 are in parallel OUT carries the serving
one's (R102; DESIGN CHOICE, log entry 18). -/
def State.cellOutput (s : State) (c : Nat) (x : Cell) : Rat :=
  let diff := s.terminal (.in0 c) - s.terminal (.in1 c)
  match s.f Fld.AC_CTL_FUNC c with
  | 1 => s.cellIn c 0
  | 2 => s.amp c 0 diff * s.cellGain c
  | 3 | 4 => s.amp c 1 (match s.f Fld.AC_CTL_SEL c with
      | 0 => x.lp
      | 1 => x.bp
      | _ => highPass (s.cellQ c) (s.cellIn c 0) x.lp x.bp)
  | 5 => x.integ
  | 6 => match s.f Fld.AC_CTL_SEL c with
      | 0 => x.peakMax
      | 1 => x.peakMin
      | _ => x.peakMax - x.peakMin
  | 7 => s.amp c (if x.servingB then 1 else 0) diff * s.cellGain c
  | _ => 0

/-- The cell's inputs have been as they are for `dt` seconds: OUT takes the output, clamped at ±1.1 V, and a clamp sets SAT
(R96). -/
def State.cellSettle (s : State) (c : Nat) (clocked : Bool) (dt : Rat) : State :=
  let x := s.cellRun c clocked dt
  let o := if s.f Fld.AC_CTL_FUNC c = 4 ∧ clocked = false then x.out else s.cellOutput c x
  (s.setCell c { x with out := limited (11 / 10) o }).flagIf (decide (11 / 10 < o.abs)) Fld.AC_STAT_SAT c

/-- RST: the integrator is discharged, the peak holds take IN0, and OUT with them (R100, R101). -/
def State.cellReset (s : State) (c : Nat) : State :=
  let x := s.cell c
  match s.f Fld.AC_CTL_FUNC c with
  | 5 => s.setCell c { x with integ := 0, out := 0 }
  | 6 =>
    let x := { x with peakMax := s.cellIn c 0, peakMin := s.cellIn c 1 }
    s.setCell c { x with out := limited (11 / 10) (s.cellOutput c x) }
  | _ => s

end Sys2Proof.Machine
end

