-- ==== Sys2Proof/Machine/Beat.lean ====
section
/-! DEFINITION. A converter group's SCLK edge: conversion, emission, comparators, and the commands of chapter 05 of
spec/. -/

namespace Sys2Proof.Machine

/-- The words of a held beat on one lane; `idx` is the index of its first word, `fo` whether it carries FAILOVER (R535). -/
def HeldBeat.laneWords (h : HeldBeat) (heritage first fo : Bool) (idx : Nat) (l : Nat) : List StreamWord :=
  (((h.lanes[l]?).getD []).zipIdx).map fun e =>
    { val := e.1.word heritage, index := idx + e.2, mark := e.1.mark, ovr := e.1.ovr && !heritage, settling := false,
      handover := (h.handover[l]?).getD false, refUnset := h.refUnset, failover := fo, edge := some e.1.edge,
      entryStart := first && e.2 == 0, switched := false }

/-- The 8-bit count of over-range samples of lane `l`. -/
def ovrCnt (l : Nat) : FieldRef := ⟨0x10003C, 0x1000, 0x0, 8 * l, 8⟩

/-- The beat that leaves the delay line at this SCLK edge, if any, is emitted (R136 to R138). DEDUCED, log entry 23. -/
def State.emitBeat (s : State) (g : Nat) : State :=
  let x := s.group g
  match x.core.due x.beat with
  | none => s
  | some h =>
    let nl := h.lanes.length
    let idx := x.core.emit / nl
    let first := x.emitted != some h.attempt
    let heritage := s.on Fld.DEV_COMPAT_HERITAGE
    let s := s.setGroup g { x with core := x.core.release, emitted := some h.attempt }
    let fo := s.twin.foUntil.any fun t => decide (h.tick ≤ t)
    let firstEdge := match (h.lanes[0]?).getD [] with | y :: _ => y.edge | [] => 0
    let s := if first && h.log then s.elogPush g ⟨h.entry, idx % 2 ^ 48, s.edgeTick firstEdge h.tick % 2 ^ 32⟩ else s
    (List.range nl).foldl (fun s l => s.emit (laneCode g l) (h.laneWords heritage first fo idx l)) s

/-- V_ref of group `g` in volts (R125); what stands at REFQq and at VDDA is free. -/
def State.vRef (s : State) (g : Nat) : Rat :=
  match s.f Fld.CG_REF_SEL g with
  | 1 => Config.refqVolts (g / 6) s.lcs.time
  | 2 => Config.vddaVolts s.lcs.time * 5 / 9
  | _ => 1

/-- 8,192 v / V_ref of input `i` of group `g`, with 16 fractional bits (R122, R124). -/
def State.inputCode (s : State) (g i : Nat) : Int := (8192 * 65536 * s.terminal (.cgIn g i) / s.vRef g).floor

/-- What the serving slices give at the four positions for each of the four inputs: the input's code and the slice's own
error `err`, which the residual stage corrects (R124; DESIGN CHOICE, log entry 22). Where the beat follows another, lane 0's
first sample is the one that the other's last was followed by (R169). -/
def State.sliceOut (s : State) (g : Nat) (err : List (List Int)) (link : Option (Int × Int)) : List (List Int) :=
  let at_ := (List.range 4).map fun i => s.inputCode g i
  let out := err.map fun l => List.zipWith (· + ·) l at_
  match link with
  | some x => out.set 0 (List.replicate 4 x.2)
  | none => out

/-- What the last beat of INTERLEAVE4 leaves for the one at edge `e`: the slice output of its last sample, and of the one
after. -/
def Group.link (x : Group) (mode e : Nat) : Option (Int × Int) :=
  match x.lane0 with
  | some (last, b, n) => if mode = 0 ∧ last + 1 = e then some (b, n) else none
  | none => none

/-- What the residual stage gives at the four positions for the inputs that their lanes select. `raw` holds, position by
position, what the serving slice gives for each of the group's four inputs, with 16 fractional bits; `before` and `after`
are lane 0's neighbours of the beat. -/
def State.beatResults (s : State) (g : Nat) (raw : List (List Int)) (before after : Int) (insel : Nat) : List Rat :=
  let mode := s.f Fld.CG_CTL_MODE g
  let pick := fun p => (((raw[p]?).getD [])[insel / 4 ^ laneOf mode p % 4]?).getD 0
  (List.range 4).map fun p =>
    let b := if p = 0 then before else pick (p - 1)
    let a := if p = 3 then after else pick (p + 1)
    s.residual g (s.f (rotPos p) g) (pick p) b a (mode == 0)

/-- The result of the incoming slice of an overlap, from its own raw value `inc` (R150). -/
def State.incomingResult (s : State) (g : Nat) (o : Overlap) (raw : List (List Int)) (before after inc : Int)
    (insel : Nat) : Int × Bool :=
  let mode := s.f Fld.CG_CTL_MODE g
  let pick := fun p => (((raw[p]?).getD [])[insel / 4 ^ laneOf mode p % 4]?).getD 0
  let b := if o.pos = 0 then before else pick (o.pos - 1)
  let a := if o.pos = 3 then after else pick (o.pos + 1)
  codeOf (s.residual g o.slIn inc b a (mode == 0))

/-- The positions convert one beat (R120, R123 to R125, R127 to R130, R140, R144, R150, R154, R169, R170). -/
def State.convertBeat (s : State) (g e tick : Nat) (raw : List (List Int)) (before after inc : Int) : State :=
  let cfg := s.seqCfg g
  let x := s.group g
  let core := x.core.enter cfg
  let mode := s.f Fld.CG_CTL_MODE g
  let insel := core.seq.insel
  let link := x.link mode e
  let raw := s.sliceOut g raw link
  let before := (link.map (·.1)).getD before
  let inc := inc + s.inputCode g (match x.rot.overlap with | some o => insel / 4 ^ laneOf mode o.pos % 4 | none => 0)
  let ys := s.beatResults g raw before after insel
  let res := ys.map codeOf
  let lanes := (lanePositions mode).map fun ps => ps.map fun p =>
    let r := (res[p]?).getD (0, false)
    ({ code := r.1, ovr := r.2, edge := 4 * e + p, mark := x.marksAhead.contains (4 * e + p) } : Sample)
  let ov := match x.rot.overlap with | some o => if o.taken < 1024 then some o else none | none => none
  let h : HeldBeat :=
    { beat := x.beat, lat := 14 + core.seq.d, entry := core.seq.entry, attempt := core.seq.attempt, log := core.seq.log,
      lanes := lanes, refUnset := !s.on Fld.CG_STAT_REF_SETTLED g,
      handover := (List.range lanes.length).map fun l => ov.any fun o => laneOf mode o.pos == l,
      tick := tick, done := false }
  let inDwell := core.seq.st == .dwell || core.seq.st == .udwell
  let x : Group := match core.fate with
    | .unused => { x with core := { core with marksLost := core.marksLost + h.marks } }
    | .settle => { x with core := core.takeSettle cfg h.marks }
    | .dwell => { x with
        core := core.takeDwell cfg h,
        winQ := x.winQ ++ [{ beat := x.beat, entry := core.seq.entry, lanes := lanes }] }
  let last := (((raw[3]?).getD [])[insel % 4]?).getD 0
  let s := s.setGroup g { x with lane0 := if mode = 0 then some (e, last, after) else none }
  let s := match core.fate with
    | .unused => s
    | _ => h.lanes.zipIdx.foldl (fun (s : State) (e : List Sample × Nat) => s.addSat (ovrCnt e.2) (e.1.countP Sample.ovr) g) s
  let s := match ov with
    | some o => s.overlapSample g ((res[o.pos]?).getD (0, false)) (s.incomingResult g o raw before after inc insel)
    | none => s
  if inDwell && s.on Fld.CG_ROT_CTL_EST_EN g && mode != 2 then s.estCount g ys else s.estBreak g

/-- SCLK of group `g` drains up to 8 records of each firing-record FIFO that it clocks, those of the group and of its chains
(R495). -/
def State.cgDrain (s : State) (g : Nat) : State :=
  let s := s.setGroup g { s.group g with queued := (s.group g).queued - 8 }
  s.chains.foldl (fun s e =>
    let c := s.chain e.1
    if c.queued = 0 ∨ s.fcGroup e.1 (s.f Fld.FC_SRC_SRC e.1) ≠ g then s else s.setChain e.1 { c with queued := c.queued - 8 }) s

/-- One SCLK edge of group `g`, the sample-clock edges 4e to 4e + 3 (R120, R123, R136, R139). DESIGN CHOICE, log entry 22. -/
def State.cgEdge (s : State) (g e tick : Nat) (raw : List (List Int)) (before after inc : Int) : State :=
  let s := (((s.atTick tick).cgDrain g).cgCommit g).handoverEnd g
  let s := (List.range 4).foldl (fun s l => s.winReport g l) s
  let x := s.group g
  let s := s.setGroup g { x with
    beat := x.beat + 1, lastEdge := some e, core := x.core.advance (s.seqCfg g) }
  let runs := s.on Fld.CG_CTL_EN g && s.mode.converts
  let s := if runs then s.convertBeat g e tick raw before after inc else s
  let x := s.group g
  let past := x.marksAhead.filter fun m => m ≤ 4 * e + 3
  let lost := past.filter fun m => !runs || m < 4 * e
  let s := s.setGroup g { x with
    marksAhead := x.marksAhead.filter fun m => !(m ≤ 4 * e + 3),
    core := { x.core with marksLost := x.core.marksLost + lost.length } }
  (((s.emitBeat g).cgWindows g).cgCommit g).rsSweep g

/-- The bit `k` of the group's oldest firing, taken; `then_` acts on it. -/
def State.cgInbox (s : State) (g k : Nat) (then_ : FiringRec → State → State) : State :=
  let x := s.group g
  match headBit k x.inbox with
  | some r =>
    let s := s.setGroup g { x with inbox := takeBit k x.inbox }
    if s.on Fld.CG_CTL_EN g then then_ r s else s
  | none => s

/-! ## Meanings -/

/-- DESIGN CHOICE, log entry 22. -/
def execConversionBeat (g e tick : Nat) (raw : List (List Int)) (before after inc : Int) (s : State) : Out :=
  if raw.length = 4 ∧ raw.all (·.length = 4) then
    ifPresent g s.part.numCG 24 s (.next (if s.sclk g then s.cgEdge g e tick raw before after inc else s))
  else .fault .illFormed

def execSeqStart (g : Nat) (s : State) : Out :=
  ifPresent g s.part.numCG 24 s (.next (s.cgInbox g 0 fun _ s => s.cgRequest g fun r => { r with seqStart := true }))

def execUrgent (g : Nat) (s : State) : Out :=
  ifPresent g s.part.numCG 24 s (.next (s.cgInbox g 1 fun _ s => s.cgRequest g fun r => { r with urgent := true }))

def execMark (g : Nat) (s : State) : Out :=
  ifPresent g s.part.numCG 24 s (.next (s.cgInbox g 2 fun r s => s.cgMark g r))

/-- CGg_CTL written with `w` (R121, R131, R138). -/
def State.writeCgCtl (s : State) (g : Nat) (w : Word) : State :=
  let a := Reg.CG_CTL.addr g 0
  let old := s.word a
  let w := w &&& 0x103
  let w := if w.bits 0 2 = 3 then w.setBits 0 2 0 else w
  let x := guardWrite old w (if old.bit 8 then 3 else 0)
  let s' := (s.setWord a x.1).flagIf x.2 Fld.CG_STAT_WR_IGN g
  match old.bit 8, x.1.bit 8 with
  | false, true => s'.cgEnable g
  | true, false =>
    let s := (((s.cgDisable g).abandon g).setWord a x.1).flagIf x.2 Fld.CG_STAT_WR_IGN g
    (List.range 4).foldl (fun s l => s.sourceStops (laneCode g l)) s
  | _, _ => s'

def execCgEnable (g : Nat) (s : State) : Out := hostRow (
  ifPresent g s.part.numCG 24 s (.next <|
    s.sclkWrite g (Reg.CG_CTL.addr g 0) fun s => s.writeCgCtl g (s.word (Reg.CG_CTL.addr g 0) ||| 0x100)))

def execCgDisable (g : Nat) (s : State) : Out := hostRow (
  ifPresent g s.part.numCG 24 s (.next <|
    s.sclkWrite g (Reg.CG_CTL.addr g 0) fun s => s.writeCgCtl g ((s.word (Reg.CG_CTL.addr g 0)).setBits 8 1 0)))

def execCgGo (g : Nat) (s : State) : Out := hostRow (
  ifPresent g s.part.numCG 24 s (.next <|
    s.sclkWrite g (Reg.CG_SEQCTL.addr g 0) fun s => s.writeSeqctl g (s.word (Reg.CG_SEQCTL.addr g 0) ||| 1)))

def execCgStop (g : Nat) (s : State) : Out := hostRow (
  ifPresent g s.part.numCG 24 s (.next <|
    s.sclkWrite g (Reg.CG_SEQCTL.addr g 0) fun s => s.writeSeqctl g (s.word (Reg.CG_SEQCTL.addr g 0) ||| 2)))

/-- The transition that is due is made; the requests of the cycle act after it (R133). DESIGN CHOICE, log entry 22. -/
def State.cgAdvance (s : State) (g : Nat) (ok : SeqSt → Bool) : State :=
  let x := s.group g
  let f := s.seqCfg g
  if ok x.core.seq.st then s.setGroup g { x with core := x.core.advance f, base := x.base.map fun c => c.advance f } else s

def execSettleEnd (g : Nat) (s : State) : Out :=
  ifPresent g s.part.numCG 24 s (.next (s.cgAdvance g fun q => q == .settle || q == .usettle))

def execDwellComplete (g : Nat) (s : State) : Out :=
  ifPresent g s.part.numCG 24 s (.next (s.cgAdvance g fun q => q == .dwell))

def execUrgentDwellComplete (g : Nat) (s : State) : Out :=
  ifPresent g s.part.numCG 24 s (.next (s.cgAdvance g fun q => q == .udwell))

/-- The four counters are latched (R137); what a request of this SCLK cycle discards counts at the next SCLK edge. -/
def State.cgSnap (s : State) (g : Nat) : State :=
  let x := s.group g
  let c := x.base.getD x.core
  let s := (s.setPair Fld.CG_CONV_LO Fld.CG_CONV_HI c.conv g).setPair Fld.CG_EMIT_LO Fld.CG_EMIT_HI c.emit g
  (s.setPair Fld.CG_SDISC_LO Fld.CG_SDISC_HI c.sdisc g).setPair Fld.CG_PDISC_LO Fld.CG_PDISC_HI c.pdisc g

def execCgCntSnap (g : Nat) (s : State) : Out := hostRow (
  ifPresent g s.part.numCG 24 s (.next <| s.sclkWrite g (Reg.CG_CNT_SNAP.addr g 0) fun s =>
    s.cgSnap g))

def execElogPop (g : Nat) (s : State) : Out := hostRow (
  ifPresent g s.part.numCG 24 s (.next <| s.sclkWrite g (Reg.CG_ELOG_POP.addr g 0) fun s =>
    s.setGroup g { s.group g with elog := (s.group g).elog.drop 1 }))

def execWindowComparatorFire (g l : Nat) (s : State) : Out :=
  onInst l 4 (ifPresent g s.part.numCG 24 s (.next (s.winReport g l)))

/-- During the exit from Slumber SCLK toggles again for the reference monitors (R512). DEDUCED, log entry 21. -/
def State.settling (s : State) : Bool := s.lclk && s.mode == .slumber && s.pwr.stage == .leaving

def execRefSettled (g : Nat) (s : State) : Out :=
  ifPresent g s.part.numCG 24 s (.next <|
    if s.on Fld.CG_STAT_REF_FAULT g || !(s.sclk g || s.settling) then s else s.setSettled g true)

/-- The groups of quadrant `q`. -/
def quadOf (q : Nat) : List Nat := (List.range 6).map (6 * q + ·)

def execRefFault (q : Nat) (s : State) : Out :=
  ifPresent q (s.part.numCG / 6) 4 s (.next <|
    (quadOf q).foldl (fun s g =>
      if s.f Fld.CG_REF_SEL g = 1 then (s.flag Fld.CG_STAT_REF_FAULT g).refFalls g else s) s)

def execRefqWindowReturn (q : Nat) (s : State) : Out :=
  ifPresent q (s.part.numCG / 6) 4 s (.next ((quadOf q).foldl (fun s g => s.setF Fld.CG_STAT_REF_FAULT 0 g) s))

/-- CGg_REF written: 3 stores 0, and a change of SEL makes REF_SETTLED fall (R125, R126). REF_FAULT goes with SEL = EXT, and a
REFQq that is outside its window already when EXT is selected raises none. DESIGN CHOICE, log entry 48. -/
def State.writeCgRef (s : State) (g : Nat) (w : Word) : State :=
  let v := if w.bits 0 2 = 3 then 0 else w.bits 0 2
  if s.f Fld.CG_REF_SEL g = v then s
  else
    let s := s.setF Fld.CG_REF_SEL v g
    (if v = 1 then s else s.setF Fld.CG_STAT_REF_FAULT 0 g).refFalls g

end Sys2Proof.Machine
end

