-- ==== Sys2Proof/Machine/ChainOut.lean ====
section
/-! DEFINITION. A filter chain takes its words and forms its outputs; the commands and register writes of the chapters 07 and
08 of spec/. -/

namespace Sys2Proof.Machine

/-! ## Input words (R180, R183, R195, R199) -/

/-- The input value of a word (R180). -/
def wordValue (cls : Nat) (w : StreamWord) : Int :=
  if cls = 1 then toSigned 16 (w.val - w.val % 4) else toSigned 16 w.val

/-- Whether the word is a switch point (R195). -/
def State.switchPoint (s : State) (n : Nat) (w : StreamWord) : Bool :=
  let c := s.chain n
  c.t == 0 || w.switched || c.resumed || (s.on Fld.FC_CTL_ENTRY_SYNC n && s.fcClass n == 1 && w.entryStart)

/-- A MARK on input word `t` waits for its FIR output, the one whose t − GDELAY/256 lies nearest; a fifth, or one whose
output is already formed, is lost (R199). -/
def State.fcMark (s : State) (n t : Nat) : State :=
  let c := s.chain n
  let d := s.f Fld.FC_CIC_D n
  let m := ((((t : Rat) + s.gdelay n - (d - 1)) / d + 1 / 2).floor).toNat
  if c.marks.length < 4 ∧ c.m ≤ m then s.setChain n { c with marks := c.marks ++ [m] }
  else s.addSat Fld.FC_EVCNT_MARK_LOST 1 n

/-- One input word up to the integrators: the second result is the value the decimator keeps, if this word ends a CIC
output. -/
def State.takeWord (s : State) (n : Nat) (w : StreamWord) : State × Option Int :=
  let cls := s.fcClass n
  let sw := s.switchPoint n w
  let c := s.chain n
  let t := c.t
  let e := w.edge.getD 0
  let newEntry := cls == 1 && (sw || w.entryStart)
  let s := if newEntry then s.rsResolve n (some e) (c.insts.length + 1) else s
  let c := s.chain n
  let at_ := fun (b : Bool) (old : Option Nat) => if b then some t else old
  let x := integrate (s.cicCfg n) (wordValue cls w) 0 c.integ
  let s := s.setChain n { c with
    t := t + 1, integ := x.1, resumed := false, lastSwitch := if sw then t else c.lastSwitch,
    lastOvr := at_ (if cls = 1 then w.val / 2 % 2 == 1 else w.ovr) c.lastOvr, lastHo := at_ w.handover c.lastHo,
    lastRef := at_ w.refUnset c.lastRef, lastFo := at_ w.failover c.lastFo,
    entry := if cls = 1 then
        some (match newEntry, c.entry with
          | false, some y => { y with last := e }
          | _, _ => { a := t, first := e, last := e })
      else none }
  let s := if cls = 1 then s.rsResolve n none (c.insts.length + 1) else s
  let s := if (if cls = 1 then w.val % 2 == 1 else w.mark) then s.fcMark n t else s
  let d := s.f Fld.FC_CIC_D n
  (s, if t % d = d - 1 then some x.2 else none)

/-! ## FIR outputs -/

/-- The side band of FIR output `m` before its own saturation (R196, R199). -/
def State.firBand (s : State) (n m : Nat) : ChainBand :=
  let c := s.chain n
  let g := s.cicCfg n
  let t : Int := m * g.d + g.d - 1
  let start : Int := t - (g.n * (g.d * g.k - 1) + (s.ntap n - 1) * g.d : Nat)
  let since := fun (l : Option Nat) => l.any fun x => decide (start ≤ (x : Int))
  { ovr := since c.lastOvr || c.lastSat.any fun x => decide ((m : Int) - s.ntap n < x),
    handover := since c.lastHo, refUnset := since c.lastRef, failover := since c.lastFo,
    mark := c.marks.count m,
    causes := (if start < 0 then 1 else 0) + (if 0 < c.lastSwitch ∧ start < (c.lastSwitch : Int) then 2 else 0) +
      (if c.fade.isSome then 4 else 0) }

/-- The value of a FIR output: of the bank in use, or between two banks (R188, R190). -/
def State.firValue (s : State) (n : Nat) (h : List Int) : Int × Bool :=
  let old := s.firOut n (s.f Fld.FC_STAT_ACTBANK n) h
  match (s.chain n).fade with
  | some (bank, i) =>
    let new := s.firOut n bank h
    (old.1 + (new.1 - old.1) * (i + 1) / (s.f Fld.FC_FIR_XFLEN_M1 n + 1), old.2 || new.2)
  | none => old

/-- A value from the decimator passes the combs and the FIR, and every output that follows from it is formed.
DESIGN CHOICE, log entry 26. -/
def State.firForm (s : State) (n : Nat) (u : Int) : State :=
  let s := (s.fadeEnd n).fadeStart n
  let c := s.chain n
  let m := c.m
  let y := combine (s.cicCfg n) u 0 c.comb
  let x := cicOut (s.cicCfg n) y.2
  let h := (x.1 :: c.cic).take 128
  let s := s.setChain n { c with
    comb := y.1, cic := h, m := m + 1, lastSat := if x.2 then some m else c.lastSat }
  let s := if x.2 then ((s.flag Fld.FC_STAT_CIC_SAT n).flag Fld.FC_IRQ_SAT n).addSat Fld.FC_EVCNT_SATS 1 n else s
  let v := s.firValue n h
  let s := if v.2 then ((s.flag Fld.FC_STAT_FIR_SAT n).flag Fld.FC_IRQ_SAT n).addSat Fld.FC_EVCNT_SATS 1 n else s
  let b := s.firBand n m
  let b := { b with ovr := b.ovr || v.2 }
  let s := s.setB Fld.FC_STAT_SETTLING (b.causes != 0) n
  let c := s.chain n
  let s := s.setChain n { c with
    fade := c.fade.map fun f => (f.1, f.2 + 1), marks := c.marks.filter (· != m),
    hist := { m := m, val := v.1, band := b } :: c.hist.filter (c.keeps m) }
  let rs := s.on Fld.FC_CTL_RSEN n
  let tap1 := s.on Fld.FC_DET_CTL_TAP n
  let s := if !rs || !tap1 then s.detSample n v.1 m b else s
  if rs then
    let s := if b.mark = 0 then s else s.rsMark n m
    if s.rsMode n ≠ 0 ∧ s.fcClass n ≠ 1 then s else s.rsRun n m ((s.chain n).slots.length + 520)
  else if s.f Fld.FC_RS_CTL_OUTSEL n = 0 then s.formOut n (ofSigned 32 v.1) b else s

/-- Words are taken up to the one that ends a FIR output. DESIGN CHOICE, log entry 26. -/
def State.chainTake (s : State) (n fuel : Nat) : State :=
  match fuel with
  | 0 => s
  | k + 1 =>
    match (s.feed (feedFC n)).inq with
    | [] => s
    | w :: _ =>
      let r := (s.consume (feedFC n) 1).takeWord n w
      match r.2 with
      | some u => r.1.firForm n u
      | none => r.1.chainTake n k

/-- All words that wait are taken. -/
def State.chainDrain (s : State) (n fuel : Nat) : State :=
  match fuel with
  | 0 => s
  | k + 1 => if (s.feed (feedFC n)).inq = [] then s else (s.chainTake n (s.feed (feedFC n)).inq.length).chainDrain n k

/-- After Nap, Slumber or Bench the next word that comes is a switch point (R195, R200); those that wait came before. -/
def State.resumeChains (s : State) : State :=
  (List.range s.part.numFC).foldl (fun s n =>
    let f := s.feed (feedFC n)
    if !s.on Fld.FC_CTL_EN n then s
    else if f.inq = [] then s.setChain n { s.chain n with resumed := true }
    else s.setFeed (feedFC n) { f with fresh := true }) s

/-! ## Register writes -/

/-- The latched results of the detectors (R223, R226). -/
def detResults (n : Nat) : List Nat :=
  [Reg.FC_DET_RMS.addr n 0, Reg.FC_DET_PKMAX.addr n 0, Reg.FC_DET_PKMIN.addr n 0, Reg.FC_DET_ENV.addr n 0,
   Reg.FC_DET_WSTAT.addr n 0, Reg.FC_DET_WCNT.addr n 0, Reg.FC_DET_WIDX_LO.addr n 0, Reg.FC_DET_WIDX_HI.addr n 0]

/-- EN goes from 0 to 1 (R183, R208, R210, R226). -/
def State.fcStart (s : State) (n : Nat) : State :=
  let c := s.chain n
  let f := s.feed (feedFC n)
  let s := s.setFeed (feedFC n) { f with inq := [] }
  let s := s.setChain n { Chain.init with store := c.store, inc := c.inc, lastEpoch := s.startEpoch n }
  let s := (detResults n).foldl (fun s a => s.setWord a 0) (s.rsMarksLost n c.rsMarks.length)
  let s := (s.checkBank n (s.f Fld.FC_STAT_ACTBANK n)).updateGdelay n
  if s.on Fld.FC_CTL_RSEN n then s.setF Fld.FC_RS_KDELAY (ofSigned 32 (s.chain n).kdelay) n else s

/-- EN is cleared: a fade ends and ACTBANK becomes the requested bank (R191). -/
def State.fcStop (s : State) (n : Nat) : State :=
  let s := s.fadeEnd n
  let c := s.chain n
  let bank := s.f Fld.FC_FIR_BANK n
  let s := s.setChain n { c with fade := none, pend := none, crossed := false }
  let s := s.setF Fld.FC_STAT_XFADE 0 n
  if s.f Fld.FC_STAT_ACTBANK n = bank then s else (s.setF Fld.FC_STAT_ACTBANK bank n).checkBank n bank

/-- FCn_CTL written with `w` (R182, R202). -/
def State.writeFcCtl (s : State) (n : Nat) (w : Word) : State :=
  let a := Reg.FC_CTL.addr n 0
  let old := s.word a
  let w := w &&& 0x001F0F00
  let w := if w.bits 16 5 > 23 then w.setBits 16 5 0 else w
  let x := guardWrite old w (if old.bit 8 then 0x001F0600 else 0)
  let s := (s.setWord a x.1).flagIf x.2 Fld.FC_STAT_WR_IGN n
  match old.bit 8, x.1.bit 8 with
  | false, true => s.fcStart n
  | true, false => (s.fcStop n).sourceStops (chainCode n)
  | _, _ => s

/-- A write that is ignored while EN = 1 (R182, R225). -/
def State.writeWhileOff (s : State) (n a : Nat) (w : Word) (flag : FieldRef) : State :=
  let x := guardWrite (s.word a) w (if s.on Fld.FC_CTL_EN n then 0xFFFFFFFF else 0)
  (s.setWord a x.1).flagIf x.2 flag n

/-- FCn_SRC written (R19, R24, R182): the words of the old source that wait are taken first, so that no beat is cut. In a mode
that holds the chain (R36, R200) they go with the old source. DESIGN CHOICE, log entry 26. -/
def State.writeFcSrc (s : State) (n v : Nat) : State :=
  let v := storedSource .chain v
  let old := s.f Fld.FC_SRC_SRC n
  if s.on Fld.FC_CTL_EN n ∧ s.fcGroup n old ≠ s.fcGroup n v then s.flag Fld.FC_STAT_WR_IGN n
  else
    let s := if s.fcRuns n ∧ v ≠ old then s.chainDrain n (s.feed (feedFC n)).inq.length else s
    (s.setF Fld.FC_SRC_SRC v n).connect (feedFC n) v

/-- FCn_CIC, FCn_CIC_SHI, FCn_CIC_SHC written (R182, R184, R194). -/
def State.writeFcCic (s : State) (n : Nat) (w : Word) : State :=
  let w := w &&& 0x3FFF0107
  let w := (w.setBits 0 3 (max 3 (min 5 (w.bits 0 3)))).setBits 16 14 (max 2 (min 8192 (w.bits 16 14)))
  let s := s.writeWhileOff n (Reg.FC_CIC.addr n 0) w Fld.FC_STAT_WR_IGN
  s.setF Fld.FC_LAT (2 * s.f Fld.FC_CIC_N n + 14) n

/-- FCn_FIR written (R182, R189, R190). -/
def State.writeFcFir (s : State) (n : Nat) (w : Word) : State :=
  let a := Reg.FC_FIR.addr n 0
  let v := w &&& 0x0FFF1FFF
  let v := (v.setBits 16 12 (max 15 (v.bits 16 12))).setBits 7 1 (s.f Fld.FC_FIR_BANK n)
  (s.writeWhileOff n a v Fld.FC_STAT_WR_IGN).writeBank n (w.bits 7 1)

/-- Whether the FIR is using bank `b`: the bank in use, a fade's, or the requested bank of a pending fade (R182, R189). -/
def State.bankUsed (s : State) (n b : Nat) : Bool :=
  let c := s.chain n
  s.on Fld.FC_CTL_EN n &&
    (s.f Fld.FC_STAT_ACTBANK n == b || c.fade.isSome || c.pend == some b)

/-- A coefficient or INFO register of bank `b` written (R182, R191, R192). -/
def State.writeFcBank (s : State) (n b a : Nat) (w : Word) : State :=
  let s := s.fadeEnd n
  let x := guardWrite (s.word a) w (if s.bankUsed n b then 0xFFFFFFFF else 0)
  (s.setWord a x.1).flagIf x.2 Fld.FC_STAT_WR_IGN n

def State.writeFcInfo (s : State) (n b : Nat) (w : Word) : State :=
  let w := w &&& 0xFFFFFF03
  s.writeFcBank n b (Reg.FC_BANK_INFO.addr n b) (if w.bits 0 2 = 3 then w.setBits 0 2 2 else w)

/-- FCn_RS_CTL written: MODE 3 stores 0 (R209, R225). -/
def State.writeRsCtl (s : State) (n : Nat) (w : Word) : State :=
  let w := w &&& 0xFFFF0733
  s.writeWhileOff n (Reg.FC_RS_CTL.addr n 0) (if w.bits 0 2 = 3 then w.setBits 0 2 0 else w) Fld.FC_RS_STAT_WR_IGN

/-- FCn_RS_INC_HI written: the pair is committed, and the next output lies by it (R210). -/
def State.commitInc (s : State) (n : Nat) (w : Word) : State :=
  let s := s.setF Fld.FC_RS_INC_HI (w.bits 0 16) n
  let v := max (2 ^ 39) (s.f Fld.FC_RS_INC_HI n * 2 ^ 32 + s.f Fld.FC_RS_INC_LO n)
  let s := s.setPair Fld.FC_RS_INC_LO Fld.FC_RS_INC_HI v n
  let c := s.chain n
  let next := match c.lastPi with
    | some p => p + (v : Rat) / 2 ^ 40
    | none => c.nextPi
  s.setChain n { c with inc := v, nextPi := next }

/-- CADDR advances (R207). -/
def State.caddrNext (s : State) (n : Nat) : State := s.setF Fld.FC_RS_CADDR (s.f Fld.FC_RS_CADDR n + 1) n

/-- CDATA written (R207). -/
def State.cdataWrite (s : State) (n : Nat) (w : Word) : State :=
  let s :=
    if s.on Fld.FC_CTL_EN n ∧ s.on Fld.FC_CTL_RSEN n then s.flag Fld.FC_RS_STAT_WR_IGN n
    else
      let c := s.chain n
      s.setChain n { c with store := Tab.put (fun _ => 0) c.store (s.f Fld.FC_RS_CADDR n) (w.bits 0 18) }
  s.caddrNext n

/-- CDATA read: the entry goes to readData (R207). -/
def State.cdataRead (s : State) (n : Nat) : State :=
  let v := Tab.get (fun _ => 0) (s.chain n).store (s.f Fld.FC_RS_CADDR n)
  { s.caddrNext n with readData := BitVec.ofNat 32 v }

/-- A write to the register file of chain `n` (R181, R496). -/
def State.fcWrite (s : State) (n a : Nat) (k : State → State) : State :=
  s.sclkWrite (s.fcGroup n (s.f Fld.FC_SRC_SRC n)) a k

/-! ## Meanings -/

def execFcEnable (n : Nat) (s : State) : Out := hostRow (
  ifPresent n s.part.numFC 48 s (.next <|
    s.fcWrite n (Reg.FC_CTL.addr n 0) fun s => s.writeFcCtl n (s.word (Reg.FC_CTL.addr n 0) ||| 0x100)))
def execFcDisable (n : Nat) (s : State) : Out := hostRow (
  ifPresent n s.part.numFC 48 s (.next <|
    s.fcWrite n (Reg.FC_CTL.addr n 0) fun s => s.writeFcCtl n ((s.word (Reg.FC_CTL.addr n 0)).setBits 8 1 0)))
def execBank (n bank : Nat) (s : State) : Out := hostRow (
  onInst bank 2 (ifPresent n s.part.numFC 48 s (.next (s.fcWrite n (Reg.FC_FIR.addr n 0) fun s => s.writeBank n bank))))
def execXfadeStart (n : Nat) (s : State) : Out :=
  ifPresent n s.part.numFC 48 s (.next (if s.fcRuns n then s.fadeCross n else s))
def execXfDone (n : Nat) (s : State) : Out := ifPresent n s.part.numFC 48 s (.next (if s.fcMoves n then s.fadeEnd n else s))
def execFcCntSnap (n : Nat) (s : State) : Out := hostRow (
  ifPresent n s.part.numFC 48 s (.next <| s.fcWrite n (Reg.FC_CNT_SNAP.addr n 0) fun s =>
    let c := s.chain n
    ((s.setPair Fld.FC_COMP_LO Fld.FC_COMP_HI c.comp n).setPair Fld.FC_EMIT_LO Fld.FC_EMIT_HI c.emit n).setPair
      Fld.FC_SUPP_LO Fld.FC_SUPP_HI c.supp n))
def execGapPop (n : Nat) (s : State) : Out := hostRow (
  ifPresent n s.part.numFC 48 s (.next <| s.fcWrite n (Reg.FC_GAP_POP.addr n 0) fun s =>
    s.setChain n { s.chain n with gaps := (s.chain n).gaps.drop 1 }))
def execTlogPop (n : Nat) (s : State) : Out := hostRow (
  ifPresent n s.part.numFC 48 s (.next <| s.fcWrite n (Reg.FC_TLOG_POP.addr n 0) fun s =>
    s.setChain n { s.chain n with tlog := (s.chain n).tlog.drop 1 }))
def execCdata (n : Nat) (acc : RegAccess) (s : State) : Out :=
  match acc with
  | .read =>
    readPresent n s.part.numFC 48 s (.next <|
      if s.sclk (s.fcGroup n (s.f Fld.FC_SRC_SRC n)) then s.cdataRead n else { s with readData := 0xFFFF0BAD })
  | .write w =>
    hostRow (ifPresent n s.part.numFC 48 s (.next (s.fcWrite n (Reg.FC_RS_CDATA.addr n 0) fun s => s.cdataWrite n w)))
def execIncCommit (n : Nat) (w : Word) (s : State) : Out := hostRow (
  ifPresent n s.part.numFC 48 s (.next (s.fcWrite n (Reg.FC_RS_INC_HI.addr n 0) fun s => s.commitInc n w)))
/-- DEDUCED, log entry 27. -/
def execSlot (n tick : Nat) (s : State) : Out := ifPresent n s.part.numFC 48 s (.next (s.rsSlot n tick))
/-- DEDUCED, log entry 27. -/
def execRsInstant (n : Nat) (s : State) : Out :=
  ifPresent n s.part.numFC 48 s (.next <|
    let c := s.chain n
    match headBit 3 c.inbox with
    | some r =>
      let s := s.setChain n { c with inbox := takeBit 3 c.inbox }
      if s.on Fld.FC_CTL_EN n then s.rsInstant n r else s
    | none => s)
/-- DEDUCED, log entry 27. -/
def execDetWindowClose (n : Nat) (s : State) : Out := ifPresent n s.part.numFC 48 s (.next (if s.fcMoves n then s.detLatch n else s))
end Sys2Proof.Machine
end

