-- ==== Sys2Proof/Machine/Dac.lean ====
section
/-! DEFINITION. Waveform DACs (chapter 10 of spec/). -/

namespace Sys2Proof.Machine

def State.dac (s : State) (d : Nat) : Dac := Tab.get (fun _ => Dac.init) s.dacs d
def State.setDac (s : State) (d : Nat) (x : Dac) : State :=
  { s with dacs := Tab.put (fun _ => Dac.init) s.dacs d x }

/-- A write to the register file of DAC `d` (R248, R496). -/
def State.daWrite (s : State) (d a : Nat) (k : State → State) : State := s.sclkWrite d a k

/-! ## Segments (R250, R251) -/

/-- Whether entry `k` waits for a SEG_START. -/
def State.segWaits (s : State) (d k : Nat) : Bool := s.on Fld.DA_SEG_CFG_WAIT d k

/-- Entry `k` as it is read when it starts. -/
def State.readSeg (s : State) (d k : Nat) : DacSeg :=
  let stream := s.on Fld.DA_SEG_CFG_KIND d k
  let n := s.f Fld.DA_SEG_LEN_LEN d k
  let n := min 65536 (n + n % 2)
  { entry := k, stream := stream, start := 2 * s.f Fld.DA_SEG_CFG_START d k,
    len := if n = 0 then (if stream then none else some 65536) else some n, pos := 0,
    reps := if stream then 0 else s.f Fld.DA_SEG_CFG_REPEAT_M1 d k, eirq := s.on Fld.DA_SEG_CFG_EIRQ d k,
    next := s.f Fld.DA_SEG_CFG_NEXT d k, begun := false, ended := false }

/-- Entry `k` starts. -/
def State.segStart (s : State) (d k : Nat) : State :=
  (s.setDac d { s.dac d with st := .play, seg := s.readSeg d k, startEdge := none }).addWrap Fld.DA_EVCNT_SEGS 1 d

/-- The DAC comes to entry `k`: it waits there, or plays it. -/
def State.segEnter (s : State) (d k : Nat) : State :=
  if s.segWaits d k then s.setDac d { s.dac d with st := .wait, seg := { s.readSeg d k with entry := k } }
  else s.segStart d k

/-- An ended entry hands over to NEXT (R251). -/
def State.segEnd (s : State) (d : Nat) : State :=
  let x := s.dac d
  if x.st = .play ∧ x.seg.ended then (s.flagIf x.seg.eirq Fld.DA_IRQ_SEG_END d).segEnter d x.seg.next else s

/-- A listened firing is dropped (R253). -/
def State.segDrop (s : State) (d : Nat) : State :=
  (s.addSat Fld.DA_EVCNT_SEG_DROP 1 d).flag Fld.DA_IRQ_SEG_DROP d

/-- A SEG_START firing (R57, R252, R253): the first sample goes to the even edge nearest σ + 80, a tie to the later. -/
def State.segFire (s : State) (d : Nat) (r : FiringRec) : State :=
  let s := s.segEnd d
  let x := s.dac d
  if x.st ≠ .wait then s.segDrop d
  else
    match s.samplePos r.instant with
    | none => s.segDrop d
    | some pos =>
      let e := 2 * (((pos + 80) / 2 + 1 / 2).floor).toNat
      let undo := (x.edges, s.f Fld.DA_EVCNT_SEGS d, s.f Fld.DA_LASTS d)
      let s := s.segStart d x.seg.entry
      let s := s.setDac d { s.dac d with startEdge := some e, undo := some undo }
      s.setF Fld.DA_LASTS (s.edgeTick e s.lcs.time) d

/-- Playback ends in IDLE; a firing accepted in the same SCLK cycle is dropped instead (R251, R253).
DESIGN CHOICE, log entry 28. -/
def State.daHalt (s : State) (d : Nat) : State :=
  let s := s.segEnd d
  let x := s.dac d
  let s : State := match x.undo with
    | some (e, segs, lasts) =>
      if e = x.edges ∧ x.st = DacSt.play then ((s.setF Fld.DA_EVCNT_SEGS segs d).setF Fld.DA_LASTS lasts d).segDrop d else s
    | none => s
  s.setDac d { s.dac d with st := .idle, startEdge := none, undo := none, resume := false }

/-- GO (R251). -/
def State.daGo (s : State) (d : Nat) : State :=
  if s.on Fld.DA_CTL_EN d ∧ (s.dac d).st = .idle then s.segEnter d (s.f Fld.DA_CTL_FIRST d) else s

/-! ## The stream FIFO and underrun (R254, R255) -/

/-- Words that have arrived enter the FIFO, or are discarded while a debt stands. -/
def State.daFill (s : State) (d fuel : Nat) : State :=
  match fuel with
  | 0 => s
  | k + 1 =>
    let x := s.dac d
    match (s.feed (feedDA d)).inq with
    | [] => s
    | w :: _ =>
      if 0 < x.debt then
        (((s.consume (feedDA d) 1).setDac d { x with debt := x.debt - 1 }).addWrap Fld.DA_SKIPW 1 d).daFill d k
      else if x.fifo.length < 4096 then
        ((s.consume (feedDA d) 1).setDac d { x with fifo := x.fifo ++ [w.val] }).daFill d k
      else s

def State.daTake (s : State) (d : Nat) : State :=
  if s.on Fld.DA_CTL_EN d then s.daFill d ((s.feed (feedDA d)).inq.length) else s

/-- Whether the DAC has room for `n` more words of a source that can be held back (R23, R254); a disabled DAC takes its
words and keeps none. -/
def State.daRoom (s : State) (d n : Nat) : Bool :=
  let x := s.dac d
  !s.on Fld.DA_CTL_EN d || decide (x.fifo.length + (s.feed (feedDA d)).inq.length + n ≤ 4096 + x.debt.toNat)

/-- The FIFO is flushed: its words count as discarded (R249). -/
def State.daFlush (s : State) (d : Nat) : State :=
  let x := s.dac d
  let k := x.fifo.length
  (s.setDac d { x with fifo := [], debt := x.debt - k }).addWrap Fld.DA_SKIPW k d

/-- Underruns show in the registers (R255). -/
def State.daUnderrun (s : State) (d : Nat) : State :=
  let x := s.dac d
  let s := s.setDac d { x with undNew := 0, undRuns := 0 }
  let s := (s.addWrap Fld.DA_UNDW x.undNew d).addSat Fld.DA_EVCNT_UNDRUN x.undRuns d
  s.flagIf (x.undRuns != 0) Fld.DA_IRQ_UNDERRUN d

/-! ## Playing (R248, R251, R256) -/

/-- The pattern sample at an address, as it stood 20 cycles ago. DESIGN CHOICE, log entry 28. -/
def Dac.patternAt (x : Dac) (a : Nat) : Nat :=
  match x.recent.find? fun w => w.2.1 == a && decide (x.edges ≤ w.1 + 20) with
  | some w => w.2.2
  | none => Tab.get (fun _ => 0) x.pattern a

/-- One sample of the running entry. -/
def State.daPlay (s : State) (d : Nat) : State :=
  let x := s.dac d
  let g := x.seg
  let step := fun (g : DacSeg) =>
    let p := g.pos + 1
    let g := { g with begun := true }
    match g.len with
    | none => { g with pos := p }
    | some n => if p < n then { g with pos := p } else if g.reps = 0 then { g with pos := p, ended := true }
      else { g with pos := 0, reps := g.reps - 1 }
  if g.stream then
    match x.fifo with
    | w :: rest =>
      if 0 ≤ x.debt then s.setDac d { x with seg := step g, fifo := rest, last := w, out := w, under := false }
      else s.setDac d (short x (step g))
    | [] => s.setDac d (short x (step g))
  else
    let w := x.patternAt ((g.start + g.pos) % 65536)
    s.setDac d { x with seg := step g, last := w, out := w, under := false }
where
  /-- A stream sample that no word stands for. -/
  short (x : Dac) (g : DacSeg) : Dac :=
    { x with seg := g, debt := x.debt + 1, under := true, undNew := x.undNew + 1,
             undRuns := if x.under then x.undRuns else x.undRuns + 1 }

/-- What an underrun puts out, after the count (R255). -/
def State.daShortOut (s : State) (d : Nat) : State :=
  let x := s.dac d
  if x.under then
    let v := if s.on Fld.DA_CTL_UNDHOLD d then x.last else s.f Fld.DA_IDLE_CODE d
    s.setDac d { x with out := v, last := v }
  else s

/-- DAd_LASTS takes the tick of edge `e` where an entry's first sample plays there (R252, R258; log 27).
DEDUCED, log entry 27. -/
def State.daBegin (s : State) (d e : Nat) : State :=
  if (s.dac d).seg.begun then s else s.setF Fld.DA_LASTS (s.edgeTick e s.lcs.time) d

/-- The DAC sample at sample-clock edge `e`. In IDLE the spec states no output: a free value. DEDUCED, log entry 27. -/
def State.daSample (s : State) (d e : Nat) : State :=
  let s := s.segEnd d
  let x := s.dac d
  let s := s.setDac d { x with held := false }
  let x := s.dac d
  let rest := if s.on Fld.DA_CTL_GAPHOLD d then x.last else s.f Fld.DA_IDLE_CODE d
  match x.st with
  | .play => if x.startEdge.any fun f => e < f then s.setDac d { x with out := rest } else ((s.daBegin d e).daPlay d).daShortOut d
  | .wait => s.setDac d { x with out := rest, under := false }
  | .idle =>
    let t := s.setDac d { x with out := s.fresh 0 % 65536 }
    { t with freeCount := s.freeCount + 1 }

/-- One SCLK edge `e` of the DAC's group: two samples, on the even sample-clock edges. DESIGN CHOICE, log entry 28. -/
def State.daEdge (s : State) (d e tick : Nat) : State :=
  let s := ((s.atTick tick).daUnderrun d).daTake d
  let x := s.dac d
  let s := s.setDac d { x with
    edges := x.edges + 1, queued := x.queued - 8, undo := none, recent := x.recent.filter fun w => decide (x.edges + 1 ≤ w.1 + 20) }
  let s : State :=
    if x.resume then
      s.setDac d { s.dac d with resume := false, st := .wait, seg := s.readSeg d (s.f Fld.DA_CTL_FIRST d) }
    else s
  (s.daSample d (4 * e)).daSample d (4 * e + 2)

/-! ## Events of R249 -/

/-- Playback is abandoned and DAd.OUT held at 0 V; WAIT on FIRST follows. -/
def State.daAbandon (s : State) (d : Nat) : State :=
  let was := (s.dac d).st != .idle || (s.dac d).resume
  let s := (s.daHalt d).daFlush d
  s.setDac d { s.dac d with out := 0, resume := was, held := true }

def State.abandonDacs (s : State) : State := (List.range s.part.numDA).foldl (fun s d => s.daAbandon d) s

/-- On return to Run an abandoned DAC is in WAIT on FIRST. -/
def State.resumeDacs (s : State) : State :=
  (List.range s.part.numDA).foldl (fun s d =>
    let x := s.dac d
    if x.resume then s.setDac d { x with resume := false, st := .wait, seg := s.readSeg d (s.f Fld.DA_CTL_FIRST d) }
    else s) s

/-! ## What power management asks (R249, R509) -/

/-- Samples from here to the next entry with WAIT = 1; none if no such entry comes. -/
def State.daAhead (s : State) (d : Nat) (seg : DacSeg) (fuel : Nat) : Option Nat :=
  match fuel, seg.len with
  | 0, _ => none
  | _, none => none
  | k + 1, some n =>
    let here := n - seg.pos + n * seg.reps
    if s.segWaits d seg.next then some here else (s.daAhead d (s.readSeg d seg.next) k).map (here + ·)

/-- The tick that a DAC in PLAY reports. -/
def State.daReport (s : State) (d e : Nat) : Option Nat :=
  let x := s.dac d
  (s.daAhead d x.seg 5).map fun n => s.edgeTick (max (4 * e) (x.startEdge.getD 0) + 2 * n) s.lcs.time

/-! ## Register writes -/

/-- EN set from 0 to 1, and cleared (R254, R255, R258). -/
def State.daEnable (s : State) (d : Nat) : State :=
  let f := s.feed (feedDA d)
  let s := s.setFeed (feedDA d) { f with inq := [] }
  let s := s.setDac d { s.dac d with fifo := [], debt := 0, under := false, undNew := 0, undRuns := 0 }
  (s.setF Fld.DA_UNDW 0 d).setF Fld.DA_SKIPW 0 d
def State.daDisable (s : State) (d : Nat) : State :=
  let s := (s.daHalt d).daUnderrun d
  s.setDac d { s.dac d with fifo := [], debt := 0, under := false }

/-- DAd_CTL written with `w` (R251, R259): EN, then STOP, then GO. -/
def State.writeDaCtl (s : State) (d : Nat) (w : Word) : State :=
  let was := s.on Fld.DA_CTL_EN d
  let s := s.setWord (Reg.DA_CTL.addr d 0) (w &&& 0x730)
  let s := match was, w.bit 8 with
    | false, true => s.daEnable d
    | true, false => s.daDisable d
    | _, _ => s
  let s := if w.bit 1 then s.daHalt d else s
  if w.bit 0 then s.daGo d else s

/-- DAd_SRC written (R19, R254). -/
def State.writeDaSrc (s : State) (d v : Nat) : State :=
  let v := storedSource .dac v
  if s.on Fld.DA_CTL_EN d then s.flagIf (v != s.f Fld.DA_SRC_SRC d) Fld.DA_STAT_WR_IGN d
  else (s.setF Fld.DA_SRC_SRC v d).connect (feedDA d) v

/-- DAd_LISTENs and DAd_SEGk_LEN written (R250, R252). -/
def State.writeDaListen (s : State) (d k : Nat) (w : Word) : State :=
  let w := w &&& 0x800001FF
  s.setWord (Reg.DA_LISTEN.addr d k) (if w.bit 8 ∧ w.bits 0 8 > 31 then w.setBits 31 1 0 else w)
def State.writeSegLen (s : State) (d k : Nat) (w : Word) : State :=
  let n := w.bits 0 17
  s.setF Fld.DA_SEG_LEN_LEN (min 65536 (n + n % 2)) d k

/-- PADDR advances (R256). -/
def State.paddrNext (s : State) (d : Nat) : State := s.setF Fld.DA_PADDR (s.f Fld.DA_PADDR d + 1) d

def State.pdataWrite (s : State) (d : Nat) (w : Word) : State :=
  let x := s.dac d
  let a := s.f Fld.DA_PADDR d
  let old := Tab.get (fun _ => 0) x.pattern a
  (s.setDac d { x with
    pattern := Tab.put (fun _ => 0) x.pattern a (w.bits 0 16), recent := x.recent ++ [(x.edges, a, old)] }).paddrNext d

def State.pdataRead (s : State) (d : Nat) : State :=
  let v := Tab.get (fun _ => 0) (s.dac d).pattern (s.f Fld.DA_PADDR d)
  { s.paddrNext d with readData := BitVec.ofNat 32 v }

/-- What a DAC obeys of a firing (R252). -/
def State.daObeys (s : State) (d : Nat) (r : FiringRec) : Nat :=
  if (List.range 2).any fun k =>
      s.on Fld.DA_LISTEN_EN d k && s.on Fld.DA_LISTEN_TMR d k == r.timer && s.f Fld.DA_LISTEN_NUM d k == r.num
  then r.act &&& 0x10 else 0

/-! ## Meanings -/

def execSegStart (d : Nat) (s : State) : Out :=
  ifPresent d s.part.numDA 24 s (.next <|
    let x := s.dac d
    match headBit 4 x.inbox with
    | some r => (s.setDac d { x with inbox := takeBit 4 x.inbox }).segFire d r
    | none => s)
def execDaGo (d : Nat) (s : State) : Out := hostRow (
  ifPresent d s.part.numDA 24 s (.next (s.daWrite d (Reg.DA_CTL.addr d 0) fun s => s.daGo d)))
def execDaStop (d : Nat) (s : State) : Out := hostRow (
  ifPresent d s.part.numDA 24 s (.next (s.daWrite d (Reg.DA_CTL.addr d 0) fun s => s.daHalt d)))
def execDaEnable (d : Nat) (en : Bool) (s : State) : Out := hostRow (
  ifPresent d s.part.numDA 24 s (.next <| s.daWrite d (Reg.DA_CTL.addr d 0) fun s =>
    s.writeDaCtl d ((s.word (Reg.DA_CTL.addr d 0) &&& 0x730).setBits 8 1 (if en then 1 else 0))))
def execSegmentEnd (d : Nat) (s : State) : Out := ifPresent d s.part.numDA 24 s (.next (s.segEnd d))
def execUnderrun (d : Nat) (s : State) : Out := ifPresent d s.part.numDA 24 s (.next (s.daUnderrun d))
def execPdata (d : Nat) (acc : RegAccess) (s : State) : Out :=
  match acc with
  | .read =>
    readPresent d s.part.numDA 24 s (.next (if s.sclk d then s.pdataRead d else { s with readData := 0xFFFF0BAD }))
  | .write w =>
    hostRow (ifPresent d s.part.numDA 24 s (.next (s.daWrite d (Reg.DA_PDATA.addr d 0) fun s => s.pdataWrite d w)))
end Sys2Proof.Machine
end

