-- ==== Sys2Proof/Machine/Alu.lean ====
section
/-! DEFINITION. What a word cell's instruction does (R292 to R298), and the sequence index (R299). -/

namespace Sys2Proof.Machine

/-- An instruction of the micro-store (R292). -/
structure CellIns where
  op : Nat
  srcA : Nat
  srcB : Nat
  dest : Nat
  uow : Bool
  ufl : Bool
  imm : Nat
  deriving DecidableEq, Repr

def CellIns.ofWord (w : Word) : CellIns :=
  { op := w.bits 18 6, srcA := w.bits 15 3, srcB := w.bits 12 3, dest := w.bits 10 2, uow := w.bit 9, ufl := w.bit 8,
    imm := w.bits 0 8 }

/-- What a cell reads from outside in one cycle: IA, IB, CHAIN, CC and the control inputs after R289 (bit n: ICn). -/
structure CellIn where
  ia : Nat
  ib : Nat
  chain : Nat
  cc : Bool
  ics : Nat
  deriving DecidableEq, Repr

def FabCell.reg (x : FabCell) (i : Nat) : Nat := (x.w[i]?).getD 0

/-- The IMM source: the byte sign-extended to 16 bits (R293). -/
def immWord (b : Nat) : Nat := ofSigned 16 (toSigned 8 b)

/-- An operand (R293). -/
def FabCell.operand (x : FabCell) (inp : CellIn) (i : CellIns) (src : Nat) : Nat :=
  match src with
  | 4 => inp.ia
  | 5 => inp.ib
  | 6 => inp.chain
  | 7 => immWord i.imm
  | k => x.reg k

/-! ## Flag and result of the opcodes (R295, R296) -/

/-- A result with its flags: the value, what Z and N follow, C, T and V where the opcode defines them. -/
structure AluRes where
  val : Nat
  nz : Nat
  c : Option Bool
  t : Option Bool
  v : Option Bool
  deriving DecidableEq, Repr

def AluRes.plain (v : Nat) : AluRes := { val := v % 65536, nz := v % 65536, c := none, t := none, v := none }

/-- sat(): the exact value clamped to 16 signed bits; V says whether it clamped. -/
def satRes (x : Int) : AluRes :=
  let y := satSigned 16 x
  { AluRes.plain (ofSigned 16 y) with v := some (y != x) }

/-- A + B + carry, with carry out and signed overflow. -/
def addRes (a b : Nat) (cin : Bool) : AluRes :=
  let u := a + b + cin.toNat
  let x := toSigned 16 a + toSigned 16 b + cin.toNat
  { AluRes.plain u with c := some (decide (65536 ≤ u)), v := some (satSigned 16 x != x) }

/-- A − B − (1 − carry): C is 1 where there is no borrow. -/
def subRes (a b : Nat) (cin : Bool) : AluRes :=
  let k := 1 - cin.toNat
  let x := toSigned 16 a - toSigned 16 b - k
  { AluRes.plain (a + 65536 + 65536 - b - k) with c := some (decide (b + k ≤ a)), v := some (satSigned 16 x != x) }

/-- Left, right and arithmetic right shift by `n`, with the last bit out. -/
def shlRes (a n : Nat) (c : Bool) : AluRes :=
  { AluRes.plain (a * 2 ^ n) with
    c := some (if n = 0 then Config.zeroShiftCarry a c else a.testBit (16 - n)) }
def shrRes (a n : Nat) (c : Bool) : AluRes :=
  { AluRes.plain (a / 2 ^ n) with c := some (if n = 0 then Config.zeroShiftCarry a c else a.testBit (n - 1)) }
def sarRes (a n : Nat) (c : Bool) : AluRes :=
  { AluRes.plain (ofSigned 16 (toSigned 16 a / 2 ^ n)) with
    c := some (if n = 0 then Config.zeroShiftCarry a c else a.testBit (n - 1)) }

/-- q(A, B): the Q15 product, halves rounded toward +∞. -/
def q15 (a b : Nat) : Int := (toSigned 16 a * toSigned 16 b + 16384) / 32768

/-- A clamped to an interval. -/
def clampRes (a : Nat) (lo hi : Int) : AluRes :=
  let x := toSigned 16 a
  { AluRes.plain (ofSigned 16 (clamp lo hi x)) with v := some (clamp lo hi x != x) }

/-- The result of a single-cycle opcode that writes a register; none for NOP, the compares, the multiplies and the reserved
opcodes. -/
def aluOp (x : FabCell) (inp : CellIn) (i : CellIns) (a b : Nat) : Option AluRes :=
  let sa := toSigned 16 a
  let sb := toSigned 16 b
  let s := i.imm % 16
  let ic := inp.ics.testBit (i.imm % 4)
  match i.op with
  | 0x01 => some (.plain a)
  | 0x02 => some (.plain i.imm)
  | 0x03 => some (.plain (i.imm * 256 + a % 256))
  | 0x04 => some (.plain (65535 - a))
  | 0x05 => some { AluRes.plain (65536 - a) with v := some (a == 32768) }
  | 0x06 => some (satRes sa.natAbs)
  | 0x07 => some (.plain (a % 256 * 256 + a / 256))
  | 0x08 => some (addRes a b false)
  | 0x09 => some (addRes a b x.c)
  | 0x0A => some (subRes a b true)
  | 0x0B => some (subRes a b x.c)
  | 0x0C => some (satRes (sa + sb))
  | 0x0D => some (satRes (sa - sb))
  | 0x0E => some (addRes a b inp.cc)
  | 0x0F => some (subRes a b inp.cc)
  | 0x10 => some (.plain (a &&& b))
  | 0x11 => some (.plain (a ||| b))
  | 0x12 => some (.plain (a ^^^ b))
  | 0x13 => some (.plain (a &&& (65535 - b)))
  | 0x14 => some (shlRes a s x.c)
  | 0x15 => some (shrRes a s x.c)
  | 0x16 => some (sarRes a s x.c)
  | 0x17 => some (.plain (a * 2 ^ s % 65536 + a / 2 ^ (16 - s)))
  | 0x18 => some (shlRes a (b % 16) x.c)
  | 0x19 => some (shrRes a (b % 16) x.c)
  | 0x1A => some (sarRes a (b % 16) x.c)
  | 0x1B => some (.plain ((a * 65536 + b) / 2 ^ s))
  | 0x20 => some { AluRes.plain (if sa < sb then a else b) with t := some (decide (sa < sb)) }
  | 0x21 => some { AluRes.plain (if sb < sa then a else b) with t := some (decide (sb < sa)) }
  | 0x22 => some (clampRes a (-2 ^ s) (2 ^ s - 1))
  | 0x23 => some (clampRes a 0 (2 ^ (s + 1) - 1))
  | 0x24 => some (.plain (if x.t then a else b))
  | 0x25 => some (.plain (if ic then b else a))
  | 0x26 => some (.plain (if ic then inp.chain else a))
  | _ => none

/-- The flags of a compare (CMP, CMPU, TEQ, TST); none for every other opcode. -/
def compareOp (i : CellIns) (a b : Nat) : Option AluRes :=
  let d := subRes a b true
  let diff := AluRes.plain d.val
  match i.op with
  | 0x1C => some { d with t := some (decide (toSigned 16 a < toSigned 16 b)) }
  | 0x1D => some { diff with c := d.c, t := some (decide (a < b)) }
  | 0x1E => some { diff with t := some (a == b) }
  | 0x1F => some { AluRes.plain (a &&& b) with t := some ((a &&& b) != 0) }
  | _ => none

def AluRes.flags (r : AluRes) : FlagUpd :=
  { c := r.c, t := r.t, v := r.v, n := r.nz.testBit 15, z := r.nz == 0 }

/-- A result on its way to DEST, OW and the flags. -/
def AluRes.land (r : AluRes) (i : CellIns) : CellRes :=
  { regs := [(i.dest, r.val)], ow := if i.uow then some r.val else none, flags := if i.ufl then some r.flags else none }

/-- The multiplies (R298); none for every other opcode. -/
def multiplyOp (x : FabCell) (inp : CellIn) (i : CellIns) (a b : Nat) : Option CellRes :=
  let wide := fun (p : Nat) =>
    let lo := p % 65536
    let hi := p / 65536
    let even := i.dest / 2 * 2
    ({ regs := [(even, lo), (even + 1, hi)], ow := if i.uow then some hi else none,
       flags := if i.ufl then some { c := none, t := none, v := none, n := p.testBit 31, z := p == 0 } else none } : CellRes)
  match i.op with
  | 0x28 => some (wide (ofSigned 32 (toSigned 16 a * toSigned 16 b)))
  | 0x29 => some (wide (a * b))
  | 0x2A => some ((satRes (q15 a b)).land i)
  | 0x2B => some ((satRes (toSigned 16 (x.reg i.dest) + q15 a b)).land i)
  | 0x2C => some ((satRes (toSigned 16 inp.chain + q15 a b)).land i)
  | _ => none

/-- What an instruction registers at the next edge, and what it registers one edge later (R294, R297, R298). -/
def execIns (x : FabCell) (inp : CellIn) (i : CellIns) : Option CellRes × Option CellRes :=
  let a := x.operand inp i i.srcA
  let b := x.operand inp i i.srcB
  match aluOp x inp i a b with
  | some r => (some (r.land i), none)
  | none =>
    match compareOp i a b with
    | some r => (some { regs := [], ow := none, flags := if i.ufl then some r.flags else none }, none)
    | none => (none, multiplyOp x inp i a b)

/-! ## Landing -/

def FlagUpd.apply (f : FlagUpd) (x : FabCell) : FabCell :=
  { x with c := f.c.getD x.c, t := f.t.getD x.t, v := f.v.getD x.v, n := f.n, z := f.z }

/-- A result lands; `won` is the result that lands at the same edge from a later instruction, which is kept where both meet
(R298). -/
def CellRes.apply (r : CellRes) (won : Option CellRes) (x : FabCell) : FabCell :=
  let taken := fun k => won.any fun o => o.regs.any fun e => e.1 == k
  let x := r.regs.foldl (fun x e => if taken e.1 then x else { x with w := x.w.set e.1 e.2 }) x
  let x := match r.ow with
    | some v => if won.any (·.ow.isSome) then x else { x with ow := v }
    | none => x
  match r.flags with
  | some f => if won.any (·.flags.isSome) then x else f.apply x
  | none => x

/-! ## A clock of a cell (R288 to R290, R299) -/

/-- A cell's configuration (R301). -/
structure CellCfg where
  store : List Word
  mode : Nat
  len : Nat
  evsel : Nat
  clksel : Nat
  pair : Bool
  icreg : Nat
  oc0 : Nat
  oc1 : Nat
  deriving DecidableEq, Repr

/-- The control inputs after R289: the wire, or its value in the previous cycle. -/
def CellCfg.inputs (g : CellCfg) (x : FabCell) (wires : Nat) : Nat :=
  (wires &&& (15 - g.icreg)) ||| (x.icr &&& g.icreg)

/-- The instruction a cell executes in this clock, and whether the index moves (R299). -/
def CellCfg.pick (g : CellCfg) (x : FabCell) (ics : Nat) : Option Nat × Bool :=
  match g.mode with
  | 1 => (some x.index, true)
  | 2 => if ics.testBit g.evsel ∧ x.ev = some false then (some x.index, true) else (none, false)
  | _ => (some (ics % 8), false)

/-- One clock of a cell; `wires` holds the control wires before R289, `inp` the inputs after it. -/
def FabCell.clock (x : FabCell) (g : CellCfg) (wires : Nat) (inp : CellIn) : FabCell :=
  let p := g.pick x inp.ics
  let r := match p.1 with
    | some k => execIns x inp (CellIns.ofWord ((g.store[k]?).getD 0))
    | none => (none, none)
  let y := x.mul.foldl (fun y m => m.apply r.1 y) x
  let y := match r.1 with | some n => n.apply none y | none => y
  let last := p.2 && decide (g.len ≤ x.index + 1)
  { y with index := if p.2 then (if last then 0 else x.index + 1) else x.index, wrap := last, icr := wires,
           ev := some (inp.ics.testBit g.evsel), mul := r.2.toList }

/-- Control output `o` of a cell with select `sel` (R290). -/
def FabCell.oc (x : FabCell) (sel : Nat) : Bool :=
  match sel with
  | 0 => false
  | 1 => x.c
  | 2 => x.z
  | 3 => x.n
  | 4 => x.v
  | 5 => x.t
  | 6 => x.ow.testBit 15
  | _ => x.wrap

end Sys2Proof.Machine
end

