-- ==== Sys2Proof/Machine/Pulse.lean ====
section
/-! DEFINITION. Pulse crossings (R494), and a cabinet's parts. -/

namespace Sys2Proof.Machine

def State.cab (s : State) (k : Nat) : Cabinet := Tab.get (fun _ => Cabinet.init) s.cabs k
def State.setCab (s : State) (k : Nat) (c : Cabinet) : State :=
  { s with cabs := Tab.put (fun _ => Cabinet.init) s.cabs k c }
def State.agent (s : State) (k a : Nat) : AgentPort := ((s.cab k).agents[a]?).getD AgentPort.init
def State.setAgent (s : State) (k a : Nat) (p : AgentPort) : State :=
  s.setCab k { s.cab k with agents := (s.cab k).agents.set a p }
def State.inPort (s : State) (k j : Nat) : InPort := ((s.cab k).ins[j]?).getD InPort.init
def State.setInPort (s : State) (k j : Nat) (p : InPort) : State :=
  s.setCab k { s.cab k with ins := (s.cab k).ins.set j p }
def State.outPort (s : State) (k j : Nat) : OutPort := ((s.cab k).outs[j]?).getD OutPort.init
def State.setOutPort (s : State) (k j : Nat) (p : OutPort) : State :=
  s.setCab k { s.cab k with outs := (s.cab k).outs.set j p }

/-- The destination edges a transfer takes: N_D + 2, the bound of R492 for a pulse count. DEDUCED, log entry 30. -/
def flight (nd : Nat) : Nat := nd + 2

/-- The counted pulses leave in the next transfer, once no other is in flight (R494). -/
def PulseX.launch (x : PulseX) (nd : Nat) : PulseX :=
  { x with ack := none, count := 0, fly := if x.count = 0 then none else some (x.count, flight nd) }

/-- A pulse arrives at the source half: it launches a transfer, or joins the count while one is in flight, from its launch to
its acknowledge; the second result says that it is lost (R494). -/
def PulseX.push (x : PulseX) (nd : Nat) : PulseX × Bool :=
  if x.fly.isNone && x.ack.isNone then ({ x with fly := some (1, flight nd) }, false)
  else if x.count < 15 then ({ x with count := x.count + 1 }, false) else (x, true)

/-- An edge at which the acknowledge comes closer; with it the next transfer launches (R492 step 3). -/
def PulseX.ackEdge (x : PulseX) (nd : Nat) : PulseX :=
  match x.ack with
  | none => x
  | some n => if n ≤ 1 then x.launch nd else { x with ack := some (n - 1) }

/-- The destination accepts the transfer, whose acknowledge takes `back` edges; the second result says that pulses are lost.
DEDUCED, log entry 30. -/
def PulseX.accept (x : PulseX) (nd back : Nat) : PulseX × Bool :=
  match x.fly with
  | none => (x, false)
  | some (n, _) =>
    let y := { x with got := min 15 (x.got + n), fly := none }
    (if back = 0 then y.launch nd else { y with ack := some back }, decide (15 < x.got + n))

/-- An edge of the destination clock: the transfer or its acknowledge comes closer, and one pulse is delivered where `live`
holds. -/
def PulseX.edge (x : PulseX) (nd back : Nat) (live : Bool) : PulseX × Bool :=
  let r := match x.fly with
    | some (n, left) => if left ≤ 1 then x.accept nd back else ({ x with fly := some (n, left - 1) }, false)
    | none => (x.ackEdge nd, false)
  ({ r.1 with got := r.1.got - 1, line := live && decide (0 < r.1.got) }, r.2)

/-- One pulse is delivered at once, where the crossing holds any; the second result says whether. -/
def PulseX.deliver (x : PulseX) (nd back : Nat) : PulseX × Bool :=
  let x := if x.got = 0 then ((if x.fly.isNone then x.launch nd else x).accept nd back).1 else x
  ({ x with got := x.got - 1 }, decide (0 < x.got))

/-- Whether the crossing holds pulses not yet delivered. -/
def PulseX.busy (x : PulseX) : Bool := x.fly.isSome || decide (0 < x.got) || decide (0 < x.count)

/-- A crossing lost a pulse: its bit of XOVF. -/
def State.xovf (s : State) (bit : Nat) (lost : Bool) : State := if lost then s.setBit Fld.DEV_XSTAT_XOVF bit else s
/-- A one-sided reset lost something: its bit of XRST (R498). -/
def State.xrst (s : State) (bit : Nat) (lost : Bool) : State := if lost then s.setBit Fld.DEV_XSTAT_XRST bit else s

/-- The flops of a crossing into or out of global clock `i` (R490): three at 400 MHz or more. The frequency of a clock from
a pin is free. DEDUCED, log entry 30. -/
def State.gclkFlops (s : State) (i : Nat) : Nat :=
  let div := max 1 (s.f Fld.FAB_GCLK_DIV i)
  match s.f Fld.FAB_GCLK_SRC i with
  | 0 => if 400 * div ≤ 4000 then 3 else 2
  | 1 => if 400 * div ≤ 100 * s.f Fld.FAB_FPLL_M then 3 else 2
  | _ => if 400 ≤ Config.pinClockMhz i then 3 else 2

/-- The edges of global clock `i` in `ns` nanoseconds, whole ones only: what an acknowledge on its way back takes (R492). -/
def State.gclkEdges (s : State) (i ns : Nat) : Nat :=
  match s.f Fld.FAB_GCLK_SRC i with
  | 0 => ns * 4 / max 1 (s.f Fld.FAB_GCLK_DIV i)
  | 1 => ns * s.f Fld.FAB_FPLL_M / (10 * max 1 (s.f Fld.FAB_GCLK_DIV i))
  | _ => ns * Config.pinClockMhz i / 1000

/-- The edges of a cabinet's clock that an acknowledge takes on its way to LCLK, (3 + 1) × 1 ns (crossing 3), and to HCLK,
(3 + 1) × 2 ns (crossing 6). DEDUCED, log entry 30. -/
def State.lineBack (s : State) (i : Nat) : Nat := s.gclkEdges i 4
def State.agentBack (s : State) (i : Nat) : Nat := s.gclkEdges i 8
/-- The edges that an acknowledge from SCLK takes in global clock `i` (crossing 4): N_S + 1. -/
def State.frqBack (s : State) (i : Nat) : Nat := s.gclkFlops i + 1

end Sys2Proof.Machine
end

