-- ==== Sys2Proof/Machine/Pigeon.lean ====
section
/-! DEFINITION. Pigeonhole: channels, posts, takes, doorbells, resets of agents (chapter 17 of spec/). -/

namespace Sys2Proof.Machine

/-! ## Notifications -/

/-- A pulse crosses to an agent port (bit 6 of R499). -/
def State.pulsePort (s : State) (k a : Nat) (isFault : Bool) : State :=
  let nd := s.gclkFlops (s.f Fld.DIO_BND_CTL_AGCLK k)
  let p := s.agent k a
  let r := (if isFault then p.fault else p.empty).push nd
  (s.setAgent k a (if isFault then { p with fault := r.1 } else { p with empty := r.1 })).xovf 6 r.2

/-- A take of a FULL word notifies the sender (R436); under HERITAGE nothing does (R51). -/
def State.notifyEmpty (s : State) (c : Nat) : State :=
  let x := s.chan c
  if x.mute then s.setChan c { x with mute := false }
  else if s.on Fld.DEV_COMPAT_HERITAGE then s
  else match Agent.ofCode x.snd with
    | some (.host _ _) => s.setChan c { x with emptyEv := true }
    | some (.port k a) => s.pulsePort k a false
    | _ => s

/-- The sender is told of a fault of the channel: ABORTED (R439) or TIMEOUT (R440). -/
def State.notifyFault (s : State) (c : Nat) (aborted : Bool) : State :=
  let x := s.chan c
  match Agent.ofCode x.snd with
  | some (.host _ _) => s.setChan c (if aborted then { x with aborted := true } else { x with timeout := true })
  | some (.port k a) => s.pulsePort k a true
  | _ => s

/-! ## Posting and taking (R432, R434) -/

def Chan.post (x : Chan) (w : Word) : Chan :=
  if x.full then { x with rej := min 255 (x.rej + 1), last := 2 }
  else { x with word := w, full := true, posts := (x.posts + 1) % 65536, last := 1, arrive := true, waited := false, mute := false }

def State.postOn (s : State) (c : Nat) (w : Word) : State := s.setChan c ((s.chan c).post w)

/-- The take of a channel: a FULL word leaves, and its sender learns of it. -/
def State.takeFrom (s : State) (c : Nat) : State :=
  let x := s.chan c
  if x.full then
    (s.lowerChan c { x with full := false, takes := (x.takes + 1) % 65536, srst := false }).notifyEmpty c
  else s

def State.setDoorbell (s : State) (c : Nat) (w : Word) : State := s.setChan c { s.chan c with db := (s.chan c).db ||| w }
def State.clearDoorbell (s : State) (c : Nat) (w : Word) : State :=
  s.lowerChan c { s.chan c with db := (s.chan c).db &&& ~~~w }

/-! ## Allocation (R426 to R429) -/

/-- PGH_ALLOC follows the channels. -/
def State.countChans (s : State) : State :=
  let n := s.chans.countP fun e => e.2.alloc && decide (e.1 < 1024)
  let m := s.chans.countP fun e => e.2.alloc && decide (1024 ≤ e.1)
  (s.setF Fld.PGH_ALLOC_NONSEC n).setF Fld.PGH_ALLOC_SEC m

/-- A channel is freed: its word stays, the rest goes. -/
def State.freeChan (s : State) (c : Nat) : State := (s.lowerChan c { Chan.init with word := (s.chan c).word }).countChans

/-- A channel is allocated: its word stays, the rest takes its reset value. -/
def State.allocChan (s : State) (c snd rcv : Nat) : State :=
  (s.setChan c { Chan.init with alloc := true, snd := snd, rcv := rcv, word := (s.chan c).word }).countChans

/-- Every secure channel that ends at a port of CBk is freed: the cabinet is no longer marked secure (R429). -/
def State.freeSecure (s : State) (k : Nat) : State :=
  let at_ : Nat → Bool := fun c => match Agent.ofCode c with | some (.port j _) => j == k | _ => false
  s.chans.foldl (fun s e => if decide (1024 ≤ e.1) && e.2.alloc && (at_ e.2.snd || at_ e.2.rcv) then s.freeChan e.1 else s) s

/-! ## Resets of agents (R425, R439 to R441) -/

/-- A receiver reset of channel `c`: on the KN-9640T it changes nothing. -/
def State.receiverReset (s : State) (c : Nat) : State :=
  if s.part.isTwin then s
  else
    (s.lowerChan c { s.chan c with
      word := 0, full := false, db := 0, arrive := false, srst := false, mute := false }).notifyFault c true

/-- A sender reset of channel `c`. -/
def State.senderReset (s : State) (c : Nat) : State :=
  let x := s.chan c
  s.setChan c { x with srst := true, mute := x.full }

/-- Every agent that `p` picks is reset; the receiver rule runs first (R442). -/
def State.resetAgents (s : State) (p : Agent → Bool) : State :=
  s.chans.foldl (fun s e =>
    let is := fun (code : Nat) => match Agent.ofCode code with | some a => p a | none => false
    if e.2.alloc then
      let s := if is e.2.rcv then s.receiverReset e.1 else s
      if is e.2.snd then s.senderReset e.1 else s
    else s) s

def State.resetHosts (s : State) : State := s.resetAgents fun a => match a with | .host _ _ => true | _ => false
def State.resetBureauAgent (s : State) : State := s.resetAgents fun a => a == .bureau
def State.resetTwinAgent (s : State) : State := s.resetAgents fun a => a == .twin

/-- The fabric side of the crossings of CBk is reset: its agent ports, its event lines and its request lines (R498, bits 3
to 6 of R499). -/
def State.clearCrossings (s : State) (k : Nat) : State :=
  let lost := fun (p : AgentPort) => p.post.isSome || p.take.isSome || p.dbclr.isSome || p.ack || p.rej
  let note := fun (p : AgentPort) => p.empty.busy || p.fault.busy
  let ps := [s.agent k 0, s.agent k 1]
  let evs := s.lines.any fun e => e.1 / 64 == k && e.2.busy
  let rqs := s.frqs.any fun e => e.1 / 2 == k && e.2.busy
  let s := (s.setAgent k 0 AgentPort.init).setAgent k 1 AgentPort.init
  let s := { s with lines := s.lines.filter fun e => e.1 / 64 != k, frqs := s.frqs.filter fun e => e.1 / 2 != k }
  (((s.xrst 3 evs).xrst 4 rqs).xrst 5 (ps.any lost)).xrst 6 (ps.any note)

/-- The agent ports of the cabinets that `p` picks are reset as agents (R425). -/
def State.resetPortAgents (s : State) (p : Nat → Bool) : State :=
  s.resetAgents fun a => match a with | .port j _ => p j | _ => false

/-- The agent ports of CBk are reset, and the fabric side of its crossings with them (R425, R498). -/
def State.resetPorts (s : State) (k : Nat) : State := (s.clearCrossings k).resetPortAgents (· == k)

/-! ## Host access to a page (R430, R431) -/

/-- A refused access to a page. -/
def State.badPage (s : State) (func c : Nat) : State :=
  ((s.flag Fld.PGH_STAT_BADACC).setF Fld.PGH_BADCHAN_FUNC func).setF Fld.PGH_BADCHAN_CHAN c

/-- Whether function `func` holds the sender end, and the receiver end. -/
def State.holdsSnd (s : State) (func c : Nat) : Bool := (s.chan c).alloc && ofFunction func (s.chan c).snd
def State.holdsRcv (s : State) (func c : Nat) : Bool := (s.chan c).alloc && ofFunction func (s.chan c).rcv

/-- SND_STAT, RCV_STAT and SND_CTL as they read. -/
def Chan.sndStat (x : Chan) : Word :=
  let w := ((((0 : Word).setBits 16 16 x.posts).setBits 8 8 x.rej).setBits 6 1 x.timeout.toNat).setBits 5 1 x.aborted.toNat
  ((w.setBits 4 1 x.emptyEv.toNat).setBits 2 2 x.last).setBits 0 1 x.full.toNat
def Chan.rcvStat (x : Chan) : Word :=
  let w := (((0 : Word).setBits 16 16 x.takes).setBits 3 1 x.srst.toNat).setBits 2 1 (x.db != 0).toNat
  (w.setBits 1 1 x.arrive.toNat).setBits 0 1 x.full.toNat
def State.sndCtl (s : State) (c : Nat) : Word :=
  let w := (s.chan c).sndCtl
  if s.part.isTwin then w else w.setBits 0 22 0

/-- SND_CTL written with `w` (R440). -/
def State.writeSndCtl (s : State) (c : Nat) (w : Word) : State :=
  let x := s.chan c
  let t := max 1 (min 4000000 (w.bits 0 22))
  let v : Word := (w &&& 0xC0000000) ||| (if s.part.isTwin then BitVec.ofNat 32 t else x.sndCtl &&& 0x3FFFFF)
  s.setChan c { x with sndCtl := v }

/-- A page register as function `func` reads it; none where the access is refused. -/
def State.pageRead (s : State) (func c ofs : Nat) : Option Word :=
  let x := s.chan c
  let snd := s.holdsSnd func c
  let rcv := s.holdsRcv func c
  let one := fun (b : Bool) (w : Word) => if b then some w else none
  match ofs with
  | 0x000 => one snd 0
  | 0x004 => one rcv x.word
  | 0x008 => one rcv x.word
  | 0x00C => one snd x.sndStat
  | 0x010 => one rcv x.rcvStat
  | 0x014 => one snd x.db
  | 0x018 => one rcv x.db
  | 0x01C => one (snd || rcv) x.db
  | 0x020 => one snd (s.sndCtl c)
  | 0x024 => one rcv x.rcvCtl
  | 0x028 => one (snd || rcv) (BitVec.ofNat 32 (2 ^ 31 + c))
  | 0x02C => one (snd || rcv) (BitVec.ofNat 32 x.snd)
  | 0x030 => one (snd || rcv) (BitVec.ofNat 32 x.rcv)
  | _ => none

/-- A page register written by function `func`. -/
def State.pageWrite (s : State) (func c ofs : Nat) (w : Word) : State :=
  let x := s.chan c
  let as := fun (b : Bool) (t : State) => if b then t else s.badPage func c
  let snd := s.holdsSnd func c
  let rcv := s.holdsRcv func c
  match ofs with
  | 0x000 => as snd (s.postOn c w)
  | 0x00C => as snd (s.setChan c { x with timeout := x.timeout && !w.bit 6, aborted := x.aborted && !w.bit 5,
                                          emptyEv := x.emptyEv && !w.bit 4 })
  | 0x010 => as rcv (s.setChan c { x with srst := x.srst && !w.bit 3, arrive := x.arrive && !w.bit 1 })
  | 0x014 => as snd (s.setDoorbell c w)
  | 0x018 => as rcv (s.clearDoorbell c w)
  | 0x020 => as snd (s.writeSndCtl c w)
  | 0x024 => as rcv (s.setChan c { x with rcvCtl := w &&& 0xE0000000 })
  | 0x004 => as rcv s
  | 0x008 => as rcv s
  | _ => s.badPage func c

/-! ## Meanings -/

/-- What a read of MSG_TAKE does (R430, R434). -/
def State.msgTake (s : State) (func c : Nat) : State :=
  match s.pageRead func c 0x004 with
  | some w => { s.takeFrom c with readData := w }
  | none => { s.badPage func c with readData := 0 }

/-- FULL has stayed 1 for TMO µs (R440): TIMEOUT once for the post. -/
def execChannelTimeout (c : Nat) (s : State) : Out :=
  onInst c 1088 (.next (
    if s.part.isTwin ∧ (s.chan c).alloc ∧ (s.chan c).full ∧ ¬ (s.chan c).waited then
      (s.setChan c { s.chan c with waited := true }).notifyFault c false
    else s))

end Sys2Proof.Machine
end

