-- ==== Sys2Proof/Machine/Fabric.lean ====
section
/-! DEFINITION. The word-cell fabric: configuration, wires, clocks (chapter 12), and the boundary codes (R314, R315). -/

namespace Sys2Proof.Machine

/-! ## Frames (R341, R344, R345) -/

/-- The address of cell frame `i` and of routing frame `i` of CBk. -/
def cellFrame (k i : Nat) : Nat := k * 2 ^ 17 + i
def routeFrame (k i : Nat) : Nat := 2 ^ 22 + k * 2 ^ 17 + i

/-- Word `w` of a type 0 or type 1 frame. -/
def State.frameWord (s : State) (fa w : Nat) : Word := Tab.get (fun _ => 0) s.frames (32 * fa + w)
def State.setFrameWord (s : State) (fa w : Nat) (v : Word) : State :=
  { s with frames := Tab.put (fun _ => 0) s.frames (32 * fa + w) v }

/-- The low and the high select of a routing word. -/
def State.selLo (s : State) (k i w : Nat) : Nat := (s.frameWord (routeFrame k i) w).bits 0 12
def State.selHi (s : State) (k i w : Nat) : Nat := (s.frameWord (routeFrame k i) w).bits 16 12

/-- The configuration of cell `i` of CBk (R301, R344). -/
def State.cellCfg (s : State) (k i : Nat) : CellCfg :=
  let fa := cellFrame k i
  let w := s.frameWord fa 8
  { store := (List.range 8).map fun j => s.frameWord fa j, mode := w.bits 0 2, len := w.bits 2 3 + 1, evsel := w.bits 5 2,
    clksel := w.bits 7 3, pair := w.bit 10, icreg := w.bits 11 4, oc0 := w.bits 15 3, oc1 := w.bits 18 3 }

/-- The start-up values of cell `i` of CBk (R300, R344). -/
def State.cellStart (s : State) (k i : Nat) (x : FabCell) : FabCell :=
  let fa := cellFrame k i
  let a := s.frameWord fa 9
  let b := s.frameWord fa 10
  let c := s.frameWord fa 11
  { x with w := [a.bits 0 16, a.bits 16 16, b.bits 0 16, b.bits 16 16], ow := c.bits 0 16, c := c.bit 20, t := c.bit 19,
           v := c.bit 18, n := c.bit 17, z := c.bit 16, index := 0, wrap := false, ev := none, mul := [] }

def State.fcell (s : State) (k i : Nat) : FabCell := Tab.get (fun _ => FabCell.init) s.fcells (256 * k + i)
def State.setFcell (s : State) (k i : Nat) (x : FabCell) : State :=
  { s with fcells := Tab.put (fun _ => FabCell.init) s.fcells (256 * k + i) x }

/-- The cells of CBk that hold anything: a frame word or a state other than the initial one. -/
def State.liveCells (s : State) (k : Nat) : List Nat :=
  (List.range 256).filter fun i =>
    s.frames.any (fun e => e.1 / 32 == cellFrame k i) || s.fcells.any fun e => e.1 == 256 * k + i

/-! ## Cabinet state -/

/-- SCRB_CBk_STATE.STATE (R372). -/
def State.cbState (s : State) (k : Nat) : Nat := s.f Fld.SCRB_CB_STATE_STATE k
def State.isolated (s : State) (k : Nat) : Bool := decide (2 ≤ s.cbState k)
def State.isSecure (s : State) (k : Nat) : Bool := s.on Fld.SCRB_CB_STATE_SECURE k

/-- The cabinet clock enable (R309). -/
def State.cbRuns (s : State) (k : Nat) : Bool :=
  s.on Fld.FAB_CTL_CLKEN k && (s.mode == .run || s.mode == .partialRun || (s.mode == .wakeUp && (s.cab k).released)) &&
    s.cbState k == 1

/-- Whether global clock `i` runs (R307). -/
def State.gclkRuns (s : State) (i : Nat) : Bool :=
  s.on Fld.FAB_GCLK_EN i && (s.f Fld.FAB_GCLK_SRC i != 1 || s.on Fld.FAB_FPLL_LOCK) &&
    (s.f Fld.FAB_GCLK_SRC i != 2 || s.dio.vok.testBit i)

/-! ## Pins (R325 to R329) -/

/-- VOK of the bank of pin `n`. -/
def State.vok (s : State) (n : Nat) : Bool := s.dio.vok.testBit (n / 32)

/-- Whether inputs are live for Longcase and DIO_INw: everywhere but in Reset (R329). -/
def State.pinLevel (s : State) (n : Nat) : Bool := s.mode != .reset && s.vok n && s.dio.levels.testBit n

/-- The level a fabric slot carries (R327, R329). -/
def State.slotLevel (s : State) (k m : Nat) : Bool :=
  let n := (s.word (Reg.DIO_BND_SLOT.addr k (m / 4))).bits (8 * (m % 4)) 8
  match s.mode with
  | .run | .partialRun | .doze | .nap | .bench => s.pinLevel n
  | .wakeUp => (s.cab k).released && s.pinLevel n
  | _ => false

/-! ## Fabric port inputs as the fabric sees them (R316, R317) -/

def State.fpSrc (s : State) (k j : Nat) : Nat := s.f Fld.DIO_FPI_SRC_SRC k j

/-- The words of a group of the present source, and whether they are 32 bits wide: G, where 4 is taken as 2 from a class 0x2
source. -/
def State.fpForm (s : State) (k j : Nat) : Nat × Bool :=
  let g := match s.f Fld.DIO_FPI_CFG_G k j with | 1 => 2 | 2 => 4 | _ => 1
  let wide := s.fpSrc k j / 4096 == 2
  (if wide then min 2 g else g, wide)

/-- The form of the group at the head of the FIFO: that of the source it came from. DEDUCED, log entry 31. -/
def State.fpHead (s : State) (k j : Nat) : Nat × Bool :=
  match (s.inPort k j).olds with
  | e :: _ => e.2
  | [] => s.fpForm k j
def State.fpG (s : State) (k j : Nat) : Nat := (s.fpHead k j).1
def State.fpWide (s : State) (k j : Nat) : Bool := (s.fpHead k j).2

/-- The group at the head of the FIFO; none while no whole group is there. -/
def State.group? (s : State) (k j : Nat) : Option (List StreamWord) :=
  let l := (s.inPort k j).fifo
  let g := s.fpG k j
  if g ≤ l.length then some (l.take g) else none

/-- Position Dm of the presented group. -/
def State.fpWord (s : State) (k j m : Nat) : Nat :=
  match s.group? k j with
  | none => 0
  | some l =>
    if s.fpWide k j then
      match l[m / 2]? with
      | some w => if m % 2 = 0 then w.val % 65536 else w.val / 65536 % 65536
      | none => 0
    else match l[m]? with
      | some w => w.val % 65536
      | none => 0

/-- Side band line `b` of the presented group (R314). -/
def State.fpLine (s : State) (k j b : Nat) : Bool :=
  match s.group? k j with
  | none => false
  | some l =>
    let at_ := fun (m : Nat) (p : StreamWord → Bool) =>
      if s.fpWide k j then (if m % 2 = 0 then (l[m / 2]?).any p else false) else (l[m]?).any p
    match b with
    | 0 => true
    | 1 => at_ 0 (·.mark) | 2 => at_ 1 (·.mark) | 3 => at_ 2 (·.mark) | 4 => at_ 3 (·.mark)
    | 5 => at_ 0 (·.ovr) | 6 => at_ 1 (·.ovr) | 7 => at_ 2 (·.ovr) | 8 => at_ 3 (·.ovr)
    | 9 => l.any (·.settling)
    | 10 => l.any (·.handover)
    | 11 => l.any (·.refUnset)
    | 12 => l.any (·.failover)
    | 13 => (s.inPort k j).gapNow
    | _ => false

/-! ## Agent ports as the fabric sees them (R324) -/

/-- RXCHAN: the lowest-numbered channel received by the port that is FULL or has a doorbell; secure channels come after the
non-secure ones. -/
def State.rxChan (s : State) (k a : Nat) : Option Nat :=
  let code := (Agent.port k a).code
  (s.chans.find? fun e => e.2.alloc && e.2.rcv == code && (e.2.full || e.2.db != 0)).map (·.1)

/-- A channel number as RXCHAN and TXCHAN carry it: [15] secure, [9:0] number. -/
def chanField (c : Nat) : Nat := if 1024 ≤ c then 32768 + (c - 1024) else c
def chanOfField (v : Nat) : Nat := if v / 32768 % 2 = 1 then 1024 + v % 1024 else v % 1024

/-- Word input m of agent port a: RXLO, RXHI, RXCHAN. -/
def State.agentWord (s : State) (k a m : Nat) : Nat :=
  match s.rxChan k a with
  | none => 0
  | some c =>
    match m with
    | 0 => (s.chan c).word.bits 0 16
    | 1 => (s.chan c).word.bits 16 16
    | 2 => chanField c
    | _ => 0

/-- Control line b of agent port a. -/
def State.agentLine (s : State) (k a b : Nat) : Bool :=
  let p := s.agent k a
  let x := (s.rxChan k a).map s.chan
  match b with
  | 0 => x.any (·.full)
  | 1 => p.busy
  | 2 => p.ack
  | 3 => p.rej
  | 4 => x.any fun c => c.db != 0
  | 5 => p.empty.line
  | 6 => p.fault.line
  | _ => x.any (·.srst)

/-! ## Wires (R302 to R304, R314) -/

def State.lineX (s : State) (k e : Nat) : PulseX := Tab.get (fun _ => PulseX.init) s.lines (64 * k + e)
def State.setLineX (s : State) (k e : Nat) (x : PulseX) : State :=
  { s with lines := Tab.put (fun _ => PulseX.init) s.lines (64 * k + e) x }

/-- OW of a cell, and its control outputs. -/
def State.owOf (s : State) (k i : Nat) : Nat := (s.fcell k i).ow
def State.ocOf (s : State) (k i o : Nat) : Bool :=
  let g := s.cellCfg k i
  (s.fcell k i).oc (if o = 0 then g.oc0 else g.oc1)

/-- Word trunk TWk.j, and control trunk TCk.j; those of a cabinet that the part does not have read 0. -/
def State.wordTrunk (s : State) (k j : Nat) : Nat :=
  if s.part.numCB ≤ k then 0
  else match (s.cab k).iso with
    | some v => (v.words[j]?).getD 0
    | none =>
      let c := s.selLo k 256 j
      if c < 256 then s.owOf k c else 0
def State.ctrlTrunk (s : State) (k j : Nat) : Bool :=
  if s.part.numCB ≤ k then false
  else match (s.cab k).iso with
    | some v => v.ctrl.testBit j
    | none =>
      let c := if j % 2 = 0 then s.selLo k 257 (j / 2) else s.selHi k 257 (j / 2)
      if c < 512 then s.ocOf k (c / 2) (c % 2) else false

/-- READY of FPk.j output (R321). -/
def State.fpReady (s : State) (k j : Nat) : Bool := decide ((s.outPort k j).fifo.length < 248)

/-- The word that code `c` names in CBk. -/
def State.wordAt (s : State) (k c : Nat) : Nat :=
  if c < 0x100 then s.owOf k c
  else if c < 0x400 then s.wordTrunk ((c - 0x100) / 32) ((c - 0x100) % 32)
  else if c < 0x410 then s.fpWord k ((c - 0x400) / 4) (c % 4)
  else if c < 0x418 then s.agentWord k ((c - 0x410) / 4) (c % 4)
  else 0

/-- The control level that code `c` names in CBk. -/
def State.ctrlAt (s : State) (k c : Nat) : Bool :=
  if c < 0x200 then s.ocOf k (c / 2) (c % 2)
  else if c < 0x800 then s.ctrlTrunk ((c - 0x200) / 64) ((c - 0x200) % 64)
  else if c < 0x840 then s.fpLine k ((c - 0x800) / 16) (c % 16)
  else if c < 0x844 then s.fpReady k (c - 0x840)
  else if 0x848 ≤ c ∧ c < 0x858 then s.agentLine k ((c - 0x848) / 8) (c % 8)
  else if 0x880 ≤ c ∧ c < 0x8C0 then (s.lineX k (c - 0x880)).line
  else if 0x8C0 ≤ c ∧ c < 0x8E0 then s.slotLevel k (c - 0x8C0)
  else c == 0xFFF

/-! ## Path timing (R306, R308) -/

/-- The cell that drives a word trunk code, or a control trunk code, as cabinet and cell: a trunk that is isolated, constant or
not present has none, and a path within one cabinet is never too slow. -/
def State.wordLaunch (s : State) (c : Nat) : Option (Nat × Nat) :=
  let m := (c - 0x100) / 32
  if c < 0x100 ∨ 0x400 ≤ c ∨ s.part.numCB ≤ m ∨ (s.cab m).iso.isSome then none
  else
    let x := s.selLo m 256 ((c - 0x100) % 32)
    if x < 256 then some (m, x) else none
def State.ctrlLaunch (s : State) (c : Nat) : Option (Nat × Nat) :=
  let m := (c - 0x200) / 64
  let j := (c - 0x200) % 64
  if c < 0x200 ∨ 0x800 ≤ c ∨ s.part.numCB ≤ m ∨ (s.cab m).iso.isSome then none
  else
    let x := if j % 2 = 0 then s.selLo m 257 (j / 2) else s.selHi m 257 (j / 2)
    if x < 512 then some (m, x / 2) else none

/-- The cabinet distance of R306. -/
def cabDistance (a b : Nat) : Nat :=
  (a % 6 - b % 6) + (b % 6 - a % 6) + ((a / 6 - b / 6) + (b / 6 - a / 6))

/-- Whether a trunk path over distance `d` takes longer than a period of `mhz` / `dv` MHz: 1.55 ns + 0.25 ns × d (R306). -/
def trunkTooSlow (d mhz dv : Nat) : Bool := decide (100000 * dv < (155 + 25 * d) * mhz)

/-- Whether a trunk path over distance `d` between cells on global clocks `a` and `b` is too slow for them. Clocks of one source
whose dividers divide one another time it at the faster one; no other pair is timed (R307, R308).
DESIGN CHOICE, log entry 29. -/
def State.pathTooSlow (s : State) (d a b : Nat) : Bool :=
  let src := s.f Fld.FAB_GCLK_SRC a
  let da := s.f Fld.FAB_GCLK_DIV a
  let db := s.f Fld.FAB_GCLK_DIV b
  if src ≠ s.f Fld.FAB_GCLK_SRC b then false
  else if src = 2 then decide (a = b ∧ d ≠ 0) && Config.pinClockTooFast a d
  else if da % db = 0 ∨ db % da = 0 then
    trunkTooSlow d (if src = 0 then 4000 else 100 * s.f Fld.FAB_FPLL_M) (min da db)
  else false

/-- Whether the path from `src` to cell `i` of CBk is too slow. -/
def State.late (s : State) (k i : Nat) (src : Option (Nat × Nat)) : Bool :=
  match src with
  | none => false
  | some (m, x) => s.pathTooSlow (cabDistance m k) (s.cellCfg m x).clksel (s.cellCfg k i).clksel

/-- Word input `n` (0 IA, 1 IB) and control input `n` of cell `i` of CBk at code `c`; what a path that is too slow brings is
undefined (R306). -/
def State.wordIn (s : State) (k i n c : Nat) : Nat :=
  if s.late k i (s.wordLaunch c) then Config.lateValue s.freeCount (256 * k + i) n % 65536 else s.wordAt k c
def State.ctrlIn (s : State) (k i n c : Nat) : Bool :=
  if s.late k i (s.ctrlLaunch c) then (Config.lateValue s.freeCount (256 * k + i) (n + 2)).testBit 0 else s.ctrlAt k c

/-- The control wires of cell `i` of CBk (bit n: ICn before R289). -/
def State.cellWires (s : State) (k i : Nat) : Nat :=
  let b := fun (n c : Nat) => if s.ctrlIn k i n c then 2 ^ n else 0
  b 0 (s.selLo k i 2) + b 1 (s.selHi k i 2) + b 2 (s.selLo k i 3) + b 3 (s.selHi k i 3)

/-- One clock of cell `i` of CBk, seen from the state before the edge. -/
def State.cellClocked (s : State) (k i : Nat) : FabCell :=
  let g := s.cellCfg k i
  let x := s.fcell k i
  let wires := s.cellWires k i
  let ics := g.inputs x wires
  let alt := g.pair && ics.testBit 3
  let pick := fun w => s.wordIn k i w (if alt then s.selHi k i w else s.selLo k i w)
  let left := i % 16 != 0
  x.clock g wires
    { ia := pick 0, ib := pick 1, chain := if left then s.owOf k (i - 1) else 0, cc := left && (s.fcell k (i - 1)).c,
      ics := ics }

/-- The boundary control select, and word select, in word `w` of routing frame 258. -/
def State.bndCtrl (s : State) (k w : Nat) (hi : Bool) : Bool :=
  s.ctrlAt k (if hi then s.selHi k 258 w else s.selLo k 258 w)
def State.bndWord (s : State) (k w : Nat) (hi : Bool) : Nat :=
  s.wordAt k (if hi then s.selHi k 258 w else s.selLo k 258 w)

/-- The level of request line FRQ(2k + i) (R323, R375). -/
def State.frqLevel (s : State) (k i : Nat) : Bool :=
  if s.part.numCB ≤ k then false
  else match (s.cab k).iso with
    | some v => v.frq.testBit i
    | none => s.mode != .reset && s.cbState k == 1 && s.bndCtrl k 24 (i == 1)

/-! ## Isolation (R375, R376) -/

/-- The levels an isolation starts with. -/
def State.isoLevels (s : State) (k : Nat) : IsoLevels :=
  let b := fun (n : Nat) (p : Nat → Bool) => (List.range n).foldl (fun v j => if p j then v + 2 ^ j else v) 0
  if s.on Fld.SCRB_CB_ISO_HOLD k then
    { words := (List.range 32).map fun j => s.wordTrunk k j, ctrl := b 64 fun j => s.ctrlTrunk k j,
      frq := b 2 fun i => s.frqLevel k i }
  else
    { words := [], ctrl := s.f Fld.SCRB_CB_SAFE0 k + 2 ^ 32 * s.f Fld.SCRB_CB_SAFE1 k,
      frq := s.f Fld.SCRB_CB_ISO_FRQ0_SAFE k + 2 * s.f Fld.SCRB_CB_ISO_FRQ1_SAFE k }

/-- CBk is isolated; a cabinet that is isolated already stays as it is. -/
def State.isolate (s : State) (k : Nat) : State :=
  match (s.cab k).iso with
  | some _ => s
  | none => s.setCab k { s.cab k with iso := some (s.isoLevels k) }

def State.endIsolation (s : State) (k : Nat) : State := s.setCab k { s.cab k with iso := none }

/-- SCRB_CBk_STATE.STATE becomes `v`. -/
def State.setCbState (s : State) (k v : Nat) : State := s.setF Fld.SCRB_CB_STATE_STATE v k

/-! ## Start-up of a cabinet (R300, R333) -/

/-- The boundary FIFOs of CBk flush; the words are counted (R333, bit 10 of R499), and the word counts of its outputs start
again from 0 with the cabinet (R25). DEDUCED, log entry 31. -/
def State.flushBoundary (s : State) (k : Nat) : State :=
  let s := (List.range 4).foldl (fun s j =>
    let p := s.inPort k j
    let q := s.outPort k j
    let s := (s.addWrap Fld.DIO_FPI_DROP p.fifo.length k j).addWrap Fld.DIO_FPO_REFUSED q.fifo.length k j
    let s := s.xrst 10 (!p.fifo.isEmpty || !q.fifo.isEmpty)
    (s.setInPort k j { InPort.init with gapNext := p.gapNext || p.gapNow || !p.fifo.isEmpty }).setOutPort k j
      OutPort.init) s
  s

/-- The start-up values of every cell of CBk. -/
def State.startCells (s : State) (k : Nat) : State :=
  (s.liveCells k).foldl (fun s i => s.setFcell k i (s.cellStart k i (s.fcell k i))) s

/-- FABk_STAT.CLK_USED: the global clocks that a cell of CBk selects (R313); none of an EMPTY cabinet, which has no
configuration (R312). -/
def State.clkUsed (s : State) (k : Nat) : Nat :=
  if s.cbState k = 0 then 0 else (List.range 256).foldl (fun v i => v ||| 2 ^ (s.cellCfg k i).clksel) 0

/-! ## Clock registers (R307) -/

/-- The smallest divider that gives at most 600 MHz from source `src` at multiplier `m`. -/
def minDiv (src m : Nat) : Nat := match src with | 0 => 7 | 1 => (100 * m + 599) / 600 | _ => 1

/-- FAB_GCLKi as it is stored: SRC 3 stores 0, and DIV is raised to the limit. -/
def State.storeGclk (s : State) (i : Nat) (w : Word) : State :=
  let src := if w.bits 16 2 = 3 then 0 else w.bits 16 2
  let v : Word := ((w &&& 0x80000000).setBits 16 2 src).setBits 0 12
    (max (max 1 (w.bits 0 12)) (minDiv src (s.f Fld.FAB_FPLL_M)))
  s.setWord (Reg.FAB_GCLK.addr i 0) v

/-- FAB_FPLL.M as it is stored: the PLL locks anew after a change, and the limit applies again to SRC 1. -/
def State.storeFpll (s : State) (m : Nat) : State :=
  let m := max 24 (min 48 m)
  let s := if s.f Fld.FAB_FPLL_M = m then s else (s.setF Fld.FAB_FPLL_M m).setF Fld.FAB_FPLL_LOCK 0
  (List.range 8).foldl (fun s i =>
    if s.f Fld.FAB_GCLK_SRC i = 1 then s.setF Fld.FAB_GCLK_DIV (max (s.f Fld.FAB_GCLK_DIV i) (minDiv 1 m)) i else s) s

/-- A write protected by R554 where `ok` fails: `t` is the state it would leave, `a` its register. -/
def State.writeIf (s t : State) (ok : Bool) (a : Nat) (ignored : State → State) : State :=
  if ok then t else if t.word a = s.word a then s else ignored s

/-- Host writes of FAB_GCLKi and FAB_FPLL take effect only in Blank. -/
def State.writeGclk (s : State) (i : Nat) (w : Word) : State :=
  s.writeIf (s.storeGclk i w) (s.mode == .blank) (Reg.FAB_GCLK.addr i 0) fun s => s.flag Fld.FAB_STAT_WR_IGN
def State.writeFpll (s : State) (w : Word) : State :=
  s.writeIf (s.storeFpll (w.bits 0 6)) (s.mode == .blank) (Reg.FAB_FPLL.addr 0 0) fun s => s.flag Fld.FAB_STAT_WR_IGN

/-- FABk_CTL written by the host (R309). -/
def State.writeFabCtl (s : State) (k : Nat) (w : Word) : State :=
  s.writeIf (s.setB Fld.FAB_CTL_CLKEN (w.bit 0) k) ((s.mode == .run || s.mode == .partialRun) && !s.isolated k)
    (Reg.FAB_CTL.addr k 0) fun s => s.flag Fld.FAB_CSTAT_WR_IGN k

/-! ## Peek (R313, R485) -/

/-- What FABk_PEEK_DATA names. -/
def State.peekValue (s : State) (k : Nat) : Nat :=
  let x := s.fcell k (s.f Fld.FAB_PEEK_SEL_CELL k)
  match s.f Fld.FAB_PEEK_SEL_ITEM k with
  | 4 => x.ow
  | 5 => x.index * 256 + x.c.toNat * 16 + x.t.toNat * 8 + x.v.toNat * 4 + x.n.toNat * 2 + x.z.toNat
  | i => x.reg i

/-- A read of FABk_PEEK_DATA: refused while the cabinet's clock enable is on, and while its TAINT bit is set. -/
def State.peek (s : State) (k : Nat) : State :=
  if s.cbRuns k ∨ (s.f Fld.BUR_TAINT).testBit k then { s.flag Fld.FAB_CSTAT_PEEK_ERR k with readData := 0 }
  else { s with readData := BitVec.ofNat 32 (s.peekValue k) }

/-! ## Meanings -/

def execClkenWrite (k : Nat) (on : Bool) (s : State) : Out := hostRow (
  ifPresent k s.part.numCB 24 s (.next (s.writeFabCtl k (if on then 1 else 0))))

def execFpllMWrite (m : Nat) (s : State) : Out := hostRow (onInst m 64 (.next (s.writeFpll (BitVec.ofNat 32 m))))

/-- The fabric PLL locks; it runs from the first entry to Blank after Reset. -/
def execFpllLock (s : State) : Out := .next (if s.mode = .reset then s else s.flag Fld.FAB_FPLL_LOCK)

def execPeekData (k : Nat) (s : State) : Out := readPresent k s.part.numCB 24 s (.next (s.peek k))

end Sys2Proof.Machine
end

