-- ==== Sys2Proof/Machine/Images.lean ====
section
/-! DEFINITION. Configuration frames (R341, R346 to R348): their addresses, the registers they image, and the writes that
meet the frame which the scrubber reads (R392, R505). -/

namespace Sys2Proof.Machine

/-! ## Addresses (R341) -/

def frameType (fa : Nat) : Nat := fa / 2 ^ 22
def frameZone (fa : Nat) : Nat := fa / 2 ^ 17 % 32
def frameIndex (fa : Nat) : Nat := fa % 2 ^ 17

/-- The zones and the indices of a block type. -/
def frameDims (p : Part) (t : Nat) : Nat × Nat :=
  match t with
  | 0 => (p.numCB, 256)
  | 1 => (p.numCB, 512)
  | 2 => (p.numCG / 6, 448)
  | _ => (1, 256)

/-- The present frame after a present frame, in ascending order; none after the last (R342). -/
def nextFrame (p : Part) (fa : Nat) : Option Nat :=
  let d := frameDims p (frameType fa)
  if frameIndex fa + 1 < d.2 then some (fa + 1)
  else if frameZone fa + 1 < d.1 then some (frameType fa * 2 ^ 22 + (frameZone fa + 1) * 2 ^ 17)
  else if frameType fa < 3 then some ((frameType fa + 1) * 2 ^ 22)
  else none

/-- Whether `fa` is one of the 768 frames of cabinet `k` (R378). -/
def inCabinet (k fa : Nat) : Bool :=
  frameZone fa == k && ((frameType fa == 0 && decide (frameIndex fa < 256)) || (frameType fa == 1 && decide (frameIndex fa < 512)))

/-- The frame of cabinet `k` after one of them; none after the last (R378). -/
def nextInCabinet (k fa : Nat) : Option Nat :=
  if frameType fa = 0 then (if frameIndex fa < 255 then some (fa + 1) else some (2 ^ 22 + k * 2 ^ 17))
  else if frameIndex fa < 511 then some (fa + 1) else none

/-! ## Register images (R346, R347) -/

/-- The register that word `w` of frame `fa` images. -/
def imageReg (p : Part) (fa w : Nat) : Option Nat :=
  let z := frameZone fa
  let i := frameIndex fa
  if frameType fa = 2 ∧ z < p.numCG / 6 then
    if i = 0 then
      (if w < 24 then some (Reg.AP_CTL.addr (24 * z + w) 0)
      else if w < 30 then some (Reg.AC_CGIN.addr (6 * z + w - 24) 0)
      else none)
    else if i = 1 then (if w < 6 then some (Reg.AC_DAOUT.addr (6 * z + w) 0) else none)
    else if i < 50 then
      let c := 48 * z + i - 2
      match w with
      | 0 => some (Reg.AC_CTL.addr c 0)
      | 1 => some (Reg.AC_GAIN.addr c 0)
      | 2 => some (Reg.AC_TUNE.addr c 0)
      | 3 => some (Reg.AC_SC.addr c 0)
      | 4 => some (Reg.AC_AZ.addr c 0)
      | _ => if w < 9 then some (Reg.AC_LT.addr c (w - 5)) else none
    else none
  else if frameType fa = 3 ∧ z = 0 then
    if i < 8 then some (Reg.DIO_PIN_CFG.addr (32 * i + w) 0)
    else if i = 8 then
      (if w < 8 then some (Reg.DIO_BANK_CTL.addr w 0)
      else if w < 16 then some (Reg.FAB_GCLK.addr (w - 8) 0)
      else if w = 16 then some (Reg.FAB_FPLL.addr 0 0)
      else none)
    else if i < 33 ∧ i - 9 < p.numCB then
      let k := i - 9
      if w = 0 then some (Reg.DIO_BND_CTL.addr k 0)
      else if w < 9 then some (Reg.DIO_BND_SLOT.addr k (w - 1))
      else if w < 13 then some (Reg.DIO_FPI_SRC.addr k (w - 9))
      else if w < 17 then some (Reg.DIO_FPI_CFG.addr k (w - 13))
      else if w < 21 then some (Reg.DIO_FPO_CFG.addr k (w - 17))
      else none
    else none
  else none

/-- The bits of a register that its layout names, but for WO ones (R348). -/
def imageMask (a : Nat) : Word :=
  match RegMap.row a with
  | some r => r.mask (· != .wo)
  | none => 0

/-- The words of an image frame: the values that its registers store (R348, R391). -/
def State.imageWords (s : State) (fa : Nat) : List Word :=
  (List.range 32).map fun w => match imageReg s.part fa w with
    | some a => s.word a &&& imageMask a
    | none => 0

/-! ## Writes to the frame that the scrubber reads (R392, R505) -/

/-- Whether the register at `a` is imaged in the frame that the scrubber reads. -/
def State.underCheck (s : State) (a : Nat) : Bool :=
  match s.scrub.at_ with
  | none => false
  | some fa => (List.range 32).any fun w => imageReg s.part fa w == some a

/-- The frame at `fa` has a word written: a check of it that runs is to be discarded (R392). -/
def State.touchFrame (s : State) (fa : Nat) : State :=
  if s.scrub.at_ = some fa then { s with scrub := { s.scrub with touched := true } } else s

/-- A write `k` of `x` to a register, which a frame may image: one that changes it rewrites its frame word, so that a check
of that frame is discarded (R348, R392); after four such discards it waits for the next check (R505). -/
def State.imageWrite (s : State) (x : HeldWrite) (k : State → State) : State :=
  if !s.underCheck x.reg then k s
  else if s.scrub.hold then { s with scrub := { s.scrub with held := s.scrub.held ++ [x] } }
  else
    let t := k s
    if t.word x.reg = s.word x.reg then t else { t with scrub := { t.scrub with touched := true } }

end Sys2Proof.Machine
end

