-- ==== Sys2Proof/Machine/Boundary.lean ====
section
/-! DEFINITION. Cabinet boundaries: fabric ports, event and request lines, agent ports; downstream delivery; DIO pins and
probes (chapters 13 and 16 of spec/). -/

namespace Sys2Proof.Machine

/-! ## Holding a source back (R23) -/

/-- Whether consumer `c` can take `n` more words of a source that can be held back (R23, R181, R249, R254, R319). -/
def State.hasRoom (s : State) (c n : Nat) : Bool :=
  let q := (s.feed c).inq.length
  if c < 0x100 then !s.on Fld.FC_CTL_EN c || (s.fcRuns c && decide (q + n ≤ 4))
  else if c < 0x200 then decide ((s.inPort ((c - 0x100) / 4) (c % 4)).fifo.length + q + n ≤ 256)
  else if c < 0x300 then
    s.daRoom (c - 0x200) n && !(s.mode == .doze && s.on Fld.DA_CTL_EN (c - 0x200) && (s.feed c).src / 4096 == 3)
  else if c = feedCfg then decide (q + n ≤ 2)
  else if feedRing 0 ≤ c then !s.ringHolds (c - feedRing 0)
  else true

/-- Whether any consumer of source `code` holds it back. -/
def State.sourceHeld (s : State) (code : Nat) : Bool := s.feeds.any fun e => e.2.src == code && !s.hasRoom e.1 1

/-! ## Fabric port inputs (R316 to R319) -/

/-- The presented group changes: the first after a discard carries GAP. -/
def State.showGroup (s : State) (k j : Nat) : State :=
  let p := s.inPort k j
  if p.shown then s
  else if (s.group? k j).isSome then s.setInPort k j { p with shown := true, gapNow := p.gapNext, gapNext := false }
  else s

/-- The oldest word on its way enters the FIFO, or is discarded where the FIFO is full. -/
def State.fpIn (s : State) (k j : Nat) : State :=
  match (s.feed (feedFP k j)).inq with
  | [] => s
  | w :: _ =>
    let s := s.consume (feedFP k j) 1
    let p := s.inPort k j
    if p.fifo.length < 256 then (s.setInPort k j { p with fifo := p.fifo ++ [w] }).showGroup k j
    else (s.setInPort k j { p with gapNext := true }).addWrap Fld.DIO_FPI_DROP 1 k j

/-- One group fewer of the sources before; `true` where the last of a source has gone, so that the next group carries GAP.
DEDUCED, log entry 31. -/
def dropOld (l : List (Nat × Nat × Bool)) : List (Nat × Nat × Bool) × Bool :=
  match l with
  | [] => ([], false)
  | (n, f) :: rest => if n ≤ 1 then (rest, true) else ((n - 1, f) :: rest, false)

/-- A group that was taken at the last clock edge leaves the FIFO, and the next one is presented. -/
def State.fpTake (s : State) (k j : Nat) : State :=
  let p := s.inPort k j
  if p.taking then
    let o := dropOld p.olds
    (s.setInPort k j { fifo := p.fifo.drop (s.fpG k j), gapNext := p.gapNext || o.2, gapNow := false, shown := false,
                       taking := false, olds := o.1 }).showGroup k j
  else s

/-- The words that the groups of earlier sources hold. -/
def oldWords (l : List (Nat × Nat × Bool)) : Nat := (l.map fun e => e.1 * e.2.1).sum

/-- Every word on its way to FPk.j input has come in. -/
def State.fpInAll (s : State) (k j fuel : Nat) : State :=
  match fuel with
  | 0 => s
  | n + 1 => if (s.feed (feedFP k j)).inq.isEmpty then s else (s.fpIn k j).fpInAll k j n

/-- DIO_BNDk_FPIj_SRC written (R316, R319): the words on their way come in, those of the old source that fill no whole group are
discarded, its whole groups stay, and the first group of the new source carries GAP. DEDUCED, log entry 31. -/
def State.writeFpiSrc (s : State) (k j v : Nat) : State :=
  let v := storedSource .port v
  if s.fpSrc k j = v then s
  else
    let s := s.fpTake k j
    let s := s.fpInAll k j (s.feed (feedFP k j)).inq.length
    let p := s.inPort k j
    let form := s.fpForm k j
    let old := oldWords p.olds
    let n := (p.fifo.length - old) / form.1
    let keep := old + n * form.1
    let s := (s.setInPort k j { p with
      fifo := p.fifo.take keep, olds := if n = 0 then p.olds else p.olds ++ [(n, form)],
      gapNext := p.gapNext || (n == 0 && p.olds.isEmpty) }).addWrap Fld.DIO_FPI_DROP (p.fifo.length - keep) k j
    (s.setF Fld.DIO_FPI_SRC_SRC v k j).connect (feedFP k j) v

/-- The group at the head of FPk.j input is looked at anew after a change of G (R317): one that is no longer whole is not
presented, and its GAP waits for the next. DEDUCED, log entry 31. -/
def State.regroup (s : State) (k j : Nat) : State :=
  let p := s.inPort k j
  if (s.group? k j).isSome then s.showGroup k j
  else s.setInPort k j { p with shown := false, gapNext := p.gapNext || p.gapNow, gapNow := false }

/-! ## Fabric port outputs (R321, R375) -/

/-- Words leave the FIFO while no consumer holds the port back. -/
def State.fpDrain (s : State) (k j fuel : Nat) : State :=
  match fuel with
  | 0 => s
  | n + 1 =>
    let p := s.outPort k j
    match p.fifo with
    | [] => s
    | w :: rest =>
      if s.isolated k || s.mode == .bench || s.sourceHeld (portCode k j) then s
      else
        let s := s.setOutPort k j { p with fifo := rest, emitted := p.emitted + 1 }
        (s.emit (portCode k j) [{ w with index := p.emitted }]).fpDrain k j n

/-- The word presented at the last clock edge enters the FIFO, or is lost. -/
def State.fpOut (s : State) (k j : Nat) : State :=
  let p := s.outPort k j
  match p.offer with
  | none => s
  | some w =>
    let s := if p.fifo.length < 256 then s.setOutPort k j { p with fifo := p.fifo ++ [w], offer := none }
      else (s.setOutPort k j { p with offer := none }).addWrap Fld.DIO_FPO_REFUSED 1 k j
    s.fpDrain k j 256

/-- Every fabric port output passes on what its consumers take. -/
def State.drainPorts (s : State) : State :=
  s.cabs.foldl (fun s e => (List.range 4).foldl (fun s j => s.fpDrain e.1 j 256) s) s

/-! ## Downstream delivery (R415, R416) -/

/-- One word of a downstream ring is delivered to every consumer; a block delivered in full moves TAIL on (R415, R418). -/
def State.deliver (s : State) (r w : Nat) : State :=
  let x := s.ring r
  let s := s.setRing r { x with arrived := x.arrived.drop 1, sent := x.sent + 1, emitted := x.emitted + 1,
                                written := x.written + 1 }
  let s := s.emit (downCode r) [plainWord w x.emitted]
  if x.sent + 1 < 2048 then s
  else
    ((s.setRing r { s.ring r with sent := 0 }).addWrap Fld.DMA_TAIL 1 r).countBlock r

/-- Words that have arrived are delivered while every consumer has space. -/
def State.pumpRing (s : State) (r fuel : Nat) : State :=
  match fuel with
  | 0 => s
  | n + 1 =>
    match (s.ring r).arrived with
    | [] => s
    | w :: _ => if !s.ringLive r || s.sourceHeld (downCode r) then s else (s.deliver r w).pumpRing r n

/-- The words that came in while the ledger stood are counted once it moves again (R36, R410). -/
def State.countLate (s : State) (r : Nat) : State :=
  let x := s.ring r
  if x.late.isEmpty || !s.ringLive r then s
  else s.setRing r { x with arrived := x.arrived ++ x.late, late := [], produced := x.produced + x.late.length }

/-- Every held source passes on what its consumers take. -/
def State.pump (s : State) : State :=
  let s := s.drainPorts
  s.rings.foldl (fun s e =>
    if e.2.arrived.isEmpty && e.2.late.isEmpty then s
    else (s.countLate e.1).pumpRing e.1 (e.2.arrived.length + e.2.late.length)) s

/-! ## Request lines (R323, R132) -/

def State.frqX (s : State) (f : Nat) : PulseX := Tab.get (fun _ => PulseX.init) s.frqs f
def State.setFrqX (s : State) (f : Nat) (x : PulseX) : State :=
  { s with frqs := Tab.put (fun _ => PulseX.init) s.frqs f x }

/-- The rising edges of CBk's request lines since they were last looked at enter their crossings. -/
def State.scanFrq (s : State) (k : Nat) : State :=
  (List.range 2).foldl (fun s i =>
    let now := s.frqLevel k i
    let was := (s.cab k).frqLast.testBit i
    let s := s.setCab k { s.cab k with frqLast :=
      if now then (s.cab k).frqLast ||| 2 ^ i else (s.cab k).frqLast &&& (3 - 2 ^ i) }
    if now && !was then
      let r := (s.frqX (2 * k + i)).push 2
      (s.setFrqX (2 * k + i) r.1).xovf 4 r.2
    else s) s

/-- An edge of the clock of CBk's request lines: the acknowledges on their way back come closer. -/
def State.frqEdges (s : State) (k : Nat) : State :=
  (List.range 2).foldl (fun s i => s.setFrqX (2 * k + i) ((s.frqX (2 * k + i)).ackEdge 2)) s

/-! ## A clock edge of the fabric (R299, R318, R321, R322, R324) -/

/-- What the last edge left to be done at the ports of CBk is done. DESIGN CHOICE, log entry 29. -/
def State.settlePorts (s : State) (k : Nat) : State :=
  (List.range 4).foldl (fun s j => (s.fpTake k j).fpOut k j) s

/-- The word that CBk presents at output j at this edge (R315, R321). -/
def State.fpOffer (s : State) (k j : Nat) : Option StreamWord :=
  if s.bndCtrl k (4 * j) true then
    some { val := s.bndWord k (4 * j) false, index := 0, mark := s.bndCtrl k (4 * j + 1) false,
           ovr := s.bndCtrl k (4 * j + 1) true, settling := s.bndCtrl k (4 * j + 2) false,
           handover := s.bndCtrl k (4 * j + 2) true, refUnset := s.bndCtrl k (4 * j + 3) false,
           failover := s.bndCtrl k (4 * j + 3) true, edge := none, entryStart := false, switched := false }
  else none

/-- Agent port a at an edge of AGCLK: what it starts, seen from the state before the edge. -/
def State.agentEdge (s : State) (k a : Nat) : AgentPort × Bool :=
  let p := s.agent k a
  let nd := s.gclkFlops (s.f Fld.DIO_BND_CTL_AGCLK k)
  let w := 18 + 3 * a
  let live := s.cbRuns k
  let post := live && !p.busy && s.bndCtrl k (w + 1) true
  let rx := s.rxChan k a
  let take := live && p.take.isNone && s.bndCtrl k (w + 2) false && s.agentLine k a 0
  let clr := live && p.dbclr.isNone && s.bndCtrl k (w + 2) true
  let back := s.agentBack (s.f Fld.DIO_BND_CTL_AGCLK k)
  let e := p.empty.edge nd back live
  let f := p.fault.edge nd back live
  ({ busy := p.busy || post,
     post := if post then some (chanOfField (s.bndWord k (w + 1) false), s.bndWord k w true * 65536 + s.bndWord k w false)
             else p.post,
     take := if take then rx else p.take, dbclr := if clr then rx else p.dbclr, ack := false, rej := false,
     empty := e.1, fault := f.1 }, e.2 || f.2)

/-- The event lines of CBk at an edge of EVCLK. -/
def State.lineEdges (s : State) (k : Nat) : State :=
  let nd := s.gclkFlops (s.f Fld.DIO_BND_CTL_EVCLK k)
  let back := s.lineBack (s.f Fld.DIO_BND_CTL_EVCLK k)
  let live := s.cbRuns k
  s.lines.foldl (fun s e =>
    if e.1 / 64 = k then
      let r := e.2.edge nd back live
      (s.setLineX k (e.1 % 64) r.1).xovf 3 r.2
    else s) s

/-- CBk at coincident rising edges of the global clocks in `on`. -/
def State.cabEdge (s : State) (k : Nat) (on : Nat → Bool) : State :=
  let live := s.cbRuns k
  let cells := if live then (s.liveCells k).filter fun i => on (s.cellCfg k i).clksel else []
  let next := cells.map fun i => (i, s.cellClocked k i)
  let takes := (List.range 4).map fun j =>
    live && on (s.f Fld.DIO_FPI_CFG_CLK k j) && (s.group? k j).isSome && s.bndCtrl k (16 + j / 2) (j % 2 == 1)
  let offers := (List.range 4).map fun j => if live && on (s.f Fld.DIO_FPO_CFG_CLK k j) then s.fpOffer k j else none
  let ag := on (s.f Fld.DIO_BND_CTL_AGCLK k)
  let agents := (List.range 2).map fun a => s.agentEdge k a
  let s := if on (s.f Fld.DIO_BND_CTL_EVCLK k) then s.lineEdges k else s
  let s := next.foldl (fun s e => s.setFcell k e.1 e.2) s
  let s := takes.zipIdx.foldl (fun s e => if e.1 then s.setInPort k e.2 { s.inPort k e.2 with taking := true } else s) s
  let s := offers.zipIdx.foldl (fun s e => match e.1 with
    | some w => s.setOutPort k e.2 { s.outPort k e.2 with offer := some w }
    | none => s) s
  if ag then agents.zipIdx.foldl (fun s e => (s.setAgent k e.2 e.1.1).xovf 6 e.1.2) s else s

/-- The cabinets in which a clock edge can do anything: those with a frame, a state or a boundary of their own. -/
def State.liveCabs (s : State) : List Nat :=
  (List.range s.part.numCB).filter fun k =>
    s.cbState k != 0 || s.cabs.any (fun e => e.1 == k) || s.lines.any fun e => e.1 / 64 == k

/-- `s` with CBk's own part as it is in `u`. -/
def State.takeCab (s u : State) (k : Nat) : State :=
  let cells := (u.fcells.filter fun x => x.1 / 256 == k).foldl
    (fun f x => Tab.put (fun _ => FabCell.init) f x.1 x.2) (s.fcells.filter fun x => x.1 / 256 != k)
  let lines := (u.lines.filter fun x => x.1 / 64 == k).foldl
    (fun f x => Tab.put (fun _ => PulseX.init) f x.1 x.2) (s.lines.filter fun x => x.1 / 64 != k)
  let s := { s.setCab k (u.cab k) with fcells := cells, lines := lines }
  s.setF Fld.DEV_XSTAT_XOVF (s.f Fld.DEV_XSTAT_XOVF ||| u.f Fld.DEV_XSTAT_XOVF)

/-- Whether GCLKi has an edge with an edge of GCLKj: the two are one clock, or have one divided source and a divider of `j` that
is a multiple of that of `i` (R308). -/
def State.edgeTogether (s : State) (i j : Nat) : Bool :=
  i == j || (s.f Fld.FAB_GCLK_SRC i == s.f Fld.FAB_GCLK_SRC j && s.f Fld.FAB_GCLK_SRC i != 2 &&
    s.f Fld.FAB_GCLK_DIV j % s.f Fld.FAB_GCLK_DIV i == 0)

/-- The global clocks that have a rising edge where those in `mask` have one (R307, R308). -/
def State.clockEdge (s : State) (mask i : Nat) : Bool :=
  s.gclkRuns i && (List.range 8).any fun j => mask.testBit j && s.gclkRuns j && s.edgeTogether i j

/-- Coincident rising edges of the global clocks in `mask` (bit i: GCLKi) and of those that have theirs together with them, with
the levels on the DIO pins: every cabinet acts on the state before the edge; freeCount advances, so that no other edge takes the
same free values (R306). DESIGN CHOICE, log entry 29. -/
def State.fabEdge (s : State) (mask pins : Nat) : State :=
  let on := s.clockEdge mask
  let ks := s.liveCabs
  let s := ks.foldl (fun s k => s.settlePorts k) { s with dio := { s.dio with levels := pins } }
  let after := ks.map fun k => s.cabEdge k on
  let s := (after.zip ks).foldl (fun s e => s.takeCab e.1 e.2) s
  let s := ks.foldl (fun s k => (if on (s.f Fld.DIO_BND_CTL_EVCLK k) then s.frqEdges k else s).scanFrq k) s
  { s with freeCount := s.freeCount + 1 }

/-! ## DIO pins (R325 to R329) -/

/-- A DIO select: constant 1, a control trunk, else constant 0 (R326). -/
def State.dioSel (s : State) (c : Nat) : Bool :=
  if c = 1 then true else if 0x200 ≤ c ∧ c < 0x800 then s.ctrlTrunk ((c - 0x200) / 64) ((c - 0x200) % 64) else false

/-- The level and the enable that pin `n` has by its selects. -/
def State.pinSelected (s : State) (n : Nat) : Bool × Bool :=
  (s.dioSel (s.f Fld.DIO_PIN_CFG_OSEL n), s.dioSel (s.f Fld.DIO_PIN_CFG_OESEL n))

/-- The level that the device's function drives a pin to; none where its driver is off (R329, R530). -/
def State.pinFunction (s : State) (n : Nat) : Option Bool :=
  let live : Option Bool :=
    let p := s.pinSelected n
    if p.2 then some p.1 else none
  let held : Option Bool := match s.dio.latched with
    | some (lv, en) => if en.testBit n then some (lv.testBit n) else none
    | none => none
  let shared := s.drivesPins ||
    (s.on Fld.TWN_STAT_PAIRED && !s.twin.fenced && (s.f Fld.TWN_CTL_DUAL).testBit (n / 32))
  if s.vok n && shared then
    match s.mode with
    | .run | .partialRun => live
    | .wakeUp => if s.dio.ioOn then live else none
    | .doze | .nap | .slumber | .bench => held
    | _ => none
  else none

/-- The level a pin is driven to; none where its driver is off (R329, R544). DESIGN CHOICE, log entry 42. -/
def State.pinOut (s : State) (n : Nat) : Option Bool :=
  match s.scanDrive (.dio n) with
  | some d => if s.vok n then d else none
  | none => s.pinFunction n

/-- Levels and enables are latched (R329): at entry to a low-power state and to Bench, by the selects where the pins are live;
whether a bank is powered and whether this die drives it counts at the pin. -/
def State.latchPins (s : State) : State :=
  let on : Nat → Bool × Bool := fun n => match s.mode with
    | .run | .partialRun => s.pinSelected n
    | _ => (false, false)
  let bits : (Nat → Bool) → Nat := fun p => (List.range 256).foldl (fun v n => if p n then v + 2 ^ n else v) 0
  { s with dio := { s.dio with latched := some (bits fun n => (on n).1, bits fun n => (on n).2) } }

/-- The modes that accept a host write to DIO_PINn_CFG (R328). -/
def Mode.pinWrites : Mode → Bool
  | .load | .verify | .wakeUp | .faultMode | .reset => false
  | _ => true

def pinStored (w : Word) : Word := w &&& 0x1FFFFFFF

/-- DIO_PINn_CFG and DIO_BANKb_CTL written by the host (R325, R328). -/
def State.writePinCfg (s : State) (n : Nat) (w : Word) : State :=
  s.writeIf (s.setWord (Reg.DIO_PIN_CFG.addr n 0) (pinStored w)) s.mode.pinWrites (Reg.DIO_PIN_CFG.addr n 0) fun s =>
    s.flag Fld.DIO_STAT_WR_IGN
def State.writeBankCtl (s : State) (b : Nat) (w : Word) : State :=
  s.writeIf (s.setB Fld.DIO_BANK_CTL_MODE (w.bit 0) b) (s.mode == .blank) (Reg.DIO_BANK_CTL.addr b 0) fun s =>
    s.flag Fld.DIO_STAT_WR_IGN

/-! ## Boundary registers (R320) -/

def fpiCfgStored (w : Word) : Word := let w := w &&& 0x703; if w.bits 0 2 = 3 then w.setBits 0 2 0 else w

/-- A register that is written only while the cabinet's clock enable is off. -/
def State.writeBnd (s : State) (k a : Nat) (v : Word) : State :=
  s.writeIf (s.setWord a v) (!s.cbRuns k) a fun s => s.flag Fld.DIO_BND_STAT_WR_IGN k

/-- DIO_BNDk_FPIj_CFG becomes `w`: a group taken at the last clock edge leaves by the old size before (R318). -/
def State.setFpiCfg (s : State) (k j : Nat) (w : Word) : State :=
  ((s.fpTake k j).setWord (Reg.DIO_FPI_CFG.addr k j) w).regroup k j

/-- DIO_BNDk_FPIj_CFG written: the clock and the group size. -/
def State.writeFpiCfg (s : State) (k j : Nat) (w : Word) : State :=
  let a := Reg.DIO_FPI_CFG.addr k j
  let v := fpiCfgStored w
  s.writeIf (if s.word a = v then s else s.setFpiCfg k j v) (!s.cbRuns k) a fun s => s.flag Fld.DIO_BND_STAT_WR_IGN k

/-! ## Probes (R330 to R332) -/

def State.probe (s : State) (p : Nat) : Probe := Tab.get (fun _ => Probe.init) s.probes p
def State.setProbe (s : State) (p : Nat) (x : Probe) : State :=
  { s with probes := Tab.put (fun _ => Probe.init) s.probes p x }

/-- PRBp_SEL as it is stored. -/
def prbSelStored (w : Word) : Word :=
  let w := w &&& 0xFF00FFFF
  let w := if w.bits 24 5 > 23 then w.setBits 24 5 0 else w
  let c := w.bits 0 16
  let ok := 1 ≤ c / 4096 && c / 4096 ≤ 4 && decide (c % 4096 < classCount (c / 4096))
  if w.bits 30 2 = 3 && !ok then w.setBits 30 2 0 else w

/-- The probe taps the stream it names while it is enabled with KIND 3. -/
def State.tapProbe (s : State) (p : Nat) : State :=
  let code := if s.on Fld.PRB_CTL_EN p ∧ s.f Fld.PRB_SEL_KIND p = 3 then s.f Fld.PRB_SEL_CODE p else 0
  s.connect (feedPRB p) code

/-- PRBp_CTL and PRBp_SEL written (R332). -/
def State.writePrbCtl (s : State) (p : Nat) (w : Word) : State :=
  let a := Reg.PRB_CTL.addr p 0
  let old := s.word a
  let g := guardWrite old (w &&& 0xCF07FFFF) (if old.bit 31 then 0x0007FFFF else 0)
  let s := (s.setWord a g.1).flagIf g.2 Fld.PRB_STAT_WR_IGN p
  let s := match old.bit 31, g.1.bit 31 with
    | false, true => s.setProbe p Probe.init
    | true, false => s.sourceStops (probeCode p)
    | _, _ => s
  s.tapProbe p
def State.writePrbSel (s : State) (p : Nat) (w : Word) : State :=
  (s.writeIf (s.setWord (Reg.PRB_SEL.addr p 0) (prbSelStored w)) (!s.on Fld.PRB_CTL_EN p) (Reg.PRB_SEL.addr p 0) fun s =>
    s.flag Fld.PRB_STAT_WR_IGN p).tapProbe p

/-- One sample goes out. -/
def State.probeEmit (s : State) (p : Nat) (w : StreamWord) : State :=
  let x := s.probe p
  let s := s.setProbe p { x with skip := 0, emitted := x.emitted + 1, last := w.val }
  (s.emit (probeCode p) [{ w with index := x.emitted }]).addWrap Fld.PRB_WORDS 1 p

/-- The sample of a fabric wire (R331): 0 from a cabinet that is not configured, isolated or secure. -/
def State.wireSample (s : State) (p : Nat) : Nat × Bool :=
  let k := s.f Fld.PRB_SEL_CB p
  let c := s.f Fld.PRB_SEL_CODE p
  if s.part.numCB ≤ k then (0, false)
  else if s.isSecure k then (0, true)
  else if s.cbState k ≠ 1 then (0, false)
  else if 4096 ≤ c then (0, false)
  else if s.f Fld.PRB_SEL_KIND p = 1 then (s.wordAt k c, false)
  else ((s.ctrlAt k c).toNat, false)

/-- The modes in which a probe emits: streams are stopped in Reset, Blank, Load, Verify and Fault, in Bench, and in Slumber,
which powers no probe (R33, R36). -/
def Mode.probes : Mode → Bool
  | .wakeUp | .run | .partialRun | .doze | .nap => true
  | _ => false

/-- A probe meets a clock edge of its GCLK, or the oldest word of its stream. DESIGN CHOICE, log entry 29. -/
def State.probeSample (s : State) (p : Nat) : State :=
  let x := s.probe p
  let due := decide (s.f Fld.PRB_CTL_DIV_M1 p ≤ x.skip)
  let wait := fun (s : State) => s.setProbe p { x with skip := x.skip + 1 }
  if !s.on Fld.PRB_CTL_EN p || !s.mode.probes then s
  else match s.f Fld.PRB_SEL_KIND p with
    | 1 | 2 =>
      if s.f Fld.PRB_SEL_CB p < s.part.numCB ∧ s.gclkRuns (s.f Fld.PRB_CTL_CLK p) then
        if due then
          let v := s.wireSample p
          (s.flagIf v.2 Fld.PRB_STAT_DENIED p).probeEmit p (plainWord v.1 0)
        else wait s
      else s
    | 3 =>
      match (s.feed (feedPRB p)).inq with
      | [] => s
      | w :: _ =>
        let s := s.consume (feedPRB p) 1
        let half := s.f Fld.PRB_SEL_CODE p / 4096 == 2 && s.on Fld.PRB_SEL_HALF p
        if due then s.probeEmit p { w with val := (if half then w.val / 65536 else w.val) % 65536, edge := none }
        else wait s
    | _ => s

/-- What pin PRBp drives: bit BIT of the last sample; none where it is high-impedance (R332, R362, R365, R544). -/
def State.prbPin (s : State) (p : Nat) : Option Bool :=
  let live := match s.mode with
    | .reset | .load | .verify | .faultMode => false
    | .wakeUp => s.dio.ioOn
    | _ => true
  match s.scanDrive (.prb p) with
  | some d => d
  | none =>
    if live && s.on Fld.PRB_CTL_EN p && s.on Fld.PRB_CTL_PIN p then some ((s.probe p).last.testBit (s.f Fld.PRB_CTL_BIT p))
    else none

/-! ## Meanings -/

/-- DESIGN CHOICE, log entry 26. A fabric port that the chain held back goes on (R181). -/
def execChainOutput (n : Nat) (s : State) : Out :=
  ifPresent n s.part.numFC 48 s (.next <|
    if s.fcRuns n then
      let t := s.chainTake n ((s.feed (feedFC n)).inq.length)
      if s.fcClass n = 3 then t.drainPorts else t
    else s)

/-- DESIGN CHOICE, log entry 28. A source that the DAC held back goes on (R254). -/
def execDacSample (d e tick : Nat) (s : State) : Out :=
  ifPresent d s.part.numDA 24 s (.next <|
    if s.sclk d ∧ s.mode.converts then
      let t := s.daEdge d e tick
      if s.f Fld.DA_SRC_SRC d = 0 then t else t.pump
    else s)

def execFpInputWord (k j : Nat) (s : State) : Out :=
  onInst j 4 (ifPresent k s.part.numCB 24 s (.next (s.fpIn k j)))
def execFpInputGroupTake (k j : Nat) (s : State) : Out :=
  onInst j 4 (ifPresent k s.part.numCB 24 s (.next ((s.fpTake k j).pump)))
def execFpOutputWord (k j : Nat) (s : State) : Out :=
  onInst j 4 (ifPresent k s.part.numCB 24 s (.next (s.fpOut k j)))
/-- DESIGN CHOICE, log entry 29. -/
def execCellClock (mask pins : Nat) (s : State) : Out :=
  .next ((s.fabEdge (mask % 256) (pins % 2 ^ 256)).pump)
def execProbeSample (p : Nat) (s : State) : Out := onInst p 16 (.next (s.probeSample p))

/-- What an agent port does to Pigeonhole: its own request; on a standby, whatever its own request, what the primary's matching
port does (R528). -/
def State.portDoes (s : State) (a : PortAct) (own : Option (Nat × Nat)) : Option (Nat × Nat) :=
  if s.standby then a.mirror else own

/-- The agent ports that wait for a Pigeonhole operation, port a of CBk under 2·k + a. -/
def State.portsWaiting (s : State) : List Nat :=
  (List.range (2 * s.part.numCB)).filter fun q =>
    let p := s.agent (q / 2) (q % 2)
    p.post.isSome || p.take.isSome || p.dbclr.isSome

/-- Whether the next operation of an agent port is one of port (k, a) (R504); a standby takes them in the primary's order. -/
def State.portTurn (s : State) (k a : Nat) : Bool :=
  s.standby || roundRobin 48 s.arb.port s.portsWaiting (2 * k + a)

/-- Port (k, a) is granted an operation. -/
def State.grantPort (s : State) (k a : Nat) : State := { s with arb := { s.arb with port := 2 * k + a } }

/-- The post of word `w` on channel `c` by agent port a reaches Pigeonhole (R324, R432). -/
def State.portPosts (s : State) (k a c w : Nat) : State :=
  let s := s.setAgent k a { s.agent k a with post := none, busy := false }
  let mine := (s.chan c).alloc && (s.chan c).snd == (Agent.port k a).code
  let answer := fun (ok : Bool) (s : State) => s.setAgent k a { s.agent k a with ack := ok, rej := !ok }
  if mine then answer (!(s.chan c).full) (s.postOn c (BitVec.ofNat 32 w))
  else answer false (s.flag Fld.DIO_BND_STAT_AG_BADCH k)

def State.agentPost (s : State) (k : Nat) (a : PortAct) : State :=
  match s.portDoes a (s.agent k a.port).post with
  | none => s
  | some (c, w) => if s.portTurn k a.port then (s.grantPort k a.port).portPosts k a.port c w else s

def execAgentPost (k : Nat) (a : PortAct) (s : State) : Out :=
  onInst a.port 2 (ifPresent k s.part.numCB 24 s (.next (s.agentPost k a)))

/-- Whether agent port (k, a) receives channel `c`. -/
def State.portReceives (s : State) (k a c : Nat) : Bool := (s.chan c).alloc && (s.chan c).rcv == (Agent.port k a).code

/-- The take of agent port a reaches Pigeonhole; a channel that the port does not receive by then keeps its word (R435). -/
def State.agentTake (s : State) (k : Nat) (a : PortAct) : State :=
  let p := s.agent k a.port
  match s.portDoes a (p.take.map fun c => (c, 0)) with
  | none => s
  | some (c, _) =>
    if s.portTurn k a.port then
      let t := (s.grantPort k a.port).setAgent k a.port { p with take := none }
      if s.portReceives k a.port c then t.takeFrom c else t
    else s

def execAgentTake (k : Nat) (a : PortAct) (s : State) : Out :=
  onInst a.port 2 (ifPresent k s.part.numCB 24 s (.next (s.agentTake k a)))

/-- The DBCLR of agent port a reaches Pigeonhole, where the port receives the channel. -/
def State.agentDbclr (s : State) (k : Nat) (a : PortAct) : State :=
  let p := s.agent k a.port
  match s.portDoes a (p.dbclr.map fun c => (c, 0)) with
  | none => s
  | some (c, _) =>
    if s.portTurn k a.port then
      let t := (s.grantPort k a.port).setAgent k a.port { p with dbclr := none }
      if s.portReceives k a.port c then t.clearDoorbell c 0xFFFFFFFF else t
    else s

def execAgentDbclr (k : Nat) (a : PortAct) (s : State) : Out :=
  onInst a.port 2 (ifPresent k s.part.numCB 24 s (.next (s.agentDbclr k a)))

/-- A rising edge of request line f reaches the groups that listen to it (R132). -/
def State.fabricRequest (s : State) (f : Nat) : State :=
  let r := (s.frqX f).deliver 2 (s.frqBack (s.f Fld.DIO_BND_CTL_EVCLK (f / 2)))
  if r.2 then
    (List.range s.part.numCG).foldl (fun s g =>
      if s.on Fld.CG_CTL_EN g ∧ s.on Fld.CG_FTRIG_EN g ∧ s.f Fld.CG_FTRIG_LINE g = f then
        s.cgRequest g fun q => { q with urgent := true }
      else s) (s.setFrqX f r.1)
  else s

def execFabricRequest (f : Nat) (s : State) : Out :=
  onInst f 48 (.next (((s.scanFrq (f / 2)).fabricRequest f)))

/-- The supply of bank b is applied or removed (R546). -/
def execVccioChange (b : Nat) (present : Bool) (s : State) : Out :=
  let v := if present then s.dio.vok ||| 2 ^ b else s.dio.vok &&& (255 - 2 ^ b)
  onInst b 8 (.next (({ s with dio := { s.dio with vok := v } }).setB Fld.DIO_BANK_STAT_VOK present b))

def execDioPinCfgWrite (n : Nat) (w : Word) (s : State) : Out := hostRow (onInst n 256 (.next <|
    s.imageWrite ⟨Reg.DIO_PIN_CFG.addr n 0, w, false⟩ fun s => s.writePinCfg n w))

end Sys2Proof.Machine
end

