-- ==== Sys2Proof/Machine/Analog.lean ====
section
/-! DEFINITION. Analog ports and cells (chapter 04 of spec/). -/

namespace Sys2Proof.Machine

/-! ## Stored values of the matrix registers -/

/-- APn_CTL as it is stored, and whether TERM was adjusted (R90, R91). -/
def apCtlStored (w : Word) : Word × Bool :=
  let w := w &&& 0x11F
  let r := if w.bits 0 3 > 4 then 4 else w.bits 0 3
  let r := if w.bit 4 ∧ (r = 3 ∨ r = 4) then 2 else r
  let w := w.setBits 0 3 r
  if w.bit 3 ∧ r = 4 then (w.setBits 3 1 0, true) else (w, false)

/-- ACc_CTL as it is stored (R96, R98, R101); RST is write only and acts in applyMatrix. -/
def acCtlStored (w : Word) : Word :=
  let w := w &&& 0xB0F
  let w := if w.bits 0 4 > 7 then w.setBits 0 4 0 else w
  if w.bits 8 2 = 3 then w.setBits 8 2 0 else w

/-- ACc_LTt as it is stored (R108). -/
def ltStored (w : Word) : Word :=
  let w := w &&& 0xBFFF
  if w.bit 15 ∧ w.bits 8 6 > 47 then w.setBits 15 1 0 else w

/-- AC_CGINg as it is stored (R109). -/
def cgInStored (w : Word) : Word :=
  (List.range 4).foldl (fun w i =>
    if w.bits (8 * i + 6) 2 = 3 ∨ (w.bits (8 * i + 6) 2 = 2 ∧ w.bits (8 * i) 6 > 47) then w.setBits (8 * i + 6) 2 0
    else w) w

/-- AC_DAOUTd as it is stored (R119). -/
def daOutStored (w : Word) : Word :=
  let w := w &&& 0xBF
  if w.bit 7 ∧ w.bits 0 6 > 47 then w.setBits 7 1 0 else w

/-- The kinds of matrix register. -/
inductive MatrixReg
  | apCtl (n : Nat) | acCtl (c : Nat) | lt (c : Nat) | cgIn (g : Nat) | daOut (d : Nat)
  deriving DecidableEq, Repr

/-- The matrix register at an offset. -/
def matrixReg (a : Nat) : Option MatrixReg :=
  if 0xA0000 ≤ a ∧ a < 0xA6000 ∧ a % 0x100 = 0 then some (.apCtl ((a - 0xA0000) / 0x100))
  else if 0xC0000 ≤ a ∧ a < 0xCC000 then
    let o := (a - 0xC0000) % 0x100
    let c := (a - 0xC0000) / 0x100
    if o = 0 then some (.acCtl c)
    else if 0x40 ≤ o ∧ o < 0x50 ∧ o % 4 = 0 then some (.lt c)
    else none
  else if 0xCC100 ≤ a ∧ a < 0xCC160 ∧ a % 4 = 0 then some (.cgIn ((a - 0xCC100) / 4))
  else if 0xCC200 ≤ a ∧ a < 0xCC260 ∧ a % 4 = 0 then some (.daOut ((a - 0xCC200) / 4))
  else none

/-- Whether the part has the instance a matrix register belongs to (R3). -/
def hasMatrix (p : Part) : MatrixReg → Bool
  | .apCtl n => n < p.numAP
  | .acCtl c => c < p.numAC
  | .lt c => c < p.numAC
  | .cgIn g => g < p.numCG
  | .daOut d => d < p.numDA

/-- The word a matrix register stores. -/
def MatrixReg.stored (r : MatrixReg) (w : Word) : Word :=
  match r with
  | .apCtl _ => (apCtlStored w).1
  | .acCtl _ => acCtlStored w
  | .lt _ => ltStored w
  | .cgIn _ => cgInStored w
  | .daOut _ => daOutStored w

/-! ## Auto-zero cycles (R102 to R104) -/

/-- Whether a cell's auto-zero circuit works: its home SCLK runs (R104), and the device is neither in Slumber, on its way
there included, nor in Bench, where trims change only by calibration (R115, R507). -/
def State.azClock (s : State) (c : Nat) : Bool := s.sclk (homeGroup c) && s.mode != .bench && s.mode != .slumber

/-- Whether the cell's cycles run. -/
def State.azRuns (s : State) (c : Nat) : Bool :=
  s.f Fld.AC_CTL_FUNC c = 7 && !s.on Fld.AC_AZ_HOLD c && s.azClock c

/-- The cell after a change of FUNC, HOLD or SCLK: away from function 7 amplifier A serves and the cycle is dropped; with
HOLD set a parallel connection still completes, and a cycle in steps 1 to 3 is dropped with its trim (R104; DESIGN CHOICE, log
entry 17); where cycles run and none was running, one begins. -/
def State.azSettle (s : State) (c : Nat) : State :=
  let x := s.cell c
  if s.f Fld.AC_CTL_FUNC c ≠ 7 then s.setCell c { x with az := .stopped, azLate := false, servingB := false }
  else if s.azRuns c then
    (if x.az = .stopped then s.setCell c { x with az := .trimming, azLate := false } else s)
  else if x.az = .parallel ∧ s.azClock c then s
  else s.setCell c { x with az := .stopped, azLate := false }

/-- A boundary of the period: the parallel connection starts, a skipped cycle ends, or a trim still running makes the swap
late (R102). -/
def State.azBoundary (s : State) (c : Nat) : State :=
  let x := s.cell c
  if !s.azClock c then s
  else match x.az with
  | .trimmed => s.setCell c { x with az := .parallel }
  | .skipping => s.setCell c { x with az := .trimming, azLate := false }
  | .trimming => s.setCell c { x with azLate := true }
  | _ => s

/-- The parallel connection ends: the amplifiers change places and the next cycle begins (R102). -/
def State.azSwap (s : State) (c : Nat) : State :=
  let x := s.cell c
  if x.az = .parallel ∧ s.azClock c then
    ((s.setCell c { x with az := .stopped, azLate := false, servingB := !x.servingB }).addWrap Fld.AC_AZCNT_SWAPS 1 c).azSettle c
  else s

/-- The trim attempts end: the agreed mean goes to the idle amplifier and lifts that field's mark, or the cycle disagrees
and sets no mark (R102, R103, R268). A cycle that disagrees after its boundary has passed waits for the next one (DESIGN
CHOICE, log entry 17). -/
def State.azTrim (s : State) (c : Nat) (tries : List (Int × Int)) : State :=
  let x := s.cell c
  if x.az = .trimming ∧ s.azClock c then
    match calStep 1 tries with
    | some v =>
      let idle := if x.servingB then 0 else 1
      ((s.setF Fld.AC_TRIM_OFS (ofSigned 10 v) c idle).unmarkField Fld.AC_TRIM_OFS c idle).setCell c
        ({ x with az := if x.azLate then .parallel else .trimmed, azLate := false }.setNull idle none)
    | none =>
      if tries.length < 4 then s
      else ((s.setCell c { x with az := .skipping, azLate := false }).addSat Fld.AC_AZCNT_DISAGREE 1 c).flag
        Fld.AC_STAT_AZ_DIS c
  else s

/-- A matrix register takes the word `w`: APn_CTL makes the port's monitor settle where it changes (R236), and a 1 in
ACc_CTL.RST resets the integrator or the peak holds of the function written (R100, R101, R118). A change of FUNC keeps what the
integrator, the holds and the section hold (DESIGN CHOICE, log entry 18). -/
def State.applyMatrix (s : State) (a : Nat) (r : MatrixReg) (w : Word) : State :=
  let new := r.stored w
  match r with
  | .apCtl n =>
    let changed := new != s.word a
    let s := (s.setWord a new).flagIf (apCtlStored w).2 Fld.AP_STAT_TERM_ADJ n
    if changed then s.wmHold n else s
  | .acCtl c =>
    let s := (s.setWord a new).azSettle c
    if w.bit 10 then s.cellReset c else s
  | _ => s.setWord a new

/-- The modes in which matrix writes are checked (R113). -/
def Mode.checksMatrix : Mode → Bool
  | .wakeUp | .run | .partialRun | .doze | .nap | .slumber | .bench => true
  | _ => false

/-- A write to a matrix register (R113): checked against the nets of its quadrant where the mode says so, and ignored in
full where it would feed a double-driven net. -/
def State.writeMatrix (s : State) (a : Nat) (r : MatrixReg) (w : Word) : State :=
  let t := s.applyMatrix a r w
  match if s.mode.checksMatrix then refusedNet s t a else none with
  | some net => (s.flag Fld.AC_CENSUS_WR_REFUSED).nameNet (lowestTrack net) (lowestTwo (t.driversOf net))
  | none => t

/-- ACc_AZ written: AZPER above 15 stores 15 (R118). -/
def State.writeAcAz (s : State) (c : Nat) (w : Word) : State :=
  ((s.setF Fld.AC_AZ_AZPER (min 15 (w.bits 16 5)) c).setF Fld.AC_AZ_HOLD (w.bits 0 1) c).azSettle c

/-- ACc_TRIMA or ACc_TRIMB written: OFS is protected while cycles run (R104). A new OFS leaves the amplifier's nulling point
where it is. -/
def State.writeAcTrim (s : State) (c k : Nat) (w : Word) : State :=
  let a := Reg.AC_TRIM.addr c k
  let prot : Word := if s.f Fld.AC_CTL_FUNC c = 7 ∧ ¬ s.on Fld.AC_AZ_HOLD c then 0x03FF0000 else 0
  let g := guardWrite (s.word a) (w &&& 0x03FF03FF) prot
  let t := if g.1.bits 16 10 = (s.word a).bits 16 10 then s else s.setCell c ((s.cell c).setNull k (some (s.ampNull c k)))
  (t.setWord a g.1).flagIf g.2 Fld.AC_STAT_WR_IGN c

/-- ACc_GAIN, ACc_TUNE and ACc_SC written (R97 to R99). -/
def State.writeAcGain (s : State) (c : Nat) (w : Word) : State := s.setF Fld.AC_GAIN_GCODE (min 96 (w.bits 0 7)) c
def State.writeAcTune (s : State) (c : Nat) (w : Word) : State :=
  (s.setWord (Reg.AC_TUNE.addr c 0) (w &&& 0x00FF3F8F)).setF Fld.AC_TUNE_RSEL (min 192 (w.bits 16 8)) c
def State.writeAcSc (s : State) (c : Nat) (w : Word) : State :=
  (s.setF Fld.AC_SC_SWDIV (max 4 (w.bits 16 12)) c).setF Fld.AC_SC_CS (max 1 (w.bits 0 6)) c

/-- ACc_STAT.FC_RANGE: tau = 1 kΩ 10^(RSEL/64) × 0.25 pF (CAP + 1) M lies outside 636.6 ps to 159.15 µs, compared exactly
in its 64th power (R98). DESIGN CHOICE, log entry 18. -/
def State.fcRange (s : State) (c : Nat) : Bool :=
  let f := s.f Fld.AC_CTL_FUNC c
  let n := (s.f Fld.AC_TUNE_CAP c + 1) * (if s.on Fld.AC_TUNE_M c then 16 else 1)
  let x := 10 ^ s.f Fld.AC_TUNE_RSEL c * n ^ 64
  (f = 3 || f = 5 || f = 6) && (x * 10000 ^ 64 < 25464 ^ 64 || 636600 ^ 64 < x)

/-- The auto-zero cycles that can run start from their first step, and a swap that the clock's stop cut short is dropped
(R104); the serving amplifiers keep serving. DEDUCED, log entry 17. -/
def State.restartAz (s : State) : State :=
  (List.range s.part.numAC).foldl (fun s c =>
    s.setCell c { s.cell c with az := if s.azRuns c then .trimming else .stopped, azLate := false }) s

/-- Held analog state is cleared; the serving amplifiers keep serving (R104, R115). DEDUCED, log entry 17. -/
def State.clearHeld (s : State) : State :=
  { s with cells := s.cells.filterMap fun e => e.2.cleared e.1 e.2.servingB }

/-! ## Meanings -/

def execMatrixWrite (addr : Nat) (w : Word) (s : State) : Out := hostRow (
  match matrixReg addr with
  | none => .fault .illFormed
  | some r => .next (if hasMatrix s.part r then s.imageWrite ⟨addr, w, false⟩ fun s => s.writeMatrix addr r w else s))

def execAzBoundary (c : Nat) (s : State) : Out := ifPresent c s.part.numAC 192 s (.next (s.azBoundary c))
def execAzSwap (c : Nat) (s : State) : Out := ifPresent c s.part.numAC 192 s (.next (s.azSwap c))
def execAutoZeroTrim (c : Nat) (tries : List (Int × Int)) (s : State) : Out :=
  ifPresent c s.part.numAC 192 s (.next (s.azTrim c tries))
/-- The cell's inputs have been as they are for `dt` seconds: its output follows (R96), but for a cell in Slumber, which is not
powered (R507). -/
def State.cellTo (s : State) (c : Nat) (dt : Rat) : State :=
  if s.mode = .slumber then s else s.cellSettle c (s.sclk (homeGroup c)) (max 0 dt)

/-- RST is written (R100, R101). -/
def execRst (c : Nat) (dt : Rat) (s : State) : Out := hostRow (
  ifPresent c s.part.numAC 192 s (.next ((s.cellTo c dt).cellReset c)))

/-- The pin voltage moves: a port that is an input and active sets OVLD where its magnitude lies above the clamp threshold
(R95); the front end's limited signal is State.frontEnd. -/
def execPortOverload (n : Nat) (v : Rat) (s : State) : Out :=
  ifPresent n s.part.numAP 96 s (.next <|
    ({ s with apPins := Tab.put (fun _ => 0) s.apPins n v } : State).flagIf (s.portActive n && !s.on Fld.AP_CTL_DIR n &&
      decide (clampThreshold (s.f Fld.AP_CTL_RANGE n) < v.abs)) Fld.AP_STAT_OVLD n)

/-- DESIGN CHOICE, log entry 18. -/
def execCellSaturation (c : Nat) (dt : Rat) (s : State) : Out := ifPresent c s.part.numAC 192 s (.next (s.cellTo c dt))

end Sys2Proof.Machine
end

