-- ==== Sys2Proof/Machine/Crypto.lean ====
section
/-! DEFINITION. CRC-32C and SHAKE256 over bytes and words (R341, R353, R276, R387 of spec/). -/

namespace Sys2Proof.Machine

/-- The four bytes of a word, lowest first. -/
def wordBytesOf (w : Word) : List Nat := (List.range 4).map fun i => w.toNat / 256 ^ i % 256

/-- The little-endian words of a byte list; a last word that is short is filled with zero bytes. -/
def wordsOfBytes (l : List Nat) (fuel : Nat) : List Word :=
  match fuel, l with
  | 0, _ => []
  | _, [] => []
  | n + 1, l =>
    BitVec.ofNat 32 (((l.take 4).zipIdx.map fun e => e.1 % 256 * 256 ^ e.2).sum) :: wordsOfBytes (l.drop 4) n

/-! ## CRC-32C: reflected polynomial 0x82F63B78, initial and final inversion -/

/-- One bit of the CRC register. -/
def crcBit (c : Nat) : Nat := if c % 2 = 1 then (c / 2) ^^^ 0x82F63B78 else c / 2

def crcBits (n c : Nat) : Nat := match n with | 0 => c | k + 1 => crcBits k (crcBit c)

/-- The CRC register (before the final inversion) after one byte. -/
def crcByte (c b : Nat) : Nat := crcBits 8 (c ^^^ (b % 256))

/-- The CRC register after one stream word, lowest byte first. -/
def crcWord (c : Nat) (w : Word) : Nat := (wordBytesOf w).foldl crcByte c

/-! ## Keccak-f[1600] and SHAKE256

The 25 lanes are five planes of five lanes: lane (x, y) is lane x of plane y. Rotations and round constants are computed from the
recurrences that define them. -/

abbrev Lane := BitVec 64

/-- The state: planes y = 0 to 4, each of lanes x = 0 to 4. -/
abbrev Sponge := List (List Lane)

def Sponge.at_ (a : Sponge) (x y : Nat) : Lane := (((a[y % 5]?).getD [])[x % 5]?).getD 0

/-- The state whose lane (x, y) is `f x y`. -/
def Sponge.of (f : Nat → Nat → Lane) : Sponge := (List.range 5).map fun y => (List.range 5).map fun x => f x y

/-- Theta: each lane takes the parities of the columns beside its own. -/
def Sponge.theta (a : Sponge) : Sponge :=
  let column := fun x => (a.map fun plane => (plane[x % 5]?).getD 0).foldl (· ^^^ ·) 0
  let mix := (List.range 5).map fun x => column (x + 4) ^^^ (column (x + 1)).rotateLeft 1
  a.map fun plane => List.zipWith (· ^^^ ·) plane mix

/-- Rho and pi, as one walk of `n` steps: from (x, y) the lane goes to (y, 2x + 3y), rotated by the next triangular number. -/
def Sponge.walk (a : Sponge) (n x y turn : Nat) (b : Sponge) : Sponge :=
  match n with
  | 0 => b
  | k + 1 =>
    let y' := (2 * x + 3 * y) % 5
    let moved := b.modify y' fun plane => plane.set y ((a.at_ x y).rotateLeft (turn * (turn + 1) / 2 % 64))
    a.walk k y y' (turn + 1) moved

/-- Chi: each lane takes the two lanes after it in its plane. -/
def Sponge.chi (a : Sponge) : Sponge :=
  Sponge.of fun x y => a.at_ x y ^^^ (~~~(a.at_ (x + 1) y) &&& a.at_ (x + 2) y)

/-- The register that generates the round constants, x^8 + x^6 + x^5 + x^4 + 1, after one step. -/
def lfsrStep (r : Nat) : Nat := if r < 128 then 2 * r else (2 * r) ^^^ 0x171

/-- The constant of one round, and the register after it: bit 2^j − 1 takes the register's lowest bit at its j-th step. -/
def iotaWord (r j : Nat) : Lane × Nat :=
  match j with
  | 0 => (0, r)
  | k + 1 =>
    let later := iotaWord (lfsrStep r) k
    (later.1 ||| (if r % 2 = 1 then BitVec.twoPow 64 (2 ^ (6 - k) - 1) else 0), later.2)

/-- `n` rounds from the state `a` and the register `r`. -/
def Sponge.rounds (a : Sponge) (n r : Nat) : Sponge :=
  match n with
  | 0 => a
  | k + 1 =>
    let c := iotaWord r 7
    let t := a.theta
    let b := (t.walk 24 1 0 1 t).chi
    Sponge.rounds (b.modify 0 fun plane => plane.modify 0 (· ^^^ c.1)) k c.2

def keccakF (a : Sponge) : Sponge := a.rounds 24 1

/-- The eight bytes of a lane. -/
def laneBytes (l : Lane) : List Nat := (List.range 8).map fun i => l.toNat / 256 ^ i % 256

/-- The little-endian lane of eight bytes. -/
def laneOfBytes (l : List Nat) : Lane := BitVec.ofNat 64 ((l.zipIdx.map fun e => e.1 * 256 ^ e.2).sum)

/-- A block of 17 lanes enters the state, plane by plane. -/
def absorb (a : Sponge) (block : List Nat) : Sponge :=
  keccakF (Sponge.of fun x y =>
    if x + 5 * y < 17 then a.at_ x y ^^^ laneOfBytes ((block.drop (40 * y + 8 * x)).take 8) else a.at_ x y)

/-- The last block with its padding: 0x1F after the message, 0x80 in the last byte. -/
def shakePad (l : List Nat) : List Nat :=
  let p := l ++ [0x1F] ++ List.replicate (135 - l.length) 0
  p.modify 135 fun b => b ||| 0x80

/-- Every block of a message enters the state. -/
def absorbAll (a : Sponge) (l : List Nat) (fuel : Nat) : Sponge :=
  match fuel with
  | 0 => a
  | n + 1 => if l.length < 136 then absorb a (shakePad l) else absorbAll (absorb a (l.take 136)) (l.drop 136) n

/-- The 256-bit SHAKE256 digest of a message of bytes, as 32 bytes. -/
def shake256 (l : List Nat) : List Nat :=
  let a := absorbAll (Sponge.of fun _ _ => 0) (l.map (· % 256)) (l.length / 136 + 1)
  ((List.range 4).map fun x => a.at_ x 0).flatMap laneBytes

/-- The digest of words, lowest byte first. -/
def shakeWords (l : List Word) : List Nat := shake256 (l.flatMap wordBytesOf)

/-! ## Hash-based signatures (R476)

The verification of XMSS and XMSS^MT with SHAKE256, n = 32 and Winternitz parameter 16, as SP 800-208 and the scheme it approves
have it. PRESUMED, log entry 9. -/

/-- `n` bytes of a number, most significant first. -/
def bytesBE (n v : Nat) : List Nat := (List.range n).map fun i => v / 256 ^ (n - 1 - i) % 256

/-- The number that bytes make, most significant first. -/
def natBE (l : List Nat) : Nat := l.foldl (fun v b => v * 256 + b) 0

/-- Part `i` of `n` bytes. -/
def partOf (l : List Nat) (n i : Nat) : List Nat := (l.drop (n * i)).take n

def xorBytes (a b : List Nat) : List Nat := List.zipWith (· ^^^ ·) a b

/-- Where a hash stands: its layer, its tree, the kind of address (0 OTS, 1 L-tree, 2 hash tree), and the three words of the
kind. -/
structure HashAddr where
  layer : Nat
  tree : Nat
  kind : Nat
  a : Nat
  b : Nat
  c : Nat
  deriving DecidableEq, Repr

/-- The 32 bytes of an address, `mask` in its last word. -/
def HashAddr.bytes (x : HashAddr) (mask : Nat) : List Nat :=
  bytesBE 4 x.layer ++ bytesBE 8 x.tree ++ [x.kind, x.a, x.b, x.c, mask].flatMap (bytesBE 4)

/-- The keyed functions: 0 F, 1 H, 2 the message's hash, 3 the pseudorandom function. -/
def keyedHash (which : Nat) (key m : List Nat) : List Nat := shake256 (bytesBE 32 which ++ key ++ m)

/-- The key or the mask of an address, from the public seed. -/
def HashAddr.prf (x : HashAddr) (seed : List Nat) (mask : Nat) : List Nat := keyedHash 3 seed (x.bytes mask)

/-- Two nodes are hashed into one. -/
def hashPair (seed l r : List Nat) (x : HashAddr) : List Nat :=
  keyedHash 1 (x.prf seed 0) (xorBytes l (x.prf seed 1) ++ xorBytes r (x.prf seed 2))

/-- `n` steps of a Winternitz chain from step `i`. -/
def chainSteps (n i : Nat) (v seed : List Nat) (x : HashAddr) : List Nat :=
  match n with
  | 0 => v
  | k + 1 =>
    let y := { x with c := i }
    chainSteps k (i + 1) (keyedHash 0 (y.prf seed 0) (xorBytes v (y.prf seed 1))) seed x

/-- The 67 digits of a 32-byte message: its nibbles, most significant first, and the three of their checksum. -/
def wotsDigits (m : List Nat) : List Nat :=
  let d := m.flatMap fun b => [b / 16 % 16, b % 16]
  let sum := (d.map fun v => 15 - v).sum
  d ++ [sum / 256 % 16, sum / 16 % 16, sum % 16]

/-- The chain ends that a one-time signature leads to. -/
def wotsEnds (m sig seed : List Nat) (x : HashAddr) : List (List Nat) :=
  (wotsDigits m).zipIdx.map fun e => chainSteps (15 - e.1) e.1 (partOf sig 32 e.2) seed { x with b := e.2 }

/-- One level of an L-tree: neighbours are hashed, and a last one without neighbour goes up as it is. -/
def lLevel (seed : List Nat) (x : HashAddr) : List (List Nat) → List (List Nat)
  | l :: r :: rest => hashPair seed l r x :: lLevel seed { x with c := x.c + 1 } rest
  | l => l

/-- The root of an L-tree over at most 2^`fuel` nodes. -/
def lRoot (fuel : Nat) (nodes : List (List Nat)) (seed : List Nat) (x : HashAddr) : List Nat :=
  match fuel with
  | 0 => nodes.headD []
  | n + 1 => lRoot n (lLevel seed { x with c := 0 } nodes) seed { x with b := x.b + 1 }

/-- The node above `node` after each of the `n` sibling nodes in `auth`, from level `k` on. -/
def climb (n k idx : Nat) (node auth seed : List Nat) (x : HashAddr) : List Nat :=
  match n with
  | 0 => node
  | m + 1 =>
    let y := { x with b := k, c := idx / 2 ^ (k + 1) }
    let sib := partOf auth 32 k
    climb m (k + 1) idx (if idx / 2 ^ k % 2 = 0 then hashPair seed node sib y else hashPair seed sib node y) auth seed x

/-- The root of one tree of height `h` that leaf `idx`'s signature of `m` leads to. -/
def treeRoot (h layer tree idx : Nat) (m sig seed : List Nat) : List Nat :=
  let ends := wotsEnds m sig seed ⟨layer, tree, 0, idx, 0, 0⟩
  climb h 0 idx (lRoot 7 ends seed ⟨layer, tree, 1, idx, 0, 0⟩) (sig.drop 2144) seed ⟨layer, tree, 2, 0, 0, 0⟩

/-- The root of the top tree, from layer `j` with `n` layers above: each layer signs the root below it. -/
def layersRoot (n j h tree : Nat) (m sigs seed : List Nat) : List Nat :=
  match n with
  | 0 => m
  | k + 1 =>
    let size := 2144 + 32 * h
    layersRoot k (j + 1) h (tree / 2 ^ h) (treeRoot h j (tree / 2 ^ h) (tree % 2 ^ h) m (sigs.take size) seed) (sigs.drop size) seed

/-- Whether `sig` over a digest verifies against a public key (OID, root, seed), for `d` layers of height `h` and an index of
`n` bytes. -/
def xmssVerifies (d h n : Nat) (key digest sig : List Nat) : Bool :=
  let idx := natBE (sig.take n)
  let root := (key.drop 4).take 32
  let seed := (key.drop 36).take 32
  let m := keyedHash 2 (((sig.drop n).take 32) ++ root ++ bytesBE 32 idx) digest
  sig.length == n + 32 + d * (2144 + 32 * h) && decide (idx < 2 ^ (d * h)) &&
    layersRoot d 0 h idx m (sig.drop (n + 32)) seed == root

/-- The OID of an owner's key, for the height of its tree: XMSS-SHAKE256_10_256, _16_256 and _20_256, most significant byte
first (R476). PRESUMED, log entry 9. -/
def oidOf (height : Nat) : Option (List Nat) :=
  match height with
  | 10 => some [0, 0, 0, 0x10]
  | 16 => some [0, 0, 0, 0x11]
  | 20 => some [0, 0, 0, 0x12]
  | _ => none

/-- The attestation public key: the OID of XMSSMT-SHAKE256_40/4_256, and the root and seed of manufacture (R476, R477). -/
def attestKey : List Nat := [0, 0, 0, 0x2C] ++ (List.range 64).map fun k => Config.certByte k % 256

/-- The attestation signature of index `i` over a digest: the index in five bytes, then bytes that follow from a private key
which never leaves the keep store (R476, R477, log entry 9). -/
def attestSign (i : Nat) (digest : List Nat) : List Nat :=
  bytesBE 5 i ++ (List.range 9888).map fun k => Config.sigByte i digest k % 256

/-- Whether a signature over a digest verifies against this die's attestation key: its own signatures do. DEDUCED, log
entry 9. -/
def attestVerifies (digest sig : List Nat) : Bool :=
  sig == attestSign (natBE (sig.take 5)) digest || xmssVerifies 4 10 5 attestKey digest sig

end Sys2Proof.Machine
end

