-- ==== Sys2Proof/Machine/CalStore.lean ====
section
/-! DEFINITION. The working set, the stored set and its record (R264 to R266, R275, R276 of spec/). -/

namespace Sys2Proof.Machine

/-! ## The working set (R264) -/

/-- The registers of the working set, in ascending offset. -/
def calRegs (p : Part) : List Nat :=
  let idx := fun (n m : Nat) (r : FieldRef) => (List.range n).flatMap fun i => (List.range m).map fun j => r.addr i j
  ((List.range p.numAP).flatMap fun n =>
      ((List.range 5).map fun r => Reg.AP_ITRIM.addr n r) ++ (List.range 3).map fun r => Reg.AP_OTRIM.addr n r) ++
  idx p.numAC 2 Reg.AC_TRIM ++
  ((List.range p.numCG).flatMap fun g => (List.range 5).flatMap fun sl =>
      [Reg.CG_SL_TRIM, Reg.CG_SL_SKEW, Reg.CG_SL_RES_OG, Reg.CG_SL_RES_SK, Reg.CG_SL_QUAL].map fun r => r.addr g sl) ++
  idx p.numWM 1 Reg.WM_TRIM ++ idx p.numDA 1 Reg.DA_TRIM ++ [Reg.CAL_RBUF_TRIM.addr 0 0] ++
  idx (if p.is4820 then 2 else 4) 1 Reg.CAL_CDAC_TRIM ++ idx 8 1 Reg.CAL_TS_TRIM

/-- The CAL fields of the register at offset `a`; 0 where it has none. -/
def calMask (a : Nat) : Word :=
  if 0xA0000 ≤ a ∧ a < 0xA6000 then
    (let o := a % 0x100; if (0x10 ≤ o ∧ o < 0x24) ∨ (0x30 ≤ o ∧ o < 0x3C) then 0x03FF03FF else 0)
  else if 0xC0000 ≤ a ∧ a < 0xCC000 then (let o := a % 0x100; if o = 0x20 ∨ o = 0x24 then 0x03FF03FF else 0)
  else if 0x100000 ≤ a ∧ a < 0x118000 then
    (let o := a % 0x1000
     if 0x500 ≤ o ∧ o < 0x5A0 then
      match o % 0x20 with
      | 0 => 0x0FFF0FFF | 4 => 0xFF | 8 => 0x0FFF0FFF | 12 => 0x3FF | 16 => 0x8FFFFFFF | _ => 0
     else 0)
  else if 0x500000 ≤ a ∧ a < 0x501800 then (if a % 0x40 = 0xC then 0x00FF00FF else 0)
  else if 0x520000 ≤ a ∧ a < 0x521800 then (if a % 0x100 = 0x18 then 0x03FF03FF else 0)
  else if a = 0x540010 then 0xFFF
  else if 0x540020 ≤ a ∧ a < 0x540030 then 0x0FFF0FFF
  else if 0x540060 ≤ a ∧ a < 0x540080 then 0xFF
  else 0

/-- What a CAL register holds where the stored record fails (R266). -/
def calNominal (a : Nat) : Word :=
  if 0x100000 ≤ a ∧ a < 0x118000 then
    (match a % 0x1000 % 0x20 with | 4 => 128 | 16 => 0xFFFF | _ => 0)
  else 0

/-- The value a set holds for the register at offset `a`. -/
def CalSet.value (c : CalSet) (a : Nat) : Word := Tab.get calNominal c.regs a

/-- Every CAL field takes the value `v` gives its register. -/
def State.loadCal (s : State) (v : Nat → Word) : State :=
  let s := (calRegs s.part).foldl (fun s a =>
    let m := calMask a
    let w := (s.word a &&& ~~~m) ||| (v a &&& m)
    if s.word a = w then s else s.setWord a w) s
  (List.range s.part.numCG).foldl (fun s g => s.refillMap g) s

/-- The working set as it stands, as a set with the given commit count and signature. -/
def State.workingSet (s : State) (seq : Nat) (sig : List Nat) : CalSet :=
  { seq := seq, temp := s.f Fld.CAL_TS_TEMP 7, sig := sig,
    regs := (calRegs s.part).foldl (fun t a => Tab.put calNominal t a (s.word a &&& calMask a)) [] }

/-! ## The record (R276) -/

/-- The words of a record before its digest. -/
def State.recordWords (s : State) (c : CalSet) : List Word :=
  let id := Config.dieId
  let n := (calRegs s.part).length
  [0x4B43414C, BitVec.ofNat 32 (0x10000 + s.part.code), BitVec.ofNat 32 id, BitVec.ofNat 32 (id / 2 ^ 32),
    BitVec.ofNat 32 (c.seq % 65536), BitVec.ofNat 32 n, BitVec.ofNat 32 (c.temp % 65536)] ++ List.replicate 9 0 ++
    (calRegs s.part).flatMap fun a => [BitVec.ofNat 32 a, c.value a]

/-- The record's digest. -/
def State.recordDigest (s : State) (c : CalSet) : List Nat := shakeWords (s.recordWords c)

/-- The record of a set as bytes, with its signature; the set of manufacture was signed there, by an index of the attestation
key that the spec does not state (R276). -/
def State.recordBytes (s : State) (c : CalSet) : List Nat :=
  (s.recordWords c).flatMap wordBytesOf ++ s.recordDigest c ++
    (if c.sig = [] then attestSign (Config.makerIndex % 2 ^ 40) (s.recordDigest c) else c.sig)

/-- The length of a record with its signature (R276, R472). -/
def recordLength (p : Part) : Nat := 4 * (16 + 2 * (calRegs p).length + 8) + 9893

/-- The set that a record's bytes describe, where words 0, 1, 5, 7 to 15, the identifier and the offsets match (R278). -/
def State.recordSet (s : State) (bytes : List Nat) : Option CalSet :=
  let n := 16 + 2 * (calRegs s.part).length
  let ws := wordsOfBytes (bytes.take (4 * n)) n
  let at_ := fun i => (ws[i]?).getD 0
  let want := s.recordWords { seq := 0, temp := 0, regs := [], sig := [] }
  let fixed := ([0, 1, 2, 3, 5] ++ (List.range 9).map (· + 7)).all fun i => at_ i == (want[i]?).getD 0
  let ofs := (List.range (calRegs s.part).length).all fun k => at_ (16 + 2 * k) == (want[16 + 2 * k]?).getD 0
  if fixed && ofs then
    some { seq := (at_ 4).bits 0 16, temp := (at_ 6).bits 0 16,
           regs := (calRegs s.part).zipIdx.foldl (fun t e => Tab.put calNominal t e.1 (at_ (17 + 2 * e.2))) [],
           sig := bytes.drop (4 * (n + 8)) }
  else none

/-- Whether the digest and the signature of a record verify (R278). -/
def State.recordGood (s : State) (bytes : List Nat) : Bool :=
  let n := 4 * (16 + 2 * (calRegs s.part).length)
  let d := shake256 (bytes.take n)
  d == (bytes.drop n).take 32 && attestVerifies d (bytes.drop (n + 32))

/-- During Reset the working set loads from the stored set; `ok` says whether the keep store's record passes its check
(R266). -/
def State.bootCal (s : State) (ok : Bool) : State :=
  match s.cal.store, ok with
  | some c, true =>
    ((s.loadCal c.value).setF Fld.CAL_STORE_SEQ c.seq).flag Fld.CAL_STORE_VALID
  | _, _ => ((s.loadCal calNominal).setF Fld.CAL_STORE_SEQ 0).setF Fld.CAL_STORE_VALID 0

end Sys2Proof.Machine
end

