-- ==== Sys2Proof/Machine/LcsClock.lean ====
section
/-! DEFINITION. The PLL and the trackers' state changes, with what they do outside Longcase (R58, R63, R64, R126, R213,
R241, R249 of spec/). -/

namespace Sys2Proof.Machine

/-- The turns locked to reference `n` end where it has left Locked and Coasting. -/
def State.followRef (s : State) (was : TrkState) (n : Nat) : State :=
  if was.tracking && !(s.trk n).state.tracking then s.rsRefLost n else s

/-- `k` acts on reference `n`, and the blocks that follow it see a loss. -/
def State.onRef (s : State) (n : Nat) (k : State → State) : State := (k s).followRef (s.trk n).state n

/-- A write to reference `n`, which may clear the EN of its pair's odd reference as well (R61). -/
def State.onPair (s : State) (n : Nat) (k : State → State) : State :=
  let t := s.onRef n k
  if n % 2 = 0 then t.followRef (s.trk (n + 1)).state (n + 1) else t

/-- Every reference that has stopped tracking ends the turns locked to it. -/
def State.followRefs (s : State) (before : State) : State :=
  (List.range 8).foldl (fun s n => s.followRef (before.trk n).state n) s

/-- What a reference and an alarm keep of instants before LCS_TIME started anew. -/
def Tracker.anew (t : Tracker) : Tracker := { t with t0 := 0, keptMain := none, keptIndex := none, lastRaw := none, past := [] }
def Alarm.anew (a : Alarm) : Alarm := { a with enTick := 0, lastTick := none }
/-- A firing and a monitor whose instants keep their distance to the present when LCS_TIME starts anew at 0 from `old`. -/
def FiringRec.anew (old : Nat) (r : FiringRec) : FiringRec := { r with tick := r.tick - old }
def Monitor.anew (old : Nat) (m : Monitor) : Monitor :=
  { m with
    held := m.held.map fun e => { e with stamp := e.stamp - 64 * old },
    windows := m.windows.map fun w => ⟨w.opened - 64 * old, w.closed.map fun c => c - 64 * old⟩,
    resyncs := m.resyncs.map fun t => t - 64 * old, latchLog := [],
    inbox := m.inbox.map (FiringRec.anew old) }

/-- LCS_TIME has started anew at 0 from `old` (log entry 14). -/
def State.rebase (s : State) (old : Nat) : State :=
  let l := s.lcs
  let s := { s with
    lcs := { l with
      trackers := (l.trackers.map fun e => (e.1, e.2.anew)).filter fun e => e.2 != Tracker.init,
      alarms := (l.alarms.map fun e => (e.1, e.2.anew)).filter fun e => e.2 != Alarm.init,
      firings := l.firings.map (FiringRec.anew old), actions := l.actions.map (FiringRec.anew old),
      pulsed := l.pulsed.map fun e => (e.1 - old, e.2) },
    pwr := { s.pwr with wakeSeen := none, lastRun := none }, twin := { s.twin with foUntil := none },
    monitors := (s.monitors.map fun e => (e.1, e.2.anew old)).filter fun e => e.2 != Monitor.init }
  (List.range s.part.numCG).foldl (fun s g =>
    let x := s.group g
    let r := x.rot
    s.setGroup g { x with lastEdge := none, marksAhead := [], rot := { r with notBefore := r.notBefore - old } }) s

/-- The first lock: time starts from 0 (R55). DEDUCED, log entry 14. -/
def State.firstLock (s : State) : State :=
  if s.lcs.pll = .waiting ∧ s.mode ≠ .reset then (((s.pllLock).followRefs s).rebase s.lcs.time).wmRelock.restartAz else s

/-- What a relock does beside R58: references of the groups fall, playback is abandoned, gated outputs follow. -/
def State.relock (s : State) : State :=
  if s.lcs.pll = .lost then
    let t := (s.pllRelock).followRefs s
    let t := (List.range t.part.numCG).foldl (fun t g => t.refFalls g) t
    let t := ((t.abandonDacs).wmRelock).restartAz
    if t.mode = .run ∨ t.mode = .partialRun ∨ t.mode = .doze then t.resumeDacs else t
  else s

def execPllLock (s : State) : Out := .next (s.firstLock)
def execPllLockLoss (s : State) : Out := .next (s.pllLost)
def execPllRelock (s : State) : Out := .next (s.relock)

/-- A sample-clock edge is stamped (R56): with the first one after a stall SCLK runs again, and the auto-zero cycles with it.
DESIGN CHOICE, log entry 45. -/
def execSmpclkStamp (stamp : Nat) (s : State) : Out :=
  if s.f Fld.LCS_CTL_CLKSRC = 2 then
    .next (if s.lcs.smpStalled then
      ({ s with lcs := { s.lcs with smpStalled := false } } : State).restartAz.smpStamp stamp else s.smpStamp stamp)
  else .next s

def execEdgeProcessing (n : Nat) (s : State) : Out :=
  onInst n 8 (.next (if s.lclk then s.onRef n fun s => s.processEdge n else s))
def execCoastEntry (n tick : Nat) (s : State) : Out :=
  onInst n 8 (.next (if s.lclk then s.onRef n fun s => s.enterCoast n tick else s))
def execCoastLimit (n tick : Nat) (s : State) : Out :=
  onInst n 8 (.next (if s.lclk then s.onRef n fun s => s.endCoast n tick else s))
def execPrEnable (n : Nat) (en : Bool) (s : State) : Out := hostRow (
  onInst n 8 (.next (s.lcsWrite (Fld.PR_CFG_EN.addr n 0) fun s => s.onPair n fun s => s.enableRef n en)))

end Sys2Proof.Machine
end

