-- ==== Sys2Proof/Machine/Rings.lean ====
section
/-! DEFINITION. Capture rings: page directory, pointers, block writes, admission, downstream fetches (chapter 16 of spec/). -/

namespace Sys2Proof.Machine

/-! ## The page directory (R397 to R399) -/

def State.pd (s : State) (i : Nat) : Nat := Tab.get (fun _ => 0) s.pdir i

/-- The number of 2 MiB entries that `n` bytes from byte `o` of the first one take. -/
def pagesOf (o n : Nat) : Nat := (o + n + 2 ^ 21 - 1) / 2 ^ 21

/-- The entries of a ring's data area, and of its record area, as first entry and count. -/
def State.dataArea (s : State) (r : Nat) : Nat × Nat := (s.f Fld.DMA_DATA_DPG r, s.f Fld.DMA_DATA_NPG_M1 r + 1)
def State.recArea (s : State) (r : Nat) : Nat × Nat :=
  (s.f Fld.DMA_REC_RPG r, pagesOf (4096 * s.f Fld.DMA_REC_ROFS r) (32 * s.nblk r))

/-- The areas of ring `r`. -/
def State.areas (s : State) (r : Nat) : List (Nat × Nat) :=
  if s.downstream r then [s.dataArea r] else [s.dataArea r, s.recArea r]

/-- Whether an admitted ring uses entry `i`. -/
def State.entryUsed (s : State) (i : Nat) : Bool :=
  s.admittedRings.any fun r => (s.areas r).any fun a => decide (a.1 ≤ i ∧ i < a.1 + a.2)

/-- The host address of byte `o` counted from the start of entry `i`. -/
def State.pageAddr (s : State) (i o : Nat) : Nat := s.pd (i + o / 2 ^ 21) / 2 ^ 21 * 2 ^ 21 + o % 2 ^ 21

/-- A write to DMA_PDIR_LO is held. -/
def State.pdirLo (s : State) (w : Word) : State := s.setWord (Reg.DMA_PDIR_LO.addr 0 0) (w &&& 0xFFE00001)

/-- A write to DMA_PDIR_HI commits the entry, unless an admitted ring uses it (R398), and IDX advances. -/
def State.pdirHi (s : State) (w : Word) : State :=
  let i := s.f Fld.DMA_PDIR_IDX
  let v := w.toNat * 2 ^ 32 + (s.word (Reg.DMA_PDIR_LO.addr 0 0)).toNat
  let s' := if s.pd i = v then s
    else if s.entryUsed i then s.flag Fld.DMA_STAT_WR_IGN
    else { s with pdir := Tab.put (fun _ => 0) s.pdir i v }
  s'.setF Fld.DMA_PDIR_IDX (i + 1)

/-! ## Pointers (R400, R401) -/

/-- A host write of TAIL of an upstream ring. -/
def State.writeTail (s : State) (r : Nat) (w : Word) : State :=
  let new := (w.toNat + 2 ^ 32 - s.f Fld.DMA_TAIL r) % 2 ^ 32
  if s.admitted r ∧ ¬ s.downstream r ∧ new ≤ s.ringFill r then s.setF Fld.DMA_TAIL w.toNat r
  else s.flag Fld.DMA_RSTAT_BADPTR r

/-- A host write of HEAD of a downstream ring. -/
def State.writeHead (s : State) (r : Nat) (w : Word) : State :=
  let new := (w.toNat + 2 ^ 32 - s.f Fld.DMA_TAIL r) % 2 ^ 32
  let step := (w.toNat + 2 ^ 32 - s.f Fld.DMA_HEAD r) % 2 ^ 32
  if s.admitted r ∧ s.downstream r ∧ new ≤ s.nblk r ∧ step ≤ 2 ^ 31 then s.setF Fld.DMA_HEAD w.toNat r
  else s.flag Fld.DMA_RSTAT_BADPTR r

/-! ## When a ring may act -/

/-- Whether ring `r` may issue requests (R453). -/
def State.dmaMay (s : State) (r : Nat) : Bool :=
  let f := s.f Fld.DMA_CFG_FUNC r
  s.on Fld.HOST_LINK_UP && (s.func f).busMaster && !(s.func f).d3 && (f == 0 || decide (f ≤ s.f Fld.HOST_NUMVF)) &&
    !s.twin.fenced

/-! ## Records (R405, R406) -/

/-- The flags of a block. -/
def State.blockFlags (s : State) (r : Nat) (b : RingBlock) : Nat :=
  let any := fun (p : StreamWord → Bool) => b.words.any fun e => p e.1
  let bit := fun (n : Nat) (p : Bool) => if p then 2 ^ n else 0
  bit 0 (any (·.ovr) && !s.on Fld.DEV_COMPAT_HERITAGE) + bit 1 (any (·.settling)) + bit 2 (any (·.handover)) +
    bit 3 (any (·.refUnset)) + bit 4 (any (·.failover) || b.failover) + bit 5 b.dropped + bit 6 (any (·.mark)) +
    bit 7 (decide (b.words.length < s.ringW r)) + bit 8 b.first

/-- The eight words of a block's record. -/
def State.blockRecord (s : State) (r : Nat) (b : RingBlock) : List Nat :=
  let idx := (match b.words with | e :: _ => e.1.index | [] => 0) % 2 ^ 48
  let st := b.stamp
  let marks := b.words.countP fun e => e.1.mark
  let ofs := if marks = 0 then 0 else b.words.findIdx (fun e => e.1.mark) + 1
  let pref := if s.ringClass r = 0 then 0 else s.f Fld.DMA_CFG_PREF r
  [idx % 2 ^ 32,
   s.blockFlags r b * 2 ^ 16 + idx / 2 ^ 32,
   b.seq,
   st.epoch % 256 * 2 ^ 24 + st.state * 2 ^ 19 + pref * 2 ^ 16 + st.arr.toNat * 2 ^ 13 +
     (s.ringW r == 1024).toNat * 2 ^ 12 + b.words.length % 4096,
   st.turn,
   st.frac,
   (st.fine.toNat / 64) % 2 ^ 32,
   min 15 marks * 2 ^ 28 + ofs % 4096 * 2 ^ 16 + st.fine.toNat % 64]

/-! ## Writing blocks (R404, R418) -/

/-- Bytes go to host memory from address `a` on. DESIGN CHOICE, log entry 35. -/
def State.hostWrite (s : State) (a : Nat) (bytes : List Nat) : State :=
  { s with hostMem := (bytes.zipIdx a).foldl (fun m e => Tab.put (fun _ => 0) m (e.2 % 2 ^ 64) (e.1 % 256)) s.hostMem }

/-- The little-endian bytes of a number. -/
def bytesLE (n v : Nat) : List Nat := (List.range n).map fun i => v / 256 ^ i % 256

/-- A block of ring `r` goes to host memory, its record after it, and HEAD advances. -/
def State.issueBlock (s : State) (r : Nat) (b : RingBlock) : State :=
  let j := b.seq % s.nblk r
  let data := b.words.flatMap fun e => bytesLE (s.wordBytes r) e.1.val
  let s := s.hostWrite (s.pageAddr (s.f Fld.DMA_DATA_DPG r) (4096 * j)) data
  let s := s.hostWrite (s.pageAddr (s.f Fld.DMA_REC_RPG r) (4096 * s.f Fld.DMA_REC_ROFS r + 32 * j))
    ((s.blockRecord r b).flatMap fun v => bytesLE 4 v)
  let x := s.ring r
  let s := s.setRing r { x with written := x.written + b.words.length }
  (s.setF Fld.DMA_HEAD (b.seq + 1) r).countBlock r

/-- TWN_RPL follows the replay buffer. -/
def State.replayLevel (s : State) : State :=
  let n := s.twin.replay.length
  (s.setF Fld.TWN_RPL_LEVEL n).setF Fld.TWN_RPL_PEAK (max n (s.f Fld.TWN_RPL_PEAK))

/-- The standby's ledger goes past a block of ring `r`: HEAD and WRITTEN (R527). -/
def State.passBlock (s : State) (r : Nat) (b : RingBlock) : State :=
  let x := s.ring r
  (s.setRing r { x with written := x.written + b.words.length }).setF Fld.DMA_HEAD (b.seq + 1) r

/-- Whether a heartbeat has named block `b` of ring `r`, or a later one. -/
def State.named (s : State) (r : Nat) (b : RingBlock) : Bool :=
  let q := Tab.get (fun _ => 0) s.twin.lastHb r
  q != 0 && decide ((q - 1 + 2 ^ 32 - b.seq) % 2 ^ 32 < 2 ^ 31)

/-- The named blocks of ring `r` leave the replay buffer (R527). -/
def State.confirm (s : State) (r : Nat) : State :=
  let gone := s.twin.replay.filter fun e => e.1 == r && s.named r e.2
  let keep := s.twin.replay.filter fun e => !(e.1 == r && s.named r e.2)
  let s := { s with twin := { s.twin with replay := keep } }
  (gone.foldl (fun s e => s.passBlock r e.2) s).replayLevel

/-- On the standby a closed block enters the replay buffer; a full one loses its oldest block (R527), which the ledger then
goes past. DEDUCED, log entry 41. -/
def State.toReplay (s : State) (r : Nat) (b : RingBlock) : State :=
  let l := s.twin.replay
  let put := fun (s : State) (l : List (Nat × RingBlock)) =>
    (({ s with twin := { s.twin with replay := l ++ [(r, b)] } } : State).replayLevel).confirm r
  match l with
  | [] => put s []
  | e :: rest => if 64 ≤ l.length then put ((s.passBlock e.1 e.2).flag Fld.TWN_IRQ_RPL_OVF) rest else put s l

/-- The oldest closed block of ring `r` leaves. -/
def State.writeBlock (s : State) (r : Nat) : State :=
  let x := s.ring r
  match x.closed with
  | [] => s
  | b :: rest =>
    let t := s.setRing r { x with closed := rest }
    if s.standby then t.toReplay r b
    else if s.dmaMay r then t.issueBlock r b
    else s

/-- Whether ring `r` waits to write a closed block. -/
def State.wantsWrite (s : State) (r : Nat) : Bool :=
  s.admitted r && s.ringLive r && !(s.ring r).closed.isEmpty && (s.standby || s.dmaMay r)

/-- Whether the next block to be written is one of ring `r` (R504). -/
def State.writeTurn (s : State) (r : Nat) : Bool := roundRobin 4096 s.arb.up (s.admittedRings.filter s.wantsWrite) r

/-- Ring `r` is granted the write of a block, where it waits for one and its turn has come. -/
def State.grantWrite (s : State) (r : Nat) : State :=
  if s.wantsWrite r ∧ s.writeTurn r then (({ s with arb := { s.arb with up := r } } : State).writeBlock r).pump else s

/-- Every closed block of ring `r` leaves, where it may. -/
def State.writeBlocks (s : State) (r fuel : Nat) : State :=
  match fuel with
  | 0 => s
  | n + 1 => (s.writeBlock r).writeBlocks r n

/-- Entry to Slumber: every open block is closed and written (R419). -/
def State.flushRings (s : State) : State :=
  s.admittedRings.foldl (fun s r => if s.downstream r then s else (s.closeBlock r).writeBlocks r 4) s

/-! ## Admission (R411 to R414) -/

/-- Whether a source code names an instance that the part does not have. -/
def sourceFusedOff (p : Part) (c : Nat) : Bool :=
  match c / 4096 with
  | 1 => decide (p.numCG ≤ c % 4096 / 4)
  | 2 => decide (p.numFC ≤ c % 4096)
  | 3 => decide (p.numCB ≤ c % 4096 / 4)
  | _ => false

/-- The budget that a ring of direction `down` is charged against; in a pair the smaller of the two dies' (R524). -/
def State.budget (s : State) (peer : Nat) : Nat :=
  if s.on Fld.TWN_STAT_PAIRED then min (s.f Fld.DMA_BUDGET) peer else s.f Fld.DMA_BUDGET

/-- The status of RING_ADMIT for ring `r` (R413); a downstream ring ignores SRC, a fused-off one too (R415). DESIGN CHOICE, log
entry 46. -/
def State.admitStatus (s : State) (r peer : Nat) : Nat :=
  let down := s.downstream r
  let src := s.f Fld.DMA_CFG_SRC r
  let badArea := (s.areas r).any fun a =>
    decide (65536 < a.1 + a.2) || (List.range a.2).any fun i => s.pd (a.1 + i) % 2 == 0
  if !down && sourceFusedOff s.part src then 0x0D
  else if 4096 ≤ r ∨ s.admitted r ∨ s.f Fld.DMA_RATE r = 0 ∨ (s.on Fld.DMA_CFG_POLICY r ∧ (down ∨ src / 4096 ≠ 3)) ∨
      (¬ down ∧ src ≠ 0 ∧ ¬ ConsumerKind.ring.accepts (src / 4096)) ∨ badArea then 0x02
  else if s.budget peer < s.f (if down then Fld.DMA_DNSUM else Fld.DMA_UPSUM) + s.ringCharge r then 0x03
  else 0

/-- Ring `r` is admitted; its count of blocks goes on to its next BLK event (R418). -/
def State.admitRing (s : State) (r : Nat) : State :=
  let s := s.setRing r { Ring.init with first := true, tokens := 8192000, blkCount := (s.ring r).blkCount }
  let s := ((s.flag Fld.DMA_RSTAT_ADMITTED r).setF Fld.DMA_HEAD 0 r).setF Fld.DMA_TAIL 0 r
  let s := s.addCharge r true
  let s := { s with twin := { s.twin with lastHb := Tab.put (fun _ => 0) s.twin.lastHb r 0 } }
  if s.downstream r then s
  else s.setFeed (feedRing r) { src := s.f Fld.DMA_CFG_SRC r, inq := [], fresh := true }

/-- Ring `r` is retired by RING_RETIRE (R414); a block that may not be written counts as dropped. DEDUCED, log entry 36. -/
def State.endRing (s : State) (r : Nat) : State :=
  let s := s.detachRing r
  let s := if s.downstream r then s else ((s.closeBlock r).writeBlocks r 4)
  let x := s.ring r
  let lost := (x.closed.map fun b => b.words.length).sum + x.arrived.length + x.late.length
  let s := (s.passTail r).setRing r { Ring.init with
    produced := x.produced + x.late.length, written := x.written, droppedCnt := x.droppedCnt + lost,
    blkCount := ((s.passTail r).ring r).blkCount }
  (s.addCharge r false).setF Fld.DMA_RSTAT_ADMITTED 0 r

/-! ## Downstream fetches (R415, R449) -/

/-- The requests that one block takes. -/
def State.requestsPerBlock (s : State) : Nat := 4096 / (128 * 2 ^ min 5 (s.f Fld.HOST_LINK_MRRS))

/-- Whether ring `r` waits to ask for a block: it has room for the whole of it, and the device for its completions. -/
def State.wantsFetch (s : State) (r : Nat) : Bool :=
  let x := s.ring r
  let ahead := x.asked + (x.arrived.length + 2047) / 2048
  let asked := s.rings.foldl (fun n e => n + e.2.asked) 0
  s.admitted r && s.downstream r && s.dmaMay r && s.ringLive r && decide (ahead < 2) && decide (ahead < s.ringFill r) &&
    decide ((asked + 1) * s.requestsPerBlock ≤ 256) && !s.sourceHeld (downCode r)

/-- Whether the next block to be asked for is one of ring `r` (R504). -/
def State.fetchTurn (s : State) (r : Nat) : Bool := roundRobin 4096 s.arb.down (s.admittedRings.filter s.wantsFetch) r

/-- Ring `r` asks for its next block, where its turn has come. -/
def State.fetch (s : State) (r : Nat) : State :=
  if s.wantsFetch r ∧ s.fetchTurn r then
    { s.setRing r { s.ring r with asked := (s.ring r).asked + 1 } with arb := { s.arb with down := r } }
  else s

/-- A block of 4 KiB arrives for ring `r`; in Bench, where the ledger stands, it waits to be counted (R36). -/
def State.fetched (s : State) (r : Nat) (data : List Nat) : State :=
  let x := s.ring r
  let words := (List.range 2048).map fun i => (data[2 * i]?).getD 0 % 256 + 256 * ((data[2 * i + 1]?).getD 0 % 256)
  if s.ringLive r then
    (s.setRing r { x with asked := x.asked - 1, arrived := x.arrived ++ words, produced := x.produced + 2048 }).pumpRing r 4096
  else s.setRing r { x with asked := x.asked - 1, late := x.late ++ words }

/-! ## The ledger -/

/-- DMAr_SNAP: the three counts are latched (R410). -/
def State.snapRing (s : State) (r : Nat) : State :=
  let x := s.ring r
  let s := s.setPair Fld.DMA_PRODUCED_LO Fld.DMA_PRODUCED_HI x.produced r
  let s := s.setPair Fld.DMA_WRITTEN_LO Fld.DMA_WRITTEN_HI x.written r
  s.setPair Fld.DMA_DROPPED_LO Fld.DMA_DROPPED_HI x.droppedCnt r

/-- A ring's configuration register written: ignored while the ring is admitted (R413). -/
def State.writeRingCfg (s : State) (r a : Nat) (v : Word) : State :=
  s.writeIf (s.setWord a v) (!s.admitted r) a fun s => s.flag Fld.DMA_RSTAT_WR_IGN r

/-- DMAr_CFG as it is stored: R19 governs SRC. -/
def dmaCfgStored (w : Word) : Word := (w &&& 0xFFC70000).setBits 0 16 (storedSource .ring (w.bits 0 16))

/-! ## Meanings -/

def execDmaPdirLo (w : Word) (s : State) : Out := hostRow (.next (s.pdirLo w))
def execDmaPdirHi (w : Word) (s : State) : Out := hostRow (.next (s.pdirHi w))
def execTailWrite (r : Nat) (w : Word) (s : State) : Out := hostRow (onInst r 4096 (.next ((s.writeTail r w).pump)))
def execHeadWrite (r : Nat) (w : Word) (s : State) : Out := hostRow (onInst r 4096 (.next (s.writeHead r w)))
/-- DESIGN CHOICE, log entry 35. -/
def execRingWord (r ns : Nat) (at_ : Int) (s : State) : Out :=
  onInst r 4096 (.next (if s.ringLive r then (s.ringWord r ns at_).pump else s))
/-- DESIGN CHOICE, log entry 35. -/
def execAgeClose (r : Nat) (s : State) : Out :=
  onInst r 4096 (.next (if s.f Fld.DMA_MOD_AGE r ≠ 0 ∧ ¬ s.standby ∧ s.ringLive r then s.closeBlock r else s))
/-- DESIGN CHOICE, log entry 35. -/
def execBlockWrite (r : Nat) (s : State) : Out :=
  onInst r 4096 (.next (s.grantWrite r))
def execBlkHold (r : Nat) (s : State) : Out :=
  onInst r 4096 (.next (
    if s.f Fld.DMA_MOD_HOLD r ≠ 0 ∧ 0 < (s.ring r).blkCount then
      (s.setRing r { s.ring r with blkCount := 0 }).flag Fld.DMA_IRQ_BLK r
    else s))
def execDmaSnap (r : Nat) (s : State) : Out := hostRow (onInst r 4096 (.next (s.snapRing r)))
/-- DESIGN CHOICE, log entry 35. -/
def execRingFetch (r : Nat) (s : State) : Out := onInst r 4096 (.next (s.fetch r))
def execCompletionTimeout (r : Nat) (s : State) : Out :=
  onInst r 4096 (.next (
    if 0 < (s.ring r).asked then (s.flag Fld.HOST_STAT_CPLTO).aer (s.f Fld.DMA_CFG_FUNC r) 14 else s))

end Sys2Proof.Machine
end

