-- ==== Sys2Proof/Machine/Modes.lean ====
section
/-! DEFINITION. The mode machine (chapter 02 of spec/): transitions, what each entry does to every block, Reset. -/

namespace Sys2Proof.Machine

/-! ## Registers that return to their reset values -/

/-- The registers for which `p` holds return to their reset values, but for the bits that `keep` names. -/
def State.resetRegs (s : State) (p : Nat → Bool) (keep : Nat → Word) : State :=
  let one : Nat × Word → Option (Nat × Word) := fun e =>
    if p e.1 then
      let m := keep e.1
      let w := (e.2 &&& m) ||| (RegMap.resetAt e.1 &&& ~~~m)
      (if w = RegMap.resetAt e.1 then none else some (e.1, w))
    else some e
  { s with regs := s.regs.filterMap one }

/-- The flags of a register that only a write of 1 clears. -/
def flagMask (a : Nat) : Word :=
  match RegMap.row a with
  | some r => r.mask (· == .w1c)
  | none => 0

/-- The bits a register takes by writes. -/
def rwMask (a : Nat) : Word :=
  match RegMap.row a with
  | some r => r.mask (· == .rw)
  | none => 0

/-- The registers of the hard blocks whose configuration a load replaces (R361): ports and cells, groups, chains, DACs, pins
and cabinet boundaries. DEDUCED, log entry 10. -/
def hardReg (a : Nat) : Bool :=
  decide (0xA0000 ≤ a ∧ a < 0xCC300) || decide (0x100000 ≤ a ∧ a < 0x230000 ∧ !(a < 0x118000 ∧ 0x400 ≤ a % 0x1000)) ||
    decide (0x520000 ≤ a ∧ a < 0x521800) || decide (0x680000 ≤ a ∧ a < 0x680420) || decide (0x690000 ≤ a ∧ a < 0x691800)

/-- What such a register keeps: trims, coefficient banks, flags (log entry 10); ports and cells keep everything but what a
write sets, and groups keep REF_SETTLED and REF_FAULT (R115, R126, R143, R200, R257, R333). -/
def hardKeep (a : Nat) : Word :=
  if a < 0xCC300 then ~~~rwMask a ||| calMask a
  else if 0x100000 ≤ a ∧ a < 0x118000 then
    flagMask a ||| (if a % 0x1000 = 8 then 0xFFFFFFFF else 0)
  else if 0x200000 ≤ a ∧ a < 0x230000 then
    if 0x800 ≤ a % 0x1000 ∧ a % 0x1000 < 0xC00 then 0xFFFFFFFF
    else if a % 0x1000 < 0x200 then flagMask a else 0
  else if 0x520000 ≤ a ∧ a < 0x521800 then flagMask a ||| calMask a
  else 0

/-- The groups' lanes and the chains that run stop (R403); the fabric ports stop with their cabinets. -/
def State.stopSources (s : State) : State :=
  let s := (List.range s.part.numCG).foldl (fun s g =>
    if s.on Fld.CG_CTL_EN g then (List.range 4).foldl (fun s l => s.sourceStops (laneCode g l)) s else s) s
  (List.range s.part.numFC).foldl (fun s n =>
    if s.on Fld.FC_CTL_EN n then s.sourceStops (chainCode n) else s) s

/-- Every consumer whose source field has returned to 0 is disconnected, and the configuration controller. -/
def State.unplug (s : State) : State :=
  { s with feeds := s.feeds.filter fun e => decide (0x300 ≤ e.1 ∧ e.1 ≠ feedCfg) }

/-- Groups whose reference selection changes by a reset of their registers see it fall (R126). -/
def State.refSelReset (s : State) : State :=
  (List.range s.part.numCG).foldl (fun s g => if s.f Fld.CG_REF_SEL g = 0 then s else s.refFalls g) s

/-- The ports' monitors settle where APn_CTL changes (R236, R245). -/
def State.portsReset (s : State) : State :=
  (List.range s.part.numAP).foldl (fun s n =>
    let a := Reg.AP_CTL.addr n 0
    if s.word a = RegMap.resetAt a then s else s.wmHold n) s

/-- The hard blocks take their reset values, as at entry to Blank or Load (R40, R115, R143, R200, R257, R333, R361).
DEDUCED, log entry 10. -/
def State.resetHard (s : State) : State :=
  let before := s
  let s := (s.stopSources).refSelReset.portsReset
  let s := s.resetRegs hardReg hardKeep
  let s : State := { s.unplug with
    cells := s.cells.filterMap fun e => e.2.cleared e.1 false,
    groups := s.groups.filterMap fun e =>
      let g : Group := { Group.init with rot := e.2.rot, lastEdge := e.2.lastEdge }
      if g = Group.init then none else some (e.1, g),
    chains := s.chains.filterMap fun e =>
      if e.2.store = [] then none else some (e.1, { Chain.init with store := e.2.store }),
    dacs := s.dacs.filterMap fun e =>
      if e.2.pattern = [] then none else some (e.1, { Dac.init with pattern := e.2.pattern }) }
  s.noteVectors before false before.liveVectors

/-! ## Entry to Blank and to Load -/

/-- The fabric ports of a configured cabinet stop (R403). -/
def State.stopPorts (s : State) (k : Nat) : State :=
  if s.cbState k = 0 then s else (List.range 4).foldl (fun s j => s.sourceStops (portCode k j)) s

/-- Every cabinet becomes EMPTY, its counts and its measurement record clear, its ports and secure channels go (R373, R387,
R394, R403, R425, R429); its ports are reset together (R442); the counts of the hard blocks clear with them. SCRB_PASSES
counts passes, not events, and stays. DESIGN CHOICE, log entry 34. -/
def State.emptyCabs (s : State) : State :=
  let ks := List.range s.part.numCB
  let s := (ks.foldl (fun s k => ((s.stopPorts k).flushBoundary k).clearCrossings k) s).resetPortAgents fun _ => true
  ks.foldl (fun s k =>
    let s := s.freeSecure k
    let s := ((s.setWord (Reg.SCRB_CB_STATE.addr k 0) 0).setWord (Reg.SCRB_CB_SGL.addr k 0) 0).setWord
      (Reg.SCRB_CB_DBL.addr k 0) 0
    let s := s.setF Fld.FAB_CTL_CLKEN 0 k
    s.setCab k { s.cab k with iso := none, released := false, loaded := (false, false), meas := MeasRec.none })
    ((s.setF Fld.SCRB_HB_SGL 0).setF Fld.SCRB_HB_DBL 0)

/-- BAR4 words that stood outside the full FIFO of 1,024 meet no load any longer and are discarded (R357). -/
def State.strayWords (s : State) : State :=
  s.flagIf (decide (s.stream.src = 0 ∧ 1024 < s.stream.waiting.length)) Fld.CFG_STAT_STRAY

/-- No stream is on its way any longer: QSPI_CS_N is high (R358), and what its ring still holds of a block is delivered and
ignored (R416). -/
def State.dropStream (s : State) : State :=
  (({ s.strayWords with stream := { Stream.init with src := s.stream.src } }).connect feedCfg 0).pump

/-- The transaction that a load from `src` begins with the flash (R358): at CFG_QSPI.ADDR, in the clock of CLKDIV. -/
def State.flashRead (s : State) (src : Nat) : Option QspiRead :=
  if src = 2 then some { start := 4 * s.f Fld.CFG_QSPI_ADDR, clkdiv := s.f Fld.CFG_QSPI_CLKDIV, words := 0 } else none

/-- What every entry to Blank does (R40); `frames` says whether the configuration frames go. -/
def State.enterBlank (s : State) (frames : Bool) : State :=
  let s := (s.abandonAll).emptyCabs.resetHard.strayWords
  let s := { s with
    stream := { Stream.init with src := s.stream.src },
    dio := { s.dio with latched := none, ioOn := false }, pins := { s.pins with done := false },
    pwr := { s.pwr with stage := .awake, wakeHeld := false, selfWake := none, armedFor := none, leftAt := none } }
  if frames then { s with frames := [], checks := [] } else s

/-- Entry to Load (R361); from Run and Fault it is an entry to Blank as well. -/
def State.enterLoad (s : State) (src ring : Nat) : State :=
  let s := if s.mode = .blank then (s.emptyCabs).resetHard else s.enterBlank true
  let s := { s with
    stream := { Stream.init with active := true, src := src, ring := ring, qspi := s.flashRead src },
    pins := { s.pins with done := false } }
  let s := ((s.setF Fld.CFG_WORDS 0).setF Fld.CFG_FRAMES 0).setF Fld.CFG_ERRPOS 0
  let s := ((s.setF Fld.CFG_STAT_REASON 0).setF Fld.CFG_STAT_PHASE 1).setF Fld.CFG_STAT_SRC src
  let s := (s.setF Fld.CFG_STAT_SIGNED 0).setF Fld.CFG_NEXTFA 0
  if src = 1 then (s.connect feedCfg (downCode ring)).pump else s

/-! ## Transitions -/

/-- The modes in which the scrubber runs (R388). -/
def Mode.scrubs : Mode → Bool
  | .run | .partialRun | .doze | .nap | .bench => true
  | _ => false

/-- A transition (R37): MODE, PREV, CAUSE and CHG; a scrubber that does not run there stops, a JTAG test ends on the way
out of Reset, Blank and Fault (R388, R544), and only the stay in Blank after Reset is the first one (R360). -/
def State.toMode (s : State) (m : Mode) (cause : Nat) : State :=
  let old := s.mode
  let s := { s with pins := { s.pins with jtag := s.tapLeaves } }
  let s := (s.setF Fld.DEV_MODE_PREV old.code).setF Fld.DEV_MODE_MODE m.code
  let s := (s.setF Fld.DEV_MODE_CAUSE cause).flag Fld.DEV_MODE_CHG
  let s := { s with mode := m, bur := { s.bur with firstBlank := s.bur.firstBlank && old == Mode.reset } }
  if m.scrubs then s else ({ s with scrub := Scrub.init }).setF Fld.SCRB_STAT_RUNNING 0

/-- Whether the device holds CFG_ERR low (R35). -/
def State.cfgErr (s : State) : Bool := s.mode == .faultMode

/-- The pins CFG_ERR and WAKE_N, which are open-drain: whether they are held low; and CFG_DONE, a push-pull pin; a boundary-scan
test in force has its way with them (R542, R544). -/
def State.cfgErrLow (s : State) : Bool := match s.scanDrive .cfgErr with | some d => d == some false | none => s.cfgErr
def State.wakeLow (s : State) : Bool := match s.scanDrive .wakeN with | some d => d == some false | none => s.pins.wakeLow
def State.donePin (s : State) : Option Bool := match s.scanDrive .cfgDone with | some d => d | none => some s.pins.done

/-- Entry to Blank by transition. -/
def State.goBlank (s : State) (cause : Nat) (frames : Bool) : State := (s.enterBlank frames).toMode .blank cause

/-- Entry to Load by transition. -/
def State.goLoad (s : State) (src ring cause : Nat) : State := (s.enterLoad src ring).toMode .load cause

/-- What Nap, Slumber and Bench do to the blocks that stop converting (R135, R156, R249). -/
def State.stopConverting (s : State) : State := ((s.abandonAll).abandonDacs).pauseGroups

/-- What the return to Run does (R135, R195, R249, R263). -/
def State.startConverting (s : State) : State := (((s.resumeGroups).resumeChains).resumeDacs).busUpdates

/-- Entry to Bench (R36, R115, R135, R137, R176, R329). -/
def State.goBench (s : State) : State :=
  let s := (s.latchPins).stopConverting.benchGroups.estClear.clearHeld
  s.toMode .bench 2

/-- Return from Bench to Run. -/
def State.benchToRun (s : State) : State :=
  let s := s.toMode .run 2
  let s := ({ s with dio := { s.dio with latched := none }, pwr := { s.pwr with lastRun := some s.lcs.time } }).startConverting
  (s.restartAz).pump

/-- The mode PREV names. -/
def State.prevMode (s : State) : Nat := s.f Fld.DEV_MODE_PREV

/-! ## Reset (R12, R34, R37) -/

/-- Whether a register is an entry of a chain's coefficient bank (R200). -/
def coefReg (a : Nat) : Bool := decide (0x200000 ≤ a ∧ a < 0x230000 ∧ 0x800 ≤ a % 0x1000 ∧ a % 0x1000 < 0xC00)

/-- What PORST_N leaves of a register while the supplies hold: a coefficient memory (R200), and the CAL fields until the reload
(R271). -/
def heldWord (a : Nat) (w : Word) : Word :=
  if coefReg a then w
  else let m := calMask a; (RegMap.resetAt a &&& ~~~m) ||| (w &&& m)

/-- What PORST_N leaves of a chain and of a DAC while the supplies hold: the resampler store and the pattern memory (R200,
R257); of a word cell, its registers (R311). -/
def State.heldMemories (s : State) : State :=
  { State.reset with
    regs := s.regs.filterMap fun e =>
      let w := heldWord e.1 e.2
      if w = RegMap.resetAt e.1 then none else some (e.1, w),
    chains := s.chains.filterMap fun e =>
      if e.2.store = [] then none else some (e.1, { Chain.init with store := e.2.store }),
    dacs := s.dacs.filterMap fun e =>
      if e.2.pattern = [] then none else some (e.1, { Dac.init with pattern := e.2.pattern }),
    fcells := s.fcells }

/-- The part, its keep store and OTP, the pins' levels, and what lies outside the device stay in `t` as they are in `s`. -/
def State.keepOutside (s t : State) : State :=
  let t := { t with
    part := s.part, freeCount := s.freeCount, readData := s.readData, hostMem := s.hostMem, pending := s.pending,
    cal := { Calib.init with store := s.cal.store },
    bur := { Bureau.init with nv := s.bur.nv },
    twin := { Twin.init with die := s.twin.die }, host := { HostIf.init with perst := s.host.perst },
    dio := { Dio.init with levels := s.dio.levels, vok := s.dio.vok }, apPins := s.apPins }
  (List.range 8).foldl (fun t b => t.setB Fld.DIO_BANK_STAT_VOK (s.dio.vok.testBit b) b) t

/-- The device enters Reset with the given cause; `held` says whether the supplies hold, and the TAP's with them (R544). -/
def State.goReset (s : State) (cause : Nat) (held : Bool) : State :=
  let t := s.keepOutside (if held then s.heldMemories else State.reset)
  let t := if held then { t with pins := { t.pins with
      jtag := if s.mode = .reset then s.pins.jtag else s.tapLeaves, cells := s.pins.cells } } else t
  t.setF Fld.DEV_MODE_CAUSE cause

/-- Power is applied (R37). -/
def execPowerOn (s : State) : Out := .next (s.goReset 0 false)
/-- PORST_N goes low (R34): the supplies hold, and so do what survives it. Before the straps are sampled it meets the
power-on or brown-out it follows, and CAUSE stays 0 (R547). DESIGN CHOICE, log entry 15. -/
def execPorstNAssert (s : State) : Out := .next (if s.mode = .reset ∧ !s.host.porst then s else s.goReset 1 true)
/-- A rail below 90 % of its nominal value for 1 µs: Reset as at power-on (R547). -/
def execBrownOut (s : State) : Out := .next (s.goReset 0 false)

/-! ## Keeper and pulls (R51, R325, R329) -/

/-- The conditioning of pin `n`: 0 none, 1 keeper, 2 pull-up, 3 pull-down. -/
def State.pinPull (s : State) (n : Nat) : Nat :=
  if s.on Fld.DIO_BANK_CTL_MODE (n / 32) then
    match s.mode with
    | .wakeUp | .run | .partialRun | .doze | .nap | .slumber | .bench => s.f Fld.DIO_PIN_CFG_PULL n
    | .blank => if s.on Fld.DEV_COMPAT_HERITAGE then 1 else 0
    | _ => 0
  else 0

end Sys2Proof.Machine
end

