-- ==== Sys2Proof/Machine/Access.lean ====
section
/-! DEFINITION. Writes to the register space: every register of BAR0 is written by its access codes (R9, R11) and the limits
of its own chapter, whether the write comes from the host, from a configuration stream or from a queued access. -/

namespace Sys2Proof.Machine

/-! ## Which registers are there -/

/-- A register of the map with its instance numbers. -/
structure RegAt where
  row : RegRow
  i : Nat
  j : Nat
  deriving DecidableEq, Repr

/-- The register at offset `a`. -/
def regAt (a : Nat) : Option RegAt :=
  match RegMap.row a with
  | some r => (r.index a).map fun e => ⟨r, e.1, e.2⟩
  | none => none

/-- Whether the part has the instance that the register at `a` belongs to (R3, R264, R283, R456). -/
def regPresent (p : Part) (a : Nat) : Bool :=
  if a < 0x50100 then true
  else if a < 0x50400 then decide ((a - 0x50100) / 0x20 < p.numCB)
  else if a < 0x60100 then true
  else if a < 0x60160 then decide ((a - 0x60100) / 4 < p.numCB)
  else if a < 0xA0000 then true
  else if a < 0xC0000 then decide ((a - 0xA0000) / 0x100 < p.numAP)
  else if a < 0xCC000 then decide ((a - 0xC0000) / 0x100 < p.numAC)
  else if a < 0xCC100 then true
  else if a < 0xCC200 then decide ((a - 0xCC100) / 4 < p.numCG)
  else if a < 0x100000 then decide ((a - 0xCC200) / 4 < p.numDA)
  else if a < 0x200000 then decide ((a - 0x100000) / 0x1000 < p.numCG)
  else if a < 0x500000 then decide ((a - 0x200000) / 0x1000 < p.numFC)
  else if a < 0x501800 then decide ((a - 0x500000) / 0x40 < p.numWM)
  else if a < 0x520000 then true
  else if a < 0x540000 then decide ((a - 0x520000) / 0x100 < p.numDA)
  else if 0x540020 ≤ a ∧ a < 0x540030 then decide ((a - 0x540020) / 4 < p.numCG / 6)
  else if 0x5400A0 ≤ a ∧ a < 0x5400B0 then decide ((a - 0x5400A0) / 4 < p.numCG / 6)
  else if a < 0x600000 then true
  else if a < 0x618000 then decide ((a - 0x600000) / 0x1000 < p.numCB)
  else if a < 0x690000 then true
  else if a < 0x6A0000 then decide ((a - 0x690000) / 0x100 < p.numCB)
  else if a < 0x6C0000 then true
  else p.isTwin

/-- A write by the access codes alone. -/
def State.writePlain (s : State) (a : Nat) (w : Word) : State :=
  match RegMap.row a with
  | some r => s.setWord a (r.apply (s.word a) w)
  | none => s

/-- A write of the words that the codes would leave, but for bits `prot`, protected by R554 while `closed`; an ignored write
sets `flag`. -/
def State.writeGuarded (s : State) (a : Nat) (w prot : Word) (closed : Bool) (flag : State → State) : State :=
  match RegMap.row a with
  | some r =>
    let x := guardWrite (s.word a) (r.apply (s.word a) w) (if closed then prot else 0)
    let t := s.setWord a x.1
    if x.2 then flag t else t
  | none => s

/-! ## Blocks -/

/-- The working set's registers outside their own chapters' rules: while CAL_RUN runs, a write that changes a working-set
field is ignored; each field accepted makes the set dirty and lifts the field's mark (R265, R268). `whole`: the register's
guard protects all its fields, so that a write which it ignores is accepted for none (R554). -/
def State.writeCal (s : State) (a : Nat) (w : Word) (whole : Bool) (k : State → State) : State :=
  let m := calMask a
  if s.on Fld.CAL_STAT_RUNNING ∧ (s.word a ^^^ w) &&& m ≠ 0 then
    (s.writePlain a ((w &&& ~~~m) ||| (s.word a &&& m))).flag Fld.CAL_STAT_WR_IGN
  else
    let t := k s
    -- the register's two halves hold one field each
    [0xFFFF, 0xFFFF0000].foldl (fun (t : State) (half : Word) =>
      if m &&& half ≠ 0 ∧ t.word a &&& m &&& half = w &&& m &&& half ∧ (whole = false ∨ t.word a &&& m = w &&& m) then
        (t.setF Fld.CAL_STAT_DIRTY 1).unmarkHalf a (half == 0xFFFF)
      else t) t

/-- DEV, HOST and the MSI-X tables (R43 to R45, R464, R462). -/
def State.writeDev (s : State) (a : Nat) (w : Word) : State :=
  if a = Reg.DEV_COMPAT.base then
    s.writeGuarded a w 1 (s.mode != .blank) fun s => s.flag Fld.DEV_COMPAT_WR_IGN
  else s.writePlain a w

/-- BUR (R46, R466, R467). -/
def State.writeBur (s : State) (a : Nat) (w : Word) : State :=
  if a = Reg.BUR_DB.base then
    if s.on Fld.BUR_STATUS_BUSY ∨ s.mode = .reset then s.flag Fld.BUR_STATUS_IGN
    else if w.bit 0 then s.setF Fld.BUR_STATUS_BUSY 1
    else s
  else if s.on Fld.BUR_STATUS_BUSY ∧ (a = Reg.BUR_CMD.base ∨ (0x60040 ≤ a ∧ a < 0x60080)) then s.flag Fld.BUR_STATUS_IGN
  else s.writePlain a w

/-- PRn_SRC as stored: a window monitor above 95 stores kind 0 (R59). -/
def prSrcStored (w : Word) : Word :=
  let w := if 2 ≤ w.bits 8 2 ∧ 95 < w.bits 0 8 then w.setBits 8 2 0 else w
  if 2 ≤ w.bits 24 2 ∧ 95 < w.bits 16 8 then w.setBits 24 2 0 else w

/-- CAPk_CTL as stored (R59, R80, R87). -/
def capCtlStored (w : Word) : Word :=
  let w := if 2 ≤ w.bits 24 2 ∧ 95 < w.bits 16 8 then w.setBits 24 2 0 else w
  if w.bits 26 2 = 3 then w.setBits 26 2 0 else w

/-- LCS (R54, R63, R72, R78, R80, R85 to R89). -/
def State.writeLcs (s : State) (r : RegAt) (a : Nat) (w : Word) : State :=
  let b := r.row.reg.base
  s.lcsWrite a fun s =>
    if b = Reg.LCS_CTL.base then (s.writeLcsCtl w).followRefs s
    else if b = Reg.LCS_TIME_SNAP.base then (if w.bit 0 then s.snapTime else s)
    else if b = Reg.PR_SRC.base then
      s.writeGuarded a (prSrcStored w) 0xFFFFFFFF (s.on Fld.PR_CFG_EN r.i) fun s => s.flag Fld.LCS_STAT_WR_IGN
    else if b = Reg.PR_TRK.base ∨ b = Reg.PR_ADJ.base then
      s.writeGuarded a w 0xFFFFFFFF (s.on Fld.PR_CFG_EN r.i) fun s => s.flag Fld.LCS_STAT_WR_IGN
    else if b = Reg.PR_CFG.base then s.onPair r.i fun s => s.writePrCfg r.i w
    else if b = Reg.PR_SNAP.base then (if w.bit 0 then s.snapRef r.i else s)
    else if b = Reg.PA_CTL.base then s.writePaCtl r.i w
    else if b = Reg.PA_TARGET.base then s.writePaTarget r.i w
    else if b = Reg.PA_FILTER.base then s.writePaFilter r.i w
    else if b = Reg.TT_CTL.base then s.writeTtCtl r.i w
    else if b = Reg.CAP_CTL.base then s.writePlain a (capCtlStored w)
    else if b = Reg.CAP_POP.base then (if w.bit 0 then s.setCapture r.i ((s.capture r.i).drop 1) else s)
    else s.writePlain a w

/-- AP and AC (chapter 04). -/
def State.writeAnalog (s : State) (r : RegAt) (a : Nat) (w : Word) : State :=
  let b := r.row.reg.base
  match matrixReg a with
  | some m => if hasMatrix s.part m then s.writeMatrix a m w else s
  | none =>
    if b = Reg.AC_GAIN.base then s.writeAcGain r.i w
    else if b = Reg.AC_TUNE.base then s.writeAcTune r.i w
    else if b = Reg.AC_SC.base then s.writeAcSc r.i w
    else if b = Reg.AC_AZ.base then s.writeAcAz r.i w
    else if b = Reg.AC_TRIM.base then s.writeCal a w false fun s => s.writeAcTrim r.i r.j w
    else if b = Reg.AP_ITRIM.base ∨ b = Reg.AP_OTRIM.base then s.writeCal a w false fun s => s.writePlain a w
    else s.writePlain a w

/-- CG (chapters 05 and 06). -/
def State.writeCg (s : State) (r : RegAt) (a : Nat) (w : Word) : State :=
  let b := r.row.reg.base
  let g := r.i
  s.sclkWrite g a fun s =>
    if b = Reg.CG_CTL.base then s.writeCgCtl g w
    else if b = Reg.CG_SEQCTL.base then s.writeSeqctl g w
    else if b = Reg.CG_REF.base then s.writeCgRef g w
    else if b = Reg.CG_LISTEN.base then s.writeListen g r.j w
    else if b = Reg.CG_FTRIG.base then s.writeFtrig g w
    else if b = Reg.CG_WIN_ARM.base then s.writeWinArm g r.j w
    else if b = Reg.CG_CNT_SNAP.base then
      (if w.bit 0 then s.cgSnap g else s)
    else if b = Reg.CG_ELOG_POP.base then
      (if w.bit 0 then s.setGroup g { s.group g with elog := (s.group g).elog.drop 1 } else s)
    else if b = Reg.CG_ROT_CTL.base then s.writeRotCtl g w
    else if b = Reg.CG_SL_TRIM.base then s.writeCal a w true fun s => s.writeSlice g a 0x0FFF0FFF (s.sliceOpen g r.j) w
    else if b = Reg.CG_SL_SKEW.base then s.writeCal a w true fun s => s.writeSlice g a 0xFF (s.sliceOpen g r.j) w
    else if b = Reg.CG_SL_RES_OG.base then s.writeCal a w true fun s => s.writeResidual g r.j a 0x0FFF0FFF w
    else if b = Reg.CG_SL_RES_SK.base then s.writeCal a w true fun s => s.writeResidual g r.j a 0x3FF w
    else s.writePlain a w

/-- FC (chapters 07 and 08). -/
def State.writeFc (s : State) (r : RegAt) (a : Nat) (w : Word) : State :=
  let b := r.row.reg.base
  let n := r.i
  s.fcWrite n a fun s =>
    if b = Reg.FC_CTL.base then s.writeFcCtl n w
    else if b = Reg.FC_SRC.base then s.writeFcSrc n (w.bits 0 16)
    else if b = Reg.FC_CIC.base then s.writeFcCic n w
    else if b = Reg.FC_CIC_SHI.base ∨ b = Reg.FC_CIC_SHC.base then
      s.writeWhileOff n a (w &&& 0x01FFFFFF) Fld.FC_STAT_WR_IGN
    else if b = Reg.FC_FIR.base then s.writeFcFir n w
    else if b = Reg.FC_BANK_INFO.base then s.writeFcInfo n r.j w
    else if b = Reg.FC_COEFA.base then s.writeFcBank n 0 a (w &&& 0x3FFFF)
    else if b = Reg.FC_COEFB.base then s.writeFcBank n 1 a (w &&& 0x3FFFF)
    else if b = Reg.FC_CNT_SNAP.base then
      (if w.bit 0 then
        let c := s.chain n
        let s := (s.setPair Fld.FC_COMP_LO Fld.FC_COMP_HI c.comp n).setPair Fld.FC_EMIT_LO Fld.FC_EMIT_HI c.emit n
        s.setPair Fld.FC_SUPP_LO Fld.FC_SUPP_HI c.supp n
      else s)
    else if b = Reg.FC_GAP_POP.base then
      (if w.bit 0 then s.setChain n { s.chain n with gaps := (s.chain n).gaps.drop 1 } else s)
    else if b = Reg.FC_TLOG_POP.base then
      (if w.bit 0 then s.setChain n { s.chain n with tlog := (s.chain n).tlog.drop 1 } else s)
    else if b = Reg.FC_RS_CTL.base then s.writeRsCtl n w
    else if b = Reg.FC_RS_INC_HI.base then s.commitInc n w
    else if b = Reg.FC_RS_PHOFS.base ∨ b = Reg.FC_RS_LISTEN.base ∨ b = Reg.FC_DET_CTL.base ∨ b = Reg.FC_DET_WIN.base ∨
        b = Reg.FC_DET_SPAN.base ∨ b = Reg.FC_DET_HOLD.base then
      s.writeGuarded a w 0xFFFFFFFF (s.on Fld.FC_CTL_EN n) fun s => s.flag Fld.FC_RS_STAT_WR_IGN n
    else if b = Reg.FC_RS_CDATA.base then s.cdataWrite n w
    else s.writePlain a w

/-- DA (chapter 10). -/
def State.writeDa (s : State) (r : RegAt) (a : Nat) (w : Word) : State :=
  let b := r.row.reg.base
  let d := r.i
  s.daWrite d a fun s =>
    if b = Reg.DA_CTL.base then s.writeDaCtl d w
    else if b = Reg.DA_SRC.base then s.writeDaSrc d (w.bits 0 16)
    else if b = Reg.DA_LISTEN.base then s.writeDaListen d r.j w
    else if b = Reg.DA_SEG_LEN.base then s.writeSegLen d r.j w
    else if b = Reg.DA_PDATA.base then s.pdataWrite d w
    else if b = Reg.DA_TRIM.base then s.writeCal a w false fun s => s.writePlain a w
    else s.writePlain a w

/-- WM (chapter 09). -/
def State.writeWm (s : State) (r : RegAt) (a : Nat) (w : Word) : State :=
  let b := r.row.reg.base
  let n := r.i
  if b = Reg.WM_CTL.base then s.writeWmCtl n w
  else if b = Reg.WM_THR.base then s.writeWmThr n w
  else if b = Reg.WM_HYS.base then s.writeWmHys n w
  else if b = Reg.WM_TRIM.base then s.writeCal a w false fun s => s.writeWmTrim n w
  else if b = Reg.WM_BLANK.base then s.writeWmBlank n w
  else if b = Reg.WM_LATCH.base then s.writeWmLatch n w
  else if b = Reg.WM_PCLR.base then s.writeWmPclr n w
  else s.writePlain a w

/-- CAL: the trims are written in Bench only (R265). -/
def State.writeCalBlock (s : State) (a : Nat) (w : Word) : State :=
  if calMask a = 0 then s.writePlain a w
  else
    s.writeCal a w true fun s =>
      s.writeGuarded a w 0xFFFFFFFF (s.mode != .bench) fun s => s.flag Fld.CAL_STAT_WR_IGN

/-- SCRB: a write of a voted register sets its three copies (R393), and EN = 0 stops the scrubber (R388). -/
def State.writeScrb (s : State) (a : Nat) (w : Word) : State :=
  let s := s.writePlain a w
  let v := s.word a
  if a = Reg.SCRB_IRQEN.base then { s with voted := { s.voted with irqen := (v, v, v) } }
  else if a = Reg.SCRB_CTL.base then
    let s := { s with voted := { s.voted with ctl := (v, v, v) } }
    if w.bit 31 then s else ({ s with scrub := Scrub.init }).setF Fld.SCRB_STAT_RUNNING 0
  else s

/-- DMA (R397 to R402, R413). -/
def State.writeDma (s : State) (r : RegAt) (a : Nat) (w : Word) : State :=
  let b := r.row.reg.base
  if b = Reg.DMA_CFG.base then s.writeRingCfg r.i a (dmaCfgStored w)
  else if b = Reg.DMA_DATA.base then s.writeRingCfg r.i a w
  else if b = Reg.DMA_REC.base then s.writeRingCfg r.i a (w &&& 0x01FFFFFF)
  else if b = Reg.DMA_RATE.base then s.writeRingCfg r.i a (w &&& 0x000FFFFF)
  else if b = Reg.DMA_TAIL.base then (s.writeTail r.i w).pump
  else if b = Reg.DMA_HEAD.base then s.writeHead r.i w
  else if b = Reg.DMA_RSNAP.base then (if w.bit 0 then s.snapRing r.i else s)
  else if b = Reg.DMA_PDIR_LO.base then s.pdirLo w
  else if b = Reg.DMA_PDIR_HI.base then s.pdirHi w
  else s.writePlain a w

/-- FAB, DIO and PRB (chapters 12 and 13). -/
def State.writeFabric (s : State) (r : RegAt) (a : Nat) (w : Word) : State :=
  let b := r.row.reg.base
  if b = Reg.FAB_CTL.base then s.writeFabCtl r.i w
  else if b = Reg.FAB_PEEK_SEL.base then s.writePlain a (if 6 ≤ w.bits 8 3 then w.setBits 8 3 0 else w)
  else if b = Reg.FAB_GCLK.base then s.writeGclk r.i w
  else if b = Reg.FAB_FPLL.base then s.writeFpll w
  else if b = Reg.DIO_PIN_CFG.base then s.writePinCfg r.i w
  else if b = Reg.DIO_BANK_CTL.base then s.writeBankCtl r.i w
  else if b = Reg.DIO_BND_CTL.base then s.writeBnd r.i a (w &&& 0x707)
  else if b = Reg.DIO_FPO_CFG.base then s.writeBnd r.i a (w &&& 0x700)
  else if b = Reg.DIO_FPI_SRC.base then s.writeFpiSrc r.i r.j (w.bits 0 16)
  else if b = Reg.DIO_FPI_CFG.base then s.writeFpiCfg r.i r.j w
  else if b = Reg.PRB_CTL.base then s.writePrbCtl r.i w
  else if b = Reg.PRB_SEL.base then s.writePrbSel r.i w
  else s.writePlain a w

/-- TWN: DUAL is written only in Solo (R530). -/
def State.writeTwn (s : State) (a : Nat) (w : Word) : State :=
  if a = Reg.TWN_CTL.base ∧ s.on Fld.TWN_STAT_PAIRED then s.writePlain a ((w &&& ~~~0xFF) ||| (s.word a &&& 0xFF))
  else s.writePlain a w

/-- A write of `w` to the register at offset `a` of BAR0, by the rules of its block. -/
def State.writeNow (s : State) (a : Nat) (w : Word) : State :=
  match regAt a with
  | none => s
  | some r =>
    if !regPresent s.part a then s
    else if a < 0x40000 then s.writeDev a w
    else if a = Reg.CFG_QSPI.base then s.writePlain a (w &&& 0xFFFFFFFC)
    else if a < 0x50000 then s.writePlain a w
    else if a < 0x60000 then s.writeScrb a w
    else if a < 0x80000 then s.writeBur a w
    else if a < 0xA0000 then s.writeLcs r a w
    else if a < 0x100000 then s.writeAnalog r a w
    else if a < 0x200000 then s.writeCg r a w
    else if a < 0x500000 then s.writeFc r a w
    else if a < 0x520000 then s.writeWm r a w
    else if a < 0x540000 then s.writeDa r a w
    else if a < 0x560000 then s.writeCalBlock a w
    else if a < 0x580000 then
      s.writePlain a (if a = Reg.PWR_CBPAUSE.base then w &&& BitVec.ofNat 32 (2 ^ s.part.numCB - 1) else w)
    else if a < 0x600000 then s.writeDma r a w
    else if a < 0x6C0000 then s.writeFabric r a w
    else if a < 0x6E0000 then s.writeTwn a w
    else s

/-- A register of the standby becomes the primary's: the pair's copy meets no check of a write by the host (R522), but it
follows the rules of what it changes (R24, R318). -/
def State.copyNow (s : State) (a : Nat) (w : Word) : State :=
  match regAt a with
  | none => s
  | some r =>
    let v := (s.word a &&& ~~~rwMask a) ||| (w &&& rwMask a)
    match matrixReg a with
    | some m => if hasMatrix s.part m then s.applyMatrix a m v else s
    | none =>
      if !regPresent s.part a then s
      else if r.row.reg.base = Reg.DIO_FPI_SRC.base then s.writeFpiSrc r.i r.j (v.bits 0 16)
      else if r.row.reg.base = Reg.DIO_FPI_CFG.base then (if s.word a = v then s else s.setFpiCfg r.i r.j v)
      else if 0x680000 ≤ a then s.setWord a v
      else s.writeNow a v

/-- The writes that waited for a check take effect in their order (R505). -/
def State.writeHeld (s : State) (l : List HeldWrite) : State :=
  l.foldl (fun s x => if x.copied then s.copyNow x.reg x.word else s.writeNow x.reg x.word) s

/-- A write of `w` to the register at offset `a` of BAR0. Writes that wait for a check of the scrubber go before one that
stops it (R505). -/
def State.writeReg (s : State) (a : Nat) (w : Word) : State :=
  if a = Reg.SCRB_CTL.base ∧ !w.bit 31 then (s.writeNow a w).writeHeld s.scrub.held
  else s.imageWrite ⟨a, w, false⟩ fun s => s.writeNow a w

/-- The pair's copy of the primary's value of a register (R505, R522). -/
def State.copyReg (s : State) (a : Nat) (w : Word) : State := s.imageWrite ⟨a, w, true⟩ fun s => s.copyNow a w

/-- A write to a register that WM_CONDITION_WRITE names, by its own rules (R231, R236, R265, R113). -/
def execWmConditionWrite (n : Nat) (what : WmCondition) (w : Word) (s : State) : Out := hostRow (
  ifPresent n s.part.numWM 96 s (.next <|
    match what with
    | .thr => s.writeReg (Reg.WM_THR.addr n 0) w
    | .hys => s.writeReg (Reg.WM_HYS.addr n 0) w
    | .trim => s.writeReg (Reg.WM_TRIM.addr n 0) w
    | .port => s.writeReg (Reg.AP_CTL.addr n 0) w))

end Sys2Proof.Machine
end

