-- ==== Sys2Proof/Machine/Boot.lean ====
section
/-! DEFINITION. From PORST_N to Blank: the straps, the Bureau's boot, the autonomous load (R34, R360, R473, R474). -/

namespace Sys2Proof.Machine

/-- BUR_KEYIDX and BUR_KEYRES show `i` and what the keep store holds (R473, R482). -/
def State.showKeys (s : State) (i : Nat) : State :=
  (s.setPair Fld.BUR_KEYIDX_LO Fld.BUR_KEYIDX_HI i).setPair Fld.BUR_KEYRES_LO Fld.BUR_KEYRES_HI s.bur.nv.keyres

/-- BUR_KEYIDX. -/
def State.keyIdx (s : State) : Nat := s.f Fld.BUR_KEYIDX_LO + 2 ^ 32 * s.f Fld.BUR_KEYIDX_HI

/-- Every index is used: after 2^40 - 1 BUR_KEYIDX shows 0, and no index is used twice (R482). DEDUCED, log entry 20. -/
def State.keysUsed (s : State) : Bool := s.keyIdx == 0 && decide (2 ^ 40 ≤ s.bur.nv.keyres)

/-- The last 2^20 indices are reached (R483). -/
def State.lastIndices (s : State) : Bool := decide (2 ^ 40 - 2 ^ 20 ≤ s.keyIdx) || s.keysUsed

/-- KEY_LOW shows from there on. -/
def State.keyLow (s : State) : State := s.flagIf s.lastIndices Fld.BUR_STAT_KEY_LOW

/-- PORST_N is high and the rails are in tolerance: the straps are as sampled (R44, R360, R542). -/
def State.release (s : State) (compat : Bool) (boot : Nat) : State :=
  let s := { s with
    pins := { s.pins with compat := compat, boot := boot % 4 }, host := { s.host with porst := true } }
  ((s.setB Fld.DEV_COMPAT_PIN compat).setB Fld.DEV_COMPAT_HERITAGE compat).setF Fld.CFG_STAT_BOOT boot

/-- The straps are sampled, once per Reset, and a later change of them has no effect: at the release of PORST_N, or 1 ms
after the last rail is back where PORST_N is high by then or has been high throughout (R543). DESIGN CHOICE, log entry 42.
-/
def execPorstNRelease (compat : Bool) (boot : Nat) (s : State) : Out :=
  if 4 ≤ boot then .fault .illFormed
  else .next (if s.mode = .reset ∧ !s.host.porst then s.release compat boot else s)

/-- The Bureau's boot ends (R473, R474): `err` is 0, 3 or 4, the step that failed; `trng` says whether the random source
passed its test, `store` whether the stored calibration set passes R266. -/
def State.bootEnds (s : State) (err : Nat) (trng store : Bool) : State :=
  let s := { s with host := { s.host with ready := true }, bur := { s.bur with trngFails := !trng } }
  let s := (s.setWord Reg.BUR_POLICY.base (BitVec.ofNat 32 s.bur.nv.policy)).flagIf (!trng) Fld.BUR_STAT_TRNG_FAIL
  if err = 3 ∨ err = 4 then s.setF Fld.BUR_BOOT_ERR err
  else
    let s := ((s.setF Fld.BUR_BOOT_ERR (if trng then 0 else 5)).showKeys s.bur.nv.keyres).keyLow.bootCal store
    let s := (s.flag Fld.BUR_BOOT_FW_OK).setF Fld.BUR_BOOT_VERSION Config.fwVersion
    ({ s with bur := { s.bur with running := true } } : State).toMode .blank (s.f Fld.DEV_MODE_CAUSE)

def execBureauBootComplete (err : Nat) (trng store : Bool) (s : State) : Out :=
  if err ≠ 0 ∧ err ≠ 3 ∧ err ≠ 4 then .fault .illFormed
  else .next (if s.mode = .reset ∧ s.host.porst ∧ ¬ s.host.ready then s.bootEnds err trng store else s)

/-- The straps start a load at the first entry to Blank (R360). -/
def execAutonomousBoot (s : State) : Out :=
  .next (if s.mode = .blank ∧ s.bur.firstBlank then
    (match s.pins.boot with
    | 1 => ((s.setF Fld.CFG_QSPI_ADDR 0).setF Fld.CFG_QSPI_CLKDIV 1).goLoad 2 0 4
    | 2 => if s.part.isTwin then s.goLoad 3 0 4 else s
    | _ => s)
  else s)

end Sys2Proof.Machine
end

