-- ==== Sys2Proof/Machine/Frames.lean ====
section
/-! DEFINITION. Configuration frames (R343 to R348): the bits their layouts assign, the check word, and what writing one
does. -/

namespace Sys2Proof.Machine

/-! ## Assigned bits (R343 to R348) -/

/-- The bits that the layout of word `w` of frame `fa` assigns. -/
def frameMask (p : Part) (fa w : Nat) : Word :=
  let i := frameIndex fa
  match frameType fa with
  | 0 =>
    if w < 8 then 0x00FFFFFF
    else if w = 8 then 0x001FFFFF
    else if w < 11 then 0xFFFFFFFF
    else if w = 11 then 0x001FFFFF
    else 0
  | 1 =>
    if i < 256 then (if w < 4 then 0x0FFF0FFF else 0)
    else if i = 256 then 0x00000FFF
    else if i = 257 then 0x0FFF0FFF
    else if i = 258 then (if w < 25 then 0x0FFF0FFF else 0)
    else 0
  | _ =>
    match imageReg p fa w with
    | some a => imageMask a
    | none => 0

/-! ## The check word (R389) -/

/-- The position of data bit `d`: the (d + 1)-th positive integer that is no power of two. -/
def dataPos (d : Nat) : Nat :=
  let p := d + 1 + (Nat.log2 (d + 1) + 1)
  d + 1 + (Nat.log2 p + 1)

/-- The exclusive or of the positions of the set bits of word `w`, and their parity. -/
def wordChecks (i : Nat) (w : Word) : Nat × Bool :=
  if w = 0 then (0, false)
  else (List.range 32).foldl (fun a b => if w.toNat.testBit b then (a.1 ^^^ dataPos (32 * i + b), !a.2) else a) (0, false)

/-- The parity of the low 11 bits. -/
def parity11 (c : Nat) : Bool := (List.range 11).foldl (fun p j => p != c.testBit j) false

/-- The 12-bit SEC-DED check word of 32 data words. -/
def checkWord (ws : List Word) : Nat :=
  let a := ws.zipIdx.foldl (fun (a : Nat × Bool) e => let c := wordChecks e.2 e.1; (a.1 ^^^ c.1, a.2 != c.2)) (0, false)
  a.1 + (if a.2 != parity11 a.1 then 2048 else 0)

/-! ## Writing a frame -/

/-- The words of a frame: those stored, or the values that its registers store (R348, R391). -/
def State.frameWords (s : State) (fa : Nat) : List Word :=
  if frameType fa < 2 then (List.range 32).map fun w => s.frameWord fa w else s.imageWords fa

/-- The check word of a frame; that of an image frame is rewritten with each of its words (R343, R348). -/
def State.frameCheck (s : State) (fa : Nat) : Nat :=
  if frameType fa < 2 then Tab.get (fun _ => 0) s.checks fa else checkWord (s.imageWords fa)

def State.setCheck (s : State) (fa c : Nat) : State := { s with checks := Tab.put (fun _ => 0) s.checks fa c }

/-- An image is applied as a write of that value (R348); pins, banks and clocks are unguarded there. -/
def State.writeImage (s : State) (a : Nat) (v : Word) : State :=
  match regAt a with
  | none => s
  | some r =>
    let b := r.row.reg.base
    if b = Reg.DIO_PIN_CFG.base then s.setWord a (pinStored v)
    else if b = Reg.DIO_BANK_CTL.base then s.setB Fld.DIO_BANK_CTL_MODE (v.bit 0) r.i
    else if b = Reg.FAB_GCLK.base then s.storeGclk r.i v
    else if b = Reg.FAB_FPLL.base then s.storeFpll (v.bits 0 6)
    else s.writeReg a v

/-- The frame at `fa` is written with its check word, or applied to the registers it images. -/
def State.writeFrame (s : State) (fa : Nat) (ws : List Word) : State :=
  let s := s.touchFrame fa
  if frameType fa < 2 then
    let s := ws.zipIdx.foldl (fun s e => s.setFrameWord fa e.2 e.1) s
    s.setCheck fa (checkWord ws)
  else
    ws.zipIdx.foldl (fun s e => match imageReg s.part fa e.2 with
      | some a => s.writeImage a e.1
      | none => s) s

end Sys2Proof.Machine
end

