-- ==== Sys2Proof/Machine/Loader.lean ====
section
/-! DEFINITION. The configuration controller (chapters 14 and 15): it takes a stream word by word, checks each, writes the
frames and the registers, and fails on the first word that breaks a rule (R338, R385). -/

namespace Sys2Proof.Machine

/-! ## Records (R337, R377) -/

def tagDevice : Nat := 0x5A
def tagFrames : Nat := 0x11
def tagAnalog : Nat := 0x22
def tagStartup : Nat := 0x44
def tagDigest : Nat := 0x77
def tagSignature : Nat := 0x7E
def tagEnd : Nat := 0xC3
def tagRegion : Nat := 0x3C

def knownTag (t : Nat) : Bool := [tagDevice, tagFrames, tagAnalog, tagStartup, tagDigest, tagSignature, tagEnd, tagRegion].contains t

/-- Whether a record of tag `t` may follow one of tag `last` (0: it is the first). -/
def mayFollow (full : Bool) (last t : Nat) : Bool :=
  if t = tagDevice then last == 0
  else if t = tagRegion then !full && last == tagDevice
  else if t = tagFrames then last == tagFrames || last == (if full then tagDevice else tagRegion)
  else if t = tagAnalog then full && (last == tagFrames || last == tagAnalog)
  else if t = tagStartup then last == tagFrames || last == tagAnalog
  else if t = tagDigest then last == tagStartup
  else if t = tagSignature then last == tagDigest
  else if t = tagEnd then last == tagDigest || last == tagSignature
  else false

/-- Whether the header's length is one that the record may have. A SIGNATURE's is checked on body word 0 (R354). -/
def lengthOk (t n : Nat) : Bool :=
  if t = tagDevice then n == 5
  else if t = tagFrames then decide (34 ≤ n ∧ (n - 2) % 32 = 0)
  else if t = tagStartup then n == 3
  else if t = tagDigest then n == 8
  else if t = tagSignature then decide (1 ≤ n)
  else if t = tagEnd ∨ t = tagRegion then n == 1
  else true

/-- The status that a reason gives (R371, R386). -/
def reasonStatus (r : Nat) : Nat :=
  if r = 0x10 then 6
  else if r = 0x12 ∨ r = 0x13 ∨ r = 0x14 ∨ r = 0x22 then 5
  else if r = 0x15 then 7
  else if r = 0x20 then 8
  else if r = 0x23 then 0xC
  else 2

/-- The bytes of an owner's signature (R476). -/
def signatureBytes (height : Nat) : Option Nat :=
  match height with
  | 10 => some 2500
  | 16 => some 2692
  | 20 => some 2820
  | _ => none

/-! ## State of the stream -/

def State.setStream (s : State) (x : Stream) : State := { s with stream := x }

def Stream.full (x : Stream) : Bool := match x.kind with | .full => true | .region _ => false
def Stream.cab (x : Stream) : Nat := match x.kind with | .full => 0 | .region k => k

/-- Run begins again: the tick is kept for the limit of R509. -/
def State.markRun (s : State) : State := { s with pwr := { s.pwr with lastRun := some s.lcs.time } }

/-- Partial ends when no cabinet is loading any longer (R39). -/
def State.endPartial (s : State) : State :=
  if s.mode = .partialRun ∧ (List.range s.part.numCB).all fun k => s.cbState k != 2 && s.cbState k != 3 then
    (s.toMode .run 0xB).markRun
  else s

/-- The Bureau's record of cabinet `k` changes (R387). DEDUCED, log entry 34. -/
def State.setMeas (s : State) (k : Nat) (m : MeasRec) : State := s.setCab k { s.cab k with meas := m }

/-- A partial stream of cabinet `k` fails at position `pos`; `phase` is 6, or 7 after CFG_ABORT (R385). -/
def State.regionFail (s : State) (k reason pos phase : Nat) : State :=
  let s := ((s.setF Fld.SCRB_RLD_STAT_PHASE phase).setF Fld.SCRB_RLD_STAT_REASON reason).setF Fld.SCRB_RLD_STAT_STATUS
    (reasonStatus reason)
  let s := (s.setF Fld.SCRB_RLD_ERRPOS pos).setF Fld.SCRB_CB_STATE_REASON reason k
  let s := (s.setCbState k 4).flag Fld.SCRB_RLD_IRQ_FAIL
  let s := s.setMeas k { (s.cab k).meas with dstate := 3, reason := reason }
  s.dropStream.endPartial

/-- A full load fails at position `pos` (R338). -/
def State.loadFail (s : State) (reason pos : Nat) : State :=
  let s := ((s.setF Fld.CFG_STAT_PHASE 6).setF Fld.CFG_STAT_REASON reason).setF Fld.CFG_ERRPOS pos
  (s.dropStream.setF Fld.DEV_MODE_FAULT_ST (reasonStatus reason)).toMode .faultMode 8

/-- The stream fails at position `pos`. -/
def State.streamFailAt (s : State) (reason pos : Nat) : State :=
  match s.stream.kind with
  | .full => s.loadFail reason pos
  | .region k => s.regionFail k reason pos 6

/-- The stream fails on the word just taken. -/
def State.streamFail (s : State) (reason : Nat) : State := s.streamFailAt reason s.stream.pos

/-- The progress registers after a word. -/
def State.countWord (s : State) : State :=
  match s.stream.kind with
  | .full => (s.setF Fld.CFG_WORDS s.stream.pos).setF Fld.CFG_CRC (s.stream.crc ^^^ 0xFFFFFFFF)
  | .region _ => s.setF Fld.SCRB_RLD_WORDS s.stream.pos

def State.setPhase (s : State) (p : Nat) : State :=
  match s.stream.kind with
  | .full => s.setF Fld.CFG_STAT_PHASE p
  | .region _ => s.setF Fld.SCRB_RLD_STAT_PHASE p

/-! ## The bodies, word `i` of each -/

/-- DEDUCED, log entry 32. -/
def State.takeDevice (s : State) (i : Nat) (w : Word) : State :=
  let x := s.stream
  let part := w.bits 0 16
  match i with
  | 0 =>
    if w.bits 16 16 ≠ 0x4B4E ∨ ¬ (part = s.part.code ∨ (s.part.isTwin ∧ part = 0x9640)) then s.streamFail 0x05 else s
  | 1 => if w.bits 16 16 ≠ 0 then s.streamFail 0x0B else if w.bits 0 16 ≠ 1 then s.streamFail 0x05 else s
  | 2 =>
    let s := s.setStream { x with design := w.toNat }
    if x.full then s.setF Fld.CFG_DESIGN_LO w.toNat else s
  | 3 =>
    let d := x.design + w.toNat * 2 ^ 32
    let s := s.setStream { x with design := d }
    if x.full then s.setF Fld.CFG_DESIGN_HI w.toNat else s.setMeas x.cab { (s.cab x.cab).meas with design := d }
  | _ =>
    if !x.full then (if w ≠ 0 then s.streamFail 0x21 else s)
    else if w.bits 24 8 ≠ 0 then s.streamFail 0x0B
    else if w.toNat / 2 ^ s.part.numCB ≠ 0 then s.streamFail 0x05
    else s.setStream { x with secmask := w.toNat }

def State.takeRegion (s : State) (w : Word) : State :=
  let x := s.stream
  if w &&& 0xFFFFFEE0 ≠ 0 then s.streamFail 0x0B
  else if w.bits 0 5 ≠ x.cab then s.streamFail 0x20
  else s.setStream { x with secure := w.bit 8 }

/-- A frame has been taken whole: it is written, measured and counted. -/
def State.endFrame (s : State) (fa : Nat) (ws : List Word) : State :=
  let s := s.writeFrame fa ws
  let x := s.stream
  let add := ws.reverse ++ [BitVec.ofNat 32 fa]
  let key := if frameType fa < 2 then frameZone fa else 32
  let next := match x.kind with
    | .full => nextFrame s.part fa
    | .region k => nextInCabinet k fa
  let x := { x with frame := [], frames := x.frames + 1, next := next, fa := nextFrame s.part fa }
  match x.kind with
  | .full =>
    let s := s.setStream { x with meas := Tab.put (fun _ => []) x.meas key (add ++ Tab.get (fun _ => []) x.meas key) }
    (s.setF Fld.CFG_FRAMES x.frames).setF Fld.CFG_NEXTFA (next.getD 0xFFFFFF)
  | .region k =>
    let m := (s.cab k).meas
    let s := (s.setStream x).setMeas k
      { m with bytes := m.bytes ++ add.reverse.flatMap wordBytesOf, frames := m.frames + 1 }
    s.setF Fld.SCRB_RLD_FRAMES x.frames

/-- A data word of the frame in progress. -/
def State.takeFrameWord (s : State) (w : Word) : State :=
  let x := s.stream
  let bad : Option Nat :=
    if x.frame = [] then
      (match x.kind, x.fa with
      | .region _, none => some 0x20
      | .region k, some fa => if !inCabinet k fa then some 0x20 else if x.next ≠ some fa then some 0x06 else none
      | .full, none => some 0x06
      | .full, some fa => if x.next ≠ some fa then some 0x06 else none)
    else none
  match bad, x.fa with
  | some r, _ => s.streamFail r
  | none, none => s.streamFail 0x06
  | none, some fa =>
    if w &&& ~~~(frameMask s.part fa x.frame.length) ≠ 0 then s.streamFail 0x0B
    else if x.frame.length = 31 then s.endFrame fa (w :: x.frame).reverse
    else s.setStream { x with frame := w :: x.frame }

def State.takeFrames (s : State) (i : Nat) (w : Word) : State :=
  let x := s.stream
  match i with
  | 0 =>
    if x.full ∧ x.next ≠ some w.toNat then s.streamFail 0x06
    else s.setStream { x with fa := some w.toNat, frame := [] }
  | 1 =>
    if w.toNat < 1 ∨ 20480 < w.toNat then s.streamFail 0x06
    else if 2 + 32 * w.toNat ≠ x.len then s.streamFail 0x04
    else s
  | _ => s.takeFrameWord w

/-- The offsets an ANALOG entry may name (R350). -/
def analogOk (p : Part) (a : Nat) : Bool :=
  decide (a % 4 = 0) &&
    (decide (0x100000 ≤ a ∧ a < 0x100000 + 0x1000 * p.numCG ∧ a % 0x1000 < 0x400) ||
      decide (0x200000 ≤ a ∧ a < 0x200000 + 0x1000 * p.numFC) ||
      decide (0x520000 ≤ a ∧ a < 0x520000 + 0x100 * p.numDA))

/-- The registers whose writes are deferred (R351). -/
def isDeferred (a : Nat) : Bool :=
  if a < 0x200000 then a % 0x1000 == 0 || a % 0x1000 == 4
  else if a < 0x520000 then a % 0x1000 == 0
  else a % 0x100 == 0

/-- A write by the stream is no host write: it leaves CAL_STAT.DIRTY alone (R265). DEDUCED, log entry 32. -/
def State.streamWrite (s : State) (a : Nat) (v : Word) : State :=
  (s.writeReg a v).setF Fld.CAL_STAT_DIRTY (s.f Fld.CAL_STAT_DIRTY)

/-- A value of an ANALOG entry. -/
def State.analogValue (s : State) (a : Nat) (v : Word) : State :=
  let x := s.stream
  if isDeferred a then
    if 256 ≤ x.deferred.length then s.streamFail 0x08
    else s.setStream { x with deferred := x.deferred ++ [(a, v)] }
  else s.streamWrite a v

/-- An ANALOG body word; `left` words of the body follow it (R349). DEDUCED, log entry 32. -/
def State.takeAnalog (s : State) (left : Nat) (w : Word) : State :=
  let s := s.setStream { s.stream with analog := w :: s.stream.analog }
  let x := s.stream
  match x.entry with
  | none =>
    let a := w.bits 0 24
    if w.bits 24 7 ≠ 0 then s.streamFail 0x0B
    else if !analogOk s.part a then s.streamFail 0x07
    else if left = 0 then s.streamFail 0x04
    else s.setStream { x with entry := some (a, w.bit 31, none) }
  | some (a, true, none) =>
    if w.toNat < 1 ∨ 65536 < w.toNat then s.streamFail 0x07
    else if left < w.toNat then s.streamFail 0x04
    else s.setStream { x with entry := some (a, true, some w.toNat) }
  | some (a, false, none) => (s.setStream { x with entry := none }).analogValue a w
  | some (a, b, some n) =>
    (s.setStream { x with entry := if n ≤ 1 then none else some (a, b, some (n - 1)) }).analogValue a w

/-- DEDUCED, log entry 32. -/
def State.takeStartup (s : State) (i : Nat) (w : Word) : State :=
  let x := s.stream
  match i, x.kind with
  | 0, .full =>
    if w.bits 0 24 / 2 ^ s.part.numCB ≠ 0 then s.streamFail 0x0B else s.setStream { x with cbmask := w.bits 0 24 }
  | 0, .region k =>
    if w.bits 0 24 ≠ 0 ∧ w.bits 0 24 ≠ 2 ^ k then s.streamFail 0x21
    else s.setStream { x with cbmask := w.bits 0 24 }
  | 1, .full => s.setStream { x with refwait := w.bit 8 }
  | _, .full => s
  | _, .region _ => if w ≠ 0 then s.streamFail 0x21 else s

/-- A word of the stated digest (R353). -/
def State.takeDigest (s : State) (i : Nat) (w : Word) : State :=
  let x := s.stream
  let want := ((wordsOfBytes x.digest 8)[i]?).getD 0
  if w ≠ want then s.streamFail 0x12 else s.setStream { x with stated := x.stated ++ [w] }

/-- A word of a SIGNATURE (R354). -/
def State.takeSignature (s : State) (i : Nat) (w : Word) : State :=
  let x := s.stream
  let lenOk : Bool := match signatureBytes (w.bits 8 5) with
    | some n => decide (18 + n / 4 = x.len)
    | none => false
  if i = 0 ∧ w &&& 0xFFFFE0FC ≠ 0 then s.streamFail 0x0B
  else if i = 0 ∧ !lenOk then s.streamFail 0x04
  else s.setStream { x with sig := x.sig ++ [w], sigWait := decide (i + 1 = x.len) }

/-- The END body word ends the load (R355, R382). -/
def State.takeEnd (s : State) (w : Word) : State :=
  let x := s.stream
  let s := (s.strayWords.setStream { x with
    crcEnd := w.toNat, ended := true, active := false, waiting := [], qspi := none }).setPhase 3
  let s := (s.connect feedCfg 0).pump
  match x.kind with
  | .full => (s.setF Fld.CFG_CRC_END w.toNat).toMode .verify 5
  | .region _ => s

/-! ## Words -/

/-- A word before sync (R336). -/
def State.takePreamble (s : State) (w : Word) : State :=
  let x := s.stream
  if w = 0x4B454E31 then
    let s := (s.setStream { x with synced := true, pos := 0, crc := 0xFFFFFFFF, tag := 0, last := 0 }).setPhase 2
    s.countWord
  else if w = 0xFFFFFFFF ∧ x.pre < 1024 then s.setStream { x with pre := x.pre + 1 }
  else s.streamFailAt 0x01 0

/-- A header word. DEDUCED, log entry 32. -/
def State.takeHeader (s : State) (w : Word) : State :=
  let x := s.stream
  let t := w.bits 24 8
  let n := w.bits 0 24
  if !knownTag t then s.streamFail 0x02
  else if t = tagRegion ∧ x.full then s.streamFail 0x09
  else if t = tagAnalog ∧ !x.full then s.streamFail 0x21
  else if !mayFollow x.full x.last t then s.streamFail 0x03
  else if !lengthOk t n then s.streamFail 0x04
  else
    let dig := if t = tagDigest then shakeWords (x.taken.drop 1).reverse else x.digest
    s.setStream { x with last := t, tag := if n = 0 then 0 else t, len := n, got := 0, entry := none, frame := [], digest := dig }

/-- A body word. -/
def State.takeBody (s : State) (w : Word) : State :=
  let x := s.stream
  let i := x.got
  let done := decide (i + 1 = x.len)
  let s := s.setStream { x with got := i + 1, tag := if done then 0 else x.tag }
  if x.tag = tagDevice then s.takeDevice i w
  else if x.tag = tagRegion then s.takeRegion w
  else if x.tag = tagFrames then s.takeFrames i w
  else if x.tag = tagAnalog then s.takeAnalog (x.len - (i + 1)) w
  else if x.tag = tagStartup then s.takeStartup i w
  else if x.tag = tagDigest then s.takeDigest i w
  else if x.tag = tagSignature then s.takeSignature i w
  else s.takeEnd w

/-- The controller takes a word. -/
def State.takeStreamWord (s : State) (w : Word) : State :=
  let x := s.stream
  if !x.synced then s.takePreamble w
  else
    let isEnd := x.tag == tagEnd
    let hashed := x.last != tagDigest && x.last != tagSignature && x.last != tagEnd
    let s := s.setStream { x with
      pos := x.pos + 1, crc := if isEnd then x.crc else crcWord x.crc w, taken := if hashed then w :: x.taken else x.taken }
    let s := s.countWord
    if x.tag = 0 then s.takeHeader w else s.takeBody w

/-! ## The units that the commands take -/

/-- What the next word belongs to. -/
inductive StreamUnit
  | preamble | sync | device | region | frames | frame | analog | startup | digest | signature | ending
  | unknown
  deriving DecidableEq, Repr

def unitOfTag (t : Nat) : StreamUnit :=
  if t = tagDevice then .device
  else if t = tagRegion then .region
  else if t = tagFrames then .frames
  else if t = tagAnalog then .analog
  else if t = tagStartup then .startup
  else if t = tagDigest then .digest
  else if t = tagSignature then .signature
  else if t = tagEnd then .ending
  else .unknown

/-- The word that waits at the source. A ring's words come as pairs of 16-bit words (R416). -/
def State.streamHead (s : State) : Option Word :=
  if s.stream.src = 1 then
    match (s.feed feedCfg).inq with
    | a :: b :: _ => some (BitVec.ofNat 32 (a.val + 65536 * b.val))
    | _ => none
  else s.stream.waiting.head?

/-- `s` with that word taken from its source. -/
def State.streamPop (s : State) : State :=
  if s.stream.src = 1 then (s.consume feedCfg 2).pumpRing s.stream.ring 2
  else s.setStream { s.stream with waiting := s.stream.waiting.drop 1 }

/-- Whether the controller takes words: a full stream in Load, or a partial one whose cabinet's gate has closed, and no
signature under verification. -/
def State.takesWords (s : State) : Bool :=
  let x := s.stream
  x.active && !x.sigWait && match x.kind with
    | .full => s.mode == .load
    | .region _ => x.gate

/-- The unit the next word belongs to. -/
def State.nextUnit (s : State) : Option StreamUnit :=
  if !s.takesWords then none
  else
    match s.streamHead with
    | none => none
    | some w =>
      let x := s.stream
      some (if !x.synced then (if w = 0x4B454E31 then .sync else .preamble)
        else if x.tag = 0 then unitOfTag (w.bits 24 8)
        else if x.tag = tagFrames ∧ 2 ≤ x.got then .frame
        else unitOfTag x.tag)

/-- Whether a unit has just ended. -/
def State.unitEnded (s : State) : Bool :=
  let x := s.stream
  !s.takesWords || x.tag == 0 || (x.tag == tagFrames && decide (2 ≤ x.got) && x.frame.isEmpty) ||
    (x.tag == tagAnalog && decide (0 < x.got) && x.entry.isNone)

/-- The words of one unit are taken, as far as they have arrived. A word of no known record is taken by whichever record
command comes. DESIGN CHOICE, log entry 33. -/
def State.takeUnit (s : State) (u : StreamUnit) (fuel : Nat) : State :=
  match fuel with
  | 0 => s
  | k + 1 =>
    match s.nextUnit, s.streamHead with
    | some v, some w =>
      if v = u ∨ (v = .unknown ∧ u ≠ .preamble ∧ u ≠ .sync) then
        let t := s.streamPop.takeStreamWord w
        if t.unitEnded then t else t.takeUnit u k
      else s
    | _, _ => s

/-- A command takes its unit; `flash` holds what the QSPI flash delivers meanwhile, where that is the source (R358).
DESIGN CHOICE, log entry 33. -/
def State.runUnit (s : State) (u : StreamUnit) (flash : List Word) : State :=
  let x := s.stream
  let s := if x.src = 2 ∧ x.active then s.setStream { x with
      waiting := x.waiting ++ flash, qspi := x.qspi.map fun q => { q with words := q.words + flash.length } } else s
  let n := s.stream.waiting.length + (s.ring s.stream.ring).arrived.length + 4
  s.takeUnit u n

/-! ## Meanings -/

def execPreambleWord (flash : List Word) (s : State) : Out := .next (s.runUnit .preamble flash)
def execSyncWord (flash : List Word) (s : State) : Out := .next (s.runUnit .sync flash)
def execDevice (flash : List Word) (s : State) : Out := .next (s.runUnit .device flash)
def execRegion (flash : List Word) (s : State) : Out := .next (s.runUnit .region flash)
def execFrames (flash : List Word) (s : State) : Out := .next (s.runUnit .frames flash)
def execFrame (flash : List Word) (s : State) : Out := .next (s.runUnit .frame flash)
def execAnalogEntry (flash : List Word) (s : State) : Out := .next (s.runUnit .analog flash)
def execStartup (flash : List Word) (s : State) : Out := .next (s.runUnit .startup flash)
def execDigest (flash : List Word) (s : State) : Out := .next (s.runUnit .digest flash)
def execSignature (flash : List Word) (s : State) : Out := .next (s.runUnit .signature flash)
def execEnd (flash : List Word) (s : State) : Out := .next (s.runUnit .ending flash)

/-- The peer's controller has taken a word from its sync word on, and it arrives over the Bunk link (R359). -/
def execTwinStreamWord (w : Word) (s : State) : Out :=
  .next (if s.part.isTwin ∧ s.stream.active ∧ s.stream.src = 3 ∧ s.mode = .load then
    s.setStream { s.stream with waiting := s.stream.waiting ++ [w] } else s)

/-! ## The QSPI flash (R358) -/

/-- QSPI_CS_N. -/
def State.qspiCsN (s : State) : Bool := s.stream.qspi.isNone

/-- What the device shifts out at the start of a transaction, byte by byte: the command 0x6B, the 3-byte address, most
significant byte first (DESIGN CHOICE, log entry 33), then 8 dummy clocks. -/
def QspiRead.head (q : QspiRead) : List Nat := [0x6B, q.start / 65536 % 256, q.start / 256 % 256, q.start % 256]
def QspiRead.dummies : Nat := 8

/-- The byte address that the next word comes from, and the MCLK cycles of one QSPI clock. -/
def QspiRead.addr (q : QspiRead) : Nat := (q.start + 4 * q.words) % 2 ^ 24
def QspiRead.mclks (q : QspiRead) : Nat := 2 * (q.clkdiv + 1)

/-- The words in the BAR4 FIFO; those beyond it stand in writes whose credits the device withholds (R357). -/
def State.bar4Fifo (s : State) : List Word := s.stream.waiting.take 1024
def State.bar4Withheld (s : State) : List Word := s.stream.waiting.drop 1024

/-- Words written to BAR4 (R357): each with whether all its byte enables are set. -/
def State.bar4 (s : State) (words : List (Word × Bool)) : State :=
  let x := s.stream
  let open_ := s.mode == .load && x.active && x.src == 0
  let take : List Word := if open_ then (words.filter (·.2)).map (·.1) else []
  let s := s.setStream { x with waiting := x.waiting ++ take }
  s.flagIf (decide (take.length ≠ words.length)) Fld.CFG_STAT_STRAY

/-! ## Signatures (R354, R479) -/

/-- What the Bureau decides about the SIGNATURE taken: slot enrolled and not revoked, key digest, height against the key's
OID, and the signature over the stream's DIGEST. -/
def State.signatureGood (s : State) : Bool :=
  let x := s.stream
  let w0 := x.sig.headD 0
  let slot := w0.bits 0 2
  let h := w0.bits 8 5
  let key := ((x.sig.drop 1).take 17).flatMap wordBytesOf
  let sig := (x.sig.drop 18).flatMap wordBytesOf
  (s.f Fld.BUR_POLICY_ENROLLED).testBit slot && !(s.f Fld.BUR_POLICY_REVOKED).testBit slot &&
    shake256 key == (s.bur.nv.slots[slot]?).getD [] && oidOf h == some (key.take 4) &&
    xmssVerifies 1 h 4 key x.digest sig

/-- The Bureau's verification ends after `mclk` cycles, at most the 4 ms of R354. DESIGN CHOICE, log entry 33. -/
def execSignatureVerification (mclk : Nat) (s : State) : Out :=
  let x := s.stream
  if 800000 < mclk then .fault .illFormed
  else .next (if x.active ∧ x.sigWait ∧ s.bur.running ∧ (!x.full || s.mode == .load) then
    if s.signatureGood then
      let s := s.setStream { x with sigWait := false, signed := true }
      (match x.kind with
      | .full => s.setF Fld.CFG_STAT_SIGNED 1
      | .region _ => s.setF Fld.SCRB_RLD_STAT_SIGNED 1)
    else s.streamFail 0x13
  else s)

end Sys2Proof.Machine
end

