-- ==== Sys2Proof/Machine/LoadEnd.lean ====
section
/-! DEFINITION. The end of a load: Verify and Wake-up (R363 to R366), the partial stream's checks, its start and the release of
its cabinet (R380 to R384). -/

namespace Sys2Proof.Machine

/-! ## Verify (R363) -/

/-- Whether the stream carries the signature that the policy asks for (R480). -/
def State.policyMet (s : State) : Bool :=
  let x := s.stream
  x.signed || (!s.on Fld.BUR_POLICY_REQ_SIGNED && (!x.full || x.secmask == 0))

/-- Entry to Wake-up at w0: the hard-block digest goes to the Bureau (R366). DEDUCED, log entry 34. -/
def State.enterWakeUp (s : State) : State :=
  let x := s.stream
  let hard := (Tab.get (fun _ => []) x.meas 32).reverse ++ x.analog.reverse
  let s := { s with bur := { s.bur with hard := shakeWords hard } }
  (s.setF Fld.CFG_STAT_PHASE 4).toMode .wakeUp 6

/-- The checks of Verify, in their order; the policy check is the Bureau's, and waits for it (R29, R31). DESIGN CHOICE, log
entry 33. -/
def State.verifyLoad (s : State) : State :=
  let x := s.stream
  let pos := s.f Fld.CFG_WORDS
  if (x.crc ^^^ 0xFFFFFFFF) ≠ x.crcEnd then s.loadFail 0x10 pos
  else if x.next.isSome then s.loadFail 0x11 pos
  else if !s.bur.running then s
  else if !s.policyMet then s.loadFail 0x14 pos
  else
    let s := s.census
    if s.on Fld.AC_CENSUS_PASS then s.enterWakeUp else s.loadFail 0x15 pos

def execVerify (s : State) : Out := .next (if s.mode = .verify then s.verifyLoad else s)

/-! ## Wake-up (R363 to R366) -/

/-- Every present group shows REF_SETTLED. -/
def State.allSettled (s : State) : Bool := (List.range s.part.numCG).all fun g => s.on Fld.CG_STAT_REF_SETTLED g

/-- The deferred writes are applied, in stream order (R351). -/
def State.applyDeferred (s : State) : State := s.stream.deferred.foldl (fun s e => s.streamWrite e.1 e.2) s

/-- The marks of a cabinet that starts: SECURE, TAINT, the claim (R339, R384, R484, R485); one that is not marked secure loses
its secure channels (R429). -/
def State.markCab (s : State) (k : Nat) (secure : Bool) : State :=
  let s := (s.setB Fld.SCRB_CB_STATE_SECURE secure k).setWord (Reg.BUR_CLAIM.addr k 0) 0
  let s := if secure then s else s.freeSecure k
  let t := s.f Fld.BUR_TAINT
  s.setF Fld.BUR_TAINT (if secure then t ||| 2 ^ k else t - (if t.testBit k then 2 ^ k else 0))

/-- The release of CBk in a full load. -/
def State.releaseCab (s : State) (k : Nat) : State :=
  let x := s.stream
  let s := ((s.startCells k).flushBoundary k).clearCrossings k
  let s := (s.setB Fld.FAB_CTL_CLKEN (x.cbmask.testBit k) k).setCbState k 1
  let s := s.markCab k (x.secmask.testBit k)
  let ws := (Tab.get (fun _ => []) x.meas k).reverse
  s.setCab k { s.cab k with
    released := true
    meas := { dstate := 2, bytes := ws.flatMap wordBytesOf, design := x.design, frames := 768, reason := 0, signed := x.signed } }

/-- The I/O-enable step (R362, R363): it counts as a write to every APn_CTL (R236). What a split or a
failover has switched off is on again. -/
def State.enableIo (s : State) : State :=
  let s := { s with dio := { s.dio with ioOn := true }, twin := { s.twin with fenced := false, silent := false } }
  (List.range s.part.numAP).foldl (fun s n => s.wmHold n) s

/-- Wake-up from w1 on: deferred writes, releases, I/O enable, entry to Run; `mclk` cycles have passed since sync.
DESIGN CHOICE, log entry 33. -/
def State.finishLoad (s : State) (mclk : Nat) : State :=
  let s := s.applyDeferred
  let s := ((List.range s.part.numCB).foldl (fun s k => s.releaseCab k) s).enableIo
  let s := (s.setF Fld.CFG_STAT_PHASE 5).setF Fld.CFG_TIME (min mclk (2 ^ 32 - 1))
  let s := s.dropStream.toMode .run 7
  let s := { s with pins := { s.pins with done := true }, pwr := { s.pwr with lastRun := some s.lcs.time } }
  s.startConverting.pump

/-- The reference wait ends (R364): at once with REFWAIT = 0, when every present group is settled with REFWAIT = 1. -/
def execReferenceWait (mclk : Nat) (s : State) : Out :=
  .next (if s.mode = .wakeUp ∧ (!s.stream.refwait || s.allSettled) then s.finishLoad mclk else s)

/-- The reference wait times out (R364): the load goes on. -/
def execRefTmo (mclk : Nat) (s : State) : Out :=
  .next (if s.mode = .wakeUp ∧ s.stream.refwait ∧ ¬ s.allSettled then
    (s.flag Fld.CFG_STAT_REF_TMO).finishLoad mclk else s)

/-! ## Partial streams (R380 to R384) -/

/-- REGION_LOAD_BEGIN is accepted for CBk (R381, R387). DEDUCED, log entry 32. -/
def State.regionBegin (s : State) (k src ring : Nat) : State :=
  let secure := s.isSecure k
  let s := (s.stopPorts k).isolate k
  let s := (s.setF Fld.FAB_CTL_CLKEN 0 k).resetPorts k
  let s := ((s.setWord (Reg.SCRB_CB_SGL.addr k 0) 0).setWord (Reg.SCRB_CB_DBL.addr k 0) 0).setF Fld.SCRB_CB_STATE_REASON 0 k
  let s := ((s.setF Fld.SCRB_RLD_WORDS 0).setF Fld.SCRB_RLD_FRAMES 0).setF Fld.SCRB_RLD_ERRPOS 0
  let s := s.setWord Reg.SCRB_RLD_STAT.base (BitVec.ofNat 32 (256 * k + 1))
  let s := (s.setCbState k 2).setMeas k { MeasRec.none with dstate := 1 }
  let s := s.setStream { Stream.init with
    active := true, kind := .region k, src := src, ring := ring, next := some (k * 2 ^ 17), wasSecure := secure,
    qspi := s.flashRead src }
  let s := if src = 1 then (s.connect feedCfg (downCode ring)).pump else s
  if s.mode = .run then s.toMode .partialRun 0xA else s

/-- The clock gates of the cabinet have closed: words are taken from now on (R381). -/
def execRegionStreamStart (s : State) : Out :=
  .next (match s.stream.kind with
    | .region _ => if s.stream.active then s.setStream { s.stream with gate := true } else s
    | .full => s)

/-- The checks of a partial stream, in their order (R382, R383). -/
def State.verifyRegion (s : State) (k : Nat) : State :=
  let x := s.stream
  let pos := s.f Fld.SCRB_RLD_WORDS
  if (x.crc ^^^ 0xFFFFFFFF) ≠ x.crcEnd then s.regionFail k 0x10 pos 6
  else if x.next.isSome then s.regionFail k 0x11 pos 6
  else if !s.policyMet then s.regionFail k 0x14 pos 6
  else if (x.secure ∨ x.wasSecure) ∧ ¬ x.signed then s.regionFail k 0x22 pos 6
  else
    let s := (s.setCbState k 3).setF Fld.SCRB_RLD_STAT_PHASE 4
    let s := s.setMeas k { (s.cab k).meas with dstate := 2, signed := x.signed }
    let s := s.setCab k { s.cab k with loaded := (x.secure, x.cbmask.testBit k) }
    (s.dropStream).flag Fld.SCRB_RLD_IRQ_DONE

def execRegionVerify (s : State) : Out :=
  .next (match s.stream.kind with
    | .region k => if s.stream.ended ∧ s.bur.running then s.verifyRegion k else s
    | .full => s)

/-- The release of a LOADED cabinet (R384). -/
def State.regionRelease (s : State) (k : Nat) : State :=
  let l := (s.cab k).loaded
  let s := ((((s.stopPorts k).startCells k).flushBoundary k).clearCrossings k).markCab k l.1
  let s := (s.endIsolation k).setB Fld.FAB_CTL_CLKEN l.2 k
  (s.setCbState k 1).endPartial

end Sys2Proof.Machine
end

