-- ==== Sys2Proof/Machine/View.lean ====
section
/-! DEFINITION. What a read of a register returns: the stored word with the fields that show the state of the blocks laid over
it, and what a read does beside (R9, R10, R458). -/

namespace Sys2Proof.Machine

/-- `w` with a field showing `v`. -/
def Word.show (w : Word) (f : FieldRef) (v : Nat) : Word := w.setBits f.lo f.width v

def Bool.asNat (b : Bool) : Nat := if b then 1 else 0

/-- PRBp_STAT.ACTIVE: the probe emits (R332). -/
def State.probeActive (s : State) (p : Nat) : Bool :=
  s.on Fld.PRB_CTL_EN p && s.mode.probes && match s.f Fld.PRB_SEL_KIND p with
    | 1 | 2 => decide (s.f Fld.PRB_SEL_CB p < s.part.numCB) && s.gclkRuns (s.f Fld.PRB_CTL_CLK p)
    | 3 => decide ((s.feed (feedPRB p)).src ≠ 0)
    | _ => false

/-! ## Blocks -/

/-- Longcase's registers; the head-entry registers of an empty capture FIFO read 0. DESIGN CHOICE, log entry 45. -/
def State.viewLcs (s : State) (b i : Nat) (w : Word) : Word :=
  if b = Reg.LCS_STAT.base then
    Word.show (Word.show w Fld.LCS_STAT_PLL_LOCK (Bool.asNat s.lclk)) Fld.LCS_STAT_SMP_VALID (Bool.asNat s.smpValid)
  else if b = Reg.PR_STAT.base then
    let t := s.trk i
    Word.show (Word.show w Fld.PR_STAT_STATE t.state.code) Fld.PR_STAT_EPOCH t.epoch
  else if b = Reg.TT_COUNT.base then BitVec.ofNat 32 (s.timerCount i)
  else if Reg.CAP_CTL.base ≤ b ∧ b ≤ Reg.CAP_POP.base then
    let l := s.capture i
    if b = Reg.CAP_STAT.base then Word.show w Fld.CAP_STAT_LEVEL l.length
    else
      match l with
      | [] => w
      | e :: _ =>
        if b = Reg.CAP_TS_LO.base then BitVec.ofNat 32 (ofSigned 64 e.ts)
        else if b = Reg.CAP_TS_HI.base then BitVec.ofNat 32 (ofSigned 64 e.ts / 2 ^ 32)
        else if b = Reg.CAP_TURN.base then BitVec.ofNat 32 e.turn
        else if b = Reg.CAP_FRAC.base then BitVec.ofNat 32 e.frac
        else if b = Reg.CAP_INFO.base then Word.show (Word.show w Fld.CAP_INFO_EPOCH e.epoch) Fld.CAP_INFO_STATE e.state
        else w
  else w

def State.viewAnalog (s : State) (b i : Nat) (w : Word) : Word :=
  if b = Reg.AP_STAT.base then Word.show w Fld.AP_STAT_ACTIVE (Bool.asNat (s.portActive i))
  else if b = Reg.AC_STAT.base then
    Word.show (Word.show w Fld.AC_STAT_SERVING (Bool.asNat (s.cell i).servingB)) Fld.AC_STAT_FC_RANGE
      (Bool.asNat (s.fcRange i))
  else w

/-- ENTRY is the entry that runs, ran last or is resumed; an empty entry log reads 0. DESIGN CHOICE, log entry 48. -/
def State.viewCg (s : State) (b g j : Nat) (w : Word) : Word :=
  let x := s.group g
  if b = Reg.CG_STAT.base then
    Word.show (Word.show w Fld.CG_STAT_SEQST x.core.seq.st.code) Fld.CG_STAT_ENTRY x.core.seq.entry
  else if b = Reg.CG_WIN_HIT.base then
    Word.show w Fld.CG_WIN_HIT_ARMED (Bool.asNat ((x.cmps[j]?).getD WinCmp.init).armed)
  else if b = Reg.CG_ROT_SPUR.base then
    (if s.f Fld.CG_CTL_MODE g = 2 ∨ s.f Fld.CG_ROT_STAT_UNCONV g ≠ 0 then 0 else w)
  else match x.elog with
    | [] => w
    | e :: _ =>
      if b = Reg.CG_ELOG_INFO.base then
        let v := Word.show (Word.show 0 Fld.CG_ELOG_INFO_VALID 1) Fld.CG_ELOG_INFO_LEVEL x.elog.length
        Word.show (Word.show v Fld.CG_ELOG_INFO_ENTRY e.entry) Fld.CG_ELOG_INFO_IDX_HI (e.idx / 2 ^ 32)
      else if b = Reg.CG_ELOG_IDX.base then BitVec.ofNat 32 e.idx
      else if b = Reg.CG_ELOG_TICK.base then BitVec.ofNat 32 e.tick
      else w

def State.viewFc (s : State) (b n : Nat) (w : Word) : Word :=
  let c := s.chain n
  if b = Reg.FC_STAT.base then Word.show w Fld.FC_STAT_ACTIVE (Bool.asNat (s.on Fld.FC_CTL_EN n && s.fcSclk n))
  else if b = Reg.FC_RS_STAT.base then
    Word.show w Fld.FC_RS_STAT_NOREF (Bool.asNat (s.on Fld.FC_CTL_RSEN n && decide (s.rsMode n = 1 ∨ s.rsMode n = 2) &&
      decide (s.fcClass n ≠ 1)))
  else if Reg.FC_GAP_INFO.base ≤ b ∧ b ≤ Reg.FC_GAP_CNT.base then
    match c.gaps with
    | [] => w
    | e :: _ =>
      if b = Reg.FC_GAP_INFO.base then
        let v := Word.show (Word.show 0 Fld.FC_GAP_INFO_VALID 1) Fld.FC_GAP_INFO_LEVEL c.gaps.length
        Word.show (Word.show v Fld.FC_GAP_INFO_CAUSE e.cause) Fld.FC_GAP_INFO_IDX_HI (e.idx / 2 ^ 32)
      else if b = Reg.FC_GAP_IDX.base then BitVec.ofNat 32 e.idx
      else BitVec.ofNat 32 (min e.cnt (2 ^ 32 - 1))
  else if Reg.FC_TLOG_INFO.base ≤ b ∧ b ≤ Reg.FC_TLOG_NSLOT.base then
    match c.tlog with
    | [] => w
    | e :: _ =>
      if b = Reg.FC_TLOG_INFO.base then
        let v := Word.show (Word.show 0 Fld.FC_TLOG_INFO_VALID 1) Fld.FC_TLOG_INFO_LEVEL c.tlog.length
        let v := Word.show (Word.show v Fld.FC_TLOG_INFO_NEWEPOCH (Bool.asNat e.newEpoch)) Fld.FC_TLOG_INFO_COAST
          (Bool.asNat e.coast)
        Word.show v Fld.FC_TLOG_INFO_FIRST_SLOT e.firstSlot
      else if b = Reg.FC_TLOG_TURN.base then BitVec.ofNat 32 e.turn
      else if b = Reg.FC_TLOG_F_LO.base then BitVec.ofNat 32 e.f
      else if b = Reg.FC_TLOG_F_HI.base then BitVec.ofNat 32 (e.f / 2 ^ 32 % 65536)
      else BitVec.ofNat 32 (e.nslot % 2 ^ 17)
  else w

def State.viewWm (s : State) (b n : Nat) (w : Word) : Word :=
  if b = Reg.WM_STAT.base then
    let m := s.wm n
    let v := Word.show (Word.show 0 Fld.WM_STAT_BLANKED (Bool.asNat m.blanked)) Fld.WM_STAT_UNRES_U (Bool.asNat m.upper.unres)
    let v := Word.show (Word.show v Fld.WM_STAT_UNRES_L (Bool.asNat m.lower.unres)) Fld.WM_STAT_RAW_U (Bool.asNat m.upper.raw)
    let v := Word.show (Word.show v Fld.WM_STAT_RAW_L (Bool.asNat m.lower.raw)) Fld.WM_STAT_OUT_U (Bool.asNat m.upper.out)
    Word.show v Fld.WM_STAT_OUT_L (Bool.asNat m.lower.out)
  else if b = Reg.WM_ISUM.base then s.wmSum n
  else w

def DacSt.code : DacSt → Nat
  | .idle => 0 | .wait => 1 | .play => 2

def State.viewDa (s : State) (b d : Nat) (w : Word) : Word :=
  if b = Reg.DA_STAT.base then
    let x := s.dac d
    Word.show (Word.show (Word.show w Fld.DA_STAT_LEVEL x.fifo.length) Fld.DA_STAT_ENTRY x.seg.entry) Fld.DA_STAT_STATE
      x.st.code
  else w

def State.viewDma (s : State) (b r : Nat) (w : Word) : Word :=
  if b = Reg.DMA_RSTAT.base then
    Word.show (Word.show w Fld.DMA_RSTAT_FULL (Bool.asNat (decide (s.ringFill r = s.nblk r)))) Fld.DMA_RSTAT_HELD
      (Bool.asNat (s.ringHolds r))
  else if b = Reg.DMA_PDIR_LO.base then BitVec.ofNat 32 (s.pd (s.f Fld.DMA_PDIR_IDX))
  else if b = Reg.DMA_PDIR_HI.base then BitVec.ofNat 32 (s.pd (s.f Fld.DMA_PDIR_IDX) / 2 ^ 32)
  else w

def State.viewFabric (s : State) (b k j : Nat) (w : Word) : Word :=
  if b = Reg.FAB_CSTAT.base then
    Word.show (Word.show w Fld.FAB_CSTAT_CLK_USED (s.clkUsed k)) Fld.FAB_CSTAT_RUNNING (Bool.asNat (s.cbRuns k))
  else if b = Reg.FAB_PEEK_DATA.base then (s.peek k).readData
  else if b = Reg.DIO_IN.base then bits32 fun p => s.pinLevel (32 * k + p)
  else if b = Reg.DIO_FPI_STAT.base then BitVec.ofNat 32 (s.inPort k j).fifo.length
  else if b = Reg.DIO_FPO_STAT.base then
    Word.show (BitVec.ofNat 32 (s.outPort k j).fifo.length) Fld.DIO_FPO_STAT_HELD (Bool.asNat (s.sourceHeld (portCode k j)))
  else if b = Reg.PRB_STAT.base then Word.show w Fld.PRB_STAT_ACTIVE (Bool.asNat (s.probeActive k))
  else w

/-! ## Power limits (R509) -/

/-- PWR_STAT.BLOCK. -/
def State.pwrBlock (s : State) : Nat :=
  let cabs := List.range s.part.numCB
  let gs := List.range s.part.numCG
  let ds := List.range s.part.numDA
  let b0 := cabs.any fun k => s.cbRuns k && !(s.f Fld.PWR_CBPAUSE).testBit k
  let b1 := s.on Fld.BUR_STATUS_BUSY
  let b2 := match s.pwr.lastRun with | some t => decide (s.lcs.time < t + 1000) | none => false
  let b3 := gs.any fun g => s.on Fld.CG_CTL_EN g &&
    decide (2 ≤ (s.group g).core.seq.st.code ∧ (s.group g).core.seq.st.code ≤ 5)
  let b4 := gs.any fun g => decide (s.rotst g = 2 ∨ s.rotst g = 3)
  let b5 := ds.any fun d =>
    let x := s.dac d
    let e := match s.samplePos ((s.lcs.time : Rat) * 64) with | some p => p.floor.toNat / 4 | none => 0
    let ahead : Bool := match s.daReport d e with | some t => decide (s.lcs.time < t) | none => true
    (x.st == .play && ahead) ||
      (s.on Fld.DA_CTL_EN d && x.st == .wait &&
        (decide (x.seg.entry ≠ s.f Fld.DA_CTL_FIRST d) || !x.fifo.isEmpty))
  Bool.asNat b0 + 2 * Bool.asNat b1 + 4 * Bool.asNat b2 + 8 * Bool.asNat b3 + 16 * Bool.asNat b4 + 32 * Bool.asNat b5

/-- PWR_STAT.LIMIT: a mode code, 5 (none) to 9 (Slumber); 6 does not occur. -/
def State.pwrLimit (s : State) : Nat :=
  let b := s.pwrBlock
  let byBlock := if b % 8 ≠ 0 then 5 else if b ≠ 0 then 7 else 9
  min (s.f Fld.PWR_STAT_CEIL) byBlock

/-! ## A register as it reads -/

/-- A DIO bank's supply (R325). -/
def State.vokWord (s : State) (b : Nat) : Word := if s.dio.vok.testBit b then 1 else 0

/-- The value of the register at offset `a` of BAR0. -/
def State.view (s : State) (a : Nat) : Word :=
  match regAt a with
  | none => 0
  | some r =>
    if !regPresent s.part a then 0
    else
      let w := s.word a
      let b := r.row.reg.base
      if a < 0x10000 then (if a = 0 then BitVec.ofNat 32 (0x4B4E * 65536 + s.part.code) else w)
      else if b = Reg.MSIX_PBA.base then bits32 fun k => (s.vec 0 (32 * r.i + k)).pendingBit
      else if b = Reg.PGH_SNDSUM.base then bits32 fun k => (s.chan (32 * r.i + k)).sndIrq
      else if b = Reg.PGH_RCVSUM.base then bits32 fun k => (s.chan (32 * r.i + k)).rcvIrq
      else if b = Reg.CFG_FIFO.base then
        (if s.stream.active ∧ s.stream.src = 0 then BitVec.ofNat 32 (min 1024 s.stream.waiting.length) else 0)
      else if b = Reg.PWR_STAT.base then Word.show (Word.show w Fld.PWR_STAT_BLOCK s.pwrBlock) Fld.PWR_STAT_LIMIT s.pwrLimit
      else if a < 0x80000 then w
      else if a < 0xA0000 then s.viewLcs b r.i w
      else if a < 0x100000 then s.viewAnalog b r.i w
      else if a < 0x200000 then s.viewCg b r.i r.j w
      else if a < 0x500000 then s.viewFc b r.i w
      else if a < 0x520000 then s.viewWm b r.i w
      else if a < 0x540000 then s.viewDa b r.i w
      else if 0x580000 ≤ a ∧ a < 0x600000 then s.viewDma b r.i w
      else if 0x600000 ≤ a ∧ a < 0x6C0000 then s.viewFabric b r.i r.j w
      else w

/-- Whether clock `k` runs: 0 LCLK, 1 + g the SCLK of CGg. -/
def State.clockRuns (s : State) (k : Nat) : Bool := if k = 0 then s.lclk else s.sclk (k - 1)

/-- The clock, of those that may stop, in which the register file at `a` lies (R496, R497). -/
def State.fileClock (s : State) (a : Nat) : Option Nat :=
  if 0x80000 ≤ a ∧ a < 0xA0000 then some 0
  else if 0x100000 ≤ a ∧ a < 0x200000 then some (1 + (a - 0x100000) / 0x1000)
  else if 0x200000 ≤ a ∧ a < 0x500000 then
    let n := (a - 0x200000) / 0x1000
    some (1 + s.fcGroup n (s.f Fld.FC_SRC_SRC n))
  else if 0x520000 ≤ a ∧ a < 0x540000 then some (1 + (a - 0x520000) / 0x100)
  else none

/-- Whether the clock of the register file at `a` runs. -/
def State.fileRuns (s : State) (a : Nat) : Bool := (s.fileClock a).all s.clockRuns

/-- A read of the register at `a` (R10, R458): its value goes to readData, its RC fields clear, and the data ports advance. -/
def State.readReg (s : State) (a : Nat) : State :=
  match regAt a with
  | none => { s with readData := 0 }
  | some r =>
    if !regPresent s.part a then { s with readData := 0 }
    else if !s.fileRuns a then { s with readData := 0xFFFF0BAD }
    else
      let b := r.row.reg.base
      if b = Reg.FC_RS_CDATA.base then s.cdataRead r.i
      else if b = Reg.DA_PDATA.base then s.pdataRead r.i
      else if b = Reg.FAB_PEEK_DATA.base then s.peek r.i
      else
        let rc := r.row.mask (· == .rc)
        { s with readData := s.view a }.setWord a (s.word a &&& ~~~rc)

end Sys2Proof.Machine
end

