-- ==== Sys2Proof/Machine/Bureau.lean ====
section
/-! DEFINITION. The Bureau's command transport (chapter 19): submission, the checks of R48, bulk payloads, completion; the
attestation key's index; halts and restarts (R475). -/

namespace Sys2Proof.Machine

/-! ## Legality (R46) -/

/-- The codes of the command table, each with the modes it is legal in. -/
def commandTable : List (Nat × List Mode) :=
  let all : List Mode := [.blank, .load, .verify, .wakeUp, .run, .partialRun, .doze, .nap, .slumber, .bench, .faultMode]
  let idle : List Mode := [.blank, .run, .partialRun, .bench, .faultMode]
  [(0x01, all), (0x02, [.blank, .run, .doze, .nap, .slumber, .bench, .faultMode]), (0x03, all),
   (0x10, [.blank, .run, .faultMode]), (0x11, [.load, .partialRun]), (0x12, all),
   (0x18, [.run, .partialRun]), (0x19, [.run, .partialRun]),
   (0x20, [.bench]), (0x21, [.bench]), (0x22, idle), (0x23, [.blank, .bench]),
   (0x28, [.run, .partialRun]), (0x30, idle), (0x31, idle), (0x38, idle), (0x39, idle), (0x40, idle),
   (0x41, [.blank]), (0x42, [.blank]), (0x48, [.run]), (0x49, idle),
   (0x50, [.blank, .run, .partialRun, .doze, .nap, .slumber, .bench, .faultMode])]

def commandKnown (code : Nat) : Bool := commandTable.any fun e => e.1 == code

def commandLegal (code : Nat) (m : Mode) : Bool := commandTable.any fun e => e.1 == code && e.2.contains m

/-- The commands that a standby's host may issue (R524). -/
def standbyMay (code : Nat) : Bool := [0x01, 0x03, 0x12, 0x40, 0x49].contains code

/-! ## Status codes (R470) -/

def stOk : Nat := 0
def stRefused : Nat := 1
def stBadArg : Nat := 2
def stOverBudget : Nat := 3
def stBusy : Nat := 4
def stAuthFail : Nat := 5
def stCrcFail : Nat := 6
def stDisagree : Nat := 9
def stNoSpare : Nat := 10
def stTimeout : Nat := 11
def stAborted : Nat := 12
def stNotPresent : Nat := 13

/-! ## Submission (R46, R466, R467) -/

/-- Argument `i`. -/
def State.arg (s : State) (i : Nat) : Word := s.word (Reg.BUR_ARG.addr i 0)

def Job.init : Job := { status := 0, results := [], always := false, out := none, need := 0, got := [], commit := none }

def State.setJob (s : State) (j : Option Job) : State := { s with bur := { s.bur with job := j } }

/-- The command in progress ends with `status` and no results. -/
def State.answer (s : State) (status : Nat) : State := s.setJob (some { Job.init with status := status })

/-- Result `i` of a command. -/
def argIs (i v : Nat) : Nat × Word := (Reg.BUR_ARG.addr i 0, BitVec.ofNat 32 v)

/-- The command in progress ends with ST_OK and results. -/
def State.answerOk (s : State) (results : List (Nat × Word)) : State := s.setJob (some { Job.init with results := results })

/-- The checks of R48 from step 2 on, R524 among them, and then the command's own work. DESIGN CHOICE, log entry 39. -/
def State.judged (s : State) (code : Nat) (absent own : Bool) (k : State → State) : State :=
  if absent then s.answer stNotPresent
  else if !commandLegal code s.mode then s.answer stRefused
  else if s.standby ∧ own ∧ ¬ standbyMay code then s.answer stBusy
  else k s

/-- The host writes its arguments, the code and the tag, and rings the doorbell; or, where the doorbell has been rung with this
code already, the Bureau takes the command. `k` is the taking, told whether the host of this die issued the command; `i` is
the command, for the Bureau to take later while it is halted. DESIGN CHOICE, log entry 39. -/
def State.submit (s : State) (i : Instr) (code tag : Nat) (args : List Word) (k : Bool → State → State) : State :=
  let take := fun (s : State) (own : Bool) =>
    if s.bur.running then k own s else { s with bur := { s.bur with waiting := some i } }
  if s.on Fld.BUR_STATUS_BUSY then
    if s.bur.job = none ∧ s.bur.waiting = none ∧ s.f Fld.BUR_CMD_CODE = code then take s (!s.bur.mirrored)
    else s.flag Fld.BUR_STATUS_IGN
  else
    let s := (args.take 16).zipIdx.foldl (fun s e => s.setWord (Reg.BUR_ARG.addr e.2 0) e.1) s
    let s := (s.setF Fld.BUR_CMD_TAG tag).setF Fld.BUR_CMD_CODE code
    if s.mode = .reset then s.flag Fld.BUR_STATUS_IGN
    else take ({ s.setF Fld.BUR_STATUS_BUSY 1 with bur := { s.bur with mirrored := false } } : State) true

/-! ## Bulk payloads (R471, R472) -/

/-- Whether ring `r` can carry a payload out. -/
def State.bulkRing (s : State) (r : Nat) : Bool :=
  decide (r < 4096) && s.admitted r && !s.downstream r && s.f Fld.DMA_CFG_SRC r == 0

/-- The 16-bit words of a payload, padded to whole 32-bit words. -/
def bulkWords (bytes : List Nat) : List StreamWord :=
  (List.range ((bytes.length + 3) / 4 * 2)).map fun i =>
    plainWord ((bytes[2 * i]?).getD 0 % 256 + 256 * ((bytes[2 * i + 1]?).getD 0 % 256)) i

/-- The payload is on its way to ring `r`; the command ends with `results` when the ring has taken all of it. -/
def State.sendBulk (s : State) (r : Nat) (bytes : List Nat) (results : List (Nat × Word)) : State :=
  let ws := bulkWords bytes
  let s := s.setFeed (feedRing r) { src := 0, inq := ws, fresh := false }
  let s := s.setRing r { s.ring r with stopIn := some ws.length, bulkLost := false }
  s.setJob (some { Job.init with results := results, out := some r })

/-! ## The attestation key's index (R482) -/

/-- The next index is taken, from a new block of 64 where the last is used up. -/
def State.takeIndex (s : State) : State :=
  let i := s.keyIdx
  let s := if i = s.bur.nv.keyres then { s with bur := { s.bur with nv := { s.bur.nv with keyres := min (i + 64) (2 ^ 40) } } } else s
  (s.showKeys (i + 1)).keyLow

/-! ## Completion (R466, R475) -/

/-- Every result a command has. -/
def State.writeResults (s : State) (l : List (Nat × Word)) : State := l.foldl (fun s e => s.setWord e.1 e.2) s

/-- The command in progress is over: BUR_STATUS tells. -/
def State.endCommand (s : State) (status : Nat) : State :=
  let s := ((s.setF Fld.BUR_STATUS_BUSY 0).flag Fld.BUR_STATUS_DONE).setF Fld.BUR_STATUS_STATUS status
  let s := (s.setF Fld.BUR_STATUS_TAG (s.f Fld.BUR_CMD_TAG)).setF Fld.CAL_STAT_RUNNING 0
  ({ s with bur := { s.bur with job := none, bulkIn := none } }.connect feedBur 0).pump

/-- A commit's final write: the record is the stored set (R280, R281). -/
def State.commitSet (s : State) (c : CalSet) : State :=
  let s := { s with cal := { s.cal with store := some c } }
  let s := ((s.setF Fld.CAL_STORE_SEQ c.seq).setF Fld.CAL_STORE_VALID 1).setF Fld.CAL_STORE_EXPORTED 0
  ((s.setF Fld.CAL_STAT_DIRTY 0).setF Fld.CAL_STAT_IMPORTED 0).setF Fld.CAL_STAT_CMT_WHY 0

/-- CAL_IMPORT with its record read (R278): the status, and the working set where it passes. -/
def State.importRecord (s : State) (bytes : List Nat) : State × Nat :=
  match s.recordSet bytes with
  | none => (s, stBadArg)
  | some c =>
    if s.recordGood bytes then
      ((((s.loadCal c.value).setMarks []).flag Fld.CAL_STAT_IMPORTED).flag Fld.CAL_STAT_DIRTY, stOk)
    else (s, stAuthFail)

/-- What is left to do of job `j`: its status with its last effects, or none where its payload is not through.
DEDUCED, log entry 36. -/
def State.jobEnds (s : State) (j : Job) : Option (State × Nat) :=
  match j.out with
  | some r =>
    if !s.bulkRing r || (s.ring r).bulkLost then some (s, stAborted)
    else if (s.feed (feedRing r)).inq.isEmpty then some (s, j.status)
    else none
  | none =>
    if j.need = 0 then some (s, j.status)
    else
      let q := (s.feed feedBur).inq
      if j.need ≤ 2 * q.length then
        some (s.importRecord ((q.flatMap fun w => [w.val % 256, w.val / 256 % 256]).take j.need))
      else if s.bur.bulkIn.all fun r => s.admitted r then none
      else some (s, stAborted)

/-- The command in progress completes; in a pair `peer` is the status that the other die gives (R524).
DESIGN CHOICE, log entry 39. -/
def State.complete (s : State) (peer : Option Nat) : State :=
  match s.bur.job with
  | none => s
  | some j =>
    match s.jobEnds j with
    | none => s
    | some (t, status) =>
      let t := if status = stOk ∨ j.always then t.writeResults j.results else t
      let t := match j.commit with
        | some c => if status = stOk then t.commitSet c else t
        | none => t
      let t := t.flagIf (t.on Fld.TWN_STAT_PAIRED && peer.any (· != status)) Fld.TWN_IRQ_MISMATCH
      t.endCommand status

/-- DESIGN CHOICE, log entry 39. -/
def execCommandComplete (peer : Option Nat) (s : State) : Out := .next (if s.bur.running then s.complete peer else s)

/-! ## Halts (R475) -/

/-- The Bureau halts, and restarts: the command in progress ends with ST_ABORTED, and no background calibration keeps its bus
(R164, R263). DEDUCED, log entry 40. -/
def State.haltBureau (s : State) : State :=
  if s.bur.running then
    let s := match s.bur.job with
      | some j =>
        let s := match j.out with
          | some r => (s.setFeed (feedRing r) Feed.init).setRing r { (s.closeBlock r).ring r with stopIn := none, first := true }
          | none => s
        s.endCommand stAborted
      | none => s
    let s := { s with bur := { s.bur with running := false }, cal := { s.cal with bus := [none, none, none, none] } }
    ((s.addSat Fld.BUR_BOOT_RESTARTS 1).flag Fld.BUR_STAT_RESTART).resetBureauAgent
  else s

def execWatchdogExpiry (s : State) : Out := .next s.haltBureau
def execSramUncorrectableError (s : State) : Out := .next s.haltBureau

/-! ## Secure requests (R484) -/

/-- The secure channel on which the Bureau answers port (k, a). -/
def State.replyChan (s : State) (k a : Nat) : Option Nat :=
  (List.range 64).map (· + 1024) |>.find? fun c =>
    let x := s.chan c
    x.alloc && x.snd == Agent.bureau.code && x.rcv == (Agent.port k a).code

/-- The Bureau serves the request on secure channel `c`, where its OP is one that `ops` picks: `k` gives the reply's word for
the cabinet and the request, and the state after. DEDUCED, log entry 40. -/
def State.serve (s : State) (c : Nat) (ops : Nat → Bool) (k : Nat → Word → State → State × Word) : State :=
  let x := s.chan (1024 + c)
  match Agent.ofCode x.snd with
  | some (.port cb a) =>
    if s.bur.running ∧ x.alloc ∧ x.full ∧ x.rcv = Agent.bureau.code ∧ ops (x.word.bits 28 4) then
      match s.replyChan cb a with
      | none => (s.takeFrom (1024 + c)).flag Fld.BUR_STAT_SREQ_DROP
      | some r =>
        if (s.chan r).full then s
        else
          let t := k cb x.word (s.takeFrom (1024 + c))
          t.1.postOn r t.2
    else s
  | _ => s

/-- A reply with its status and data. -/
def reply (status data : Nat) : Word := BitVec.ofNat 32 (status * 65536 + data % 65536)

/-- A reply whose data the spec does not state (log entry 5). DEDUCED, log entry 40. -/
def State.freeReply (s : State) (status : Nat) : State × Word :=
  ({ s with freeCount := s.freeCount + 1 }, reply status (s.fresh 0))

/-- The measurement digest of CBk, as 32 bytes; zeros where the record holds none (R387). -/
def State.cabDigest (s : State) (k : Nat) : List Nat :=
  let m := (s.cab k).meas
  if m.dstate = 0 then List.replicate 32 0 else shake256 m.bytes

def execRandom (c v : Nat) (s : State) : Out :=
  onInst c 64 (.next (s.serve c (· == 1) fun _ _ s =>
    if s.bur.trngFails then s.freeReply 2 else (s, reply 0 v)))

def execDigestRequest (c : Nat) (s : State) : Out :=
  onInst c 64 (.next (s.serve c (· == 2) fun k w s =>
    let d := s.cabDigest k
    let i := w.bits 0 4
    (s, reply 0 ((d[2 * i]?).getD 0 + 256 * (d[2 * i + 1]?).getD 0))))

/-- A claim's halfword. -/
def State.claim (s : State) (high : Bool) (k : Nat) (w : Word) : State × Word :=
  let a := Reg.BUR_CLAIM.addr k 0
  (s.setWord a ((s.word a).setBits (if high then 16 else 0) 16 (w.bits 0 16)), reply 0 0)

def execClaimLow (c : Nat) (s : State) : Out := onInst c 64 (.next (s.serve c (· == 3) fun k w s => s.claim false k w))
def execClaimHigh (c : Nat) (s : State) : Out := onInst c 64 (.next (s.serve c (· == 4) fun k w s => s.claim true k w))

def execUnknownSecureOp (c : Nat) (s : State) : Out :=
  onInst c 64 (.next (s.serve c (fun op => op == 0 || decide (5 ≤ op)) fun _ _ s => s.freeReply 1))

end Sys2Proof.Machine
end

