-- ==== Sys2Proof/Machine/Cal.lean ====
section
/-! DEFINITION. The calibration commands (R270 to R281) and the temperature sensors (R269). -/

namespace Sys2Proof.Machine

/-! ## What a run calibrates (R270) -/

/-- One stretch of a run. -/
inductive CalTarget
  | rbuf (q : Nat) | cdac (q : Nat) | port (n : Nat) | cell (c : Nat) | slice (g sl : Nat) | monitor (n : Nat) | dac (d : Nat)
  deriving DecidableEq, Repr

/-- The numbers from `first` to `last` below `n`. -/
def span (first last n : Nat) : List Nat := (List.range n).filter fun i => decide (first ≤ i ∧ i ≤ last)

/-- The instances of classes 2 to 7, and the numbers each class has. -/
def classInstances (p : Part) (cls : Nat) : Nat :=
  match cls with
  | 2 => if p.is4820 then 2 else 4
  | 3 => p.numAP
  | 4 => p.numAC
  | 5 => p.numCG
  | 6 => p.numWM
  | _ => p.numDA

def classRange (cls : Nat) : Nat :=
  match cls with
  | 2 => 4
  | 3 => 96
  | 4 => 192
  | 5 => 24
  | 6 => 96
  | _ => 24

/-- The stretches of one of classes 2 to 7 for the present instances from `first` to `last`. -/
def classTargets (p : Part) (cls first last : Nat) : List CalTarget :=
  let l := span first last (classInstances p cls)
  match cls with
  | 2 => l.map .cdac
  | 3 => l.map .port
  | 4 => l.map .cell
  | 5 => l.flatMap fun g => (List.range 5).map fun sl => .slice g sl
  | 6 => l.map .monitor
  | _ => l.map .dac

/-- The stretches of a run, in order. -/
def calTargets (p : Part) (cls first last q : Nat) : List CalTarget :=
  if cls = 0 then [2, 3, 4, 5, 6, 7].flatMap fun c => classTargets p c 0 255
  else if cls = 1 then .rbuf q :: classTargets p 2 0 255
  else classTargets p cls first last

/-- The fields a stretch sets, in order, with their instance numbers and tolerances (R267). -/
def calFields (t : CalTarget) : List (FieldRef × Nat × Nat × Nat) :=
  match t with
  | .rbuf _ => [(Fld.CAL_RBUF_TRIM_GAIN, 0, 0, 2)]
  | .cdac q => [(Fld.CAL_CDAC_TRIM_OFS, q, 0, 2), (Fld.CAL_CDAC_TRIM_GAIN, q, 0, 4)]
  | .port n =>
    ((List.range 5).flatMap fun r => [(Fld.AP_ITRIM_OFS, n, r, 1), (Fld.AP_ITRIM_GAIN, n, r, 2)]) ++
      (List.range 3).flatMap fun r => [(Fld.AP_OTRIM_OFS, n, r, 1), (Fld.AP_OTRIM_GAIN, n, r, 2)]
  | .cell c => (List.range 2).flatMap fun k => [(Fld.AC_TRIM_OFS, c, k, 1), (Fld.AC_TRIM_GAIN, c, k, 2)]
  | .slice g sl =>
    [(Fld.CG_SL_TRIM_OFS, g, sl, 2), (Fld.CG_SL_TRIM_GAIN, g, sl, 4), (Fld.CG_SL_SKEW_SKEW, g, sl, 1),
      (Fld.CG_SL_RES_OG_ROFS, g, sl, 4), (Fld.CG_SL_RES_OG_RGAIN, g, sl, 4)]
  | .monitor n => [(Fld.WM_TRIM_OFS_U, n, 0, 1), (Fld.WM_TRIM_OFS_L, n, 0, 1)]
  | .dac d => [(Fld.DA_TRIM_OFS, d, 0, 1), (Fld.DA_TRIM_GAIN, d, 0, 2)]

/-! ## A run (R271 to R274) -/

/-- What a run has done so far: fields accepted, fields marked, instances skipped, worst residuals. -/
structure CalRun where
  accepted : Nat
  marked : List (Nat × Nat)
  skipped : Nat
  worst : List (Nat × Nat × Nat)
  deriving DecidableEq, Repr

def CalRun.init : CalRun := { accepted := 0, marked := [], skipped := 0, worst := [] }

/-- The buffer's GAIN at which REFQq, measured as `m` µV with GAIN `g`, measures `v` µV: V_REF grows by m / v (R260, R273).
DEDUCED, log entry 19. -/
def gainFor (g m v : Int) : Int :=
  if v = 0 then g
  else satSigned 12 (Config.nearest .refMeasure (((1 + (g : Rat) / 262144) * (m / v) - 1) * 262144))

/-- The null balance of REFQq against V_REF in µV (R273): the mean of the first of four attempts whose two readings lie within 2
buffer steps of each other (R267); none where no attempt does. -/
def State.refMeasure (s : State) (vstd : Int) (tries : List (Int × Int)) : Option Int :=
  let g := toSigned 12 (s.f Fld.CAL_RBUF_TRIM_GAIN)
  ((tries.take 4).find? fun e => decide ((gainFor g e.1 vstd - gainFor g e.2 vstd).natAbs ≤ 2)).map fun e =>
    Int.tdiv (e.1 + e.2) 2

/-- The attempts of a stretch, field by field; the reference buffer's GAIN follows from its measurement (R273). -/
def State.attempts (s : State) (t : CalTarget) (vstd : Int) (steps : List (List (Int × Int))) : List (List (Int × Int)) :=
  match t with
  | .rbuf _ =>
    match s.refMeasure vstd ((steps[0]?).getD []) with
    | some m => let v := gainFor (toSigned 12 (s.f Fld.CAL_RBUF_TRIM_GAIN)) m vstd; [[(v, v)]]
    | none => [[]]
  | _ => steps

/-- The class whose worst residual a stretch counts for, and its instance (R274). -/
def CalTarget.quality : CalTarget → Option (Nat × Nat)
  | .port n => some (Reg.CAL_Q.addr 0 0, n)
  | .cell c => some (Reg.CAL_Q.addr 1 0, c)
  | .monitor n => some (Reg.CAL_Q.addr 2 0, n)
  | .dac d => some (Reg.CAL_Q.addr 3 0, d)
  | _ => none

/-- A residual joins the worst ones: register, instance, residual. -/
def CalRun.residual (a : CalRun) (t : CalTarget) (res : Nat) : CalRun :=
  match t.quality with
  | none => a
  | some (r, i) =>
    match a.worst.find? fun e => e.1 == r with
    | none => { a with worst := a.worst ++ [(r, i, res)] }
    | some e => if e.2.2 < res then { a with worst := a.worst.map fun e => if e.1 = r then (r, i, res) else e } else a

/-- The fields of a stretch are counted over the passes it took, each with its attempts: a field accepted in a pass, and a field
marked in a pass, once each (R272, R274). DEDUCED, log entry 19. -/
def CalRun.count (a : CalRun) (t : CalTarget) (passes : List (List (List (Int × Int)))) : CalRun :=
  (calFields t).zipIdx.foldl (fun a e =>
    let f := e.1
    let good := passes.map fun tries => (calStep f.2.2.2 ((tries[e.2]?).getD [])).isSome
    { a with
      accepted := a.accepted + (if good.contains true then 1 else 0),
      marked := a.marked ++ (if good.contains false then [(f.1.addr f.2.1 f.2.2.1, f.1.lo)] else []) }) a

/-- The steps of a slice's calibration (R158, R161): once, and once more where it fails; then RETIRED follows. -/
def State.runSlice (s : State) (g sl : Nat) (m : CalMeas) : State × List (List (List (Int × Int))) :=
  let cal := fun (l : List (List (Int × Int))) (res : Nat) =>
    let at_ := fun i => (l[i]?).getD []
    ({ ofs := at_ 0, gain := at_ 1, skew := at_ 2, rofs := at_ 3, rgain := at_ 4, res := res } : SliceCal)
  let a := s.calSlice g sl (cal m.steps m.res)
  let b := if a.2 then a else a.1.calSlice g sl (cal m.again m.res2)
  let t := b.1.setB Fld.CG_SL_QUAL_RETIRED (!b.2) g sl
  (t.flagIf (!b.2) Fld.CG_ROT_IRQ_RETIRED g, if a.2 then [m.steps] else [m.steps, m.again])

/-- One stretch of a run. -/
def State.runTarget (s : State) (a : CalRun) (t : CalTarget) (vstd : Int) (m : CalMeas) : State × CalRun :=
  match t with
  | .monitor n =>
    if s.on Fld.WM_CTL_EN n then (s, { a with skipped := a.skipped + 1 })
    else
      (((calFields t).zipIdx.foldl (fun s e => (s.calField e.1.1 e.1.2.1 e.1.2.2.1 e.1.2.2.2 ((m.steps[e.2]?).getD [])).1) s),
        (a.count t [m.steps]).residual t m.res)
  | .slice g sl =>
    let r := s.runSlice g sl m
    (r.1, a.count t r.2)
  | _ =>
    let tries := s.attempts t vstd m.steps
    let s := match t with
      | .rbuf q =>
        match s.refMeasure vstd ((m.steps[0]?).getD []) with
        | some v => s.setWord (Reg.CAL_REFMEAS.addr q 0) (BitVec.ofInt 32 v)
        | none => s
      | _ => s
    let s := match t with
      | .cell c => [0, 1].foldl (fun s k =>
          if (calStep 1 ((tries[2 * k]?).getD [])).isSome then s.setCell c ((s.cell c).setNull k none) else s) s
      | _ => s
    (((calFields t).zipIdx.foldl (fun s e => (s.calField e.1.1 e.1.2.1 e.1.2.2.1 e.1.2.2.2 ((tries[e.2]?).getD [])).1) s),
      (a.count t [tries]).residual t m.res)

/-- DEDUCED, log entry 19. -/
def State.runTargets (s : State) (a : CalRun) (vstd : Int) : List CalTarget → List CalMeas → State × CalRun
  | [], _ => (s, a)
  | t :: ts, ms =>
    let r := s.runTarget a t vstd (ms.headD { steps := [], res := 0, again := [], res2 := 0 })
    r.1.runTargets r.2 vstd ts (ms.drop 1)

/-- What the registers show of a run once it is over (R274). -/
def CalRun.results (a : CalRun) : List (Nat × Word) :=
  let low := a.marked.foldl (fun m e => match m with | none => some e.1 | some x => some (min x e.1)) (none : Option Nat)
  [(Reg.CAL_RUNCNT.base,
      BitVec.ofNat 32 (65536 * min 65535 a.accepted + 256 * min 255 a.skipped + min 255 a.marked.length)),
    (Reg.CAL_DIS_FIRST.base, BitVec.ofNat 32 (low.getD 0))] ++
  a.worst.map fun e => (e.1, BitVec.ofNat 32 (65536 * e.2.1 + min 65535 e.2.2))

/-- CAL_RUN after the checks of R48. DEDUCED, log entry 19. -/
def State.calRun (s : State) (meas : List CalMeas) : State :=
  let cls := (s.arg 0).bits 0 3
  let first := (s.arg 1).toNat
  let last := (s.arg 2).toNat
  let q := (s.arg 3).bits 0 2
  let vstd := toSigned 32 (s.arg 4).toNat
  let bad := (2 ≤ cls ∧ (last < first ∨ classRange cls ≤ last)) ∨ (cls = 1 ∧ ¬ (500000 ≤ vstd ∧ vstd ≤ 990000))
  if bad then s.answer stBadArg
  else
    let ts := calTargets s.part cls first last q
    let r := s.runTargets CalRun.init vstd ts meas
    let groups := ((ts.filterMap fun t => match t with | .slice g _ => some g | _ => none).eraseDups)
    let t := (groups.foldl (fun s g => s.refillMap g) r.1).flag Fld.CAL_STAT_DIRTY
    let t := t.flag Fld.CAL_STAT_RUNNING
    t.setJob (some { Job.init with
      status := if r.2.marked.isEmpty then stOk else stDisagree, results := r.2.results, always := true })

/-- Whether CAL_RUN names an instance that is fused off (R272). -/
def State.calAbsent (s : State) : Bool :=
  let cls := (s.arg 0).bits 0 3
  let a := (s.arg 1).toNat
  let b := (s.arg 2).toNat
  if cls = 0 then false
  else if cls = 1 then decide ((if s.part.is4820 then 2 else 4) ≤ (s.arg 3).bits 0 2)
  else
    (List.range (classRange cls)).any fun i => decide (min a b ≤ i ∧ i ≤ max a b ∧ classInstances s.part cls ≤ i)

def State.takeCalRun (s : State) (own : Bool) (meas : List CalMeas) : State :=
  s.judged 0x20 s.calAbsent own fun s => s.calRun meas

def execCalRun (tag : Nat) (args : List Word) (meas : List CalMeas) (s : State) : Out :=
  .next (s.submit (.calRun tag args meas) 0x20 tag args fun own s => s.takeCalRun own meas)

/-! ## The stored set (R277 to R281) -/

/-- A refused commit, with its reason. -/
def State.refuseCommit (s : State) (status why : Nat) : State := (s.setF Fld.CAL_STAT_CMT_WHY why).answer status

/-- CAL_COMMIT after the checks of R48: the record is signed; its final write comes at completion. DEDUCED, log entry 20. -/
def State.calCommit (s : State) : State :=
  if (s.arg 0).bits 0 16 ≠ s.f Fld.CAL_STORE_SEQ then s.refuseCommit stBadArg 1
  else if s.on Fld.CAL_STORE_VALID ∧ ¬ s.on Fld.CAL_STORE_EXPORTED then s.refuseCommit stBadArg 2
  else if s.f Fld.CAL_STAT_NDIS ≠ 0 ∧ ¬ (s.arg 1).bit 0 then s.refuseCommit stDisagree 3
  else if s.keysUsed then s.answer stAuthFail
  else
    let i := s.keyIdx
    let c := s.workingSet ((s.f Fld.CAL_STORE_SEQ + 1) % 65536) []
    let c := { c with sig := attestSign i (s.recordDigest c) }
    s.takeIndex.setJob (some { Job.init with commit := some c })

def State.takeCalCommit (s : State) (own : Bool) : State := s.judged 0x21 false own State.calCommit

def execCalCommit (tag : Nat) (args : List Word) (s : State) : Out :=
  .next (s.submit (.calCommit tag args) 0x21 tag args fun own s => s.takeCalCommit own)

/-- CAL_EXPORT after the checks of R48. -/
def State.calExport (s : State) : State :=
  let r := (s.arg 0).bits 0 12
  if !s.bulkRing r then s.answer stBadArg
  else
    match s.cal.store with
    | some c =>
      if s.on Fld.CAL_STORE_VALID then
        let bytes := s.recordBytes c
        s.sendBulk r bytes [argIs 0 bytes.length,
          (Reg.CAL_STORE.base, (s.word Reg.CAL_STORE.base).setBits Fld.CAL_STORE_EXPORTED.lo 1 1)]
      else s.answer stCrcFail
    | none => s.answer stCrcFail

def State.takeCalExport (s : State) (own : Bool) : State := s.judged 0x22 false own State.calExport

def execCalExport (tag : Nat) (args : List Word) (s : State) : Out :=
  .next (s.submit (.calExport tag args) 0x22 tag args fun own s => s.takeCalExport own)

/-- CAL_IMPORT after the checks of R48: the record is read from the ring first (R472). -/
def State.calImport (s : State) : State :=
  let r := (s.arg 0).bits 0 12
  let n := (s.arg 1).toNat
  if ¬ (s.admitted r ∧ s.downstream r) ∨ n ≠ recordLength s.part then s.answer stBadArg
  else
    let s := { s with bur := { s.bur with bulkIn := some r } }
    ((s.connect feedBur (downCode r)).setJob (some { Job.init with need := n })).pump

def State.takeCalImport (s : State) (own : Bool) : State := s.judged 0x23 false own State.calImport

def execCalImport (tag : Nat) (args : List Word) (s : State) : Out :=
  .next (s.submit (.calImport tag args) 0x23 tag args fun own s => s.takeCalImport own)

/-! ## Temperature sensors (R269) -/

/-- Sensor `k` converts: `raw` in 1/16 °C before its trim. In Slumber only TS6 does. The first reading after
Slumber evaluates drift (R515). -/
def execTempConversion (k : Nat) (raw : Int) (s : State) : Out :=
  onInst k 8 (.next (
    if s.mode = .reset ∨ (s.mode = .slumber ∧ k ≠ 6) then s
    else
      let v := satSigned 16 (raw + toSigned 8 (s.f Fld.CAL_TS_TRIM_OFS k))
      ((s.setF Fld.CAL_TS_TEMP (ofSigned 16 v) k).setF Fld.CAL_TS_VALID 1 k).firstReading k))

end Sys2Proof.Machine
end

