-- ==== Sys2Proof/Machine/Power.lean ====
section
/-! DEFINITION. Power management (chapter 21): selection of a low-power state, its entry, its wakes and its exit. -/

namespace Sys2Proof.Machine

/-- E and X of R507, in ticks, for the mode codes 7 to 9. -/
def lowTimes (code : Nat) : Nat × Nat :=
  match code with
  | 7 => (500, 2000)
  | 8 => (5000, 40000)
  | _ => (100000, 2000000)

def lowMode (code : Nat) : Mode :=
  match code with
  | 7 => .doze
  | 8 => .nap
  | _ => .slumber

/-- M of R510, in ticks. -/
def State.margin (s : State) : Nat := 1000 * s.f Fld.PWR_CTL_MARGIN

/-- The tick of the next known event. -/
def State.nextTick (s : State) : Option Nat := s.lcs.next.map (·.1)

/-- Whether a wake has come in the present tick (R41). -/
def State.wokenNow (s : State) : Bool := s.pwr.wakeSeen == some s.lcs.time

/-- The deepest state, no deeper than LIMIT, from which the device can return before the next known event (R510). -/
def State.selectLow (s : State) : Option Nat :=
  [9, 8, 7].find? fun c =>
    decide (c ≤ s.pwrLimit) &&
      match s.nextTick with
      | none => true
      | some t => decide (s.lcs.time + (lowTimes c).1 + (lowTimes c).2 + s.margin ≤ t)

/-- PWR_TWAKE shows the armed self-wake; all ones when there is none. -/
def State.armWake (s : State) (t : Option Nat) (forTick : Option Nat) : State :=
  ({ s with pwr := { s.pwr with selfWake := t, armedFor := forTick } }).setPair Fld.PWR_TWAKE_LO Fld.PWR_TWAKE_HI
    (t.getD (2 ^ 64 - 1))

/-- The self-wake for the state with code `c` (R510). -/
def State.selfWakeFor (s : State) (c : Nat) : Option Nat := s.nextTick.map fun t => t - (lowTimes c).2 - s.margin

/-- The temperature sensors but TS6 stop (R269, R507). -/
def State.stopSensors (s : State) : State :=
  (List.range 8).foldl (fun s k => if k = 6 then s else s.setF Fld.CAL_TS_VALID 0 k) s

/-- Selection of the state with code `c`: its entry begins (R507, R37). -/
def State.enterLow (s : State) (c : Nat) : State :=
  let s := s.armWake (s.selfWakeFor c) s.nextTick
  let s := s.latchPins
  let s := if c = 7 then s else s.stopConverting
  let s := if c = 9 then (((s.writeHeld s.scrub.held).flushRings).clearHeld).stopSensors else s
  let s := s.toMode (lowMode c) 0xC
  let s := { s with pwr := { s.pwr with stage := .entering, wakeHeld := false, cause := 13 } }
  match c with
  | 7 => s.addWrap Fld.PWR_CNT_DOZES 1
  | 8 => s.addWrap Fld.PWR_CNT_NAPS 1
  | _ => s.addWrap Fld.PWR_CNT_SLUMBERS 1

/-- In a low state, an update moves the self-wake earlier but never later; a tick already reached wakes (R511). -/
def State.moveWake (s : State) : State :=
  match s.selfWakeFor s.mode.code with
  | none => s
  | some t =>
    if s.pwr.selfWake.any fun old => decide (old ≤ t) then s
    else
      let s := s.armWake (some t) s.nextTick
      if t ≤ s.lcs.time then s.wake 6 else s

/-- Run begins again (R512, R515). DESIGN CHOICE, log entry 21. -/
def State.exitLow (s : State) : State :=
  let m := s.mode
  let deep := m == Mode.nap || m == Mode.slumber
  let late := s.pwr.armedFor.any fun t => decide (t < s.lcs.time)
  let why := s.f Fld.PWR_STAT_WHY
  let s : State := s.toMode .run s.pwr.cause
  let s := (s.armWake none none).flag Fld.PWR_IRQ_EXIT
  let s := s.flagIf late Fld.PWR_IRQ_LATE
  let s := { s with
    dio := { s.dio with latched := none },
    pins := { s.pins with wakeLow := s.pins.wakeLow || (m == Mode.slumber && (why == 1 || why == 2)) },
    pwr := { s.pwr with
      stage := .awake, wakeHeld := false, leftAt := none, lastRun := some s.lcs.time,
      resense := if m == Mode.slumber then [0, 1, 2, 3, 4, 5, 7] else s.pwr.resense } }
  let s := if deep then s.dueOnReturn.startConverting else s
  let s := if m == Mode.slumber then s.restartAz else s
  s.pump

/-! ## Meanings -/

/-- LCS_NEXT is computed at tick `t` (R81), and power management evaluates (R510, R511). On a standby, `peer` is what the
primary does in that tick: 7 to 9 enters that state, 1 to 6 leaves it with that cause (R524). DESIGN CHOICE, log entry 21. -/
def execNextEventUpdate (t : Nat) (peer : Option Nat) (s : State) : Out :=
  if !s.lclk then .next s
  else
    let s := s.updateNext t
    if s.standby then
      .next (match peer with
        | some c =>
          if 7 ≤ c ∧ c ≤ 9 then (if s.mode = .run then s.enterLow c else s)
          else if 1 ≤ c ∧ c ≤ 6 then s.wakeOwn c else s
        | none => s)
    else if s.mode = .run then
      .next (if s.wokenNow then s
        else match s.selectLow with
        | some c => s.enterLow c
        | none => s)
    else if s.mode.low then .next s.moveWake
    else .next s

/-- The armed tick is reached (R511), which it is not while LCLK stands. -/
def execSelfWake (s : State) : Out :=
  match s.pwr.selfWake with
  | some t => .next (let s := s.atTick t; if t ≤ s.lcs.time then s.wake 3 else s)
  | none => .next s

/-- Whether every delay line is empty, as it must be before Slumber stops SCLK (R137), and no word of a ring that holds no
source back is still on its way, as it must be before the last open block closes (R507). -/
def State.linesDrained (s : State) : Bool :=
  (s.groups.all fun e => e.2.core.held.isEmpty) &&
    s.admittedRings.all fun r => s.downstream r || s.on Fld.DMA_CFG_POLICY r || (s.feed (feedRing r)).inq.isEmpty

/-- The entry is complete, which an entry to Slumber is only once the delay lines have drained (R137), with the blocks that
their last words opened closed and written too (R507); a wake that came meanwhile starts the exit at once (R513). -/
def execPowerStateEntry (s : State) : Out :=
  if s.mode.low ∧ s.pwr.stage = .entering ∧ (s.mode = .slumber → s.linesDrained = true) then
    let s := if s.mode = .slumber then s.flushRings else s
    .next (if s.pwr.wakeHeld then s.leave else { s with pwr := { s.pwr with stage := .asleep } })
  else .next s

/-- What the return to Run waits for (R512): every enabled group's reference settled, or X since the exit began. -/
def State.mayReturn (s : State) (t : Nat) : Bool :=
  s.mode == Mode.doze ||
    (List.range s.part.numCG).all (fun g => !s.on Fld.CG_CTL_EN g || s.on Fld.CG_STAT_REF_SETTLED g) ||
      decide (s.pwr.leftAt.getD 0 + (lowTimes s.mode.code).2 ≤ max s.lcs.time t)

/-- The exit is complete at tick `t`, where it may be. DEDUCED, log entry 21. -/
def execPowerStateExit (t : Nat) (s : State) : Out :=
  if s.mode.low ∧ s.pwr.stage = .leaving ∧ s.mayReturn t = true then .next (s.atTick t).exitLow else .next s

/-- WAKE_N has been low for 1 ms (R542). -/
def execWakeNRelease (s : State) : Out := .next { s with pins := { s.pins with wakeLow := false } }

end Sys2Proof.Machine
end

