-- ==== Sys2Proof/Machine/Twin.lean ====
section
/-! DEFINITION. Twin operation (chapter 22): the Bunk link, heartbeats, failover triggers, takeover, the split. -/

namespace Sys2Proof.Machine

/-! ## Pairing ends -/

/-- This die is in Solo; `primary` is what PRIMARY shows. -/
def State.toSolo (s : State) (primary : Bool) : State :=
  ({ s with twin := { s.twin with trigger := none } }.setB Fld.TWN_STAT_PAIRED false).setB Fld.TWN_STAT_PRIMARY primary
    |>.resetTwinAgent

/-- The pair splits (R525): the standby's rings go without final writes and its drivers stay off; neither die shows PRIMARY
(R538). DEDUCED, log entry 41. -/
def State.split (s : State) : State :=
  let was := s.standby
  let s := if was then
      let s := s.retireRings none
      { s with twin := { s.twin with replay := [], closeAt := [], silent := true } }.replayLevel
    else s
  (s.toSolo false).flag Fld.TWN_IRQ_FAILOVER

/-- The fence of a live primary (R532): every open block closes and is written with its record, then nothing goes out any
more, and its drivers are off. -/
def State.fence (s : State) : State :=
  let s := s.admittedRings.foldl (fun s r => if s.downstream r then s else (s.closeBlock r).writeBlocks r 4) s
  let s := { s with twin := { s.twin with fenced := true, waiting := [] } }
  s.toSolo false

/-- Ring `r` of the survivor: its unconfirmed blocks and the block open now carry FAILOVER, and the ledger goes past a
closed block that has been named (R527, R532). -/
def State.replayRing (s : State) (r : Nat) : State :=
  let mark := fun (b : RingBlock) => { b with failover := true }
  let named := (s.ring r).closed.filter fun b => s.named r b
  let s := named.foldl (fun s b => s.passBlock r b) (s.setRing r { s.ring r with
    closed := (s.ring r).closed.filter fun b => !s.named r b })
  let x := s.ring r
  let s := s.setRing r { x with closed := ((s.replayOf r) ++ x.closed).map mark, opened := x.opened.map mark }
  { s with twin := { s.twin with replay := s.twin.replay.filter fun e => e.1 != r } }

/-- The samples that wait in the feeds at a takeover were taken since the fault: they carry FAILOVER (R535).
DEDUCED, log entry 41. -/
def State.markWaiting (s : State) : State :=
  { s with feeds := s.feeds.map fun e =>
      if e.2.src / 4096 = 1 ∨ e.2.src / 4096 = 2 then (e.1, { e.2 with inq := e.2.inq.map fun w => { w with failover := true } })
      else e }

/-- The standby takes over with `cause` (R532, R535): every block after the last confirmed one is written, then live blocks
follow. DEDUCED, log entry 41. -/
def State.takeover (s : State) (cause : Nat) : State :=
  let s := s.admittedRings.foldl (fun s r => if s.downstream r then s else s.replayRing r) s.markWaiting
  let s := { s with twin := { s.twin with replay := [], closeAt := [], foUntil := some (s.lcs.time + 500) } }.replayLevel
  let s := (s.toSolo true).setF Fld.TWN_STAT_CAUSE cause
  let s := (s.setPair Fld.TWN_FOTICK_LO Fld.TWN_FOTICK_HI s.lcs.time).addWrap Fld.TWN_FOCNT_FAILOVERS 1
  let s := s.flag Fld.TWN_IRQ_FAILOVER
  s.admittedRings.foldl (fun s r => if s.downstream r then s else s.writeBlocks r 70) s

/-! ## Triggers (R531) -/

/-- A trigger on this die: the primary fences, the standby splits the pair. DEDUCED, log entry 41. -/
def State.triggered (s : State) (cause : Nat) : State :=
  if s.standby then (s.split).setF Fld.TWN_STAT_CAUSE cause else s.fence

/-- A trigger with `cause` arises on this die; while the Bureau is halted the decision waits, and the lowest cause counts (R31,
R533). -/
def State.trigger (s : State) (cause : Nat) : State :=
  if s.on Fld.TWN_STAT_PAIRED ∧ s.on Fld.TWN_CTL_FO_EN then
    if s.bur.running then s.triggered cause
    else { s with twin := { s.twin with trigger := some (match s.twin.trigger with
      | some c => if 16 ≤ c then c else min c cause
      | none => cause) } }
  else s

/-- The standby hears nothing on either path: it takes over. -/
def State.heartbeatLost (s : State) : State :=
  let s := (s.setB Fld.TWN_STAT_HB_LINK false).setB Fld.TWN_STAT_HB_SIDE false
  if s.standby ∧ s.on Fld.TWN_CTL_FO_EN then
    if s.bur.running then s.takeover 1 else { s with twin := { s.twin with trigger := some 0 } }
  else s

/-- Triggers in one cycle on both dies, or one on the standby, split the pair (R525, R531, R533); while the Bureau is halted the
split waits, and no later trigger takes its place. DEDUCED, log entry 41. -/
def State.splits (s : State) (cause : Nat) : State :=
  if !s.on Fld.TWN_CTL_FO_EN then s
  else if s.bur.running then (s.split).setF Fld.TWN_STAT_CAUSE cause
  else { s with twin := { s.twin with trigger := some (16 + cause) } }

/-- A decision that waited for the Bureau is taken (R31); 0 stands for the loss of every heartbeat, 16 and
more for a split. -/
def State.resumeTrigger (s : State) : State :=
  match s.twin.trigger with
  | none => s
  | some 0 => if s.standby then s.takeover 1 else { s with twin := { s.twin with trigger := none } }
  | some c =>
    let s := { s with twin := { s.twin with trigger := none } }
    if 16 ≤ c then s.splits (c - 16) else s.trigger c

/-- A double-bit error in a frame of CBk (R531, cause 3); `corrected`: a correction, which only the comparison looks at. -/
def State.scrubEvent (s : State) (k : Nat) (corrected : Bool) : State :=
  let s := if s.twin.scrubbed.contains k then s else { s with twin := { s.twin with scrubbed := k :: s.twin.scrubbed } }
  if corrected then s else s.trigger 3

/-- Whether a serving slice of a degraded group has SAT (R531, cause 4). -/
def State.degradedSat (s : State) (g : Nat) : Bool :=
  s.rotst g == 4 && (List.range 5).any fun sl => (s.serving g).contains sl && s.on Fld.CG_SL_QUAL_SAT g sl

/-- The Bureau's 10 ms check (R163, R531). -/
def execRotationCheck (s : State) : Out :=
  let s := { s with bur := { s.bur with checks := s.bur.checks + 1 } }
  .next (if s.bur.running then
    let s := (List.range s.part.numCG).foldl (fun s g => s.rotCheck g) s
    if (List.range s.part.numCG).any fun g => s.degradedSat g then s.trigger 4 else s
  else s)

/-! ## Heartbeats (R527) -/

/-- The words of blocks of ring `r` that follow a cut are placed anew; a block that begins a source's run, or follows dropped
words, keeps its beginning. -/
def State.placeAgain (s : State) (r : Nat) (blocks : List RingBlock) : State :=
  blocks.foldl (fun s b =>
    let s : State :=
      if b.first || b.dropped then
        let s := s.closeBlock r
        s.setRing r { s.ring r with first := b.first, dropped := b.dropped }
      else s
    b.words.foldl (fun s e => s.placeWord r e.1 e.2) s) s

/-- A word index at which the primary began a new block of ring `r`: the standby's block that holds it, open, closed or in
the replay buffer, is cut there, and the words after it are placed anew; a word that has not come yet will begin a block
(R527). DEDUCED, log entry 41. -/
def State.cutAt (s : State) (r idx : Nat) : State :=
  let x := s.ring r
  let has := fun (b : RingBlock) => b.words.any fun e => e.1.index == idx
  match (s.replayOf r ++ x.closed ++ x.opened.toList).dropWhile fun b => !has b with
  | [] => { s with twin := { s.twin with closeAt := s.twin.closeAt ++ [(r, idx)] } }
  | b :: later =>
    let n := b.words.findIdx fun e => e.1.index == idx
    if n = 0 then s
    else
      let cut := { b with words := b.words.take n }
      let put := fun (c : RingBlock) =>
        if c.seq == b.seq then some cut else if later.any (·.seq == c.seq) then none else some c
      let closed := x.closed.filterMap put ++ (if x.opened.any (·.seq == b.seq) then [cut] else [])
      let replay := s.twin.replay.filterMap fun e => if e.1 == r then (put e.2).map fun c => (r, c) else some e
      let s := ({ s with twin := { s.twin with replay := replay } } : State).setRing r { x with closed := closed, opened := none }
      (s.placeAgain r ({ b with words := b.words.drop n, first := false, dropped := false } :: later)).replayLevel

/-- A heartbeat names the SEQ of the last record of a ring. -/
def State.hear (s : State) (r seq : Nat) : State :=
  ({ s with twin := { s.twin with lastHb := Tab.put (fun _ => 0) s.twin.lastHb r (seq % 2 ^ 32 + 1) } } : State).confirm r

/-- A heartbeat arrives: on which paths, the last SEQ of each ring, and where the primary's blocks end. -/
def execHeartbeat (lanes strobe : Bool) (seqs closes : List (Nat × Nat)) (s : State) : Out :=
  if !s.part.isTwin then .next s
  else
    let s := (s.setB Fld.TWN_STAT_HB_LINK lanes).setB Fld.TWN_STAT_HB_SIDE strobe
    .next (if s.standby then
      let s := closes.foldl (fun s e => s.cutAt e.1 e.2) s
      seqs.foldl (fun s e => s.hear e.1 e.2) s
    else s)

def execHeartbeatLoss (s : State) : Out := .next (if s.part.isTwin then s.heartbeatLost else s)

/-- This die's PLL has been unlocked for 1 µs (R531, cause 2). -/
def execPrimaryPllLoss (s : State) : Out := .next (if s.lcs.pll = .locked then s else s.trigger 2)

/-- FENCED arrives from the primary: the last SEQ of each ring, and the word index after its last block where no heartbeat has
brought that one (R527); the standby takes over (R532). DEDUCED, log entry 41. -/
def execFenced (cause : Nat) (seqs : List (Nat × Nat × Option Nat)) (s : State) : Out :=
  .next (if s.standby then
    let s := seqs.foldl (fun s e => match e.2.2 with | some idx => s.cutAt e.1 idx | none => s) s
    (seqs.foldl (fun s e => s.hear e.1 e.2.1) s).takeover cause
  else s)

/-- The fabric port outputs of CBk are compared (R531): `differ`, and whether the peer's cabinet had a scrub event since the
last comparison. A scrub event on the standby makes the mismatch a trigger there, which splits the pair. -/
def execTwinCompare (k : Nat) (differ peer : Bool) (s : State) : Out :=
  ifPresent k s.part.numCB 24 s (.next (
    if s.on Fld.TWN_STAT_PAIRED ∧ (s.f Fld.TWN_CMP).testBit k then
      let own := s.twin.scrubbed.contains k
      let s := { s with twin := { s.twin with scrubbed := s.twin.scrubbed.filter (· != k) } }
      if !differ then s
      else if peer ∧ ¬ s.standby then s.splits 5
      else if own then s.trigger 5
      else if peer then s.trigger 5
      else (s.addSat Fld.TWN_FOCNT_MISMATCH 1).flag Fld.TWN_IRQ_MISMATCH
    else s))

/-! ## The link (R519, R526) -/

/-- A load from the peer fails with the link (R359). -/
def State.peerLoadFails (s : State) : State :=
  if s.stream.active ∧ s.stream.src = 3 ∧ s.mode = .load then s.loadFail 0x0A (s.f Fld.CFG_WORDS) else s

/-- The lanes' state after a training or a loss: EYE of each, and which are GOOD; the link is up with twelve (R359, R519). -/
def State.setLink (s : State) (good : Nat → Bool) : State :=
  let was := s.on Fld.TWN_STAT_LINK_UP
  let s := (List.range 16).foldl (fun s i => s.setB Fld.TWN_LANE_GOOD (good i) i) s
  let n := (List.range 16).countP good
  let up := decide (12 ≤ n)
  let s := (s.setF Fld.TWN_STAT_LANES n).setB Fld.TWN_STAT_LINK_UP up
  let s := s.flagIf (was != up) Fld.TWN_IRQ_LINK
  if was ∧ ¬ up then s.resetTwinAgent.peerLoadFails else s

/-- A burst of lane errors: the link is to be trained again. -/
def execLaneErrorBurst (s : State) : Out :=
  .next (if s.part.isTwin then { s with twin := { s.twin with retrain := true } } else s)

/-- A training ends with the eye width of each lane. -/
def execBunkLinkTraining (eyes : List Nat) (s : State) : Out :=
  if 16 ≠ eyes.length then .fault .illFormed
  else .next (if s.part.isTwin then
    let s := eyes.zipIdx.foldl (fun s e => s.setF Fld.TWN_LANE_EYE (min e.1 255) e.2) s
    ({ s with twin := { s.twin with retrain := false } }.setLink fun i => decide (0x40 ≤ min ((eyes[i]?).getD 0) 255))
  else s)

/-- The link is lost; a load from the peer fails (R359). DEDUCED, log entry 41. -/
def execLinkDown (s : State) : Out :=
  .next (if s.part.isTwin then
    ((s.setLink fun _ => false).setB Fld.TWN_STAT_HB_LINK false).peerLoadFails
  else s)

end Sys2Proof.Machine
end

