-- ==== Sys2Proof/Machine/Commands.lean ====
section
/-! DEFINITION. The Bureau's other commands (R468), the commands that waited while it was halted, and its restart. -/

namespace Sys2Proof.Machine

/-! ## Information and modes -/

/-- The certificate's payload (R477). -/
def State.certificate (s : State) : List Nat :=
  let id := Config.dieId
  let words : List Word := [0x4B434552, BitVec.ofNat 32 (0x10000 + s.part.code), BitVec.ofNat 32 id, BitVec.ofNat 32 (id / 2 ^ 32)]
  words.flatMap wordBytesOf ++ attestKey ++ (List.range 2820).map fun k => Config.certByte (64 + k) % 256

def State.getInfo (s : State) : State :=
  let id := Config.dieId
  let cert := (s.arg 0).bit 0
  let r := (s.arg 1).bits 0 12
  let base := [argIs 0 (s.view Reg.DEV_ID.base).toNat, argIs 1 id, argIs 2 (id / 2 ^ 32), argIs 3 (s.view Reg.BUR_BOOT.base).toNat,
    argIs 4 (s.view Reg.BUR_POLICY.base).toNat]
  if !cert then s.answerOk (base ++ [argIs 5 0])
  else if !s.bulkRing r then s.answer stBadArg
  else s.sendBulk r s.certificate (base ++ [argIs 5 s.certificate.length])

def State.takeGetInfo (s : State) (own : Bool) : State := s.judged 0x01 false own State.getInfo
def execGetInfo (tag : Nat) (args : List Word) (s : State) : Out :=
  .next (s.submit (.getInfo tag args) 0x01 tag args fun own s => s.takeGetInfo own)

/-- SET_MODE (R37, R47). -/
def State.setModeCmd (s : State) : State :=
  let t := (s.arg 0).bits 0 4
  if ¬ (t = 1 ∨ t = 5 ∨ t = 10) then s.answer stBadArg
  else if t = s.mode.code then s.answer stOk
  else
    match s.mode with
    | .blank => if t = 10 then s.goBench.answer stOk else s.answer stRefused
    | .run =>
      if t = 10 then s.goBench.answer stOk else (s.goBlank 2 true).answer stOk
    | .faultMode => if t = 1 then (s.goBlank 2 true).answer stOk else s.answer stRefused
    | .bench =>
      if t ≠ s.prevMode then s.answer stRefused
      else if t = 1 then (s.goBlank 2 true).answer stOk
      else s.benchToRun.answer stOk
    | .doze | .nap | .slumber => if t = 5 then (s.wakeOwn 5).answer stOk else s.answer stRefused
    | _ => s.answer stRefused

def State.takeSetMode (s : State) (own : Bool) : State := s.judged 0x02 false own State.setModeCmd
def execSetMode (tag : Nat) (args : List Word) (s : State) : Out :=
  .next (s.submit (.setMode tag args) 0x02 tag args fun own s => s.takeSetMode own)

def State.takeGetMode (s : State) (own : Bool) : State :=
  s.judged 0x03 false own fun s =>
    s.answerOk [argIs 0 (s.view Reg.DEV_MODE.base).toNat, argIs 1 (s.view Reg.DEV_COMPAT.base).toNat]
def execGetMode (tag : Nat) (args : List Word) (s : State) : Out :=
  .next (s.submit (.getMode tag args) 0x03 tag args fun own s => s.takeGetMode own)

/-! ## Loads -/

/-- CFG_BEGIN (R356). -/
def State.cfgBegin (s : State) : State :=
  let src := (s.arg 0).bits 0 3
  let r := (s.arg 1).bits 0 12
  if 4 ≤ src ∨ (src = 1 ∧ ¬ (s.admitted r ∧ s.downstream r)) then s.answer stBadArg
  else (s.goLoad src r 3).answer stOk

def State.takeCfgBegin (s : State) (own : Bool) : State :=
  s.judged 0x10 ((s.arg 0).bits 0 3 == 3 && !s.part.isTwin) own State.cfgBegin
def execCfgBegin (tag : Nat) (args : List Word) (s : State) : Out :=
  .next (s.submit (.cfgBegin tag args) 0x10 tag args fun own s => s.takeCfgBegin own)

/-- Whether a partial stream is in progress. -/
def State.partialStream (s : State) : Option Nat :=
  match s.stream.kind with
  | .region k => if s.stream.active || s.stream.ended then some k else none
  | .full => none

/-- CFG_ABORT (R338, R367, R385, R469). -/
def State.cfgAbort (s : State) : State :=
  if s.mode = .load then
    let s := ((s.setF Fld.CFG_ERRPOS (s.f Fld.CFG_WORDS)).setF Fld.CFG_STAT_PHASE 7).goBlank 9 false
    s.answer stOk
  else
    match s.partialStream with
    | some k => (s.regionFail k 0x23 (s.f Fld.SCRB_RLD_WORDS) 7).answer stOk
    | none => s.answer stBadArg

def State.takeCfgAbort (s : State) (own : Bool) : State := s.judged 0x11 false own State.cfgAbort
def execCfgAbort (tag : Nat) (args : List Word) (s : State) : Out :=
  .next (s.submit (.cfgAbort tag args) 0x11 tag args fun own s => s.takeCfgAbort own)

def State.takeCfgStatus (s : State) (own : Bool) : State :=
  s.judged 0x12 false own fun s =>
    let v := fun a => (s.view a).toNat
    s.answerOk [argIs 0 (v Reg.CFG_STAT.base), argIs 1 (v Reg.CFG_WORDS.base), argIs 2 (v Reg.CFG_FRAMES.base),
      argIs 3 (v Reg.CFG_ERRPOS.base), argIs 4 (v Reg.SCRB_RLD_STAT.base)]
def execCfgStatus (tag : Nat) (args : List Word) (s : State) : Out :=
  .next (s.submit (.cfgStatus tag args) 0x12 tag args fun own s => s.takeCfgStatus own)

/-- Whether cabinet number `k` is fused off. -/
def State.cabAbsent (s : State) (k : Nat) : Bool := decide (s.part.numCB ≤ k ∧ k < 24)

/-- REGION_LOAD_BEGIN (R380). -/
def State.regionLoadBegin (s : State) : State :=
  let k := (s.arg 0).bits 0 5
  let src := (s.arg 1).bits 0 3
  let r := (s.arg 2).bits 0 12
  if 24 ≤ k ∨ ¬ (src = 1 ∨ src = 2) ∨ (src = 1 ∧ ¬ (s.admitted r ∧ s.downstream r)) then s.answer stBadArg
  else if s.partialStream.isSome ∨ s.cbState k = 2 ∨ s.cbState k = 3 then s.answer stBusy
  else (s.regionBegin k src r).answer stOk

def State.takeRegionLoadBegin (s : State) (own : Bool) : State :=
  s.judged 0x18 (s.cabAbsent ((s.arg 0).bits 0 5)) own State.regionLoadBegin
def execRegionLoadBegin (tag : Nat) (args : List Word) (s : State) : Out :=
  .next (s.submit (.regionLoadBegin tag args) 0x18 tag args fun own s => s.takeRegionLoadBegin own)

/-- REGION_RELEASE (R384). -/
def State.regionReleaseCmd (s : State) : State :=
  let k := (s.arg 0).bits 0 5
  if 24 ≤ k ∨ ¬ (s.cbState k = 2 ∨ s.cbState k = 3) then s.answer stBadArg
  else if s.cbState k = 2 then s.answer stBusy
  else (s.regionRelease k).answer stOk

def State.takeRegionRelease (s : State) (own : Bool) : State :=
  s.judged 0x19 (s.cabAbsent ((s.arg 0).bits 0 5)) own State.regionReleaseCmd
def execRegionRelease (tag : Nat) (args : List Word) (s : State) : Out :=
  .next (s.submit (.regionRelease tag args) 0x19 tag args fun own s => s.takeRegionRelease own)

/-! ## Rotation, channels, rings -/

/-- ROTATE_NOW (R156, R163, R165). -/
def State.rotateNow (s : State) : State :=
  let g := (s.arg 0).bits 0 5
  let sl := (s.arg 1).bits 0 3
  if 24 ≤ g ∨ (sl ≠ 7 ∧ ¬ (s.serving g).contains sl) then s.answer stBadArg
  else if s.rotst g = 4 ∨ s.rotst g = 5 then s.answer stNoSpare
  else if s.rotst g ≠ 0 then s.answer stBusy
  else
    let s := s.setRot g { s.rot g with abandons := 0, notBefore := 0 }
    (s.rotDue g (if sl = 7 then none else some sl)).answer stOk

def State.takeRotateNow (s : State) (own : Bool) : State :=
  let g := (s.arg 0).bits 0 5
  s.judged 0x28 (decide (s.part.numCG ≤ g ∧ g < 24)) own State.rotateNow
def execRotateNow (tag : Nat) (args : List Word) (s : State) : Out :=
  .next (s.submit (.rotateNow tag args) 0x28 tag args fun own s => s.takeRotateNow own)

/-- Whether an end names something that is absent (R427): its KIND is valid. -/
def State.endAbsent (s : State) (c : Nat) : Bool :=
  match c / 2 ^ 28 % 16 with
  | 1 => decide (s.f Fld.HOST_NUMVF < c / 2 ^ 16 % 32)
  | 3 => s.cabAbsent (c / 256 % 32)
  | 4 => !s.part.isTwin
  | _ => false

/-- Whether an agent may be an end of a channel of the requested kind (R427). -/
def State.endMay (s : State) (secure : Bool) (a : Agent) : Bool :=
  match a with
  | .bureau => secure
  | .port k _ => !secure || s.isSecure k
  | _ => !secure

/-- CHAN_ALLOC (R427). -/
def State.chanAlloc (s : State) : State :=
  let snd := (s.arg 0).toNat
  let rcv := (s.arg 1).toNat
  let secure := (s.arg 2).bit 0
  let want := (s.arg 3).bits 0 16
  let n := if secure then 64 else 1024
  let base := if secure then 1024 else 0
  match Agent.ofCode snd, Agent.ofCode rcv with
  | some a, some b =>
    if a = b ∨ (want ≠ 0xFFFF ∧ n ≤ want) ∨ !s.endMay secure a ∨ !s.endMay secure b then s.answer stBadArg
    else
      let pick := if want = 0xFFFF then (List.range n).find? fun c => !(s.chan (base + c)).alloc
        else if (s.chan (base + want)).alloc then none else some want
      match pick with
      | none => s.answer stBusy
      | some c => (s.allocChan (base + c) snd rcv).answerOk [argIs 0 c]
  | _, _ => s.answer stBadArg

def State.takeChanAlloc (s : State) (own : Bool) : State :=
  s.judged 0x30 (s.endAbsent (s.arg 0).toNat || s.endAbsent (s.arg 1).toNat) own State.chanAlloc
def execChanAlloc (tag : Nat) (args : List Word) (s : State) : Out :=
  .next (s.submit (.chanAlloc tag args) 0x30 tag args fun own s => s.takeChanAlloc own)

/-- CHAN_FREE (R428). -/
def State.chanFree (s : State) : State :=
  let c := (s.arg 0).bits 0 10
  let secure := (s.arg 1).bit 0
  if secure ∧ 64 ≤ c then s.answer stBadArg
  else
    let c := if secure then 1024 + c else c
    if (s.chan c).alloc then (s.freeChan c).answer stOk else s.answer stBadArg

def State.takeChanFree (s : State) (own : Bool) : State := s.judged 0x31 false own State.chanFree
def execChanFree (tag : Nat) (args : List Word) (s : State) : Out :=
  .next (s.submit (.chanFree tag args) 0x31 tag args fun own s => s.takeChanFree own)

/-- RING_ADMIT (R413); in a pair `peer` is the other die's budget (R524). -/
def State.ringAdmit (s : State) (peer : Nat) : State :=
  let r := (s.arg 0).bits 0 12
  let st := s.admitStatus r peer
  if st = 0 then ((s.admitRing r).answer stOk).pump else s.answer st

def State.takeRingAdmit (s : State) (own : Bool) (peer : Nat) : State :=
  s.judged 0x38 (s.admitStatus ((s.arg 0).bits 0 12) peer == stNotPresent) own fun s => s.ringAdmit peer
def execRingAdmit (tag : Nat) (args : List Word) (peer : Nat) (s : State) : Out :=
  .next (s.submit (.ringAdmit tag args peer) 0x38 tag args fun own s => s.takeRingAdmit own peer)

/-- RING_RETIRE (R414). -/
def State.ringRetire (s : State) : State :=
  let r := (s.arg 0).bits 0 12
  if s.admitted r then ((s.endRing r).answer stOk).pump else s.answer stBadArg

def State.takeRingRetire (s : State) (own : Bool) : State := s.judged 0x39 false own State.ringRetire
def execRingRetire (tag : Nat) (args : List Word) (s : State) : Out :=
  .next (s.submit (.ringRetire tag args) 0x39 tag args fun own s => s.takeRingRetire own)

/-! ## Attestation (R482, R483, R486) -/

/-- 32 bytes as eight words; zeros where there are none. -/
def digestWords (d : List Nat) : List Word := (wordsOfBytes d 8 ++ List.replicate 8 0).take 8

/-- The record of CBk in the report. -/
def State.cabRecord (s : State) (k : Nat) : List Word :=
  let m := (s.cab k).meas
  let w0 := m.reason % 256 * 2 ^ 24 + (if (s.f Fld.BUR_TAINT).testBit k then 2 ^ 14 else 0) + (if m.signed then 2 ^ 13 else 0) +
    (if s.isSecure k then 2 ^ 12 else 0) + m.dstate * 256 + k
  [BitVec.ofNat 32 w0, BitVec.ofNat 32 m.frames, BitVec.ofNat 32 m.design, BitVec.ofNat 32 (m.design / 2 ^ 32)] ++
    digestWords (s.cabDigest k) ++
    [s.view (Reg.SCRB_CB_SGL.addr k 0), s.view (Reg.SCRB_CB_DBL.addr k 0), s.view (Reg.BUR_CLAIM.addr k 0), 0]

/-- The report before its digest. -/
def State.report (s : State) : List Word :=
  let id := Config.dieId
  let n := s.part.numCB
  let flags := s.mode.code + (if s.on Fld.DEV_COMPAT_HERITAGE then 16 else 0) + (if s.on Fld.CFG_STAT_SIGNED then 32 else 0) +
    (if s.on Fld.CAL_STAT_DIRTY then 64 else 0) + (if s.on Fld.CAL_STORE_VALID then 128 else 0) + n * 2 ^ 16
  let stored := match s.cal.store with | some c => s.recordDigest c | none => []
  [0x4B415454, BitVec.ofNat 32 (0x10000 + s.part.code), BitVec.ofNat 32 id, BitVec.ofNat 32 (id / 2 ^ 32),
    s.view Reg.BUR_BOOT.base, BitVec.ofNat 32 flags, s.view Reg.BUR_POLICY.base, BitVec.ofNat 32 (s.f Fld.CAL_STORE_SEQ),
    BitVec.ofNat 32 s.lcs.time, BitVec.ofNat 32 (s.lcs.time / 2 ^ 32)] ++
  (List.range 8).map s.arg ++
  digestWords ((List.range 32).map fun k => Config.fwByte k % 256) ++
  ((List.range 4).flatMap fun k => digestWords ((s.bur.nv.slots[k]?).getD [])) ++
  digestWords stored ++
  [s.view Reg.CFG_DESIGN_LO.base, s.view Reg.CFG_DESIGN_HI.base] ++
  digestWords s.bur.hard ++
  [s.view Reg.SCRB_PASSES.base, s.view Reg.SCRB_HB_SGL.base, s.view Reg.SCRB_HB_DBL.base, BitVec.ofNat 32 s.bur.corrections] ++
  (List.range n).flatMap s.cabRecord

/-- ATTEST. -/
def State.attest (s : State) : State :=
  let r := (s.arg 8).bits 0 12
  let i := s.keyIdx
  if !s.bulkRing r then s.answer stBadArg
  else if s.lastIndices then s.keyLow.answer stAuthFail
  else
    let ws := s.report
    let d := shakeWords ws
    let bytes := ws.flatMap wordBytesOf ++ d ++ attestSign i d
    s.takeIndex.sendBulk r bytes [argIs 0 bytes.length, argIs 1 i, argIs 2 (i / 2 ^ 32 % 256)]

def State.takeAttest (s : State) (own : Bool) : State := s.judged 0x40 false own State.attest
def execAttest (tag : Nat) (args : List Word) (s : State) : Out :=
  .next (s.submit (.attest tag args) 0x40 tag args fun own s => s.takeAttest own)

/-! ## OTP (R478, R481) -/

/-- Bits of BUR_POLICY are blown. -/
def State.blow (s : State) (bits : Nat) : State :=
  let p := s.bur.nv.policy ||| bits
  ({ s with bur := { s.bur with nv := { s.bur.nv with policy := p } } } : State).setWord Reg.BUR_POLICY.base (BitVec.ofNat 32 p)

/-- KEY_ENROLL; `good` says whether the OTP reads back as written. -/
def State.keyEnroll (s : State) (good : Bool) : State :=
  let k := (s.arg 0).bits 0 2
  let enrolled := (s.f Fld.BUR_POLICY_ENROLLED).testBit k
  if (s.arg 0).bit 8 then
    if !enrolled then s.answer stBadArg
    else if !good then s.answer stAuthFail
    else (s.blow (2 ^ (8 + k))).answer stOk
  else if enrolled ∨ s.on Fld.BUR_POLICY_ENROLL_LOCK then s.answer stBadArg
  else if !good then s.answer stAuthFail
  else
    let d := (List.range 8).flatMap fun i => wordBytesOf (s.arg (i + 1))
    (({ s with bur := { s.bur with nv := { s.bur.nv with slots := s.bur.nv.slots.set k d } } } : State).blow (2 ^ (4 + k))).answer stOk

def State.takeKeyEnroll (s : State) (own good : Bool) : State := s.judged 0x41 false own fun s => s.keyEnroll good
/-- DEDUCED, log entry 40. -/
def execKeyEnroll (tag : Nat) (args : List Word) (good : Bool) (s : State) : Out :=
  .next (s.submit (.keyEnroll tag args good) 0x41 tag args fun own s => s.takeKeyEnroll own good)

/-- POLICY_SET: its result is written on ST_OK and on ST_BAD_ARG. -/
def State.policySet (s : State) : State :=
  let bits := (s.arg 0).bits 0 2
  let trusted := (List.range 4).any fun k =>
    (s.f Fld.BUR_POLICY_ENROLLED).testBit k && !(s.f Fld.BUR_POLICY_REVOKED).testBit k
  let ok := s.arg 1 = 0x5045524D ∧ (¬ bits.testBit 0 ∨ trusted)
  let t := if ok then s.blow bits else s
  t.setJob (some { Job.init with
    status := if ok then stOk else stBadArg, results := [argIs 0 (t.view Reg.BUR_POLICY.base).toNat], always := true })

def State.takePolicySet (s : State) (own : Bool) : State := s.judged 0x42 false own State.policySet
def execPolicySet (tag : Nat) (args : List Word) (s : State) : Out :=
  .next (s.submit (.policySet tag args) 0x42 tag args fun own s => s.takePolicySet own)

/-! ## The pair (R522, R525) -/

/-- The registers that a standby takes from its primary: control fields of AP, AC, CG, FC, WM, DA and DIO, but no coefficient
bank, which R200 keeps apart from them. DEDUCED, log entry 41. -/
def pairReg (a : Nat) : Bool :=
  decide ((0xA0000 ≤ a ∧ a < 0x540000) ∨ (0x680000 ≤ a ∧ a < 0x6A0000)) && rwMask a != 0 && calMask a == 0 && !coefReg a

/-- Whether anything of this die is in use (R522). -/
def State.inUse (s : State) : Bool :=
  (List.range s.part.numCG).any (fun g => s.on Fld.CG_CTL_EN g) || (List.range s.part.numFC).any (fun n => s.on Fld.FC_CTL_EN n) ||
    (List.range s.part.numDA).any (fun d => s.on Fld.DA_CTL_EN d) || !s.admittedRings.isEmpty || s.chans.any (fun e => e.2.alloc) ||
    (List.range s.part.numCB).any fun k => s.cbState k == 2 || s.cbState k == 3

/-- The standby takes the primary's control registers and page directory. -/
def State.copyPrimary (s : State) (p : TwinPeer) : State :=
  let s := p.regs.foldl (fun s e => if pairReg e.1 then s.copyReg e.1 e.2 else s) s
  { s with pdir := p.pdir.foldl (fun t e => Tab.put (fun _ => 0) t e.1 (e.2 % 2 ^ 64)) [] }

/-- This die enters Paired; `primary`: as the primary. -/
def State.pair (s : State) (primary : Bool) (p : TwinPeer) : State :=
  let s := { s with twin := { s.twin with
    replay := [], closeAt := [], lastHb := [], fenced := false, silent := false, trigger := none, scrubbed := [] } }
  let s := if primary then s else s.copyPrimary p
  ((s.flag Fld.TWN_STAT_PAIRED).setB Fld.TWN_STAT_PRIMARY primary).replayLevel.resetTwinAgent

/-- The status of TWIN_PAIR. -/
def State.pairStatus (s : State) (p : TwinPeer) : Nat :=
  if s.on Fld.TWN_STAT_PAIRED ∨ ¬ s.on Fld.TWN_STAT_LINK_UP ∨ s.f Fld.LCS_CTL_CLKSRC = 1 ∨ (p.answers ∧ ¬ (p.run ∧ p.same)) then
    stBadArg
  else if s.inUse ∨ (p.answers ∧ p.busy) then stBusy
  else if !p.answers then stTimeout
  else stOk

/-- TWIN_PAIR ends with a status and TWN_STAT. -/
def State.pairEnds (s : State) (st : Nat) : State :=
  s.setJob (some { Job.init with status := st, results := [argIs 0 (s.view Reg.TWN_STAT.base).toNat], always := true })

def State.twinPair (s : State) (p : TwinPeer) : State :=
  let st := s.pairStatus p
  (if st = stOk then s.pair (decide ((s.arg 0).bits 0 1 = s.twin.die)) p else s).pairEnds st

/-- TWIN_PAIR is taken; that of a standby's own host is ST_BUSY (R524) and shows TWN_STAT with it. -/
def State.takeTwinPair (s : State) (own : Bool) (p : TwinPeer) : State :=
  s.judged 0x48 (!s.part.isTwin) false fun s => if s.standby ∧ own then s.pairEnds stBusy else s.twinPair p

/-- TWIN_PAIR is issued here; or on the other die (`there`: the die to be primary), where this die only follows. -/
def execTwinPair (tag : Nat) (args : List Word) (p : TwinPeer) (there : Option Nat) (s : State) : Out :=
  .next (match there with
    | none => s.submit (.twinPair tag args p none) 0x48 tag args fun own s => s.takeTwinPair own p
    | some d =>
      if s.part.isTwin ∧ s.mode = .run ∧ s.bur.running ∧ s.pairStatus p = stOk then s.pair (decide (d % 2 = s.twin.die)) p else s)

def State.twinSplit (s : State) : State :=
  if s.on Fld.TWN_STAT_PAIRED then s.split.answer stOk else s.answer stBadArg

def State.takeTwinSplit (s : State) (own : Bool) : State := s.judged 0x49 (!s.part.isTwin) own State.twinSplit

/-- TWIN_SPLIT is issued here; or the other die splits the pair (`there`): by the command (0), or by a trigger on the standby
(its cause, R531). -/
def execTwinSplit (tag : Nat) (args : List Word) (there : Option Nat) (s : State) : Out :=
  .next (match there with
    | none => s.submit (.twinSplit tag args none) 0x49 tag args fun own s => s.takeTwinSplit own
    | some c =>
      if s.on Fld.TWN_STAT_PAIRED then
        (if c = 0 then s.split else s.split.setF Fld.TWN_STAT_CAUSE c)
      else s)

/-! ## Power (R514) -/

def State.pwrCeiling (s : State) : State :=
  let c := (s.arg 0).bits 0 4
  if ¬ (c = 5 ∨ c = 7 ∨ c = 8 ∨ c = 9) then s.answer stBadArg
  else
    let old := s.f Fld.PWR_STAT_CEIL
    let s := s.setF Fld.PWR_STAT_CEIL c
    (if c < s.mode.code then s.wakeOwn 4 else s).answerOk [argIs 0 old]

def State.takePwrCeiling (s : State) (own : Bool) : State := s.judged 0x50 false own State.pwrCeiling
def execPwrCeiling (tag : Nat) (args : List Word) (s : State) : Out :=
  .next (s.submit (.pwrCeiling tag args) 0x50 tag args fun own s => s.takePwrCeiling own)

/-! ## Unknown codes, and the restart -/

def State.takeUnknown (s : State) : State := s.answer stBadArg

/-- A code outside the command table is submitted (R48). -/
def execUnknownCommandCode (code tag : Nat) (s : State) : Out :=
  if 256 ≤ code ∨ commandKnown code then .fault .illFormed
  else .next (s.submit (.unknownCommandCode code tag) code tag [] fun _ s => s.takeUnknown)

/-- The Bureau takes a command that waited for it (R467). -/
def State.takeWaiting (s : State) (i : Instr) : State :=
  let own := !s.bur.mirrored
  match i with
  | .getInfo _ _ => s.takeGetInfo own
  | .setMode _ _ => s.takeSetMode own
  | .getMode _ _ => s.takeGetMode own
  | .cfgBegin _ _ => s.takeCfgBegin own
  | .cfgAbort _ _ => s.takeCfgAbort own
  | .cfgStatus _ _ => s.takeCfgStatus own
  | .regionLoadBegin _ _ => s.takeRegionLoadBegin own
  | .regionRelease _ _ => s.takeRegionRelease own
  | .calRun _ _ meas => s.takeCalRun own meas
  | .calCommit _ _ => s.takeCalCommit own
  | .calExport _ _ => s.takeCalExport own
  | .calImport _ _ => s.takeCalImport own
  | .rotateNow _ _ => s.takeRotateNow own
  | .chanAlloc _ _ => s.takeChanAlloc own
  | .chanFree _ _ => s.takeChanFree own
  | .ringAdmit _ _ peer => s.takeRingAdmit own peer
  | .ringRetire _ _ => s.takeRingRetire own
  | .attest _ _ => s.takeAttest own
  | .keyEnroll _ _ good => s.takeKeyEnroll own good
  | .policySet _ _ => s.takePolicySet own
  | .twinPair _ _ p _ => s.takeTwinPair own p
  | .twinSplit _ _ _ => s.takeTwinSplit own
  | .pwrCeiling _ _ => s.takePwrCeiling own
  | .unknownCommandCode _ _ => s.takeUnknown
  | _ => s

/-- The restart's re-verification ends (R475): `err` is 0, 3 or 4, the step that failed. -/
def State.resumeBureau (s : State) (err : Nat) : State :=
  if s.bur.running ∨ s.bur.dead ∨ s.mode = .reset then s
  else if err = 3 ∨ err = 4 then
    (({ s with bur := { s.bur with dead := true } } : State).setF Fld.BUR_BOOT_FW_OK 0).setF Fld.BUR_BOOT_ERR err
  else
    let s := (({ s with bur := { s.bur with running := true } } : State).showKeys s.bur.nv.keyres).keyLow
    let s := (s.busUpdates).resumeTrigger
    match s.bur.waiting with
    | some i => ({ s with bur := { s.bur with waiting := none } } : State).takeWaiting i
    | none => s

def execFirmwareResume (err : Nat) (s : State) : Out :=
  if err ≠ 0 ∧ err ≠ 3 ∧ err ≠ 4 then .fault .illFormed else .next (s.resumeBureau err)

end Sys2Proof.Machine
end

