-- ==== Sys2Proof/Machine/Firing.lean ====
section
/-! DEFINITION. Broadcast of firing records and the actions Longcase itself performs (R28, R75 to R77, R495). -/

namespace Sys2Proof.Machine

/-- A firing-record FIFO of 16 entries takes a record at the end of `l`, whose last `queued` records are in it; the second
result is how many are in it then, the third says that it was full (R495). -/
def inboxPush (l : List FiringRec) (queued : Nat) (r : FiringRec) : List FiringRec × Nat × Bool :=
  let n := min queued l.length
  if n < 16 then (l ++ [r], n + 1, false) else (l, n, true)

/-- The record reaches the group, chain or DAC where that obeys it. -/
def State.firingCg (s : State) (g : Nat) (r : FiringRec) : State :=
  let a := s.cgObeys g r
  if a = 0 then s
  else
    let x := inboxPush (s.group g).inbox (s.group g).queued { r with act := a }
    (s.setGroup g { s.group g with inbox := x.1, queued := x.2.1 }).xovf 2 x.2.2
def State.firingFc (s : State) (n : Nat) (r : FiringRec) : State :=
  let a := s.fcObeys n r
  if a = 0 then s
  else
    let x := inboxPush (s.chain n).inbox (s.chain n).queued { r with act := a }
    (s.setChain n { s.chain n with inbox := x.1, queued := x.2.1 }).xovf 2 x.2.2
def State.firingDa (s : State) (d : Nat) (r : FiringRec) : State :=
  let a := s.daObeys d r
  if a = 0 then s
  else
    let x := inboxPush (s.dac d).inbox (s.dac d).queued { r with act := a }
    (s.setDac d { s.dac d with inbox := x.1, queued := x.2.1 }).xovf 2 x.2.2

/-- PAn_DEST or TTn_DEST of a firing, as it stands at the broadcast (R72). -/
def State.destOf (s : State) (r : FiringRec) : Word :=
  if r.timer then s.word (Reg.TT_DEST.addr r.num 0) else s.word (Reg.PA_DEST.addr r.num 0)

/-- The oldest firing not yet broadcast goes to every consumer that obeys it, and to Longcase's own actions. -/
def State.broadcast (s : State) : State :=
  match s.lcs.firings with
  | [] => s
  | r :: rest =>
    let s := { s with lcs := { s.lcs with
      firings := rest,
      actions := if r.act / 128 % 16 = 0 then s.lcs.actions
        else s.lcs.actions ++ [{ r with act := r.act &&& 0x780, dest := s.destOf r }] } }
    let s := (List.range s.part.numCG).foldl (fun s g => s.firingCg g r) s
    let s := (List.range s.part.numFC).foldl (fun s n => s.firingFc n r) s
    let s := (List.range s.part.numDA).foldl (fun s d => s.firingDa d r) s
    s.wmBroadcast r

/-! ## Longcase's own actions -/

/-- The record without bit `k`. -/
def FiringRec.without (r : FiringRec) (k : Nat) : FiringRec :=
  { r with act := r.act - (if r.act.testBit k then 2 ^ k else 0) }

/-- The oldest broadcast firing that still has action `k` to perform. -/
def State.nextAction (s : State) (k : Nat) : Option FiringRec := s.lcs.actions.find? fun r => r.act.testBit k

/-- The actions with action `k` of one firing taken away; firings with nothing left go. -/
def dropAction (k : Nat) (r : FiringRec) : List FiringRec → List FiringRec
  | [] => []
  | x :: l => if x = r then (if (x.without k).act = 0 then l else x.without k :: l) else x :: dropAction k r l

/-- The action is performed by `f`, and taken away. -/
def State.perform (s : State) (k : Nat) (f : FiringRec → State → State) : State :=
  match s.nextAction k with
  | none => s
  | some r => f r { s with lcs := { s.lcs with actions := dropAction k r s.lcs.actions } }

/-- EVENT: one pulse on the line in every cabinet, unless another firing of the tick has given it (R77, R322). -/
def State.eventPulse (s : State) (r : FiringRec) : State :=
  let line := r.dest.bits 0 6
  if (r.tick, line) ∈ s.lcs.pulsed then s
  else
    let s := { s with lcs := { s.lcs with pulsed := (r.tick, line) :: s.lcs.pulsed.filter fun e => e.1 == r.tick } }
    (List.range s.part.numCB).foldl (fun s k =>
      let p := (s.lineX k line).push (s.gclkFlops (s.f Fld.DIO_BND_CTL_EVCLK k))
      (s.setLineX k line p.1).xovf 3 p.2) s

/-- DOORBELL: the bit of the non-secure channel's doorbell; a free channel gives DBFREE. -/
def State.ringDoorbell (s : State) (r : FiringRec) : State :=
  let w := r.dest
  let c := w.bits 16 10
  if (s.chan c).alloc then s.setDoorbell c (BitVec.ofNat 32 (2 ^ w.bits 8 5)) else s.flag Fld.PGH_STAT_DBFREE

/-- IRQ: the firing's bit of LCS_AIRQ or LCS_TIRQ. -/
def State.firingIrq (s : State) (r : FiringRec) : State :=
  if r.timer then s.setBit Fld.LCS_TIRQ_BITS (r.num % 32) else s.setBit Fld.LCS_AIRQ_BITS (r.num % 32) (r.num / 32)

/-! ## Meanings

Longcase broadcasts and acts on its own clock: without LCLK the firings wait (R58). -/

def execFiringRecord (s : State) : Out := .next (if s.lclk then s.broadcast else s)
def execEvent (s : State) : Out := .next (if s.lclk then s.perform 7 fun r s => s.eventPulse r else s)
def execDoorbell (s : State) : Out := .next (if s.lclk then s.perform 8 fun r s => s.ringDoorbell r else s)
def execWake (s : State) : Out := .next (if s.lclk then s.perform 9 fun _ s => s.wake 1 else s)
def execIrq (s : State) : Out := .next (if s.lclk then s.perform 10 fun r s => s.firingIrq r else s)

end Sys2Proof.Machine
end

