-- ==== Sys2Proof/WellFormed.lean ====
section
/-! DEFINITION. Which commands are well-formed: those whose operands name an instance, an address or a length that some part
has. A command that is not well-formed has no hardware behind it, and stops with the fault illFormed. -/

namespace Sys2Proof

/-- A request to the endpoint (R455; BAR4, number 4, is written by the row BAR4_WRITE): a function and a BAR that the
largest part has, and a length that a write's words fill. -/
def HostAccess.ok (x : HostAccess) : Bool :=
  decide (x.func < 32 ∧ (x.bar < 4 ∨ (x.bar = 4 ∧ x.wr = none)) ∧ 1 ≤ x.len ∧ x.len ≤ 1024) && x.wr.all fun l => l.length == x.len

/-- Whether `a` is `base + i * stride` for some `i < n`. -/
def inArray (base stride n a : Nat) : Bool := decide (base ≤ a ∧ (a - base) % stride = 0 ∧ (a - base) / stride < n)

/-- The offsets of APn_CTL, ACc_CTL, ACc_LTt, AC_CGINg and AC_DAOUTd (chapter 04). -/
def isMatrixReg (a : Nat) : Bool :=
  inArray 0xA0000 0x100 96 a || inArray 0xC0000 0x100 192 a ||
    (decide (0xC0000 ≤ a ∧ (a - 0xC0000) / 0x100 < 192) && inArray 0x40 4 4 ((a - 0xC0000) % 0x100)) ||
    inArray 0xCC100 4 24 a || inArray 0xCC200 4 24 a

/-- The offsets of FCn_SRC, DAd_SRC and DIO_BNDk_FPIj_SRC (chapters 07, 10 and 13). -/
def isSourceReg (a : Nat) : Bool :=
  inArray 0x200004 0x1000 48 a || inArray 0x520004 0x100 24 a ||
    (decide (0x690000 ≤ a ∧ (a - 0x690000) / 0x100 < 24) && inArray 0x40 0x10 4 ((a - 0x690000) % 0x100))

/-- The codes of the command table (R46). -/
def isCommandCode (code : Nat) : Bool :=
  [0x01, 0x02, 0x03, 0x10, 0x11, 0x12, 0x18, 0x19, 0x20, 0x21, 0x22, 0x23, 0x28, 0x30, 0x31, 0x38, 0x39, 0x40, 0x41, 0x42,
    0x48, 0x49, 0x50].contains code

/-- Whether a command is well-formed. DESIGN CHOICE, log entry 3; DESIGN CHOICE, log entry 12. -/
def Instr.wf : Instr → Bool
  | .powerOn => true
  | .porstNAssert => true
  | .porstNRelease _ boot => decide (boot < 4)
  | .bureauBootComplete err _ _ => decide (err = 0 ∨ err = 3 ∨ err = 4)
  | .brownOut => true
  | .autonomousBoot => true
  | .perstNAssert => true
  | .perstNRelease => true
  | .linkTraining speed width mps mrrs => decide (1 ≤ speed ∧ speed ≤ 4 ∧ [1, 2, 4, 8, 16].contains width ∧ mps ≤ 2 ∧ mrrs ≤ 5)
  | .functionLevelReset func => decide (func < 32)
  | .configRequest func _ => decide (func < 32)
  | .watchdogExpiry => true
  | .sramUncorrectableError => true
  | .getInfo _ _ => true
  | .setMode _ _ => true
  | .getMode _ _ => true
  | .cfgBegin _ _ => true
  | .cfgAbort _ _ => true
  | .cfgStatus _ _ => true
  | .regionLoadBegin _ _ => true
  | .regionRelease _ _ => true
  | .calRun _ _ _ => true
  | .calCommit _ _ => true
  | .calExport _ _ => true
  | .calImport _ _ => true
  | .rotateNow _ _ => true
  | .chanAlloc _ _ => true
  | .chanFree _ _ => true
  | .ringAdmit _ _ _ => true
  | .ringRetire _ _ => true
  | .attest _ _ => true
  | .keyEnroll _ _ _ => true
  | .policySet _ _ => true
  | .twinPair _ _ _ _ => true
  | .twinSplit _ _ _ => true
  | .pwrCeiling _ _ => true
  | .commandComplete _ => true
  | .random c _ => decide (c < 64)
  | .digestRequest c => decide (c < 64)
  | .claimLow c => decide (c < 64)
  | .claimHigh c => decide (c < 64)
  | .bar4Write _ => true
  | .twinStreamWord _ => true
  | .preambleWord _ => true
  | .syncWord _ => true
  | .device _ => true
  | .frames _ => true
  | .frame _ => true
  | .analogEntry _ => true
  | .startup _ => true
  | .digest _ => true
  | .signature _ => true
  | .signatureVerification mclk => decide (mclk ≤ 800000)
  | .endRecord _ => true
  | .region _ => true
  | .verify => true
  | .referenceWait _ => true
  | .refTmo _ => true
  | .regionStreamStart => true
  | .regionVerify => true
  | .scrubPassStart => true
  | .scrubFrameCheck flips => decide (∀ b ∈ flips, b < 1228)
  | .voteRepair => true
  | .pllLockLoss => true
  | .pllRelock => true
  | .smpclkStamp _ => true
  | .smpclkStall => true
  | .prEdge n _ _ _ => decide (n < 8)
  | .prIndexEdge n _ _ _ => decide (n < 8)
  | .edgeProcessing n => decide (n < 8)
  | .coastEntry n _ => decide (n < 8)
  | .coastLimit n _ => decide (n < 8)
  | .prEnable n _ => decide (n < 8)
  | .prSnap n _ => decide (n < 8)
  | .lcsTimeSnap _ => true
  | .paEnable n _ _ => decide (n < 256)
  | .alarmFiring n _ => decide (n < 256)
  | .timerStart n _ => decide (n < 32)
  | .timerExpiry n => decide (n < 32)
  | .firingRecord => true
  | .seqStart g => decide (g < 24)
  | .urgent g => decide (g < 24)
  | .mark g => decide (g < 24)
  | .rsInstant n => decide (n < 48)
  | .segStart d => decide (d < 24)
  | .blankOpen n => decide (n < 96)
  | .blankClose n => decide (n < 96)
  | .event => true
  | .doorbell => true
  | .wakeFiring => true
  | .irq => true
  | .periodClear n => decide (n < 96)
  | .captureEdge k _ _ => decide (k < 16)
  | .capPop k => decide (k < 16)
  | .nextEventUpdate _ _ => true
  | .selfWake => true
  | .powerStateEntry => true
  | .powerStateExit _ => true
  | .tempConversion k _ => decide (k < 8)
  | .cgEnable g => decide (g < 24)
  | .cgDisable g => decide (g < 24)
  | .cgGo g => decide (g < 24)
  | .cgStop g => decide (g < 24)
  | .fabricRequest f => decide (f < 48)
  | .settleEnd g => decide (g < 24)
  | .dwellComplete g => decide (g < 24)
  | .urgentDwellComplete g => decide (g < 24)
  | .cgCntSnap g => decide (g < 24)
  | .elogPop g => decide (g < 24)
  | .windowComparatorFire g l => decide (g < 24 ∧ l < 4)
  | .refSettled g => decide (g < 24)
  | .refFault q => decide (q < 4)
  | .rotationCheck => true
  | .overlapStart g _ => decide (g < 24)
  | .handoverTest g => decide (g < 24)
  | .sliceCalibration g _ _ _ _ _ _ => decide (g < 24)
  | .estimatorBlock g _ _ => decide (g < 24)
  | .azBoundary c => decide (c < 192)
  | .azSwap c => decide (c < 192)
  | .rst c _ => decide (c < 192)
  | .portOverload n _ => decide (n < 96)
  | .cellSaturation c _ => decide (c < 192)
  | .matrixWrite addr _ => isMatrixReg addr
  | .fcEnable n => decide (n < 48)
  | .sourceWrite a _ => isSourceReg a
  | .bank n b => decide (n < 48 ∧ b < 2)
  | .xfadeStart n => decide (n < 48)
  | .xfDone n => decide (n < 48)
  | .fcCntSnap n => decide (n < 48)
  | .gapPop n => decide (n < 48)
  | .cdata n _ => decide (n < 48)
  | .incCommit n _ => decide (n < 48)
  | .slot n _ => decide (n < 48)
  | .tlogPop n => decide (n < 48)
  | .detWindowClose n => decide (n < 48)
  | .wmEnable n => decide (n < 96)
  | .wmPowerUp n _ => decide (n < 96)
  | .wmConditionWrite n _ _ => decide (n < 96)
  | .wmSettle n _ => decide (n < 96)
  | .wmDisable n => decide (n < 96)
  | .comparatorEdge n _ _ => decide (n < 96)
  | .wmResolve n _ _ => decide (n < 96)
  | .edgeDelivery n => decide (n < 96)
  | .daGo d => decide (d < 24)
  | .daStop d => decide (d < 24)
  | .daEnable d _ => decide (d < 24)
  | .segmentEnd d => decide (d < 24)
  | .underrun d => decide (d < 24)
  | .pdata d _ => decide (d < 24)
  | .clkenWrite k _ => decide (k < 24)
  | .fpllMWrite m => decide (m < 64)
  | .fpllLock => true
  | .peekData k => decide (k < 24)
  | .fpInputWord k j => decide (k < 24 ∧ j < 4)
  | .fpInputGroupTake k j => decide (k < 24 ∧ j < 4)
  | .fpOutputWord k j => decide (k < 24 ∧ j < 4)
  | .agentPost k a => decide (k < 24 ∧ a.port < 2)
  | .agentTake k a => decide (k < 24 ∧ a.port < 2)
  | .agentDbclr k a => decide (k < 24 ∧ a.port < 2)
  | .vccioChange b _ => decide (b < 8)
  | .dioPinCfgWrite n _ => decide (n < 256)
  | .dmaPdirLo _ => true
  | .dmaPdirHi _ => true
  | .tailWrite r _ => decide (r < 4096)
  | .headWrite r _ => decide (r < 4096)
  | .ringWord r _ _ => decide (r < 4096)
  | .ageClose r => decide (r < 4096)
  | .blockWrite r => decide (r < 4096)
  | .blkHold r => decide (r < 4096)
  | .dmaSnap r => decide (r < 4096)
  | .ringFetch r => decide (r < 4096)
  | .fetchCompletion r data => decide (r < 4096 ∧ data.length = 4096)
  | .completionTimeout r => decide (r < 4096)
  | .msgPost func c _ => decide (func < 32 ∧ c < 1024)
  | .msgTake func c => decide (func < 32 ∧ c < 1024)
  | .dbSet func c _ => decide (func < 32 ∧ c < 1024)
  | .dbClr func c _ => decide (func < 32 ∧ c < 1024)
  | .channelTimeout c => decide (c < 1088)
  | .msixMessage func v => decide (func < 32 ∧ v < (if func = 0 then 2048 else 64))
  | .clockStopped k => decide (k < 25)
  | .rcRead _ x => decide (x.ok ∧ x.wr.isNone)
  | .registerWrite _ x => decide (x.ok ∧ x.wr.isSome)
  | .heartbeat _ _ _ _ => true
  | .heartbeatLoss => true
  | .primaryPllLoss => true
  | .fenced _ _ => true
  | .twinCompare k _ _ => decide (k < 24)
  | .forwardedWrite _ peer => peer.all HostAccess.ok
  | .laneErrorBurst => true
  | .linkDown => true
  | .jtagInstruction _ => true
  | .jtagReset => true
  | .pllLock => true
  | .refqWindowReturn q => decide (q < 4)
  | .pcieLinkDown => true
  | .unknownCommandCode code _ => decide (code < 256 ∧ ¬ isCommandCode code)
  | .unknownSecureOp c => decide (c < 64)
  | .firmwareResume err => decide (err = 0 ∨ err = 3 ∨ err = 4)
  | .bunkLinkTraining eyes => decide (eyes.length = 16)
  | .wakeNRelease => true
  | .flrComplete func => decide (func < 32)
  | .autoZeroTrim c _ => decide (c < 192)
  | .conversionBeat g _ _ raw _ _ _ => decide (g < 24 ∧ raw.length = 4 ∧ raw.all (·.length = 4))
  | .chainOutput n => decide (n < 48)
  | .dacSample d _ _ => decide (d < 24)
  | .cellClock _ _ => true
  | .probeSample p => decide (p < 16)
  | .fcDisable n => decide (n < 48)
  | .timerDisable n => decide (n < 32)

end Sys2Proof
end

