-- ==== Sys2Proof/Machine/HostIf.lean ====
section
/-! DEFINITION. The host interface (chapter 18): requests to the BARs, configuration requests, MSI-X, the link, its resets;
stopped clocks (R497). -/

namespace Sys2Proof.Machine

/-! ## MSI-X (R462) -/

/-- The message of a vector goes to host memory. -/
def State.sendMessage (s : State) (f v : Nat) : State :=
  let lo := s.word (msixReg f v Reg.MSIX_ADDR_LO Reg.VF_MSIX_ADDR_LO)
  let hi := s.word (msixReg f v Reg.MSIX_ADDR_HI Reg.VF_MSIX_ADDR_HI)
  s.hostWrite (lo.toNat + 2 ^ 32 * hi.toNat) (bytesLE 4 (s.word (msixReg f v Reg.MSIX_DATA Reg.VF_MSIX_DATA)).toNat)

/-- A vector is looked at: an owed message goes, and one for a cause that has risen where the vector can send; else Pending is
set. DESIGN CHOICE, log entry 37. -/
def State.lookVector (s : State) (f v : Nat) : State :=
  let x := s.vec f v
  let c := s.cause f v
  let due := c && (!x.cause || x.pendingBit)
  let sends := x.owed || (due && s.canSend f v)
  (if sends then s.sendMessage f v else s).setVec f v { cause := c, pendingBit := due && !s.canSend f v, owed := false }

/-- After an access of the host to the state `before` (R462). -/
def State.afterAccess (s before : State) : State := s.noteVectors before true before.liveVectors

/-- The MSI-X table of a function is reset: every vector masked, with Pending set where its cause is 1 (R463). -/
def State.resetTable (s : State) (f : Nat) : State :=
  let mine := fun (a : Nat) =>
    if f = 0 then decide (0x18000 ≤ a ∧ a < 0x20000) else decide (0x2000000 ≤ a ∧ (a - 0x2040000) / 0x80000 = f)
  let s := s.resetRegs mine fun _ => 0
  let s := { s with host := { s.host with vecs := s.host.vecs.filter fun e => e.1 / 2048 != f } }
  (List.range (vectorsOf f)).foldl (fun s v =>
    if s.cause f v then s.setVec f v { cause := true, pendingBit := true, owed := false } else s) s

def execMsixMessage (func v : Nat) (s : State) : Out :=
  onInst func 32 (onInst v (vectorsOf func) (.next (s.lookVector func v)))

/-! ## Requests to the memory BARs (R452 to R458) -/

/-- How a request ended. -/
def State.completes (s : State) (c : Completion) : State := { s with host := { s.host with cpl := c } }

/-- A request that meets no function: Unsupported Request, and no answer at all while PERST_N is low (R463). -/
def State.noFunction (s : State) : State := s.completes (if s.host.perst then .unsupported else .dropped)

/-- HOST_BADOFS names an access. -/
def State.badOfs (s : State) (func bar ofs : Nat) : State :=
  ((s.setF Fld.HOST_BADOFS_FUNC func).setF Fld.HOST_BADOFS_BAR bar).setF Fld.HOST_BADOFS_OFS ofs

/-- Whether a function's memory BARs answer: the endpoint is out of PERST_N (R463). -/
def State.funcAnswers (s : State) (func : Nat) : Bool :=
  s.host.perst && (func == 0 || decide (func ≤ s.f Fld.HOST_NUMVF)) && !(s.func func).d3 && !(s.func func).flr

/-- The size of a BAR in bytes; 0 where the function has none of that number. -/
def State.barSize (s : State) (func bar : Nat) : Nat :=
  match func, bar with
  | 0, 0 => 2 ^ 25
  | 0, 1 => s.host.bar2 * 2 ^ 20
  | 0, 4 => 2 ^ 16
  | _ + 1, 2 => 2 ^ 19
  | _ + 1, 3 => 2 ^ 22
  | _, _ => 0

/-- What a word of VF BAR0 is. -/
inductive VfPlace
  | reg (a : Nat) (writable : Bool)
  | fixed (w : Word)
  | refused
  deriving DecidableEq, Repr

def State.vfPlace (s : State) (f ofs : Nat) : VfPlace :=
  if ofs < 0x40000 then
    let r := ofs / 0x40
    if s.f Fld.DMA_CFG_FUNC r = f ∧ s.admitted r then .reg (0x580000 + ofs) (decide (0x14 ≤ ofs % 0x40)) else .refused
  else if ofs < 0x40400 then .reg (0x2040000 + 0x80000 * f + (ofs - 0x40000)) true
  else if 0x41000 ≤ ofs ∧ ofs < 0x41008 then
    .fixed (bits32 fun k => (s.vec f (8 * (ofs - 0x41000) + k)).pendingBit)
  else if 0x42000 ≤ ofs ∧ ofs < 0x42080 then
    .fixed (bits32 fun k => let x := s.chan (8 * (ofs - 0x42000) + k); ofFunction f x.snd && x.sndIrq)
  else if 0x42080 ≤ ofs ∧ ofs < 0x42100 then
    .fixed (bits32 fun k => let x := s.chan (8 * (ofs - 0x42080) + k); ofFunction f x.rcv && x.rcvIrq)
  else .fixed 0

/-- One word is read. -/
def State.readWord (s : State) (func bar ofs : Nat) : State :=
  match bar with
  | 0 => s.readReg ofs
  | 2 =>
    match s.vfPlace func ofs with
    | .reg a _ => if a < 0x2000000 then s.readReg a else { s with readData := s.word a }
    | .fixed w => { s with readData := w }
    | .refused => ({ s with readData := 0 } : State).flag Fld.HOST_STAT_VFBAD |>.badOfs func 2 ofs
  | _ =>
    let c := ofs / 0x1000 % 1024
    if ofs % 0x1000 = 4 then s.msgTake func c
    else
      match s.pageRead func c (ofs % 0x1000) with
      | some w => { s with readData := w }
      | none => { s.badPage func c with readData := 0 }

/-- One word is written; a write to a file whose clock is stopped is discarded (R458). -/
def State.writeWord (s : State) (func bar ofs : Nat) (w : Word) : State :=
  let put := fun (a : Nat) =>
    if s.fileRuns a then s.writeReg a w else (s.flag Fld.HOST_STAT_STOPWR).badOfs func bar ofs
  match bar with
  | 0 => put ofs
  | 2 =>
    match s.vfPlace func ofs with
    | .reg a true => if a < 0x2000000 then put a else s.writePlain a w
    | .fixed _ => s
    | _ => (s.flag Fld.HOST_STAT_VFBAD).badOfs func 2 ofs
  | _ => s.pageWrite func (ofs / 0x1000 % 1024) (ofs % 0x1000) w

/-- The words of an access are written, lower address first; words whose byte enables are not all set are discarded. -/
def State.writeWords (s : State) (x : HostAccess) : State :=
  ((x.wr.getD []).zipIdx).foldl (fun s e =>
    let ofs := x.ofs + 4 * e.2
    if x.cut.contains e.2 then (s.flag Fld.HOST_STAT_PARTIAL).badOfs x.func x.bar ofs
    else s.writeWord x.func x.bar ofs e.1) s

/-- The words of an access are read, lower address first; the completion carries them. -/
def State.readWords (s : State) (x : HostAccess) : State :=
  let r := (List.range x.len).foldl (fun (a : State × List Word) i =>
    let t := a.1.readWord x.func x.bar (x.ofs + 4 * i)
    (t, a.2 ++ [t.readData])) (s, [])
  r.1.completes (.value r.2)

/-- Whether an access writes BUR_DB. -/
def ringsDoorbell (x : HostAccess) : Bool :=
  x.bar == 0 && x.wr.isSome && (x.ofs == Reg.BUR_DB.base || (x.ofs + 4 == Reg.BUR_DB.base && x.len == 2))

/-- An access takes effect, and the vectors follow (R462); `mirror` says that it is the primary's, on the standby (R523). -/
def State.applyAccess (s : State) (x : HostAccess) (mirror : Bool) : State :=
  let t := if x.wr.isSome then s.writeWords x else s.readWords x
  let t := if ringsDoorbell x ∧ ¬ s.on Fld.BUR_STATUS_BUSY then { t with bur := { t.bur with mirrored := mirror } } else t
  t.afterAccess s

/-- The clock, of those that may stop, that an access needs. -/
def State.accessClock (s : State) (x : HostAccess) : Option Nat := if x.bar = 0 then s.fileClock x.ofs else none

/-- Whether an access waits: its clock stands, and the detector has not marked it yet (R497). -/
def State.mustWait (s : State) (x : HostAccess) : Bool :=
  (s.accessClock x).any fun k => !s.clockRuns k && !s.host.stopped.contains k

/-- An access waits for its clock; a read has no completion yet. -/
def State.holdAccess (s : State) (x : HostAccess) (mirror : Bool) : State :=
  { s with host := { s.host with
    held := s.host.held ++ [(x, mirror)], cpl := if x.wr.isSome then s.host.cpl else .dropped } }

/-- The waiting accesses whose clock runs again or is marked take effect or end, oldest first (R497). -/
def State.releaseHeld (s : State) : State :=
  s.host.held.foldl (fun s e => if s.mustWait e.1 then s.holdAccess e.1 e.2 else s.applyAccess e.1 e.2)
    { s with host := { s.host with held := [] } }

/-- An access reaches its register file: after those that waited before it, and where the file's clock stands unmarked it
waits too (R497). DESIGN CHOICE, log entry 37. -/
def State.performAccess (s : State) (x : HostAccess) (mirror : Bool) : State :=
  let s := if (s.accessClock x).isSome then s.releaseHeld else s
  if s.mustWait x then s.holdAccess x mirror else s.applyAccess x mirror

/-! ## In a pair (R523, R524) -/

/-- Whether an access is to the TWN block. -/
def toTwn (x : HostAccess) : Bool := x.bar == 0 && decide (0x6C0000 ≤ x.ofs ∧ x.ofs < 0x6E0000)

/-- Whether an access is to the Bureau's transport: BUR_CMD, BUR_STATUS, BUR_DB, BUR_ARGi. -/
def toBureau (x : HostAccess) : Bool :=
  x.bar == 0 && (decide (0x60000 ≤ x.ofs ∧ x.ofs < 0x6000C) || decide (0x60040 ≤ x.ofs ∧ x.ofs < 0x60080))

/-- Whether a word of BAR0 has a read with a side effect. -/
def readActs (a : Nat) : Bool :=
  match regAt a with
  | none => false
  | some r =>
    let b := r.row.reg.base
    b == Reg.FC_RS_CDATA.base || b == Reg.DA_PDATA.base || b == Reg.FAB_PEEK_DATA.base || r.row.mask (· == .rc) != 0

/-- Whether an access has an effect that the standby must follow. -/
def accessActs (x : HostAccess) : Bool :=
  x.wr.isSome ||
    (List.range x.len).any fun i =>
      let a := x.ofs + 4 * i
      match x.bar with
      | 0 => readActs a
      | 2 => decide (a < 0x40000) && readActs (0x580000 + a)
      | _ => a % 0x1000 == 4

/-- Whether a write to the word at `ofs` of a BAR sets WR_IGN where writes are ignored, whatever it would change: WO fields, the
data ports, the pointers of R401, and the Pigeonhole pages (R554). -/
def alwaysIgnored (bar ofs : Nat) : Bool :=
  let at_ : Nat → Bool := fun a =>
    match regAt a with
    | none => false
    | some r =>
      let b := r.row.reg.base
      b == Reg.FC_RS_CDATA.base || b == Reg.DA_PDATA.base || b == Reg.DMA_HEAD.base || b == Reg.DMA_TAIL.base ||
        r.row.mask (· == .wo) != 0
  match bar with
  | 0 => at_ ofs
  | 2 => decide (ofs < 0x40000) && at_ (0x580000 + ofs)
  | _ => true

/-- The words of a write access, as accesses of one word. -/
def singleWords (x : HostAccess) : List HostAccess :=
  ((x.wr.getD []).zipIdx).map fun e =>
    { x with ofs := x.ofs + 4 * e.2, len := 1, wr := some [e.1], cut := if x.cut.contains e.2 then [0] else [] }

/-- The register of BAR0 that a word of a BAR is, if it is one. -/
def State.regOf (s : State) (x : HostAccess) : Option Nat :=
  match x.bar with
  | 0 => some x.ofs
  | 2 =>
    match s.vfPlace x.func x.ofs with
    | .reg a true => some a
    | _ => none
  | _ => none

/-- Whether an ignored write of one word sets WR_IGN: R554 does not protect what it writes, or a field of its register would
change. A shadowed alarm register compares with the value in force (R72). -/
def State.ignoredShows (s : State) (x : HostAccess) : Bool :=
  alwaysIgnored x.bar x.ofs ||
    match s.regOf x with
    | some a =>
      decide ((s.writeWords x).view a ≠ s.view a) ||
        match regAt a with
        | some r =>
          (r.row.reg.base == Reg.PA_TARGET.base || r.row.reg.base == Reg.PA_FILTER.base) &&
            decide (r.row.apply (s.word a) (((x.wr.getD []).head?).getD 0) ≠ s.word a)
        | none => false
    | none => false

/-- A host write on the standby, outside the TWN block and the Bureau's transport: ignored, or accepted in full where it leaves
every field as it is (R524, R554). -/
def State.standbyWrite (s : State) (x : HostAccess) : State :=
  (singleWords x).foldl (fun s y => if s.ignoredShows y then s.flag Fld.TWN_STAT_WR_IGN else s.performAccess y false) s

/-- What a read would return now, without its side effects. -/
def State.peekWords (s : State) (x : HostAccess) : Completion :=
  match (s.readWords x).host.cpl with
  | .value l => .value l
  | c => c

/-- A refused request (R455): a read completes with Unsupported Request, which its completer reports as an advisory error, and a
write is discarded and reported as one. PRESUMED, log entry 37. -/
def State.refuseRequest (s : State) (x : HostAccess) : State :=
  if x.wr.isSome then s.aer x.func 20 else ((s.aer x.func 20).aerAdvisory x.func).completes .unsupported

/-- An access that the endpoint accepts reaches the device: at once; on the standby a write is ignored; on the primary an access
with an effect waits 2,000 ticks. DESIGN CHOICE, log entry 37; DEDUCED, log entry 41. -/
def State.deliverAccess (s : State) (x : HostAccess) : State :=
  if s.standby then
    if x.wr.isSome ∧ ¬ toTwn x ∧ ¬ toBureau x then s.standbyWrite x
    else if accessActs x ∧ ¬ toTwn x ∧ ¬ x.wr.isSome then s.completes (s.peekWords x)
    else s.performAccess x false
  else if s.on Fld.TWN_STAT_PAIRED ∧ accessActs x ∧ ¬ toTwn x then
    let s := if x.wr.isSome then s else s.completes (s.peekWords x)
    { s with twin := { s.twin with waiting := s.twin.waiting ++ [(s.lcs.time + 2000, x)] } }
  else s.performAccess x false

/-- A request to a memory BAR (R455); BAR4 reads 0 (R357). DESIGN CHOICE, log entry 37. -/
def State.hostAccess (s : State) (x : HostAccess) : State :=
  let size := s.barSize x.func x.bar
  if !s.funcAnswers x.func || decide (size < x.ofs + 4) then s.noFunction
  else if x.bar = 4 then s.completes (.value (List.replicate x.len 0))
  else if ¬ ((x.len = 1 ∧ x.ofs % 4 = 0) ∨ (x.len = 2 ∧ x.ofs % 8 = 0)) then (s.flag Fld.HOST_STAT_LONGACC).refuseRequest x
  else if x.ep ∧ x.wr.isSome then s.aer x.func 12
  else s.deliverAccess x

/-- The tick of an access. -/
def State.atAccess (s : State) (tick : Nat) : State := if s.lclk then s.atTick tick else s

def execRegisterWrite (tick : Nat) (x : HostAccess) (s : State) : Out :=
  if x.ok ∧ x.wr.isSome then .next ((s.atAccess tick).hostAccess x) else .fault .illFormed

def execRcRead (tick : Nat) (x : HostAccess) (s : State) : Out :=
  if x.ok ∧ x.wr.isNone then .next ((s.atAccess tick).hostAccess x) else .fault .illFormed

/-- A forwarded access takes effect (R523): on the primary the oldest that is due at `tick`, on the standby the primary's,
`peer`. -/
def execForwardedWrite (tick : Nat) (peer : Option HostAccess) (s : State) : Out :=
  if !(peer.all HostAccess.ok) then .fault .illFormed
  else
    let s := s.atAccess tick
    let run := fun (s : State) (x : HostAccess) (mirror : Bool) =>
      let t := s.performAccess x mirror
      if x.wr.isSome then t.addWrap Fld.TWN_HSEQ 1 else t
    .next (match s.standby, peer, s.twin.waiting with
      | true, some x, _ => run s x true
      | true, none, _ => s
      | false, _, (due, x) :: rest =>
        if due ≤ tick then run { s with twin := { s.twin with waiting := rest } } x false else s
      | false, _, [] => s)

/-! ## Commands that name one register -/

/-- A host write or read of one register that has its own row, after which the vectors are looked at. -/
def State.withLook (s t : State) : State := t.afterAccess s

/-- Whether a request of function `func` reaches the page of channel `c`: the function answers memory requests (R453, R463), and
the page lies inside its BAR2 (R454). -/
def State.pageReached (s : State) (func c : Nat) : Bool :=
  s.funcAnswers func && decide (0x1000 * (c + 1) ≤ s.barSize func (if func = 0 then 1 else 3))

/-- A request of function `func` to the page of channel `c`; where it does not reach the page it meets no function and changes
nothing (R442, R453, R454). -/
def State.onPage (s : State) (func c : Nat) (k : State → State) : State :=
  if s.pageReached func c then s.withLook (k s) else s.noFunction

def execMsgPost (func c : Nat) (w : Word) (s : State) : Out :=
  onInst func 32 (onInst c 1024 (.next (s.onPage func c fun s => (s.pageWrite func c 0x000 w).counted)))
def execMsgTake (func c : Nat) (s : State) : Out :=
  onInst func 32 (onInst c 1024 (.next (s.onPage func c fun s => s.msgTake func c)))
def execDbSet (func c : Nat) (w : Word) (s : State) : Out :=
  onInst func 32 (onInst c 1024 (.next (s.onPage func c fun s => (s.pageWrite func c 0x014 w).counted)))
def execDbClr (func c : Nat) (w : Word) (s : State) : Out :=
  onInst func 32 (onInst c 1024 (.next (s.onPage func c fun s => (s.pageWrite func c 0x018 w).counted)))

/-- A stream source field is written (R19, R24): FCn_SRC, DAd_SRC or DIO_BNDk_FPIj_SRC. -/
def execSourceWrite (a : Nat) (w : Word) (s : State) : Out := hostRow (
  if isSourceReg a then .next (s.writeWord 0 0 a w) else .fault .illFormed)

/-- A memory write to BAR4 (R357): each word with whether its byte enables are all set. -/
def execBar4Write (words : List (Word × Bool)) (s : State) : Out := .next (if s.funcAnswers 0 then s.bar4 words else s)

/-- A block that a downstream ring asked for arrives (R416). -/
def execFetchCompletion (r : Nat) (data : List Nat) (s : State) : Out :=
  onInst r 4096 (
    if data.length ≠ 4096 then .fault .illFormed
    else .next (if 0 < (s.ring r).asked ∧ s.admitted r then s.fetched r data else s))

/-! ## Configuration requests (R451, R453, R454, R459) -/

/-- The accesses of the functions that `p` picks that are not yet accepted are lost: those that wait for a clock and those
that wait for their time in a pair; bit 0 of XRST (R499). -/
def State.dropAccesses (s : State) (p : Nat → Bool) : State :=
  let lost := s.host.held.any (fun e => p e.1.func) || s.twin.waiting.any fun e => p e.2.func
  let s := s.xrst 0 lost
  { s with host := { s.host with held := s.host.held.filter fun e => !p e.1.func },
           twin := { s.twin with waiting := s.twin.waiting.filter fun e => !p e.2.func } }

/-- The functions that `p` picks, VFs no longer enabled or functions under FLR, lose what R463 says; their ends of the channels
are reset together (R442). DEDUCED, log entry 38. -/
def State.resetFuncs (s : State) (p : Nat → Bool) (flr : Bool) : State :=
  let fs := (List.range 32).filter p
  let s := s.dropAccesses p
  let s := fs.foldl (fun s f => (s.setFunc f { PciFunc.init with flr := flr }).retireRings (some f)) s
  let s := s.resetAgents fun a => match a with | .host g _ => fs.contains g | _ => false
  fs.foldl (fun s f => s.resetTable f) s

/-- The VFs above `n` are removed. -/
def State.dropVfs (s : State) (n : Nat) : State :=
  let old := s.f Fld.HOST_NUMVF
  (s.resetFuncs (fun f => decide (n < f ∧ f ≤ old)) false).setF Fld.HOST_NUMVF n

/-- The device identifier of a function (R451). -/
def State.pciDevice (s : State) (func : Nat) : Nat := s.part.code + (if func = 0 then 0 else 1)

/-- Whether a function has a capability or supports a feature (R447, R448, R451). -/
def pciHas (c : PciCap) (func : Nat) : Bool :=
  match c with
  | .powerManagement | .pciExpress | .msix | .aer | .serialNumber | .secondaryPcie | .dataLinkFeature | .phys16GT
  | .laneMargining | .flr | .tag10 | .aspmL1 | .timeoutA | .timeoutB | .timeoutDisable | .d0 | .d3hot => true
  | .ari | .sriov | .resizableBar => decide (func = 0)
  | .ats | .pasid | .pri | .atomicOps | .tph | .ltr | .aspmL0s | .l1Substates | .msi | .intx | .gt32 => false

/-- A number that a capability of a function gives (R446, R447, R448, R451, R454). -/
def State.pciNumber (s : State) (func : Nat) (q : PciNumber) : Nat :=
  let x := s.func func
  match q with
  | .msixVectors => vectorsOf func
  | .maxPayload => 512
  | .maxReadRequest => 4096
  | .maxSpeed => 4
  | .maxWidth => if s.part.isTwin then 8 else 16
  | .totalVfs => if func = 0 then 31 else 0
  | .firstVfOffset => if func = 0 then 1 else 0
  | .vfStride => if func = 0 then 1 else 0
  | .interruptPin => 0
  | .barBytes b => s.barSize func b
  | .barAddressBits b => if s.barSize func b = 0 then 0 else 64
  | .barPrefetchable _ => 0
  | .bar2Sizes => if func = 0 then 7 else 0
  | .busMaster => x.busMaster.toNat
  | .powerState => if x.d3 then 3 else 0
  | .msixEnable => x.msixEnable.toNat
  | .msixMask => x.msixMask.toNat
  | .numVf => if func = 0 then s.f Fld.HOST_NUMVF else 0
  | .aerStatus => x.aer
  | .aerCorrectable => x.cor

/-- A configuration request of a present function. -/
def State.configure (s : State) (func : Nat) (item : ConfigItem) : State :=
  let x := s.func func
  let done := fun (s : State) => s.completes (.value [])
  let say := fun (n : Nat) => s.completes (.value [BitVec.ofNat 32 n])
  match item with
  | .vendorId => say 0x1ED5
  | .deviceId => say (s.pciDevice func)
  | .classCode => say 0x118000
  | .serialNumber => s.completes (.value [BitVec.ofNat 32 Config.dieId, BitVec.ofNat 32 (Config.dieId / 2 ^ 32)])
  | .capability c => say (pciHas c func).toNat
  | .number q => say (s.pciNumber func q)
  | .aerClear w => done (s.setFunc func { x with aer := x.aer - (x.aer &&& w) })
  | .aerCorClear w => done (s.setFunc func { x with cor := x.cor - (x.cor &&& w) })
  | .busMaster b => (done (s.setFunc func { x with busMaster := b })).pump
  | .powerState b => (done (s.setFunc func { x with d3 := b })).pump
  | .msixEnable b => done ((s.setFunc func { x with msixEnable := b }).afterAccess s)
  | .msixMask b => done ((s.setFunc func { x with msixMask := b }).afterAccess s)
  | .numVf n => if func = 0 ∧ n ≤ 31 then done (s.dropVfs n) else done s
  | .bar2Size m =>
    if func = 0 ∧ (m = 1 ∨ m = 2 ∨ m = 4) then done { s with host := { s.host with bar2 := m } } else done s

/-- A configuration request: no answer without PORST_N and PERST_N high and a link, Retry Status until the host configuration is
loaded. DESIGN CHOICE, log entry 37. -/
def execConfigRequest (func : Nat) (item : ConfigItem) (s : State) : Out :=
  onInst func 32 (.next (
    if ¬ (s.host.porst ∧ s.host.perst ∧ s.on Fld.HOST_LINK_UP) then s.completes .dropped
    else if !s.host.ready then s.completes .retry
    else if func = 0 ∨ func ≤ s.f Fld.HOST_NUMVF then s.configure func item
    else s.completes .unsupported))

/-! ## The link (R412, R450) -/

/-- DMA_BUDGET of a link: speed code, lanes, Max Payload Size code (R412). -/
def linkBudget (speed width mps : Nat) : Nat :=
  let base := match speed with | 4 => 27000 | 3 => 13500 | 2 => 6855 | _ => 3427
  if mps = 0 then base * width * 4 / 80 else base * width / 16

/-- The link reaches L0, or its speed or width has changed. -/
def State.trained (s : State) (speed width mps mrrs : Nat) : State :=
  let s := ((s.flag Fld.HOST_LINK_UP).setF Fld.HOST_LINK_SPEED speed).setF Fld.HOST_LINK_WIDTH width
  let s := ((s.setF Fld.HOST_LINK_MPS mps).setF Fld.HOST_LINK_MRRS mrrs).flagIf s.host.trained Fld.HOST_STAT_RETRAIN
  let s := { s with host := { s.host with trained := true } }
  (s.setF Fld.DMA_BUDGET (linkBudget speed width mps)).gstat.pump

def execLinkTraining (speed width mps mrrs : Nat) (s : State) : Out :=
  if ¬ (1 ≤ speed ∧ speed ≤ 4 ∧ [1, 2, 4, 8, 16].contains width ∧ mps ≤ 2 ∧ mrrs ≤ 5) then .fault .illFormed
  else .next (
    if s.host.porst ∧ s.host.perst ∧ ¬ (s.part.isTwin ∧ width = 16) then s.trained speed width mps mrrs else s)

def execPcieLinkDown (s : State) : Out := .next (s.setF Fld.HOST_LINK_UP 0)

/-! ## Resets (R463) -/

/-- PERST_N goes low. DEDUCED, log entry 38. -/
def State.linkReset (s : State) : State :=
  let lost := s.stream.active && s.stream.src == 0 && !s.stream.waiting.isEmpty
  let s := s.dropAccesses fun _ => true
  let s := { s with host := { s.host with
    funcs := [], perst := false, trained := false, bar2 := 4, cpl := .dropped } }
  let s := s.resetRegs (fun a => decide (0x10000 ≤ a ∧ a < 0x11000)) fun _ => 0
  let s := if lost then (s.setStream { s.stream with waiting := [] }).xrst 12 true else s
  let s := (s.retireRings none).resetHosts
  (List.range 32).foldl (fun s f => s.resetTable f) s

def execPerstNAssert (s : State) : Out := .next s.linkReset
def execPerstNRelease (s : State) : Out := .next { s with host := { s.host with perst := true } }

/-- A function-level reset of function `f`. DEDUCED, log entry 38. -/
def State.flr (s : State) (f : Nat) : State :=
  if f = 0 then
    let n := s.f Fld.HOST_NUMVF
    let s := (s.resetFuncs (fun v => decide (v ≤ n)) true).setF Fld.HOST_NUMVF 0
    { s with host := { s.host with bar2 := 4 } }
  else if f ≤ s.f Fld.HOST_NUMVF then s.resetFuncs (· == f) true
  else s

def execFunctionLevelReset (func : Nat) (s : State) : Out := onInst func 32 (.next (s.flr func))

def execFlrComplete (func : Nat) (s : State) : Out :=
  onInst func 32 (.next (s.setFunc func { s.func func with flr := false }))

/-! ## Stopped clocks (R497) -/

/-- The detector looks at clock `k`: it marks one that has not toggled for 64 HCLK cycles, unmarks one that runs, and the
accesses that waited for it end. -/
def execClockStopped (k : Nat) (s : State) : Out :=
  onInst k 25 (.next (
    let l := (s.host.stopped.filter fun j => j != k && !s.clockRuns j)
    ({ s with host := { s.host with stopped := if s.clockRuns k then l else k :: l } } : State).releaseHeld))

end Sys2Proof.Machine
end

