-- ==== Sys2Proof/Machine/Jtag.lean ====
section
/-! DEFINITION. The JTAG port (R544). -/

namespace Sys2Proof.Machine

/-- What the TAP decodes: every code that is none of the five acts as BYPASS. -/
def tapDecode : TapCode → JtagInstr
  | .bypass => .bypass
  | .sample _ => .sample
  | .extest _ => .extest
  | .clamp => .clamp
  | .highz => .highz
  | .other _ => .bypass

/-- What is shifted into the boundary cells under the instruction. -/
def tapShift : TapCode → List (ScanPin × Option Bool)
  | .sample l | .extest l => l
  | _ => []

/-- DESIGN CHOICE, log entry 42. -/
def execJtagInstruction (code : TapCode) (s : State) : Out :=
  .next { s with pins := { s.pins with
    jtag := tapDecode code,
    cells := (tapShift code).foldl (fun c e => Tab.put (fun _ => none) c (scanCode e.1) e.2) s.pins.cells } }

def execJtagReset (s : State) : Out :=
  .next { s with pins := { s.pins with jtag := .bypass } }

end Sys2Proof.Machine
end

