-- ==== Sys2Proof/Machine/Scrub.lean ====
section
/-! DEFINITION. The scrubber (R388 to R393 of spec/). -/

namespace Sys2Proof.Machine

/-! ## The order of a pass (R388) -/

/-- Whether the scrubber checks frame `fa`. -/
def State.scrubs (s : State) (fa : Nat) : Bool :=
  decide (2 ≤ frameType fa) || (let st := s.cbState (frameZone fa); st == 1 || st == 3 || st == 4)

/-- The first frame that is checked, from `fa` on; `fuel` bounds the cabinets passed over. -/
def State.scrubFrom (s : State) (fa : Option Nat) (fuel : Nat) : Option Nat :=
  match fa, fuel with
  | none, _ => none
  | _, 0 => none
  | some a, n + 1 =>
    if s.scrubs a then some a
    else s.scrubFrom (nextFrame s.part (a - frameIndex a + (frameDims s.part (frameType a)).2 - 1)) n

/-- The scrubber turns to a frame, which SCRB_POS shows (R395), or ends its pass. -/
def State.turnTo (s : State) (fa : Option Nat) : State :=
  let s := match fa with
    | some a => s.setF Fld.SCRB_POS a
    | none => s
  { s with scrub := { Scrub.init with at_ := fa } }

/-- A new pass begins at the lowest address. -/
def execScrubPassStart (s : State) : Out :=
  .next (if s.mode.scrubs ∧ s.on Fld.SCRB_CTL_EN ∧ s.scrub.at_ = none then
    (s.turnTo (s.scrubFrom (some 0) 64)).setB Fld.SCRB_STAT_RUNNING true
  else s)

/-! ## The code (R389) -/

/-- What a frame read says. -/
inductive Syndrome
  | clean
  | single (pos : Nat)
  | double
  deriving DecidableEq, Repr

/-- The syndrome of 32 words with their stored check word. -/
def syndrome (ws : List Word) (check : Nat) : Syndrome :=
  let c := checkWord ws
  let s := (c % 2048) ^^^ (check % 2048)
  let data := Bool.xor (c.testBit 11) (parity11 (c % 2048))
  let e := Bool.xor (Bool.xor data (parity11 (check % 2048))) (check.testBit 11)
  if e then (if s ≤ 1035 then .single s else .double)
  else if s = 0 then .clean
  else .double

/-- Bit `d` of 32 words inverted. -/
def flipBit (ws : List Word) (d : Nat) : List Word := ws.modify (d / 32) fun w => w ^^^ BitVec.ofNat 32 (2 ^ (d % 32))

/-- The words and the check word of a frame after upsets of bits `l`: 0 to 1,023 data, 1,024 + j check bit j. -/
def upset (ws : List Word) (check : Nat) (l : List Nat) : List Word × Nat :=
  l.foldl (fun a b => if b < 1024 then (flipBit a.1 b, a.2) else (a.1, a.2 ^^^ 2 ^ ((b - 1024) % 12))) (ws, check)

/-- The correction of a single error at position `pos`. -/
def correct (ws : List Word) (check pos : Nat) : List Word × Nat :=
  if pos = 0 then (ws, check ^^^ 2048)
  else
    let n := Nat.log2 pos
    if 2 ^ n = pos then (ws, check ^^^ 2 ^ n) else (flipBit ws (pos - 2 - n), check)

/-! ## A check (R390, R391) -/

def State.storeFrame (s : State) (fa : Nat) (ws : List Word) (check : Nat) : State :=
  (ws.zipIdx.foldl (fun s e => s.setFrameWord fa e.2 e.1) s).setCheck fa check

/-- A double error in a frame of CBk. DEDUCED, log entry 34. -/
def State.quarantine (s : State) (k fa : Nat) : State :=
  let s := if s.on Fld.SCRB_CB_DBL_VALID k then s
    else (s.flag Fld.SCRB_CB_DBL_VALID k).setF Fld.SCRB_CB_DBL_FA fa k
  let s := s.flag Fld.SCRB_IRQ_DBL
  let s := if s.cbState k = 1 ∨ s.cbState k = 3 then
      let s := ((s.stopPorts k).isolate k).setCbState k 5
      (s.setMeas k { (s.cab k).meas with dstate := 4 }).endPartial
    else s
  s.scrubEvent k false

/-- A corrected error in a frame of CBk. -/
def State.corrected (s : State) (k : Nat) : State :=
  let s := (s.addSat Fld.SCRB_CB_SGL 1 k).flag Fld.SCRB_IRQ_SGL
  ({ s with bur := { s.bur with corrections := s.bur.corrections + 1 } } : State).scrubEvent k true

/-- The check of frame `fa`, in which the bits `l` have been upset. DEDUCED, log entry 34. -/
def State.checkFrame (s : State) (fa : Nat) (l : List Nat) : State :=
  let s := s.setF Fld.SCRB_POS fa
  if 2 ≤ frameType fa then
    let u := upset (s.frameWords fa) (s.frameCheck fa) l
    match syndrome u.1 u.2 with
    | .clean => s
    | .single _ => s.addSat Fld.SCRB_HB_SGL 1
    | .double => s.addSat Fld.SCRB_HB_DBL 1
  else
    let k := frameZone fa
    let u := upset (s.frameWords fa) (s.frameCheck fa) l
    match syndrome u.1 u.2 with
    | .clean => s.storeFrame fa u.1 u.2
    | .single p =>
      let c := correct u.1 u.2 p
      (s.storeFrame fa c.1 c.2).corrected k
    | .double => (s.storeFrame fa u.1 u.2).quarantine k fa

/-- The frame whose check the scrubber ends now: the one it reads, which may belong to a cabinet that has become LOADING since
(R374), else the next that is checked. -/
def State.frameAt (s : State) : Option Nat :=
  match s.scrub.at_ with
  | none => none
  | some a => if frameType a < 2 ∧ s.cbState (frameZone a) = 2 then some a else s.scrubFrom (some a) 64

/-- A check of a frame that was written meanwhile is discarded, and the frame is read again; the fourth in a row holds the
writes to it for one check (R392, R505). -/
def State.rereadFrame (s : State) (fa : Nat) : State :=
  let n := s.scrub.discards + 1
  { s.setF Fld.SCRB_POS fa with scrub := { s.scrub with at_ := some fa, touched := false, discards := n, hold := decide (4 ≤ n) } }

/-- The scrubber goes on after frame `fa`, and the writes that waited take effect (R505); a failover or a change of mode may
have stopped it. -/
def State.scrubOn (s : State) (fa : Nat) (held : List HeldWrite) : State :=
  let s : State :=
    if s.scrub.at_ = none then s
    else
      match s.scrubFrom (nextFrame s.part fa) 64 with
      | none => (s.turnTo none).addWrap Fld.SCRB_PASSES 1
      | some n => s.turnTo (some n)
  s.writeHeld held

/-- The upset `b` hits a copy of a voted register (R393): from 1,036 on, bit b' of copy c of SCRB_CTL, then of SCRB_IRQEN, is
number 32 c + b'. -/
def Voted.upset (v : Voted) (b : Nat) : Voted :=
  let hit := fun (x : Word × Word × Word) (n : Nat) =>
    let m := BitVec.ofNat 32 (2 ^ (n % 32))
    if n < 32 then (x.1 ^^^ m, x.2.1, x.2.2) else if n < 64 then (x.1, x.2.1 ^^^ m, x.2.2) else (x.1, x.2.1, x.2.2 ^^^ m)
  if b < 1036 then v
  else if b < 1132 then { v with ctl := hit v.ctl (b - 1036) }
  else { v with irqen := hit v.irqen (b - 1132) }

/-- The scrubber checks its next frame; `flips` are the bits upset by then, of the frame and of the voted copies. -/
def execScrubFrameCheck (flips : List Nat) (s : State) : Out :=
  if flips.any fun b => decide (1228 ≤ b) then .fault .illFormed
  else
    let s := { s with voted := flips.foldl Voted.upset s.voted }
    let hits := flips.filter fun b => decide (b < 1036)
    .next (match s.frameAt with
    | none => s
    | some fa => if s.scrub.touched then s.rereadFrame fa else (s.checkFrame fa hits).scrubOn fa s.scrub.held)

/-- The bits that at least two of three copies have. -/
def majority (x : Word × Word × Word) : Word := (x.1 &&& x.2.1) ||| (x.1 &&& x.2.2) ||| (x.2.1 &&& x.2.2)

/-- Whether the three copies are one value. -/
def agreed (x : Word × Word × Word) : Bool := x.1 == x.2.1 && x.2.1 == x.2.2

/-- Where a copy of a voted register disagrees (R393), each bit takes the majority of its copies, and the copies are
rewritten. -/
def execVoteRepair (s : State) : Out :=
  .next (if s.mode = .reset ∨ (agreed s.voted.ctl ∧ agreed s.voted.irqen) then s
  else
    let c := majority s.voted.ctl
    let q := majority s.voted.irqen
    let s := (s.setWord Reg.SCRB_CTL.base c).setWord Reg.SCRB_IRQEN.base q
    let s := if c.bit 31 then s else ({ s with scrub := Scrub.init } : State).setB Fld.SCRB_STAT_RUNNING false
    ({ s with voted := ⟨(c, c, c), (q, q, q)⟩ }.flag Fld.SCRB_STAT_VOTEFIX).flag Fld.SCRB_IRQ_VOTE)

end Sys2Proof.Machine
end

