-- ==== Sys2Proof/Machine/Dispatch.lean ====
section
/-! DEFINITION. One arm per command: the meaning it calls. -/

namespace Sys2Proof.Machine

open Sys2Proof

/-- The effect of a command on everything but the queue. -/
def exec (i : Instr) (s : State) : Host.Outcome State Fault Refusal :=
  match i with
  | .powerOn => Sys2Proof.Machine.execPowerOn s
  | .porstNAssert => Sys2Proof.Machine.execPorstNAssert s
  | .porstNRelease compat boot => Sys2Proof.Machine.execPorstNRelease compat boot s
  | .bureauBootComplete err trng store => Sys2Proof.Machine.execBureauBootComplete err trng store s
  | .brownOut => Sys2Proof.Machine.execBrownOut s
  | .autonomousBoot => Sys2Proof.Machine.execAutonomousBoot s
  | .perstNAssert => Sys2Proof.Machine.execPerstNAssert s
  | .perstNRelease => Sys2Proof.Machine.execPerstNRelease s
  | .linkTraining speed width mps mrrs => Sys2Proof.Machine.execLinkTraining speed width mps mrrs s
  | .functionLevelReset func => Sys2Proof.Machine.execFunctionLevelReset func s
  | .configRequest func item => Sys2Proof.Machine.execConfigRequest func item s
  | .watchdogExpiry => Sys2Proof.Machine.execWatchdogExpiry s
  | .sramUncorrectableError => Sys2Proof.Machine.execSramUncorrectableError s
  | .getInfo tag args => Sys2Proof.Machine.execGetInfo tag args s
  | .setMode tag args => Sys2Proof.Machine.execSetMode tag args s
  | .getMode tag args => Sys2Proof.Machine.execGetMode tag args s
  | .cfgBegin tag args => Sys2Proof.Machine.execCfgBegin tag args s
  | .cfgAbort tag args => Sys2Proof.Machine.execCfgAbort tag args s
  | .cfgStatus tag args => Sys2Proof.Machine.execCfgStatus tag args s
  | .regionLoadBegin tag args => Sys2Proof.Machine.execRegionLoadBegin tag args s
  | .regionRelease tag args => Sys2Proof.Machine.execRegionRelease tag args s
  | .calRun tag args meas => Sys2Proof.Machine.execCalRun tag args meas s
  | .calCommit tag args => Sys2Proof.Machine.execCalCommit tag args s
  | .calExport tag args => Sys2Proof.Machine.execCalExport tag args s
  | .calImport tag args => Sys2Proof.Machine.execCalImport tag args s
  | .rotateNow tag args => Sys2Proof.Machine.execRotateNow tag args s
  | .chanAlloc tag args => Sys2Proof.Machine.execChanAlloc tag args s
  | .chanFree tag args => Sys2Proof.Machine.execChanFree tag args s
  | .ringAdmit tag args peer => Sys2Proof.Machine.execRingAdmit tag args peer s
  | .ringRetire tag args => Sys2Proof.Machine.execRingRetire tag args s
  | .attest tag args => Sys2Proof.Machine.execAttest tag args s
  | .keyEnroll tag args good => Sys2Proof.Machine.execKeyEnroll tag args good s
  | .policySet tag args => Sys2Proof.Machine.execPolicySet tag args s
  | .twinPair tag args p there => Sys2Proof.Machine.execTwinPair tag args p there s
  | .twinSplit tag args there => Sys2Proof.Machine.execTwinSplit tag args there s
  | .pwrCeiling tag args => Sys2Proof.Machine.execPwrCeiling tag args s
  | .commandComplete peer => Sys2Proof.Machine.execCommandComplete peer s
  | .random c v => Sys2Proof.Machine.execRandom c v s
  | .digestRequest c => Sys2Proof.Machine.execDigestRequest c s
  | .claimLow c => Sys2Proof.Machine.execClaimLow c s
  | .claimHigh c => Sys2Proof.Machine.execClaimHigh c s
  | .bar4Write words => Sys2Proof.Machine.execBar4Write words s
  | .twinStreamWord w => Sys2Proof.Machine.execTwinStreamWord w s
  | .preambleWord flash => Sys2Proof.Machine.execPreambleWord flash s
  | .syncWord flash => Sys2Proof.Machine.execSyncWord flash s
  | .device flash => Sys2Proof.Machine.execDevice flash s
  | .frames flash => Sys2Proof.Machine.execFrames flash s
  | .frame flash => Sys2Proof.Machine.execFrame flash s
  | .analogEntry flash => Sys2Proof.Machine.execAnalogEntry flash s
  | .startup flash => Sys2Proof.Machine.execStartup flash s
  | .digest flash => Sys2Proof.Machine.execDigest flash s
  | .signature flash => Sys2Proof.Machine.execSignature flash s
  | .signatureVerification mclk => Sys2Proof.Machine.execSignatureVerification mclk s
  | .endRecord flash => Sys2Proof.Machine.execEnd flash s
  | .region flash => Sys2Proof.Machine.execRegion flash s
  | .verify => Sys2Proof.Machine.execVerify s
  | .referenceWait mclk => Sys2Proof.Machine.execReferenceWait mclk s
  | .refTmo mclk => Sys2Proof.Machine.execRefTmo mclk s
  | .regionStreamStart => Sys2Proof.Machine.execRegionStreamStart s
  | .regionVerify => Sys2Proof.Machine.execRegionVerify s
  | .scrubPassStart => Sys2Proof.Machine.execScrubPassStart s
  | .scrubFrameCheck flips => Sys2Proof.Machine.execScrubFrameCheck flips s
  | .voteRepair => Sys2Proof.Machine.execVoteRepair s
  | .pllLockLoss => Sys2Proof.Machine.execPllLockLoss s
  | .pllRelock => Sys2Proof.Machine.execPllRelock s
  | .smpclkStamp stamp => Sys2Proof.Machine.execSmpclkStamp stamp s
  | .smpclkStall => Sys2Proof.Machine.execSmpclkStall s
  | .prEdge n stamp tick kind => Sys2Proof.Machine.execPrEdge n stamp tick kind s
  | .prIndexEdge n stamp tick kind => Sys2Proof.Machine.execPrIndexEdge n stamp tick kind s
  | .edgeProcessing n => Sys2Proof.Machine.execEdgeProcessing n s
  | .coastEntry n tick => Sys2Proof.Machine.execCoastEntry n tick s
  | .coastLimit n tick => Sys2Proof.Machine.execCoastLimit n tick s
  | .prEnable n en => Sys2Proof.Machine.execPrEnable n en s
  | .prSnap n tick => Sys2Proof.Machine.execPrSnap n tick s
  | .lcsTimeSnap tick => Sys2Proof.Machine.execLcsTimeSnap tick s
  | .paEnable n tick en => Sys2Proof.Machine.execPaEnable n tick en s
  | .alarmFiring n tick => Sys2Proof.Machine.execAlarmFiring n tick s
  | .timerStart n tick => Sys2Proof.Machine.execTimerStart n tick s
  | .timerExpiry n => Sys2Proof.Machine.execTimerExpiry n s
  | .firingRecord => Sys2Proof.Machine.execFiringRecord s
  | .seqStart g => Sys2Proof.Machine.execSeqStart g s
  | .urgent g => Sys2Proof.Machine.execUrgent g s
  | .mark g => Sys2Proof.Machine.execMark g s
  | .rsInstant n => Sys2Proof.Machine.execRsInstant n s
  | .segStart d => Sys2Proof.Machine.execSegStart d s
  | .blankOpen n => Sys2Proof.Machine.execBlankOpen n s
  | .blankClose n => Sys2Proof.Machine.execBlankClose n s
  | .event => Sys2Proof.Machine.execEvent s
  | .doorbell => Sys2Proof.Machine.execDoorbell s
  | .wakeFiring => Sys2Proof.Machine.execWake s
  | .irq => Sys2Proof.Machine.execIrq s
  | .periodClear n => Sys2Proof.Machine.execPeriodClear n s
  | .captureEdge k stamp kind => Sys2Proof.Machine.execCaptureEdge k stamp kind s
  | .capPop k => Sys2Proof.Machine.execCapPop k s
  | .nextEventUpdate t peer => Sys2Proof.Machine.execNextEventUpdate t peer s
  | .selfWake => Sys2Proof.Machine.execSelfWake s
  | .powerStateEntry => Sys2Proof.Machine.execPowerStateEntry s
  | .powerStateExit t => Sys2Proof.Machine.execPowerStateExit t s
  | .tempConversion k raw => Sys2Proof.Machine.execTempConversion k raw s
  | .cgEnable g => Sys2Proof.Machine.execCgEnable g s
  | .cgDisable g => Sys2Proof.Machine.execCgDisable g s
  | .cgGo g => Sys2Proof.Machine.execCgGo g s
  | .cgStop g => Sys2Proof.Machine.execCgStop g s
  | .fabricRequest f => Sys2Proof.Machine.execFabricRequest f s
  | .settleEnd g => Sys2Proof.Machine.execSettleEnd g s
  | .dwellComplete g => Sys2Proof.Machine.execDwellComplete g s
  | .urgentDwellComplete g => Sys2Proof.Machine.execUrgentDwellComplete g s
  | .cgCntSnap g => Sys2Proof.Machine.execCgCntSnap g s
  | .elogPop g => Sys2Proof.Machine.execElogPop g s
  | .windowComparatorFire g l => Sys2Proof.Machine.execWindowComparatorFire g l s
  | .refSettled g => Sys2Proof.Machine.execRefSettled g s
  | .refFault q => Sys2Proof.Machine.execRefFault q s
  | .rotationCheck => Sys2Proof.Machine.execRotationCheck s
  | .overlapStart g tick => Sys2Proof.Machine.execOverlapStart g tick s
  | .handoverTest g => Sys2Proof.Machine.execHandoverTest g s
  | .sliceCalibration g ofs gain skew rofs rgain res => Sys2Proof.Machine.execSliceCalibration g ofs gain skew rofs rgain res s
  | .estimatorBlock g tick pair => Sys2Proof.Machine.execEstimatorBlock g tick pair s
  | .azBoundary c => Sys2Proof.Machine.execAzBoundary c s
  | .azSwap c => Sys2Proof.Machine.execAzSwap c s
  | .rst c dt => Sys2Proof.Machine.execRst c dt s
  | .portOverload n v => Sys2Proof.Machine.execPortOverload n v s
  | .cellSaturation c dt => Sys2Proof.Machine.execCellSaturation c dt s
  | .matrixWrite addr w => Sys2Proof.Machine.execMatrixWrite addr w s
  | .fcEnable n => Sys2Proof.Machine.execFcEnable n s
  | .sourceWrite a w => Sys2Proof.Machine.execSourceWrite a w s
  | .bank n bank => Sys2Proof.Machine.execBank n bank s
  | .xfadeStart n => Sys2Proof.Machine.execXfadeStart n s
  | .xfDone n => Sys2Proof.Machine.execXfDone n s
  | .fcCntSnap n => Sys2Proof.Machine.execFcCntSnap n s
  | .gapPop n => Sys2Proof.Machine.execGapPop n s
  | .cdata n acc => Sys2Proof.Machine.execCdata n acc s
  | .incCommit n w => Sys2Proof.Machine.execIncCommit n w s
  | .slot n tick => Sys2Proof.Machine.execSlot n tick s
  | .tlogPop n => Sys2Proof.Machine.execTlogPop n s
  | .detWindowClose n => Sys2Proof.Machine.execDetWindowClose n s
  | .wmEnable n => Sys2Proof.Machine.execWmEnable n s
  | .wmPowerUp n v => Sys2Proof.Machine.execWmPowerUp n v s
  | .wmConditionWrite n what w => Sys2Proof.Machine.execWmConditionWrite n what w s
  | .wmSettle n v => Sys2Proof.Machine.execWmSettle n v s
  | .wmDisable n => Sys2Proof.Machine.execWmDisable n s
  | .comparatorEdge n v stamp => Sys2Proof.Machine.execComparatorEdge n v stamp s
  | .wmResolve n v stamp => Sys2Proof.Machine.execWmResolve n v stamp s
  | .edgeDelivery n => Sys2Proof.Machine.execEdgeDelivery n s
  | .daGo d => Sys2Proof.Machine.execDaGo d s
  | .daStop d => Sys2Proof.Machine.execDaStop d s
  | .daEnable d en => Sys2Proof.Machine.execDaEnable d en s
  | .segmentEnd d => Sys2Proof.Machine.execSegmentEnd d s
  | .underrun d => Sys2Proof.Machine.execUnderrun d s
  | .pdata d acc => Sys2Proof.Machine.execPdata d acc s
  | .clkenWrite k on => Sys2Proof.Machine.execClkenWrite k on s
  | .fpllMWrite m => Sys2Proof.Machine.execFpllMWrite m s
  | .fpllLock => Sys2Proof.Machine.execFpllLock s
  | .peekData k => Sys2Proof.Machine.execPeekData k s
  | .fpInputWord k j => Sys2Proof.Machine.execFpInputWord k j s
  | .fpInputGroupTake k j => Sys2Proof.Machine.execFpInputGroupTake k j s
  | .fpOutputWord k j => Sys2Proof.Machine.execFpOutputWord k j s
  | .agentPost k a => Sys2Proof.Machine.execAgentPost k a s
  | .agentTake k a => Sys2Proof.Machine.execAgentTake k a s
  | .agentDbclr k a => Sys2Proof.Machine.execAgentDbclr k a s
  | .vccioChange b present => Sys2Proof.Machine.execVccioChange b present s
  | .dioPinCfgWrite n w => Sys2Proof.Machine.execDioPinCfgWrite n w s
  | .dmaPdirLo w => Sys2Proof.Machine.execDmaPdirLo w s
  | .dmaPdirHi w => Sys2Proof.Machine.execDmaPdirHi w s
  | .tailWrite r w => Sys2Proof.Machine.execTailWrite r w s
  | .headWrite r w => Sys2Proof.Machine.execHeadWrite r w s
  | .ringWord r ns at_ => Sys2Proof.Machine.execRingWord r ns at_ s
  | .ageClose r => Sys2Proof.Machine.execAgeClose r s
  | .blockWrite r => Sys2Proof.Machine.execBlockWrite r s
  | .blkHold r => Sys2Proof.Machine.execBlkHold r s
  | .dmaSnap r => Sys2Proof.Machine.execDmaSnap r s
  | .ringFetch r => Sys2Proof.Machine.execRingFetch r s
  | .fetchCompletion r data => Sys2Proof.Machine.execFetchCompletion r data s
  | .completionTimeout r => Sys2Proof.Machine.execCompletionTimeout r s
  | .msgPost func c w => Sys2Proof.Machine.execMsgPost func c w s
  | .msgTake func c => Sys2Proof.Machine.execMsgTake func c s
  | .dbSet func c w => Sys2Proof.Machine.execDbSet func c w s
  | .dbClr func c w => Sys2Proof.Machine.execDbClr func c w s
  | .channelTimeout c => Sys2Proof.Machine.execChannelTimeout c s
  | .msixMessage func v => Sys2Proof.Machine.execMsixMessage func v s
  | .clockStopped k => Sys2Proof.Machine.execClockStopped k s
  | .rcRead tick x => Sys2Proof.Machine.execRcRead tick x s
  | .registerWrite tick x => Sys2Proof.Machine.execRegisterWrite tick x s
  | .heartbeat lanes strobe seqs closes => Sys2Proof.Machine.execHeartbeat lanes strobe seqs closes s
  | .heartbeatLoss => Sys2Proof.Machine.execHeartbeatLoss s
  | .primaryPllLoss => Sys2Proof.Machine.execPrimaryPllLoss s
  | .fenced cause seqs => Sys2Proof.Machine.execFenced cause seqs s
  | .twinCompare k differ peer => Sys2Proof.Machine.execTwinCompare k differ peer s
  | .forwardedWrite tick peer => Sys2Proof.Machine.execForwardedWrite tick peer s
  | .laneErrorBurst => Sys2Proof.Machine.execLaneErrorBurst s
  | .linkDown => Sys2Proof.Machine.execLinkDown s
  | .jtagInstruction code => Sys2Proof.Machine.execJtagInstruction code s
  | .jtagReset => Sys2Proof.Machine.execJtagReset s
  | .pllLock => Sys2Proof.Machine.execPllLock s
  | .refqWindowReturn q => Sys2Proof.Machine.execRefqWindowReturn q s
  | .pcieLinkDown => Sys2Proof.Machine.execPcieLinkDown s
  | .unknownCommandCode code tag => Sys2Proof.Machine.execUnknownCommandCode code tag s
  | .unknownSecureOp c => Sys2Proof.Machine.execUnknownSecureOp c s
  | .firmwareResume err => Sys2Proof.Machine.execFirmwareResume err s
  | .bunkLinkTraining eyes => Sys2Proof.Machine.execBunkLinkTraining eyes s
  | .wakeNRelease => Sys2Proof.Machine.execWakeNRelease s
  | .flrComplete func => Sys2Proof.Machine.execFlrComplete func s
  | .autoZeroTrim c tries => Sys2Proof.Machine.execAutoZeroTrim c tries s
  | .conversionBeat g e tick raw before after inc => Sys2Proof.Machine.execConversionBeat g e tick raw before after inc s
  | .chainOutput n => Sys2Proof.Machine.execChainOutput n s
  | .dacSample d e tick => Sys2Proof.Machine.execDacSample d e tick s
  | .cellClock mask pins => Sys2Proof.Machine.execCellClock mask pins s
  | .probeSample p => Sys2Proof.Machine.execProbeSample p s
  | .fcDisable n => Sys2Proof.Machine.execFcDisable n s
  | .timerDisable n => Sys2Proof.Machine.execTimerDisable n s

end Sys2Proof.Machine
end

