-- ==== Sys2Proof/Safety.lean ====
section
/-! DEFINITION. What counts as a safe run, and the invariants that claims name. -/

namespace Sys2Proof.Machine

/-- A safe run: every step from `s` on, up to `n` of them, answers a next state. -/
def SafeFor : Nat → State → Prop
  | 0, _ => True
  | n + 1, s => ∃ t, step s = .next t ∧ SafeFor n t

/-- Every waiting command is well-formed. -/
def State.queueWf (s : State) : Prop := ∀ c ∈ s.pending, c.wf = true

/-- The registers other than those listed are as before. -/
def SameBut (l : List Nat) (s t : State) : Prop := ∀ a, a ∉ l → t.word a = s.word a

/-- The registers outside `own` are as before. -/
def SameOutside (own : Nat → Bool) (s t : State) : Prop := ∀ a, own a = false → t.word a = s.word a

/-- The offsets from `lo` to below `hi`. -/
def within (lo hi : Nat) (a : Nat) : Bool := decide (lo ≤ a ∧ a < hi)

/-- The entries of a numbered array other than entry `k` are as before. -/
def Others {α : Type} (k : Nat) (before after : Nat → α) : Prop := ∀ d, d ≠ k → after d = before d

/-- The registers through which a Bureau command is passed (R466, R467): the code, the status and the arguments. -/
def transportRegs : List Nat :=
  Reg.BUR_CMD.base :: Reg.BUR_STATUS.base :: (List.range 16).map fun i => Reg.BUR_ARG.addr i 0

/-- The registers that show the references: REF_SETTLED of every group, and its REF_CHG (R126). -/
def settleRegs (p : Part) : List Nat :=
  (List.range p.numCG).flatMap fun g => [Reg.CG_STAT.addr g 0, Reg.CG_IRQ.addr g 0]

/-- A full load is past its sync word and takes the words that the host writes into BAR4. -/
def State.loading (s : State) : Bool :=
  s.mode == .load && s.stream.active && s.stream.kind == .full && s.stream.src == 0 && s.stream.synced && !s.stream.sigWait

/-- What `n` words taken one after another do to the stream, apart from what their record says: `x` before them. -/
abbrev Stream.after (x : Stream) (ws rest : List Word) (y : Stream) : Prop :=
  y.pos = x.pos + ws.length ∧ y.waiting = rest ∧ y.crc = ws.foldl crcWord x.crc

/-- No fabric port and no downstream ring holds words back for its consumers. -/
def State.nothingHeld (s : State) : Bool :=
  (s.rings.all fun e => e.2.arrived.isEmpty && e.2.late.isEmpty) && (s.cabs.all fun e => e.2.outs.all fun q => q.fifo.isEmpty)

/-- The Bureau takes a command as soon as it is submitted (R46): it runs, none is in progress, and the device is out of
Reset. -/
def State.takes (s : State) : Bool := s.bur.running && !s.on Fld.BUR_STATUS_BUSY && s.mode != .reset

/-! ## Invariants -/

/-- The word counts of a group's core balance: HELD is four words for each beat in the delay line (R137). -/
def CgCore.balanced (c : CgCore) : Bool := c.conv == c.emit + c.sdisc + c.pdisc + 4 * c.held.length

/-- Every group balances, as it stands and as the events of the present SCLK cycle found it. -/
def State.balanced (s : State) : Bool := s.groups.all fun e => e.2.core.balanced && e.2.base.all CgCore.balanced

/-- Every table of the state is in its canonical form. DESIGN CHOICE, log entry 8. -/
def State.canonical (s : State) : Bool :=
  Tab.wf (fun _ => Feed.init) s.feeds && Tab.wf (fun _ => 0) s.apPins && Tab.wf RegMap.resetAt s.regs &&
    Tab.wf (fun _ => Cell.init) s.cells && Tab.wf (fun _ => Group.init) s.groups &&
    Tab.wf (fun _ => Chain.init) s.chains && Tab.wf (fun _ => Monitor.init) s.monitors &&
    Tab.wf (fun _ => Dac.init) s.dacs && Tab.wf (fun _ => 0) s.frames && Tab.wf (fun _ => 0) s.checks &&
    Tab.wf (fun _ => FabCell.init) s.fcells && Tab.wf (fun _ => Cabinet.init) s.cabs &&
    Tab.wf (fun _ => PulseX.init) s.lines && Tab.wf (fun _ => PulseX.init) s.frqs &&
    Tab.wf (fun _ => Probe.init) s.probes && Tab.wf (fun _ => Ring.init) s.rings && Tab.wf (fun _ => 0) s.pdir &&
    Tab.wf (fun _ => 0) s.hostMem && Tab.wf (fun _ => Chan.init) s.chans

/-- The registers of DAC `d` that playing writes (R251, R252, R254, R255). -/
def dacRegs (d : Nat) : List Nat :=
  [Reg.DA_UNDW.addr d 0, Reg.DA_SKIPW.addr d 0, Reg.DA_EVCNT.addr d 0, Reg.DA_IRQ.addr d 0, Reg.DA_LASTS.addr d 0]

/-- The registers in which a downstream ring shows what it has delivered (R415, R418). -/
def deliveryRegs (s : State) : List Nat := s.rings.flatMap fun e => [Reg.DMA_TAIL.addr e.1 0, Reg.DMA_IRQ.addr e.1 0]

/-- `v`, a signed number of 16 bits, is 16 times the mean difference of the overlap, rounded to a nearest whole number and held
to the range (R152, R178). -/
abbrev LoggedMean (o : Overlap) (v : Nat) : Prop :=
  2 * (toSigned 16 v * o.n - 16 * o.a).natAbs ≤ o.n ∨ (v = 0x7FFF ∧ 0x7FFF * (o.n : Int) ≤ 16 * o.a) ∨
    (v = 0x8000 ∧ 16 * o.a ≤ -0x8000 * (o.n : Int))

/-- `v` is 16 times the standard deviation of the difference over the overlap, rounded to a nearest whole number and held to
65,535 (R152, R178). -/
abbrev LoggedDeviation (o : Overlap) (v : Nat) : Prop :=
  let x := 1024 * ((o.n : Int) * o.b - o.a * o.a).toNat
  v ≤ 65535 ∧ (2 * v - 1) ^ 2 * o.n ^ 2 ≤ x ∧ (x ≤ (2 * v + 1) ^ 2 * o.n ^ 2 ∨ v = 65535)

/-- The transitions of R37, those to Reset apart. -/
def transitions : List (Mode × Mode) :=
  [(.reset, .blank), (.blank, .load), (.run, .load), (.faultMode, .load), (.load, .verify), (.load, .blank),
    (.load, .faultMode), (.verify, .faultMode), (.verify, .wakeUp), (.wakeUp, .run), (.run, .partialRun), (.partialRun, .run),
    (.run, .doze), (.run, .nap), (.run, .slumber), (.doze, .run), (.nap, .run), (.slumber, .run), (.blank, .bench),
    (.run, .bench), (.bench, .blank), (.bench, .run), (.run, .blank), (.faultMode, .blank)]

/-- DEV_MODE shows the mode, and no result that a command in progress will write goes there. -/
def State.modeShown (s : State) : Bool :=
  s.f Fld.DEV_MODE_MODE == s.mode.code && s.bur.job.all fun j => j.results.all fun e => e.1 != Reg.DEV_MODE.base

end Sys2Proof.Machine
end

