-- ==== Sys2Proof/Certificates/Slice0/Obligations.lean ====
section
/-! DEFINITION. What is claimed of the machine: the statements for the provers. -/

open Sys2Proof Sys2Proof.Machine

/-- A step runs the front command on the state with the queue's rest; an empty queue idles, which is the model's choice (log
entry 11). -/
def Obligations.StepTakesFrontCommand : Prop :=
  (∀ (c : Instr) (s : State), step { s with pending := c :: s.pending } = exec c s) ∧
  (∀ s : State, s.pending = [] → step s = .next s)

/-- exec answers a next state exactly for the well-formed commands (log entry 12). -/
def Obligations.WellFormedCommandsComplete : Prop :=
  (∀ (s : State) (i : Instr), i.wf = true → ∃ t, exec i s = .next t) ∧
  (∀ (s : State) (i : Instr), i.wf = false → exec i s = .fault .illFormed)

/-- The state after reset (R12, R33, R34, R35, R37, R54), and that the invariants hold there. The canonical form of the
tables is the model's choice (log entry 8). -/
def Obligations.ResetState : Prop :=
  State.reset.mode = .reset ∧ State.reset.f Fld.DEV_MODE_MODE = 0 ∧ State.reset.f Fld.DEV_MODE_CAUSE = 0 ∧
  State.reset.cfgErr = false ∧ State.reset.pins.done = false ∧ State.reset.lcs.time = 0 ∧
  State.reset.f Fld.LCS_CTL_CLKSRC = 1 ∧ State.reset.f Fld.LCS_CTL_REFDIV = 40 ∧ State.reset.pending = [] ∧
  (∀ k < 24, State.reset.cbState k = 0 ∧ State.reset.on Fld.FAB_CTL_CLKEN k = false) ∧
  (∀ g < 24, State.reset.on Fld.CG_CTL_EN g = false ∧ State.reset.on Fld.DA_CTL_EN g = false) ∧
  (∀ n < 48, State.reset.on Fld.FC_CTL_EN n = false) ∧ (∀ n < 96, State.reset.on Fld.WM_CTL_EN n = false) ∧
  (∀ r < 4096, State.reset.admitted r = false) ∧ (∀ c < 1088, (State.reset.chan c).alloc = false) ∧
  State.reset.canonical = true ∧ State.reset.balanced = true ∧ State.reset.modeShown = true

/-- The nonvolatile store only ever gains (R478, R481, R482). -/
def Obligations.NonvolatileNeverLoses : Prop :=
  ∀ s t : State, step s = .next t →
    (∀ b, s.bur.nv.policy.testBit b = true → t.bur.nv.policy.testBit b = true) ∧ s.bur.nv.keyres ≤ t.bur.nv.keyres ∧
    t.bur.nv.slots.length = s.bur.nv.slots.length ∧ (∃ k : Nat, ∀ j : Nat, j ≠ k → t.bur.nv.slots[j]? = s.bur.nv.slots[j]?) ∧
    ((∀ tag args good, s.pending.head? ≠ some (.keyEnroll tag args good)) →
      (∀ err, s.pending.head? ≠ some (.firmwareResume err)) → t.bur.nv.slots = s.bur.nv.slots)

/-- Every step keeps the balance of R137. -/
def Obligations.ConverterWordsBalance : Prop :=
  ∀ s t : State, s.balanced = true → step s = .next t → t.balanced = true

/-- Every step keeps the canonical form, which is the model's choice (log entry 8): the tables stand for what R10, R341 and R397
name. -/
def Obligations.TablesStayCanonical : Prop :=
  ∀ s t : State, s.canonical = true → step s = .next t → t.canonical = true

/-- No transition but those of R37 (R38). -/
def Obligations.ModeChangesOnlyAlongTheTable : Prop :=
  ∀ s t : State, step s = .next t →
    t.mode = s.mode ∨ t.mode = .reset ∨
      ((s.mode, t.mode) ∈ transitions ∧ t.f Fld.DEV_MODE_PREV = s.mode.code ∧ t.on Fld.DEV_MODE_CHG = true)

/-- Every step keeps DEV_MODE.MODE equal to the mode (R33). -/
def Obligations.ModeRegisterShowsMode : Prop :=
  ∀ s t : State, s.modeShown = true → step s = .next t → t.modeShown = true

/-- POWER_ON, PORST_N_ASSERT and BROWN_OUT (R34, R37, R200, R257, R271, R482, R547; the model's choice of log entry 15). -/
def Obligations.ResetEntries : Prop :=
  (∀ s : State, ∃ t, exec .powerOn s = .next t ∧ t.mode = .reset ∧ t.f Fld.DEV_MODE_CAUSE = 0 ∧ t.part = s.part ∧
    t.bur.nv = s.bur.nv ∧ t.cal.store = s.cal.store ∧ t.bur.running = false ∧ t.lcs = Longcase.init ∧ t.rings = [] ∧
    t.chans = [] ∧ t.cabs = [] ∧ t.groups = [] ∧ t.frames = [] ∧ t.pending = s.pending) ∧
  (∀ s : State, ∃ t, exec .brownOut s = .next t ∧ t.mode = .reset ∧ t.f Fld.DEV_MODE_CAUSE = 0 ∧ t.part = s.part ∧
    t.bur.nv = s.bur.nv ∧ t.cal.store = s.cal.store ∧ t.bur.running = false ∧ t.lcs = Longcase.init ∧ t.rings = [] ∧
    t.chans = [] ∧ t.cabs = [] ∧ t.groups = [] ∧ t.frames = [] ∧ t.pending = s.pending) ∧
  (∀ (s : State) (n d a : Nat), Tab.wf (fun _ => Chain.init) s.chains = true → Tab.wf (fun _ => Dac.init) s.dacs = true →
    Tab.wf RegMap.resetAt s.regs = true → n < 48 → a < 128 → s.mode ≠ .reset ∨ s.host.porst = true →
    ∃ t, exec .porstNAssert s = .next t ∧ t.mode = .reset ∧ t.f Fld.DEV_MODE_CAUSE = 1 ∧ t.part = s.part ∧
      (t.chain n).store = (s.chain n).store ∧ (t.dac d).pattern = (s.dac d).pattern ∧
      t.word (Reg.FC_COEFA.addr n a) = s.word (Reg.FC_COEFA.addr n a) ∧ t.fcells = s.fcells ∧
      t.f Fld.WM_TRIM_OFS_U n = s.f Fld.WM_TRIM_OFS_U n ∧
      t.bur.nv = s.bur.nv ∧ t.cal.store = s.cal.store ∧ t.bur.running = false ∧ t.lcs = Longcase.init ∧ t.rings = [] ∧
      t.chans = [] ∧ t.cabs = [] ∧ t.groups = [] ∧ t.frames = [] ∧ t.pending = s.pending) ∧
  (∀ s : State, s.mode = .reset → s.host.porst = false → ∃ t, exec .porstNAssert s = .next t ∧ t = s)

/-- PORST_N_RELEASE, BUREAU_BOOT_COMPLETE and AUTONOMOUS_BOOT (R34, R360, R473, R474, R542). -/
def Obligations.BootAndStraps : Prop :=
  (∀ (s : State) (compat : Bool) (boot : Nat), s.mode = .reset → s.host.porst = false → boot < 4 →
    ∃ t, exec (.porstNRelease compat boot) s = .next t ∧ t.on Fld.DEV_COMPAT_PIN = compat ∧
      t.on Fld.DEV_COMPAT_HERITAGE = compat ∧ t.f Fld.CFG_STAT_BOOT = boot ∧ t.pins.boot = boot ∧ t.host.porst = true ∧
      t = { s with pins := t.pins, host := { s.host with porst := true }, regs := t.regs } ∧
      SameBut [Reg.DEV_COMPAT.base, Reg.CFG_STAT.base] s t) ∧
  (∀ (s : State) (trng store : Bool), s.mode = .reset → s.host.porst = true → s.host.ready = false →
    s.bur.nv.keyres < 2 ^ 40 →
    ∃ t, exec (.bureauBootComplete 0 trng store) s = .next t ∧ t.mode = .blank ∧ t.f Fld.DEV_MODE_PREV = 0 ∧
      t.bur.running = true ∧ t.bur.firstBlank = s.bur.firstBlank ∧ t.on Fld.BUR_BOOT_FW_OK = true ∧
      t.f Fld.BUR_BOOT_ERR = (if trng then 0 else 5) ∧ t.keyIdx = s.bur.nv.keyres ∧ t.host.ready = true ∧
      t.bur.trngFails = !trng ∧ (trng = false → t.on Fld.BUR_STAT_TRNG_FAIL = true) ∧ t.bur.nv = s.bur.nv) ∧
  (∀ (s : State) (err : Nat) (trng store : Bool), s.mode = .reset → s.host.porst = true → s.host.ready = false →
    (err = 3 ∨ err = 4) →
    ∃ t, exec (.bureauBootComplete err trng store) s = .next t ∧ t.mode = .reset ∧ t.bur.running = s.bur.running ∧
      t.f Fld.BUR_BOOT_ERR = err ∧ t.bur.nv = s.bur.nv ∧
      SameBut [Reg.BUR_BOOT.base, Reg.BUR_POLICY.base, Reg.BUR_STAT.base] s t) ∧
  (∀ s : State, s.mode = .blank → s.bur.firstBlank = true → s.pins.boot = 1 →
    ∃ t, exec .autonomousBoot s = .next t ∧ t.mode = .load ∧ t.f Fld.DEV_MODE_CAUSE = 4 ∧ t.f Fld.DEV_MODE_PREV = 1 ∧
      t.on Fld.DEV_MODE_CHG = true ∧ t.bur.firstBlank = false ∧
      t.stream = { Stream.init with active := true, src := 2, ring := 0, qspi := some ⟨0, 1, 0⟩ } ∧
      t.f Fld.CFG_STAT_SRC = 2 ∧ t.f Fld.CFG_STAT_PHASE = 1 ∧ t.f Fld.CFG_WORDS = 0 ∧ t.bur.nv = s.bur.nv) ∧
  (∀ (s : State) (compat : Bool) (boot : Nat), s.host.porst = true → boot < 4 →
    ∃ t, exec (.porstNRelease compat boot) s = .next t ∧ t = s)

/-- SMPCLK_STAMP and SMPCLK_STALL (R56, R57). That the first stamp is sample edge 0 and that a stall forgets LCS_SMPQ is the
model's choice, since R56 leaves both open (log entry 45). -/
def Obligations.SampleClockStamps : Prop :=
  (∀ (s : State) (stamp : Nat), s.lclk = true → s.f Fld.LCS_CTL_CLKSRC = 2 → s.lcs.smpEdge = none → s.lcs.smpStalled = false →
    ∃ t, exec (.smpclkStamp stamp) s = .next t ∧ t = { s with lcs := { s.lcs with smpEdge := some ⟨stamp, 0⟩ } }) ∧
  (∀ (s : State) (stamp : Nat) (e : SmpEdge), s.lclk = true → s.f Fld.LCS_CTL_CLKSRC = 2 → s.lcs.smpEdge = some e →
    s.lcs.smpStalled = false →
    ∃ t, exec (.smpclkStamp stamp) s = .next t ∧ t.smpValid = true ∧
      t = { s with lcs := { s.lcs with
        smpEdge := some ⟨stamp, e.edge + 65536⟩, smpq := some (stamp - e.stamp) } }) ∧
  (∀ s : State, s.f Fld.LCS_CTL_CLKSRC = 2 →
    ∃ t, exec .smpclkStall s = .next t ∧ t.smpValid = false ∧ t.sampleClock = false ∧
      t = { s with lcs := { s.lcs with smpEdge := none, smpq := none, smpStalled := true } }) ∧
  (∀ (s : State) (stamp : Nat), s.lclk = true → s.f Fld.LCS_CTL_CLKSRC = 2 → s.lcs.smpEdge = none → s.lcs.smpStalled = true →
    ∃ t, exec (.smpclkStamp stamp) s = .next t ∧ t.sampleClock = true ∧
      t = { s with lcs := { s.lcs with smpEdge := some ⟨stamp, 0⟩, smpStalled := false }, cells := t.cells })

/-- PR_EDGE, PR_INDEX_EDGE and EDGE_PROCESSING (R60; the row of Unlocked in R64). That an edge exactly HOLDOFF x 64 ticks after
the last kept one is kept is the model's choice (log entry 45). -/
def Obligations.EdgeIntakeAndProcessing : Prop :=
  (∀ (s : State) (n stamp tick : Nat) (kind : EdgeKind), n < 8 → s.lclk = true → s.mainInput n = true → s.qdec n = 0 →
    s.on Fld.PR_CFG_EN n = true → edgeMatches (s.f Fld.PR_CFG_EDGE n) kind = true →
    (s.trk n).keptMain.all (fun k =>
      decide ((s.f Fld.PR_ADJ_HOLDOFF n : Int) * 4096 ≤ stamp + toSigned 16 (s.f Fld.PR_ADJ_DELAY n) - k)) = true →
    ∃ t, exec (.prEdge n stamp tick kind) s = .next t ∧
      (t.trk n).queue = (s.trk n).queue ++ [⟨stamp + toSigned 16 (s.f Fld.PR_ADJ_DELAY n), tick, false⟩] ∧
      (t.trk n).state = (s.trk n).state ∧ (t.trk n).seg = (s.trk n).seg ∧
      t = (s.atTick tick).setTrk n (t.trk n)) ∧
  (∀ (s : State) (n stamp tick : Nat) (kind : EdgeKind) (k : Int), n < 8 → s.lclk = true → s.mainInput n = true →
    s.qdec n = 0 → s.on Fld.PR_CFG_EN n = true → edgeMatches (s.f Fld.PR_CFG_EDGE n) kind = true →
    (s.trk n).keptMain = some k →
    stamp + toSigned 16 (s.f Fld.PR_ADJ_DELAY n) - k < (s.f Fld.PR_ADJ_HOLDOFF n : Int) * 4096 →
    ∃ t, exec (.prEdge n stamp tick kind) s = .next t ∧ (t.trk n).queue = (s.trk n).queue ∧
      t = ((s.atTick tick).setTrk n (t.trk n)).setF Fld.PR_CNT_GLITCH (min (s.f Fld.PR_CNT_GLITCH n + 1) 255) n) ∧
  (∀ (s : State) (n stamp tick : Nat), n < 8 → s.lclk = true →
    s.lcsInput (s.f Fld.PR_SRC_IKIND n) (s.f Fld.PR_SRC_IINDEX n) = true → s.on Fld.PR_CFG_EN n = true →
    (s.trk n).keptIndex.all (fun k =>
      decide ((s.f Fld.PR_ADJ_HOLDOFF n : Int) * 4096 ≤ stamp + toSigned 16 (s.f Fld.PR_ADJ_DELAY n) - k)) = true →
    ∃ t, exec (.prIndexEdge n stamp tick .rise) s = .next t ∧
      (t.trk n).indexEdges = (s.trk n).indexEdges ++ [stamp + toSigned 16 (s.f Fld.PR_ADJ_DELAY n)] ∧
      (t.trk n).queue = (s.trk n).queue ∧ t = (s.atTick tick).setTrk n (t.trk n)) ∧
  (∀ (s : State) (n : Nat) (e : EdgeRec) (rest : List EdgeRec), n < 8 → s.lclk = true → (s.trk n).queue = e :: rest →
    (s.trk n).state = .unlocked → (s.trk n).haveFirst = true → e.rev = false →
    ∃ t, exec (.edgeProcessing n) s = .next t ∧ (t.trk n).queue = rest ∧ (t.trk n).state = .acquiring ∧
      (t.trk n).last = e.stamp ∧ (t.trk n).p = satPeriod ((e.stamp - (s.trk n).last).toNat * 256) ∧
      t.f Fld.LCS_RIRQ_BITS = s.f Fld.LCS_RIRQ_BITS ||| 2 ^ n ∧
      t.lcs = (((s.atTick (e.tick + 8)).setTrk n (t.trk n)).lcs) ∧ t = { s with lcs := t.lcs, regs := t.regs } ∧
      SameBut [Fld.LCS_RIRQ_BITS.addr 0 0] s t)

/-- COAST_ENTRY, COAST_LIMIT and PR_ENABLE (R63, R64, R68). -/
def Obligations.CoastingAndEnabling : Prop :=
  (∀ (s : State) (n tick : Nat), n < 8 → s.lclk = true → (s.trk n).state = .locked → s.edgeDue n < ((tick : Int) * 64 : Int) →
    (s.trk n).t0 ≤ (tick : Int) * 64 → (s.trk n).queue.all (fun e => decide (s.edgeDue n < e.stamp)) = true →
    s.f Fld.PR_TRK_COAST n ≠ 0 →
    ∃ t, exec (.coastEntry n tick) s = .next t ∧ (t.trk n).state = .coasting ∧
      (t.trk n).coastFrom = (s.trk n).phase ((tick : Int) * 64) ∧ (t.trk n).phi0 = (s.trk n).phase ((tick : Int) * 64) ∧
      (t.trk n).t0 = (tick : Int) * 64 ∧ (t.trk n).rate = freeRate (s.trkCfg n) (s.trk n).p ∧
      t.f Fld.LCS_RIRQ_BITS = s.f Fld.LCS_RIRQ_BITS ||| 2 ^ n ∧
      t.lcs = ((s.atTick tick).setTrk n (t.trk n)).lcs ∧ t = { s with lcs := t.lcs, regs := t.regs } ∧
      SameBut [Fld.LCS_RIRQ_BITS.addr 0 0] s t) ∧
  (∀ (s : State) (n tick : Nat), n < 8 → s.lclk = true → (s.trk n).state = .coasting → (s.trk n).t0 ≤ (tick : Int) * 64 →
    (s.trk n).coastFrom + (s.f Fld.PR_TRK_COAST n) ≤ (s.trk n).phase ((tick : Int) * 64) →
    ∃ t, exec (.coastLimit n tick) s = .next t ∧ (t.trk n).state = .lost ∧ (t.trk n).rate = 0 ∧
      (t.trk n).phi0 = (s.trk n).phase ((tick : Int) * 64) ∧ t.f Fld.LCS_RIRQ_BITS = s.f Fld.LCS_RIRQ_BITS ||| 2 ^ n ∧
      t.lcs = ((s.atTick tick).setTrk n (t.trk n)).lcs ∧ t = { s with lcs := t.lcs, regs := t.regs, chains := t.chains } ∧
      SameOutside (fun a => a == Fld.LCS_RIRQ_BITS.addr 0 0 || within 0x200000 0x230000 a) s t) ∧
  (∀ (s : State) (n : Nat), n < 8 → s.lclk = true → s.on Fld.PR_CFG_EN n = false → n % 2 = 0 ∨ s.qdec n = 0 →
    ∃ t, exec (.prEnable n true) s = .next t ∧ t.on Fld.PR_CFG_EN n = true ∧ t.trk n = s.trk n ∧
      t.f Fld.PR_CFG_EPT_M1 n = s.f Fld.PR_CFG_EPT_M1 n ∧ t = { s with lcs := t.lcs, regs := t.regs } ∧
      SameBut [Reg.TWN_HSEQ.base, Reg.PR_CFG.addr n 0] s t) ∧
  (∀ (s : State) (n : Nat), n < 8 → s.lclk = true → s.on Fld.PR_CFG_EN n = true → n % 2 = 0 ∨ s.qdec n = 0 →
    ∃ t, exec (.prEnable n false) s = .next t ∧ t.on Fld.PR_CFG_EN n = false ∧ (t.trk n).state = .unlocked ∧
      (t.trk n).haveFirst = false ∧ (t.trk n).queue = [] ∧ (t.trk n).rate = 0 ∧
      (t.trk n).phi0 = (s.trk n).phase ((s.lcs.time : Int) * 64) ∧
      t = { s with lcs := t.lcs, regs := t.regs, chains := t.chains } ∧
      SameOutside (fun a => a == Reg.PR_CFG.addr n 0 || a == Fld.LCS_RIRQ_BITS.addr 0 0 || within 0x200000 0x230000 a ||
        a == Reg.TWN_HSEQ.base) s t)

/-- PR_SNAP and LCS_TIME_SNAP (R13, R85). -/
def Obligations.SnapshotsLatch : Prop :=
  (∀ (s : State) (n tick : Nat), n < 8 → s.lclk = true →
    ∃ t, exec (.prSnap n tick) s = .next t ∧
      t.f Fld.PR_TURN n = turnOf ((s.trk n).phase ((max s.lcs.time tick : Nat) * 64 : Int)) ∧
      t.f Fld.PR_FRAC n = fracOf ((s.trk n).phase ((max s.lcs.time tick : Nat) * 64 : Int)) % 2 ^ 32 ∧
      t.f Fld.PR_PERIOD_LO n = (s.trk n).period % 2 ^ 32 ∧ t.f Fld.PR_PERIOD_HI n = (s.trk n).period / 2 ^ 32 % 2 ^ 16 ∧
      t.f Fld.PR_LAST_LO n = ofSigned 64 (s.trk n).last % 2 ^ 32 ∧
      t.f Fld.PR_LAST_HI n = ofSigned 64 (s.trk n).last / 2 ^ 32 % 2 ^ 32 ∧
      t.f Fld.PR_ERR n = ofSigned 32 (s.trk n).err % 2 ^ 32 ∧
      t = { (s.atTick tick) with regs := t.regs } ∧
      SameBut [Reg.TWN_HSEQ.base, Reg.PR_PERIOD_LO.addr n 0, Reg.PR_PERIOD_HI.addr n 0, Reg.PR_FRAC.addr n 0, Reg.PR_TURN.addr n 0,
        Reg.PR_ERR.addr n 0, Reg.PR_LAST_LO.addr n 0, Reg.PR_LAST_HI.addr n 0] s t) ∧
  (∀ (s : State) (tick : Nat), s.lclk = true →
    ∃ t, exec (.lcsTimeSnap tick) s = .next t ∧
      t.f Fld.LCS_TIME_LO = max s.lcs.time tick % 2 ^ 32 ∧ t.f Fld.LCS_TIME_HI = max s.lcs.time tick / 2 ^ 32 % 2 ^ 32 ∧
      t.f Fld.LCS_SMPQ_LO = s.smpq % 2 ^ 32 ∧ t.f Fld.LCS_SMPQ_HI = s.smpq / 2 ^ 32 % 2 ^ 16 ∧
      t.f Fld.LCS_NEXT_LO = (match s.lcs.next with | some e => e.1 | none => 2 ^ 64 - 1) % 2 ^ 32 ∧
      t.f Fld.LCS_NEXT_HI = (match s.lcs.next with | some e => e.1 | none => 2 ^ 64 - 1) / 2 ^ 32 % 2 ^ 32 ∧
      t = { (s.atTick tick) with regs := t.regs } ∧
      SameBut [Reg.TWN_HSEQ.base, Reg.LCS_TIME_LO.base, Reg.LCS_TIME_HI.base, Reg.LCS_SMPQ_LO.base, Reg.LCS_SMPQ_HI.base,
        Reg.LCS_NEXT_LO.base, Reg.LCS_NEXT_HI.base] s t)

/-- PA_ENABLE and ALARM_FIRING (R69 to R73, R75). -/
def Obligations.AlarmsFireOrSkip : Prop :=
  (∀ (s : State) (n tick : Nat), n < 256 → s.lclk = true → s.on Fld.PA_CTL_EN n = false →
    ∃ t, exec (.paEnable n tick true) s = .next t ∧ t.on Fld.PA_CTL_EN n = true ∧
      t.lcs = ((s.atTick tick).setAlarm n { s.alarm n with
        skip := min (s.f Fld.PA_FILTER_SKIP n) (s.f Fld.PA_FILTER_EVERY_M1 n), enTick := max s.lcs.time tick }).lcs ∧
      t = { s with lcs := t.lcs, regs := t.regs } ∧ SameBut [Reg.TWN_HSEQ.base, Reg.PA_CTL.addr n 0] s t) ∧
  (∀ (s : State) (n tick : Nat) (w : Word), n < 256 → s.lclk = true → s.on Fld.PA_CTL_EN n = true →
    (s.alarm n).shTarget = some w →
    ∃ t, exec (.paEnable n tick false) s = .next t ∧ t.on Fld.PA_CTL_EN n = false ∧ t.on Fld.PA_CTL_PEND n = false ∧
      t.word (Reg.PA_TARGET.addr n 0) = w ∧ (t.alarm n).shTarget = none ∧ t = { s with lcs := t.lcs, regs := t.regs }) ∧
  (∀ (s : State) (n tick : Nat) (inst : Rat), n < 256 → s.lclk = true → s.on Fld.PA_CTL_EN n = true →
    (s.trk (s.f Fld.PA_CTL_REF n)).state.tracking = true → (s.trk (s.f Fld.PA_CTL_REF n)).t0 ≤ (tick : Int) * 64 →
    (s.alarm n).enTick < tick → (s.alarm n).lastTick.all (fun l => decide (l < tick)) = true → (s.alarm n).skip = 0 →
    passes (s.target n) ((s.trk (s.f Fld.PA_CTL_REF n)).phase ((tick : Int) * 64))
      ((s.trk (s.f Fld.PA_CTL_REF n)).phase ((tick : Int) * 64 + 64)) = some inst →
    ∃ t, exec (.alarmFiring n tick) s = .next t ∧
      t.lcs.firings = insertFiring
        { tick := tick, timer := false, num := n, act := s.f Fld.PA_CTL_ACT n % 2048,
          rem := ((inst - (s.trk (s.f Fld.PA_CTL_REF n)).phase ((tick : Int) * 64)) /
            (s.trk (s.f Fld.PA_CTL_REF n)).rate / 64 * 65536).floor.toNat,
          coast := (s.trk (s.f Fld.PA_CTL_REF n)).state == .coasting, turn := some (turnOf inst), dest := 0 } s.lcs.firings ∧
      t.f Fld.PA_CNT n = (s.f Fld.PA_CNT n + 1) % 2 ^ 32 ∧ t.f Fld.PA_LASTT n = tick % 2 ^ 32 ∧
      t.f Fld.PA_LASTR_REM n = ((inst - (s.trk (s.f Fld.PA_CTL_REF n)).phase ((tick : Int) * 64)) /
        (s.trk (s.f Fld.PA_CTL_REF n)).rate / 64 * 65536).floor.toNat % 65536 ∧
      t.on Fld.PA_LASTR_COAST n = ((s.trk (s.f Fld.PA_CTL_REF n)).state == .coasting) ∧
      (t.alarm n).skip = s.f Fld.PA_FILTER_EVERY_M1 n ∧ t.lcs.time = max s.lcs.time tick ∧
      t = { s with lcs := t.lcs, regs := t.regs } ∧
      SameBut [Reg.PA_CNT.addr n 0, Reg.PA_LASTT.addr n 0, Reg.PA_LASTR.addr n 0, Reg.PA_TARGET.addr n 0,
        Reg.PA_FILTER.addr n 0, Reg.PA_CTL.addr n 0] s t) ∧
  (∀ (s : State) (n tick : Nat) (inst : Rat), n < 256 → s.lclk = true → s.on Fld.PA_CTL_EN n = true →
    (s.trk (s.f Fld.PA_CTL_REF n)).state.tracking = true → (s.trk (s.f Fld.PA_CTL_REF n)).t0 ≤ (tick : Int) * 64 →
    (s.alarm n).enTick < tick → (s.alarm n).lastTick.all (fun l => decide (l < tick)) = true → (s.alarm n).skip ≠ 0 →
    passes (s.target n) ((s.trk (s.f Fld.PA_CTL_REF n)).phase ((tick : Int) * 64))
      ((s.trk (s.f Fld.PA_CTL_REF n)).phase ((tick : Int) * 64 + 64)) = some inst →
    ∃ t, exec (.alarmFiring n tick) s = .next t ∧ (t.alarm n).skip = (s.alarm n).skip - 1 ∧ t.lcs.firings = s.lcs.firings ∧
      t = { s with lcs := t.lcs })

/-- TIMER_START, TIMER_EXPIRY and TIMER_DISABLE (R75, R78, R79). That a timer's record carries the COAST of the firing that
armed it, and 0 after a write, is the model's choice (log entry 45). -/
def Obligations.TimersRunAndExpire : Prop :=
  (∀ (s : State) (n tick : Nat), n < 32 → s.lclk = true → s.on Fld.TT_CTL_EN n = true →
    ((s.timer n).running = true → max s.lcs.time tick < (s.timer n).next) →
    ∃ t, exec (.timerStart n tick) s = .next t ∧
      t.lcs = ((s.atTick tick).setTimer n
        { running := true, next := max s.lcs.time tick + t.timerSpan n, rem := 0, coast := false }).lcs ∧
      t.on Fld.TT_CTL_EN n = true ∧ t.on Fld.TT_CTL_START n = false ∧ t = { s with lcs := t.lcs, regs := t.regs } ∧
      SameBut [Reg.TWN_HSEQ.base, Reg.TT_CTL.addr n 0] s t) ∧
  (∀ (s : State) (n tick : Nat), n < 32 → s.lclk = true → s.on Fld.TT_CTL_EN n = true → (s.timer n).running = true →
    (s.timer n).next = max s.lcs.time tick →
    ∃ t, exec (.timerStart n tick) s = .next t ∧
      t.timer n = { running := true, next := max s.lcs.time tick + t.timerSpan n, rem := 0, coast := false } ∧
      t.lcs.firings = insertFiring
        { tick := (s.timer n).next, timer := true, num := n, act := s.f Fld.TT_CTL_ACT n,
          rem := (s.timer n).rem, coast := (s.timer n).coast, turn := none, dest := 0 } s.lcs.firings ∧
      t.f Fld.TT_CNT n = (s.f Fld.TT_CNT n + 1) % 2 ^ 32) ∧
  (∀ (s : State) (n : Nat), n < 32 → s.lclk = true → (s.timer n).running = true → s.on Fld.TT_CTL_PERIODIC n = true →
    ∃ t, exec (.timerExpiry n) s = .next t ∧
      t.lcs.firings = insertFiring
        { tick := (s.timer n).next, timer := true, num := n, act := s.f Fld.TT_CTL_ACT n,
          rem := (s.timer n).rem, coast := (s.timer n).coast, turn := none, dest := 0 } s.lcs.firings ∧
      t.timer n = { s.timer n with next := (s.timer n).next + s.timerSpan n } ∧
      t.f Fld.TT_CNT n = (s.f Fld.TT_CNT n + 1) % 2 ^ 32 ∧ t.lcs.time = max s.lcs.time (s.timer n).next ∧
      t = { s with lcs := t.lcs, regs := t.regs } ∧ SameBut [Reg.TT_CNT.addr n 0] s t) ∧
  (∀ (s : State) (n : Nat), n < 32 → s.lclk = true → (s.timer n).running = true → s.on Fld.TT_CTL_PERIODIC n = false →
    ∃ t, exec (.timerExpiry n) s = .next t ∧ (t.timer n).running = false ∧
      t.f Fld.TT_CNT n = (s.f Fld.TT_CNT n + 1) % 2 ^ 32 ∧ t = { s with lcs := t.lcs, regs := t.regs } ∧
      SameBut [Reg.TT_CNT.addr n 0] s t) ∧
  (∀ (s : State) (n : Nat), n < 32 → s.lclk = true →
    ∃ t, exec (.timerDisable n) s = .next t ∧ t.on Fld.TT_CTL_EN n = false ∧ t.lcs = (s.setTimer n Timer.init).lcs ∧
      t = { s with lcs := t.lcs, regs := t.regs } ∧ SameBut [Reg.TWN_HSEQ.base, Reg.TT_CTL.addr n 0] s t)

/-- CAPTURE_EDGE and CAP_POP (R80). -/
def Obligations.CapturesStampAndPop : Prop :=
  (∀ (s : State) (k stamp : Nat) (kind : EdgeKind), k < 16 → s.lclk = true → s.on Fld.CAP_CTL_EN k = true →
    s.lcsInput (s.f Fld.CAP_CTL_KIND k) (s.f Fld.CAP_CTL_INDEX k) = true →
    edgeMatches (s.f Fld.CAP_CTL_EDGE k) kind = true → (s.capture k).length < 16 →
    ∃ t, exec (.captureEdge k stamp kind) s = .next t ∧
      t.capture k = s.capture k ++ [
        { ts := stamp, turn := turnOf ((s.trk (s.f Fld.CAP_CTL_REF k)).segAt stamp).2,
          frac := fracOf ((s.trk (s.f Fld.CAP_CTL_REF k)).segAt stamp).2,
          epoch := ((s.trk (s.f Fld.CAP_CTL_REF k)).segAt stamp).1.epoch,
          state := ((s.trk (s.f Fld.CAP_CTL_REF k)).segAt stamp).1.state.code }] ∧
      t.f Fld.LCS_RIRQ_BITS = s.f Fld.LCS_RIRQ_BITS ||| 2 ^ (8 + k) ∧
      t.lcs = ((s.atTick (stamp / 64)).setCapture k (t.capture k)).lcs ∧ t = { s with lcs := t.lcs, regs := t.regs } ∧
      SameBut [Fld.LCS_RIRQ_BITS.addr 0 0] s t) ∧
  (∀ (s : State) (k stamp : Nat) (kind : EdgeKind), k < 16 → s.lclk = true → s.on Fld.CAP_CTL_EN k = true →
    s.lcsInput (s.f Fld.CAP_CTL_KIND k) (s.f Fld.CAP_CTL_INDEX k) = true →
    edgeMatches (s.f Fld.CAP_CTL_EDGE k) kind = true → 16 ≤ (s.capture k).length →
    ∃ t, exec (.captureEdge k stamp kind) s = .next t ∧ t = s.setF Fld.CAP_STAT_OVF 1 k) ∧
  (∀ (s : State) (k : Nat) (e : CapEntry) (rest : List CapEntry), k < 16 → s.lclk = true → s.capture k = e :: rest →
    ∃ t, exec (.capPop k) s = .next t ∧ t = (s.setCapture k rest).counted)

/-- PLL_LOCK, PLL_LOCK_LOSS and PLL_RELOCK (R55, R57, R58). -/
def Obligations.PllLockAndLoss : Prop :=
  (∀ s : State, s.lcs.pll = .waiting → s.mode ≠ .reset →
    ∃ t, exec .pllLock s = .next t ∧ t.lcs.pll = .locked ∧ t.lcs.time = 0 ∧ t.lclk = true) ∧
  (∀ s : State, s.lcs.pll = .locked →
    ∃ t, exec .pllLockLoss s = .next t ∧ t.lclk = false ∧ t = { s with lcs := { s.lcs with pll := .lost } }) ∧
  (∀ s : State, s.lcs.pll = .lost →
    ∃ t, exec .pllRelock s = .next t ∧ t.lcs.pll = .locked ∧ t.lcs.time = (s.lcs.time + 4) / 5 * 5 ∧ t.lcs.smpEdge = none ∧
      t.lcs.smpq = none ∧ t.f Fld.LCS_STAT_PLL_SLIPS = min (s.f Fld.LCS_STAT_PLL_SLIPS + 1) 255)

/-- FIRING_RECORD, EVENT, DOORBELL, WAKE and IRQ (R28, R75 to R77). -/
def Obligations.FiringsAreBroadcastAndPerformed : Prop :=
  (∀ (s : State) (r : FiringRec) (rest : List FiringRec) (g : Nat), s.lclk = true → s.lcs.firings = r :: rest →
    g < s.part.numCG →
    s.cgObeys g r ≠ 0 → min (s.group g).queued (s.group g).inbox.length < 16 →
    ∃ t, exec .firingRecord s = .next t ∧ t.lcs.firings = rest ∧
      t.group g = { s.group g with inbox := (s.group g).inbox ++ [{ r with act := s.cgObeys g r }],
                                   queued := min (s.group g).queued (s.group g).inbox.length + 1 } ∧
      (r.act / 128 % 16 ≠ 0 → t.lcs.actions = s.lcs.actions ++ [{ r with act := r.act &&& 0x780, dest := s.destOf r }])) ∧
  (∀ (s : State) (r : FiringRec) (k : Nat), s.lclk = true → s.nextAction 7 = some r →
    (r.tick, r.dest.bits 0 6) ∉ s.lcs.pulsed → k < s.part.numCB →
    ∃ t, exec .event s = .next t ∧
      t.lineX k (r.dest.bits 0 6) =
        ((s.lineX k (r.dest.bits 0 6)).push (s.gclkFlops (s.f Fld.DIO_BND_CTL_EVCLK k))).1 ∧
      (r.tick, r.dest.bits 0 6) ∈ t.lcs.pulsed ∧
      t = { s with lcs := t.lcs, lines := t.lines, regs := t.regs } ∧ SameBut [Fld.DEV_XSTAT_XOVF.addr 0 0] s t) ∧
  (∀ (s : State) (r : FiringRec), s.lclk = true → s.nextAction 7 = some r → (r.tick, r.dest.bits 0 6) ∈ s.lcs.pulsed →
    ∃ t, exec .event s = .next t ∧ t = { s with lcs := { s.lcs with actions := dropAction 7 r s.lcs.actions } }) ∧
  (∀ (s : State) (r : FiringRec), s.lclk = true → s.nextAction 8 = some r → (s.chan (r.dest.bits 16 10)).alloc = true →
    ∃ t, exec .doorbell s = .next t ∧
      (t.chan (r.dest.bits 16 10)).db =
        (s.chan (r.dest.bits 16 10)).db ||| BitVec.ofNat 32 (2 ^ r.dest.bits 8 5) ∧
      t = { s.setDoorbell (r.dest.bits 16 10) (BitVec.ofNat 32 (2 ^ r.dest.bits 8 5)) with
        lcs := { s.lcs with actions := dropAction 8 r s.lcs.actions } }) ∧
  (∀ (s : State) (r : FiringRec), s.lclk = true → s.standby = false → s.nextAction 9 = some r → s.mode.low = true →
    s.pwr.stage = .asleep →
    ∃ t, exec .wakeFiring s = .next t ∧ t.pwr.stage = .leaving ∧ t.f Fld.PWR_STAT_WHY = 1 ∧
      t.lcs = { s.lcs with actions := dropAction 9 r s.lcs.actions } ∧ t.pwr.leftAt = some s.lcs.time ∧
      t = { s with lcs := t.lcs, pwr := t.pwr, regs := t.regs } ∧
      SameBut (Fld.PWR_STAT_WHY.addr 0 0 :: (if s.mode = .doze then [] else settleRegs s.part)) s t) ∧
  (∀ (s : State) (r : FiringRec), s.lclk = true → s.nextAction 10 = some r →
    ∃ t, exec .irq s = .next t ∧
      t = { (if r.timer then s.setF Fld.LCS_TIRQ_BITS (s.f Fld.LCS_TIRQ_BITS ||| 2 ^ (r.num % 32))
          else s.setF Fld.LCS_AIRQ_BITS (s.f Fld.LCS_AIRQ_BITS (r.num / 32) ||| 2 ^ (r.num % 32)) (r.num / 32) : State) with
        lcs := { s.lcs with actions := dropAction 10 r s.lcs.actions } }) ∧
  (∀ s : State, s.lclk = false → ∃ t, exec .firingRecord s = .next t ∧ t = s) ∧
  (∀ s : State, s.lclk = false → ∃ t, exec .event s = .next t ∧ t = s) ∧
  (∀ s : State, s.lclk = false → ∃ t, exec .doorbell s = .next t ∧ t = s) ∧
  (∀ s : State, s.lclk = false → ∃ t, exec .wakeFiring s = .next t ∧ t = s) ∧
  (∀ s : State, s.lclk = false → ∃ t, exec .irq s = .next t ∧ t = s)

/-- MATRIX_WRITE (R91, R100, R108, R109, R113, R119). -/
def Obligations.MatrixWritesStoreOrRefuse : Prop :=
  (∀ (s : State) (a c : Nat) (w : Word), s.underCheck a = false → matrixReg a = some (.lt c) → c < s.part.numAC →
    s.mode.checksMatrix = false ∨ refusedNet s (s.setWord a (ltStored w)) a = none →
    ∃ t, exec (.matrixWrite a w) s = .next t ∧ t = (s.setWord a (ltStored w)).counted) ∧
  (∀ (s : State) (a g : Nat) (w : Word), s.underCheck a = false → matrixReg a = some (.cgIn g) → g < s.part.numCG →
    s.mode.checksMatrix = false ∨ refusedNet s (s.applyMatrix a (.cgIn g) w) a = none →
    ∃ t, exec (.matrixWrite a w) s = .next t ∧ t = (s.setWord a (cgInStored w)).counted) ∧
  (∀ (s : State) (a d : Nat) (w : Word), s.underCheck a = false → matrixReg a = some (.daOut d) → d < s.part.numDA →
    s.mode.checksMatrix = false ∨ refusedNet s (s.applyMatrix a (.daOut d) w) a = none →
    ∃ t, exec (.matrixWrite a w) s = .next t ∧ t = (s.setWord a (daOutStored w)).counted) ∧
  (∀ (s : State) (a n : Nat) (w : Word), s.underCheck a = false → matrixReg a = some (.apCtl n) → n < s.part.numAP →
    s.mode.checksMatrix = false ∨ refusedNet s (s.applyMatrix a (.apCtl n) w) a = none → s.on Fld.WM_CTL_EN n = false →
    w.bit 3 = true → w.bit 4 = false → 4 ≤ w.bits 0 3 →
    ∃ t, exec (.matrixWrite a w) s = .next t ∧ t.f Fld.AP_CTL_TERM n = 0 ∧ t.f Fld.AP_CTL_RANGE n = 4 ∧
      t.on Fld.AP_STAT_TERM_ADJ n = true ∧ t = { s with regs := t.regs } ∧
      SameBut [Reg.TWN_HSEQ.base, a, Fld.AP_STAT_TERM_ADJ.addr n 0] s t) ∧
  (∀ (s : State) (a c : Nat) (w : Word), s.underCheck a = false → matrixReg a = some (.acCtl c) → c < s.part.numAC →
    s.mode.checksMatrix = false ∨ refusedNet s (s.applyMatrix a (.acCtl c) w) a = none → w.bits 0 4 = 5 → w.bit 10 = true →
    ∃ t, exec (.matrixWrite a w) s = .next t ∧ (t.cell c).integ = 0 ∧ t.f Fld.AC_CTL_FUNC c = 5 ∧
      (t.cell c).peakMax = (s.cell c).peakMax ∧ (t.cell c).peakMin = (s.cell c).peakMin ∧ Others c s.cell t.cell ∧
      t = { s with cells := t.cells, regs := t.regs } ∧ SameBut [Reg.TWN_HSEQ.base, a] s t) ∧
  (∀ (s : State) (a : Nat) (r : MatrixReg) (w : Word), s.underCheck a = false → matrixReg a = some r →
    hasMatrix s.part r = true → s.mode.checksMatrix = true → refusedNet s (s.applyMatrix a r w) a ≠ none →
    ∃ t, exec (.matrixWrite a w) s = .next t ∧ t.word a = s.word a ∧ t.on Fld.AC_CENSUS_WR_REFUSED = true ∧
      t = { s with regs := t.regs } ∧
      SameBut [Reg.TWN_HSEQ.base, Reg.AC_CENSUS.base, Reg.AC_CENSUS_TRK.base, Reg.AC_CENSUS_DRV.base] s t) ∧
  (∀ (s : State) (a n : Nat) (w : Word), s.underCheck a = false → matrixReg a = some (.apCtl n) → n < s.part.numAP →
    s.mode.checksMatrix = false ∨ refusedNet s (s.applyMatrix a (.apCtl n) w) a = none → s.on Fld.WM_CTL_EN n = false →
    ∃ t, exec (.matrixWrite a w) s = .next t ∧ t.word a = (apCtlStored w).1 ∧
      t.on Fld.AP_STAT_TERM_ADJ n = (s.on Fld.AP_STAT_TERM_ADJ n || (apCtlStored w).2) ∧
      t = { s with regs := t.regs } ∧ SameBut [Reg.TWN_HSEQ.base, a, Fld.AP_STAT_TERM_ADJ.addr n 0] s t)

/-- AZ_BOUNDARY, AZ_SWAP, AUTO_ZERO_TRIM and RST (R100 to R103, R267). That the seconds since the row before come with RST, and
where in a cell TRIMA and TRIMB act, is the model's choice (log entry 18). -/
def Obligations.AutoZeroCycle : Prop :=
  (∀ (s : State) (c : Nat), c < s.part.numAC → (s.cell c).az = .trimmed → s.azClock c = true →
    ∃ t, exec (.azBoundary c) s = .next t ∧ t = s.setCell c { s.cell c with az := .parallel }) ∧
  (∀ (s : State) (c : Nat), c < s.part.numAC → (s.cell c).az = .trimming → s.azClock c = true →
    ∃ t, exec (.azBoundary c) s = .next t ∧ t = s.setCell c { s.cell c with azLate := true }) ∧
  (∀ (s : State) (c : Nat), c < s.part.numAC → (s.cell c).az = .parallel → s.f Fld.AC_CTL_FUNC c = 7 → s.azRuns c = true →
    ∃ t, exec (.azSwap c) s = .next t ∧ (t.cell c).servingB = !(s.cell c).servingB ∧ (t.cell c).az = .trimming ∧
      t.f Fld.AC_AZCNT_SWAPS c = (s.f Fld.AC_AZCNT_SWAPS c + 1) % 65536 ∧
      Others c s.cell t.cell ∧ t = { s with cells := t.cells, regs := t.regs } ∧ SameBut [Reg.AC_AZCNT.addr c 0] s t) ∧
  (∀ (s : State) (c : Nat) (tries : List (Int × Int)) (v : Int), c < s.part.numAC → (s.cell c).az = .trimming →
    s.azClock c = true →
    calStep 1 tries = some v →
    ∃ t, exec (.autoZeroTrim c tries) s = .next t ∧
      t.f Fld.AC_TRIM_OFS c (if (s.cell c).servingB then 0 else 1) = ofSigned 10 v % 1024 ∧
      (t.cell c).az = (if (s.cell c).azLate then .parallel else .trimmed) ∧
      t.cal.marks.contains (Fld.AC_TRIM_OFS.addr c (if (s.cell c).servingB then 0 else 1), Fld.AC_TRIM_OFS.lo) = false ∧
      Others c s.cell t.cell ∧ t = { s with cells := t.cells, regs := t.regs, cal := t.cal } ∧
      SameBut [Reg.AC_TRIM.addr c (if (s.cell c).servingB then 0 else 1), Reg.CAL_STAT.base] s t) ∧
  (∀ (s : State) (c : Nat) (tries : List (Int × Int)), c < s.part.numAC → (s.cell c).az = .trimming → s.azClock c = true →
    calStep 1 tries = none → 4 ≤ tries.length →
    ∃ t, exec (.autoZeroTrim c tries) s = .next t ∧ (t.cell c).az = .skipping ∧ t.on Fld.AC_STAT_AZ_DIS c = true ∧
      t.f Fld.AC_AZCNT_DISAGREE c = min (s.f Fld.AC_AZCNT_DISAGREE c + 1) 65535 ∧
      t.f Fld.AC_TRIM_OFS c 0 = s.f Fld.AC_TRIM_OFS c 0 ∧ t.f Fld.AC_TRIM_OFS c 1 = s.f Fld.AC_TRIM_OFS c 1) ∧
  (∀ (s : State) (c : Nat) (dt : Rat), c < s.part.numAC → s.f Fld.AC_CTL_FUNC c = 5 →
    ∃ t, exec (.rst c dt) s = .next t ∧ (t.cell c).integ = 0 ∧ (t.cell c).out = 0 ∧
      t = ((s.cellTo c dt).setCell c (t.cell c)).counted ∧
      SameBut [Reg.TWN_HSEQ.base, Fld.AC_STAT_SAT.addr c 0] s t) ∧
  (∀ (s : State) (c : Nat) (dt : Rat), c < s.part.numAC → s.f Fld.AC_CTL_FUNC c = 6 →
    ∃ t, exec (.rst c dt) s = .next t ∧ (t.cell c).peakMax = (s.cellTo c dt).cellIn c 0 ∧
      (t.cell c).peakMin = (s.cellTo c dt).cellIn c 1 ∧ (t.cell c).out.abs ≤ 11 / 10 ∧
      t = ((s.cellTo c dt).setCell c (t.cell c)).counted ∧ SameBut [Reg.TWN_HSEQ.base, Fld.AC_STAT_SAT.addr c 0] s t)

/-- PORT_OVERLOAD and CELL_SATURATION (R95, R96). -/
def Obligations.OverloadAndSaturation : Prop :=
  (∀ (s : State) (n : Nat) (v : Rat), n < s.part.numAP → s.portActive n = true → s.on Fld.AP_CTL_DIR n = false →
    11 * 2 ^ s.f Fld.AP_CTL_RANGE n / 40 < v.abs →
    ∃ t, exec (.portOverload n v) s = .next t ∧ Tab.get (fun _ => 0) t.apPins n = v ∧ t.on Fld.AP_STAT_OVLD n = true ∧
      t = { s with apPins := t.apPins, regs := t.regs } ∧ SameBut [Fld.AP_STAT_OVLD.addr n 0] s t) ∧
  (∀ (s : State) (n : Nat) (v : Rat), n < s.part.numAP → v.abs ≤ 11 * 2 ^ s.f Fld.AP_CTL_RANGE n / 40 →
    ∃ t, exec (.portOverload n v) s = .next t ∧ Tab.get (fun _ => 0) t.apPins n = v ∧ t = { s with apPins := t.apPins }) ∧
  (∀ (s : State) (c : Nat) (dt : Rat), c < s.part.numAC → s.mode ≠ .slumber → s.f Fld.AC_CTL_FUNC c ≠ 0 →
    ∃ t, exec (.cellSaturation c dt) s = .next t ∧ (t.cell c).out.abs ≤ 11 / 10 ∧ Others c s.cell t.cell ∧
      t = { s with cells := t.cells, regs := t.regs } ∧ SameBut [Fld.AC_STAT_SAT.addr c 0] s t ∧
      (s.on Fld.AC_STAT_SAT c = true → t.on Fld.AC_STAT_SAT c = true)) ∧
  (∀ (s : State) (c : Nat) (dt : Rat), c < s.part.numAC → s.mode ≠ .slumber → s.f Fld.AC_CTL_FUNC c = 1 →
    11 / 10 < (s.cellIn c 0).abs →
    ∃ t, exec (.cellSaturation c dt) s = .next t ∧ t.on Fld.AC_STAT_SAT c = true)

/-- CG_ENABLE, CG_DISABLE, CG_CNT_SNAP and ELOG_POP (R13, R131, R137, R138). -/
def Obligations.GroupEnableDisableAndCounts : Prop :=
  (∀ (s : State) (g : Nat), g < s.part.numCG → s.sclk g = true → s.on Fld.CG_CTL_EN g = false →
    ∃ t, exec (.cgEnable g) s = .next t ∧ t.on Fld.CG_CTL_EN g = true ∧ (t.group g).core.conv = 0 ∧
      (t.group g).core.emit = 0 ∧ (t.group g).core.sdisc = 0 ∧ (t.group g).core.pdisc = 0 ∧ (t.group g).core.held = [] ∧
      (t.group g).elog = [] ∧ Others g s.group t.group ∧ t = { s with groups := t.groups, regs := t.regs } ∧
      SameBut [Reg.TWN_HSEQ.base, Reg.CG_CTL.addr g 0] s t) ∧
  (∀ (s : State) (g : Nat), g < s.part.numCG → s.sclk g = true → s.on Fld.CG_CTL_EN g = true → (s.group g).base = none →
    ∃ t, exec (.cgDisable g) s = .next t ∧ t.on Fld.CG_CTL_EN g = false ∧ (t.group g).core.seq.st = .idle ∧
      (t.group g).core.held = [] ∧ (t.group g).core.conv = (s.group g).core.conv ∧
      (t.group g).core.pdisc = (s.group g).core.pdisc + 4 * (s.group g).core.held.length) ∧
  (∀ (s : State) (g : Nat), g < s.part.numCG → s.sclk g = true →
    ∃ t, exec (.cgCntSnap g) s = .next t ∧ 
      t.f Fld.CG_CONV_LO g = ((s.group g).base.getD (s.group g).core).conv % 2 ^ 32 ∧
      t.f Fld.CG_CONV_HI g = ((s.group g).base.getD (s.group g).core).conv / 2 ^ 32 % 2 ^ 32 ∧
      t.f Fld.CG_EMIT_LO g = ((s.group g).base.getD (s.group g).core).emit % 2 ^ 32 ∧
      t.f Fld.CG_EMIT_HI g = ((s.group g).base.getD (s.group g).core).emit / 2 ^ 32 % 2 ^ 32 ∧ 
      t.f Fld.CG_SDISC_LO g = ((s.group g).base.getD (s.group g).core).sdisc % 2 ^ 32 ∧
      t.f Fld.CG_SDISC_HI g = ((s.group g).base.getD (s.group g).core).sdisc / 2 ^ 32 % 2 ^ 32 ∧
      t.f Fld.CG_PDISC_LO g = ((s.group g).base.getD (s.group g).core).pdisc % 2 ^ 32 ∧
      t.f Fld.CG_PDISC_HI g = ((s.group g).base.getD (s.group g).core).pdisc / 2 ^ 32 % 2 ^ 32 ∧ t = { s with regs := t.regs } ∧
      SameBut [Reg.TWN_HSEQ.base, Reg.CG_CONV_LO.addr g 0, Reg.CG_CONV_HI.addr g 0, Reg.CG_EMIT_LO.addr g 0, Reg.CG_EMIT_HI.addr g 0,
        Reg.CG_SDISC_LO.addr g 0, Reg.CG_SDISC_HI.addr g 0, Reg.CG_PDISC_LO.addr g 0, Reg.CG_PDISC_HI.addr g 0] s t) ∧
  (∀ (s : State) (g : Nat) (r : ElogRec) (rest : List ElogRec), g < s.part.numCG → s.sclk g = true →
    (s.group g).elog = r :: rest →
    ∃ t, exec (.elogPop g) s = .next t ∧ t = (s.setGroup g { s.group g with elog := rest }).counted)

/-- CG_GO, CG_STOP, SEQ_START, URGENT and FABRIC_REQUEST (R130 to R135, R323). -/
def Obligations.SequencerRequests : Prop :=
  (∀ (s : State) (g : Nat), g < s.part.numCG → s.sclk g = true → s.on Fld.CG_CTL_EN g = true → s.mode.converts = true →
    (s.group g).base = none → (s.group g).core.seq.st = .idle → s.on Fld.CG_SEQCTL_TRIG g = false →
    s.on Fld.CG_SEQCTL_STOP g = false →
    ∃ t, exec (.cgGo g) s = .next t ∧ (t.group g).core.seq.st = .settle ∧ (t.group g).core.seq.entry = 0 ∧
      (t.group g).core.seq.fresh = true ∧ (t.group g).core.seq.d = (t.seqCfg g).delay ∧
      (t.group g).core.held = (s.group g).core.held ∧
      t.groups = (s.setGroup g (t.group g)).groups ∧ t = { s with groups := t.groups, regs := t.regs } ∧
      SameBut [Reg.TWN_HSEQ.base, Reg.CG_SEQCTL.addr g 0] s t) ∧
  (∀ (s : State) (g : Nat), g < s.part.numCG → s.sclk g = true → s.on Fld.CG_CTL_EN g = true → (s.group g).base = none →
    (s.group g).core.seq.st = .idle → s.on Fld.CG_SEQCTL_TRIG g = true → s.on Fld.CG_SEQCTL_STOP g = false →
    ∃ t, exec (.cgGo g) s = .next t ∧
      (t.group g).core = { (s.group g).core with seq := { (s.group g).core.seq with st := .armed } } ∧
      Others g s.group t.group ∧ t = { s with groups := t.groups, regs := t.regs } ∧
      SameBut [Reg.TWN_HSEQ.base, Reg.CG_SEQCTL.addr g 0] s t) ∧
  (∀ (s : State) (g : Nat), g < s.part.numCG → s.sclk g = true → (s.group g).base = none → s.on Fld.CG_SEQCTL_GO g = false →
    (s.group g).core.seq.st = .settle → (s.group g).core.seq.fresh = true →
    ∃ t, exec (.cgStop g) s = .next t ∧ (t.group g).core.seq.st = .idle ∧
      (t.group g).core.held = (s.group g).core.held.filter (·.done) ∧
      (t.group g).core.pdisc = (s.group g).core.pdisc + 4 * ((s.group g).core.held.filter fun h => !h.done).length ∧
      Others g s.group t.group ∧ t = { s with groups := t.groups, regs := t.regs } ∧
      SameBut [Reg.TWN_HSEQ.base, Reg.CG_SEQCTL.addr g 0] s t) ∧
  (∀ (s : State) (g : Nat) (r : FiringRec), g < s.part.numCG → headBit 0 (s.group g).inbox = some r →
    s.on Fld.CG_CTL_EN g = true → s.mode.converts = true → (s.group g).base = none → (s.group g).core.seq.st = .armed →
    ∃ t, exec (.seqStart g) s = .next t ∧ (t.group g).core.seq.st = .settle ∧ (t.group g).core.seq.entry = 0 ∧
      (t.group g).inbox = takeBit 0 (s.group g).inbox ∧ Others g s.group t.group ∧ t = { s with groups := t.groups }) ∧
  (∀ (s : State) (g : Nat) (r : FiringRec), g < s.part.numCG → headBit 1 (s.group g).inbox = some r →
    s.on Fld.CG_CTL_EN g = true → (s.group g).base = none → (s.group g).core.seq.st = .dwell →
    (s.group g).core.seq.dwellLeft ≠ some 0 →
    ∃ t, exec (.urgent g) s = .next t ∧ (t.group g).core.seq.st = .usettle ∧ (t.group g).core.seq.entry = 16 ∧
      (t.group g).core.seq.resume = (s.group g).core.seq.entry ∧
      (t.group g).core.held = (s.group g).core.held.filter (·.done) ∧
      (t.group g).core.pdisc = (s.group g).core.pdisc + 4 * ((s.group g).core.held.filter fun h => !h.done).length ∧
      (t.group g).core.emit = (s.group g).core.emit ∧ Others g s.group t.group ∧ t = { s with groups := t.groups }) ∧
  (∀ (s : State) (g : Nat) (r : FiringRec), g < s.part.numCG → headBit 1 (s.group g).inbox = some r →
    s.on Fld.CG_CTL_EN g = true → (s.group g).base = none → (s.group g).core.seq.st ∈ [.idle, .armed, .paused] →
    ∃ t, exec (.urgent g) s = .next t ∧
      (t.group g).core = { (s.group g).core with drops := (s.group g).core.drops + 1 } ∧
      (t.group g).inbox = takeBit 1 (s.group g).inbox ∧ Others g s.group t.group ∧ t = { s with groups := t.groups }) ∧
  (∀ (s : State) (f g : Nat), f < 48 → g < s.part.numCG → 0 < (s.frqX f).got → s.on Fld.CG_CTL_EN g = true →
    s.on Fld.CG_FTRIG_EN g = true → s.f Fld.CG_FTRIG_LINE g = f → (s.group g).base = none →
    (s.group g).core.seq.st = .dwell → (s.group g).core.seq.dwellLeft ≠ some 0 →
    ∃ t, exec (.fabricRequest f) s = .next t ∧ (t.group g).core.seq.st = .usettle ∧ (t.group g).core.seq.entry = 16 ∧
      (t.group g).core.seq.resume = (s.group g).core.seq.entry ∧ (t.frqX f).got = (s.frqX f).got - 1 ∧
      (∀ d ∈ List.range 24, (s.on Fld.CG_CTL_EN d && s.on Fld.CG_FTRIG_EN d && s.f Fld.CG_FTRIG_LINE d == f) = false →
        t.group d = s.group d) ∧
      t = { s with groups := t.groups, cabs := t.cabs, frqs := t.frqs, regs := t.regs })

/-- SETTLE_END, DWELL_COMPLETE and URGENT_DWELL_COMPLETE (R128, R133, R135). -/
def Obligations.SettleAndDwellEnds : Prop :=
  (∀ (s : State) (g : Nat), g < s.part.numCG → (s.group g).core.seq.st = .settle → (s.group g).core.seq.fresh = false →
    (s.group g).core.seq.settleLeft = 0 → (s.group g).base = none →
    ∃ t, exec (.settleEnd g) s = .next t ∧
      t = s.setCore g { (s.group g).core with seq := { (s.group g).core.seq with st := .dwell } }) ∧
  (∀ (s : State) (g : Nat), g < s.part.numCG → (s.group g).core.seq.st = .dwell → (s.group g).core.seq.dwellLeft = some 0 →
    ∃ t, exec (.dwellComplete g) s = .next t ∧ (t.group g).core.seq.st = .settle ∧
      (t.group g).core.seq.entry = (s.group g).core.seq.next ∧ (t.group g).core.seq.fresh = true ∧
      (t.group g).core = { (s.group g).core with seq := (t.group g).core.seq } ∧
      t = s.setGroup g { s.group g with
        core := (t.group g).core, base := (s.group g).base.map fun c => c.advance (s.seqCfg g) }) ∧
  (∀ (s : State) (g : Nat), g < s.part.numCG → (s.group g).core.seq.st = .udwell → (s.group g).core.seq.dwellLeft = some 0 →
    ∃ t, exec (.urgentDwellComplete g) s = .next t ∧ (t.group g).core.seq.st = .settle ∧
      (t.group g).core.seq.entry = (if (s.group g).core.seq.restart then 0 else (s.group g).core.seq.resume) ∧
      (t.group g).core.seq.restart = false ∧ (t.group g).core.seq.fresh = true ∧
      (t.group g).core = { (s.group g).core with seq := (t.group g).core.seq } ∧
      t = s.setGroup g { s.group g with
        core := (t.group g).core, base := (s.group g).base.map fun c => c.advance (s.seqCfg g) })

/-- CONVERSION_BEAT (R121, R123, R129, R136, R137). -/
def Obligations.ConversionBeatCounts : Prop :=
  (∀ (s : State) (g e tick : Nat) (raw : List (List Int)) (b a i : Int), g < s.part.numCG → s.sclk g = true →
    raw.length = 4 → raw.all (·.length = 4) = true → s.on Fld.CG_CTL_EN g = true → s.mode.converts = true →
    (s.group g).rot.overlap = none → (s.group g).core.seq.st = .settle → (s.group g).core.seq.fresh = false →
    (s.group g).core.seq.settleLeft ≠ 0 → (s.group g).core.held = [] →
    ∃ t, exec (.conversionBeat g e tick raw b a i) s = .next t ∧
      (t.group g).core.conv = (s.group g).core.conv + 4 ∧ (t.group g).core.sdisc = (s.group g).core.sdisc + 4 ∧
      (t.group g).core.emit = (s.group g).core.emit ∧ (t.group g).core.held = [] ∧
      (t.group g).core.seq.settleLeft = (s.group g).core.seq.settleLeft - 1 ∧ (t.group g).beat = (s.group g).beat + 1) ∧
  (∀ (s : State) (g e tick m : Nat) (raw : List (List Int)) (b a i : Int), g < s.part.numCG → s.sclk g = true →
    raw.length = 4 → raw.all (·.length = 4) = true → s.on Fld.CG_CTL_EN g = true → s.mode.converts = true →
    (s.group g).rot.overlap = none → (s.group g).core.seq.st = .dwell → (s.group g).core.seq.fresh = false →
    (s.group g).core.seq.empty = false → (s.group g).core.seq.dwellLeft = some (m + 2) → (s.group g).core.held = [] →
    ∃ t, exec (.conversionBeat g e tick raw b a i) s = .next t ∧
      (t.group g).core.conv = (s.group g).core.conv + 4 ∧ (t.group g).core.held.length = 1 ∧
      (t.group g).core.emit = (s.group g).core.emit ∧ (t.group g).core.pdisc = (s.group g).core.pdisc ∧
      (t.group g).core.seq.dwellLeft = some (m + 1)) ∧
  (∀ (s : State) (g e tick : Nat) (raw : List (List Int)) (b a i : Int), g < s.part.numCG → s.sclk g = true →
    raw.length = 4 → raw.all (·.length = 4) = true → s.on Fld.CG_CTL_EN g = true → s.mode.converts = true →
    (s.group g).rot.overlap = none → (s.group g).core.seq.st = .dwell → (s.group g).core.seq.fresh = false →
    (s.group g).core.seq.empty = false → (s.group g).core.seq.dwellLeft = some 1 → (s.group g).core.held = [] →
    ∃ t, exec (.conversionBeat g e tick raw b a i) s = .next t ∧
      (t.group g).core.conv = (s.group g).core.conv + 4 ∧ ((t.group g).core.held.map (·.done)) = [true] ∧
      (t.group g).core.seq.dwellLeft = some 0 ∧
      (t.group g).core.seq.next =
        (if s.f Fld.CG_SEQCTL_LAST g ≤ (s.group g).core.seq.entry then 0 else (s.group g).core.seq.entry + 1) ∧
      ((s.group g).core.seq.eirq = true → t.on Fld.CG_IRQ_ENTRY_END g = true) ∧
      (s.f Fld.CG_SEQCTL_LAST g ≤ (s.group g).core.seq.entry → t.on Fld.CG_IRQ_WRAP g = true)) ∧
  (∀ (s : State) (g e tick : Nat) (raw : List (List Int)) (b a i : Int) (h : HeldBeat), g < s.part.numCG →
    s.sclk g = true → raw.length = 4 → raw.all (·.length = 4) = true → (s.group g).rot.overlap = none →
    (s.group g).core.seq.st = .idle → (s.group g).core.seq.fresh = false → (s.group g).core.held = [h] → h.done = true →
    h.beat + h.lat ≤ (s.group g).beat + 1 →
    ∃ t, exec (.conversionBeat g e tick raw b a i) s = .next t ∧ (t.group g).core.held = [] ∧
      (t.group g).core.emit = (s.group g).core.emit + 4 ∧ (t.group g).core.conv = (s.group g).core.conv)

/-- MARK, WINDOW_COMPARATOR_FIRE, REF_SETTLED, REF_FAULT and REFQ_WINDOW_RETURN (R57, R126, R139, R141). -/
def Obligations.MarkWindowAndReference : Prop :=
  (∀ (s : State) (g : Nat) (r : FiringRec), g < s.part.numCG → headBit 2 (s.group g).inbox = some r →
    s.on Fld.CG_CTL_EN g = true → s.samplePos r.instant = none →
    ∃ t, exec (.mark g) s = .next t ∧
      t = (s.setGroup g { s.group g with inbox := takeBit 2 (s.group g).inbox }).setF Fld.CG_EVCNT_MARK_LOST
        (min (s.f Fld.CG_EVCNT_MARK_LOST g + (lanePositions (s.f Fld.CG_CTL_MODE g)).length) 255) g) ∧
  (∀ (s : State) (g : Nat) (r : FiringRec) (p : Rat), g < s.part.numCG → headBit 2 (s.group g).inbox = some r →
    s.on Fld.CG_CTL_EN g = true → s.samplePos r.instant = some p → (s.group g).lastEdge = none →
    ∃ t, exec (.mark g) s = .next t ∧ (t.group g).marksAhead.contains (nearestEdge (s.f Fld.CG_CTL_MODE g) 0 p) = true ∧
      (t.group g).core = (s.group g).core ∧ Others g s.group t.group ∧ t = { s with groups := t.groups }) ∧
  (∀ (s : State) (g l : Nat) (w : WinCmp) (side : Bool) (code : Int), g < s.part.numCG → l < 4 →
    (s.group g).cmps[l]? = some w → w.fired = some (side, code) →
    ∃ t, exec (.windowComparatorFire g l) s = .next t ∧ t.f Fld.CG_IRQ_WIN g = s.f Fld.CG_IRQ_WIN g ||| 2 ^ l ∧
      t.on Fld.CG_WIN_HIT_SIDE g l = side ∧ t.f Fld.CG_WIN_HIT_CODE g l = ofSigned 14 code % 16384 ∧
      t.groups = (s.setGroup g { s.group g with cmps := (s.group g).cmps.modify l fun w => { w with fired := none } }).groups ∧
      t = { s with groups := t.groups, regs := t.regs } ∧ SameBut [Reg.CG_IRQ.addr g 0, Reg.CG_WIN_HIT.addr g l] s t) ∧
  (∀ (s : State) (g : Nat), g < s.part.numCG → (s.sclk g || s.settling) = true → s.on Fld.CG_STAT_REF_FAULT g = false →
    s.on Fld.CG_STAT_REF_SETTLED g = false →
    ∃ t, exec (.refSettled g) s = .next t ∧ t.on Fld.CG_STAT_REF_SETTLED g = true ∧ t.on Fld.CG_IRQ_REF_CHG g = true ∧
      t = { s with regs := t.regs } ∧ SameBut [Reg.CG_STAT.addr g 0, Reg.CG_IRQ.addr g 0] s t) ∧
  (∀ (s : State) (q g : Nat), q < s.part.numCG / 6 → g / 6 = q → s.f Fld.CG_REF_SEL g = 1 →
    ∃ t, exec (.refFault q) s = .next t ∧ t.on Fld.CG_STAT_REF_FAULT g = true ∧ t.on Fld.CG_STAT_REF_SETTLED g = false ∧
      (s.on Fld.CG_STAT_REF_SETTLED g = true → t.on Fld.CG_IRQ_REF_CHG g = true)) ∧
  (∀ (s : State) (q g : Nat), q < s.part.numCG / 6 → g / 6 = q →
    ∃ t, exec (.refqWindowReturn q) s = .next t ∧ t.on Fld.CG_STAT_REF_FAULT g = false ∧ t = { s with regs := t.regs } ∧
      SameBut [Reg.CG_STAT.addr (6 * q) 0, Reg.CG_STAT.addr (6 * q + 1) 0, Reg.CG_STAT.addr (6 * q + 2) 0,
        Reg.CG_STAT.addr (6 * q + 3) 0, Reg.CG_STAT.addr (6 * q + 4) 0, Reg.CG_STAT.addr (6 * q + 5) 0] s t)

/-- ROTATION_CHECK, OVERLAP_START and HANDOVER_TEST (R152, R153, R157, R159, R163, R164, R173, R178; the rows of R166). That
the lowest of several saturated slices goes out is the model's choice (log entry 24); how the word index of the first incoming
sample counts what is emitted and held is the model's inference (log entry 25). -/
def Obligations.RotationsAndHandovers : Prop :=
  (∀ (s : State) (g sl : Nat), g < s.part.numCG → s.bur.running = true → s.on Fld.TWN_STAT_PAIRED = false →
    s.rotst g = 0 → ((List.range 5).find? fun k => (s.serving g).contains k && s.on Fld.CG_SL_QUAL_SAT g k) = some sl →
    ∃ t, exec .rotationCheck s = .next t ∧ t.rotst g = 1 ∧ t.serving g = s.serving g ∧
      t.rot g = { s.rot g with chosen := some sl } ∧
      t = { s with groups := t.groups, regs := t.regs, bur := { s.bur with checks := s.bur.checks + 1 } }) ∧
  (∀ (s : State) (g tick p sl : Nat), g < s.part.numCG → s.rotst g = 1 → s.on Fld.CG_CTL_EN g = true →
    s.on Fld.CG_STAT_REF_SETTLED g = true → s.mode.converts = true → s.bur.running = true →
    (s.rot g).notBefore ≤ (s.atTick tick).lcs.time → (s.rot g).chosen = some sl →
    ((List.range 4).find? fun k => s.f (rotPos k) g == sl) = some p →
    ∃ t, exec (.overlapStart g tick) s = .next t ∧ t.rotst g = 2 ∧ t.serving g = s.serving g ∧
      (t.rot g).overlap = some ⟨p, s.f Fld.CG_ROT_MAP_OUT g, sl, 0, 0, 0, 0, 0⟩ ∧
      (t.group g).core = (s.group g).core ∧ Others g s.group t.group ∧
      t = { (s.atTick tick) with groups := t.groups, regs := t.regs } ∧ SameBut [Reg.CG_ROT_STAT.addr g 0] s t) ∧
  (∀ (s : State) (g : Nat) (o : Overlap), g < s.part.numCG → (s.rot g).overlap = some o → 1024 ≤ o.taken → o.pos < 4 →
    o.slIn < 5 → o.slOut < 5 → 16 * o.a.natAbs ≤ s.f Fld.CG_ROT_HOTOL_OFS_TOL g * o.n →
    256 * ((o.n : Int) * o.b - o.a * o.a) ≤ (s.f Fld.CG_ROT_HOTOL_RMS_TOL g : Int) ^ 2 * (o.n : Int) ^ 2 →
    ∃ t, exec (.handoverTest g) s = .next t ∧ t.f (rotPos o.pos) g = o.slIn ∧ t.f Fld.CG_ROT_MAP_OUT g = o.slOut ∧
      t.rotst g = 3 ∧ (t.rot g).overlap = none ∧ (t.rot g).calib = some o.slOut ∧
      t.on Fld.CG_ROT_IRQ_HO_DONE g = true ∧ t.on Fld.CG_HO_LOG_SL_VALID g = true ∧ t.f Fld.CG_HO_LOG_SL_RESULT g = 0 ∧
      t.f Fld.CG_ROT_STAT_REJRUN g = 0 ∧ (t.group g).core = (s.group g).core ∧
      t.f Fld.CG_ROT_CNT_ACCEPTS g = (s.f Fld.CG_ROT_CNT_ACCEPTS g + 1) % 65536 ∧
      t.f Fld.CG_ROT_CNT_REJECTS g = s.f Fld.CG_ROT_CNT_REJECTS g ∧ t.f Fld.CG_ROT_CNT_ABORTS g = s.f Fld.CG_ROT_CNT_ABORTS g ∧
      t.f Fld.CG_HO_IDX_LO g = s.firstIncoming g o.pos % 2 ^ 32 ∧
      t.f Fld.CG_HO_IDX_HI g = s.firstIncoming g o.pos / 2 ^ 32 % 2 ^ 16 ∧
      t.f Fld.CG_HO_LOG_SL_EXCL g = min 127 o.excl ∧ t.f Fld.CG_HO_LOG_SL_SL_IN g = o.slIn ∧
      t.f Fld.CG_HO_LOG_SL_SL_OUT g = o.slOut ∧ t.f Fld.CG_HO_LOG_SL_POS g = o.pos ∧
      (o.n ≠ 0 → LoggedMean o (t.f Fld.CG_HO_LOG_MS_M g) ∧ LoggedDeviation o (t.f Fld.CG_HO_LOG_MS_S g)) ∧
      (s.residualAtEnd g o.slIn = true → t.on Fld.CG_SL_QUAL_SAT g o.slIn = true ∧ t.on Fld.CG_ROT_IRQ_SAT g = true) ∧
      ((List.range 4).all fun p => p == o.pos || t.f (rotPos p) g == s.f (rotPos p) g) = true ∧ Others g s.group t.group ∧
      t = { s with groups := t.groups, regs := t.regs, cal := t.cal, freeCount := t.freeCount } ∧
      SameBut [Reg.CG_ROT_MAP.addr g 0, Reg.CG_HO_IDX_LO.addr g 0, Reg.CG_HO_IDX_HI.addr g 0, Reg.CG_HO_LOG_SL.addr g 0,
        Reg.CG_HO_LOG_MS.addr g 0, Reg.CG_ROT_CNT.addr g 0, Reg.CG_ROT_IRQ.addr g 0, Reg.CG_ROT_STAT.addr g 0,
        Reg.CG_SL_QUAL.addr g o.slIn] s t) ∧
  (∀ (s : State) (g : Nat) (o : Overlap), g < s.part.numCG → (s.rot g).overlap = some o → 1024 ≤ o.taken → o.slIn < 5 →
    s.f Fld.CG_ROT_HOTOL_OFS_TOL g * o.n < 16 * o.a.natAbs → s.f Fld.CG_ROT_STAT_REJRUN g < 2 →
    ∃ t, exec (.handoverTest g) s = .next t ∧ t.rotst g = 3 ∧ (t.rot g).overlap = none ∧
      (t.rot g).calib = some o.slIn ∧ (t.rot g).chosen = some o.slOut ∧ t.on Fld.CG_ROT_STAT_RETRY g = true ∧
      t.f Fld.CG_ROT_STAT_REJRUN g = s.f Fld.CG_ROT_STAT_REJRUN g + 1 ∧ t.on Fld.CG_ROT_IRQ_HO_REJ g = true ∧
      t.f Fld.CG_HO_LOG_SL_RESULT g = 1 ∧ t.serving g = s.serving g ∧ (t.group g).core = (s.group g).core ∧
      t.f Fld.CG_ROT_CNT_REJECTS g = min 255 (s.f Fld.CG_ROT_CNT_REJECTS g + 1) ∧
      t.f Fld.CG_ROT_CNT_ACCEPTS g = s.f Fld.CG_ROT_CNT_ACCEPTS g ∧ t.f Fld.CG_ROT_CNT_ABORTS g = s.f Fld.CG_ROT_CNT_ABORTS g ∧
      t.f Fld.CG_HO_LOG_SL_EXCL g = min 127 o.excl ∧ t.f Fld.CG_HO_LOG_SL_SL_IN g = o.slIn ∧
      t.f Fld.CG_HO_LOG_SL_SL_OUT g = o.slOut % 8 ∧ t.f Fld.CG_HO_LOG_SL_POS g = o.pos % 4 ∧
      (o.n ≠ 0 → LoggedMean o (t.f Fld.CG_HO_LOG_MS_M g) ∧ LoggedDeviation o (t.f Fld.CG_HO_LOG_MS_S g)) ∧
      Others g s.group t.group ∧ t = { s with groups := t.groups, regs := t.regs, cal := t.cal, freeCount := t.freeCount } ∧
      SameBut [Reg.CG_HO_LOG_SL.addr g 0, Reg.CG_HO_LOG_MS.addr g 0, Reg.CG_ROT_CNT.addr g 0, Reg.CG_ROT_IRQ.addr g 0,
        Reg.CG_ROT_STAT.addr g 0] s t) ∧
  (∀ (s : State) (g : Nat) (o : Overlap), g < s.part.numCG → (s.rot g).overlap = some o → 1024 ≤ o.taken → o.slIn < 5 →
    s.f Fld.CG_ROT_HOTOL_OFS_TOL g * o.n < 16 * o.a.natAbs → 2 ≤ s.f Fld.CG_ROT_STAT_REJRUN g →
    ∃ t, exec (.handoverTest g) s = .next t ∧ t.rotst g = 4 ∧ t.f Fld.CG_ROT_STAT_REJRUN g = 3 ∧
      t.on Fld.CG_SL_QUAL_RETIRED g o.slIn = true ∧
      t.on Fld.CG_ROT_IRQ_RETIRED g = true ∧ t.on Fld.CG_ROT_IRQ_HO_REJ g = true ∧ t.serving g = s.serving g ∧
      t.f Fld.CG_ROT_CNT_REJECTS g = min 255 (s.f Fld.CG_ROT_CNT_REJECTS g + 1) ∧
      t.f Fld.CG_HO_LOG_SL_EXCL g = min 127 o.excl ∧ t.f Fld.CG_HO_LOG_SL_SL_IN g = o.slIn ∧
      t.f Fld.CG_HO_LOG_SL_SL_OUT g = o.slOut % 8 ∧ t.f Fld.CG_HO_LOG_SL_POS g = o.pos % 4 ∧
      (o.n ≠ 0 → LoggedMean o (t.f Fld.CG_HO_LOG_MS_M g) ∧ LoggedDeviation o (t.f Fld.CG_HO_LOG_MS_S g)) ∧
      (t.group g).core = (s.group g).core ∧ Others g s.group t.group ∧
      t = { s with groups := t.groups, regs := t.regs, freeCount := t.freeCount } ∧
      SameBut [Reg.CG_HO_LOG_SL.addr g 0, Reg.CG_HO_LOG_MS.addr g 0, Reg.CG_ROT_CNT.addr g 0, Reg.CG_ROT_IRQ.addr g 0,
        Reg.CG_ROT_STAT.addr g 0, Reg.CG_SL_QUAL.addr g o.slIn] s t)

/-- SLICE_CALIBRATION, ESTIMATOR_BLOCK and the samples of CONVERSION_BEAT (R158, R159, R168, R170, R174). That a position is
compared with the mean of its lane, and how the estimates are formed, is the model's inference (log entry 25). -/
def Obligations.SliceCalibrationAndEstimator : Prop :=
  (∀ (s : State) (g sl res : Nat) (ofs gain skew rofs rgain : List (Int × Int)) (vo vg vk ro rg : Int), g < s.part.numCG →
    (s.rot g).calib = some sl → sl < 5 → s.calibRuns g = true → (s.busUpdate (g / 6)).busHolder g = some g →
    calStep 2 ofs = some vo → calStep 4 gain = some vg → calStep 1 skew = some vk → calStep 4 rofs = some ro →
    calStep 4 rgain = some rg → -2048 < vo → vo < 2047 → -2048 < vg → vg < 2047 → 0 < vk → vk < 255 →
    res ≤ s.f Fld.CG_ROT_QCFG_RES_LIM g →
    ∃ t, exec (.sliceCalibration g ofs gain skew rofs rgain res) s = .next t ∧
      t.rotst g = (if s.on Fld.CG_ROT_STAT_RETRY g then 1 else 0) ∧ (t.rot g).calib = none ∧
      t.f Fld.CG_SL_TRIM_OFS g sl = ofSigned 12 vo ∧ t.f Fld.CG_SL_TRIM_GAIN g sl = ofSigned 12 vg ∧
      (t.f Fld.CG_SL_SKEW_SKEW g sl : Int) = vk ∧ t.f Fld.CG_SL_RES_SK_RSKEW g sl = 0 ∧ t.f Fld.CG_SL_QUAL_RES g sl = res ∧
      (t.group g).core = (s.group g).core ∧ Others g s.group t.group ∧
      t = { s with groups := t.groups, regs := t.regs, cal := t.cal } ∧
      SameBut [Reg.CG_SL_TRIM.addr g sl, Reg.CG_SL_SKEW.addr g sl, Reg.CG_SL_RES_OG.addr g sl, Reg.CG_SL_RES_SK.addr g sl,
        Reg.CG_SL_QUAL.addr g sl, Reg.CG_ROT_STAT.addr g 0, Reg.CAL_STAT.base] s t) ∧
  (∀ (s : State) (g sl res : Nat) (ofs gain skew rofs rgain : List (Int × Int)), g < s.part.numCG →
    (s.rot g).calib = some sl → s.calibRuns g = true → (s.busUpdate (g / 6)).busHolder g = some g →
    s.f Fld.CG_ROT_QCFG_RES_LIM g < res → (s.rot g).failedOnce = false →
    ∃ t, exec (.sliceCalibration g ofs gain skew rofs rgain res) s = .next t ∧ t.rotst g = 3 ∧
      (t.rot g).calib = some sl ∧ (t.rot g).failedOnce = true ∧ (t.group g).core = (s.group g).core) ∧
  (∀ (s : State) (g sl res : Nat) (ofs gain skew rofs rgain : List (Int × Int)), g < s.part.numCG →
    (s.rot g).calib = some sl → sl < 5 → s.calibRuns g = true → (s.busUpdate (g / 6)).busHolder g = some g →
    s.f Fld.CG_ROT_QCFG_RES_LIM g < res → (s.rot g).failedOnce = true →
    ∃ t, exec (.sliceCalibration g ofs gain skew rofs rgain res) s = .next t ∧ t.rotst g = 4 ∧
      (t.rot g).calib = none ∧ t.on Fld.CG_SL_QUAL_RETIRED g sl = true ∧ t.on Fld.CG_ROT_IRQ_RETIRED g = true ∧
      t.serving g = s.serving g ∧ (t.group g).core = (s.group g).core) ∧
  (∀ (s : State) (g tick p : Nat) (stats : List PosStat) (pair : Word), g < s.part.numCG →
    s.on Fld.TWN_STAT_PAIRED = false → (s.rot g).done = some stats → s.on Fld.CG_ROT_CTL_EST_EN g = true →
    s.f Fld.CG_CTL_MODE g = 0 → (s.serving g).Nodup → (s.serving g).all (· < 5) = true → p < 4 →
    ∃ t, exec (.estimatorBlock g tick pair) s = .next t ∧ (t.rot g).done = none ∧
      t.f Fld.CG_SL_RES_OG_ROFS g (s.f (rotPos p) g) = ofSigned 12 (satSigned 12
        (toSigned 12 (s.f Fld.CG_SL_RES_OG_ROFS g (s.f (rotPos p) g)) +
          (let m := fun (k : Nat) => ((stats[k]?).map (·.sum)).getD 0 / 65536; let q := (m p - (m 0 + m 1 + m 2 + m 3) / 4) * 64;
           if q < 0 then -(-q).floor else q.floor))) ∧
      t.serving g = s.serving g ∧ (t.group g).core = (s.group g).core ∧ Others g s.group t.group ∧
      t = { s.atTick tick with groups := t.groups, regs := t.regs, freeCount := t.freeCount }) ∧
  (∀ (s : State) (g tick p : Nat) (stats : List PosStat) (pair : Word), g < s.part.numCG →
    s.on Fld.TWN_STAT_PAIRED = false → (s.rot g).done = some stats → s.on Fld.CG_ROT_CTL_EST_EN g = true →
    s.f Fld.CG_CTL_MODE g = 1 → (s.serving g).Nodup → (s.serving g).all (· < 5) = true → p < 4 →
    ∃ t, exec (.estimatorBlock g tick pair) s = .next t ∧ (t.rot g).done = none ∧
      t.f Fld.CG_SL_RES_OG_ROFS g (s.f (rotPos p) g) = ofSigned 12 (satSigned 12
        (toSigned 12 (s.f Fld.CG_SL_RES_OG_ROFS g (s.f (rotPos p) g)) +
          (let m := fun (k : Nat) => ((stats[k]?).map (·.sum)).getD 0 / 65536; let q := (m p - (m p + m ((p + 2) % 4)) / 2) * 64;
           if q < 0 then -(-q).floor else q.floor))) ∧
      t.serving g = s.serving g ∧ (t.group g).core = (s.group g).core ∧ Others g s.group t.group ∧
      t = { s.atTick tick with groups := t.groups, regs := t.regs, freeCount := t.freeCount }) ∧
  (∀ (s : State) (g e tick m : Nat) (raw : List (List Int)) (b a i : Int), g < s.part.numCG → s.sclk g = true →
    raw.length = 4 → raw.all (·.length = 4) = true → s.on Fld.CG_CTL_EN g = true → s.mode.converts = true →
    (s.rot g).overlap = none → (s.group g).core.seq.st = .dwell → (s.group g).core.seq.fresh = false →
    (s.group g).core.seq.dwellLeft = some (m + 1) → s.on Fld.CG_ROT_CTL_EST_EN g = true →
    s.f Fld.CG_CTL_MODE g ≠ 2 →
    ∃ t, exec (.conversionBeat g e tick raw b a i) s = .next t ∧
      (if (s.rot g).block + 1 < 65536 then
        (t.rot g).block = (s.rot g).block + 1 ∧ (t.rot g).stats.length = 4 ∧ (t.rot g).done = (s.rot g).done
      else (t.rot g).block = 0 ∧ (t.rot g).done.isSome = true))

/-- FC_ENABLE, FC_DISABLE, BANK, XFADE_START and XF_DONE (R183, R189 to R191, R193). -/
def Obligations.ChainsStartStopAndFade : Prop :=
  (∀ (s : State) (n : Nat), n < s.part.numFC → s.sclk (s.fcGroup n (s.f Fld.FC_SRC_SRC n)) = true →
    s.on Fld.FC_CTL_EN n = false → s.bankKind n (s.f Fld.FC_FIR_BANK n) = 0 → s.symmetric n (s.f Fld.FC_FIR_BANK n) = true →
    ∃ t, exec (.fcEnable n) s = .next t ∧ t.on Fld.FC_CTL_EN n = true ∧
      t.chain n = { Chain.init with store := (s.chain n).store, inc := (s.chain n).inc, lastEpoch := s.startEpoch n } ∧
      (t.feed (feedFC n)).inq = [] ∧ (t.feed (feedFC n)).src = (s.feed (feedFC n)).src ∧
      t.f Fld.FC_GDELAY n = 128 * ((s.cicCfg n).n * ((s.cicCfg n).d * (s.cicCfg n).k - 1) +
        (s.cicCfg n).d * s.f Fld.FC_FIR_NTAP_M1 n) ∧
      t.on Fld.FC_STAT_GD_DECL n = false ∧ Others n s.chain t.chain ∧ Others (feedFC n) s.feed t.feed ∧
      t = { s with chains := t.chains, feeds := t.feeds, regs := t.regs } ∧
      SameBut (Reg.TWN_HSEQ.base :: (detResults n ++ [Reg.FC_CTL.addr n 0, Reg.FC_STAT.addr n 0, Reg.FC_GDELAY.addr n 0,
        Reg.FC_RS_KDELAY.addr n 0, Reg.FC_RS_EVCNT.addr n 0])) s t ∧
      t.f Fld.FC_DET_WCNT n = 0 ∧ t.f Fld.FC_DET_RMS n = 0) ∧
  (∀ (s : State) (n : Nat), n < s.part.numFC → s.sclk (s.fcGroup n (s.f Fld.FC_SRC_SRC n)) = true →
    s.on Fld.FC_CTL_EN n = true →
    ∃ t, exec (.fcDisable n) s = .next t ∧ t.on Fld.FC_CTL_EN n = false ∧ t.on Fld.FC_STAT_XFADE n = false ∧
      t.f Fld.FC_STAT_ACTBANK n = s.f Fld.FC_FIR_BANK n ∧ t.f Fld.FC_FIR_BANK n = s.f Fld.FC_FIR_BANK n ∧
      t.chain n = { s.chain n with fade := none, pend := none, crossed := false } ∧ Others n s.chain t.chain ∧
      t = { s with chains := t.chains, rings := t.rings, regs := t.regs } ∧
      SameBut [Reg.TWN_HSEQ.base, Reg.FC_CTL.addr n 0, Reg.FC_STAT.addr n 0, Reg.FC_IRQ.addr n 0] s t) ∧
  (∀ (s : State) (n b : Nat), n < s.part.numFC → b < 2 → s.sclk (s.fcGroup n (s.f Fld.FC_SRC_SRC n)) = true →
    s.on Fld.FC_CTL_EN n = false → (s.chain n).fade = none →
    ∃ t, exec (.bank n b) s = .next t ∧ t.f Fld.FC_FIR_BANK n = b ∧ t.f Fld.FC_STAT_ACTBANK n = b ∧
      t = { s with regs := t.regs } ∧ SameBut [Reg.TWN_HSEQ.base, Reg.FC_FIR.addr n 0, Reg.FC_STAT.addr n 0] s t) ∧
  (∀ (s : State) (n b : Nat), n < s.part.numFC → b < 2 → s.sclk (s.fcGroup n (s.f Fld.FC_SRC_SRC n)) = true →
    s.on Fld.FC_CTL_EN n = true → (s.chain n).fade = none → s.f Fld.FC_FIR_BANK n ≠ b → s.f Fld.FC_STAT_ACTBANK n ≠ b →
    ∃ t, exec (.bank n b) s = .next t ∧ t.f Fld.FC_FIR_BANK n = b ∧
      t.f Fld.FC_STAT_ACTBANK n = s.f Fld.FC_STAT_ACTBANK n ∧
      t.chains = (s.setChain n { s.chain n with pend := some b, crossed := false }).chains ∧
      t = { s with chains := t.chains, regs := t.regs } ∧
      SameBut [Reg.TWN_HSEQ.base, Reg.FC_FIR.addr n 0, Reg.FC_STAT.addr n 0] s t) ∧
  (∀ (s : State) (n b old i : Nat), n < s.part.numFC → b < 2 → s.sclk (s.fcGroup n (s.f Fld.FC_SRC_SRC n)) = true →
    s.on Fld.FC_CTL_EN n = true → (s.chain n).fade = some (old, i) → i ≤ s.f Fld.FC_FIR_XFLEN_M1 n →
    s.f Fld.FC_FIR_BANK n ≠ b →
    ∃ t, exec (.bank n b) s = .next t ∧ t.on Fld.FC_STAT_WR_IGN n = true ∧ t.f Fld.FC_FIR_BANK n = s.f Fld.FC_FIR_BANK n ∧
      t = { s with regs := t.regs } ∧ SameBut [Reg.TWN_HSEQ.base, Reg.FC_STAT.addr n 0] s t) ∧
  (∀ (s : State) (n b : Nat), n < s.part.numFC → s.fcRuns n = true → (s.chain n).fade = none → (s.chain n).pend = some b →
    ∃ t, exec (.xfadeStart n) s = .next t ∧ t = s.setChain n { s.chain n with crossed := true }) ∧
  (∀ (s : State) (n b i : Nat), n < s.part.numFC → b < 2 → (s.chain n).fade = some (b, i) →
    s.f Fld.FC_FIR_XFLEN_M1 n < i → s.fcMoves n = true →
    ∃ t, exec (.xfDone n) s = .next t ∧ t.f Fld.FC_STAT_ACTBANK n = b ∧ t.on Fld.FC_STAT_XFADE n = false ∧
      t.on Fld.FC_IRQ_XF_DONE n = true ∧ t.chains = (s.setChain n { s.chain n with fade := none }).chains ∧
      t = { s with chains := t.chains, regs := t.regs } ∧ SameBut [Reg.FC_STAT.addr n 0, Reg.FC_IRQ.addr n 0] s t)

/-- CHAIN_OUTPUT, FC_CNT_SNAP, GAP_POP and TLOG_POP (R188, R197, R198, R202, R214). -/
def Obligations.ChainOutputsAndLogs : Prop :=
  (∀ (s : State) (n : Nat) (w : StreamWord), n < s.part.numFC → s.fcRuns n = true → (s.feed (feedFC n)).inq = [w] →
    (s.chain n).t % s.f Fld.FC_CIC_D n + 1 < s.f Fld.FC_CIC_D n →
    ∃ t, exec (.chainOutput n) s = .next t ∧ (t.chain n).t = (s.chain n).t + 1 ∧ (t.chain n).m = (s.chain n).m ∧
      (t.chain n).comp = (s.chain n).comp ∧ (t.chain n).hist = (s.chain n).hist ∧
      (s.fcClass n ≠ 3 → (t.feed (feedFC n)).inq = [] ∧ t.cabs = s.cabs) ∧
      Others n s.chain t.chain ∧ t = { s with chains := t.chains, feeds := t.feeds, cabs := t.cabs, regs := t.regs } ∧
      SameOutside (within (0x200000 + 0x1000 * n) (0x201000 + 0x1000 * n)) s t) ∧
  (∀ (s : State) (n : Nat) (w : StreamWord), n < s.part.numFC → s.fcRuns n = true → (s.feed (feedFC n)).inq = [w] →
    (s.chain n).t % s.f Fld.FC_CIC_D n + 1 = s.f Fld.FC_CIC_D n → (s.chain n).fade = none →
    s.on Fld.FC_CTL_RSEN n = false → s.f Fld.FC_RS_CTL_OUTSEL n = 0 →
    ∃ t, exec (.chainOutput n) s = .next t ∧ (t.chain n).t = (s.chain n).t + 1 ∧ (t.chain n).m = (s.chain n).m + 1 ∧
      (t.chain n).hist.head?.map (fun h => (h.m, h.val)) = some ((s.chain n).m, satSigned 32 (roundShift
        (((t.chain n).cic.take (s.f Fld.FC_FIR_NTAP_M1 n + 1)).zipIdx.map fun e =>
          s.coef n (s.f Fld.FC_STAT_ACTBANK n) e.2 * e.1).sum (s.f Fld.FC_FIR_FSH n))) ∧
      (t.chain n).cic.tail = (s.chain n).cic.take 127 ∧
      (t.chain n).comp = (s.chain n).comp + 1 ∧
      (t.chain n).emit + (t.chain n).supp = (s.chain n).emit + (s.chain n).supp + 1 ∧
      Others n s.chain t.chain ∧
      (s.fcClass n ≠ 3 → t.cabs = s.cabs) ∧
      t = { s with chains := t.chains, feeds := t.feeds, cabs := t.cabs, regs := t.regs, freeCount := t.freeCount } ∧
      SameOutside (within (0x200000 + 0x1000 * n) (0x201000 + 0x1000 * n)) s t) ∧
  (∀ (s : State) (n : Nat), n < s.part.numFC → s.sclk (s.fcGroup n (s.f Fld.FC_SRC_SRC n)) = true →
    (s.chain n).comp < 2 ^ 48 → (s.chain n).emit < 2 ^ 48 → (s.chain n).supp < 2 ^ 48 →
    ∃ t, exec (.fcCntSnap n) s = .next t ∧
      t.f Fld.FC_COMP_LO n + 2 ^ 32 * t.f Fld.FC_COMP_HI n = (s.chain n).comp ∧
      t.f Fld.FC_EMIT_LO n + 2 ^ 32 * t.f Fld.FC_EMIT_HI n = (s.chain n).emit ∧
      t.f Fld.FC_SUPP_LO n + 2 ^ 32 * t.f Fld.FC_SUPP_HI n = (s.chain n).supp ∧ t = { s with regs := t.regs } ∧
      SameBut [Reg.TWN_HSEQ.base, Reg.FC_COMP_LO.addr n 0, Reg.FC_COMP_HI.addr n 0, Reg.FC_EMIT_LO.addr n 0, Reg.FC_EMIT_HI.addr n 0,
        Reg.FC_SUPP_LO.addr n 0, Reg.FC_SUPP_HI.addr n 0] s t) ∧
  (∀ (s : State) (n : Nat), n < s.part.numFC → s.sclk (s.fcGroup n (s.f Fld.FC_SRC_SRC n)) = true →
    ∃ t, exec (.gapPop n) s = .next t ∧ (t.chain n).gaps = (s.chain n).gaps.tail ∧
      t = (s.setChain n { s.chain n with gaps := (t.chain n).gaps }).counted) ∧
  (∀ (s : State) (n : Nat), n < s.part.numFC → s.sclk (s.fcGroup n (s.f Fld.FC_SRC_SRC n)) = true →
    ∃ t, exec (.tlogPop n) s = .next t ∧ (t.chain n).tlog = (s.chain n).tlog.tail ∧
      t = (s.setChain n { s.chain n with tlog := (t.chain n).tlog }).counted)

/-- CDATA, INC_COMMIT, RS_INSTANT, SLOT and DET_WINDOW_CLOSE (R207, R210 to R212, R215, R223). How an instant waits for its
word is the model's reading, log entry 27. -/
def Obligations.ResamplerAndDetector : Prop :=
  (∀ (s : State) (n : Nat) (w : Word), n < s.part.numFC → s.sclk (s.fcGroup n (s.f Fld.FC_SRC_SRC n)) = true →
    (s.on Fld.FC_CTL_EN n && s.on Fld.FC_CTL_RSEN n) = false →
    ∃ t, exec (.cdata n (.write w)) s = .next t ∧
      t.chains = (s.setChain n { s.chain n with
        store := Tab.put (fun _ => 0) (s.chain n).store (s.f Fld.FC_RS_CADDR n) (w.toNat % 2 ^ 18) }).chains ∧
      t.f Fld.FC_RS_CADDR n = (s.f Fld.FC_RS_CADDR n + 1) % 4096 ∧ t = { s with chains := t.chains, regs := t.regs } ∧
      SameBut [Reg.TWN_HSEQ.base, Reg.FC_RS_CADDR.addr n 0] s t) ∧
  (∀ (s : State) (n : Nat) (w : Word), n < s.part.numFC → s.sclk (s.fcGroup n (s.f Fld.FC_SRC_SRC n)) = true →
    (s.on Fld.FC_CTL_EN n && s.on Fld.FC_CTL_RSEN n) = true →
    ∃ t, exec (.cdata n (.write w)) s = .next t ∧ t.on Fld.FC_RS_STAT_WR_IGN n = true ∧
      t.f Fld.FC_RS_CADDR n = (s.f Fld.FC_RS_CADDR n + 1) % 4096 ∧ t = { s with regs := t.regs } ∧
      SameBut [Reg.TWN_HSEQ.base, Reg.FC_RS_CADDR.addr n 0, Reg.FC_RS_STAT.addr n 0] s t) ∧
  (∀ (s : State) (n : Nat), n < s.part.numFC → s.sclk (s.fcGroup n (s.f Fld.FC_SRC_SRC n)) = true →
    Tab.get (fun _ => 0) (s.chain n).store (s.f Fld.FC_RS_CADDR n) < 2 ^ 18 →
    ∃ t, exec (.cdata n .read) s = .next t ∧
      t.readData.toNat = Tab.get (fun _ => 0) (s.chain n).store (s.f Fld.FC_RS_CADDR n) ∧
      t.f Fld.FC_RS_CADDR n = (s.f Fld.FC_RS_CADDR n + 1) % 4096 ∧ t = { s with readData := t.readData, regs := t.regs } ∧
      SameBut [Reg.FC_RS_CADDR.addr n 0] s t) ∧
  (∀ (s : State) (n : Nat) (w : Word), n < s.part.numFC → s.sclk (s.fcGroup n (s.f Fld.FC_SRC_SRC n)) = true →
    ∃ t, exec (.incCommit n w) s = .next t ∧
      (t.chain n).inc = max (2 ^ 39) (w.toNat % 65536 * 2 ^ 32 + s.f Fld.FC_RS_INC_LO n) ∧
      t.f Fld.FC_RS_INC_LO n + 2 ^ 32 * t.f Fld.FC_RS_INC_HI n = (t.chain n).inc ∧
      t.chains = (s.setChain n { s.chain n with
        inc := (t.chain n).inc,
        nextPi := (((s.chain n).lastPi.map fun p => p + ((t.chain n).inc : Rat) / 2 ^ 40).getD (s.chain n).nextPi) }).chains ∧
      t = { s with chains := t.chains, regs := t.regs } ∧
      SameBut [Reg.TWN_HSEQ.base, Reg.FC_RS_INC_LO.addr n 0, Reg.FC_RS_INC_HI.addr n 0] s t) ∧
  (∀ (s : State) (n : Nat) (r : FiringRec) (p : Rat), n < s.part.numFC → headBit 3 (s.chain n).inbox = some r →
    s.on Fld.FC_CTL_EN n = true → s.on Fld.FC_CTL_RSEN n = true → s.rsMode n = 2 → s.fcClass n = 1 →
    s.on Fld.FC_DET_CTL_SPAN n = false → s.on Fld.FC_RS_LISTEN_EN n 0 = true → s.f Fld.FC_RS_LISTEN_NUM n 0 = r.num →
    s.mode.converts = true → s.samplePos r.instant = some p → s.laneSilent n p = false → (s.chain n).insts = [] →
    (s.chain n).entry = none →
    (s.chain n).slots = [] →
    ∃ t, exec (.rsInstant n) s = .next t ∧ (t.chain n).insts = [⟨some p, .alarm⟩] ∧
      t.chain n = { s.chain n with inbox := takeBit 3 (s.chain n).inbox, insts := (t.chain n).insts } ∧
      Others n s.chain t.chain ∧ t = { s with chains := t.chains }) ∧
  (∀ (s : State) (n : Nat) (r : FiringRec), n < s.part.numFC → headBit 3 (s.chain n).inbox = some r →
    s.on Fld.FC_CTL_EN n = true → s.on Fld.FC_CTL_RSEN n = true → s.rsMode n = 2 → s.fcClass n = 1 →
    s.on Fld.FC_DET_CTL_SPAN n = false → s.on Fld.FC_RS_LISTEN_EN n 3 = true → s.f Fld.FC_RS_LISTEN_NUM n 3 = r.num →
    (s.samplePos r.instant).all (s.laneSilent n) = true → (s.chain n).entry = none → (s.chain n).insts = [] →
    (s.chain n).slots = [] →
    ∃ t, exec (.rsInstant n) s = .next t ∧
      t.f Fld.FC_RS_EVCNT_NOPOS n = min (s.f Fld.FC_RS_EVCNT_NOPOS n + 1) 255 ∧
      t.chain n = { s.chain n with inbox := takeBit 3 (s.chain n).inbox } ∧ Others n s.chain t.chain ∧
      t = { s with chains := t.chains, regs := t.regs } ∧ SameBut [Reg.FC_RS_EVCNT.addr n 0] s t) ∧
  (∀ (s : State) (n tick : Nat) (j : Int) (p : Rat), n < s.part.numFC → s.on Fld.FC_CTL_EN n = true →
    s.on Fld.FC_CTL_RSEN n = true → s.rsMode n = 1 → s.fcClass n = 1 → s.lclk = true → s.mode.converts = true →
    (s.trk (s.f Fld.FC_RS_CTL_REF n)).state.tracking = true →
    (s.trk (s.f Fld.FC_RS_CTL_REF n)).t0 ≤ (tick : Int) * 64 → (s.chain n).lastJ = none →
    slotAfter (s.f Fld.FC_RS_CTL_SPT_M1 n + 1) (s.f Fld.FC_RS_PHOFS n)
      ((s.trk (s.f Fld.FC_RS_CTL_REF n)).phase ((tick : Int) * 64)) = j →
    slotPhase (s.f Fld.FC_RS_CTL_SPT_M1 n + 1) (s.f Fld.FC_RS_PHOFS n) j <
      (s.trk (s.f Fld.FC_RS_CTL_REF n)).phase ((tick : Int) * 64 + 64) →
    s.samplePos ((tick + ((((slotPhase (s.f Fld.FC_RS_CTL_SPT_M1 n + 1) (s.f Fld.FC_RS_PHOFS n) j -
      (s.trk (s.f Fld.FC_RS_CTL_REF n)).phase ((tick : Int) * 64)) / (s.trk (s.f Fld.FC_RS_CTL_REF n)).rate / 64 *
      65536).floor.toNat : Nat) : Rat) / 65536) * 64) = some p → s.laneSilent n p = false →
    (s.chain n).insts = [] → (s.chain n).entry = none →
    ∃ t, exec (.slot n tick) s = .next t ∧ (t.chain n).lastJ = some j ∧
      (t.chain n).insts = [⟨some p, .slot ⟨((j / (s.f Fld.FC_RS_CTL_SPT_M1 n + 1)) % 2 ^ 32).toNat,
        (j % (s.f Fld.FC_RS_CTL_SPT_M1 n + 1)).toNat,
        (s.trk (s.f Fld.FC_RS_CTL_REF n)).state == .coasting, (s.trk (s.f Fld.FC_RS_CTL_REF n)).locks⟩⟩] ∧
      t.chain n = { s.chain n with lastJ := some j, insts := (t.chain n).insts } ∧ Others n s.chain t.chain ∧
      t = { (s.atTick tick) with chains := t.chains }) ∧
  (∀ (s : State) (n : Nat) (w : DetWin) (hi lo : Int), n < s.part.numFC → (s.det n).closed = some w → 0 < w.n →
    w.n < 2 ^ 25 → w.sumsq < 2 ^ 64 * w.n → (s.det n).hi = some hi → (s.det n).lo = some lo →
    s.f Fld.FC_RS_CTL_OUTSEL n < 2 → s.fcMoves n = true →
    ∃ t, exec (.detWindowClose n) s = .next t ∧ t.f Fld.FC_DET_RMS n = Nat.sqrt (w.sumsq / w.n) ∧
      t.f Fld.FC_DET_PKMAX n = ofSigned 32 hi ∧ t.f Fld.FC_DET_PKMIN n = ofSigned 32 lo ∧
      t.f Fld.FC_DET_WSTAT_NS n = w.n ∧ t.on Fld.FC_DET_WSTAT_LONG n = w.long ∧
      t.f Fld.FC_DET_WIDX_LO n = w.first % 2 ^ 32 ∧ t.f Fld.FC_DET_WIDX_HI n = w.first / 2 ^ 32 % 2 ^ 16 ∧
      t.f Fld.FC_DET_WCNT n = (s.f Fld.FC_DET_WCNT n + 1) % 2 ^ 32 ∧
      t.on Fld.FC_RS_IRQ_WIN n = true ∧ (t.det n).closed = none ∧
      (t.det n).hi = (if s.on Fld.FC_DET_CTL_PK_RST n then none else some hi) ∧
      t.chain n = { s.chain n with det := t.det n } ∧ Others n s.chain t.chain ∧
      t = { s with chains := t.chains, regs := t.regs, freeCount := s.freeCount + 1 } ∧
      SameBut [Reg.FC_DET_RMS.addr n 0, Reg.FC_DET_PKMAX.addr n 0, Reg.FC_DET_PKMIN.addr n 0, Reg.FC_DET_WSTAT.addr n 0,
        Reg.FC_DET_WIDX_LO.addr n 0, Reg.FC_DET_WIDX_HI.addr n 0, Reg.FC_DET_WCNT.addr n 0, Reg.FC_RS_IRQ.addr n 0] s t)

/-- WM_ENABLE, WM_POWER_UP, WM_SETTLE, WM_CONDITION_WRITE, WM_RESOLVE and WM_DISABLE (R231, R234 to R237). That the level found
at power-up or settling is taken without an edge or a latch, and that a positive trim moves a switching point up, are the
model's reading (log entry 16). -/
def Obligations.MonitorsResolveAndSettle : Prop :=
  (∀ (s : State) (n : Nat), n < s.part.numWM → s.on Fld.WM_CTL_EN n = false →
    ∃ t, exec (.wmEnable n) s = .next t ∧ t.on Fld.WM_CTL_EN n = true ∧
      t.monitors = (s.setWm n { s.wm n with
        phase := .powerUp, held := [], resyncs := [],
        upper := ⟨s.on Fld.WM_CTL_INIT_U n, s.on Fld.WM_CTL_INIT_U n, false⟩,
        lower := ⟨s.on Fld.WM_CTL_INIT_L n, s.on Fld.WM_CTL_INIT_L n, false⟩ }).monitors ∧
      t = { s with monitors := t.monitors, regs := t.regs } ∧ SameBut [Reg.TWN_HSEQ.base, Reg.WM_CTL.addr n 0] s t) ∧
  (∀ (s : State) (n : Nat) (v : SenseIn), n < s.part.numWM → (s.wm n).phase = .powerUp →
    ∃ t, exec (.wmPowerUp n v) s = .next t ∧
      t = s.setWm n { s.wm n with
        phase := .live, upper := (s.wm n).upper.resolve (s.wmForced n v true),
        lower := (s.wm n).lower.resolve (s.wmForced n v false),
        resyncs := [] }) ∧
  (∀ (s : State) (n : Nat) (v : SenseIn), n < s.part.numWM → (s.wm n).phase = .settling →
    (s.wmBand n true).2 < s.sensed n v.pin - v.errU → (s.wmBand n false).2 < s.sensed n v.pin - v.errL →
    ∃ t, exec (.wmSettle n v) s = .next t ∧
      t = s.setWm n { s.wm n with phase := .live, upper := ⟨true, true, false⟩, lower := ⟨false, false, false⟩, resyncs := [] }) ∧
  (∀ (s : State) (n : Nat) (w : Word), n < s.part.numWM → s.on Fld.WM_CTL_EN n = true →
    ∃ t, exec (.wmConditionWrite n .thr w) s = .next t ∧
      t = ((s.setWord (Reg.WM_THR.addr n 0) (w &&& 0x03FF03FF)).setWm n { s.wm n with phase := .settling }).counted) ∧
  (∀ (s : State) (n stamp : Nat) (v : SenseIn), n < s.part.numWM → (s.wm n).phase = .live → (s.wm n).upper.unres = true →
    (s.wm n).lower.unres = false → s.wmForced n v true = some (s.wm n).upper.out →
    ∃ t, exec (.wmResolve n v stamp) s = .next t ∧
      t = (s.atTick (stamp / 64)).setWm n { s.wm n with upper := ⟨(s.wm n).upper.out, (s.wm n).upper.out, false⟩ }) ∧
  (∀ (s : State) (n : Nat), n < s.part.numWM → s.on Fld.WM_CTL_EN n = true →
    ∃ t, exec (.wmDisable n) s = .next t ∧ t.on Fld.WM_CTL_EN n = false ∧ (t.wm n).phase = .off ∧
      (t.wm n).upper = ⟨false, false, false⟩ ∧ (t.wm n).lower = ⟨false, false, false⟩ ∧
      t = { s with monitors := (s.setWm n (t.wm n)).monitors, regs := t.regs } ∧
      SameBut [Reg.TWN_HSEQ.base, Reg.WM_CTL.addr n 0] s t) ∧
  (∀ (s : State) (n : Nat) (v : SenseIn), n < s.part.numWM → (s.wm n).phase = .settling →
    (s.wmBand n true).1 ≤ s.sensed n v.pin - v.errU → s.sensed n v.pin - v.errU ≤ (s.wmBand n true).2 →
    s.sensed n v.pin - v.errL < (s.wmBand n false).1 →
    ∃ t, exec (.wmSettle n v) s = .next t ∧
      t = s.setWm n { s.wm n with
        phase := .live, upper := ⟨(s.wm n).upper.out, (s.wm n).upper.out, true⟩, lower := ⟨true, true, false⟩, resyncs := [] }) ∧
  (∀ (s : State) (n : Nat) (v : SenseIn), n < s.part.numWM → (s.wm n).phase = .settling →
    s.sensed n v.pin - v.errU < (s.wmBand n true).1 →
    (s.wmBand n false).1 ≤ s.sensed n v.pin - v.errL → s.sensed n v.pin - v.errL ≤ (s.wmBand n false).2 →
    ∃ t, exec (.wmSettle n v) s = .next t ∧
      t = s.setWm n { s.wm n with
        phase := .live, upper := ⟨false, false, false⟩, lower := ⟨(s.wm n).lower.out, (s.wm n).lower.out, true⟩, resyncs := [] }) ∧
  (∀ (s : State) (n : Nat) (w : Word), n < s.part.numWM → s.on Fld.WM_CTL_EN n = true →
    ∃ t, exec (.wmConditionWrite n .hys w) s = .next t ∧ t.f Fld.WM_HYS_HYS_U n = min 16 (w.bits 8 5) ∧
      t.f Fld.WM_HYS_HYS_L n = min 16 (w.bits 0 5) ∧ t.wm n = { s.wm n with phase := .settling } ∧ Others n s.wm t.wm ∧
      t = { s with monitors := t.monitors, regs := t.regs } ∧ SameBut [Reg.TWN_HSEQ.base, Reg.WM_HYS.addr n 0] s t) ∧
  (∀ (s : State) (n : Nat) (w : Word), n < s.part.numWM → s.on Fld.WM_CTL_EN n = true →
    s.on Fld.CAL_STAT_RUNNING = false →
    ∃ t, exec (.wmConditionWrite n .trim w) s = .next t ∧ t.word (Reg.WM_TRIM.addr n 0) = w &&& 0x00FF00FF ∧
      t.on Fld.CAL_STAT_DIRTY = true ∧ t.cal.marks = s.cal.marks.filter (fun e => e.1 != Reg.WM_TRIM.addr n 0) ∧
      t.wm n = { s.wm n with phase := .settling } ∧ Others n s.wm t.wm ∧
      t = { s with monitors := t.monitors, regs := t.regs, cal := { s.cal with marks := t.cal.marks } } ∧
      SameBut [Reg.TWN_HSEQ.base, Reg.WM_TRIM.addr n 0, Reg.CAL_STAT.base] s t) ∧
  (∀ (s : State) (n : Nat) (w : Word), n < s.part.numWM → s.on Fld.WM_CTL_EN n = true →
    s.mode.checksMatrix = false → s.underCheck (Reg.AP_CTL.addr n 0) = false →
    (apCtlStored w).1 ≠ s.word (Reg.AP_CTL.addr n 0) →
    ∃ t, exec (.wmConditionWrite n .port w) s = .next t ∧ t.word (Reg.AP_CTL.addr n 0) = (apCtlStored w).1 ∧
      t.wm n = { s.wm n with phase := .settling } ∧ Others n s.wm t.wm ∧
      t = { s with monitors := t.monitors, regs := t.regs } ∧
      SameBut [Reg.TWN_HSEQ.base, Reg.AP_CTL.addr n 0, Reg.AP_STAT.addr n 0] s t)

/-- COMPARATOR_EDGE, EDGE_DELIVERY, BLANK_OPEN, BLANK_CLOSE and PERIOD_CLEAR (R238 to R240, R242 to R244). That the outputs
take the raw levels only once the edges stamped before a close have gone is the model's reading (log entry 16); the order of
rows that meet in one tick is its choice (log entry 15). -/
def Obligations.EdgesAreHeldBlankedOrDelivered : Prop :=
  (∀ (s : State) (n stamp : Nat) (v : SenseIn), n < s.part.numWM → (s.wm n).phase = .live → s.lclk = true →
    s.on Fld.WM_BLANK_EN n = true → (s.wm n).upper.unres = false → (s.wm n).lower.unres = false →
    s.wmForced n v true = some (!(s.wm n).upper.raw) →
    s.wmForced n v false = none →
    ∃ t, exec (.comparatorEdge n v stamp) s = .next t ∧
      t = (s.atTick (stamp / 64)).setWm n { s.wm n with
        upper := { (s.wm n).upper with raw := !(s.wm n).upper.raw },
        held := (s.wm n).held ++ [⟨stamp, true, !(s.wm n).upper.raw⟩] }) ∧
  (∀ (s : State) (n : Nat) (e : WmEdge) (rest : List WmEdge), n < s.part.numWM → s.lclk = true → (s.wm n).held = e :: rest →
    (s.wm n).phase = .live → (s.wm n).blanks e.stamp = false → e.upper = true → e.level = true →
    (s.wm n).upper.out = false → (s.wm n).resyncs = [] →
    ∃ t, exec (.edgeDelivery n) s = .next t ∧ (t.wm n).upper.out = true ∧ (t.wm n).held = rest ∧
      t.on Fld.WM_LATCH_UHIT n = true ∧ t.f Fld.WM_CNT_HITS n = (s.f Fld.WM_CNT_HITS n + 1) % 65536) ∧
  (∀ (s : State) (n : Nat) (e : WmEdge) (rest : List WmEdge), n < s.part.numWM → s.lclk = true → (s.wm n).held = e :: rest →
    (s.wm n).phase = .live → (s.wm n).blanks e.stamp = true → (s.wm n).resyncs = [] →
    ∃ t, exec (.edgeDelivery n) s = .next t ∧
      t = ((s.atTick (e.stamp / 64 + 48)).setWm n { s.wm n with held := rest }).setF Fld.WM_CNT_BLANKED
        (min (s.f Fld.WM_CNT_BLANKED n + 1) 255) n) ∧
  (∀ (s : State) (n : Nat) (r : FiringRec), n < s.part.numWM → headBit 5 (s.wm n).inbox = some r →
    s.on Fld.WM_BLANK_EN n = true →
    (s.wm n).blanked = false →
    ∃ t, exec (.blankOpen n) s = .next t ∧ (t.wm n).blanked = true ∧
      (t.wm n).windows.getLast? = some ⟨r.instant, none⟩ ∧ t = s.setWm n (t.wm n)) ∧
  (∀ (s : State) (n : Nat) (r : FiringRec), n < s.part.numWM → headBit 6 (s.wm n).inbox = some r → (s.wm n).blanked = true →
    (s.wm n).phase = .live → (s.wm n).upper.unres = false → (s.wm n).lower.unres = false →
    (s.wm n).held.all (fun e => decide (r.instant ≤ (e.stamp : Rat))) = true →
    ∃ t, exec (.blankClose n) s = .next t ∧ (t.wm n).blanked = false ∧
      (t.wm n).upper = { (s.wm n).upper with out := (s.wm n).rawAt true r.instant } ∧
      (t.wm n).lower = { (s.wm n).lower with out := (s.wm n).rawAt false r.instant } ∧
      (t.wm n).held = (s.wm n).held ∧ (t.wm n).resyncs = (s.wm n).resyncs ∧ t = s.setWm n (t.wm n)) ∧
  (∀ (s : State) (n : Nat) (r : FiringRec), n < s.part.numWM → headBit 6 (s.wm n).inbox = some r → (s.wm n).blanked = true →
    (s.wm n).held.any (fun e => decide ((e.stamp : Rat) < r.instant)) = true →
    ∃ t, exec (.blankClose n) s = .next t ∧ (t.wm n).blanked = false ∧ (t.wm n).upper = (s.wm n).upper ∧
      (t.wm n).lower = (s.wm n).lower ∧ (t.wm n).resyncs = (s.wm n).resyncs ++ [r.instant] ∧ t = s.setWm n (t.wm n)) ∧
  (∀ (s : State) (n : Nat) (r : FiringRec), n < s.part.numWM → headBit pclrBit (s.wm n).inbox = some r →
    (s.wm n).latchBefore true r.tick = none → (s.wm n).latchBefore false r.tick = none →
    ∃ t, exec (.periodClear n) s = .next t ∧ t.f Fld.WM_LATCH_PREV_U n = s.f Fld.WM_LATCH_UHIT n ∧
      t.f Fld.WM_LATCH_PREV_L n = s.f Fld.WM_LATCH_LHIT n ∧ t.f Fld.WM_LATCH_UHIT n = 0 ∧ t.f Fld.WM_LATCH_LHIT n = 0 ∧
      t = { s with monitors := (s.setWm n { s.wm n with inbox := takeBit pclrBit (s.wm n).inbox }).monitors, regs := t.regs,
                   host := { s.host with vecs := t.host.vecs } } ∧
      SameBut [Reg.WM_LATCH.addr n 0] s t) ∧
  (∀ (s : State) (n : Nat) (r : FiringRec) (was : Bool), n < s.part.numWM → headBit pclrBit (s.wm n).inbox = some r →
    (s.wm n).latchBefore true r.tick = some was → (s.wm n).latchBefore false r.tick = none →
    ∃ t, exec (.periodClear n) s = .next t ∧ t.on Fld.WM_LATCH_PREV_U n = was ∧
      t.on Fld.WM_LATCH_UHIT n = (replayLatch true r.tick (s.wm n).latchLog false).2 ∧
      t.f Fld.WM_LATCH_PREV_L n = s.f Fld.WM_LATCH_LHIT n ∧ t.f Fld.WM_LATCH_LHIT n = 0 ∧
      Others n s.wm t.wm ∧ t = { s with monitors := t.monitors, regs := t.regs, host := { s.host with vecs := t.host.vecs } } ∧
      SameBut [Reg.WM_LATCH.addr n 0] s t)

/-- DA_ENABLE, DA_GO, DA_STOP, SEG_START and SEGMENT_END (R251 to R255). That DAd_LASTS takes the tick of an accepted firing
already when its record arrives is the model's inference (log entry 27). -/
def Obligations.DacsStartAndStop : Prop :=
  (∀ (s : State) (d : Nat), d < s.part.numDA → s.sclk d = true → s.on Fld.DA_CTL_EN d = false →
    ∃ t, exec (.daEnable d true) s = .next t ∧ t.on Fld.DA_CTL_EN d = true ∧ (t.dac d).fifo = [] ∧ (t.dac d).debt = 0 ∧
      t.f Fld.DA_UNDW d = 0 ∧ t.f Fld.DA_SKIPW d = 0 ∧ (t.dac d).st = (s.dac d).st ∧
      (t.dac d).pattern = (s.dac d).pattern ∧ Others d s.dac t.dac ∧ (t.feed (feedDA d)).inq = [] ∧
      Others (feedDA d) s.feed t.feed ∧ t = { s with dacs := t.dacs, feeds := t.feeds, regs := t.regs } ∧
      SameBut [Reg.TWN_HSEQ.base, Reg.DA_CTL.addr d 0, Reg.DA_UNDW.addr d 0, Reg.DA_SKIPW.addr d 0] s t) ∧
  (∀ (s : State) (d : Nat), d < s.part.numDA → s.sclk d = true → s.on Fld.DA_CTL_EN d = true →
    ∃ t, exec (.daEnable d false) s = .next t ∧ t.on Fld.DA_CTL_EN d = false ∧ (t.dac d).st = .idle ∧ (t.dac d).fifo = [] ∧
      (t.dac d).pattern = (s.dac d).pattern ∧ Others d s.dac t.dac ∧ t = { s with dacs := t.dacs, regs := t.regs } ∧
      SameOutside (fun a => within (0x520000 + 0x100 * d) (0x520100 + 0x100 * d) a || a == Reg.TWN_HSEQ.base) s t) ∧
  (∀ (s : State) (d : Nat), d < s.part.numDA → s.sclk d = true → s.on Fld.DA_CTL_EN d = true → (s.dac d).st = .idle →
    ∃ t, exec (.daGo d) s = .next t ∧ (t.dac d).seg.entry = s.f Fld.DA_CTL_FIRST d ∧
      (t.dac d).st = (if s.on Fld.DA_SEG_CFG_WAIT d (s.f Fld.DA_CTL_FIRST d) then .wait else .play) ∧
      t.f Fld.DA_EVCNT_SEGS d = (if s.on Fld.DA_SEG_CFG_WAIT d (s.f Fld.DA_CTL_FIRST d) then s.f Fld.DA_EVCNT_SEGS d
        else (s.f Fld.DA_EVCNT_SEGS d + 1) % 65536) ∧
      (t.dac d).fifo = (s.dac d).fifo ∧ Others d s.dac t.dac ∧ t = { s with dacs := t.dacs, regs := t.regs } ∧
      SameBut [Reg.TWN_HSEQ.base, Reg.DA_EVCNT.addr d 0] s t) ∧
  (∀ (s : State) (d : Nat), d < s.part.numDA → s.sclk d = true → (s.dac d).seg.ended = false → (s.dac d).undo = none →
    ∃ t, exec (.daStop d) s = .next t ∧
      t = (s.setDac d { s.dac d with st := .idle, startEdge := none, undo := none, resume := false }).counted) ∧
  (∀ (s : State) (d : Nat) (r : FiringRec) (p : Rat), d < s.part.numDA → headBit 4 (s.dac d).inbox = some r →
    (s.dac d).st = .wait → s.samplePos r.instant = some p →
    ∃ t, exec (.segStart d) s = .next t ∧ (t.dac d).st = .play ∧ (t.dac d).seg = s.readSeg d (s.dac d).seg.entry ∧
      (t.dac d).startEdge = some (2 * ((p + 80) / 2 + 1 / 2).floor.toNat) ∧
      t.f Fld.DA_LASTS d = s.edgeTick (2 * ((p + 80) / 2 + 1 / 2).floor.toNat) s.lcs.time % 2 ^ 32 ∧
      t.f Fld.DA_EVCNT_SEGS d = (s.f Fld.DA_EVCNT_SEGS d + 1) % 65536 ∧ (t.dac d).fifo = (s.dac d).fifo ∧
      Others d s.dac t.dac ∧ t = { s with dacs := t.dacs, regs := t.regs } ∧
      SameBut [Reg.DA_EVCNT.addr d 0, Reg.DA_LASTS.addr d 0] s t) ∧
  (∀ (s : State) (d : Nat) (r : FiringRec), d < s.part.numDA → headBit 4 (s.dac d).inbox = some r →
    (s.dac d).st ≠ .wait → (s.dac d).seg.ended = false →
    ∃ t, exec (.segStart d) s = .next t ∧
      t.dacs = (s.setDac d { s.dac d with inbox := takeBit 4 (s.dac d).inbox }).dacs ∧
      t.f Fld.DA_EVCNT_SEG_DROP d = min (s.f Fld.DA_EVCNT_SEG_DROP d + 1) 255 ∧ t.on Fld.DA_IRQ_SEG_DROP d = true ∧
      t = { s with dacs := t.dacs, regs := t.regs } ∧ SameBut [Reg.DA_EVCNT.addr d 0, Reg.DA_IRQ.addr d 0] s t) ∧
  (∀ (s : State) (d : Nat), d < s.part.numDA → (s.dac d).st = .play → (s.dac d).seg.ended = true →
    ∃ t, exec (.segmentEnd d) s = .next t ∧ (t.dac d).seg.entry = (s.dac d).seg.next ∧
      (t.dac d).st = (if s.on Fld.DA_SEG_CFG_WAIT d (s.dac d).seg.next then .wait else .play) ∧
      t.on Fld.DA_IRQ_SEG_END d = (s.on Fld.DA_IRQ_SEG_END d || (s.dac d).seg.eirq) ∧ (t.dac d).fifo = (s.dac d).fifo ∧
      Others d s.dac t.dac ∧ t = { s with dacs := t.dacs, regs := t.regs } ∧
      SameBut [Reg.DA_EVCNT.addr d 0, Reg.DA_IRQ.addr d 0] s t)

/-- DAC_SAMPLE, UNDERRUN and PDATA (R248, R251, R254 to R256). That DAC_SAMPLE is one SCLK edge with two samples, and that
the row UNDERRUN reports the underruns of the edge before, is the model's choice (log entry 28). -/
def Obligations.DacsPlay : Prop :=
  (∀ (s : State) (d e tick n : Nat), d < s.part.numDA → s.sclk d = true → s.mode.converts = true →
    (s.feed (feedDA d)).inq = [] → (s.dac d).resume = false → (s.dac d).st = .play → (s.dac d).startEdge = none →
    (s.dac d).seg.ended = false → (s.dac d).seg.stream = false → (s.dac d).seg.len = some n →
    (s.dac d).seg.pos + 2 < n → (s.dac d).recent = [] →
    ∃ t, exec (.dacSample d e tick) s = .next t ∧
      (t.dac d).out = Tab.get (fun _ => 0) (s.dac d).pattern (((s.dac d).seg.start + (s.dac d).seg.pos + 1) % 65536) ∧
      (t.dac d).last = (t.dac d).out ∧ (t.dac d).seg = { (s.dac d).seg with begun := true, pos := (s.dac d).seg.pos + 2 } ∧
      (t.dac d).st = .play ∧ (t.dac d).fifo = (s.dac d).fifo ∧ (t.dac d).edges = (s.dac d).edges + 1 ∧
      Others d s.dac t.dac ∧
      t = { (s.atTick tick) with dacs := t.dacs, feeds := t.feeds, cabs := t.cabs, rings := t.rings, regs := t.regs } ∧
      SameBut (dacRegs d ++ deliveryRegs s) s t ∧
      (s.f Fld.DA_SRC_SRC d = 0 → t.feeds = s.feeds ∧ t.cabs = s.cabs ∧ t.rings = s.rings ∧
        ((s.dac d).seg.begun = true → t.f Fld.DA_LASTS d = s.f Fld.DA_LASTS d) ∧
        SameBut (dacRegs d) s t)) ∧
  (∀ (s : State) (d e tick a b : Nat) (rest : List Nat), d < s.part.numDA → s.sclk d = true → s.mode.converts = true →
    (s.feed (feedDA d)).inq = [] → (s.dac d).resume = false → (s.dac d).st = .play → (s.dac d).startEdge = none →
    (s.dac d).seg.ended = false → (s.dac d).seg.stream = true → (s.dac d).seg.len = none → (s.dac d).debt = 0 →
    (s.dac d).fifo = a :: b :: rest →
    ∃ t, exec (.dacSample d e tick) s = .next t ∧ (t.dac d).out = b ∧ (t.dac d).last = b ∧ (t.dac d).fifo = rest ∧
      (t.dac d).debt = 0 ∧ (t.dac d).under = false ∧ (t.dac d).st = .play ∧ (t.dac d).pattern = (s.dac d).pattern ∧
      Others d s.dac t.dac ∧
      t = { (s.atTick tick) with dacs := t.dacs, feeds := t.feeds, cabs := t.cabs, rings := t.rings, regs := t.regs } ∧
      SameBut (dacRegs d ++ deliveryRegs s) s t ∧
      (s.f Fld.DA_SRC_SRC d = 0 → t.feeds = s.feeds ∧ t.cabs = s.cabs ∧ t.rings = s.rings ∧ SameBut (dacRegs d) s t)) ∧
  (∀ (s : State) (d e tick : Nat), d < s.part.numDA → s.sclk d = true → s.mode.converts = true →
    (s.feed (feedDA d)).inq = [] → (s.dac d).resume = false → (s.dac d).st = .play → (s.dac d).startEdge = none →
    (s.dac d).seg.ended = false → (s.dac d).seg.stream = true → (s.dac d).seg.len = none → (s.dac d).fifo = [] →
    ∃ t, exec (.dacSample d e tick) s = .next t ∧
      (t.dac d).out = (if s.on Fld.DA_CTL_UNDHOLD d then (s.dac d).last else s.f Fld.DA_IDLE_CODE d) ∧
      (t.dac d).debt = (s.dac d).debt + 2 ∧ (t.dac d).undNew = 2 ∧
      (t.dac d).undRuns = (if (s.dac d).under then 0 else 1) ∧ (t.dac d).under = true ∧ (t.dac d).st = .play ∧
      (t.dac d).fifo = [] ∧ (t.dac d).pattern = (s.dac d).pattern ∧
      Others d s.dac t.dac ∧
      t = { (s.atTick tick) with dacs := t.dacs, feeds := t.feeds, cabs := t.cabs, rings := t.rings, regs := t.regs } ∧
      SameBut (dacRegs d ++ deliveryRegs s) s t ∧
      (s.f Fld.DA_SRC_SRC d = 0 → t.feeds = s.feeds ∧ t.cabs = s.cabs ∧ t.rings = s.rings ∧ SameBut (dacRegs d) s t)) ∧
  (∀ (s : State) (d : Nat), d < s.part.numDA → (s.dac d).undRuns ≠ 0 →
    ∃ t, exec (.underrun d) s = .next t ∧ t.f Fld.DA_UNDW d = (s.f Fld.DA_UNDW d + (s.dac d).undNew) % 2 ^ 32 ∧
      t.f Fld.DA_EVCNT_UNDRUN d = min (s.f Fld.DA_EVCNT_UNDRUN d + (s.dac d).undRuns) 255 ∧
      t.on Fld.DA_IRQ_UNDERRUN d = true ∧
      t.dacs = (s.setDac d { s.dac d with undNew := 0, undRuns := 0 }).dacs ∧ t = { s with dacs := t.dacs, regs := t.regs } ∧
      SameBut [Reg.DA_UNDW.addr d 0, Reg.DA_EVCNT.addr d 0, Reg.DA_IRQ.addr d 0] s t) ∧
  (∀ (s : State) (d : Nat) (w : Word), d < s.part.numDA → s.sclk d = true →
    ∃ t, exec (.pdata d (.write w)) s = .next t ∧
      Tab.get (fun _ => 0) (t.dac d).pattern (s.f Fld.DA_PADDR d) = w.toNat % 65536 ∧
      t.dac d = { s.dac d with pattern := (t.dac d).pattern, recent := (t.dac d).recent } ∧
      t.f Fld.DA_PADDR d = (s.f Fld.DA_PADDR d + 1) % 65536 ∧ Others d s.dac t.dac ∧
      t = { s with dacs := t.dacs, regs := t.regs } ∧ SameBut [Reg.TWN_HSEQ.base, Reg.DA_PADDR.addr d 0] s t) ∧
  (∀ (s : State) (d : Nat), d < s.part.numDA → s.sclk d = true →
    Tab.get (fun _ => 0) (s.dac d).pattern (s.f Fld.DA_PADDR d) < 65536 →
    ∃ t, exec (.pdata d .read) s = .next t ∧
      t.readData.toNat = Tab.get (fun _ => 0) (s.dac d).pattern (s.f Fld.DA_PADDR d) ∧
      t.f Fld.DA_PADDR d = (s.f Fld.DA_PADDR d + 1) % 65536 ∧ t = { s with readData := t.readData, regs := t.regs } ∧
      SameBut [Reg.DA_PADDR.addr d 0] s t)

/-- CAL_RUN and TEMP_CONVERSION (R267 to R271, R274). Which fields are written when the command is taken and which at its
completion is the model's reading (log entry 19). -/
def Obligations.CalibrationRuns : Prop :=
  (∀ (s : State) (tag n : Nat) (m : CalMeas) (up lo : List (Int × Int)) (vu vl : Int), s.takes = true → s.standby = false →
    s.mode = .bench → n < s.part.numWM → s.on Fld.WM_CTL_EN n = false → m.steps = [up, lo] → calStep 1 up = some vu →
    calStep 1 lo = some vl → m.res < 65536 →
    ∃ t, exec (.calRun tag [6, BitVec.ofNat 32 n, BitVec.ofNat 32 n] [m]) s = .next t ∧
      t.f Fld.WM_TRIM_OFS_U n = ofSigned 8 vu ∧ t.f Fld.WM_TRIM_OFS_L n = ofSigned 8 vl ∧
      t.cal.marks.contains (Reg.WM_TRIM.addr n 0, Fld.WM_TRIM_OFS_U.lo) = false ∧
      t.cal.marks.contains (Reg.WM_TRIM.addr n 0, Fld.WM_TRIM_OFS_L.lo) = false ∧
      t.on Fld.CAL_STAT_RUNNING = true ∧ t.on Fld.CAL_STAT_DIRTY = true ∧
      t.bur.job = some { Job.init with
        results := [(Reg.CAL_RUNCNT.base, 131072), (Reg.CAL_DIS_FIRST.base, 0),
          (Reg.CAL_Q.addr 2 0, BitVec.ofNat 32 (65536 * n + m.res))], always := true } ∧
      t = { s with regs := t.regs, cal := t.cal, bur := { s.bur with mirrored := false, job := t.bur.job } } ∧
      SameBut (Reg.WM_TRIM.addr n 0 :: Reg.CAL_STAT.base :: transportRegs) s t) ∧
  (∀ (s : State) (tag n : Nat) (m : CalMeas) (up : List (Int × Int)), s.takes = true → s.standby = false →
    s.mode = .bench → n < s.part.numWM → s.on Fld.WM_CTL_EN n = false → m.steps = [up, up] → calStep 1 up = none →
    ∃ t, exec (.calRun tag [6, BitVec.ofNat 32 n, BitVec.ofNat 32 n] [m]) s = .next t ∧
      t.word (Reg.WM_TRIM.addr n 0) = s.word (Reg.WM_TRIM.addr n 0) ∧
      t.cal.marks.contains (Reg.WM_TRIM.addr n 0, Fld.WM_TRIM_OFS_U.lo) = true ∧
      t.cal.marks.contains (Reg.WM_TRIM.addr n 0, Fld.WM_TRIM_OFS_L.lo) = true ∧
      t.bur.job.map (·.status) = some stDisagree) ∧
  (∀ (s : State) (tag : Nat) (cls first last : Word), s.takes = true → s.standby = false → s.mode = .bench →
    2 ≤ cls.bits 0 3 → last < first → first.toNat < 2 →
    ∃ t, exec (.calRun tag [cls, first, last] []) s = .next t ∧ t.bur.job.map (·.status) = some stBadArg ∧
      t = { s with regs := t.regs, bur := { s.bur with mirrored := false, job := t.bur.job } } ∧ SameBut transportRegs s t) ∧
  (∀ (s : State) (k : Nat) (raw : Int), k < 8 → s.mode ≠ .reset → s.mode ≠ .slumber → s.pwr.resense.contains k = false →
    ∃ t, exec (.tempConversion k raw) s = .next t ∧ t.on Fld.CAL_TS_VALID k = true ∧
      t.f Fld.CAL_TS_TEMP k = ofSigned 16 (satSigned 16 (raw + toSigned 8 (s.f Fld.CAL_TS_TRIM_OFS k))) ∧
      t = { s with regs := t.regs } ∧ SameBut [Reg.CAL_TS.addr k 0] s t) ∧
  (∀ (s : State) (raw : Int), s.mode = .slumber →
    ∃ t, exec (.tempConversion 6 raw) s = .next t ∧ t.on Fld.CAL_TS_VALID 6 = true) ∧
  (∀ (s : State) (k g sl : Nat) (raw : Int), k < 8 → s.mode ≠ .reset → s.mode ≠ .slumber → s.pwr.resense.contains k = true →
    s.bur.running = true → g < s.part.numCG → g / 6 = k → s.rotst g = 0 →
    ((s.setF Fld.CAL_TS_TEMP (ofSigned 16 (satSigned 16 (raw + toSigned 8 (s.f Fld.CAL_TS_TRIM_OFS k)))) k).setF
      Fld.CAL_TS_VALID 1 k).driftSlice g = some sl →
    ∃ t, exec (.tempConversion k raw) s = .next t ∧ t.on Fld.CAL_TS_VALID k = true ∧ t.rotst g = 1 ∧
      (t.rot g).chosen = some sl ∧ t.pwr.resense.contains k = false)

/-- CAL_COMMIT, its completion, CAL_EXPORT and CAL_IMPORT (R275 to R278, R280, R281). That the record is signed when the
command is taken and becomes the stored set at completion is the model's reading (log entry 20). -/
def Obligations.CalibrationStore : Prop :=
  (∀ (s : State) (tag : Nat), s.takes = true → s.standby = false → s.mode = .bench →
    (s.on Fld.CAL_STORE_VALID = true → s.on Fld.CAL_STORE_EXPORTED = true) → s.f Fld.CAL_STAT_NDIS = 0 →
    s.keyIdx + 1 < 2 ^ 40 → s.keysUsed = false →
    ∃ t, exec (.calCommit tag [BitVec.ofNat 32 (s.f Fld.CAL_STORE_SEQ)]) s = .next t ∧ t.keyIdx = s.keyIdx + 1 ∧
      (t.bur.job.bind (·.commit)).map (·.seq) = some ((s.f Fld.CAL_STORE_SEQ + 1) % 65536) ∧
      (t.bur.job.bind (·.commit)).map (·.temp) = some (s.f Fld.CAL_TS_TEMP 7) ∧
      t.bur.job.map (·.status) = some stOk ∧ t.cal = s.cal ∧ t.word Reg.CAL_STORE.base = s.word Reg.CAL_STORE.base ∧
      t = { s with regs := t.regs, bur := t.bur }) ∧
  (∀ (s : State) (tag : Nat) (seq : Word), s.takes = true → s.standby = false → s.mode = .bench →
    seq.bits 0 16 ≠ s.f Fld.CAL_STORE_SEQ →
    ∃ t, exec (.calCommit tag [seq]) s = .next t ∧ t.bur.job = some { Job.init with status := stBadArg } ∧
      t.f Fld.CAL_STAT_CMT_WHY = 1 ∧ t = { s with regs := t.regs, bur := { s.bur with mirrored := false, job := t.bur.job } } ∧
      SameBut (Reg.CAL_STAT.base :: transportRegs) s t) ∧
  (∀ (s : State) (tag : Nat), s.takes = true → s.standby = false → s.mode = .bench →
    s.on Fld.CAL_STORE_VALID = true → s.on Fld.CAL_STORE_EXPORTED = false →
    ∃ t, exec (.calCommit tag [BitVec.ofNat 32 (s.f Fld.CAL_STORE_SEQ)]) s = .next t ∧
      t.bur.job = some { Job.init with status := stBadArg } ∧ t.f Fld.CAL_STAT_CMT_WHY = 2 ∧
      t = { s with regs := t.regs, bur := { s.bur with mirrored := false, job := t.bur.job } } ∧
      SameBut (Reg.CAL_STAT.base :: transportRegs) s t) ∧
  (∀ (s : State) (j : Job) (c : CalSet) (p : Option Nat), s.bur.running = true → s.bur.job = some j → j.status = stOk →
    j.out = none → j.need = 0 → j.commit = some c → j.results = [] → c.seq < 65536 →
    ∃ t, exec (.commandComplete p) s = .next t ∧ t.cal.store = some c ∧ t.f Fld.CAL_STORE_SEQ = c.seq ∧
      t.on Fld.CAL_STORE_VALID = true ∧ t.on Fld.CAL_STORE_EXPORTED = false ∧ t.on Fld.CAL_STAT_DIRTY = false ∧
      t.bur.job = none ∧ t.on Fld.BUR_STATUS_DONE = true ∧ t.f Fld.BUR_STATUS_STATUS = stOk) ∧
  (∀ (s : State) (tag r : Nat) (c : CalSet), s.takes = true → s.standby = false → s.mode = .bench → r < 4096 →
    s.admitted r = true → s.downstream r = false → s.f Fld.DMA_CFG_SRC r = 0 → s.cal.store = some c →
    s.on Fld.CAL_STORE_VALID = true →
    ∃ t, exec (.calExport tag [BitVec.ofNat 32 r]) s = .next t ∧
      t.bur.job.map (·.out) = some (some r) ∧ t.bur.job.map (·.status) = some stOk ∧
      t.feeds = (s.setFeed (feedRing r) { src := 0, inq := bulkWords (s.recordBytes c), fresh := false }).feeds ∧
      t.cal = s.cal ∧ t.word Reg.CAL_STORE.base = s.word Reg.CAL_STORE.base ∧
      t = { s with feeds := t.feeds, rings := t.rings, regs := t.regs, bur := { s.bur with mirrored := false, job := t.bur.job } } ∧
      SameBut transportRegs s t) ∧
  (∀ (s : State) (tag r : Nat), s.takes = true → s.standby = false → s.mode = .bench → r < 4096 →
    s.admitted r = true → s.downstream r = true →
    ∃ t, exec (.calImport tag [BitVec.ofNat 32 r, BitVec.ofNat 32 (recordLength s.part)]) s = .next t ∧
      t.bur.job = some { Job.init with need := recordLength s.part } ∧ t.bur.bulkIn = some r ∧
      (t.feed feedBur).src = downCode r ∧ t.cal = s.cal) ∧
  (∀ (s : State) (tag : Nat), s.takes = true → s.standby = false → s.mode = .bench →
    (s.on Fld.CAL_STORE_VALID = true → s.on Fld.CAL_STORE_EXPORTED = true) → s.f Fld.CAL_STAT_NDIS = 0 → s.keysUsed = true →
    ∃ t, exec (.calCommit tag [BitVec.ofNat 32 (s.f Fld.CAL_STORE_SEQ)]) s = .next t ∧
      t.bur.job = some { Job.init with status := stAuthFail } ∧
      t = { s with regs := t.regs, bur := { s.bur with mirrored := false, job := t.bur.job } } ∧ SameBut transportRegs s t)

/-- CELL_CLOCK, CLKEN_WRITE, FPLL_M_WRITE, FPLL_LOCK, PEEK_DATA (R289, R299, R307, R309, R313, R485). That one row CELL_CLOCK
names the clocks whose edges coincide and the pin levels, and that every cabinet acts on the state before the edge, is the
model's choice (log entry 29). -/
def Obligations.FabricClocksAndPeek : Prop :=
  (∀ (s : State) (mask pins k i : Nat), k < s.part.numCB → i < 256 → s.cbRuns k = true →
    (s.liveCells k).contains i = true → (mask % 256).testBit (s.cellCfg k i).clksel = true →
    s.gclkRuns (s.cellCfg k i).clksel = true → Tab.wf (fun _ => FabCell.init) s.fcells = true →
    (s.cabs.all fun e => e.2.ins.all (fun p => !p.taking) && e.2.outs.all fun q => q.offer.isNone) = true →
    ∃ t, exec (.cellClock mask pins) s = .next t ∧
      t.fcell k i = ({ s with dio := { s.dio with levels := pins % 2 ^ 256 } } : State).cellClocked k i ∧
      t.dio.levels = pins % 2 ^ 256 ∧
      t = { s with dio := t.dio, cabs := t.cabs, fcells := t.fcells, lines := t.lines, frqs := t.frqs, feeds := t.feeds,
                   rings := t.rings, regs := t.regs, freeCount := s.freeCount + 1 }) ∧
  (∀ (s : State) (mask pins k i : Nat), k < s.part.numCB → i < 256 →
    s.clockEdge (mask % 256) (s.cellCfg k i).clksel = false → Tab.wf (fun _ => FabCell.init) s.fcells = true →
    ∃ t, exec (.cellClock mask pins) s = .next t ∧ t.fcell k i = s.fcell k i) ∧
  (∀ (s : State) (k : Nat) (on : Bool), k < s.part.numCB → (s.mode = .run ∨ s.mode = .partialRun) → s.isolated k = false →
    ∃ t, exec (.clkenWrite k on) s = .next t ∧ t.on Fld.FAB_CTL_CLKEN k = on ∧ t = { s with regs := t.regs } ∧
      SameBut [Reg.TWN_HSEQ.base, Reg.FAB_CTL.addr k 0] s t) ∧
  (∀ (s : State) (k : Nat) (on : Bool), k < s.part.numCB → s.isolated k = true → s.on Fld.FAB_CTL_CLKEN k ≠ on →
    ∃ t, exec (.clkenWrite k on) s = .next t ∧ t = (s.flag Fld.FAB_CSTAT_WR_IGN k).counted) ∧
  (∀ (s : State) (m : Nat), m < 64 → s.mode = .blank → s.f Fld.FAB_FPLL_M ≠ max 24 (min 48 m) →
    ∃ t, exec (.fpllMWrite m) s = .next t ∧ t.f Fld.FAB_FPLL_M = max 24 (min 48 m) ∧ t.on Fld.FAB_FPLL_LOCK = false ∧
      t = { s with regs := t.regs } ∧
      SameBut (Reg.TWN_HSEQ.base :: (Reg.FAB_FPLL.base :: (List.range 8).map fun i => Reg.FAB_GCLK.addr i 0)) s t) ∧
  (∀ (s : State) (m : Nat), m < 64 → s.mode ≠ .blank → s.f Fld.FAB_FPLL_M ≠ max 24 (min 48 m) →
    ∃ t, exec (.fpllMWrite m) s = .next t ∧ t = (s.flag Fld.FAB_STAT_WR_IGN).counted) ∧
  (∀ s : State, s.mode ≠ .reset → ∃ t, exec .fpllLock s = .next t ∧ t = s.flag Fld.FAB_FPLL_LOCK ∧
    t.on Fld.FAB_FPLL_LOCK = true) ∧
  (∀ (s : State) (k : Nat), k < s.part.numCB → s.cbRuns k = false → (s.f Fld.BUR_TAINT).testBit k = false →
    s.f Fld.FAB_PEEK_SEL_ITEM k = 4 → (s.fcell k (s.f Fld.FAB_PEEK_SEL_CELL k)).ow < 65536 →
    ∃ t, exec (.peekData k) s = .next t ∧ t.readData.toNat = (s.fcell k (s.f Fld.FAB_PEEK_SEL_CELL k)).ow ∧
      t = { s with readData := t.readData }) ∧
  (∀ (s : State) (k : Nat), k < s.part.numCB → (s.f Fld.BUR_TAINT).testBit k = true →
    ∃ t, exec (.peekData k) s = .next t ∧ t.readData = 0 ∧ t.on Fld.FAB_CSTAT_PEEK_ERR k = true ∧
      t = { s with readData := 0, regs := t.regs } ∧ SameBut [Reg.FAB_CSTAT.addr k 0] s t) ∧
  (∀ (s : State) (k : Nat), k < s.part.numCB → s.cbRuns k = true →
    ∃ t, exec (.peekData k) s = .next t ∧ t.readData = 0 ∧ t.on Fld.FAB_CSTAT_PEEK_ERR k = true ∧
      t = { s with readData := 0, regs := t.regs } ∧ SameBut [Reg.FAB_CSTAT.addr k 0] s t) ∧
  (∀ (s : State) (k v : Nat), k < s.part.numCB → s.cbRuns k = false → (s.f Fld.BUR_TAINT).testBit k = false →
    s.f Fld.FAB_PEEK_SEL_ITEM k < 4 →
    (s.fcell k (s.f Fld.FAB_PEEK_SEL_CELL k)).w[s.f Fld.FAB_PEEK_SEL_ITEM k]? = some v →
    ∃ t, exec (.peekData k) s = .next t ∧ t = { s with readData := BitVec.ofNat 32 v }) ∧
  (∀ (s : State) (k : Nat) (c : FabCell), k < s.part.numCB → s.cbRuns k = false → (s.f Fld.BUR_TAINT).testBit k = false →
    s.f Fld.FAB_PEEK_SEL_ITEM k = 5 → s.fcell k (s.f Fld.FAB_PEEK_SEL_CELL k) = c →
    ∃ t, exec (.peekData k) s = .next t ∧
      t = { s with readData := BitVec.ofNat 32 (256 * c.index + (if c.c then 16 else 0) + (if c.t then 8 else 0) +
        (if c.v then 4 else 0) + (if c.n then 2 else 0) + (if c.z then 1 else 0)) })

/-- FP_INPUT_WORD, FP_INPUT_GROUP_TAKE, FP_OUTPUT_WORD, AGENT_POST, AGENT_TAKE, AGENT_DBCLR, PROBE_SAMPLE, VCCIO_CHANGE,
DIO_PIN_CFG_WRITE (R316 to R318, R321, R324, R328, R331, R432, R435, R528). That an output word passes on at once where no
consumer holds it, that the oldest word waiting is the one a row takes, and the turns of the agent ports, are the model's choice
(log entries 29, 31 and 44); what the standby's ports do with the primary's choice is R528, taken at the row as log entry 41
says. -/
def Obligations.BoundaryAndPins : Prop :=
  (∀ (s : State) (k j : Nat) (w : StreamWord) (rest : List StreamWord), j < 4 → k < s.part.numCB →
    (s.cab k).ins.length = 4 → (s.feed (feedFP k j)).inq = w :: rest → (s.inPort k j).fifo.length < 256 →
    ∃ t, exec (.fpInputWord k j) s = .next t ∧ (t.inPort k j).fifo = (s.inPort k j).fifo ++ [w] ∧
      (t.feed (feedFP k j)).inq = rest ∧ Others k s.cab t.cab ∧ t = { s with cabs := t.cabs, feeds := t.feeds }) ∧
  (∀ (s : State) (k j : Nat) (w : StreamWord) (rest : List StreamWord), j < 4 → k < s.part.numCB →
    (s.cab k).ins.length = 4 → (s.feed (feedFP k j)).inq = w :: rest → 256 ≤ (s.inPort k j).fifo.length →
    ∃ t, exec (.fpInputWord k j) s = .next t ∧ t.inPort k j = { s.inPort k j with gapNext := true } ∧
      t.f Fld.DIO_FPI_DROP k j = (s.f Fld.DIO_FPI_DROP k j + 1) % 2 ^ 32 ∧ (t.feed (feedFP k j)).inq = rest ∧
      t = { s with cabs := t.cabs, feeds := t.feeds, regs := t.regs } ∧ SameBut [Fld.DIO_FPI_DROP.addr k j] s t) ∧
  (∀ (s : State) (k j : Nat), j < 4 → k < s.part.numCB → (s.cab k).ins.length = 4 → (s.inPort k j).taking = true →
    ∃ t, exec (.fpInputGroupTake k j) s = .next t ∧ (t.inPort k j).fifo = (s.inPort k j).fifo.drop (s.fpG k j) ∧
      (t.inPort k j).taking = false ∧ (t.inPort k j).olds = (dropOld (s.inPort k j).olds).1 ∧
      ((s.inPort k j).olds = [] → 2 * s.fpG k j ≤ (s.inPort k j).fifo.length →
        (t.inPort k j).shown = true ∧ (t.inPort k j).gapNow = (s.inPort k j).gapNext ∧ (t.inPort k j).gapNext = false) ∧
      t.groups = s.groups ∧ t.fcells = s.fcells) ∧
  (∀ (s : State) (k j : Nat) (w : StreamWord), j < 4 → k < s.part.numCB → (s.cab k).outs.length = 4 →
    (s.outPort k j).offer = some w → (s.outPort k j).fifo = [] → s.isolated k = false → s.mode ≠ .bench →
    s.sourceHeld (portCode k j) = false →
    ∃ t, exec (.fpOutputWord k j) s = .next t ∧ t.outPort k j = ⟨[], none, (s.outPort k j).emitted + 1⟩ ∧
      t.feeds = (s.emit (portCode k j) [{ w with index := (s.outPort k j).emitted }]).feeds ∧ Others k s.cab t.cab ∧
      t = { s with cabs := t.cabs, feeds := t.feeds }) ∧
  (∀ (s : State) (k j : Nat) (w : StreamWord), j < 4 → k < s.part.numCB → (s.cab k).outs.length = 4 →
    (s.outPort k j).offer = some w → 256 ≤ (s.outPort k j).fifo.length → s.isolated k = true →
    ∃ t, exec (.fpOutputWord k j) s = .next t ∧ t.outPort k j = { s.outPort k j with offer := none } ∧
      t.f Fld.DIO_FPO_REFUSED k j = (s.f Fld.DIO_FPO_REFUSED k j + 1) % 2 ^ 32 ∧
      t = { s with cabs := t.cabs, regs := t.regs } ∧ SameBut [Fld.DIO_FPO_REFUSED.addr k j] s t) ∧
  (∀ (s : State) (k c w : Nat) (a : PortAct), a.port < 2 → k < s.part.numCB → (s.cab k).agents.length = 2 →
    s.portDoes a (s.agent k a.port).post = some (c, w) → (s.chan c).alloc = true →
    (s.chan c).snd = (Agent.port k a.port).code → (s.chan c).full = false → s.portTurn k a.port = true →
    ∃ t, exec (.agentPost k a) s = .next t ∧ t.arb = { s.arb with port := 2 * k + a.port } ∧
      (t.chan c).word = BitVec.ofNat 32 w ∧ (t.chan c).full = true ∧
      (t.chan c).posts = ((s.chan c).posts + 1) % 65536 ∧ (t.chan c).arrive = true ∧
      t.agent k a.port = { s.agent k a.port with post := none, busy := false, ack := true, rej := false } ∧
      Others c s.chan t.chan ∧ t = { s with chans := t.chans, cabs := t.cabs, arb := t.arb }) ∧
  (∀ (s : State) (k c w : Nat) (a : PortAct), a.port < 2 → k < s.part.numCB → (s.cab k).agents.length = 2 →
    s.portDoes a (s.agent k a.port).post = some (c, w) → (s.chan c).alloc = false →
    s.portTurn k a.port = true →
    ∃ t, exec (.agentPost k a) s = .next t ∧ t.chans = s.chans ∧ t.on Fld.DIO_BND_STAT_AG_BADCH k = true ∧
      t.agent k a.port = { s.agent k a.port with post := none, busy := false, ack := false, rej := true } ∧
      t = { s with cabs := t.cabs, regs := t.regs, arb := { s.arb with port := 2 * k + a.port } } ∧
      SameBut [Reg.DIO_BND_STAT.addr k 0] s t) ∧
  (∀ (s : State) (k c d : Nat) (a : PortAct), a.port < 2 → k < s.part.numCB → (s.cab k).agents.length = 2 →
    s.portDoes a ((s.agent k a.port).take.map fun c => (c, 0)) = some (c, d) → (s.chan c).alloc = true →
    (s.chan c).rcv = (Agent.port k a.port).code → (s.chan c).full = true → s.portTurn k a.port = true →
    ∃ t, exec (.agentTake k a) s = .next t ∧ (t.chan c).full = false ∧ (t.chan c).takes = ((s.chan c).takes + 1) % 65536 ∧
      (t.chan c).word = (s.chan c).word ∧ (t.agent k a.port).take = none ∧ Others c s.chan t.chan ∧
      t = { s with chans := t.chans, cabs := t.cabs, regs := t.regs, host := { s.host with vecs := t.host.vecs },
                   arb := { s.arb with port := 2 * k + a.port } } ∧
      SameBut [Reg.DEV_XSTAT.base] s t) ∧
  (∀ (s : State) (k c d : Nat) (a : PortAct), a.port < 2 → k < s.part.numCB →
    s.portDoes a ((s.agent k a.port).dbclr.map fun c => (c, 0)) = some (c, d) →
    (s.chan c).alloc = true → (s.chan c).rcv = (Agent.port k a.port).code → s.portTurn k a.port = true →
    ∃ t, exec (.agentDbclr k a) s = .next t ∧
      t.chan c = { s.chan c with db := 0 } ∧ Others c s.chan t.chan ∧
      t.cabs = (s.setAgent k a.port { s.agent k a.port with dbclr := none }).cabs ∧
      t = { s with chans := t.chans, cabs := t.cabs, host := { s.host with vecs := t.host.vecs },
                   arb := { s.arb with port := 2 * k + a.port } }) ∧
  (∀ (s : State) (p : Nat), p < 16 → s.on Fld.PRB_CTL_EN p = true → s.mode.probes = true → s.f Fld.PRB_SEL_KIND p = 1 →
    s.gclkRuns (s.f Fld.PRB_CTL_CLK p) = true → s.f Fld.PRB_CTL_DIV_M1 p ≤ (s.probe p).skip →
    s.f Fld.PRB_SEL_CB p < s.part.numCB → s.isSecure (s.f Fld.PRB_SEL_CB p) = false →
    s.cbState (s.f Fld.PRB_SEL_CB p) = 1 → s.f Fld.PRB_SEL_CODE p < 4096 →
    ∃ t, exec (.probeSample p) s = .next t ∧
      t.probe p = ⟨0, (s.probe p).emitted + 1, s.wordAt (s.f Fld.PRB_SEL_CB p) (s.f Fld.PRB_SEL_CODE p)⟩ ∧
      t.f Fld.PRB_WORDS p = (s.f Fld.PRB_WORDS p + 1) % 2 ^ 32 ∧
      t = { s with probes := t.probes, feeds := t.feeds, regs := t.regs } ∧ SameBut [Reg.PRB_WORDS.addr p 0] s t) ∧
  (∀ (s : State) (p : Nat), p < 16 → s.on Fld.PRB_CTL_EN p = true → s.mode.probes = true → s.f Fld.PRB_SEL_KIND p = 2 →
    s.gclkRuns (s.f Fld.PRB_CTL_CLK p) = true → s.f Fld.PRB_CTL_DIV_M1 p ≤ (s.probe p).skip →
    s.f Fld.PRB_SEL_CB p < s.part.numCB → s.isSecure (s.f Fld.PRB_SEL_CB p) = true →
    ∃ t, exec (.probeSample p) s = .next t ∧ (t.probe p).last = 0 ∧ t.on Fld.PRB_STAT_DENIED p = true ∧
      (t.probe p).emitted = (s.probe p).emitted + 1) ∧
  (∀ (s : State) (b : Nat) (present : Bool), b < 8 →
    ∃ t, exec (.vccioChange b present) s = .next t ∧ t.on Fld.DIO_BANK_STAT_VOK b = present ∧
      t.dio.vok = (if present then s.dio.vok ||| 2 ^ b else s.dio.vok &&& (255 - 2 ^ b)) ∧
      t = { s with dio := { s.dio with vok := t.dio.vok }, regs := t.regs } ∧ SameBut [Reg.DIO_BANK_STAT.addr b 0] s t) ∧
  (∀ (s : State) (n : Nat) (w : Word), n < 256 → s.mode.pinWrites = true →
    s.underCheck (Reg.DIO_PIN_CFG.addr n 0) = false →
    ∃ t, exec (.dioPinCfgWrite n w) s = .next t ∧ t = (s.setWord (Reg.DIO_PIN_CFG.addr n 0) (w &&& 0x1FFFFFFF)).counted) ∧
  (∀ (s : State) (n : Nat) (w : Word), n < 256 → s.mode.pinWrites = false →
    s.underCheck (Reg.DIO_PIN_CFG.addr n 0) = false →
    w &&& 0x1FFFFFFF ≠ s.word (Reg.DIO_PIN_CFG.addr n 0) →
    ∃ t, exec (.dioPinCfgWrite n w) s = .next t ∧ t = (s.flag Fld.DIO_STAT_WR_IGN).counted) ∧
  (∀ (s : State) (k : Nat) (a : PortAct), a.port < 2 → k < 24 → s.standby = true → a.mirror = none →
    ∃ t, exec (.agentPost k a) s = .next t ∧ t = s) ∧
  (∀ (s : State) (k c w : Nat) (a : PortAct), a.port < 2 → k < s.part.numCB → s.standby = true → a.mirror = some (c, w) →
    (s.chan c).alloc = true → (s.chan c).snd = (Agent.port k a.port).code → (s.chan c).full = true →
    (s.cab k).agents.length = 2 →
    ∃ t, exec (.agentPost k a) s = .next t ∧
      t.agent k a.port = { s.agent k a.port with post := none, busy := false, ack := false, rej := true } ∧
      (t.chan c).word = (s.chan c).word ∧ (t.chan c).full = true) ∧
  (∀ (s : State) (k c d : Nat) (a : PortAct), a.port < 2 → k < s.part.numCB →
    s.portDoes a ((s.agent k a.port).take.map fun c => (c, 0)) = some (c, d) →
    ((s.chan c).alloc = false ∨ (s.chan c).rcv ≠ (Agent.port k a.port).code) → s.portTurn k a.port = true →
    ∃ t, exec (.agentTake k a) s = .next t ∧
      t = { s.setAgent k a.port { s.agent k a.port with take := none } with arb := { s.arb with port := 2 * k + a.port } })

/-- PREAMBLE_WORD, SYNC_WORD, DEVICE, REGION, FRAMES and FRAME (R336 to R342, R377 to R379, R389). -/
def Obligations.StreamOpensAndFramesAreWritten : Prop :=
  (∀ (s : State) (rest : List Word), s.mode = .load → s.stream.active = true → s.stream.kind = .full → s.stream.src = 0 →
    s.stream.sigWait = false → s.stream.synced = false → s.stream.tag = 0 → s.stream.waiting = 0xFFFFFFFF :: rest →
    s.stream.pre < 1024 →
    ∃ t, exec (.preambleWord []) s = .next t ∧
      t = { s with stream := { s.stream with waiting := rest, pre := s.stream.pre + 1 } }) ∧
  (∀ (s : State) (w : Word) (rest : List Word), s.mode = .load → s.stream.active = true → s.stream.kind = .full →
    s.stream.src = 0 → s.stream.sigWait = false → s.stream.synced = false → s.stream.waiting = w :: rest →
    w ≠ 0x4B454E31 → (w = 0xFFFFFFFF → 1024 ≤ s.stream.pre) →
    ∃ t, exec (.preambleWord []) s = .next t ∧ t.mode = .faultMode ∧ t.f Fld.CFG_STAT_PHASE = 6 ∧
      t.f Fld.CFG_STAT_REASON = 1 ∧ t.f Fld.CFG_ERRPOS = 0 ∧ t.f Fld.DEV_MODE_FAULT_ST = 2 ∧ t.stream.active = false ∧
      t.frames = s.frames ∧ t.checks = s.checks) ∧
  (∀ (s : State) (rest : List Word), s.mode = .load → s.stream.active = true → s.stream.kind = .full → s.stream.src = 0 →
    s.stream.sigWait = false → s.stream.synced = false → s.stream.waiting = 0x4B454E31 :: rest →
    ∃ t, exec (.syncWord []) s = .next t ∧ 
      t.stream = { s.stream with waiting := rest, synced := true, pos := 0, crc := 0xFFFFFFFF, tag := 0, last := 0 } ∧
      t.f Fld.CFG_STAT_PHASE = 2 ∧ t.f Fld.CFG_WORDS = 0 ∧ t.f Fld.CFG_CRC = 0 ∧
      t = { s with stream := t.stream, regs := t.regs } ∧
      SameBut [Reg.CFG_STAT.base, Reg.CFG_WORDS.base, Reg.CFG_CRC.base] s t) ∧
  (∀ (s : State), s.mode = .load → s.stream.active = true → s.stream.kind = .full → s.stream.src = 2 →
    s.stream.sigWait = false → s.stream.synced = false → s.stream.waiting = [] →
    ∃ t, exec (.syncWord [0x4B454E31, 0x5A000005]) s = .next t ∧ t.stream.synced = true ∧ t.stream.waiting = [0x5A000005] ∧
      t.f Fld.CFG_STAT_PHASE = 2) ∧
  (∀ (s : State) (code lo hi sec : Word) (rest : List Word), s.loading = true → s.stream.tag = 0 → s.stream.last = 0 →
    s.stream.waiting = [0x5A000005, code, 1, lo, hi, sec] ++ rest → code.bits 16 16 = 0x4B4E →
    code.bits 0 16 = s.part.code → sec.toNat < 2 ^ s.part.numCB → s.part.numCB ≤ 24 →
    ∃ t, exec (.device []) s = .next t ∧ s.stream.after [0x5A000005, code, 1, lo, hi, sec] rest t.stream ∧
      t.stream.last = tagDevice ∧ t.stream.tag = 0 ∧ t.stream.design = lo.toNat + hi.toNat * 2 ^ 32 ∧
      t.stream.secmask = sec.toNat ∧ t.word Reg.CFG_DESIGN_LO.base = lo ∧ t.word Reg.CFG_DESIGN_HI.base = hi ∧
      t.f Fld.CFG_CRC = ([0x5A000005, code, 1, lo, hi, sec].foldl crcWord s.stream.crc ^^^ 0xFFFFFFFF) % 2 ^ 32 ∧
      t.f Fld.CFG_WORDS = (s.stream.pos + 6) % 2 ^ 32 ∧ t = { s with stream := t.stream, regs := t.regs } ∧
      SameBut [Reg.CFG_WORDS.base, Reg.CFG_CRC.base, Reg.CFG_DESIGN_LO.base, Reg.CFG_DESIGN_HI.base] s t) ∧
  (∀ (s : State) (code : Word) (rest : List Word), s.loading = true → s.stream.tag = tagDevice → s.stream.got = 0 →
    s.stream.len = 5 → s.stream.waiting = code :: rest → code.bits 0 16 ≠ s.part.code → code.bits 0 16 ≠ 0x9640 →
    ∃ t, exec (.device []) s = .next t ∧ t.mode = .faultMode ∧ t.f Fld.CFG_STAT_REASON = 5 ∧ t.f Fld.CFG_STAT_PHASE = 6 ∧
      t.f Fld.CFG_CRC = ([code].foldl crcWord s.stream.crc ^^^ 0xFFFFFFFF) % 2 ^ 32 ∧
      t.f Fld.CFG_ERRPOS = (s.stream.pos + 1) % 2 ^ 32 ∧ t.f Fld.DEV_MODE_FAULT_ST = 2) ∧
  (∀ (s : State) (k : Nat) (w : Word) (rest : List Word), s.stream.active = true → s.stream.sigWait = false →
    s.stream.kind = .region k → s.stream.gate = true → s.stream.src = 0 → s.stream.synced = true →
    s.stream.tag = tagRegion → s.stream.got = 0 → s.stream.len = 1 → s.stream.waiting = w :: rest →
    w &&& 0xFFFFFEE0 = 0 → w.bits 0 5 = k →
    ∃ t, exec (.region []) s = .next t ∧ t.stream.secure = w.bit 8 ∧ t.stream.tag = 0 ∧ s.stream.after [w] rest t.stream ∧
      t.f Fld.SCRB_RLD_WORDS = (s.stream.pos + 1) % 2 ^ 32 ∧ t = { s with stream := t.stream, regs := t.regs } ∧
      SameBut [Reg.SCRB_RLD_WORDS.base] s t) ∧
  (∀ (s : State) (k : Nat) (w : Word) (rest : List Word), k < 24 → s.stream.active = true → s.stream.sigWait = false →
    s.stream.kind = .region k → s.stream.gate = true → s.stream.src = 0 → s.stream.synced = true →
    s.stream.tag = tagRegion → s.stream.got = 0 → s.stream.len = 1 → s.stream.waiting = w :: rest →
    w &&& 0xFFFFFEE0 = 0 → w.bits 0 5 ≠ k →
    ∃ t, exec (.region []) s = .next t ∧ t.f Fld.SCRB_RLD_STAT_REASON = 0x20 ∧ t.f Fld.SCRB_RLD_STAT_STATUS = 8 ∧
      t.f Fld.SCRB_RLD_STAT_PHASE = 6 ∧ t.f Fld.SCRB_RLD_ERRPOS = (s.stream.pos + 1) % 2 ^ 32 ∧ t.cbState k = 4 ∧
      t.on Fld.SCRB_RLD_IRQ_FAIL = true) ∧
  (∀ (s : State) (fa n : Nat) (rest : List Word), s.loading = true → s.stream.tag = 0 →
    (s.stream.last = tagDevice ∨ s.stream.last = tagFrames) → fa < 2 ^ 24 → s.stream.next = some fa → 1 ≤ n → n ≤ 20480 →
    s.stream.waiting = [BitVec.ofNat 32 (0x11000002 + 32 * n), BitVec.ofNat 32 fa, BitVec.ofNat 32 n] ++ rest →
    ∃ t, exec (.frames []) s = .next t ∧ t.stream.last = tagFrames ∧ t.stream.tag = tagFrames ∧ t.stream.len = 2 + 32 * n ∧
      t.stream.got = 2 ∧ t.stream.fa = some fa ∧ t.stream.frame = [] ∧ t.stream.next = some fa ∧
      s.stream.after [BitVec.ofNat 32 (0x11000002 + 32 * n), BitVec.ofNat 32 fa, BitVec.ofNat 32 n] rest t.stream ∧
      t.f Fld.CFG_CRC = ([BitVec.ofNat 32 (0x11000002 + 32 * n), BitVec.ofNat 32 fa, BitVec.ofNat 32 n].foldl crcWord
        s.stream.crc ^^^ 0xFFFFFFFF) % 2 ^ 32 ∧
      t.f Fld.CFG_WORDS = (s.stream.pos + 3) % 2 ^ 32 ∧ t = { s with stream := t.stream, regs := t.regs } ∧
      SameBut [Reg.CFG_WORDS.base, Reg.CFG_CRC.base] s t) ∧
  (∀ (s : State) (fa : Nat) (ws rest : List Word), s.loading = true → s.stream.tag = tagFrames → 2 ≤ s.stream.got →
    s.stream.got + 32 ≤ s.stream.len → s.stream.frame = [] → s.stream.fa = some fa → s.stream.next = some fa →
    frameType fa < 2 → fa < 2 ^ 24 → ws.length = 32 → s.stream.waiting = ws ++ rest → s.stream.frames < 2 ^ 20 →
    (ws.zipIdx.all fun e => e.1 &&& ~~~frameMask s.part fa e.2 == 0) = true →
    ∃ t, exec (.frame []) s = .next t ∧ t.frameWords fa = ws ∧ Tab.get (fun _ => 0) t.checks fa = checkWord ws ∧
      s.stream.after ws rest t.stream ∧ t.stream.frames = s.stream.frames + 1 ∧ t.stream.frame = [] ∧
      t.stream.next = nextFrame s.part fa ∧ t.stream.fa = nextFrame s.part fa ∧
      t.f Fld.CFG_FRAMES = s.stream.frames + 1 ∧ t.f Fld.CFG_NEXTFA = (nextFrame s.part fa).getD 0xFFFFFF % 2 ^ 24 ∧
      t.f Fld.CFG_CRC = (ws.foldl crcWord s.stream.crc ^^^ 0xFFFFFFFF) % 2 ^ 32 ∧
      t.f Fld.CFG_WORDS = (s.stream.pos + 32) % 2 ^ 32 ∧
      (s.scrub.at_ ≠ some fa → t.scrub = s.scrub) ∧
      t = { s with stream := t.stream, regs := t.regs, frames := t.frames, checks := t.checks, scrub := t.scrub } ∧
      SameBut [Reg.CFG_WORDS.base, Reg.CFG_CRC.base, Reg.CFG_FRAMES.base, Reg.CFG_NEXTFA.base] s t) ∧
  (∀ (s : State) (w : Word) (rest : List Word), s.loading = true → s.stream.tag = tagFrames → 2 ≤ s.stream.got →
    s.stream.frame = [] → s.stream.fa ≠ s.stream.next → s.stream.waiting = w :: rest →
    ∃ t, exec (.frame []) s = .next t ∧ t.mode = .faultMode ∧ t.f Fld.CFG_STAT_REASON = 6 ∧
      t.f Fld.CFG_CRC = ([w].foldl crcWord s.stream.crc ^^^ 0xFFFFFFFF) % 2 ^ 32 ∧
      t.f Fld.CFG_ERRPOS = (s.stream.pos + 1) % 2 ^ 32 ∧ t.frames = s.frames ∧ t.checks = s.checks)

/-- ANALOG_ENTRY, STARTUP, DIGEST, SIGNATURE, SIGNATURE_VERIFICATION and END (R349 to R355, R363, R479). -/
def Obligations.StreamRecordsAreTaken : Prop :=
  (∀ (s : State) (n c : Nat) (v : Word) (rest : List Word), s.loading = true → s.stream.tag = tagAnalog →
    s.stream.entry = none → s.stream.got + 2 ≤ s.stream.len → n < s.part.numFC → n < 48 → c < 128 →
    s.on Fld.FC_CTL_EN n = false → s.lclk = true →
    s.stream.waiting = [BitVec.ofNat 32 (Reg.FC_COEFA.addr n c), v] ++ rest →
    ∃ t, exec (.analogEntry []) s = .next t ∧ t.f Fld.FC_COEFA_COEF n c = v.toNat % 2 ^ Fld.FC_COEFA_COEF.width ∧
      t.stream.entry = none ∧ t.stream.got = s.stream.got + 2 ∧
      s.stream.after [BitVec.ofNat 32 (Reg.FC_COEFA.addr n c), v] rest t.stream ∧
      t = { s with stream := t.stream, regs := t.regs } ∧
      SameBut [Reg.CFG_WORDS.base, Reg.CFG_CRC.base, Reg.FC_COEFA.addr n c] s t) ∧
  (∀ (s : State) (g : Nat) (v : Word) (rest : List Word), s.loading = true → s.stream.tag = tagAnalog →
    s.stream.entry = none → s.stream.got + 2 ≤ s.stream.len → g < s.part.numCG → g < 24 → s.stream.deferred.length < 256 →
    s.stream.waiting = [BitVec.ofNat 32 (Reg.CG_CTL.addr g 0), v] ++ rest →
    ∃ t, exec (.analogEntry []) s = .next t ∧ t.stream.deferred = s.stream.deferred ++ [(Reg.CG_CTL.addr g 0, v)] ∧
      t.stream.entry = none ∧ t.groups = s.groups ∧
      t = { s with stream := t.stream, regs := t.regs } ∧ SameBut [Reg.CFG_WORDS.base, Reg.CFG_CRC.base] s t) ∧
  (∀ (s : State) (w : Word) (rest : List Word), s.loading = true → s.stream.tag = tagAnalog → s.stream.entry = none →
    s.stream.got < s.stream.len → w.bits 24 7 = 0 → 0x600000 ≤ w.bits 0 24 → s.stream.waiting = w :: rest →
    ∃ t, exec (.analogEntry []) s = .next t ∧ t.mode = .faultMode ∧ t.f Fld.CFG_STAT_REASON = 7 ∧
      t.f Fld.CFG_ERRPOS = (s.stream.pos + 1) % 2 ^ 32) ∧
  (∀ (s : State) (w0 w1 w2 : Word) (rest : List Word), s.loading = true → s.stream.tag = 0 →
    (s.stream.last = tagFrames ∨ s.stream.last = tagAnalog) → w0.bits 0 24 < 2 ^ s.part.numCB →
    s.stream.waiting = [0x44000003, w0, w1, w2] ++ rest →
    ∃ t, exec (.startup []) s = .next t ∧ t.stream.cbmask = w0.bits 0 24 ∧ t.stream.refwait = w1.bit 8 ∧
      t.stream.last = tagStartup ∧ t.stream.tag = 0 ∧ s.stream.after [0x44000003, w0, w1, w2] rest t.stream ∧
      t = { s with stream := t.stream, regs := t.regs } ∧ SameBut [Reg.CFG_WORDS.base, Reg.CFG_CRC.base] s t) ∧
  (∀ s : State, s.loading = true → s.stream.tag = 0 → s.stream.last = tagStartup → s.stream.waiting = [0x77000008] →
    ∃ t, exec (.digest []) s = .next t ∧ t.stream.digest = shakeWords s.stream.taken.reverse ∧ t.stream.last = tagDigest ∧
      t.stream.tag = tagDigest ∧ t.stream.len = 8 ∧ t.stream.got = 0 ∧ s.stream.after [0x77000008] [] t.stream) ∧
  (∀ (s : State) (i : Nat) (w : Word), s.loading = true → s.stream.tag = tagDigest → s.stream.last = tagDigest →
    s.stream.len = 8 → s.stream.got = i → i < 8 → (wordsOfBytes s.stream.digest 8)[i]? = some w → s.stream.waiting = [w] →
    ∃ t, exec (.digest []) s = .next t ∧ t.stream.stated = s.stream.stated ++ [w] ∧ t.stream.got = i + 1 ∧
      t.stream.taken = s.stream.taken ∧ s.stream.after [w] [] t.stream ∧
      t = { s with stream := t.stream, regs := t.regs } ∧ SameBut [Reg.CFG_WORDS.base, Reg.CFG_CRC.base] s t) ∧
  (∀ (s : State) (i : Nat) (w v : Word) (rest : List Word), s.loading = true → s.stream.tag = tagDigest →
    s.stream.got = i → (wordsOfBytes s.stream.digest 8)[i]? = some v → v ≠ w → s.stream.waiting = w :: rest →
    ∃ t, exec (.digest []) s = .next t ∧ t.mode = .faultMode ∧ t.f Fld.CFG_STAT_REASON = 0x12 ∧
      t.f Fld.DEV_MODE_FAULT_ST = 5 ∧ t.f Fld.CFG_ERRPOS = (s.stream.pos + 1) % 2 ^ 32) ∧
  (∀ (s : State) (w : Word) (rest : List Word), s.loading = true → s.stream.tag = tagSignature → 1 ≤ s.stream.got →
    s.stream.got + 1 = s.stream.len → s.stream.waiting = w :: rest →
    ∃ t, exec (.signature []) s = .next t ∧ t.stream.sig = s.stream.sig ++ [w] ∧ t.stream.sigWait = true ∧
      t.stream.tag = 0 ∧ s.stream.after [w] rest t.stream ∧
      t = { s with stream := t.stream, regs := t.regs } ∧ SameBut [Reg.CFG_WORDS.base, Reg.CFG_CRC.base] s t) ∧
  (∀ (s : State) (w : Word) (rest : List Word), s.loading = true → s.stream.tag = tagSignature → s.stream.got = 0 →
    w &&& 0xFFFFE0FC = 0 → w.bits 8 5 = 11 → s.stream.waiting = w :: rest →
    ∃ t, exec (.signature []) s = .next t ∧ t.mode = .faultMode ∧ t.f Fld.CFG_STAT_REASON = 4 ∧
      t.f Fld.CFG_ERRPOS = (s.stream.pos + 1) % 2 ^ 32) ∧
  (∀ (s : State) (mclk : Nat), mclk ≤ 800000 → s.stream.active = true → s.stream.sigWait = true → s.bur.running = true →
    s.stream.kind = .full → s.mode = .load →
    ∃ t, exec (.signatureVerification mclk) s = .next t ∧
      (s.signatureGood = true → t.stream = { s.stream with sigWait := false, signed := true } ∧
        t.on Fld.CFG_STAT_SIGNED = true ∧ t = { s with stream := t.stream, regs := t.regs } ∧
        SameBut [Reg.CFG_STAT.base] s t) ∧
      (s.signatureGood = false → t.mode = .faultMode ∧ t.f Fld.CFG_STAT_REASON = 0x13 ∧
        t.f Fld.CFG_ERRPOS = s.stream.pos % 2 ^ 32 ∧ t.f Fld.DEV_MODE_FAULT_ST = 5)) ∧
  (∀ (s : State) (mclk : Nat), mclk ≤ 800000 → s.stream.active = true → s.stream.sigWait = true → s.bur.running = true →
    s.stream.kind = .full → s.mode = .load → (s.f Fld.BUR_POLICY_ENROLLED).testBit ((s.stream.sig.headD 0).bits 0 2) = false →
    ∃ t, exec (.signatureVerification mclk) s = .next t ∧ t.mode = .faultMode ∧ t.f Fld.CFG_STAT_REASON = 0x13) ∧
  (∀ (s : State) (w : Word) (rest : List Word), s.loading = true → s.stream.tag = tagEnd → s.stream.got = 0 →
    s.stream.len = 1 → s.stream.waiting = w :: rest →
    ∃ t, exec (.endRecord []) s = .next t ∧ t.mode = .verify ∧ t.f Fld.DEV_MODE_CAUSE = 5 ∧
      t.f Fld.CFG_CRC_END = w.toNat ∧ t.f Fld.CFG_STAT_PHASE = 3 ∧ t.stream.ended = true ∧ t.stream.active = false ∧
      t.stream.crc = s.stream.crc ∧ t.stream.crcEnd = w.toNat ∧ t.f Fld.CFG_WORDS = (s.stream.pos + 1) % 2 ^ 32 ∧
      t.frames = s.frames ∧ t.checks = s.checks ∧ t.groups = s.groups ∧ t.chains = s.chains)

/-- BAR4_WRITE, TWIN_STREAM_WORD, VERIFY, REFERENCE_WAIT, REF_TMO, REGION_STREAM_START and REGION_VERIFY (R357, R359, R363 to
R366, R381 to R383). -/
def Obligations.LoadsAreVerifiedAndFinished : Prop :=
  (∀ (s : State) (ws : List Word), s.funcAnswers 0 = true → s.mode = .load → s.stream.active = true →
    s.stream.src = 0 →
    ∃ t, exec (.bar4Write (ws.map fun w => (w, true))) s = .next t ∧
      t = { s with stream := { s.stream with waiting := s.stream.waiting ++ ws } }) ∧
  (∀ (s : State) (ws : List (Word × Bool)), s.funcAnswers 0 = true →
    (s.mode ≠ .load ∨ s.stream.active = false ∨ s.stream.src ≠ 0) → ws ≠ [] →
    ∃ t, exec (.bar4Write ws) s = .next t ∧ t = s.flag Fld.CFG_STAT_STRAY ∧ t.on Fld.CFG_STAT_STRAY = true) ∧
  (∀ (s : State) (w : Word), s.funcAnswers 0 = true → s.mode = .load → s.stream.active = true →
    s.stream.src = 0 →
    ∃ t, exec (.bar4Write [(w, false)]) s = .next t ∧ t = s.flag Fld.CFG_STAT_STRAY) ∧
  (∀ (s : State) (w : Word), s.part.isTwin = true → s.mode = .load → s.stream.active = true → s.stream.src = 3 →
    ∃ t, exec (.twinStreamWord w) s = .next t ∧
      t = { s with stream := { s.stream with waiting := s.stream.waiting ++ [w] } }) ∧
  (∀ s : State, s.mode = .verify → s.bur.running = true → s.stream.crc ^^^ 0xFFFFFFFF ≠ s.stream.crcEnd →
    ∃ t, exec .verify s = .next t ∧ t.mode = .faultMode ∧ t.f Fld.CFG_STAT_REASON = 0x10 ∧
      t.f Fld.CFG_ERRPOS = s.f Fld.CFG_WORDS ∧ t.f Fld.DEV_MODE_FAULT_ST = 6) ∧
  (∀ s : State, s.mode = .verify → s.bur.running = true → s.stream.crc ^^^ 0xFFFFFFFF = s.stream.crcEnd →
    s.stream.next.isSome = true →
    ∃ t, exec .verify s = .next t ∧ t.mode = .faultMode ∧ t.f Fld.CFG_STAT_REASON = 0x11 ∧
      t.f Fld.CFG_ERRPOS = s.f Fld.CFG_WORDS ∧ t.f Fld.DEV_MODE_FAULT_ST = 2) ∧
  (∀ s : State, s.mode = .verify → s.bur.running = true → s.stream.crc ^^^ 0xFFFFFFFF = s.stream.crcEnd →
    s.stream.next = none → s.stream.signed = false → s.on Fld.BUR_POLICY_REQ_SIGNED = true →
    ∃ t, exec .verify s = .next t ∧ t.mode = .faultMode ∧ t.f Fld.CFG_STAT_REASON = 0x14 ∧
      t.f Fld.DEV_MODE_FAULT_ST = 5) ∧
  (∀ s : State, s.mode = .verify → s.bur.running = true → s.stream.crc ^^^ 0xFFFFFFFF = s.stream.crcEnd →
    s.stream.next = none → s.policyMet = true → s.census.on Fld.AC_CENSUS_PASS = true →
    ∃ t, exec .verify s = .next t ∧ t.mode = .wakeUp ∧ t.f Fld.DEV_MODE_CAUSE = 6 ∧ t.f Fld.CFG_STAT_PHASE = 4 ∧
      t.bur.hard = shakeWords ((Tab.get (fun _ => []) s.stream.meas 32).reverse ++ s.stream.analog.reverse) ∧
      t.bur = { s.bur with firstBlank := false, hard := t.bur.hard } ∧
      t = { s with mode := .wakeUp, bur := t.bur, scrub := Scrub.init, regs := t.regs } ∧
      SameBut [Reg.AC_CENSUS.base, Reg.AC_CENSUS_TRK.base, Reg.AC_CENSUS_DRV.base, Reg.CFG_STAT.base, Reg.DEV_MODE.base,
        Reg.SCRB_STAT.base] s t) ∧
  (∀ s : State, s.mode = .verify → s.bur.running = true → s.stream.crc ^^^ 0xFFFFFFFF = s.stream.crcEnd →
    s.stream.next = none → s.policyMet = true → s.census.on Fld.AC_CENSUS_PASS = false →
    ∃ t, exec .verify s = .next t ∧ t.mode = .faultMode ∧ t.f Fld.CFG_STAT_REASON = 0x15 ∧
      t.f Fld.DEV_MODE_FAULT_ST = 7) ∧
  (∀ (s : State) (mclk k : Nat), s.mode = .wakeUp → (s.stream.refwait = false ∨ s.allSettled = true) →
    k < s.part.numCB → s.part.numCB ≤ 24 → s.stream.deferred = [] →
    (s.rings.all fun e => e.2.arrived.isEmpty && e.2.late.isEmpty) = true →
    ∃ t, exec (.referenceWait mclk) s = .next t ∧ t.mode = .run ∧ t.f Fld.DEV_MODE_CAUSE = 7 ∧
      t.f Fld.CFG_STAT_PHASE = 5 ∧ t.on Fld.CFG_STAT_REF_TMO = s.on Fld.CFG_STAT_REF_TMO ∧
      t.f Fld.CFG_TIME = min mclk (2 ^ 32 - 1) ∧ t.pins.done = true ∧ t.dio.ioOn = true ∧ t.cbState k = 1 ∧
      t.on Fld.FAB_CTL_CLKEN k = s.stream.cbmask.testBit k ∧ t.isSecure k = s.stream.secmask.testBit k ∧
      (t.cab k).released = true ∧ (t.cab k).meas.frames = 768 ∧ (t.cab k).meas.design = s.stream.design ∧
      t.stream.active = false ∧ t.frames = s.frames ∧ t.checks = s.checks) ∧
  (∀ (s : State) (mclk k : Nat), s.mode = .wakeUp → s.stream.refwait = true → s.allSettled = false →
    k < s.part.numCB → s.part.numCB ≤ 24 → s.stream.deferred = [] →
    (s.rings.all fun e => e.2.arrived.isEmpty && e.2.late.isEmpty) = true →
    ∃ t, exec (.refTmo mclk) s = .next t ∧ t.mode = .run ∧ t.on Fld.CFG_STAT_REF_TMO = true ∧ t.f Fld.CFG_STAT_PHASE = 5 ∧
      t.pins.done = true ∧ t.dio.ioOn = true ∧ t.cbState k = 1 ∧
      t.on Fld.FAB_CTL_CLKEN k = s.stream.cbmask.testBit k ∧ (t.cab k).released = true) ∧
  (∀ (s : State) (mclk : Nat), s.mode = .wakeUp → s.stream.refwait = true → s.allSettled = false →
    ∃ t, exec (.referenceWait mclk) s = .next t ∧ t = s) ∧
  (∀ (s : State) (k : Nat), s.stream.kind = .region k → s.stream.active = true →
    ∃ t, exec .regionStreamStart s = .next t ∧ t = { s with stream := { s.stream with gate := true } }) ∧
  (∀ (s : State) (k : Nat), k < 24 → s.stream.kind = .region k → s.stream.ended = true → s.bur.running = true →
    s.stream.crc ^^^ 0xFFFFFFFF = s.stream.crcEnd → s.stream.next = none → s.policyMet = true →
    ((s.stream.secure = true ∨ s.stream.wasSecure = true) → s.stream.signed = true) →
    ∃ t, exec .regionVerify s = .next t ∧ t.cbState k = 3 ∧ t.f Fld.SCRB_RLD_STAT_PHASE = 4 ∧
      t.on Fld.SCRB_RLD_IRQ_DONE = true ∧ (t.cab k).meas.dstate = 2 ∧ (t.cab k).meas.signed = s.stream.signed ∧
      (t.cab k).loaded = (s.stream.secure, s.stream.cbmask.testBit k) ∧ t.stream.active = false ∧ t.mode = s.mode) ∧
  (∀ (s : State) (k : Nat), k < 24 → s.stream.kind = .region k → s.stream.ended = true → s.bur.running = true →
    s.stream.crc ^^^ 0xFFFFFFFF = s.stream.crcEnd → s.stream.next = none → s.policyMet = true →
    s.stream.secure = true → s.stream.signed = false →
    ∃ t, exec .regionVerify s = .next t ∧ t.cbState k = 4 ∧ t.f Fld.SCRB_RLD_STAT_REASON = 0x22 ∧
      t.f Fld.SCRB_RLD_STAT_STATUS = 5 ∧ t.f Fld.SCRB_RLD_ERRPOS = s.f Fld.SCRB_RLD_WORDS ∧
      t.on Fld.SCRB_RLD_IRQ_FAIL = true ∧ (t.cab k).meas.dstate = 3)

/-- SCRUB_PASS_START, SCRUB_FRAME_CHECK and VOTE_REPAIR (R374, R388 to R394, R505). That the row carries the upset bits, that an
upset in a hard-block frame shows in the counters alone, that quarantine leaves CLKEN as it is, that a frame of a cabinet which
becomes LOADING meanwhile is still checked, and when the held writes take effect, is the model's reading (log entry 34). -/
def Obligations.ScrubbingFindsUpsets : Prop :=
  (∀ s : State, s.mode.scrubs = true → s.on Fld.SCRB_CTL_EN = true → s.scrub.at_ = none →
    ∃ t, exec .scrubPassStart s = .next t ∧ t.scrub = { Scrub.init with at_ := s.scrubFrom (some 0) 64 } ∧
      t.scrub.at_.isSome = true ∧ some (t.f Fld.SCRB_POS) = t.scrub.at_.map (· % 2 ^ Fld.SCRB_POS.width) ∧
      t.on Fld.SCRB_STAT_RUNNING = true ∧ t = { s with scrub := t.scrub, regs := t.regs } ∧
      SameBut [Reg.SCRB_STAT.base, Reg.SCRB_POS.base] s t) ∧
  (∀ (s : State) (fa n : Nat), s.scrub.at_ = some fa → s.scrub.touched = false →
    s.scrub.held = [] → frameType fa < 2 → fa < 2 ^ 24 → s.scrubs fa = true →
    syndrome (s.frameWords fa) (Tab.get (fun _ => 0) s.checks fa) = .clean →
    s.scrubFrom (nextFrame s.part fa) 64 = some n → Tab.wf (fun _ => 0) s.frames = true → Tab.wf (fun _ => 0) s.checks = true →
    ∃ t, exec (.scrubFrameCheck []) s = .next t ∧ t.scrub.at_ = some n ∧ t.f Fld.SCRB_POS = n % 2 ^ Fld.SCRB_POS.width ∧
      t = { s with scrub := { Scrub.init with at_ := some n }, frames := t.frames, checks := t.checks, regs := t.regs } ∧
      t.frameWords fa = s.frameWords fa ∧ SameBut [Reg.SCRB_POS.base] s t) ∧
  (∀ (s : State) (fa : Nat), s.scrub.at_ = some fa → s.scrub.touched = false →
    s.scrub.held = [] → frameType fa = 3 → nextFrame s.part fa = none →
    ∃ t, exec (.scrubFrameCheck []) s = .next t ∧ t.scrub.at_ = none ∧
      t.f Fld.SCRB_PASSES = (s.f Fld.SCRB_PASSES + 1) % 2 ^ 32 ∧ t.frames = s.frames ∧ t.checks = s.checks) ∧
  (∀ (s : State) (fa k b : Nat), k < 24 → s.scrub.at_ = some fa → s.scrub.touched = false →
    s.scrub.held = [] → frameType fa < 2 → frameZone fa = k → fa < 2 ^ 24 →
    s.cbState k = 1 → b < 1024 → s.on Fld.TWN_STAT_PAIRED = false → s.f Fld.SCRB_CB_SGL k < 65535 →
    (Tab.get (fun _ => 0) s.checks fa) = checkWord (s.frameWords fa) →
    ∃ t, exec (.scrubFrameCheck [b]) s = .next t ∧ t.frameWords fa = s.frameWords fa ∧
      Tab.get (fun _ => 0) t.checks fa = checkWord (s.frameWords fa) ∧ t.f Fld.SCRB_CB_SGL k = s.f Fld.SCRB_CB_SGL k + 1 ∧
      t.on Fld.SCRB_IRQ_SGL = true ∧ t.cbState k = 1 ∧ t.on Fld.FAB_CTL_CLKEN k = s.on Fld.FAB_CTL_CLKEN k ∧
      t.word (Reg.SCRB_CB_DBL.addr k 0) = s.word (Reg.SCRB_CB_DBL.addr k 0) ∧ t.mode = s.mode) ∧
  (∀ (s : State) (fa k a b : Nat), k < 24 → s.scrub.at_ = some fa → s.scrub.touched = false →
    s.scrub.held = [] → frameType fa < 2 → frameZone fa = k → fa < 2 ^ 24 →
    s.cbState k = 1 → a < 1024 → b < 1024 → a ≠ b → s.on Fld.TWN_STAT_PAIRED = false →
    s.on Fld.SCRB_CB_DBL_VALID k = false → s.mode = .run → (Tab.get (fun _ => 0) s.checks fa) = checkWord (s.frameWords fa) →
    ∃ t, exec (.scrubFrameCheck [a, b]) s = .next t ∧ t.cbState k = 5 ∧ t.cbRuns k = false ∧
      t.isolated k = true ∧ t.on Fld.SCRB_CB_DBL_VALID k = true ∧
      t.f Fld.SCRB_CB_DBL_FA k = fa % 2 ^ Fld.SCRB_CB_DBL_FA.width ∧ t.on Fld.SCRB_IRQ_DBL = true ∧
      t.f Fld.SCRB_CB_SGL k = s.f Fld.SCRB_CB_SGL k ∧ (t.cab k).meas.dstate = 4 ∧ t.mode = .run) ∧
  (∀ (s : State) (fa n b : Nat), s.scrub.at_ = some fa → s.scrub.touched = false →
    s.scrub.held = [] → frameType fa = 3 → b < 1036 → nextFrame s.part fa = some n →
    s.f Fld.SCRB_HB_SGL < 65535 →
    ∃ t, exec (.scrubFrameCheck [b]) s = .next t ∧ t.f Fld.SCRB_HB_SGL = s.f Fld.SCRB_HB_SGL + 1 ∧
      t.f Fld.SCRB_HB_DBL = s.f Fld.SCRB_HB_DBL ∧ t.scrub.at_ = some n ∧
      t = { s with scrub := t.scrub, regs := t.regs } ∧
      SameBut [Reg.SCRB_POS.base, Reg.SCRB_HB_SGL.base] s t) ∧
  (∀ s : State, s.mode ≠ .reset → (agreed s.voted.ctl && agreed s.voted.irqen) = true → ∃ t, exec .voteRepair s = .next t ∧
      t = s) ∧
  (∀ s : State, s.mode ≠ .reset → (agreed s.voted.ctl && agreed s.voted.irqen) = false →
    (majority s.voted.ctl).bit 31 = true →
    ∃ t, exec .voteRepair s = .next t ∧ t.word Reg.SCRB_CTL.base = majority s.voted.ctl ∧
      t.word Reg.SCRB_IRQEN.base = majority s.voted.irqen ∧
      t.voted = ⟨(majority s.voted.ctl, majority s.voted.ctl, majority s.voted.ctl),
        (majority s.voted.irqen, majority s.voted.irqen, majority s.voted.irqen)⟩ ∧
      t.on Fld.SCRB_STAT_VOTEFIX = true ∧ t.on Fld.SCRB_IRQ_VOTE = true ∧ t = { s with voted := t.voted, regs := t.regs } ∧
      SameBut [Reg.SCRB_STAT.base, Reg.SCRB_IRQ.base, Reg.SCRB_CTL.base, Reg.SCRB_IRQEN.base] s t) ∧
  (∀ (s : State) (fa : Nat) (flips : List Nat), s.scrub.touched = true → s.frameAt = some fa →
    flips.all (· < 1036) = true →
    ∃ t, exec (.scrubFrameCheck flips) s = .next t ∧
      t.scrub = { s.scrub with at_ := some fa, touched := false, discards := s.scrub.discards + 1,
                               hold := decide (4 ≤ s.scrub.discards + 1) } ∧
      t = { s with scrub := t.scrub, regs := t.regs } ∧ SameBut [Reg.SCRB_POS.base] s t) ∧
  (∀ (s : State) (n : Nat) (w : Word), n < 256 → s.underCheck (Reg.DIO_PIN_CFG.addr n 0) = true → s.scrub.hold = false →
    s.mode.pinWrites = true → w &&& 0x1FFFFFFF ≠ s.word (Reg.DIO_PIN_CFG.addr n 0) →
    ∃ t, exec (.dioPinCfgWrite n w) s = .next t ∧
      t = ({ s.setWord (Reg.DIO_PIN_CFG.addr n 0) (w &&& 0x1FFFFFFF) with scrub := { s.scrub with touched := true } } : State).counted) ∧
  (∀ (s : State) (n : Nat) (w : Word), n < 256 → s.underCheck (Reg.DIO_PIN_CFG.addr n 0) = true → s.scrub.hold = true →
    ∃ t, exec (.dioPinCfgWrite n w) s = .next t ∧
      t = ({ s with scrub := { s.scrub with held := s.scrub.held ++ [⟨Reg.DIO_PIN_CFG.addr n 0, w, false⟩] } } : State).counted) ∧
  (∀ (s : State) (fa m n : Nat) (w : Word), n < 256 → s.scrub.at_ = some fa → s.scrub.touched = false → frameType fa = 3 →
    s.scrub.held = [⟨Reg.DIO_PIN_CFG.addr n 0, w, false⟩] → nextFrame s.part fa = some m → s.mode.pinWrites = true →
    ∃ t, exec (.scrubFrameCheck []) s = .next t ∧ t.word (Reg.DIO_PIN_CFG.addr n 0) = w &&& 0x1FFFFFFF ∧
      t.scrub = { Scrub.init with at_ := some m }) ∧
  (∀ (s : State) (fa k a b : Nat), k < 24 → s.scrub.at_ = some fa → s.scrub.touched = false → s.scrub.held = [] →
    frameType fa < 2 → frameZone fa = k → fa < 2 ^ 24 → s.cbState k = 2 → a < 1024 → b < 1024 → a ≠ b →
    s.on Fld.TWN_STAT_PAIRED = false → s.on Fld.SCRB_CB_DBL_VALID k = false →
    (Tab.get (fun _ => 0) s.checks fa) = checkWord (s.frameWords fa) →
    ∃ t, exec (.scrubFrameCheck [a, b]) s = .next t ∧ t.cbState k = 2 ∧ t.on Fld.SCRB_CB_DBL_VALID k = true ∧
      t.f Fld.SCRB_CB_DBL_FA k = fa % 2 ^ Fld.SCRB_CB_DBL_FA.width ∧ t.on Fld.SCRB_IRQ_DBL = true ∧ t.mode = s.mode)

/-- DMA_PDIR_LO, DMA_PDIR_HI, AGE_CLOSE, BLK_HOLD, DMA_SNAP and COMPLETION_TIMEOUT (R398, R403, R410, R418, R449). That
AGE_CLOSE and BLK_HOLD come when their times have passed is the model's choice (log entry 35), as is the AER bit (log entry
37). -/
def Obligations.RingRegisters : Prop :=
  (∀ (s : State) (w : Word),
    ∃ t, exec (.dmaPdirLo w) s = .next t ∧
      t = (s.setWord Reg.DMA_PDIR_LO.base (w &&& 0xFFE00001)).counted ∧ t.word Reg.DMA_PDIR_LO.base = w &&& 0xFFE00001) ∧
  (∀ (s : State) (w : Word), s.entryUsed (s.f Fld.DMA_PDIR_IDX) = false →
    ∃ t, exec (.dmaPdirHi w) s = .next t ∧
      t.pd (s.f Fld.DMA_PDIR_IDX) = w.toNat * 2 ^ 32 + (s.word Reg.DMA_PDIR_LO.base).toNat ∧
      t.f Fld.DMA_PDIR_IDX = (s.f Fld.DMA_PDIR_IDX + 1) % 65536 ∧ Others (s.f Fld.DMA_PDIR_IDX) s.pd t.pd ∧
      t = { s with pdir := t.pdir, regs := t.regs } ∧ SameBut [Reg.TWN_HSEQ.base, Reg.DMA_PDIR_IDX.base] s t) ∧
  (∀ (s : State) (w : Word), s.entryUsed (s.f Fld.DMA_PDIR_IDX) = true →
    s.pd (s.f Fld.DMA_PDIR_IDX) ≠ w.toNat * 2 ^ 32 + (s.word Reg.DMA_PDIR_LO.base).toNat →
    ∃ t, exec (.dmaPdirHi w) s = .next t ∧ t.on Fld.DMA_STAT_WR_IGN = true ∧ t.pdir = s.pdir ∧
      t.f Fld.DMA_PDIR_IDX = (s.f Fld.DMA_PDIR_IDX + 1) % 65536 ∧ t = { s with regs := t.regs } ∧
      SameBut [Reg.TWN_HSEQ.base, Reg.DMA_PDIR_IDX.base, Reg.DMA_STAT.base] s t) ∧
  (∀ (s : State) (r : Nat) (b : RingBlock), r < 4096 → s.f Fld.DMA_MOD_AGE r ≠ 0 → s.standby = false → s.ringLive r = true →
    (s.ring r).opened = some b →
    ∃ t, exec (.ageClose r) s = .next t ∧
      t = s.setRing r { s.ring r with opened := none, closed := (s.ring r).closed ++ [b] }) ∧
  (∀ (s : State) (r : Nat), r < 4096 → s.f Fld.DMA_MOD_HOLD r ≠ 0 → 0 < (s.ring r).blkCount →
    ∃ t, exec (.blkHold r) s = .next t ∧
      t = (s.setRing r { s.ring r with blkCount := 0 }).flag Fld.DMA_IRQ_BLK r ∧ t.on Fld.DMA_IRQ_BLK r = true) ∧
  (∀ (s : State) (r : Nat), r < 4096 →
    ∃ t, exec (.dmaSnap r) s = .next t ∧
      t.f Fld.DMA_PRODUCED_LO r = (s.ring r).produced % 2 ^ 32 ∧
      t.f Fld.DMA_PRODUCED_HI r = (s.ring r).produced / 2 ^ 32 % 2 ^ 32 ∧
      t.f Fld.DMA_WRITTEN_LO r = (s.ring r).written % 2 ^ 32 ∧
      t.f Fld.DMA_WRITTEN_HI r = (s.ring r).written / 2 ^ 32 % 2 ^ 32 ∧
      t.f Fld.DMA_DROPPED_LO r = (s.ring r).droppedCnt % 2 ^ 32 ∧
      t.f Fld.DMA_DROPPED_HI r = (s.ring r).droppedCnt / 2 ^ 32 % 2 ^ 32 ∧ t = { s with regs := t.regs } ∧
      SameBut [Reg.TWN_HSEQ.base, Reg.DMA_PRODUCED_LO.addr r 0, Reg.DMA_PRODUCED_HI.addr r 0, Reg.DMA_WRITTEN_LO.addr r 0,
        Reg.DMA_WRITTEN_HI.addr r 0, Reg.DMA_DROPPED_LO.addr r 0, Reg.DMA_DROPPED_HI.addr r 0] s t) ∧
  (∀ (s : State) (r : Nat), r < 4096 → 0 < (s.ring r).asked →
    ∃ t, exec (.completionTimeout r) s = .next t ∧ t.on Fld.HOST_STAT_CPLTO = true ∧
      t = (s.flag Fld.HOST_STAT_CPLTO).setFunc (s.f Fld.DMA_CFG_FUNC r)
        { s.func (s.f Fld.DMA_CFG_FUNC r) with aer := (s.func (s.f Fld.DMA_CFG_FUNC r)).aer ||| 2 ^ 14 })

/-- RING_WORD, BLOCK_WRITE, RING_FETCH and FETCH_COMPLETION (R402, R404 to R406, R408 to R410, R415, R416, R504). That a ring
takes a word, writes a block and fetches at rows of its own is the model's choice (log entry 35). -/
def Obligations.RingBlocks : Prop :=
  (∀ (s : State) (r ns : Nat) (at_ : Int) (w : StreamWord) (rest : List StreamWord), r < 4096 → s.ringLive r = true →
    s.admitted r = true → s.downstream r = false → (s.feed (feedRing r)).inq = w :: rest → w.index ≠ 0 →
    s.twin.closeAt = [] → (s.ring r).stopIn = none → (s.ring r).opened = none → s.canOpen r = true → s.nothingHeld = true →
    1000 * s.wordBytes r ≤ min 8192000 ((s.ring r).tokens + s.f Fld.DMA_RATE r * ns) →
    ∃ t, exec (.ringWord r ns at_) s = .next t ∧
      t.ring r = { s.ring r with
        opened := some ⟨(s.f Fld.DMA_HEAD r + s.ringAhead r) % 2 ^ 32, [(w, at_)], s.stampOf r w at_, (s.ring r).dropped, (s.ring r).first, false⟩,
        tokens := min 8192000 ((s.ring r).tokens + s.f Fld.DMA_RATE r * ns) - 1000 * s.wordBytes r,
        produced := (s.ring r).produced + 1, dropped := false, first := false } ∧
      (t.feed (feedRing r)).inq = rest ∧ Others r s.ring t.ring ∧ Others (feedRing r) s.feed t.feed ∧
      t = { s with rings := t.rings, feeds := t.feeds }) ∧
  (∀ (s : State) (r ns : Nat) (at_ : Int) (w : StreamWord) (rest : List StreamWord) (b : RingBlock), r < 4096 →
    s.ringLive r = true → s.admitted r = true → s.downstream r = false → (s.feed (feedRing r)).inq = w :: rest →
    w.index ≠ 0 → s.twin.closeAt = [] → (s.ring r).stopIn = none → (s.ring r).opened = some b →
    b.words.length + 1 = s.ringW r → s.nothingHeld = true →
    1000 * s.wordBytes r ≤ min 8192000 ((s.ring r).tokens + s.f Fld.DMA_RATE r * ns) →
    ∃ t, exec (.ringWord r ns at_) s = .next t ∧ (t.ring r).opened = none ∧
      (t.ring r).closed = (s.ring r).closed ++ [{ b with words := b.words ++ [(w, at_)] }] ∧
      (t.ring r).produced = (s.ring r).produced + 1 ∧ (t.feed (feedRing r)).inq = rest ∧ Others r s.ring t.ring ∧
      t = { s with rings := t.rings, feeds := t.feeds }) ∧
  (∀ (s : State) (r ns : Nat) (at_ : Int) (w : StreamWord) (rest : List StreamWord), r < 4096 → s.ringLive r = true →
    s.admitted r = true → s.downstream r = false → (s.feed (feedRing r)).inq = w :: rest → w.index ≠ 0 →
    s.twin.closeAt = [] → (s.ring r).stopIn = none → (s.ring r).opened = none → s.canOpen r = false →
    s.on Fld.DMA_CFG_POLICY r = false → s.nothingHeld = true →
    1000 * s.wordBytes r ≤ min 8192000 ((s.ring r).tokens + s.f Fld.DMA_RATE r * ns) →
    ∃ t, exec (.ringWord r ns at_) s = .next t ∧ (t.ring r).droppedCnt = (s.ring r).droppedCnt + 1 ∧
      (t.ring r).produced = (s.ring r).produced + 1 ∧ (t.ring r).dropped = true ∧ (t.ring r).closed = (s.ring r).closed ∧
      t.on Fld.DMA_IRQ_DROP r = true ∧ (t.feed (feedRing r)).inq = rest ∧ Others r s.ring t.ring ∧
      t = { s with rings := t.rings, feeds := t.feeds, regs := t.regs } ∧ SameBut [Reg.DMA_IRQ.addr r 0] s t) ∧
  (∀ (s : State) (r : Nat) (b : RingBlock) (rest : List RingBlock), r < 4096 → s.admitted r = true → s.ringLive r = true →
    s.standby = false → s.dmaMay r = true → (s.ring r).closed = b :: rest → s.nothingHeld = true →
    s.f Fld.DMA_MOD_BLKS r = 0 → s.writeTurn r = true →
    ∃ t, exec (.blockWrite r) s = .next t ∧ t.arb = { s.arb with up := r } ∧ t.f Fld.DMA_HEAD r = (b.seq + 1) % 2 ^ 32 ∧
      t.ring r = { s.ring r with
        closed := rest, written := (s.ring r).written + b.words.length, blkCount := (s.ring r).blkCount + 1 } ∧
      t.hostMem = ((s.hostWrite (s.pageAddr (s.f Fld.DMA_DATA_DPG r) (4096 * (b.seq % s.nblk r)))
        (b.words.flatMap fun e => bytesLE (s.wordBytes r) e.1.val)).hostWrite
          (s.pageAddr (s.f Fld.DMA_REC_RPG r) (4096 * s.f Fld.DMA_REC_ROFS r + 32 * (b.seq % s.nblk r)))
          ((s.blockRecord r b).flatMap fun v => bytesLE 4 v)).hostMem ∧
      Others r s.ring t.ring ∧ t = { s with rings := t.rings, hostMem := t.hostMem, regs := t.regs, arb := t.arb } ∧
      SameBut [Reg.DMA_HEAD.addr r 0] s t) ∧
  (∀ (s : State) (r : Nat), r < 4096 → s.admitted r = true → s.downstream r = true → s.dmaMay r = true →
    s.ringLive r = true → (s.ring r).asked = 0 → (s.ring r).arrived = [] → 0 < s.ringFill r →
    (s.rings.foldl (fun n e => n + e.2.asked) 0 + 1) * s.requestsPerBlock ≤ 256 → s.sourceHeld (downCode r) = false →
    s.fetchTurn r = true →
    ∃ t, exec (.ringFetch r) s = .next t ∧ (t.ring r).asked = 1 ∧
      t = { s.setRing r { s.ring r with asked := 1 } with arb := { s.arb with down := r } }) ∧
  (∀ (s : State) (r : Nat) (data : List Nat), r < 4096 → data.length = 4096 → 0 < (s.ring r).asked → s.admitted r = true →
    s.ringLive r = true → s.sourceHeld (downCode r) = true →
    ∃ t, exec (.fetchCompletion r data) s = .next t ∧ (t.ring r).asked = (s.ring r).asked - 1 ∧
      (t.ring r).arrived = (s.ring r).arrived ++
        (List.range 2048).map (fun i => (data[2 * i]?).getD 0 % 256 + 256 * ((data[2 * i + 1]?).getD 0 % 256)) ∧
      (t.ring r).produced = (s.ring r).produced + 2048 ∧ Others r s.ring t.ring ∧ t = { s with rings := t.rings }) ∧
  (∀ (s : State) (r : Nat) (data : List Nat), r < 4096 → data.length = 4096 → (s.ring r).asked = 1 → s.admitted r = true →
    (s.ring r).arrived = [] → (s.ring r).sent = 0 → s.mode ≠ .bench → s.f Fld.DMA_MOD_BLKS r = 0 →
    (s.feeds.all fun e => e.2.src != downCode r) = true →
    ∃ t, exec (.fetchCompletion r data) s = .next t ∧
      t.ring r = { s.ring r with
        asked := 0, produced := (s.ring r).produced + 2048, written := (s.ring r).written + 2048,
        emitted := (s.ring r).emitted + 2048, blkCount := (s.ring r).blkCount + 1 } ∧
      t.f Fld.DMA_TAIL r = (s.f Fld.DMA_TAIL r + 1) % 2 ^ 32 ∧ Others r s.ring t.ring ∧
      t = { s with rings := t.rings, regs := t.regs } ∧ SameBut [Reg.DMA_TAIL.addr r 0] s t)

/-- TAIL_WRITE and HEAD_WRITE (R401). -/
def Obligations.PointerWritesAreChecked : Prop :=
  (∀ (s : State) (r : Nat) (w : Word), r < 4096 → s.admitted r = true → s.downstream r = false →
    (s.ring r).arrived = [] → (s.ring r).late = [] →
    (w.toNat + 2 ^ 32 - s.f Fld.DMA_TAIL r) % 2 ^ 32 ≤ (s.f Fld.DMA_HEAD r + 2 ^ 32 - s.f Fld.DMA_TAIL r) % 2 ^ 32 →
    ∃ t, exec (.tailWrite r w) s = .next t ∧ t.f Fld.DMA_TAIL r = w.toNat ∧
      t.on Fld.DMA_RSTAT_BADPTR r = s.on Fld.DMA_RSTAT_BADPTR r ∧
      t = { s with regs := t.regs, feeds := t.feeds, cabs := t.cabs, rings := t.rings } ∧
      SameBut ([Reg.DMA_TAIL.addr r 0, Reg.TWN_HSEQ.base] ++ deliveryRegs s) s t) ∧
  (∀ (s : State) (r : Nat) (w : Word), r < 4096 →
    (s.admitted r = false ∨
      (s.f Fld.DMA_HEAD r + 2 ^ 32 - s.f Fld.DMA_TAIL r) % 2 ^ 32 < (w.toNat + 2 ^ 32 - s.f Fld.DMA_TAIL r) % 2 ^ 32) →
    (s.ring r).arrived = [] → (s.ring r).late = [] →
    ∃ t, exec (.tailWrite r w) s = .next t ∧ t.on Fld.DMA_RSTAT_BADPTR r = true ∧
      t.f Fld.DMA_TAIL r = s.f Fld.DMA_TAIL r ∧
      t = { s with regs := t.regs, feeds := t.feeds, cabs := t.cabs, rings := t.rings } ∧
      SameBut ([Reg.DMA_RSTAT.addr r 0, Reg.TWN_HSEQ.base] ++ deliveryRegs s) s t) ∧
  (∀ (s : State) (r : Nat) (w : Word), r < 4096 → s.admitted r = true → s.downstream r = true →
    (w.toNat + 2 ^ 32 - s.f Fld.DMA_TAIL r) % 2 ^ 32 ≤ s.nblk r →
    (w.toNat + 2 ^ 32 - s.f Fld.DMA_HEAD r) % 2 ^ 32 ≤ 2 ^ 31 →
    ∃ t, exec (.headWrite r w) s = .next t ∧ t.f Fld.DMA_HEAD r = w.toNat ∧ t = { s with regs := t.regs } ∧
      SameBut [Reg.DMA_HEAD.addr r 0, Reg.TWN_HSEQ.base] s t) ∧
  (∀ (s : State) (r : Nat) (w : Word), r < 4096 →
    (s.admitted r = false ∨ s.nblk r < (w.toNat + 2 ^ 32 - s.f Fld.DMA_TAIL r) % 2 ^ 32 ∨
      2 ^ 31 < (w.toNat + 2 ^ 32 - s.f Fld.DMA_HEAD r) % 2 ^ 32) →
    ∃ t, exec (.headWrite r w) s = .next t ∧ t.on Fld.DMA_RSTAT_BADPTR r = true ∧ t = { s with regs := t.regs } ∧
      SameBut [Reg.DMA_RSTAT.addr r 0, Reg.TWN_HSEQ.base] s t)

/-- MSG_POST, MSG_TAKE, DB_SET, DB_CLR and CHANNEL_TIMEOUT (R430 to R434, R436, R440). -/
def Obligations.ChannelsAreUsed : Prop :=
  (∀ (s : State) (func c : Nat) (w : Word), func < 32 → c < 1024 → s.pageReached func c = true → s.holdsSnd func c = true →
    (s.chan c).full = false →
    ∃ t, exec (.msgPost func c w) s = .next t ∧
      t.chan c = { s.chan c with
        word := w, full := true, posts := ((s.chan c).posts + 1) % 65536, last := 1, arrive := true, waited := false,
        mute := false } ∧
      Others c s.chan t.chan ∧ t = ({ s with chans := t.chans, host := { s.host with vecs := t.host.vecs } } : State).counted) ∧
  (∀ (s : State) (func c : Nat) (w : Word), func < 32 → c < 1024 → s.pageReached func c = true → s.holdsSnd func c = true →
    (s.chan c).full = true →
    ∃ t, exec (.msgPost func c w) s = .next t ∧
      t.chan c = { s.chan c with rej := min 255 ((s.chan c).rej + 1), last := 2 } ∧
      Others c s.chan t.chan ∧ t = ({ s with chans := t.chans, host := { s.host with vecs := t.host.vecs } } : State).counted) ∧
  (∀ (s : State) (func c : Nat) (w : Word), func < 32 → c < 1024 → s.pageReached func c = true → s.holdsSnd func c = false →
    ∃ t, exec (.msgPost func c w) s = .next t ∧ t.chans = s.chans ∧ t.on Fld.PGH_STAT_BADACC = true ∧
      t.f Fld.PGH_BADCHAN_FUNC = func ∧ t.f Fld.PGH_BADCHAN_CHAN = c ∧
      t = { s with regs := t.regs, host := { s.host with vecs := t.host.vecs } } ∧
      SameBut [Reg.TWN_HSEQ.base, Reg.PGH_STAT.base, Reg.PGH_BADCHAN.base] s t) ∧
  (∀ (s : State) (func c f x : Nat), func < 32 → c < 1024 → s.pageReached func c = true → s.holdsRcv func c = true →
    (s.chan c).full = true →
    (s.chan c).snd = (Agent.host f x).code → f < 32 → x < 1024 → (s.chan c).mute = false →
    s.on Fld.DEV_COMPAT_HERITAGE = false →
    ∃ t, exec (.msgTake func c) s = .next t ∧ t.readData = (s.chan c).word ∧
      t.chan c = { s.chan c with
        full := false, takes := ((s.chan c).takes + 1) % 65536, srst := false, emptyEv := true } ∧
      Others c s.chan t.chan ∧
      t = { s with chans := t.chans, readData := t.readData, host := { s.host with vecs := t.host.vecs } }) ∧
  (∀ (s : State) (func c : Nat), func < 32 → c < 1024 → s.pageReached func c = true → s.holdsRcv func c = false →
    ∃ t, exec (.msgTake func c) s = .next t ∧ t.readData = 0 ∧ t.chans = s.chans ∧ t.on Fld.PGH_STAT_BADACC = true ∧
      t.f Fld.PGH_BADCHAN_FUNC = func ∧ t.f Fld.PGH_BADCHAN_CHAN = c) ∧
  (∀ (s : State) (func c : Nat) (w : Word), func < 32 → c < 1024 → s.pageReached func c = true → s.holdsSnd func c = true →
    ∃ t, exec (.dbSet func c w) s = .next t ∧ t.chan c = { s.chan c with db := (s.chan c).db ||| w } ∧
      Others c s.chan t.chan ∧ t = ({ s with chans := t.chans, host := { s.host with vecs := t.host.vecs } } : State).counted) ∧
  (∀ (s : State) (func c : Nat) (w : Word), func < 32 → c < 1024 → s.pageReached func c = true → s.holdsRcv func c = true →
    ∃ t, exec (.dbClr func c w) s = .next t ∧ t.chan c = { s.chan c with db := (s.chan c).db &&& ~~~w } ∧
      Others c s.chan t.chan ∧ t = ({ s with chans := t.chans, host := { s.host with vecs := t.host.vecs } } : State).counted) ∧
  (∀ (s : State) (func c : Nat) (w : Word), func < 32 → c < 1024 → s.pageReached func c = false →
    ∃ t, exec (.msgPost func c w) s = .next t ∧ t = s.completes (if s.host.perst then .unsupported else .dropped)) ∧
  (∀ (s : State) (func c : Nat), func < 32 → c < 1024 → s.pageReached func c = false →
    ∃ t, exec (.msgTake func c) s = .next t ∧ t = s.completes (if s.host.perst then .unsupported else .dropped)) ∧
  (∀ (s : State) (func c : Nat) (w : Word), func < 32 → c < 1024 → s.pageReached func c = false →
    ∃ t, exec (.dbSet func c w) s = .next t ∧ t = s.completes (if s.host.perst then .unsupported else .dropped)) ∧
  (∀ (s : State) (func c : Nat) (w : Word), func < 32 → c < 1024 → s.pageReached func c = false →
    ∃ t, exec (.dbClr func c w) s = .next t ∧ t = s.completes (if s.host.perst then .unsupported else .dropped)) ∧
  (∀ (s : State) (c f x : Nat), c < 1088 → s.part.isTwin = true → (s.chan c).alloc = true → (s.chan c).full = true →
    (s.chan c).waited = false → (s.chan c).snd = (Agent.host f x).code → f < 32 → x < 1024 →
    ∃ t, exec (.channelTimeout c) s = .next t ∧
      t.chan c = { s.chan c with waited := true, timeout := true } ∧ Others c s.chan t.chan ∧
      t = { s with chans := t.chans })

/-- REGISTER_WRITE, RC_READ, FORWARDED_WRITE, SOURCE_WRITE and CLOCK_STOPPED (R10, R19, R24, R452 to R458, R497, R523). That
a request beyond its BAR changes nothing, that LONGACC leaves HOST_BADOFS, when the detector's mark is looked at, and that a
row of one register is the access at the moment it takes effect, is the model's choice (log entry 37). -/
def Obligations.HostAccesses : Prop :=
  (∀ (s : State) (tick : Nat) (w : Word), s.funcAnswers 0 = true → s.on Fld.TWN_STAT_PAIRED = false →
    ∃ t, exec (.registerWrite tick ⟨0, 0, Reg.HOST_IRQEN.base, 1, some [w], [], false⟩) s = .next t ∧
      t.f Fld.HOST_IRQEN = w.bits 0 6 ∧
      t = { s with lcs := (s.atAccess tick).lcs, regs := t.regs, host := { s.host with vecs := t.host.vecs } } ∧
      SameBut [Reg.HOST_IRQEN.base] s t) ∧
  (∀ (s : State) (tick : Nat) (w : Word), s.funcAnswers 0 = true → s.on Fld.TWN_STAT_PAIRED = false →
    ∃ t, exec (.registerWrite tick ⟨0, 0, Reg.HOST_IRQEN.base, 1, some [w], [0], false⟩) s = .next t ∧
      t.on Fld.HOST_STAT_PARTIAL = true ∧ t.f Fld.HOST_BADOFS_FUNC = 0 ∧ t.f Fld.HOST_BADOFS_BAR = 0 ∧
      t.f Fld.HOST_BADOFS_OFS = Reg.HOST_IRQEN.base ∧
      t = { s with lcs := (s.atAccess tick).lcs, regs := t.regs, host := { s.host with vecs := t.host.vecs } } ∧
      SameBut [Reg.HOST_STAT.base, Reg.HOST_BADOFS.base] s t) ∧
  (∀ (s : State) (tick : Nat) (x : HostAccess), x.ok = true → x.wr.isSome = true → s.barSize x.func x.bar < x.ofs + 4 →
    ∃ t, exec (.registerWrite tick x) s = .next t ∧
      t = (s.atAccess tick).completes (if s.host.perst then .unsupported else .dropped)) ∧
  (∀ (s : State) (tick : Nat) (x : HostAccess), x.ok = true → x.wr.isSome = true → s.funcAnswers x.func = true →
    x.ofs + 4 ≤ s.barSize x.func x.bar → 2 < x.len →
    ∃ t, exec (.registerWrite tick x) s = .next t ∧
      t = ((s.atAccess tick).flag Fld.HOST_STAT_LONGACC).aer x.func 20) ∧
  (∀ (s : State) (tick g : Nat) (w : Word), g < s.part.numCG → g < 24 → s.funcAnswers 0 = true →
    s.on Fld.TWN_STAT_PAIRED = false → s.sclk g = false → s.lclk = false → s.host.stopped.contains (1 + g) = true →
    s.host.held = [] →
    ∃ t, exec (.registerWrite tick ⟨0, 0, Reg.CG_CTL.addr g 0, 1, some [w], [], false⟩) s = .next t ∧
      t.on Fld.HOST_STAT_STOPWR = true ∧ t.f Fld.HOST_BADOFS_OFS = Reg.CG_CTL.addr g 0 ∧
      t = { s with regs := t.regs, host := { s.host with vecs := t.host.vecs } } ∧
      SameBut [Reg.HOST_STAT.base, Reg.HOST_BADOFS.base] s t) ∧
  (∀ (s : State) (tick g : Nat), g < s.part.numCG → g < 24 → s.funcAnswers 0 = true → s.on Fld.TWN_STAT_PAIRED = false →
    s.sclk g = false → s.host.stopped.contains (1 + g) = true → s.host.held = [] →
    ∃ t, exec (.rcRead tick ⟨0, 0, Reg.CG_EVCNT.addr g 0, 1, none, [], false⟩) s = .next t ∧
      t.host.cpl = .value [0xFFFF0BAD] ∧ t.regs = s.regs) ∧
  (∀ (s : State) (tick n : Nat), n < 8 → s.funcAnswers 0 = true → s.on Fld.TWN_STAT_PAIRED = false → s.lclk = true →
    s.host.held = [] →
    ∃ t, exec (.rcRead tick ⟨0, 0, Reg.PR_CNT.addr n 0, 1, none, [], false⟩) s = .next t ∧
      t.host.cpl = .value [s.word (Reg.PR_CNT.addr n 0)] ∧ t.word (Reg.PR_CNT.addr n 0) = 0 ∧
      t = { s with lcs := (s.atAccess tick).lcs, readData := t.readData, regs := t.regs, host := t.host } ∧
      SameBut [Reg.PR_CNT.addr n 0] s t) ∧
  (∀ (s : State) (tick : Nat) (w : Word), s.funcAnswers 0 = true → s.on Fld.TWN_STAT_PAIRED = true → s.standby = false →
    ∃ t, exec (.registerWrite tick ⟨0, 0, Reg.HOST_IRQEN.base, 1, some [w], [], false⟩) s = .next t ∧
      t.twin = { s.twin with waiting := s.twin.waiting ++
        [((s.atAccess tick).lcs.time + 2000, ⟨0, 0, Reg.HOST_IRQEN.base, 1, some [w], [], false⟩)] } ∧
      t = { s with lcs := (s.atAccess tick).lcs, twin := t.twin }) ∧
  (∀ (s : State) (tick : Nat) (w : Word), s.funcAnswers 0 = true → s.standby = true →
    s.f Fld.HOST_IRQEN ≠ w.bits 0 6 →
    ∃ t, exec (.registerWrite tick ⟨0, 0, Reg.HOST_IRQEN.base, 1, some [w], [], false⟩) s = .next t ∧
      t = (s.atAccess tick).flag Fld.TWN_STAT_WR_IGN) ∧
  (∀ (s : State) (tick : Nat) (w : Word), s.funcAnswers 0 = true → s.standby = true →
    (s.atAccess tick).writeWords ⟨0, 0, Reg.HOST_IRQEN.base, 1, some [w], [], false⟩ = s.atAccess tick →
    ∃ t, exec (.registerWrite tick ⟨0, 0, Reg.HOST_IRQEN.base, 1, some [w], [], false⟩) s = .next t ∧ t = s.atAccess tick) ∧
  (∀ (s : State) (tick ofs n : Nat), s.funcAnswers 0 = true → 1 ≤ n → n ≤ 1024 → ofs + 4 ≤ 0x10000 →
    ∃ t, exec (.rcRead tick ⟨0, 4, ofs, n, none, [], false⟩) s = .next t ∧
      t = (s.atAccess tick).completes (.value (List.replicate n 0))) ∧
  (∀ (s : State) (tick due : Nat) (w : Word) (rest : List (Nat × HostAccess)), s.standby = false →
    s.twin.waiting = (due, ⟨0, 0, Reg.HOST_IRQEN.base, 1, some [w], [], false⟩) :: rest → due ≤ tick →
    ∃ t, exec (.forwardedWrite tick none) s = .next t ∧ t.f Fld.HOST_IRQEN = w.bits 0 6 ∧
      t.f Fld.TWN_HSEQ = (s.f Fld.TWN_HSEQ + 1) % 2 ^ 32 ∧ t.twin = { s.twin with waiting := rest } ∧
      t = { s with lcs := (s.atAccess tick).lcs, regs := t.regs, twin := t.twin,
                   host := { s.host with vecs := t.host.vecs } } ∧
      SameBut [Reg.HOST_IRQEN.base, Reg.TWN_HSEQ.base] s t) ∧
  (∀ (s : State) (tick : Nat) (w : Word), s.standby = true →
    ∃ t, exec (.forwardedWrite tick (some ⟨0, 0, Reg.HOST_IRQEN.base, 1, some [w], [], false⟩)) s = .next t ∧
      t.f Fld.HOST_IRQEN = w.bits 0 6 ∧ t.f Fld.TWN_HSEQ = (s.f Fld.TWN_HSEQ + 1) % 2 ^ 32 ∧
      t = { s with lcs := (s.atAccess tick).lcs, regs := t.regs, host := { s.host with vecs := t.host.vecs } } ∧
      SameBut [Reg.HOST_IRQEN.base, Reg.TWN_HSEQ.base] s t) ∧
  (∀ (s : State) (n : Nat) (w : Word), n < s.part.numFC → n < 48 → s.sclk (s.fcGroup n (s.f Fld.FC_SRC_SRC n)) = true →
    s.on Fld.FC_CTL_EN n = false →
    ∃ t, exec (.sourceWrite (Reg.FC_SRC.addr n 0) w) s = .next t ∧
      t.f Fld.FC_SRC_SRC n = storedSource .chain (w.bits 0 16) ∧
      (t.feed (feedFC n)).src = storedSource .chain (w.bits 0 16) ∧ Others (feedFC n) s.feed t.feed ∧
      t = { s with feeds := t.feeds, regs := t.regs } ∧ SameBut [Reg.TWN_HSEQ.base, Reg.FC_SRC.addr n 0] s t) ∧
  (∀ (s : State) (d : Nat) (w : Word), d < s.part.numDA → d < 24 → s.sclk d = true → s.on Fld.DA_CTL_EN d = false →
    ∃ t, exec (.sourceWrite (Reg.DA_SRC.addr d 0) w) s = .next t ∧
      t.f Fld.DA_SRC_SRC d = storedSource .dac (w.bits 0 16) ∧
      (t.feed (feedDA d)).src = storedSource .dac (w.bits 0 16) ∧ Others (feedDA d) s.feed t.feed ∧
      t = { s with feeds := t.feeds, regs := t.regs } ∧ SameBut [Reg.TWN_HSEQ.base, Reg.DA_SRC.addr d 0] s t) ∧
  (∀ (s : State) (k j : Nat) (w : Word), k < s.part.numCB → k < 24 → j < 4 →
    storedSource .port (w.bits 0 16) ≠ s.fpSrc k j →
    ∃ t, exec (.sourceWrite (Reg.DIO_FPI_SRC.addr k j) w) s = .next t ∧
      t.f Fld.DIO_FPI_SRC_SRC k j = storedSource .port (w.bits 0 16) ∧
      (t.feed (feedFP k j)).src = storedSource .port (w.bits 0 16) ∧ Others (feedFP k j) s.feed t.feed ∧
      Others k s.cab t.cab ∧ t = { s with feeds := t.feeds, cabs := t.cabs, regs := t.regs } ∧
      SameBut [Reg.TWN_HSEQ.base, Reg.DIO_FPI_SRC.addr k j, Reg.DIO_FPI_DROP.addr k j] s t) ∧
  (∀ (s : State) (k : Nat), k < 25 → s.clockRuns k = false → s.host.held = [] →
    ∃ t, exec (.clockStopped k) s = .next t ∧ t.host.stopped.contains k = true ∧
      t = { s with host := { s.host with stopped := t.host.stopped } }) ∧
  (∀ (s : State) (tick g : Nat) (w : Word), g < s.part.numCG → g < 24 → s.funcAnswers 0 = true →
    s.on Fld.TWN_STAT_PAIRED = false → s.sclk g = false → s.lclk = false → s.host.stopped.contains (1 + g) = false →
    s.host.held = [] →
    ∃ t, exec (.registerWrite tick ⟨0, 0, Reg.CG_CTL.addr g 0, 1, some [w], [], false⟩) s = .next t ∧
      t = { s with host := { s.host with held := [(⟨0, 0, Reg.CG_CTL.addr g 0, 1, some [w], [], false⟩, false)] } }) ∧
  (∀ (s : State) (g : Nat) (w : Word), g < s.part.numCG → g < 24 → s.sclk g = false →
    s.host.held = [(⟨0, 0, Reg.CG_CTL.addr g 0, 1, some [w], [], false⟩, false)] →
    ∃ t, exec (.clockStopped (1 + g)) s = .next t ∧ t.host.held = [] ∧ t.host.stopped.contains (1 + g) = true ∧
      t.on Fld.HOST_STAT_STOPWR = true ∧ t.f Fld.HOST_BADOFS_OFS = Reg.CG_CTL.addr g 0 ∧
      t = { s with regs := t.regs, host := { s.host with vecs := t.host.vecs, stopped := t.host.stopped, held := [] } } ∧
      SameBut [Reg.HOST_STAT.base, Reg.HOST_BADOFS.base] s t) ∧
  (∀ (s : State) (tick n : Nat), n < 8 → s.funcAnswers 0 = true → s.on Fld.TWN_STAT_PAIRED = false → s.lclk = false →
    s.host.stopped.contains 0 = false → s.host.held = [] →
    ∃ t, exec (.rcRead tick ⟨0, 0, Reg.PR_CNT.addr n 0, 1, none, [], false⟩) s = .next t ∧
      t = { s with host := { s.host with held := [(⟨0, 0, Reg.PR_CNT.addr n 0, 1, none, [], false⟩, false)], cpl := .dropped } }) ∧
  (∀ (s : State) (w : Word), s.on Fld.TWN_STAT_PAIRED = true →
    ∃ t, exec (.dmaPdirLo w) s = .next t ∧ t.word (Reg.DMA_PDIR_LO.addr 0 0) = w &&& 0xFFE00001 ∧
      t.f Fld.TWN_HSEQ = (s.f Fld.TWN_HSEQ + 1) % 2 ^ 32 ∧ t = { s with regs := t.regs } ∧
      SameBut [Reg.DMA_PDIR_LO.addr 0 0, Reg.TWN_HSEQ.base] s t) ∧
  (∀ (s : State) (r : Nat) (w : Word), r < 4096 → s.on Fld.TWN_STAT_PAIRED = true →
    ∃ t, exec (.headWrite r w) s = .next t ∧ t.f Fld.TWN_HSEQ = (s.f Fld.TWN_HSEQ + 1) % 2 ^ 32 ∧
      t = { s with regs := t.regs } ∧ SameBut [Reg.DMA_HEAD.addr r 0, Reg.DMA_RSTAT.addr r 0, Reg.TWN_HSEQ.base] s t) ∧
  (∀ (s : State) (k : Nat), k < 16 → s.lclk = true → s.on Fld.TWN_STAT_PAIRED = true →
    ∃ t, exec (.capPop k) s = .next t ∧ t.capture k = (s.capture k).drop 1 ∧
      t.f Fld.TWN_HSEQ = (s.f Fld.TWN_HSEQ + 1) % 2 ^ 32 ∧ t = { s with lcs := t.lcs, regs := t.regs } ∧
      SameBut [Reg.TWN_HSEQ.base] s t)

/-- LINK_TRAINING, PCIE_LINK_DOWN, PERST_N_ASSERT, PERST_N_RELEASE, CONFIG_REQUEST, MSIX_MESSAGE, FUNCTION_LEVEL_RESET and
FLR_COMPLETE (R412, R447, R450, R451, R453, R454, R459 to R463). When a vector is looked at, the message that a cause owes after
it has fallen, and which items a configuration request reaches, are the model's choice (log entry 37); what PERST_N and a
function-level reset do to the functions is its reading (log entry 38). -/
def Obligations.HostLink : Prop :=
  (∀ (s : State) (speed width mps mrrs : Nat), 1 ≤ speed → speed ≤ 4 → [1, 2, 4, 8, 16].contains width = true → mps ≤ 2 →
    mrrs ≤ 5 → s.host.porst = true → s.host.perst = true → s.part.isTwin = false → s.nothingHeld = true →
    ∃ t, exec (.linkTraining speed width mps mrrs) s = .next t ∧ t.on Fld.HOST_LINK_UP = true ∧
      t.f Fld.HOST_LINK_SPEED = speed ∧ t.f Fld.HOST_LINK_WIDTH = width ∧ t.f Fld.HOST_LINK_MPS = mps ∧
      t.f Fld.HOST_LINK_MRRS = mrrs ∧ t.f Fld.DMA_BUDGET = linkBudget speed width mps ∧
      t.on Fld.DMA_GSTAT_OVER_UP = decide (linkBudget speed width mps < s.f Fld.DMA_UPSUM) ∧
      t.on Fld.DMA_GSTAT_OVER_DN = decide (linkBudget speed width mps < s.f Fld.DMA_DNSUM) ∧
      t.on Fld.HOST_STAT_RETRAIN = (s.on Fld.HOST_STAT_RETRAIN || s.host.trained) ∧
      t = { s with host := { s.host with trained := true }, regs := t.regs } ∧
      SameBut [Reg.HOST_LINK.base, Reg.HOST_STAT.base, Reg.DMA_BUDGET.base, Reg.DMA_GSTAT.base] s t) ∧
  (∀ s : State, ∃ t, exec .pcieLinkDown s = .next t ∧ t = s.setF Fld.HOST_LINK_UP 0 ∧ t.on Fld.HOST_LINK_UP = false) ∧
  (∀ (s : State) (r : Nat), r < 4096 → s.admitted r = true →
    ∃ t, exec .perstNAssert s = .next t ∧ t.host.perst = false ∧ t.host.funcs = [] ∧ t.host.trained = false ∧
      t.host.bar2 = 4 ∧ t.on Fld.HOST_LINK_UP = false ∧ t.f Fld.HOST_NUMVF = 0 ∧ t.admitted r = false ∧
      t.on Fld.DMA_RSTAT_RESET r = true ∧ t.mode = s.mode ∧ t.groups = s.groups ∧ t.chains = s.chains) ∧
  (∀ s : State, ∃ t, exec .perstNRelease s = .next t ∧ t = { s with host := { s.host with perst := true } }) ∧
  (∀ (s : State) (func : Nat) (i : ConfigItem), func < 32 →
    (s.host.porst = false ∨ s.host.perst = false ∨ s.on Fld.HOST_LINK_UP = false) →
    ∃ t, exec (.configRequest func i) s = .next t ∧ t = s.completes .dropped) ∧
  (∀ (s : State) (func : Nat) (i : ConfigItem), func < 32 → s.host.porst = true → s.host.perst = true →
    s.on Fld.HOST_LINK_UP = true → s.host.ready = false →
    ∃ t, exec (.configRequest func i) s = .next t ∧ t = s.completes .retry) ∧
  (∀ (s : State) (func : Nat) (i : ConfigItem), func < 32 → s.host.porst = true → s.host.perst = true →
    s.on Fld.HOST_LINK_UP = true → s.host.ready = true → 0 < func → s.f Fld.HOST_NUMVF < func →
    ∃ t, exec (.configRequest func i) s = .next t ∧ t = s.completes .unsupported) ∧
  (∀ (s : State) (func v : Nat) (i : ConfigItem), func < 32 → s.host.porst = true → s.host.perst = true →
    s.on Fld.HOST_LINK_UP = true → s.host.ready = true → func ≤ s.f Fld.HOST_NUMVF →
    ([(ConfigItem.vendorId, 0x1ED5), (ConfigItem.deviceId, s.part.code + if func = 0 then 0 else 1),
      (ConfigItem.classCode, 0x118000), (ConfigItem.number .msixVectors, vectorsOf func)] ++
      [PciCap.powerManagement, .pciExpress, .msix, .aer, .serialNumber, .flr].map (fun c => (ConfigItem.capability c, 1)) ++
      [PciCap.ari, .sriov, .resizableBar].map (fun c => (ConfigItem.capability c, if func = 0 then 1 else 0)) ++
      [PciCap.ats, .pasid, .pri, .atomicOps, .tph, .ltr, .aspmL0s, .l1Substates, .msi, .intx, .gt32].map
        (fun c => (ConfigItem.capability c, 0))).contains (i, v) = true →
    ∃ t, exec (.configRequest func i) s = .next t ∧ t = s.completes (.value [BitVec.ofNat 32 v])) ∧
  (∀ (s : State) (func : Nat) (b : Bool), func < 32 → s.host.porst = true → s.host.perst = true →
    s.on Fld.HOST_LINK_UP = true → s.host.ready = true → func ≤ s.f Fld.HOST_NUMVF → s.nothingHeld = true →
    ∃ t, exec (.configRequest func (.busMaster b)) s = .next t ∧ (t.func func).busMaster = b ∧
      t.host.cpl = .value [] ∧ Others func s.func t.func ∧ t = { s with host := t.host }) ∧
  (∀ (s : State) (n : Nat), s.host.porst = true → s.host.perst = true → s.on Fld.HOST_LINK_UP = true →
    s.host.ready = true → n ≤ 31 → s.f Fld.HOST_NUMVF ≤ n →
    ∃ t, exec (.configRequest 0 (.numVf n)) s = .next t ∧ t = (s.setF Fld.HOST_NUMVF n).completes (.value []) ∧
      t.f Fld.HOST_NUMVF = n) ∧
  (∀ (s : State) (m : Nat), s.host.porst = true → s.host.perst = true → s.on Fld.HOST_LINK_UP = true →
    s.host.ready = true → (m = 1 ∨ m = 2 ∨ m = 4) →
    ∃ t, exec (.configRequest 0 (.bar2Size m)) s = .next t ∧
      t = { s with host := { s.host with bar2 := m, cpl := .value [] } }) ∧
  (∀ (s : State) (v : Nat), v < 2048 → s.cause 0 v = true → s.canSend 0 v = true → (s.vec 0 v).cause = false →
    ∃ t, exec (.msixMessage 0 v) s = .next t ∧ t.vec 0 v = ⟨true, false, false⟩ ∧
      t.hostMem = (s.hostWrite ((s.word (Reg.MSIX_ADDR_LO.addr v 0)).toNat +
        2 ^ 32 * (s.word (Reg.MSIX_ADDR_HI.addr v 0)).toNat)
        (bytesLE 4 (s.word (Reg.MSIX_DATA.addr v 0)).toNat)).hostMem ∧
      t = { s with hostMem := t.hostMem, host := { s.host with vecs := t.host.vecs } }) ∧
  (∀ (s : State) (f v : Nat), f < 32 → v < vectorsOf f → s.cause f v = true → s.canSend f v = false →
    (s.vec f v).cause = false → (s.vec f v).owed = false →
    ∃ t, exec (.msixMessage f v) s = .next t ∧ t = s.setVec f v ⟨true, true, false⟩) ∧
  (∀ (s : State) (f v : Nat), f < 32 → v < vectorsOf f → s.cause f v = false → (s.vec f v).owed = false →
    ∃ t, exec (.msixMessage f v) s = .next t ∧ t = s.setVec f v Vector.init) ∧
  (∀ (s : State) (f r : Nat), 0 < f → f < 32 → f ≤ s.f Fld.HOST_NUMVF → r < 4096 → s.admitted r = true →
    s.f Fld.DMA_CFG_FUNC r = f →
    ∃ t, exec (.functionLevelReset f) s = .next t ∧ t.func f = { PciFunc.init with flr := true } ∧
      t.admitted r = false ∧ t.on Fld.DMA_RSTAT_RESET r = true ∧ Others f s.func t.func ∧ t.mode = s.mode ∧
      t.f Fld.HOST_NUMVF = s.f Fld.HOST_NUMVF) ∧
  (∀ (s : State) (f r : Nat), 0 < f → f < 32 → f ≤ s.f Fld.HOST_NUMVF → r < 4096 → s.f Fld.DMA_CFG_FUNC r ≠ f →
    ∃ t, exec (.functionLevelReset f) s = .next t ∧ t.admitted r = s.admitted r ∧ t.ring r = s.ring r ∧
      t.f Fld.DMA_HEAD r = s.f Fld.DMA_HEAD r) ∧
  (∀ (s : State) (f : Nat), f < 32 → ∃ t, exec (.flrComplete f) s = .next t ∧
      t = s.setFunc f { s.func f with flr := false } ∧ (t.func f).flr = false) ∧
  (∀ (s : State) (v : Nat), v < 2048 → s.cause 0 v = false → (s.vec 0 v).owed = true →
    ∃ t, exec (.msixMessage 0 v) s = .next t ∧ t.vec 0 v = Vector.init ∧
      t.hostMem = (s.hostWrite ((s.word (Reg.MSIX_ADDR_LO.addr v 0)).toNat +
        2 ^ 32 * (s.word (Reg.MSIX_ADDR_HI.addr v 0)).toNat)
        (bytesLE 4 (s.word (Reg.MSIX_DATA.addr v 0)).toNat)).hostMem ∧
      t = { s with hostMem := t.hostMem, host := { s.host with vecs := t.host.vecs } })

/-- GET_INFO, GET_MODE, CFG_STATUS, PWR_CEILING, UNKNOWN_COMMAND_CODE; ST_REFUSED; IGN (R46, R48, R466 to R469, R514). -/
def Obligations.BureauTransport : Prop :=
  (∀ (s : State) (tag : Nat) (a : Word), s.takes = true → s.standby = false → commandLegal 0x01 s.mode = true →
    a.bit 0 = false →
    ∃ t, exec (.getInfo tag [a]) s = .next t ∧ t.on Fld.BUR_STATUS_BUSY = true ∧ t.f Fld.BUR_CMD_CODE = 1 ∧
      t.f Fld.BUR_CMD_TAG = tag % 256 ∧ t.arg 0 = a ∧
      t.bur.job = some { Job.init with
        results := [argIs 0 (s.view Reg.DEV_ID.base).toNat, argIs 1 Config.dieId, argIs 2 (Config.dieId / 2 ^ 32),
          argIs 3 (s.view Reg.BUR_BOOT.base).toNat, argIs 4 (s.view Reg.BUR_POLICY.base).toNat, argIs 5 0] } ∧
      t = { s with regs := t.regs, bur := { s.bur with mirrored := false, job := t.bur.job } } ∧ SameBut transportRegs s t) ∧
  (∀ (s : State) (tag : Nat), s.takes = true → s.mode.code ≠ 0 →
    ∃ t, exec (.getMode tag []) s = .next t ∧
      t.bur.job = some { Job.init with
        results := [argIs 0 (s.view Reg.DEV_MODE.base).toNat, argIs 1 (s.view Reg.DEV_COMPAT.base).toNat] } ∧
      t = { s with regs := t.regs, bur := { s.bur with mirrored := false, job := t.bur.job } } ∧ SameBut transportRegs s t) ∧
  (∀ (s : State) (tag : Nat), s.takes = true → s.mode.code ≠ 0 →
    ∃ t, exec (.cfgStatus tag []) s = .next t ∧
      t.bur.job = some { Job.init with
        results := [argIs 0 (s.view Reg.CFG_STAT.base).toNat, argIs 1 (s.view Reg.CFG_WORDS.base).toNat,
          argIs 2 (s.view Reg.CFG_FRAMES.base).toNat, argIs 3 (s.view Reg.CFG_ERRPOS.base).toNat,
          argIs 4 (s.view Reg.SCRB_RLD_STAT.base).toNat] } ∧
      t = { s with regs := t.regs, bur := { s.bur with mirrored := false, job := t.bur.job } } ∧ SameBut transportRegs s t) ∧
  (∀ (s : State) (tag : Nat) (c : Word), s.takes = true → s.standby = false → commandLegal 0x50 s.mode = true →
    (c.bits 0 4 = 5 ∨ c.bits 0 4 = 7 ∨ c.bits 0 4 = 8 ∨ c.bits 0 4 = 9) → s.mode.code ≤ c.bits 0 4 →
    ∃ t, exec (.pwrCeiling tag [c]) s = .next t ∧ t.f Fld.PWR_STAT_CEIL = c.bits 0 4 ∧
      t.bur.job = some { Job.init with results := [argIs 0 (s.f Fld.PWR_STAT_CEIL)] } ∧
      t = { s with regs := t.regs, bur := { s.bur with mirrored := false, job := t.bur.job } } ∧
      SameBut (Reg.PWR_STAT.base :: transportRegs) s t) ∧
  (∀ (s : State) (code tag : Nat), code < 256 → isCommandCode code = false → s.takes = true →
    ∃ t, exec (.unknownCommandCode code tag) s = .next t ∧ t.bur.job = some { Job.init with status := stBadArg } ∧
      t.f Fld.BUR_CMD_CODE = code ∧
      t = { s with regs := t.regs, bur := { s.bur with mirrored := false, job := t.bur.job } } ∧ SameBut transportRegs s t) ∧
  (∀ (s : State) (tag : Nat) (args : List Word) (meas : List CalMeas), s.takes = true → s.standby = false → s.mode ≠ .bench →
    args.length ≤ 16 → (args.headD 0).bits 0 3 = 0 → args.length ≠ 0 →
    ∃ t, exec (.calRun tag args meas) s = .next t ∧ t.bur.job = some { Job.init with status := stRefused } ∧
      t = { s with regs := t.regs, bur := { s.bur with mirrored := false, job := t.bur.job } } ∧ SameBut transportRegs s t) ∧
  (∀ (s : State) (tag : Nat) (args : List Word) (j : Job), s.on Fld.BUR_STATUS_BUSY = true → s.bur.job = some j →
    ∃ t, exec (.setMode tag args) s = .next t ∧ t = s.flag Fld.BUR_STATUS_IGN)

/-- SET_MODE, CFG_BEGIN, CFG_ABORT, REGION_LOAD_BEGIN, REGION_RELEASE (R36, R37, R47, R135, R137, R338, R356, R361, R367,
R380 to R385). -/
def Obligations.ModeCommands : Prop :=
  (∀ (s : State) (tag g : Nat) (a : Word), s.takes = true → s.standby = false → (s.mode = .run ∨ s.mode = .blank) →
    a.bits 0 4 = 10 → g < s.part.numCG →
    ∃ t, exec (.setMode tag [a]) s = .next t ∧ t.mode = .bench ∧ t.f Fld.DEV_MODE_CAUSE = 2 ∧
      t.f Fld.DEV_MODE_PREV = s.mode.code ∧ t.on Fld.DEV_MODE_CHG = true ∧ (t.group g).core.held = [] ∧
      (t.group g).core.seq.st = (match (s.group g).core.seq.st with | .idle => .idle | .armed => .armed | _ => .paused) ∧
      (t.group g).core.pdisc = (s.group g).core.pdisc + 4 * (s.group g).core.held.length ∧
      (t.group g).core.conv = (s.group g).core.conv ∧ (t.group g).core.emit = (s.group g).core.emit ∧
      (t.rot g).overlap = none ∧ t.frames = s.frames ∧ t.bur.job = some Job.init ∧ t.bur.nv = s.bur.nv) ∧
  (∀ (s : State) (tag : Nat) (a : Word), s.takes = true → s.standby = false → commandLegal 0x02 s.mode = true →
    a.bits 0 4 ≠ 1 → a.bits 0 4 ≠ 5 → a.bits 0 4 ≠ 10 →
    ∃ t, exec (.setMode tag [a]) s = .next t ∧ t.bur.job = some { Job.init with status := stBadArg } ∧
      t = { s with regs := t.regs, bur := { s.bur with mirrored := false, job := t.bur.job } } ∧ SameBut transportRegs s t) ∧
  (∀ (s : State) (tag : Nat) (a : Word), s.takes = true → s.standby = false → commandLegal 0x10 s.mode = true →
    (a.bits 0 3 = 0 ∨ a.bits 0 3 = 2) →
    ∃ t, exec (.cfgBegin tag [a]) s = .next t ∧ t.mode = .load ∧ t.f Fld.DEV_MODE_CAUSE = 3 ∧
      t.stream.active = true ∧ t.stream.src = a.bits 0 3 ∧ t.f Fld.CFG_STAT_SRC = a.bits 0 3 ∧ t.f Fld.CFG_STAT_PHASE = 1 ∧
      t.f Fld.CFG_WORDS = 0 ∧ t.f Fld.CFG_STAT_REASON = 0 ∧ t.pins.done = false ∧ t.bur.job = some Job.init ∧
      t.bur.nv = s.bur.nv) ∧
  (∀ (s : State) (tag : Nat), s.takes = true → s.standby = false → s.mode = .load →
    ∃ t, exec (.cfgAbort tag []) s = .next t ∧ t.mode = .blank ∧ t.f Fld.DEV_MODE_CAUSE = 9 ∧ t.stream.active = false ∧
      t.f Fld.CFG_STAT_PHASE = 7 ∧ t.frames = s.frames ∧ t.bur.job = some Job.init ∧ t.bur.nv = s.bur.nv) ∧
  (∀ (s : State) (tag k : Nat), s.takes = true → s.standby = false → s.mode = .run → k < s.part.numCB →
    s.partialStream = none → s.cbState k = 1 →
    ∃ t, exec (.regionLoadBegin tag [BitVec.ofNat 32 k, 2]) s = .next t ∧ t.mode = .partialRun ∧
      t.f Fld.DEV_MODE_CAUSE = 10 ∧ t.cbState k = 2 ∧ t.isolated k = true ∧ t.on Fld.FAB_CTL_CLKEN k = false ∧
      t.stream.kind = .region k ∧ t.stream.next = some (k * 2 ^ 17) ∧ (t.cab k).meas.dstate = 1 ∧
      t.bur.job = some Job.init ∧ t.groups = s.groups ∧ t.frames = s.frames) ∧
  (∀ (s : State) (tag k : Nat), s.takes = true → s.standby = false → s.mode = .partialRun → k < s.part.numCB →
    s.cbState k = 3 →
    ∃ t, exec (.regionRelease tag [BitVec.ofNat 32 k]) s = .next t ∧ t.cbState k = 1 ∧
      t.on Fld.FAB_CTL_CLKEN k = (s.cab k).loaded.2 ∧ t.isSecure k = (s.cab k).loaded.1 ∧
      t.word (Reg.BUR_CLAIM.addr k 0) = 0 ∧ t.bur.job = some Job.init ∧ t.groups = s.groups ∧ t.frames = s.frames) ∧
  (∀ (s : State) (tag g : Nat) (a : Word), s.takes = true → s.standby = false → s.mode = .bench →
    s.f Fld.DEV_MODE_PREV = 5 → a.bits 0 4 = 5 → g < s.part.numCG → (s.group g).core.seq.st = .paused →
    ∃ t, exec (.setMode tag [a]) s = .next t ∧ t.mode = .run ∧ t.f Fld.DEV_MODE_CAUSE = 2 ∧ t.f Fld.DEV_MODE_PREV = 10 ∧
      (t.group g).core.seq.st = .settle ∧
      (t.group g).core.seq.entry = (if (s.group g).core.seq.restart then 0 else (s.group g).core.seq.resume) ∧
      t.frames = s.frames ∧ t.bur.job = some Job.init ∧ t.bur.nv = s.bur.nv) ∧
  (∀ (s : State) (tag : Nat) (a : Word), s.takes = true → s.standby = false → a.bits 0 4 = 1 →
    (s.mode = .run ∨ s.mode = .faultMode ∨ (s.mode = .bench ∧ s.f Fld.DEV_MODE_PREV = 1)) →
    ∃ t, exec (.setMode tag [a]) s = .next t ∧ t.mode = .blank ∧ t.f Fld.DEV_MODE_CAUSE = 2 ∧
      t.f Fld.DEV_MODE_PREV = s.mode.code ∧ t.frames = [] ∧ t.checks = [] ∧ t.pins.done = false ∧ t.dio.ioOn = false ∧
      t.stream.active = false ∧ t.bur.job = some Job.init ∧ t.bur.nv = s.bur.nv) ∧
  (∀ (s : State) (tag : Nat) (a : Word), s.takes = true → s.standby = false →
    (s.mode = .doze ∨ s.mode = .nap ∨ s.mode = .slumber) → a.bits 0 4 = 5 → s.pwr.stage = .asleep →
    ∃ t, exec (.setMode tag [a]) s = .next t ∧ t.mode = s.mode ∧ t.pwr.stage = .leaving ∧ t.pwr.cause = 2 ∧
      t.f Fld.PWR_STAT_WHY = 5 ∧ t.frames = s.frames ∧ t.bur.job = some Job.init ∧ t.bur.nv = s.bur.nv) ∧
  (∀ (s : State) (tag : Nat) (a : Word), s.takes = true → s.standby = false → commandLegal 0x02 s.mode = true →
    (a.bits 0 4 = 1 ∨ a.bits 0 4 = 5 ∨ a.bits 0 4 = 10) → a.bits 0 4 = s.mode.code →
    ∃ t, exec (.setMode tag [a]) s = .next t ∧ t.bur.job = some Job.init ∧
      t = { s with regs := t.regs, bur := { s.bur with mirrored := false, job := t.bur.job } } ∧ SameBut transportRegs s t) ∧
  (∀ (s : State) (tag : Nat) (a : Word), s.takes = true → s.standby = false →
    ((s.mode = .blank ∧ a.bits 0 4 = 5) ∨ (s.mode = .faultMode ∧ (a.bits 0 4 = 5 ∨ a.bits 0 4 = 10)) ∨
      (s.mode = .bench ∧ (a.bits 0 4 = 1 ∨ a.bits 0 4 = 5) ∧ a.bits 0 4 ≠ s.f Fld.DEV_MODE_PREV) ∨
      ((s.mode = .doze ∨ s.mode = .nap ∨ s.mode = .slumber) ∧ (a.bits 0 4 = 1 ∨ a.bits 0 4 = 10))) →
    ∃ t, exec (.setMode tag [a]) s = .next t ∧ t.bur.job = some { Job.init with status := stRefused } ∧
      t = { s with regs := t.regs, bur := { s.bur with mirrored := false, job := t.bur.job } } ∧ SameBut transportRegs s t)

/-- CFG_ABORT in Partial (R469). -/
def Obligations.AbortOfPartialStream : Prop :=
  (∀ (s : State) (tag k : Nat), k < 24 → s.takes = true → s.standby = false → s.mode = .partialRun →
    s.stream.kind = .region k → (s.stream.active = true ∨ s.stream.ended = true) →
    ∃ t, exec (.cfgAbort tag []) s = .next t ∧ t.stream.active = false ∧ t.stream.ended = false ∧ t.stream.waiting = [] ∧
      t.cbState k = 4 ∧ t.f Fld.SCRB_CB_STATE_REASON k = 0x23 ∧ t.f Fld.SCRB_RLD_STAT_REASON = 0x23 ∧
      t.bur.job = some Job.init ∧ (t.mode = .partialRun ∨ t.mode = .run)) ∧
  (∀ (s : State) (tag : Nat), s.takes = true → s.standby = false → s.mode = .partialRun → s.partialStream = none →
    ∃ t, exec (.cfgAbort tag []) s = .next t ∧ t.bur.job = some { Job.init with status := stBadArg } ∧
      t = { s with regs := t.regs, bur := { s.bur with mirrored := false, job := t.bur.job } } ∧ SameBut transportRegs s t)

/-- ROTATE_NOW, CHAN_ALLOC, CHAN_FREE, RING_ADMIT, RING_RETIRE (R165, R400, R411, R413, R414, R427, R428). -/
def Obligations.ResourceCommands : Prop :=
  (∀ (s : State) (tag g : Nat) (sl : Word), s.takes = true → s.standby = false → commandLegal 0x28 s.mode = true →
    g < s.part.numCG → sl.bits 0 3 ≠ 7 → (s.serving g).contains (sl.bits 0 3) = true → s.rotst g = 0 →
    ∃ t, exec (.rotateNow tag [BitVec.ofNat 32 g, sl]) s = .next t ∧ t.rotst g = 1 ∧
      t.groups = (s.setRot g { s.rot g with abandons := 0, notBefore := 0, chosen := some (sl.bits 0 3) }).groups ∧
      t.bur.job = some Job.init ∧
      t = { s with groups := t.groups, regs := t.regs, bur := { s.bur with mirrored := false, job := t.bur.job } } ∧
      SameBut (Reg.CG_ROT_STAT.addr g 0 :: transportRegs) s t) ∧
  (∀ (s : State) (tag c x y : Nat), s.takes = true → s.standby = false → commandLegal 0x30 s.mode = true → c < 1024 →
    x < 1024 → y < 1024 → x ≠ y → (s.chan c).alloc = false →
    ∃ t, exec (.chanAlloc tag [BitVec.ofNat 32 (2 ^ 28 + x), BitVec.ofNat 32 (2 ^ 28 + y), 0, BitVec.ofNat 32 c]) s = .next t ∧
      t.chan c = { Chan.init with alloc := true, snd := 2 ^ 28 + x, rcv := 2 ^ 28 + y, word := (s.chan c).word } ∧
      Others c s.chan t.chan ∧ t.bur.job = some { Job.init with results := [argIs 0 c] } ∧
      t = { s with chans := t.chans, regs := t.regs, bur := { s.bur with mirrored := false, job := t.bur.job } } ∧
      SameBut (Reg.PGH_ALLOC.base :: transportRegs) s t) ∧
  (∀ (s : State) (tag c : Nat), s.takes = true → s.standby = false → commandLegal 0x31 s.mode = true → c < 64 →
    (s.chan (1024 + c)).alloc = true →
    ∃ t, exec (.chanFree tag [BitVec.ofNat 32 c, 1]) s = .next t ∧
      t.chan (1024 + c) = { Chan.init with word := (s.chan (1024 + c)).word } ∧ Others (1024 + c) s.chan t.chan ∧
      t.bur.job = some Job.init ∧
      t = { s with chans := t.chans, regs := t.regs, bur := { s.bur with mirrored := false, job := t.bur.job } } ∧
      SameBut (Reg.PGH_ALLOC.base :: transportRegs) s t) ∧
  (∀ (s : State) (tag r : Nat), s.takes = true → s.standby = false → commandLegal 0x38 s.mode = true → r < 4096 →
    s.admitStatus r 0 = 0 → s.downstream r = false → s.f Fld.DMA_UPSUM + s.ringCharge r < 2 ^ 20 →
    ∃ t, exec (.ringAdmit tag [BitVec.ofNat 32 r] 0) s = .next t ∧ t.admitted r = true ∧ t.f Fld.DMA_HEAD r = 0 ∧
      t.f Fld.DMA_TAIL r = 0 ∧ t.ring r = { Ring.init with first := true, tokens := 8192000, blkCount := (s.ring r).blkCount } ∧
      (t.feed (feedRing r)).src = s.f Fld.DMA_CFG_SRC r ∧ t.f Fld.DMA_UPSUM = s.f Fld.DMA_UPSUM + s.ringCharge r ∧
      t.bur.job = some Job.init ∧ t.groups = s.groups ∧ t.chans = s.chans) ∧
  (∀ (s : State) (tag r : Nat) (p : Nat), s.takes = true → s.standby = false → commandLegal 0x38 s.mode = true → r < 4096 →
    s.f Fld.DMA_RATE r = 0 → sourceFusedOff s.part (s.f Fld.DMA_CFG_SRC r) = false →
    ∃ t, exec (.ringAdmit tag [BitVec.ofNat 32 r] p) s = .next t ∧ t.bur.job = some { Job.init with status := stBadArg } ∧
      t = { s with regs := t.regs, bur := { s.bur with mirrored := false, job := t.bur.job } } ∧ SameBut transportRegs s t) ∧
  (∀ (s : State) (tag r : Nat), s.takes = true → s.on Fld.TWN_STAT_PAIRED = false → commandLegal 0x39 s.mode = true →
    r < 4096 → s.admitted r = true → (s.ring r).opened = none → (s.ring r).closed = [] → (s.ring r).arrived = [] →
    (s.ring r).late = [] →
    ∃ t, exec (.ringRetire tag [BitVec.ofNat 32 r]) s = .next t ∧ t.admitted r = false ∧
      t.ring r = { Ring.init with
        produced := (s.ring r).produced, written := (s.ring r).written, droppedCnt := (s.ring r).droppedCnt,
        blkCount := (s.ring r).blkCount } ∧
      (t.feed (feedRing r)).inq = [] ∧ t.bur.job = some Job.init ∧ t.groups = s.groups ∧ t.chans = s.chans)

/-- ATTEST, KEY_ENROLL, POLICY_SET (R471, R478, R481 to R483, R486). -/
def Obligations.SecurityCommands : Prop :=
  (∀ (s : State) (tag r : Nat) (nonce : List Word), s.takes = true → commandLegal 0x40 s.mode = true → r < 4096 →
    s.admitted r = true → s.downstream r = false → s.f Fld.DMA_CFG_SRC r = 0 → nonce.length = 8 →
    s.keyIdx < 2 ^ 40 - 2 ^ 20 → s.keysUsed = false →
    ∃ t, exec (.attest tag (nonce ++ [BitVec.ofNat 32 r])) s = .next t ∧ t.keyIdx = s.keyIdx + 1 ∧
      t.bur.nv.keyres = (if s.keyIdx = s.bur.nv.keyres then s.bur.nv.keyres + 64 else s.bur.nv.keyres) ∧
      (List.range 8).map t.arg = nonce ∧ t.bur.job.map (·.status) = some stOk ∧
      (t.feed (feedRing r)).inq = bulkWords (t.report.flatMap wordBytesOf ++ shakeWords t.report ++
        attestSign s.keyIdx (shakeWords t.report)) ∧
      t = { s with feeds := t.feeds, rings := t.rings, regs := t.regs, bur := t.bur }) ∧
  (∀ (s : State) (tag r : Nat) (nonce : List Word), s.takes = true → commandLegal 0x40 s.mode = true → r < 4096 →
    s.admitted r = true → s.downstream r = false → s.f Fld.DMA_CFG_SRC r = 0 → nonce.length = 8 →
    2 ^ 40 - 2 ^ 20 ≤ s.keyIdx →
    ∃ t, exec (.attest tag (nonce ++ [BitVec.ofNat 32 r])) s = .next t ∧ t.keyIdx = s.keyIdx ∧
      t.on Fld.BUR_STAT_KEY_LOW = true ∧ t.bur.job = some { Job.init with status := stAuthFail } ∧ t.bur.nv = s.bur.nv) ∧
  (∀ (s : State) (tag k : Nat) (ds : List Word), s.takes = true → s.standby = false → s.mode = .blank → k < 4 →
    ds.length = 8 → (s.f Fld.BUR_POLICY_ENROLLED).testBit k = false → s.on Fld.BUR_POLICY_ENROLL_LOCK = false →
    ∃ t, exec (.keyEnroll tag (BitVec.ofNat 32 k :: ds) true) s = .next t ∧
      t.bur.nv.slots = s.bur.nv.slots.set k (ds.flatMap wordBytesOf) ∧ t.bur.nv.policy = s.bur.nv.policy ||| 2 ^ (4 + k) ∧
      t.bur.nv.keyres = s.bur.nv.keyres ∧ t.word Reg.BUR_POLICY.base = BitVec.ofNat 32 t.bur.nv.policy ∧
      t.bur.job = some Job.init ∧ t = { s with regs := t.regs, bur := t.bur } ∧
      SameBut (Reg.BUR_POLICY.base :: transportRegs) s t) ∧
  (∀ (s : State) (tag k : Nat) (ds : List Word) (good : Bool), s.takes = true → s.standby = false → s.mode = .blank → k < 4 →
    (s.f Fld.BUR_POLICY_ENROLLED).testBit k = true →
    ∃ t, exec (.keyEnroll tag (BitVec.ofNat 32 k :: ds) good) s = .next t ∧
      t.bur.job = some { Job.init with status := stBadArg } ∧ t.bur.nv = s.bur.nv) ∧
  (∀ (s : State) (tag k : Nat) (ds : List Word), s.takes = true → s.standby = false → s.mode = .blank → k < 4 →
    (s.f Fld.BUR_POLICY_ENROLLED).testBit k = true →
    ∃ t, exec (.keyEnroll tag (BitVec.ofNat 32 (256 + k) :: ds) true) s = .next t ∧
      t.bur.nv = { s.bur.nv with policy := s.bur.nv.policy ||| 2 ^ (8 + k) } ∧ t.bur.job = some Job.init) ∧
  (∀ (s : State) (tag : Nat) (b : Word), s.takes = true → s.standby = false → s.mode = .blank →
    (b.bit 0 = false ∨ (List.range 4).any (fun k =>
      (s.f Fld.BUR_POLICY_ENROLLED).testBit k && !(s.f Fld.BUR_POLICY_REVOKED).testBit k) = true) →
    ∃ t, exec (.policySet tag [b, 0x5045524D]) s = .next t ∧
      t.bur.nv = { s.bur.nv with policy := s.bur.nv.policy ||| b.bits 0 2 } ∧ t.bur.job.map (·.status) = some stOk ∧
      t = { s with regs := t.regs, bur := t.bur } ∧ SameBut (Reg.BUR_POLICY.base :: transportRegs) s t) ∧
  (∀ (s : State) (tag : Nat) (b w : Word), s.takes = true → s.standby = false → s.mode = .blank →
    (w ≠ 0x5045524D ∨ b.bit 0 = true ∧ (List.range 4).any (fun k =>
      (s.f Fld.BUR_POLICY_ENROLLED).testBit k && !(s.f Fld.BUR_POLICY_REVOKED).testBit k) = false) →
    ∃ t, exec (.policySet tag [b, w]) s = .next t ∧ t.bur.nv = s.bur.nv ∧ t.bur.job.map (·.status) = some stBadArg)

/-- RANDOM, DIGEST_REQUEST, CLAIM_LOW, CLAIM_HIGH, UNKNOWN_SECURE_OP (R432, R434, R484). -/
def Obligations.SecureRequests : Prop :=
  (∀ (s : State) (c v k a r : Nat), c < 64 → k < 24 → a < 2 → s.bur.running = true → (s.chan (1024 + c)).alloc = true →
    (s.chan (1024 + c)).full = true → (s.chan (1024 + c)).snd = 3 * 2 ^ 28 + 256 * k + a →
    (s.chan (1024 + c)).rcv = 2 ^ 29 → (s.chan (1024 + c)).word.bits 28 4 = 1 → s.replyChan k a = some r →
    (s.chan r).full = false →
    ∃ t, exec (.random c v) s = .next t ∧ (t.chan (1024 + c)).full = false ∧ (t.chan r).full = true ∧
      (t.chan r).word.bits 16 16 = (if s.bur.trngFails then 2 else 0) ∧
      (s.bur.trngFails = false → (t.chan r).word.bits 0 16 = v % 65536) ∧
      (t.chan r).posts = ((s.chan r).posts + 1) % 65536 ∧
      t = { s with chans := t.chans, cabs := t.cabs, regs := t.regs, freeCount := t.freeCount } ∧
      SameBut [Reg.DEV_XSTAT.base] s t) ∧
  (∀ (s : State) (c k a r : Nat), c < 64 → k < 24 → a < 2 → s.bur.running = true → (s.chan (1024 + c)).alloc = true →
    (s.chan (1024 + c)).full = true → (s.chan (1024 + c)).snd = 3 * 2 ^ 28 + 256 * k + a →
    (s.chan (1024 + c)).rcv = 2 ^ 29 → (s.chan (1024 + c)).word.bits 28 4 = 2 → s.replyChan k a = some r →
    (s.chan r).full = false →
    ∃ t, exec (.digestRequest c) s = .next t ∧ (t.chan (1024 + c)).full = false ∧ (t.chan r).full = true ∧
      (t.chan r).word.bits 16 16 = 0 ∧
      (t.chan r).word.bits 0 16 = (((s.cabDigest k)[2 * (s.chan (1024 + c)).word.bits 0 4]?).getD 0 +
        256 * ((s.cabDigest k)[2 * (s.chan (1024 + c)).word.bits 0 4 + 1]?).getD 0) % 65536 ∧
      t = { s with chans := t.chans, cabs := t.cabs, regs := t.regs } ∧ SameBut [Reg.DEV_XSTAT.base] s t) ∧
  (∀ (s : State) (c k a r : Nat), c < 64 → k < 24 → a < 2 → s.bur.running = true → (s.chan (1024 + c)).alloc = true →
    (s.chan (1024 + c)).full = true → (s.chan (1024 + c)).snd = 3 * 2 ^ 28 + 256 * k + a →
    (s.chan (1024 + c)).rcv = 2 ^ 29 → (s.chan (1024 + c)).word.bits 28 4 = 3 → s.replyChan k a = some r →
    (s.chan r).full = false →
    ∃ t, exec (.claimLow c) s = .next t ∧
      (t.word (Reg.BUR_CLAIM.addr k 0)).bits 0 16 = (s.chan (1024 + c)).word.bits 0 16 ∧
      (t.word (Reg.BUR_CLAIM.addr k 0)).bits 16 16 = (s.word (Reg.BUR_CLAIM.addr k 0)).bits 16 16 ∧
      (t.chan (1024 + c)).full = false ∧ (t.chan r).word = 0 ∧ (t.chan r).full = true ∧
      t = { s with chans := t.chans, cabs := t.cabs, regs := t.regs } ∧
      SameBut [Reg.BUR_CLAIM.addr k 0, Reg.DEV_XSTAT.base] s t) ∧
  (∀ (s : State) (c k a r : Nat), c < 64 → k < 24 → a < 2 → s.bur.running = true → (s.chan (1024 + c)).alloc = true →
    (s.chan (1024 + c)).full = true → (s.chan (1024 + c)).snd = 3 * 2 ^ 28 + 256 * k + a →
    (s.chan (1024 + c)).rcv = 2 ^ 29 → (s.chan (1024 + c)).word.bits 28 4 = 4 → s.replyChan k a = some r →
    (s.chan r).full = false →
    ∃ t, exec (.claimHigh c) s = .next t ∧
      (t.word (Reg.BUR_CLAIM.addr k 0)).bits 16 16 = (s.chan (1024 + c)).word.bits 0 16 ∧
      (t.word (Reg.BUR_CLAIM.addr k 0)).bits 0 16 = (s.word (Reg.BUR_CLAIM.addr k 0)).bits 0 16 ∧
      (t.chan (1024 + c)).full = false ∧ (t.chan r).word = 0 ∧ (t.chan r).full = true ∧
      t = { s with chans := t.chans, cabs := t.cabs, regs := t.regs } ∧
      SameBut [Reg.BUR_CLAIM.addr k 0, Reg.DEV_XSTAT.base] s t) ∧
  (∀ (s : State) (c k a r : Nat), c < 64 → k < 24 → a < 2 → s.bur.running = true → (s.chan (1024 + c)).alloc = true →
    (s.chan (1024 + c)).full = true → (s.chan (1024 + c)).snd = 3 * 2 ^ 28 + 256 * k + a →
    (s.chan (1024 + c)).rcv = 2 ^ 29 → 5 ≤ (s.chan (1024 + c)).word.bits 28 4 → s.replyChan k a = some r →
    (s.chan r).full = false →
    ∃ t, exec (.unknownSecureOp c) s = .next t ∧ (t.chan (1024 + c)).full = false ∧ (t.chan r).full = true ∧
      (t.chan r).word.bits 16 16 = 1 ∧
      t = { s with chans := t.chans, cabs := t.cabs, regs := t.regs, freeCount := s.freeCount + 1 } ∧
      SameBut [Reg.DEV_XSTAT.base] s t) ∧
  (∀ (s : State) (c v k a r : Nat), c < 64 → k < 24 → a < 2 → (s.chan (1024 + c)).snd = 3 * 2 ^ 28 + 256 * k + a →
    s.replyChan k a = some r → (s.chan r).full = true →
    ∃ t, exec (.random c v) s = .next t ∧ t = s)

/-- COMMAND_COMPLETE, WATCHDOG_EXPIRY, SRAM_UNCORRECTABLE_ERROR, FIRMWARE_RESUME (R31, R466, R467, R475, R524). -/
def Obligations.CompletionAndHalts : Prop :=
  (∀ (s : State) (j : Job) (p : Option Nat), s.bur.running = true → s.bur.job = some j → j.out = none → j.need = 0 →
    j.commit = none → j.status = stOk → j.results = [argIs 0 7, argIs 1 8] → s.on Fld.TWN_STAT_PAIRED = false →
    ∃ t, exec (.commandComplete p) s = .next t ∧ t.arg 0 = 7 ∧ t.arg 1 = 8 ∧ t.on Fld.BUR_STATUS_BUSY = false ∧
      t.on Fld.BUR_STATUS_DONE = true ∧ t.f Fld.BUR_STATUS_STATUS = 0 ∧
      t.f Fld.BUR_STATUS_TAG = s.f Fld.BUR_CMD_TAG ∧ t.bur.job = none ∧ t.mode = s.mode ∧ t.groups = s.groups ∧
      t.bur.nv = s.bur.nv ∧ t.cal = s.cal) ∧
  (∀ (s : State) (j : Job) (p : Option Nat), s.bur.running = true → s.bur.job = some j → j.out = none → j.need = 0 →
    j.always = false → j.status = stBadArg → p.all (· = stBadArg) = true →
    ∃ t, exec (.commandComplete p) s = .next t ∧ t.arg 0 = s.arg 0 ∧ t.on Fld.BUR_STATUS_DONE = true ∧
      t.f Fld.BUR_STATUS_STATUS = 2 ∧ t.bur.job = none ∧ t.cal = s.cal ∧
      t.on Fld.TWN_IRQ_MISMATCH = s.on Fld.TWN_IRQ_MISMATCH) ∧
  (∀ (s : State) (j : Job) (p : Nat), s.bur.running = true → s.bur.job = some j → j.out = none → j.need = 0 →
    j.results = [] → j.commit = none → s.on Fld.TWN_STAT_PAIRED = true → p ≠ j.status →
    ∃ t, exec (.commandComplete (some p)) s = .next t ∧ t.on Fld.TWN_IRQ_MISMATCH = true ∧ t.bur.job = none ∧
      t.f Fld.BUR_STATUS_STATUS = j.status % 256) ∧
  (∀ (s : State) (j : Job), s.bur.running = true → s.bur.job = some j →
    ∃ t, exec .watchdogExpiry s = .next t ∧ t.bur.running = false ∧ t.bur.job = none ∧ t.bur.waiting = s.bur.waiting ∧
      t.f Fld.BUR_STATUS_STATUS = 12 ∧ t.on Fld.BUR_STATUS_DONE = true ∧ t.on Fld.BUR_STATUS_BUSY = false ∧
      t.on Fld.BUR_STAT_RESTART = true ∧ t.f Fld.BUR_BOOT_RESTARTS = min (s.f Fld.BUR_BOOT_RESTARTS + 1) 255 ∧
      t.mode = s.mode ∧ t.groups = s.groups ∧ t.bur.nv = s.bur.nv) ∧
  (∀ s : State, s.bur.running = true → s.bur.job = none →
    ∃ t, exec .watchdogExpiry s = .next t ∧ t.bur = { s.bur with running := false } ∧
      t.on Fld.BUR_STAT_RESTART = true ∧ t.f Fld.BUR_BOOT_RESTARTS = min (s.f Fld.BUR_BOOT_RESTARTS + 1) 255 ∧
      t.mode = s.mode ∧ t.groups = s.groups ∧ t.rings = s.rings ∧ t.lcs = s.lcs) ∧
  (∀ s : State, s.bur.running = false → ∃ t, exec .watchdogExpiry s = .next t ∧ t = s) ∧
  (∀ (s : State) (j : Job), s.bur.running = true → s.bur.job = some j →
    ∃ t, exec .sramUncorrectableError s = .next t ∧ t.bur.running = false ∧ t.bur.job = none ∧ t.bur.waiting = s.bur.waiting ∧
      t.f Fld.BUR_STATUS_STATUS = 12 ∧ t.on Fld.BUR_STATUS_DONE = true ∧ t.on Fld.BUR_STATUS_BUSY = false ∧
      t.on Fld.BUR_STAT_RESTART = true ∧ t.f Fld.BUR_BOOT_RESTARTS = min (s.f Fld.BUR_BOOT_RESTARTS + 1) 255 ∧
      t.mode = s.mode ∧ t.groups = s.groups ∧ t.bur.nv = s.bur.nv) ∧
  (∀ s : State, s.bur.running = true → s.bur.job = none →
    ∃ t, exec .sramUncorrectableError s = .next t ∧ t.bur = { s.bur with running := false } ∧
      t.on Fld.BUR_STAT_RESTART = true ∧ t.f Fld.BUR_BOOT_RESTARTS = min (s.f Fld.BUR_BOOT_RESTARTS + 1) 255 ∧
      t.mode = s.mode ∧ t.groups = s.groups ∧ t.rings = s.rings ∧ t.lcs = s.lcs) ∧
  (∀ s : State, s.bur.running = false → ∃ t, exec .sramUncorrectableError s = .next t ∧ t = s) ∧
  (∀ s : State, s.bur.running = false → s.bur.dead = false → s.mode ≠ .reset → s.bur.waiting = none →
    s.twin.trigger = none → s.bur.nv.keyres < 2 ^ 40 →
    ∃ t, exec (.firmwareResume 0) s = .next t ∧ t.bur = { s.bur with running := true } ∧ t.keyIdx = s.bur.nv.keyres ∧
      t = { s with regs := t.regs, bur := t.bur, cal := { s.cal with bus := t.cal.bus } } ∧
      SameBut [Reg.BUR_KEYIDX_LO.base, Reg.BUR_KEYIDX_HI.base, Reg.BUR_KEYRES_LO.base, Reg.BUR_KEYRES_HI.base,
        Reg.BUR_STAT.base] s t) ∧
  (∀ (s : State) (tag : Nat), s.bur.running = false → s.bur.dead = false → s.mode.code ≠ 0 → s.mode ≠ .reset →
    s.bur.waiting = some (.getMode tag []) → s.twin.trigger = none →
    ∃ t, exec (.firmwareResume 0) s = .next t ∧ t.bur.running = true ∧ t.bur.waiting = none ∧
      t.bur.job = some { Job.init with
        results := [argIs 0 (s.view Reg.DEV_MODE.base).toNat, argIs 1 (s.view Reg.DEV_COMPAT.base).toNat] }) ∧
  (∀ (s : State) (err : Nat), s.bur.running = false → s.bur.dead = false → s.mode ≠ .reset → (err = 3 ∨ err = 4) →
    ∃ t, exec (.firmwareResume err) s = .next t ∧ t.bur = { s.bur with dead := true } ∧ t.on Fld.BUR_BOOT_FW_OK = false ∧
      t.f Fld.BUR_BOOT_ERR = err ∧ t = { s with regs := t.regs, bur := t.bur } ∧ SameBut [Reg.BUR_BOOT.base] s t) ∧
  (∀ (s : State) (err : Nat), (err = 0 ∨ err = 3 ∨ err = 4) → (s.bur.running = true ∨ s.bur.dead = true ∨ s.mode = .reset) →
    ∃ t, exec (.firmwareResume err) s = .next t ∧ t = s)

/-- NEXT_EVENT_UPDATE, POWER_STATE_ENTRY, SELF_WAKE, POWER_STATE_EXIT and WAKE_N_RELEASE (R507, R510 to R513, R515, R524, R542). That
these rows are the instants at which power management acts, that REF_SETTLED falls where the exit starts, and that a rotation
whose interval ran out is due at the return, is the model's choice and reading (log entry 21). -/
def Obligations.PowerStates : Prop :=
  (∀ (s : State) (tick : Nat), s.lclk = true → s.standby = false → s.mode = .run →
    (s.updateNext tick).wokenNow = false → (s.updateNext tick).selectLow = some 7 →
    ∃ t, exec (.nextEventUpdate tick none) s = .next t ∧ t.mode = .doze ∧ t.pwr.stage = .entering ∧
      t.pwr.wakeHeld = false ∧ t.f Fld.DEV_MODE_CAUSE = 12 ∧ t.f Fld.DEV_MODE_PREV = 5 ∧
      t.pwr.selfWake = (s.updateNext tick).nextTick.map (fun n => n - 2000 - s.margin) ∧
      t.f Fld.PWR_CNT_DOZES = (s.f Fld.PWR_CNT_DOZES + 1) % 2 ^ Fld.PWR_CNT_DOZES.width ∧ t.groups = s.groups ∧
      t.chains = s.chains ∧ t.dacs = s.dacs ∧ t.rings = s.rings) ∧
  (∀ (s : State) (tick : Nat), s.lclk = true → s.standby = false → s.mode = .run →
    (s.updateNext tick).selectLow = none →
    ∃ t, exec (.nextEventUpdate tick none) s = .next t ∧ t = s.updateNext tick ∧ t.mode = .run) ∧
  (∀ s : State, s.mode.low = true → s.pwr.stage = .entering → (s.mode = .slumber → s.linesDrained = true) →
    (s.mode = .slumber → s.rings.all (fun e => e.2.opened.isNone && e.2.closed.isEmpty) = true) → s.pwr.wakeHeld = false →
    ∃ t, exec .powerStateEntry s = .next t ∧ t = { s with pwr := { s.pwr with stage := .asleep } }) ∧
  (∀ s : State, s.mode = .slumber → s.pwr.stage = .entering → s.linesDrained = false →
    ∃ t, exec .powerStateEntry s = .next t ∧ t = s) ∧
  (∀ s : State, s.mode.low = true → s.pwr.stage = .entering → (s.mode = .slumber → s.linesDrained = true) →
    (s.mode = .slumber → s.rings.all (fun e => e.2.opened.isNone && e.2.closed.isEmpty) = true) → s.pwr.wakeHeld = true →
    ∃ t, exec .powerStateEntry s = .next t ∧
      t = { s with pwr := { s.pwr with stage := .leaving, leftAt := some s.lcs.time }, regs := t.regs } ∧
      (s.mode ≠ .doze → (List.range s.part.numCG).all (fun g => !t.on Fld.CG_STAT_REF_SETTLED g) = true) ∧
      SameBut (if s.mode = .doze then [] else settleRegs s.part) s t) ∧
  (∀ (s : State) (tick : Nat), s.mode.low = true → s.pwr.stage = .asleep → s.pwr.selfWake = some tick → s.lclk = true →
    s.standby = false →
    ∃ t, exec .selfWake s = .next t ∧ t.f Fld.PWR_STAT_WHY = 3 ∧
      t = { (s.atTick tick) with
        regs := t.regs, pwr := { s.pwr with stage := .leaving, cause := 13, leftAt := some (max s.lcs.time tick) } } ∧
      (s.mode ≠ .doze → (List.range s.part.numCG).all (fun g => !t.on Fld.CG_STAT_REF_SETTLED g) = true) ∧
      SameBut (Reg.PWR_STAT.base :: (if s.mode = .doze then [] else settleRegs s.part)) s t) ∧
  (∀ (s : State) (tick : Nat), s.mode = .doze → s.pwr.stage = .leaving → s.lclk = true →
    ∃ t, exec (.powerStateExit tick) s = .next t ∧ t.mode = .run ∧ t.f Fld.DEV_MODE_PREV = 7 ∧
      t.f Fld.DEV_MODE_CAUSE = s.pwr.cause % 16 ∧ t.on Fld.PWR_IRQ_EXIT = true ∧ t.pwr.stage = .awake ∧
      t.pwr.selfWake = none ∧ t.pwr.lastRun = some (max s.lcs.time tick) ∧ t.dio.latched = none) ∧
  (∀ (s : State) (tick g : Nat), s.mode = .nap ∨ s.mode = .slumber → s.pwr.stage = .leaving → g < s.part.numCG →
    s.on Fld.CG_CTL_EN g = true → s.on Fld.CG_STAT_REF_SETTLED g = false →
    max s.lcs.time tick < s.pwr.leftAt.getD 0 + (if s.mode = .nap then 40000 else 2000000) →
    ∃ t, exec (.powerStateExit tick) s = .next t ∧ t = s) ∧
  (∀ (s : State) (tick : Nat), s.mode = .slumber → s.pwr.stage = .leaving → s.f Fld.PWR_STAT_WHY = 1 →
    (List.range s.part.numCG).all (fun g => !s.on Fld.CG_CTL_EN g || s.on Fld.CG_STAT_REF_SETTLED g) = true ∨
      s.pwr.leftAt.getD 0 + 2000000 ≤ max s.lcs.time tick →
    ∃ t, exec (.powerStateExit tick) s = .next t ∧ t.mode = .run ∧ t.pins.wakeLow = true ∧
      t.f Fld.DEV_MODE_PREV = 9 ∧ t.pwr.stage = .awake ∧ t.pwr.resense = [0, 1, 2, 3, 4, 5, 7]) ∧
  (∀ (s : State) (tick g : Nat), s.mode = .nap → s.pwr.stage = .leaving → s.pwr.leftAt.getD 0 + 40000 ≤ tick →
    s.bur.running = true → g < s.part.numCG → s.rotst g = 0 → s.on Fld.CG_ROT_CTL_AUTO g = true →
    (s.rot g).lastAccept + 10 * s.f Fld.CG_ROT_CTL_INTERVAL g ≤ s.bur.checks →
    ∃ t, exec (.powerStateExit tick) s = .next t ∧ t.mode = .run ∧ t.rotst g = 1 ∧ (t.rot g).chosen = none) ∧
  (∀ s : State, ∃ t, exec .wakeNRelease s = .next t ∧ t = { s with pins := { s.pins with wakeLow := false } }) ∧
  (∀ (s : State) (tick c : Nat), s.lclk = true → s.standby = false → s.mode = .run →
    (s.updateNext tick).wokenNow = false → (s.updateNext tick).selectLow = some c →
    ∃ t, exec (.nextEventUpdate tick none) s = .next t ∧ t.mode = lowMode c ∧ t.pwr.stage = .entering ∧
      t.pwr.wakeHeld = false ∧ t.pwr.cause = 13 ∧ t.f Fld.DEV_MODE_CAUSE = 12 ∧ t.f Fld.DEV_MODE_PREV = 5) ∧
  (∀ (s : State) (r : Nat), s.mode = .slumber → s.pwr.stage = .entering → s.linesDrained = true → s.pwr.wakeHeld = false →
    s.admitted r = true → r < 4096 → s.downstream r = false →
    ∃ t, exec .powerStateEntry s = .next t ∧ t.pwr.stage = .asleep ∧ (t.ring r).opened = none ∧ t.groups = s.groups) ∧
  (∀ (s : State) (tick : Nat), s.standby = true → s.pwr.selfWake = some tick → s.lclk = true →
    ∃ t, exec .selfWake s = .next t ∧ t = s.atTick tick)

/-- TWIN_PAIR, TWIN_SPLIT, BUNK_LINK_TRAINING, LANE_ERROR_BURST, LINK_DOWN, JTAG_INSTRUCTION and JTAG_RESET (R519, R522,
R525, R526, R544). What the peer answers comes in as operands, and what a standby takes of its primary and a split leaves,
is the model's reading (log entry 41); the boundary cells that come with JTAG_INSTRUCTION are its choice (log entry 42). -/
def Obligations.PairsAndLinks : Prop :=
  (∀ (s : State) (tag : Nat) (w : Word) (p : TwinPeer), s.takes = true → s.part.isTwin = true → s.mode = .run →
    s.on Fld.TWN_STAT_PAIRED = false → s.on Fld.TWN_STAT_LINK_UP = true → s.f Fld.LCS_CTL_CLKSRC ≠ 1 → p.answers = true →
    p.run = true → p.same = true → p.busy = false → s.inUse = false → w.bits 0 1 = s.twin.die →
    ∃ t, exec (.twinPair tag [w] p none) s = .next t ∧ t.on Fld.TWN_STAT_PAIRED = true ∧
      t.on Fld.TWN_STAT_PRIMARY = true ∧ t.bur.job.map (·.status) = some stOk ∧ t.twin.fenced = false ∧
      t.twin.replay = [] ∧ t.pdir = s.pdir ∧
      t = { s with regs := t.regs, twin := t.twin, bur := { s.bur with mirrored := false, job := t.bur.job } } ∧
      SameBut (Reg.TWN_STAT.base :: Reg.TWN_RPL.base :: transportRegs) s t) ∧
  (∀ (s : State) (tag : Nat) (w : Word) (p : TwinPeer), s.takes = true → s.part.isTwin = true → s.mode = .run →
    s.on Fld.TWN_STAT_PAIRED = false → s.on Fld.TWN_STAT_LINK_UP = true → s.f Fld.LCS_CTL_CLKSRC ≠ 1 → p.answers = true →
    p.run = true → p.same = true → p.busy = false → s.inUse = false → w.bits 0 1 ≠ s.twin.die → p.regs = [] → p.pdir = [] →
    ∃ t, exec (.twinPair tag [w] p none) s = .next t ∧ t.standby = true ∧ t.bur.job.map (·.status) = some stOk ∧
      t.pdir = [] ∧ t.twin.silent = false ∧ t.mode = .run) ∧
  (∀ (s : State) (tag : Nat) (w : Word) (p : TwinPeer), s.takes = true → s.part.isTwin = true → s.mode = .run →
    s.on Fld.TWN_STAT_PAIRED = false → s.on Fld.TWN_STAT_LINK_UP = true → s.f Fld.LCS_CTL_CLKSRC ≠ 1 →
    p.answers = false → p.busy = false → s.inUse = false →
    ∃ t, exec (.twinPair tag [w] p none) s = .next t ∧ t.on Fld.TWN_STAT_PAIRED = false ∧
      t.bur.job.map (·.status) = some stTimeout ∧ t.twin = s.twin) ∧
  (∀ (s : State) (tag : Nat) (w : Word) (p : TwinPeer), s.takes = true → s.part.isTwin = true → s.mode = .run →
    s.on Fld.TWN_STAT_PAIRED = false → s.on Fld.TWN_STAT_LINK_UP = true → s.f Fld.LCS_CTL_CLKSRC ≠ 1 →
    p.answers = false → s.inUse = true →
    ∃ t, exec (.twinPair tag [w] p none) s = .next t ∧ t.bur.job.map (·.status) = some stBusy ∧ t.twin = s.twin) ∧
  (∀ (s : State) (tag : Nat), s.takes = true → s.part.isTwin = true → s.mode = .run → s.on Fld.TWN_STAT_PAIRED = true →
    s.on Fld.TWN_STAT_PRIMARY = true →
    ∃ t, exec (.twinSplit tag [] none) s = .next t ∧ t.on Fld.TWN_STAT_PAIRED = false ∧ t.on Fld.TWN_STAT_PRIMARY = false ∧
      t.on Fld.TWN_IRQ_FAILOVER = true ∧ t.f Fld.TWN_STAT_CAUSE = s.f Fld.TWN_STAT_CAUSE ∧ t.bur.job = some Job.init ∧
      t.rings = s.rings ∧ t.twin.silent = s.twin.silent) ∧
  (∀ (s : State) (tag r : Nat), s.takes = true → s.part.isTwin = true → s.mode = .run → s.standby = true → r < 4096 →
    s.admitted r = true →
    ∃ t, exec (.twinSplit tag [] none) s = .next t ∧ t.on Fld.TWN_STAT_PAIRED = false ∧
      t.on Fld.TWN_STAT_PRIMARY = false ∧ t.on Fld.TWN_IRQ_FAILOVER = true ∧ t.admitted r = false ∧
      t.twin.silent = true ∧ t.twin.replay = [] ∧ t.hostMem = s.hostMem ∧ t.bur.job = some Job.init) ∧
  (∀ (s : State) (eyes : List Nat) (i : Nat), s.part.isTwin = true → eyes.length = 16 → i < 16 →
    ∃ t, exec (.bunkLinkTraining eyes) s = .next t ∧ t.f Fld.TWN_LANE_EYE i = min ((eyes[i]?).getD 0) 255 ∧
      t.on Fld.TWN_LANE_GOOD i = decide (64 ≤ (eyes[i]?).getD 0) ∧
      t.f Fld.TWN_STAT_LANES = eyes.countP (fun e => decide (64 ≤ e)) ∧
      t.on Fld.TWN_STAT_LINK_UP = decide (12 ≤ eyes.countP (fun e => decide (64 ≤ e))) ∧
      t.on Fld.TWN_IRQ_LINK = (s.on Fld.TWN_IRQ_LINK ||
        (s.on Fld.TWN_STAT_LINK_UP != decide (12 ≤ eyes.countP (fun e => decide (64 ≤ e))))) ∧
      t.twin = { s.twin with retrain := false } ∧ t.mode = s.mode) ∧
  (∀ s : State, s.part.isTwin = true →
    ∃ t, exec .laneErrorBurst s = .next t ∧ t = { s with twin := { s.twin with retrain := true } }) ∧
  (∀ (s : State) (i : Nat), s.part.isTwin = true → i < 16 → (s.stream.active = false ∨ s.stream.src ≠ 3) →
    ∃ t, exec .linkDown s = .next t ∧ t.on Fld.TWN_STAT_LINK_UP = false ∧ t.f Fld.TWN_STAT_LANES = 0 ∧
      t.on Fld.TWN_STAT_HB_LINK = false ∧ t.on Fld.TWN_LANE_GOOD i = false ∧
      t.on Fld.TWN_IRQ_LINK = (s.on Fld.TWN_IRQ_LINK || s.on Fld.TWN_STAT_LINK_UP) ∧ t.mode = s.mode ∧
      t.on Fld.TWN_STAT_PAIRED = s.on Fld.TWN_STAT_PAIRED) ∧
  (∀ s : State, s.part.isTwin = true → s.stream.active = true → s.stream.src = 3 → s.mode = .load →
    ∃ t, exec .linkDown s = .next t ∧ t.mode = .faultMode ∧ t.f Fld.CFG_STAT_REASON = 0x0A ∧
      t.f Fld.CFG_ERRPOS = s.f Fld.CFG_WORDS) ∧
  (∀ (s : State) (c : TapCode), ∃ t, exec (.jtagInstruction c) s = .next t ∧
      t = { s with pins := { s.pins with jtag := tapDecode c, cells := t.pins.cells } } ∧
      (tapShift c = [] → t.pins.cells = s.pins.cells)) ∧
  (∀ s : State, s.mode ≠ .reset → s.mode ≠ .blank → s.mode ≠ .faultMode →
    ∃ t, exec (.jtagInstruction (.extest [])) s = .next t ∧ t.pins.jtag = .extest ∧ t.tapInForce = .bypass) ∧
  (∀ s : State, s.mode = .blank →
    ∃ t, exec (.jtagInstruction (.extest [])) s = .next t ∧ t.tapInForce = .extest) ∧
  (∀ s : State, ∃ t, exec .jtagReset s = .next t ∧ t = { s with pins := { s.pins with jtag := .bypass } }) ∧
  (∀ (s : State) (tag : Nat) (w : Word) (p : TwinPeer), s.takes = true → s.part.isTwin = true → s.mode = .run →
    s.standby = true →
    ∃ t, exec (.twinPair tag [w] p none) s = .next t ∧
      t.bur.job = some { Job.init with status := stBusy, results := [argIs 0 (t.view Reg.TWN_STAT.base).toNat], always := true } ∧
      t = { s with regs := t.regs, bur := { s.bur with mirrored := false, job := t.bur.job } } ∧ SameBut transportRegs s t) ∧
  (∀ (s : State) (n : Nat) (d : Option Bool), n < 256 → s.mode = .blank → s.vok n = true →
    ∃ t, exec (.jtagInstruction (.extest [(.dio n, d)])) s = .next t ∧ t.pinOut n = d ∧
      t = { s with pins := { s.pins with jtag := .extest, cells := t.pins.cells } })

/-- HEARTBEAT, HEARTBEAT_LOSS, PRIMARY_PLL_LOSS, FENCED and TWIN_COMPARE (R527, R531 to R535). What the peer says comes in as
operands; what a trigger does on each die, which blocks carry FAILOVER, and how a heartbeat's index cuts a block, is the model's
reading (log entry 41); rows that meet in one cycle come in the spec's order (log entry 15). -/
def Obligations.FailoverAndComparison : Prop :=
  (∀ (s : State) (lanes strobe : Bool), s.part.isTwin = true → s.standby = false →
    ∃ t, exec (.heartbeat lanes strobe [] []) s = .next t ∧ t.on Fld.TWN_STAT_HB_LINK = lanes ∧
      t.on Fld.TWN_STAT_HB_SIDE = strobe ∧ t = { s with regs := t.regs } ∧ SameBut [Reg.TWN_STAT.base] s t) ∧
  (∀ (s : State) (lanes strobe : Bool) (r q : Nat) (b c : RingBlock), s.part.isTwin = true → s.standby = true → r < 4096 →
    s.twin.replay = [(r, b), (r, c)] → b.seq = q → c.seq = q + 1 → q + 1 < 2 ^ 32 →
    ∃ t, exec (.heartbeat lanes strobe [(r, q)] []) s = .next t ∧ t.twin.replay = [(r, c)] ∧ t.f Fld.DMA_HEAD r = q + 1 ∧
      (t.ring r).written = (s.ring r).written + b.words.length ∧ t.f Fld.TWN_RPL_LEVEL = 1 ∧
      Tab.get (fun _ => 0) t.twin.lastHb r = q + 1 ∧ t.on Fld.TWN_STAT_HB_LINK = lanes ∧ t.standby = true ∧
      t.hostMem = s.hostMem) ∧
  (∀ s : State, s.part.isTwin = true → s.standby = true → s.on Fld.TWN_CTL_FO_EN = true → s.bur.running = true →
    s.lcs.time < 2 ^ 64 →
    ∃ t, exec .heartbeatLoss s = .next t ∧ t.on Fld.TWN_STAT_PAIRED = false ∧ t.on Fld.TWN_STAT_PRIMARY = true ∧
      t.f Fld.TWN_STAT_CAUSE = 1 ∧ t.on Fld.TWN_IRQ_FAILOVER = true ∧
      t.f Fld.TWN_FOTICK_LO + 2 ^ 32 * t.f Fld.TWN_FOTICK_HI = s.lcs.time ∧
      t.f Fld.TWN_FOCNT_FAILOVERS = (s.f Fld.TWN_FOCNT_FAILOVERS + 1) % 65536 ∧ t.on Fld.TWN_STAT_HB_LINK = false ∧
      t.on Fld.TWN_STAT_HB_SIDE = false ∧ t.twin.foUntil = some (s.lcs.time + 500) ∧ t.twin.replay = [] ∧ t.mode = s.mode) ∧
  (∀ s : State, s.part.isTwin = true → s.on Fld.TWN_CTL_FO_EN = false →
    ∃ t, exec .heartbeatLoss s = .next t ∧ t.on Fld.TWN_STAT_HB_LINK = false ∧ t.on Fld.TWN_STAT_HB_SIDE = false ∧
      t.on Fld.TWN_STAT_PAIRED = s.on Fld.TWN_STAT_PAIRED ∧ t = { s with regs := t.regs } ∧
      SameBut [Reg.TWN_STAT.base] s t) ∧
  (∀ s : State, s.lcs.pll ≠ .locked → s.on Fld.TWN_STAT_PAIRED = true → s.on Fld.TWN_STAT_PRIMARY = true →
    s.on Fld.TWN_CTL_FO_EN = true → s.bur.running = true →
    ∃ t, exec .primaryPllLoss s = .next t ∧ t.twin.fenced = true ∧ t.twin.waiting = [] ∧
      t.on Fld.TWN_STAT_PAIRED = false ∧ t.on Fld.TWN_STAT_PRIMARY = false ∧
      t.f Fld.TWN_STAT_CAUSE = s.f Fld.TWN_STAT_CAUSE ∧ t.mode = s.mode) ∧
  (∀ (s : State) (r : Nat), s.lcs.pll ≠ .locked → s.standby = true → s.on Fld.TWN_CTL_FO_EN = true →
    s.bur.running = true → r < 4096 → s.admitted r = true →
    ∃ t, exec .primaryPllLoss s = .next t ∧ t.on Fld.TWN_STAT_PAIRED = false ∧ t.on Fld.TWN_STAT_PRIMARY = false ∧
      t.f Fld.TWN_STAT_CAUSE = 2 ∧ t.on Fld.TWN_IRQ_FAILOVER = true ∧ t.admitted r = false ∧ t.twin.silent = true ∧
      t.hostMem = s.hostMem) ∧
  (∀ (s : State) (cause : Nat), s.standby = true → cause < 16 →
    ∃ t, exec (.fenced cause []) s = .next t ∧ t.on Fld.TWN_STAT_PAIRED = false ∧ t.on Fld.TWN_STAT_PRIMARY = true ∧
      t.f Fld.TWN_STAT_CAUSE = cause ∧ t.on Fld.TWN_IRQ_FAILOVER = true ∧
      t.f Fld.TWN_FOCNT_FAILOVERS = (s.f Fld.TWN_FOCNT_FAILOVERS + 1) % 65536 ∧ t.twin.replay = [] ∧
      t.twin.foUntil = some (s.lcs.time + 500)) ∧
  (∀ (s : State) (k : Nat), k < s.part.numCB → k < 24 → s.on Fld.TWN_STAT_PAIRED = true →
    (s.f Fld.TWN_CMP).testBit k = true → s.twin.scrubbed.contains k = false →
    ∃ t, exec (.twinCompare k true false) s = .next t ∧
      t.f Fld.TWN_FOCNT_MISMATCH = min 65535 (s.f Fld.TWN_FOCNT_MISMATCH + 1) ∧ t.on Fld.TWN_IRQ_MISMATCH = true ∧
      t.on Fld.TWN_STAT_PAIRED = true ∧ t = { s with regs := t.regs, twin := { s.twin with scrubbed := t.twin.scrubbed } } ∧
      SameBut [Reg.TWN_FOCNT.base, Reg.TWN_IRQ.base] s t) ∧
  (∀ (s : State) (k : Nat) (peer : Bool), k < s.part.numCB → k < 24 → s.on Fld.TWN_STAT_PAIRED = true →
    (s.f Fld.TWN_CMP).testBit k = true →
    ∃ t, exec (.twinCompare k false peer) s = .next t ∧
      t = { s with twin := { s.twin with scrubbed := s.twin.scrubbed.filter (· != k) } }) ∧
  (∀ (s : State) (k : Nat), k < s.part.numCB → k < 24 → s.on Fld.TWN_STAT_PAIRED = true →
    s.on Fld.TWN_STAT_PRIMARY = true → s.on Fld.TWN_CTL_FO_EN = true → s.bur.running = true →
    (s.f Fld.TWN_CMP).testBit k = true → s.twin.scrubbed.contains k = true →
    ∃ t, exec (.twinCompare k true false) s = .next t ∧ t.twin.fenced = true ∧ t.on Fld.TWN_STAT_PAIRED = false ∧
      t.f Fld.TWN_FOCNT_MISMATCH = s.f Fld.TWN_FOCNT_MISMATCH) ∧
  (∀ (s : State) (k : Nat), k < s.part.numCB → k < 24 → s.on Fld.TWN_STAT_PAIRED = true →
    s.on Fld.TWN_STAT_PRIMARY = true → s.on Fld.TWN_CTL_FO_EN = true → s.bur.running = true →
    (s.f Fld.TWN_CMP).testBit k = true →
    ∃ t, exec (.twinCompare k true true) s = .next t ∧ t.on Fld.TWN_STAT_PAIRED = false ∧ t.on Fld.TWN_STAT_PRIMARY = false ∧
      t.f Fld.TWN_STAT_CAUSE = 5 ∧ t.twin.fenced = s.twin.fenced ∧ t.rings = s.rings ∧
      t.f Fld.TWN_FOCNT_MISMATCH = s.f Fld.TWN_FOCNT_MISMATCH) ∧
  (∀ (s : State) (lanes strobe : Bool) (r : Nat) (b : RingBlock) (l m : List (StreamWord × Int)) (e : StreamWord × Int),
    s.part.isTwin = true → s.standby = true → r < 4096 → s.twin.replay = [] → (s.ring r).opened = none →
    (s.ring r).closed = [b] →
    b.words = l ++ e :: m → l ≠ [] → l.all (fun x => x.1.index != e.1.index) = true → m.length + 1 < s.ringW r →
    ∃ t, exec (.heartbeat lanes strobe [] [(r, e.1.index)]) s = .next t ∧ (t.ring r).closed = [{ b with words := l }] ∧
      (t.ring r).opened.map (·.words) = some (e :: m) ∧
      (t.ring r).opened.map (·.seq) = some ((s.f Fld.DMA_HEAD r + 1) % 2 ^ 32) ∧ t.f Fld.DMA_HEAD r = s.f Fld.DMA_HEAD r)
end

