-- ==== Sys2Proof/Laws/Tab.lean ====
section
/-! SUPPORT. Laws of the sparse tables: what a read after an update gives, and that updates keep the canonical form. -/

namespace Sys2Proof.Machine

variable {α : Type}

@[simp] theorem Tab.get_nil (d : Nat → α) (k : Nat) : Tab.get d [] k = d k := rfl

theorem Tab.get_cons (d : Nat → α) (a : Nat) (v : α) (t : Tab α) (k : Nat) :
    Tab.get d ((a, v) :: t) k = if a = k then v else Tab.get d t k := rfl

theorem Tab.get_erase (d : Nat → α) (t : Tab α) (k j : Nat) :
    Tab.get d (t.erase k) j = if k = j then d j else Tab.get d t j := by
  induction t with
  | nil => simp [Tab.erase]
  | cons e t ih =>
    obtain ⟨a, v⟩ := e
    unfold Tab.erase at ih ⊢
    by_cases h : a = k
    · subst h; simp only [bne_self_eq_false, Bool.false_eq_true, not_false_eq_true, List.filter_cons_of_neg, ih, Tab.get_cons]
      split <;> simp_all
    · rw [List.filter_cons_of_pos (by simpa using h), Tab.get_cons, Tab.get_cons, ih]
      by_cases h1 : a = j
      · subst h1; simp [Ne.symm h]
      · simp [h1]

theorem Tab.get_ins (d : Nat → α) (t : Tab α) (k j : Nat) (v : α) :
    Tab.get d (t.ins k v) j = if k = j then v else Tab.get d t j := by
  induction t with
  | nil => simp [Tab.ins, Tab.get_cons]
  | cons e t ih =>
    obtain ⟨a, w⟩ := e
    unfold Tab.ins
    split
    · simp [Tab.get_cons]
    · split
      · next h => subst h; simp only [Tab.get_cons]; split <;> rfl
      · next h => simp only [Tab.get_cons, ih]; split <;> split <;> simp_all

/-- A read after an update. -/
@[simp] theorem Tab.get_put [DecidableEq α] (d : Nat → α) (t : Tab α) (k j : Nat) (v : α) :
    Tab.get d (t.put d k v) j = if k = j then v else Tab.get d t j := by
  unfold Tab.put
  split
  · next h => rw [Tab.get_erase]; split <;> simp_all
  · exact Tab.get_ins d t k j v

theorem Tab.rising_mono {t : Tab α} {a b : Nat} (h : Tab.rising (some a) t = true) (hb : b ≤ a) :
    Tab.rising (some b) t = true := by
  cases t with
  | nil => rfl
  | cons e t => obtain ⟨c, v⟩ := e; simp_all [Tab.rising]; omega

theorem Tab.rising_none {t : Tab α} {a : Nat} (h : Tab.rising (some a) t = true) : Tab.rising none t = true := by
  cases t with
  | nil => rfl
  | cons e t => obtain ⟨c, v⟩ := e; simp_all [Tab.rising]

theorem Tab.rising_filter (p : Nat × α → Bool) {t : Tab α} {o : Option Nat} (h : Tab.rising o t = true) :
    Tab.rising o (t.filter p) = true := by
  induction t generalizing o with
  | nil => exact h
  | cons e t ih =>
    obtain ⟨a, v⟩ := e
    simp only [Tab.rising, Bool.and_eq_true] at h
    by_cases hp : p (a, v) = true
    · rw [List.filter_cons_of_pos hp]; simp only [Tab.rising, Bool.and_eq_true]; exact ⟨h.1, ih h.2⟩
    · rw [List.filter_cons_of_neg hp]
      have := ih h.2
      cases o with
      | none => exact Tab.rising_none this
      | some b => exact Tab.rising_mono this (by simpa using le_of_lt (by simpa using h.1))

theorem Tab.rising_ins {t : Tab α} {o : Option Nat} {k : Nat} {v : α} (h : Tab.rising o t = true)
    (hk : ∀ b, o = some b → b < k) : Tab.rising o (t.ins k v) = true := by
  induction t generalizing o with
  | nil => cases o <;> simp_all [Tab.ins, Tab.rising]
  | cons e t ih =>
    obtain ⟨a, w⟩ := e
    simp only [Tab.rising, Bool.and_eq_true] at h
    unfold Tab.ins
    split
    · next hlt => cases o <;> simp_all [Tab.rising]
    · split
      · next heq => subst heq; simp only [Tab.rising, Bool.and_eq_true]; exact h
      · next hlt hne =>
        simp only [Tab.rising, Bool.and_eq_true]
        exact ⟨h.1, ih h.2 (by intro b hb; cases hb; omega)⟩

/-- Filtering keeps the canonical form. -/
theorem Tab.wf_filter [DecidableEq α] (d : Nat → α) (p : Nat × α → Bool) {t : Tab α} (h : t.wf d = true) :
    Tab.wf d (t.filter p) = true := by
  simp only [Tab.wf, Bool.and_eq_true] at h ⊢
  refine ⟨Tab.rising_filter p h.1, ?_⟩
  rw [List.all_eq_true] at h ⊢
  exact fun e he => h.2 e (List.mem_of_mem_filter he)

theorem Tab.mem_ins {t : Tab α} {k : Nat} {v : α} {e : Nat × α} (h : e ∈ t.ins k v) : e = (k, v) ∨ e ∈ t := by
  induction t with
  | nil => simp_all [Tab.ins]
  | cons a t ih =>
    obtain ⟨a, w⟩ := a
    unfold Tab.ins at h
    split at h
    · simpa using h
    · split at h
      · rcases List.mem_cons.mp h with h | h
        · exact .inl h
        · exact .inr (List.mem_cons_of_mem _ h)
      · rcases List.mem_cons.mp h with h | h
        · exact .inr (h ▸ List.mem_cons_self)
        · exact (ih h).imp_right (List.mem_cons_of_mem _)

/-- An update keeps the canonical form. -/
theorem Tab.wf_put [DecidableEq α] (d : Nat → α) {t : Tab α} (k : Nat) (v : α) (h : t.wf d = true) :
    Tab.wf d (t.put d k v) = true := by
  unfold Tab.put
  split
  · exact Tab.wf_filter d _ h
  · next hv =>
    simp only [Tab.wf, Bool.and_eq_true] at h ⊢
    refine ⟨Tab.rising_ins h.1 (by simp), ?_⟩
    rw [List.all_eq_true] at h ⊢
    intro e he
    rcases Tab.mem_ins he with rfl | he
    · simpa using hv
    · exact h.2 e he

/-- Rewriting an entry that a filter drops does not change what the filter keeps. -/
theorem Tab.filter_put [DecidableEq α] (d : Nat → α) (p : Nat → Bool) (t : Tab α) {k : Nat} (v : α) (h : p k = false) :
    (t.put d k v).filter (fun e => p e.1) = t.filter fun e => p e.1 := by
  unfold Tab.put
  split
  · unfold Tab.erase
    rw [List.filter_filter]
    refine List.filter_congr fun e _ => ?_
    by_cases hk : e.1 = k
    · simp [hk, h]
    · simp [hk]
  · induction t with
    | nil => simp [Tab.ins, h]
    | cons e t ih =>
      obtain ⟨a, w⟩ := e
      unfold Tab.ins
      split
      · simp [h]
      · split
        · next hk => subst hk; simp [h]
        · simp [List.filter_cons, ih]

end Sys2Proof.Machine
end

