-- ==== Sys2Proof/Laws/Word.lean ====
section
/-! SUPPORT. Laws of the fields of a word. -/

namespace Sys2Proof

theorem Word.setBits_toNat (w : Word) {lo width : Nat} (v : Nat) (h : lo + width ≤ 32) :
    (w.setBits lo width v).toNat = w.toNat % 2 ^ lo + 2 ^ lo * (v % 2 ^ width) + 2 ^ (lo + width) * (w.toNat / 2 ^ (lo + width)) := by
  have hw : w.toNat < 2 ^ 32 := w.isLt
  have e : w.toNat = w.toNat % 2 ^ lo + 2 ^ lo * (w.toNat / 2 ^ lo % 2 ^ width) + 2 ^ (lo + width) * (w.toNat / 2 ^ (lo + width)) := by
    rw [pow_add, ← Nat.div_div_eq_div_mul, mul_assoc, add_assoc, ← Nat.mul_add, Nat.mod_add_div, Nat.mod_add_div]
  have hv : v % 2 ^ width < 2 ^ width := Nat.mod_lt _ (Nat.two_pow_pos _)
  have hm : w.toNat / 2 ^ (lo + width) < 2 ^ (32 - (lo + width)) := by
    rw [Nat.div_lt_iff_lt_mul (Nat.two_pow_pos _), ← pow_add]; simpa [Nat.sub_add_cancel h] using hw
  have hlo : w.toNat % 2 ^ lo < 2 ^ lo := Nat.mod_lt _ (Nat.two_pow_pos _)
  unfold Word.setBits Word.bits
  rw [BitVec.toNat_ofNat, Nat.shiftRight_eq_div_pow]
  set a := w.toNat % 2 ^ lo
  set b := w.toNat / 2 ^ lo % 2 ^ width
  set c := w.toNat / 2 ^ (lo + width)
  set x := v % 2 ^ width
  have e1 : w.toNat - b * 2 ^ lo + x * 2 ^ lo = a + 2 ^ lo * x + 2 ^ (lo + width) * c := by
    rw [e]; have := mul_comm b (2 ^ lo); have := mul_comm x (2 ^ lo); omega
  rw [e1]
  apply Nat.mod_eq_of_lt
  have h1 : a + 2 ^ lo * x < 2 ^ (lo + width) := by
    rw [pow_add]
    have : 2 ^ lo * (x + 1) ≤ 2 ^ lo * 2 ^ width := Nat.mul_le_mul_left _ hv
    rw [Nat.mul_add, Nat.mul_one] at this; omega
  have h2 : 2 ^ (lo + width) * (c + 1) ≤ 2 ^ (lo + width) * 2 ^ (32 - (lo + width)) := Nat.mul_le_mul_left _ hm
  rw [← pow_add, Nat.add_sub_cancel' h, Nat.mul_add, Nat.mul_one] at h2
  omega

/-- A field reads back as it was written. -/
theorem Word.bits_setBits (w : Word) {lo width : Nat} (v : Nat) (h : lo + width ≤ 32) :
    (w.setBits lo width v).bits lo width = v % 2 ^ width := by
  unfold Word.bits
  rw [Word.setBits_toNat w v h, Nat.shiftRight_eq_div_pow]
  rw [show w.toNat % 2 ^ lo + 2 ^ lo * (v % 2 ^ width) + 2 ^ (lo + width) * (w.toNat / 2 ^ (lo + width))
      = w.toNat % 2 ^ lo + 2 ^ lo * (v % 2 ^ width + 2 ^ width * (w.toNat / 2 ^ (lo + width))) by rw [pow_add]; ring]
  rw [Nat.add_mul_div_left _ _ (Nat.two_pow_pos lo), Nat.div_eq_of_lt (Nat.mod_lt _ (Nat.two_pow_pos _)), Nat.zero_add,
    Nat.add_mul_mod_self_left, Nat.mod_mod]

/-- Writing one field leaves a field beside it as it was. -/
theorem Word.bits_setBits_of_disjoint (w : Word) {lo width lo' width' : Nat} (v : Nat) (h : lo + width ≤ 32)
    (hd : lo + width ≤ lo' ∨ lo' + width' ≤ lo) : (w.setBits lo width v).bits lo' width' = w.bits lo' width' := by
  have key : ∀ i, lo' ≤ i → i < lo' + width' → (w.setBits lo width v).toNat.testBit i = w.toNat.testBit i := by
    intro i h1 h2
    rw [Word.setBits_toNat w v h]
    rcases hd with hd | hd
    · have e : w.toNat % 2 ^ lo + 2 ^ lo * (v % 2 ^ width) + 2 ^ (lo + width) * (w.toNat / 2 ^ (lo + width))
          = 2 ^ (lo + width) * (w.toNat / 2 ^ (lo + width)) + (w.toNat % 2 ^ lo + 2 ^ lo * (v % 2 ^ width)) := by omega
      have hb : w.toNat % 2 ^ lo + 2 ^ lo * (v % 2 ^ width) < 2 ^ (lo + width) := by
        have h1 := Nat.mod_lt w.toNat (Nat.two_pow_pos lo)
        have h2 := Nat.mod_lt v (Nat.two_pow_pos width)
        have : 2 ^ lo * (v % 2 ^ width + 1) ≤ 2 ^ lo * 2 ^ width := Nat.mul_le_mul_left _ h2
        rw [Nat.mul_add, Nat.mul_one, ← pow_add] at this; omega
      rw [e, Nat.testBit_two_pow_mul_add _ hb]
      rw [if_neg (by omega), Nat.testBit_div_two_pow, Nat.sub_add_cancel (by omega)]
    · rw [show w.toNat % 2 ^ lo + 2 ^ lo * (v % 2 ^ width) + 2 ^ (lo + width) * (w.toNat / 2 ^ (lo + width))
        = 2 ^ lo * (v % 2 ^ width + 2 ^ width * (w.toNat / 2 ^ (lo + width))) + w.toNat % 2 ^ lo by rw [pow_add]; ring]
      rw [Nat.testBit_two_pow_mul_add _ (Nat.mod_lt _ (Nat.two_pow_pos _)), if_pos (by omega), Nat.testBit_mod_two_pow]
      simp; omega
  unfold Word.bits
  apply Nat.eq_of_testBit_eq
  intro i
  rw [Nat.testBit_mod_two_pow, Nat.testBit_mod_two_pow, Nat.testBit_shiftRight, Nat.testBit_shiftRight]
  by_cases hi : i < width'
  · simp [hi, key (lo' + i) (by omega) (by omega)]
  · simp [hi]

theorem Word.bits_lt (w : Word) (lo width : Nat) : w.bits lo width < 2 ^ width := Nat.mod_lt _ (Nat.two_pow_pos _)

end Sys2Proof
end

