-- ==== Sys2Proof/Laws/State.lean ====
section
/-! SUPPORT. What each setter of the state leaves of every field, and what a read after a write gives. -/

namespace Sys2Proof.Machine

/-! setWord -/

@[simp] theorem State.setWord_apPins (s : State) (a : Nat) (w : Word) : (s.setWord a w).apPins = s.apPins := (rfl)
@[simp] theorem State.setWord_voted (s : State) (a : Nat) (w : Word) : (s.setWord a w).voted = s.voted := (rfl)
@[simp] theorem State.setWord_arb (s : State) (a : Nat) (w : Word) : (s.setWord a w).arb = s.arb := (rfl)
@[simp] theorem State.setWord_feeds (s : State) (a : Nat) (w : Word) : (s.setWord a w).feeds = s.feeds := (rfl)
@[simp] theorem State.setWord_freeCount (s : State) (a : Nat) (w : Word) : (s.setWord a w).freeCount = s.freeCount := (rfl)
@[simp] theorem State.setWord_part (s : State) (a : Nat) (w : Word) : (s.setWord a w).part = s.part := (rfl)
@[simp] theorem State.setWord_mode (s : State) (a : Nat) (w : Word) : (s.setWord a w).mode = s.mode := (rfl)
@[simp] theorem State.setWord_readData (s : State) (a : Nat) (w : Word) : (s.setWord a w).readData = s.readData := (rfl)
@[simp] theorem State.setWord_lcs (s : State) (a : Nat) (w : Word) : (s.setWord a w).lcs = s.lcs := (rfl)
@[simp] theorem State.setWord_cells (s : State) (a : Nat) (w : Word) : (s.setWord a w).cells = s.cells := (rfl)
@[simp] theorem State.setWord_groups (s : State) (a : Nat) (w : Word) : (s.setWord a w).groups = s.groups := (rfl)
@[simp] theorem State.setWord_chains (s : State) (a : Nat) (w : Word) : (s.setWord a w).chains = s.chains := (rfl)
@[simp] theorem State.setWord_monitors (s : State) (a : Nat) (w : Word) : (s.setWord a w).monitors = s.monitors := (rfl)
@[simp] theorem State.setWord_dacs (s : State) (a : Nat) (w : Word) : (s.setWord a w).dacs = s.dacs := (rfl)
@[simp] theorem State.setWord_cal (s : State) (a : Nat) (w : Word) : (s.setWord a w).cal = s.cal := (rfl)
@[simp] theorem State.setWord_frames (s : State) (a : Nat) (w : Word) : (s.setWord a w).frames = s.frames := (rfl)
@[simp] theorem State.setWord_checks (s : State) (a : Nat) (w : Word) : (s.setWord a w).checks = s.checks := (rfl)
@[simp] theorem State.setWord_fcells (s : State) (a : Nat) (w : Word) : (s.setWord a w).fcells = s.fcells := (rfl)
@[simp] theorem State.setWord_cabs (s : State) (a : Nat) (w : Word) : (s.setWord a w).cabs = s.cabs := (rfl)
@[simp] theorem State.setWord_lines (s : State) (a : Nat) (w : Word) : (s.setWord a w).lines = s.lines := (rfl)
@[simp] theorem State.setWord_frqs (s : State) (a : Nat) (w : Word) : (s.setWord a w).frqs = s.frqs := (rfl)
@[simp] theorem State.setWord_dio (s : State) (a : Nat) (w : Word) : (s.setWord a w).dio = s.dio := (rfl)
@[simp] theorem State.setWord_probes (s : State) (a : Nat) (w : Word) : (s.setWord a w).probes = s.probes := (rfl)
@[simp] theorem State.setWord_stream (s : State) (a : Nat) (w : Word) : (s.setWord a w).stream = s.stream := (rfl)
@[simp] theorem State.setWord_scrub (s : State) (a : Nat) (w : Word) : (s.setWord a w).scrub = s.scrub := (rfl)
@[simp] theorem State.setWord_pins (s : State) (a : Nat) (w : Word) : (s.setWord a w).pins = s.pins := (rfl)
@[simp] theorem State.setWord_rings (s : State) (a : Nat) (w : Word) : (s.setWord a w).rings = s.rings := (rfl)
@[simp] theorem State.setWord_pdir (s : State) (a : Nat) (w : Word) : (s.setWord a w).pdir = s.pdir := (rfl)
@[simp] theorem State.setWord_hostMem (s : State) (a : Nat) (w : Word) : (s.setWord a w).hostMem = s.hostMem := (rfl)
@[simp] theorem State.setWord_chans (s : State) (a : Nat) (w : Word) : (s.setWord a w).chans = s.chans := (rfl)
@[simp] theorem State.setWord_host (s : State) (a : Nat) (w : Word) : (s.setWord a w).host = s.host := (rfl)
@[simp] theorem State.setWord_bur (s : State) (a : Nat) (w : Word) : (s.setWord a w).bur = s.bur := (rfl)
@[simp] theorem State.setWord_pwr (s : State) (a : Nat) (w : Word) : (s.setWord a w).pwr = s.pwr := (rfl)
@[simp] theorem State.setWord_twin (s : State) (a : Nat) (w : Word) : (s.setWord a w).twin = s.twin := (rfl)
@[simp] theorem State.setWord_pending (s : State) (a : Nat) (w : Word) : (s.setWord a w).pending = s.pending := (rfl)

/-- A register reads back as it was written; every other register reads as before. -/
@[simp] theorem State.word_setWord (s : State) (a b : Nat) (w : Word) :
    (s.setWord a w).word b = if a = b then w else s.word b := by
  simp [State.word, State.setWord]

/-! setF -/

@[simp] theorem State.setF_apPins (s : State) (r : FieldRef) (v i j : Nat) : (s.setF r v i j).apPins = s.apPins := (rfl)
@[simp] theorem State.setF_voted (s : State) (r : FieldRef) (v i j : Nat) : (s.setF r v i j).voted = s.voted := (rfl)
@[simp] theorem State.setF_arb (s : State) (r : FieldRef) (v i j : Nat) : (s.setF r v i j).arb = s.arb := (rfl)
@[simp] theorem State.setF_feeds (s : State) (r : FieldRef) (v i j : Nat) : (s.setF r v i j).feeds = s.feeds := (rfl)
@[simp] theorem State.setF_freeCount (s : State) (r : FieldRef) (v i j : Nat) : (s.setF r v i j).freeCount = s.freeCount := (rfl)
@[simp] theorem State.setF_part (s : State) (r : FieldRef) (v i j : Nat) : (s.setF r v i j).part = s.part := (rfl)
@[simp] theorem State.setF_mode (s : State) (r : FieldRef) (v i j : Nat) : (s.setF r v i j).mode = s.mode := (rfl)
@[simp] theorem State.setF_readData (s : State) (r : FieldRef) (v i j : Nat) : (s.setF r v i j).readData = s.readData := (rfl)
@[simp] theorem State.setF_lcs (s : State) (r : FieldRef) (v i j : Nat) : (s.setF r v i j).lcs = s.lcs := (rfl)
@[simp] theorem State.setF_cells (s : State) (r : FieldRef) (v i j : Nat) : (s.setF r v i j).cells = s.cells := (rfl)
@[simp] theorem State.setF_groups (s : State) (r : FieldRef) (v i j : Nat) : (s.setF r v i j).groups = s.groups := (rfl)
@[simp] theorem State.setF_chains (s : State) (r : FieldRef) (v i j : Nat) : (s.setF r v i j).chains = s.chains := (rfl)
@[simp] theorem State.setF_monitors (s : State) (r : FieldRef) (v i j : Nat) : (s.setF r v i j).monitors = s.monitors := (rfl)
@[simp] theorem State.setF_dacs (s : State) (r : FieldRef) (v i j : Nat) : (s.setF r v i j).dacs = s.dacs := (rfl)
@[simp] theorem State.setF_cal (s : State) (r : FieldRef) (v i j : Nat) : (s.setF r v i j).cal = s.cal := (rfl)
@[simp] theorem State.setF_frames (s : State) (r : FieldRef) (v i j : Nat) : (s.setF r v i j).frames = s.frames := (rfl)
@[simp] theorem State.setF_checks (s : State) (r : FieldRef) (v i j : Nat) : (s.setF r v i j).checks = s.checks := (rfl)
@[simp] theorem State.setF_fcells (s : State) (r : FieldRef) (v i j : Nat) : (s.setF r v i j).fcells = s.fcells := (rfl)
@[simp] theorem State.setF_cabs (s : State) (r : FieldRef) (v i j : Nat) : (s.setF r v i j).cabs = s.cabs := (rfl)
@[simp] theorem State.setF_lines (s : State) (r : FieldRef) (v i j : Nat) : (s.setF r v i j).lines = s.lines := (rfl)
@[simp] theorem State.setF_frqs (s : State) (r : FieldRef) (v i j : Nat) : (s.setF r v i j).frqs = s.frqs := (rfl)
@[simp] theorem State.setF_dio (s : State) (r : FieldRef) (v i j : Nat) : (s.setF r v i j).dio = s.dio := (rfl)
@[simp] theorem State.setF_probes (s : State) (r : FieldRef) (v i j : Nat) : (s.setF r v i j).probes = s.probes := (rfl)
@[simp] theorem State.setF_stream (s : State) (r : FieldRef) (v i j : Nat) : (s.setF r v i j).stream = s.stream := (rfl)
@[simp] theorem State.setF_scrub (s : State) (r : FieldRef) (v i j : Nat) : (s.setF r v i j).scrub = s.scrub := (rfl)
@[simp] theorem State.setF_pins (s : State) (r : FieldRef) (v i j : Nat) : (s.setF r v i j).pins = s.pins := (rfl)
@[simp] theorem State.setF_rings (s : State) (r : FieldRef) (v i j : Nat) : (s.setF r v i j).rings = s.rings := (rfl)
@[simp] theorem State.setF_pdir (s : State) (r : FieldRef) (v i j : Nat) : (s.setF r v i j).pdir = s.pdir := (rfl)
@[simp] theorem State.setF_hostMem (s : State) (r : FieldRef) (v i j : Nat) : (s.setF r v i j).hostMem = s.hostMem := (rfl)
@[simp] theorem State.setF_chans (s : State) (r : FieldRef) (v i j : Nat) : (s.setF r v i j).chans = s.chans := (rfl)
@[simp] theorem State.setF_host (s : State) (r : FieldRef) (v i j : Nat) : (s.setF r v i j).host = s.host := (rfl)
@[simp] theorem State.setF_bur (s : State) (r : FieldRef) (v i j : Nat) : (s.setF r v i j).bur = s.bur := (rfl)
@[simp] theorem State.setF_pwr (s : State) (r : FieldRef) (v i j : Nat) : (s.setF r v i j).pwr = s.pwr := (rfl)
@[simp] theorem State.setF_twin (s : State) (r : FieldRef) (v i j : Nat) : (s.setF r v i j).twin = s.twin := (rfl)
@[simp] theorem State.setF_pending (s : State) (r : FieldRef) (v i j : Nat) : (s.setF r v i j).pending = s.pending := (rfl)

theorem State.word_setF (s : State) (r : FieldRef) (v i j b : Nat) :
    (s.setF r v i j).word b = if r.addr i j = b then (s.word b).setBits r.lo r.width v else s.word b := by
  unfold State.setF
  rw [State.word_setWord]
  split
  · next h => rw [h]
  · rfl

/-- A field reads back as it was written. -/
theorem State.f_setF (s : State) (r : FieldRef) (v i j : Nat) (h : r.lo + r.width ≤ 32) :
    (s.setF r v i j).f r i j = v % 2 ^ r.width := by
  unfold State.f
  rw [State.word_setF, if_pos rfl, Word.bits_setBits _ _ h]

/-- A field of another register reads as before. -/
theorem State.f_setF_of_addr (s : State) (r q : FieldRef) (v i j k l : Nat) (h : r.addr i j ≠ q.addr k l) :
    (s.setF r v i j).f q k l = s.f q k l := by
  unfold State.f
  rw [State.word_setF, if_neg h]

/-- A field beside it in the same register reads as before. -/
theorem State.f_setF_of_disjoint (s : State) (r q : FieldRef) (v i j k l : Nat) (h : r.lo + r.width ≤ 32)
    (hd : r.lo + r.width ≤ q.lo ∨ q.lo + q.width ≤ r.lo) : (s.setF r v i j).f q k l = s.f q k l := by
  unfold State.f
  rw [State.word_setF]
  split
  · rw [Word.bits_setBits_of_disjoint _ _ h hd]
  · rfl

/-! The other field writers are field writes. -/

@[simp] theorem State.setB_eq (s : State) (r : FieldRef) (b : Bool) (i j : Nat) :
    s.setB r b i j = s.setF r (if b then 1 else 0) i j := (rfl)
@[simp] theorem State.flag_eq (s : State) (r : FieldRef) (i j : Nat) : s.flag r i j = s.setF r 1 i j := (rfl)
@[simp] theorem State.flagIf_eq (s : State) (b : Bool) (r : FieldRef) (i j : Nat) :
    s.flagIf b r i j = if b then s.setF r 1 i j else s := (rfl)
@[simp] theorem State.addSat_eq (s : State) (r : FieldRef) (n i j : Nat) :
    s.addSat r n i j = s.setF r (min (s.f r i j + n) (2 ^ r.width - 1)) i j := (rfl)
@[simp] theorem State.addWrap_eq (s : State) (r : FieldRef) (n i j : Nat) :
    s.addWrap r n i j = s.setF r (s.f r i j + n) i j := (rfl)
@[simp] theorem State.setBit_eq (s : State) (r : FieldRef) (k i j : Nat) :
    s.setBit r k i j = s.setF r (s.f r i j ||| 2 ^ k) i j := (rfl)
@[simp] theorem State.setPair_eq (s : State) (lo hi : FieldRef) (v i j : Nat) :
    s.setPair lo hi v i j = (s.setF lo v i j).setF hi (v / 2 ^ 32) i j := (rfl)

/-! setGroup -/

@[simp] theorem State.setGroup_apPins (s : State) (g : Nat) (x : Group) : (s.setGroup g x).apPins = s.apPins := (rfl)
@[simp] theorem State.setGroup_voted (s : State) (g : Nat) (x : Group) : (s.setGroup g x).voted = s.voted := (rfl)
@[simp] theorem State.setGroup_arb (s : State) (g : Nat) (x : Group) : (s.setGroup g x).arb = s.arb := (rfl)
@[simp] theorem State.setGroup_feeds (s : State) (g : Nat) (x : Group) : (s.setGroup g x).feeds = s.feeds := (rfl)
@[simp] theorem State.setGroup_freeCount (s : State) (g : Nat) (x : Group) : (s.setGroup g x).freeCount = s.freeCount := (rfl)
@[simp] theorem State.setGroup_part (s : State) (g : Nat) (x : Group) : (s.setGroup g x).part = s.part := (rfl)
@[simp] theorem State.setGroup_mode (s : State) (g : Nat) (x : Group) : (s.setGroup g x).mode = s.mode := (rfl)
@[simp] theorem State.setGroup_regs (s : State) (g : Nat) (x : Group) : (s.setGroup g x).regs = s.regs := (rfl)
@[simp] theorem State.setGroup_readData (s : State) (g : Nat) (x : Group) : (s.setGroup g x).readData = s.readData := (rfl)
@[simp] theorem State.setGroup_lcs (s : State) (g : Nat) (x : Group) : (s.setGroup g x).lcs = s.lcs := (rfl)
@[simp] theorem State.setGroup_cells (s : State) (g : Nat) (x : Group) : (s.setGroup g x).cells = s.cells := (rfl)
@[simp] theorem State.setGroup_chains (s : State) (g : Nat) (x : Group) : (s.setGroup g x).chains = s.chains := (rfl)
@[simp] theorem State.setGroup_monitors (s : State) (g : Nat) (x : Group) : (s.setGroup g x).monitors = s.monitors := (rfl)
@[simp] theorem State.setGroup_dacs (s : State) (g : Nat) (x : Group) : (s.setGroup g x).dacs = s.dacs := (rfl)
@[simp] theorem State.setGroup_cal (s : State) (g : Nat) (x : Group) : (s.setGroup g x).cal = s.cal := (rfl)
@[simp] theorem State.setGroup_frames (s : State) (g : Nat) (x : Group) : (s.setGroup g x).frames = s.frames := (rfl)
@[simp] theorem State.setGroup_checks (s : State) (g : Nat) (x : Group) : (s.setGroup g x).checks = s.checks := (rfl)
@[simp] theorem State.setGroup_fcells (s : State) (g : Nat) (x : Group) : (s.setGroup g x).fcells = s.fcells := (rfl)
@[simp] theorem State.setGroup_cabs (s : State) (g : Nat) (x : Group) : (s.setGroup g x).cabs = s.cabs := (rfl)
@[simp] theorem State.setGroup_lines (s : State) (g : Nat) (x : Group) : (s.setGroup g x).lines = s.lines := (rfl)
@[simp] theorem State.setGroup_frqs (s : State) (g : Nat) (x : Group) : (s.setGroup g x).frqs = s.frqs := (rfl)
@[simp] theorem State.setGroup_dio (s : State) (g : Nat) (x : Group) : (s.setGroup g x).dio = s.dio := (rfl)
@[simp] theorem State.setGroup_probes (s : State) (g : Nat) (x : Group) : (s.setGroup g x).probes = s.probes := (rfl)
@[simp] theorem State.setGroup_stream (s : State) (g : Nat) (x : Group) : (s.setGroup g x).stream = s.stream := (rfl)
@[simp] theorem State.setGroup_scrub (s : State) (g : Nat) (x : Group) : (s.setGroup g x).scrub = s.scrub := (rfl)
@[simp] theorem State.setGroup_pins (s : State) (g : Nat) (x : Group) : (s.setGroup g x).pins = s.pins := (rfl)
@[simp] theorem State.setGroup_rings (s : State) (g : Nat) (x : Group) : (s.setGroup g x).rings = s.rings := (rfl)
@[simp] theorem State.setGroup_pdir (s : State) (g : Nat) (x : Group) : (s.setGroup g x).pdir = s.pdir := (rfl)
@[simp] theorem State.setGroup_hostMem (s : State) (g : Nat) (x : Group) : (s.setGroup g x).hostMem = s.hostMem := (rfl)
@[simp] theorem State.setGroup_chans (s : State) (g : Nat) (x : Group) : (s.setGroup g x).chans = s.chans := (rfl)
@[simp] theorem State.setGroup_host (s : State) (g : Nat) (x : Group) : (s.setGroup g x).host = s.host := (rfl)
@[simp] theorem State.setGroup_bur (s : State) (g : Nat) (x : Group) : (s.setGroup g x).bur = s.bur := (rfl)
@[simp] theorem State.setGroup_pwr (s : State) (g : Nat) (x : Group) : (s.setGroup g x).pwr = s.pwr := (rfl)
@[simp] theorem State.setGroup_twin (s : State) (g : Nat) (x : Group) : (s.setGroup g x).twin = s.twin := (rfl)
@[simp] theorem State.setGroup_pending (s : State) (g : Nat) (x : Group) : (s.setGroup g x).pending = s.pending := (rfl)
@[simp] theorem State.setGroup_word (s : State) (g : Nat) (x : Group) (b : Nat) : (s.setGroup g x).word b = s.word b := (rfl)
@[simp] theorem State.setGroup_f (s : State) (g : Nat) (x : Group) (q : FieldRef) (qi qj : Nat) : (s.setGroup g x).f q qi qj = s.f q qi qj := (rfl)
@[simp] theorem State.setGroup_on (s : State) (g : Nat) (x : Group) (q : FieldRef) (qi qj : Nat) : (s.setGroup g x).on q qi qj = s.on q qi qj := (rfl)

/-! setChain -/

@[simp] theorem State.setChain_apPins (s : State) (n : Nat) (c : Chain) : (s.setChain n c).apPins = s.apPins := (rfl)
@[simp] theorem State.setChain_voted (s : State) (n : Nat) (c : Chain) : (s.setChain n c).voted = s.voted := (rfl)
@[simp] theorem State.setChain_arb (s : State) (n : Nat) (c : Chain) : (s.setChain n c).arb = s.arb := (rfl)
@[simp] theorem State.setChain_feeds (s : State) (n : Nat) (c : Chain) : (s.setChain n c).feeds = s.feeds := (rfl)
@[simp] theorem State.setChain_freeCount (s : State) (n : Nat) (c : Chain) : (s.setChain n c).freeCount = s.freeCount := (rfl)
@[simp] theorem State.setChain_part (s : State) (n : Nat) (c : Chain) : (s.setChain n c).part = s.part := (rfl)
@[simp] theorem State.setChain_mode (s : State) (n : Nat) (c : Chain) : (s.setChain n c).mode = s.mode := (rfl)
@[simp] theorem State.setChain_regs (s : State) (n : Nat) (c : Chain) : (s.setChain n c).regs = s.regs := (rfl)
@[simp] theorem State.setChain_readData (s : State) (n : Nat) (c : Chain) : (s.setChain n c).readData = s.readData := (rfl)
@[simp] theorem State.setChain_lcs (s : State) (n : Nat) (c : Chain) : (s.setChain n c).lcs = s.lcs := (rfl)
@[simp] theorem State.setChain_cells (s : State) (n : Nat) (c : Chain) : (s.setChain n c).cells = s.cells := (rfl)
@[simp] theorem State.setChain_groups (s : State) (n : Nat) (c : Chain) : (s.setChain n c).groups = s.groups := (rfl)
@[simp] theorem State.setChain_monitors (s : State) (n : Nat) (c : Chain) : (s.setChain n c).monitors = s.monitors := (rfl)
@[simp] theorem State.setChain_dacs (s : State) (n : Nat) (c : Chain) : (s.setChain n c).dacs = s.dacs := (rfl)
@[simp] theorem State.setChain_cal (s : State) (n : Nat) (c : Chain) : (s.setChain n c).cal = s.cal := (rfl)
@[simp] theorem State.setChain_frames (s : State) (n : Nat) (c : Chain) : (s.setChain n c).frames = s.frames := (rfl)
@[simp] theorem State.setChain_checks (s : State) (n : Nat) (c : Chain) : (s.setChain n c).checks = s.checks := (rfl)
@[simp] theorem State.setChain_fcells (s : State) (n : Nat) (c : Chain) : (s.setChain n c).fcells = s.fcells := (rfl)
@[simp] theorem State.setChain_cabs (s : State) (n : Nat) (c : Chain) : (s.setChain n c).cabs = s.cabs := (rfl)
@[simp] theorem State.setChain_lines (s : State) (n : Nat) (c : Chain) : (s.setChain n c).lines = s.lines := (rfl)
@[simp] theorem State.setChain_frqs (s : State) (n : Nat) (c : Chain) : (s.setChain n c).frqs = s.frqs := (rfl)
@[simp] theorem State.setChain_dio (s : State) (n : Nat) (c : Chain) : (s.setChain n c).dio = s.dio := (rfl)
@[simp] theorem State.setChain_probes (s : State) (n : Nat) (c : Chain) : (s.setChain n c).probes = s.probes := (rfl)
@[simp] theorem State.setChain_stream (s : State) (n : Nat) (c : Chain) : (s.setChain n c).stream = s.stream := (rfl)
@[simp] theorem State.setChain_scrub (s : State) (n : Nat) (c : Chain) : (s.setChain n c).scrub = s.scrub := (rfl)
@[simp] theorem State.setChain_pins (s : State) (n : Nat) (c : Chain) : (s.setChain n c).pins = s.pins := (rfl)
@[simp] theorem State.setChain_rings (s : State) (n : Nat) (c : Chain) : (s.setChain n c).rings = s.rings := (rfl)
@[simp] theorem State.setChain_pdir (s : State) (n : Nat) (c : Chain) : (s.setChain n c).pdir = s.pdir := (rfl)
@[simp] theorem State.setChain_hostMem (s : State) (n : Nat) (c : Chain) : (s.setChain n c).hostMem = s.hostMem := (rfl)
@[simp] theorem State.setChain_chans (s : State) (n : Nat) (c : Chain) : (s.setChain n c).chans = s.chans := (rfl)
@[simp] theorem State.setChain_host (s : State) (n : Nat) (c : Chain) : (s.setChain n c).host = s.host := (rfl)
@[simp] theorem State.setChain_bur (s : State) (n : Nat) (c : Chain) : (s.setChain n c).bur = s.bur := (rfl)
@[simp] theorem State.setChain_pwr (s : State) (n : Nat) (c : Chain) : (s.setChain n c).pwr = s.pwr := (rfl)
@[simp] theorem State.setChain_twin (s : State) (n : Nat) (c : Chain) : (s.setChain n c).twin = s.twin := (rfl)
@[simp] theorem State.setChain_pending (s : State) (n : Nat) (c : Chain) : (s.setChain n c).pending = s.pending := (rfl)
@[simp] theorem State.setChain_word (s : State) (n : Nat) (c : Chain) (b : Nat) : (s.setChain n c).word b = s.word b := (rfl)
@[simp] theorem State.setChain_f (s : State) (n : Nat) (c : Chain) (q : FieldRef) (qi qj : Nat) : (s.setChain n c).f q qi qj = s.f q qi qj := (rfl)
@[simp] theorem State.setChain_on (s : State) (n : Nat) (c : Chain) (q : FieldRef) (qi qj : Nat) : (s.setChain n c).on q qi qj = s.on q qi qj := (rfl)

/-! setWm -/

@[simp] theorem State.setWm_apPins (s : State) (n : Nat) (m : Monitor) : (s.setWm n m).apPins = s.apPins := (rfl)
@[simp] theorem State.setWm_voted (s : State) (n : Nat) (m : Monitor) : (s.setWm n m).voted = s.voted := (rfl)
@[simp] theorem State.setWm_arb (s : State) (n : Nat) (m : Monitor) : (s.setWm n m).arb = s.arb := (rfl)
@[simp] theorem State.setWm_feeds (s : State) (n : Nat) (m : Monitor) : (s.setWm n m).feeds = s.feeds := (rfl)
@[simp] theorem State.setWm_freeCount (s : State) (n : Nat) (m : Monitor) : (s.setWm n m).freeCount = s.freeCount := (rfl)
@[simp] theorem State.setWm_part (s : State) (n : Nat) (m : Monitor) : (s.setWm n m).part = s.part := (rfl)
@[simp] theorem State.setWm_mode (s : State) (n : Nat) (m : Monitor) : (s.setWm n m).mode = s.mode := (rfl)
@[simp] theorem State.setWm_regs (s : State) (n : Nat) (m : Monitor) : (s.setWm n m).regs = s.regs := (rfl)
@[simp] theorem State.setWm_readData (s : State) (n : Nat) (m : Monitor) : (s.setWm n m).readData = s.readData := (rfl)
@[simp] theorem State.setWm_lcs (s : State) (n : Nat) (m : Monitor) : (s.setWm n m).lcs = s.lcs := (rfl)
@[simp] theorem State.setWm_cells (s : State) (n : Nat) (m : Monitor) : (s.setWm n m).cells = s.cells := (rfl)
@[simp] theorem State.setWm_groups (s : State) (n : Nat) (m : Monitor) : (s.setWm n m).groups = s.groups := (rfl)
@[simp] theorem State.setWm_chains (s : State) (n : Nat) (m : Monitor) : (s.setWm n m).chains = s.chains := (rfl)
@[simp] theorem State.setWm_dacs (s : State) (n : Nat) (m : Monitor) : (s.setWm n m).dacs = s.dacs := (rfl)
@[simp] theorem State.setWm_cal (s : State) (n : Nat) (m : Monitor) : (s.setWm n m).cal = s.cal := (rfl)
@[simp] theorem State.setWm_frames (s : State) (n : Nat) (m : Monitor) : (s.setWm n m).frames = s.frames := (rfl)
@[simp] theorem State.setWm_checks (s : State) (n : Nat) (m : Monitor) : (s.setWm n m).checks = s.checks := (rfl)
@[simp] theorem State.setWm_fcells (s : State) (n : Nat) (m : Monitor) : (s.setWm n m).fcells = s.fcells := (rfl)
@[simp] theorem State.setWm_cabs (s : State) (n : Nat) (m : Monitor) : (s.setWm n m).cabs = s.cabs := (rfl)
@[simp] theorem State.setWm_lines (s : State) (n : Nat) (m : Monitor) : (s.setWm n m).lines = s.lines := (rfl)
@[simp] theorem State.setWm_frqs (s : State) (n : Nat) (m : Monitor) : (s.setWm n m).frqs = s.frqs := (rfl)
@[simp] theorem State.setWm_dio (s : State) (n : Nat) (m : Monitor) : (s.setWm n m).dio = s.dio := (rfl)
@[simp] theorem State.setWm_probes (s : State) (n : Nat) (m : Monitor) : (s.setWm n m).probes = s.probes := (rfl)
@[simp] theorem State.setWm_stream (s : State) (n : Nat) (m : Monitor) : (s.setWm n m).stream = s.stream := (rfl)
@[simp] theorem State.setWm_scrub (s : State) (n : Nat) (m : Monitor) : (s.setWm n m).scrub = s.scrub := (rfl)
@[simp] theorem State.setWm_pins (s : State) (n : Nat) (m : Monitor) : (s.setWm n m).pins = s.pins := (rfl)
@[simp] theorem State.setWm_rings (s : State) (n : Nat) (m : Monitor) : (s.setWm n m).rings = s.rings := (rfl)
@[simp] theorem State.setWm_pdir (s : State) (n : Nat) (m : Monitor) : (s.setWm n m).pdir = s.pdir := (rfl)
@[simp] theorem State.setWm_hostMem (s : State) (n : Nat) (m : Monitor) : (s.setWm n m).hostMem = s.hostMem := (rfl)
@[simp] theorem State.setWm_chans (s : State) (n : Nat) (m : Monitor) : (s.setWm n m).chans = s.chans := (rfl)
@[simp] theorem State.setWm_host (s : State) (n : Nat) (m : Monitor) : (s.setWm n m).host = s.host := (rfl)
@[simp] theorem State.setWm_bur (s : State) (n : Nat) (m : Monitor) : (s.setWm n m).bur = s.bur := (rfl)
@[simp] theorem State.setWm_pwr (s : State) (n : Nat) (m : Monitor) : (s.setWm n m).pwr = s.pwr := (rfl)
@[simp] theorem State.setWm_twin (s : State) (n : Nat) (m : Monitor) : (s.setWm n m).twin = s.twin := (rfl)
@[simp] theorem State.setWm_pending (s : State) (n : Nat) (m : Monitor) : (s.setWm n m).pending = s.pending := (rfl)
@[simp] theorem State.setWm_word (s : State) (n : Nat) (m : Monitor) (b : Nat) : (s.setWm n m).word b = s.word b := (rfl)
@[simp] theorem State.setWm_f (s : State) (n : Nat) (m : Monitor) (q : FieldRef) (qi qj : Nat) : (s.setWm n m).f q qi qj = s.f q qi qj := (rfl)
@[simp] theorem State.setWm_on (s : State) (n : Nat) (m : Monitor) (q : FieldRef) (qi qj : Nat) : (s.setWm n m).on q qi qj = s.on q qi qj := (rfl)

/-! setDac -/

@[simp] theorem State.setDac_apPins (s : State) (d : Nat) (x : Dac) : (s.setDac d x).apPins = s.apPins := (rfl)
@[simp] theorem State.setDac_voted (s : State) (d : Nat) (x : Dac) : (s.setDac d x).voted = s.voted := (rfl)
@[simp] theorem State.setDac_arb (s : State) (d : Nat) (x : Dac) : (s.setDac d x).arb = s.arb := (rfl)
@[simp] theorem State.setDac_feeds (s : State) (d : Nat) (x : Dac) : (s.setDac d x).feeds = s.feeds := (rfl)
@[simp] theorem State.setDac_freeCount (s : State) (d : Nat) (x : Dac) : (s.setDac d x).freeCount = s.freeCount := (rfl)
@[simp] theorem State.setDac_part (s : State) (d : Nat) (x : Dac) : (s.setDac d x).part = s.part := (rfl)
@[simp] theorem State.setDac_mode (s : State) (d : Nat) (x : Dac) : (s.setDac d x).mode = s.mode := (rfl)
@[simp] theorem State.setDac_regs (s : State) (d : Nat) (x : Dac) : (s.setDac d x).regs = s.regs := (rfl)
@[simp] theorem State.setDac_readData (s : State) (d : Nat) (x : Dac) : (s.setDac d x).readData = s.readData := (rfl)
@[simp] theorem State.setDac_lcs (s : State) (d : Nat) (x : Dac) : (s.setDac d x).lcs = s.lcs := (rfl)
@[simp] theorem State.setDac_cells (s : State) (d : Nat) (x : Dac) : (s.setDac d x).cells = s.cells := (rfl)
@[simp] theorem State.setDac_groups (s : State) (d : Nat) (x : Dac) : (s.setDac d x).groups = s.groups := (rfl)
@[simp] theorem State.setDac_chains (s : State) (d : Nat) (x : Dac) : (s.setDac d x).chains = s.chains := (rfl)
@[simp] theorem State.setDac_monitors (s : State) (d : Nat) (x : Dac) : (s.setDac d x).monitors = s.monitors := (rfl)
@[simp] theorem State.setDac_cal (s : State) (d : Nat) (x : Dac) : (s.setDac d x).cal = s.cal := (rfl)
@[simp] theorem State.setDac_frames (s : State) (d : Nat) (x : Dac) : (s.setDac d x).frames = s.frames := (rfl)
@[simp] theorem State.setDac_checks (s : State) (d : Nat) (x : Dac) : (s.setDac d x).checks = s.checks := (rfl)
@[simp] theorem State.setDac_fcells (s : State) (d : Nat) (x : Dac) : (s.setDac d x).fcells = s.fcells := (rfl)
@[simp] theorem State.setDac_cabs (s : State) (d : Nat) (x : Dac) : (s.setDac d x).cabs = s.cabs := (rfl)
@[simp] theorem State.setDac_lines (s : State) (d : Nat) (x : Dac) : (s.setDac d x).lines = s.lines := (rfl)
@[simp] theorem State.setDac_frqs (s : State) (d : Nat) (x : Dac) : (s.setDac d x).frqs = s.frqs := (rfl)
@[simp] theorem State.setDac_dio (s : State) (d : Nat) (x : Dac) : (s.setDac d x).dio = s.dio := (rfl)
@[simp] theorem State.setDac_probes (s : State) (d : Nat) (x : Dac) : (s.setDac d x).probes = s.probes := (rfl)
@[simp] theorem State.setDac_stream (s : State) (d : Nat) (x : Dac) : (s.setDac d x).stream = s.stream := (rfl)
@[simp] theorem State.setDac_scrub (s : State) (d : Nat) (x : Dac) : (s.setDac d x).scrub = s.scrub := (rfl)
@[simp] theorem State.setDac_pins (s : State) (d : Nat) (x : Dac) : (s.setDac d x).pins = s.pins := (rfl)
@[simp] theorem State.setDac_rings (s : State) (d : Nat) (x : Dac) : (s.setDac d x).rings = s.rings := (rfl)
@[simp] theorem State.setDac_pdir (s : State) (d : Nat) (x : Dac) : (s.setDac d x).pdir = s.pdir := (rfl)
@[simp] theorem State.setDac_hostMem (s : State) (d : Nat) (x : Dac) : (s.setDac d x).hostMem = s.hostMem := (rfl)
@[simp] theorem State.setDac_chans (s : State) (d : Nat) (x : Dac) : (s.setDac d x).chans = s.chans := (rfl)
@[simp] theorem State.setDac_host (s : State) (d : Nat) (x : Dac) : (s.setDac d x).host = s.host := (rfl)
@[simp] theorem State.setDac_bur (s : State) (d : Nat) (x : Dac) : (s.setDac d x).bur = s.bur := (rfl)
@[simp] theorem State.setDac_pwr (s : State) (d : Nat) (x : Dac) : (s.setDac d x).pwr = s.pwr := (rfl)
@[simp] theorem State.setDac_twin (s : State) (d : Nat) (x : Dac) : (s.setDac d x).twin = s.twin := (rfl)
@[simp] theorem State.setDac_pending (s : State) (d : Nat) (x : Dac) : (s.setDac d x).pending = s.pending := (rfl)
@[simp] theorem State.setDac_word (s : State) (d : Nat) (x : Dac) (b : Nat) : (s.setDac d x).word b = s.word b := (rfl)
@[simp] theorem State.setDac_f (s : State) (d : Nat) (x : Dac) (q : FieldRef) (qi qj : Nat) : (s.setDac d x).f q qi qj = s.f q qi qj := (rfl)
@[simp] theorem State.setDac_on (s : State) (d : Nat) (x : Dac) (q : FieldRef) (qi qj : Nat) : (s.setDac d x).on q qi qj = s.on q qi qj := (rfl)

/-! setCell -/

@[simp] theorem State.setCell_apPins (s : State) (c : Nat) (x : Cell) : (s.setCell c x).apPins = s.apPins := (rfl)
@[simp] theorem State.setCell_voted (s : State) (c : Nat) (x : Cell) : (s.setCell c x).voted = s.voted := (rfl)
@[simp] theorem State.setCell_arb (s : State) (c : Nat) (x : Cell) : (s.setCell c x).arb = s.arb := (rfl)
@[simp] theorem State.setCell_feeds (s : State) (c : Nat) (x : Cell) : (s.setCell c x).feeds = s.feeds := (rfl)
@[simp] theorem State.setCell_freeCount (s : State) (c : Nat) (x : Cell) : (s.setCell c x).freeCount = s.freeCount := (rfl)
@[simp] theorem State.setCell_part (s : State) (c : Nat) (x : Cell) : (s.setCell c x).part = s.part := (rfl)
@[simp] theorem State.setCell_mode (s : State) (c : Nat) (x : Cell) : (s.setCell c x).mode = s.mode := (rfl)
@[simp] theorem State.setCell_regs (s : State) (c : Nat) (x : Cell) : (s.setCell c x).regs = s.regs := (rfl)
@[simp] theorem State.setCell_readData (s : State) (c : Nat) (x : Cell) : (s.setCell c x).readData = s.readData := (rfl)
@[simp] theorem State.setCell_lcs (s : State) (c : Nat) (x : Cell) : (s.setCell c x).lcs = s.lcs := (rfl)
@[simp] theorem State.setCell_groups (s : State) (c : Nat) (x : Cell) : (s.setCell c x).groups = s.groups := (rfl)
@[simp] theorem State.setCell_chains (s : State) (c : Nat) (x : Cell) : (s.setCell c x).chains = s.chains := (rfl)
@[simp] theorem State.setCell_monitors (s : State) (c : Nat) (x : Cell) : (s.setCell c x).monitors = s.monitors := (rfl)
@[simp] theorem State.setCell_dacs (s : State) (c : Nat) (x : Cell) : (s.setCell c x).dacs = s.dacs := (rfl)
@[simp] theorem State.setCell_cal (s : State) (c : Nat) (x : Cell) : (s.setCell c x).cal = s.cal := (rfl)
@[simp] theorem State.setCell_frames (s : State) (c : Nat) (x : Cell) : (s.setCell c x).frames = s.frames := (rfl)
@[simp] theorem State.setCell_checks (s : State) (c : Nat) (x : Cell) : (s.setCell c x).checks = s.checks := (rfl)
@[simp] theorem State.setCell_fcells (s : State) (c : Nat) (x : Cell) : (s.setCell c x).fcells = s.fcells := (rfl)
@[simp] theorem State.setCell_cabs (s : State) (c : Nat) (x : Cell) : (s.setCell c x).cabs = s.cabs := (rfl)
@[simp] theorem State.setCell_lines (s : State) (c : Nat) (x : Cell) : (s.setCell c x).lines = s.lines := (rfl)
@[simp] theorem State.setCell_frqs (s : State) (c : Nat) (x : Cell) : (s.setCell c x).frqs = s.frqs := (rfl)
@[simp] theorem State.setCell_dio (s : State) (c : Nat) (x : Cell) : (s.setCell c x).dio = s.dio := (rfl)
@[simp] theorem State.setCell_probes (s : State) (c : Nat) (x : Cell) : (s.setCell c x).probes = s.probes := (rfl)
@[simp] theorem State.setCell_stream (s : State) (c : Nat) (x : Cell) : (s.setCell c x).stream = s.stream := (rfl)
@[simp] theorem State.setCell_scrub (s : State) (c : Nat) (x : Cell) : (s.setCell c x).scrub = s.scrub := (rfl)
@[simp] theorem State.setCell_pins (s : State) (c : Nat) (x : Cell) : (s.setCell c x).pins = s.pins := (rfl)
@[simp] theorem State.setCell_rings (s : State) (c : Nat) (x : Cell) : (s.setCell c x).rings = s.rings := (rfl)
@[simp] theorem State.setCell_pdir (s : State) (c : Nat) (x : Cell) : (s.setCell c x).pdir = s.pdir := (rfl)
@[simp] theorem State.setCell_hostMem (s : State) (c : Nat) (x : Cell) : (s.setCell c x).hostMem = s.hostMem := (rfl)
@[simp] theorem State.setCell_chans (s : State) (c : Nat) (x : Cell) : (s.setCell c x).chans = s.chans := (rfl)
@[simp] theorem State.setCell_host (s : State) (c : Nat) (x : Cell) : (s.setCell c x).host = s.host := (rfl)
@[simp] theorem State.setCell_bur (s : State) (c : Nat) (x : Cell) : (s.setCell c x).bur = s.bur := (rfl)
@[simp] theorem State.setCell_pwr (s : State) (c : Nat) (x : Cell) : (s.setCell c x).pwr = s.pwr := (rfl)
@[simp] theorem State.setCell_twin (s : State) (c : Nat) (x : Cell) : (s.setCell c x).twin = s.twin := (rfl)
@[simp] theorem State.setCell_pending (s : State) (c : Nat) (x : Cell) : (s.setCell c x).pending = s.pending := (rfl)
@[simp] theorem State.setCell_word (s : State) (c : Nat) (x : Cell) (b : Nat) : (s.setCell c x).word b = s.word b := (rfl)
@[simp] theorem State.setCell_f (s : State) (c : Nat) (x : Cell) (q : FieldRef) (qi qj : Nat) : (s.setCell c x).f q qi qj = s.f q qi qj := (rfl)
@[simp] theorem State.setCell_on (s : State) (c : Nat) (x : Cell) (q : FieldRef) (qi qj : Nat) : (s.setCell c x).on q qi qj = s.on q qi qj := (rfl)

/-! setFrameWord -/

@[simp] theorem State.setFrameWord_apPins (s : State) (fa k : Nat) (v : Word) : (s.setFrameWord fa k v).apPins = s.apPins := (rfl)
@[simp] theorem State.setFrameWord_voted (s : State) (fa k : Nat) (v : Word) : (s.setFrameWord fa k v).voted = s.voted := (rfl)
@[simp] theorem State.setFrameWord_arb (s : State) (fa k : Nat) (v : Word) : (s.setFrameWord fa k v).arb = s.arb := (rfl)
@[simp] theorem State.setFrameWord_feeds (s : State) (fa k : Nat) (v : Word) : (s.setFrameWord fa k v).feeds = s.feeds := (rfl)
@[simp] theorem State.setFrameWord_freeCount (s : State) (fa k : Nat) (v : Word) : (s.setFrameWord fa k v).freeCount = s.freeCount := (rfl)
@[simp] theorem State.setFrameWord_part (s : State) (fa k : Nat) (v : Word) : (s.setFrameWord fa k v).part = s.part := (rfl)
@[simp] theorem State.setFrameWord_mode (s : State) (fa k : Nat) (v : Word) : (s.setFrameWord fa k v).mode = s.mode := (rfl)
@[simp] theorem State.setFrameWord_regs (s : State) (fa k : Nat) (v : Word) : (s.setFrameWord fa k v).regs = s.regs := (rfl)
@[simp] theorem State.setFrameWord_readData (s : State) (fa k : Nat) (v : Word) : (s.setFrameWord fa k v).readData = s.readData := (rfl)
@[simp] theorem State.setFrameWord_lcs (s : State) (fa k : Nat) (v : Word) : (s.setFrameWord fa k v).lcs = s.lcs := (rfl)
@[simp] theorem State.setFrameWord_cells (s : State) (fa k : Nat) (v : Word) : (s.setFrameWord fa k v).cells = s.cells := (rfl)
@[simp] theorem State.setFrameWord_groups (s : State) (fa k : Nat) (v : Word) : (s.setFrameWord fa k v).groups = s.groups := (rfl)
@[simp] theorem State.setFrameWord_chains (s : State) (fa k : Nat) (v : Word) : (s.setFrameWord fa k v).chains = s.chains := (rfl)
@[simp] theorem State.setFrameWord_monitors (s : State) (fa k : Nat) (v : Word) : (s.setFrameWord fa k v).monitors = s.monitors := (rfl)
@[simp] theorem State.setFrameWord_dacs (s : State) (fa k : Nat) (v : Word) : (s.setFrameWord fa k v).dacs = s.dacs := (rfl)
@[simp] theorem State.setFrameWord_cal (s : State) (fa k : Nat) (v : Word) : (s.setFrameWord fa k v).cal = s.cal := (rfl)
@[simp] theorem State.setFrameWord_checks (s : State) (fa k : Nat) (v : Word) : (s.setFrameWord fa k v).checks = s.checks := (rfl)
@[simp] theorem State.setFrameWord_fcells (s : State) (fa k : Nat) (v : Word) : (s.setFrameWord fa k v).fcells = s.fcells := (rfl)
@[simp] theorem State.setFrameWord_cabs (s : State) (fa k : Nat) (v : Word) : (s.setFrameWord fa k v).cabs = s.cabs := (rfl)
@[simp] theorem State.setFrameWord_lines (s : State) (fa k : Nat) (v : Word) : (s.setFrameWord fa k v).lines = s.lines := (rfl)
@[simp] theorem State.setFrameWord_frqs (s : State) (fa k : Nat) (v : Word) : (s.setFrameWord fa k v).frqs = s.frqs := (rfl)
@[simp] theorem State.setFrameWord_dio (s : State) (fa k : Nat) (v : Word) : (s.setFrameWord fa k v).dio = s.dio := (rfl)
@[simp] theorem State.setFrameWord_probes (s : State) (fa k : Nat) (v : Word) : (s.setFrameWord fa k v).probes = s.probes := (rfl)
@[simp] theorem State.setFrameWord_stream (s : State) (fa k : Nat) (v : Word) : (s.setFrameWord fa k v).stream = s.stream := (rfl)
@[simp] theorem State.setFrameWord_scrub (s : State) (fa k : Nat) (v : Word) : (s.setFrameWord fa k v).scrub = s.scrub := (rfl)
@[simp] theorem State.setFrameWord_pins (s : State) (fa k : Nat) (v : Word) : (s.setFrameWord fa k v).pins = s.pins := (rfl)
@[simp] theorem State.setFrameWord_rings (s : State) (fa k : Nat) (v : Word) : (s.setFrameWord fa k v).rings = s.rings := (rfl)
@[simp] theorem State.setFrameWord_pdir (s : State) (fa k : Nat) (v : Word) : (s.setFrameWord fa k v).pdir = s.pdir := (rfl)
@[simp] theorem State.setFrameWord_hostMem (s : State) (fa k : Nat) (v : Word) : (s.setFrameWord fa k v).hostMem = s.hostMem := (rfl)
@[simp] theorem State.setFrameWord_chans (s : State) (fa k : Nat) (v : Word) : (s.setFrameWord fa k v).chans = s.chans := (rfl)
@[simp] theorem State.setFrameWord_host (s : State) (fa k : Nat) (v : Word) : (s.setFrameWord fa k v).host = s.host := (rfl)
@[simp] theorem State.setFrameWord_bur (s : State) (fa k : Nat) (v : Word) : (s.setFrameWord fa k v).bur = s.bur := (rfl)
@[simp] theorem State.setFrameWord_pwr (s : State) (fa k : Nat) (v : Word) : (s.setFrameWord fa k v).pwr = s.pwr := (rfl)
@[simp] theorem State.setFrameWord_twin (s : State) (fa k : Nat) (v : Word) : (s.setFrameWord fa k v).twin = s.twin := (rfl)
@[simp] theorem State.setFrameWord_pending (s : State) (fa k : Nat) (v : Word) : (s.setFrameWord fa k v).pending = s.pending := (rfl)
@[simp] theorem State.setFrameWord_word (s : State) (fa k : Nat) (v : Word) (b : Nat) : (s.setFrameWord fa k v).word b = s.word b := (rfl)
@[simp] theorem State.setFrameWord_f (s : State) (fa k : Nat) (v : Word) (q : FieldRef) (qi qj : Nat) : (s.setFrameWord fa k v).f q qi qj = s.f q qi qj := (rfl)
@[simp] theorem State.setFrameWord_on (s : State) (fa k : Nat) (v : Word) (q : FieldRef) (qi qj : Nat) : (s.setFrameWord fa k v).on q qi qj = s.on q qi qj := (rfl)

/-! setCheck -/

@[simp] theorem State.setCheck_apPins (s : State) (fa c : Nat) : (s.setCheck fa c).apPins = s.apPins := (rfl)
@[simp] theorem State.setCheck_voted (s : State) (fa c : Nat) : (s.setCheck fa c).voted = s.voted := (rfl)
@[simp] theorem State.setCheck_arb (s : State) (fa c : Nat) : (s.setCheck fa c).arb = s.arb := (rfl)
@[simp] theorem State.setCheck_feeds (s : State) (fa c : Nat) : (s.setCheck fa c).feeds = s.feeds := (rfl)
@[simp] theorem State.setCheck_freeCount (s : State) (fa c : Nat) : (s.setCheck fa c).freeCount = s.freeCount := (rfl)
@[simp] theorem State.setCheck_part (s : State) (fa c : Nat) : (s.setCheck fa c).part = s.part := (rfl)
@[simp] theorem State.setCheck_mode (s : State) (fa c : Nat) : (s.setCheck fa c).mode = s.mode := (rfl)
@[simp] theorem State.setCheck_regs (s : State) (fa c : Nat) : (s.setCheck fa c).regs = s.regs := (rfl)
@[simp] theorem State.setCheck_readData (s : State) (fa c : Nat) : (s.setCheck fa c).readData = s.readData := (rfl)
@[simp] theorem State.setCheck_lcs (s : State) (fa c : Nat) : (s.setCheck fa c).lcs = s.lcs := (rfl)
@[simp] theorem State.setCheck_cells (s : State) (fa c : Nat) : (s.setCheck fa c).cells = s.cells := (rfl)
@[simp] theorem State.setCheck_groups (s : State) (fa c : Nat) : (s.setCheck fa c).groups = s.groups := (rfl)
@[simp] theorem State.setCheck_chains (s : State) (fa c : Nat) : (s.setCheck fa c).chains = s.chains := (rfl)
@[simp] theorem State.setCheck_monitors (s : State) (fa c : Nat) : (s.setCheck fa c).monitors = s.monitors := (rfl)
@[simp] theorem State.setCheck_dacs (s : State) (fa c : Nat) : (s.setCheck fa c).dacs = s.dacs := (rfl)
@[simp] theorem State.setCheck_cal (s : State) (fa c : Nat) : (s.setCheck fa c).cal = s.cal := (rfl)
@[simp] theorem State.setCheck_frames (s : State) (fa c : Nat) : (s.setCheck fa c).frames = s.frames := (rfl)
@[simp] theorem State.setCheck_fcells (s : State) (fa c : Nat) : (s.setCheck fa c).fcells = s.fcells := (rfl)
@[simp] theorem State.setCheck_cabs (s : State) (fa c : Nat) : (s.setCheck fa c).cabs = s.cabs := (rfl)
@[simp] theorem State.setCheck_lines (s : State) (fa c : Nat) : (s.setCheck fa c).lines = s.lines := (rfl)
@[simp] theorem State.setCheck_frqs (s : State) (fa c : Nat) : (s.setCheck fa c).frqs = s.frqs := (rfl)
@[simp] theorem State.setCheck_dio (s : State) (fa c : Nat) : (s.setCheck fa c).dio = s.dio := (rfl)
@[simp] theorem State.setCheck_probes (s : State) (fa c : Nat) : (s.setCheck fa c).probes = s.probes := (rfl)
@[simp] theorem State.setCheck_stream (s : State) (fa c : Nat) : (s.setCheck fa c).stream = s.stream := (rfl)
@[simp] theorem State.setCheck_scrub (s : State) (fa c : Nat) : (s.setCheck fa c).scrub = s.scrub := (rfl)
@[simp] theorem State.setCheck_pins (s : State) (fa c : Nat) : (s.setCheck fa c).pins = s.pins := (rfl)
@[simp] theorem State.setCheck_rings (s : State) (fa c : Nat) : (s.setCheck fa c).rings = s.rings := (rfl)
@[simp] theorem State.setCheck_pdir (s : State) (fa c : Nat) : (s.setCheck fa c).pdir = s.pdir := (rfl)
@[simp] theorem State.setCheck_hostMem (s : State) (fa c : Nat) : (s.setCheck fa c).hostMem = s.hostMem := (rfl)
@[simp] theorem State.setCheck_chans (s : State) (fa c : Nat) : (s.setCheck fa c).chans = s.chans := (rfl)
@[simp] theorem State.setCheck_host (s : State) (fa c : Nat) : (s.setCheck fa c).host = s.host := (rfl)
@[simp] theorem State.setCheck_bur (s : State) (fa c : Nat) : (s.setCheck fa c).bur = s.bur := (rfl)
@[simp] theorem State.setCheck_pwr (s : State) (fa c : Nat) : (s.setCheck fa c).pwr = s.pwr := (rfl)
@[simp] theorem State.setCheck_twin (s : State) (fa c : Nat) : (s.setCheck fa c).twin = s.twin := (rfl)
@[simp] theorem State.setCheck_pending (s : State) (fa c : Nat) : (s.setCheck fa c).pending = s.pending := (rfl)
@[simp] theorem State.setCheck_word (s : State) (fa c : Nat) (b : Nat) : (s.setCheck fa c).word b = s.word b := (rfl)
@[simp] theorem State.setCheck_f (s : State) (fa c : Nat) (q : FieldRef) (qi qj : Nat) : (s.setCheck fa c).f q qi qj = s.f q qi qj := (rfl)
@[simp] theorem State.setCheck_on (s : State) (fa c : Nat) (q : FieldRef) (qi qj : Nat) : (s.setCheck fa c).on q qi qj = s.on q qi qj := (rfl)

/-! setFcell -/

@[simp] theorem State.setFcell_apPins (s : State) (k i : Nat) (x : FabCell) : (s.setFcell k i x).apPins = s.apPins := (rfl)
@[simp] theorem State.setFcell_voted (s : State) (k i : Nat) (x : FabCell) : (s.setFcell k i x).voted = s.voted := (rfl)
@[simp] theorem State.setFcell_arb (s : State) (k i : Nat) (x : FabCell) : (s.setFcell k i x).arb = s.arb := (rfl)
@[simp] theorem State.setFcell_feeds (s : State) (k i : Nat) (x : FabCell) : (s.setFcell k i x).feeds = s.feeds := (rfl)
@[simp] theorem State.setFcell_freeCount (s : State) (k i : Nat) (x : FabCell) : (s.setFcell k i x).freeCount = s.freeCount := (rfl)
@[simp] theorem State.setFcell_part (s : State) (k i : Nat) (x : FabCell) : (s.setFcell k i x).part = s.part := (rfl)
@[simp] theorem State.setFcell_mode (s : State) (k i : Nat) (x : FabCell) : (s.setFcell k i x).mode = s.mode := (rfl)
@[simp] theorem State.setFcell_regs (s : State) (k i : Nat) (x : FabCell) : (s.setFcell k i x).regs = s.regs := (rfl)
@[simp] theorem State.setFcell_readData (s : State) (k i : Nat) (x : FabCell) : (s.setFcell k i x).readData = s.readData := (rfl)
@[simp] theorem State.setFcell_lcs (s : State) (k i : Nat) (x : FabCell) : (s.setFcell k i x).lcs = s.lcs := (rfl)
@[simp] theorem State.setFcell_cells (s : State) (k i : Nat) (x : FabCell) : (s.setFcell k i x).cells = s.cells := (rfl)
@[simp] theorem State.setFcell_groups (s : State) (k i : Nat) (x : FabCell) : (s.setFcell k i x).groups = s.groups := (rfl)
@[simp] theorem State.setFcell_chains (s : State) (k i : Nat) (x : FabCell) : (s.setFcell k i x).chains = s.chains := (rfl)
@[simp] theorem State.setFcell_monitors (s : State) (k i : Nat) (x : FabCell) : (s.setFcell k i x).monitors = s.monitors := (rfl)
@[simp] theorem State.setFcell_dacs (s : State) (k i : Nat) (x : FabCell) : (s.setFcell k i x).dacs = s.dacs := (rfl)
@[simp] theorem State.setFcell_cal (s : State) (k i : Nat) (x : FabCell) : (s.setFcell k i x).cal = s.cal := (rfl)
@[simp] theorem State.setFcell_frames (s : State) (k i : Nat) (x : FabCell) : (s.setFcell k i x).frames = s.frames := (rfl)
@[simp] theorem State.setFcell_checks (s : State) (k i : Nat) (x : FabCell) : (s.setFcell k i x).checks = s.checks := (rfl)
@[simp] theorem State.setFcell_cabs (s : State) (k i : Nat) (x : FabCell) : (s.setFcell k i x).cabs = s.cabs := (rfl)
@[simp] theorem State.setFcell_lines (s : State) (k i : Nat) (x : FabCell) : (s.setFcell k i x).lines = s.lines := (rfl)
@[simp] theorem State.setFcell_frqs (s : State) (k i : Nat) (x : FabCell) : (s.setFcell k i x).frqs = s.frqs := (rfl)
@[simp] theorem State.setFcell_dio (s : State) (k i : Nat) (x : FabCell) : (s.setFcell k i x).dio = s.dio := (rfl)
@[simp] theorem State.setFcell_probes (s : State) (k i : Nat) (x : FabCell) : (s.setFcell k i x).probes = s.probes := (rfl)
@[simp] theorem State.setFcell_stream (s : State) (k i : Nat) (x : FabCell) : (s.setFcell k i x).stream = s.stream := (rfl)
@[simp] theorem State.setFcell_scrub (s : State) (k i : Nat) (x : FabCell) : (s.setFcell k i x).scrub = s.scrub := (rfl)
@[simp] theorem State.setFcell_pins (s : State) (k i : Nat) (x : FabCell) : (s.setFcell k i x).pins = s.pins := (rfl)
@[simp] theorem State.setFcell_rings (s : State) (k i : Nat) (x : FabCell) : (s.setFcell k i x).rings = s.rings := (rfl)
@[simp] theorem State.setFcell_pdir (s : State) (k i : Nat) (x : FabCell) : (s.setFcell k i x).pdir = s.pdir := (rfl)
@[simp] theorem State.setFcell_hostMem (s : State) (k i : Nat) (x : FabCell) : (s.setFcell k i x).hostMem = s.hostMem := (rfl)
@[simp] theorem State.setFcell_chans (s : State) (k i : Nat) (x : FabCell) : (s.setFcell k i x).chans = s.chans := (rfl)
@[simp] theorem State.setFcell_host (s : State) (k i : Nat) (x : FabCell) : (s.setFcell k i x).host = s.host := (rfl)
@[simp] theorem State.setFcell_bur (s : State) (k i : Nat) (x : FabCell) : (s.setFcell k i x).bur = s.bur := (rfl)
@[simp] theorem State.setFcell_pwr (s : State) (k i : Nat) (x : FabCell) : (s.setFcell k i x).pwr = s.pwr := (rfl)
@[simp] theorem State.setFcell_twin (s : State) (k i : Nat) (x : FabCell) : (s.setFcell k i x).twin = s.twin := (rfl)
@[simp] theorem State.setFcell_pending (s : State) (k i : Nat) (x : FabCell) : (s.setFcell k i x).pending = s.pending := (rfl)
@[simp] theorem State.setFcell_word (s : State) (k i : Nat) (x : FabCell) (b : Nat) : (s.setFcell k i x).word b = s.word b := (rfl)
@[simp] theorem State.setFcell_f (s : State) (k i : Nat) (x : FabCell) (q : FieldRef) (qi qj : Nat) : (s.setFcell k i x).f q qi qj = s.f q qi qj := (rfl)
@[simp] theorem State.setFcell_on (s : State) (k i : Nat) (x : FabCell) (q : FieldRef) (qi qj : Nat) : (s.setFcell k i x).on q qi qj = s.on q qi qj := (rfl)

/-! setCab -/

@[simp] theorem State.setCab_apPins (s : State) (k : Nat) (c : Cabinet) : (s.setCab k c).apPins = s.apPins := (rfl)
@[simp] theorem State.setCab_voted (s : State) (k : Nat) (c : Cabinet) : (s.setCab k c).voted = s.voted := (rfl)
@[simp] theorem State.setCab_arb (s : State) (k : Nat) (c : Cabinet) : (s.setCab k c).arb = s.arb := (rfl)
@[simp] theorem State.setCab_feeds (s : State) (k : Nat) (c : Cabinet) : (s.setCab k c).feeds = s.feeds := (rfl)
@[simp] theorem State.setCab_freeCount (s : State) (k : Nat) (c : Cabinet) : (s.setCab k c).freeCount = s.freeCount := (rfl)
@[simp] theorem State.setCab_part (s : State) (k : Nat) (c : Cabinet) : (s.setCab k c).part = s.part := (rfl)
@[simp] theorem State.setCab_mode (s : State) (k : Nat) (c : Cabinet) : (s.setCab k c).mode = s.mode := (rfl)
@[simp] theorem State.setCab_regs (s : State) (k : Nat) (c : Cabinet) : (s.setCab k c).regs = s.regs := (rfl)
@[simp] theorem State.setCab_readData (s : State) (k : Nat) (c : Cabinet) : (s.setCab k c).readData = s.readData := (rfl)
@[simp] theorem State.setCab_lcs (s : State) (k : Nat) (c : Cabinet) : (s.setCab k c).lcs = s.lcs := (rfl)
@[simp] theorem State.setCab_cells (s : State) (k : Nat) (c : Cabinet) : (s.setCab k c).cells = s.cells := (rfl)
@[simp] theorem State.setCab_groups (s : State) (k : Nat) (c : Cabinet) : (s.setCab k c).groups = s.groups := (rfl)
@[simp] theorem State.setCab_chains (s : State) (k : Nat) (c : Cabinet) : (s.setCab k c).chains = s.chains := (rfl)
@[simp] theorem State.setCab_monitors (s : State) (k : Nat) (c : Cabinet) : (s.setCab k c).monitors = s.monitors := (rfl)
@[simp] theorem State.setCab_dacs (s : State) (k : Nat) (c : Cabinet) : (s.setCab k c).dacs = s.dacs := (rfl)
@[simp] theorem State.setCab_cal (s : State) (k : Nat) (c : Cabinet) : (s.setCab k c).cal = s.cal := (rfl)
@[simp] theorem State.setCab_frames (s : State) (k : Nat) (c : Cabinet) : (s.setCab k c).frames = s.frames := (rfl)
@[simp] theorem State.setCab_checks (s : State) (k : Nat) (c : Cabinet) : (s.setCab k c).checks = s.checks := (rfl)
@[simp] theorem State.setCab_fcells (s : State) (k : Nat) (c : Cabinet) : (s.setCab k c).fcells = s.fcells := (rfl)
@[simp] theorem State.setCab_lines (s : State) (k : Nat) (c : Cabinet) : (s.setCab k c).lines = s.lines := (rfl)
@[simp] theorem State.setCab_frqs (s : State) (k : Nat) (c : Cabinet) : (s.setCab k c).frqs = s.frqs := (rfl)
@[simp] theorem State.setCab_dio (s : State) (k : Nat) (c : Cabinet) : (s.setCab k c).dio = s.dio := (rfl)
@[simp] theorem State.setCab_probes (s : State) (k : Nat) (c : Cabinet) : (s.setCab k c).probes = s.probes := (rfl)
@[simp] theorem State.setCab_stream (s : State) (k : Nat) (c : Cabinet) : (s.setCab k c).stream = s.stream := (rfl)
@[simp] theorem State.setCab_scrub (s : State) (k : Nat) (c : Cabinet) : (s.setCab k c).scrub = s.scrub := (rfl)
@[simp] theorem State.setCab_pins (s : State) (k : Nat) (c : Cabinet) : (s.setCab k c).pins = s.pins := (rfl)
@[simp] theorem State.setCab_rings (s : State) (k : Nat) (c : Cabinet) : (s.setCab k c).rings = s.rings := (rfl)
@[simp] theorem State.setCab_pdir (s : State) (k : Nat) (c : Cabinet) : (s.setCab k c).pdir = s.pdir := (rfl)
@[simp] theorem State.setCab_hostMem (s : State) (k : Nat) (c : Cabinet) : (s.setCab k c).hostMem = s.hostMem := (rfl)
@[simp] theorem State.setCab_chans (s : State) (k : Nat) (c : Cabinet) : (s.setCab k c).chans = s.chans := (rfl)
@[simp] theorem State.setCab_host (s : State) (k : Nat) (c : Cabinet) : (s.setCab k c).host = s.host := (rfl)
@[simp] theorem State.setCab_bur (s : State) (k : Nat) (c : Cabinet) : (s.setCab k c).bur = s.bur := (rfl)
@[simp] theorem State.setCab_pwr (s : State) (k : Nat) (c : Cabinet) : (s.setCab k c).pwr = s.pwr := (rfl)
@[simp] theorem State.setCab_twin (s : State) (k : Nat) (c : Cabinet) : (s.setCab k c).twin = s.twin := (rfl)
@[simp] theorem State.setCab_pending (s : State) (k : Nat) (c : Cabinet) : (s.setCab k c).pending = s.pending := (rfl)
@[simp] theorem State.setCab_word (s : State) (k : Nat) (c : Cabinet) (b : Nat) : (s.setCab k c).word b = s.word b := (rfl)
@[simp] theorem State.setCab_f (s : State) (k : Nat) (c : Cabinet) (q : FieldRef) (qi qj : Nat) : (s.setCab k c).f q qi qj = s.f q qi qj := (rfl)
@[simp] theorem State.setCab_on (s : State) (k : Nat) (c : Cabinet) (q : FieldRef) (qi qj : Nat) : (s.setCab k c).on q qi qj = s.on q qi qj := (rfl)

/-! setLineX -/

@[simp] theorem State.setLineX_apPins (s : State) (k e : Nat) (x : PulseX) : (s.setLineX k e x).apPins = s.apPins := (rfl)
@[simp] theorem State.setLineX_voted (s : State) (k e : Nat) (x : PulseX) : (s.setLineX k e x).voted = s.voted := (rfl)
@[simp] theorem State.setLineX_arb (s : State) (k e : Nat) (x : PulseX) : (s.setLineX k e x).arb = s.arb := (rfl)
@[simp] theorem State.setLineX_feeds (s : State) (k e : Nat) (x : PulseX) : (s.setLineX k e x).feeds = s.feeds := (rfl)
@[simp] theorem State.setLineX_freeCount (s : State) (k e : Nat) (x : PulseX) : (s.setLineX k e x).freeCount = s.freeCount := (rfl)
@[simp] theorem State.setLineX_part (s : State) (k e : Nat) (x : PulseX) : (s.setLineX k e x).part = s.part := (rfl)
@[simp] theorem State.setLineX_mode (s : State) (k e : Nat) (x : PulseX) : (s.setLineX k e x).mode = s.mode := (rfl)
@[simp] theorem State.setLineX_regs (s : State) (k e : Nat) (x : PulseX) : (s.setLineX k e x).regs = s.regs := (rfl)
@[simp] theorem State.setLineX_readData (s : State) (k e : Nat) (x : PulseX) : (s.setLineX k e x).readData = s.readData := (rfl)
@[simp] theorem State.setLineX_lcs (s : State) (k e : Nat) (x : PulseX) : (s.setLineX k e x).lcs = s.lcs := (rfl)
@[simp] theorem State.setLineX_cells (s : State) (k e : Nat) (x : PulseX) : (s.setLineX k e x).cells = s.cells := (rfl)
@[simp] theorem State.setLineX_groups (s : State) (k e : Nat) (x : PulseX) : (s.setLineX k e x).groups = s.groups := (rfl)
@[simp] theorem State.setLineX_chains (s : State) (k e : Nat) (x : PulseX) : (s.setLineX k e x).chains = s.chains := (rfl)
@[simp] theorem State.setLineX_monitors (s : State) (k e : Nat) (x : PulseX) : (s.setLineX k e x).monitors = s.monitors := (rfl)
@[simp] theorem State.setLineX_dacs (s : State) (k e : Nat) (x : PulseX) : (s.setLineX k e x).dacs = s.dacs := (rfl)
@[simp] theorem State.setLineX_cal (s : State) (k e : Nat) (x : PulseX) : (s.setLineX k e x).cal = s.cal := (rfl)
@[simp] theorem State.setLineX_frames (s : State) (k e : Nat) (x : PulseX) : (s.setLineX k e x).frames = s.frames := (rfl)
@[simp] theorem State.setLineX_checks (s : State) (k e : Nat) (x : PulseX) : (s.setLineX k e x).checks = s.checks := (rfl)
@[simp] theorem State.setLineX_fcells (s : State) (k e : Nat) (x : PulseX) : (s.setLineX k e x).fcells = s.fcells := (rfl)
@[simp] theorem State.setLineX_cabs (s : State) (k e : Nat) (x : PulseX) : (s.setLineX k e x).cabs = s.cabs := (rfl)
@[simp] theorem State.setLineX_frqs (s : State) (k e : Nat) (x : PulseX) : (s.setLineX k e x).frqs = s.frqs := (rfl)
@[simp] theorem State.setLineX_dio (s : State) (k e : Nat) (x : PulseX) : (s.setLineX k e x).dio = s.dio := (rfl)
@[simp] theorem State.setLineX_probes (s : State) (k e : Nat) (x : PulseX) : (s.setLineX k e x).probes = s.probes := (rfl)
@[simp] theorem State.setLineX_stream (s : State) (k e : Nat) (x : PulseX) : (s.setLineX k e x).stream = s.stream := (rfl)
@[simp] theorem State.setLineX_scrub (s : State) (k e : Nat) (x : PulseX) : (s.setLineX k e x).scrub = s.scrub := (rfl)
@[simp] theorem State.setLineX_pins (s : State) (k e : Nat) (x : PulseX) : (s.setLineX k e x).pins = s.pins := (rfl)
@[simp] theorem State.setLineX_rings (s : State) (k e : Nat) (x : PulseX) : (s.setLineX k e x).rings = s.rings := (rfl)
@[simp] theorem State.setLineX_pdir (s : State) (k e : Nat) (x : PulseX) : (s.setLineX k e x).pdir = s.pdir := (rfl)
@[simp] theorem State.setLineX_hostMem (s : State) (k e : Nat) (x : PulseX) : (s.setLineX k e x).hostMem = s.hostMem := (rfl)
@[simp] theorem State.setLineX_chans (s : State) (k e : Nat) (x : PulseX) : (s.setLineX k e x).chans = s.chans := (rfl)
@[simp] theorem State.setLineX_host (s : State) (k e : Nat) (x : PulseX) : (s.setLineX k e x).host = s.host := (rfl)
@[simp] theorem State.setLineX_bur (s : State) (k e : Nat) (x : PulseX) : (s.setLineX k e x).bur = s.bur := (rfl)
@[simp] theorem State.setLineX_pwr (s : State) (k e : Nat) (x : PulseX) : (s.setLineX k e x).pwr = s.pwr := (rfl)
@[simp] theorem State.setLineX_twin (s : State) (k e : Nat) (x : PulseX) : (s.setLineX k e x).twin = s.twin := (rfl)
@[simp] theorem State.setLineX_pending (s : State) (k e : Nat) (x : PulseX) : (s.setLineX k e x).pending = s.pending := (rfl)
@[simp] theorem State.setLineX_word (s : State) (k e : Nat) (x : PulseX) (b : Nat) : (s.setLineX k e x).word b = s.word b := (rfl)
@[simp] theorem State.setLineX_f (s : State) (k e : Nat) (x : PulseX) (q : FieldRef) (qi qj : Nat) : (s.setLineX k e x).f q qi qj = s.f q qi qj := (rfl)
@[simp] theorem State.setLineX_on (s : State) (k e : Nat) (x : PulseX) (q : FieldRef) (qi qj : Nat) : (s.setLineX k e x).on q qi qj = s.on q qi qj := (rfl)

/-! setFrqX -/

@[simp] theorem State.setFrqX_apPins (s : State) (f : Nat) (x : PulseX) : (s.setFrqX f x).apPins = s.apPins := (rfl)
@[simp] theorem State.setFrqX_voted (s : State) (f : Nat) (x : PulseX) : (s.setFrqX f x).voted = s.voted := (rfl)
@[simp] theorem State.setFrqX_arb (s : State) (f : Nat) (x : PulseX) : (s.setFrqX f x).arb = s.arb := (rfl)
@[simp] theorem State.setFrqX_feeds (s : State) (f : Nat) (x : PulseX) : (s.setFrqX f x).feeds = s.feeds := (rfl)
@[simp] theorem State.setFrqX_freeCount (s : State) (f : Nat) (x : PulseX) : (s.setFrqX f x).freeCount = s.freeCount := (rfl)
@[simp] theorem State.setFrqX_part (s : State) (f : Nat) (x : PulseX) : (s.setFrqX f x).part = s.part := (rfl)
@[simp] theorem State.setFrqX_mode (s : State) (f : Nat) (x : PulseX) : (s.setFrqX f x).mode = s.mode := (rfl)
@[simp] theorem State.setFrqX_regs (s : State) (f : Nat) (x : PulseX) : (s.setFrqX f x).regs = s.regs := (rfl)
@[simp] theorem State.setFrqX_readData (s : State) (f : Nat) (x : PulseX) : (s.setFrqX f x).readData = s.readData := (rfl)
@[simp] theorem State.setFrqX_lcs (s : State) (f : Nat) (x : PulseX) : (s.setFrqX f x).lcs = s.lcs := (rfl)
@[simp] theorem State.setFrqX_cells (s : State) (f : Nat) (x : PulseX) : (s.setFrqX f x).cells = s.cells := (rfl)
@[simp] theorem State.setFrqX_groups (s : State) (f : Nat) (x : PulseX) : (s.setFrqX f x).groups = s.groups := (rfl)
@[simp] theorem State.setFrqX_chains (s : State) (f : Nat) (x : PulseX) : (s.setFrqX f x).chains = s.chains := (rfl)
@[simp] theorem State.setFrqX_monitors (s : State) (f : Nat) (x : PulseX) : (s.setFrqX f x).monitors = s.monitors := (rfl)
@[simp] theorem State.setFrqX_dacs (s : State) (f : Nat) (x : PulseX) : (s.setFrqX f x).dacs = s.dacs := (rfl)
@[simp] theorem State.setFrqX_cal (s : State) (f : Nat) (x : PulseX) : (s.setFrqX f x).cal = s.cal := (rfl)
@[simp] theorem State.setFrqX_frames (s : State) (f : Nat) (x : PulseX) : (s.setFrqX f x).frames = s.frames := (rfl)
@[simp] theorem State.setFrqX_checks (s : State) (f : Nat) (x : PulseX) : (s.setFrqX f x).checks = s.checks := (rfl)
@[simp] theorem State.setFrqX_fcells (s : State) (f : Nat) (x : PulseX) : (s.setFrqX f x).fcells = s.fcells := (rfl)
@[simp] theorem State.setFrqX_cabs (s : State) (f : Nat) (x : PulseX) : (s.setFrqX f x).cabs = s.cabs := (rfl)
@[simp] theorem State.setFrqX_lines (s : State) (f : Nat) (x : PulseX) : (s.setFrqX f x).lines = s.lines := (rfl)
@[simp] theorem State.setFrqX_dio (s : State) (f : Nat) (x : PulseX) : (s.setFrqX f x).dio = s.dio := (rfl)
@[simp] theorem State.setFrqX_probes (s : State) (f : Nat) (x : PulseX) : (s.setFrqX f x).probes = s.probes := (rfl)
@[simp] theorem State.setFrqX_stream (s : State) (f : Nat) (x : PulseX) : (s.setFrqX f x).stream = s.stream := (rfl)
@[simp] theorem State.setFrqX_scrub (s : State) (f : Nat) (x : PulseX) : (s.setFrqX f x).scrub = s.scrub := (rfl)
@[simp] theorem State.setFrqX_pins (s : State) (f : Nat) (x : PulseX) : (s.setFrqX f x).pins = s.pins := (rfl)
@[simp] theorem State.setFrqX_rings (s : State) (f : Nat) (x : PulseX) : (s.setFrqX f x).rings = s.rings := (rfl)
@[simp] theorem State.setFrqX_pdir (s : State) (f : Nat) (x : PulseX) : (s.setFrqX f x).pdir = s.pdir := (rfl)
@[simp] theorem State.setFrqX_hostMem (s : State) (f : Nat) (x : PulseX) : (s.setFrqX f x).hostMem = s.hostMem := (rfl)
@[simp] theorem State.setFrqX_chans (s : State) (f : Nat) (x : PulseX) : (s.setFrqX f x).chans = s.chans := (rfl)
@[simp] theorem State.setFrqX_host (s : State) (f : Nat) (x : PulseX) : (s.setFrqX f x).host = s.host := (rfl)
@[simp] theorem State.setFrqX_bur (s : State) (f : Nat) (x : PulseX) : (s.setFrqX f x).bur = s.bur := (rfl)
@[simp] theorem State.setFrqX_pwr (s : State) (f : Nat) (x : PulseX) : (s.setFrqX f x).pwr = s.pwr := (rfl)
@[simp] theorem State.setFrqX_twin (s : State) (f : Nat) (x : PulseX) : (s.setFrqX f x).twin = s.twin := (rfl)
@[simp] theorem State.setFrqX_pending (s : State) (f : Nat) (x : PulseX) : (s.setFrqX f x).pending = s.pending := (rfl)
@[simp] theorem State.setFrqX_word (s : State) (f : Nat) (x : PulseX) (b : Nat) : (s.setFrqX f x).word b = s.word b := (rfl)
@[simp] theorem State.setFrqX_f (s : State) (f : Nat) (x : PulseX) (q : FieldRef) (qi qj : Nat) : (s.setFrqX f x).f q qi qj = s.f q qi qj := (rfl)
@[simp] theorem State.setFrqX_on (s : State) (f : Nat) (x : PulseX) (q : FieldRef) (qi qj : Nat) : (s.setFrqX f x).on q qi qj = s.on q qi qj := (rfl)

/-! setProbe -/

@[simp] theorem State.setProbe_apPins (s : State) (p : Nat) (x : Probe) : (s.setProbe p x).apPins = s.apPins := (rfl)
@[simp] theorem State.setProbe_voted (s : State) (p : Nat) (x : Probe) : (s.setProbe p x).voted = s.voted := (rfl)
@[simp] theorem State.setProbe_arb (s : State) (p : Nat) (x : Probe) : (s.setProbe p x).arb = s.arb := (rfl)
@[simp] theorem State.setProbe_feeds (s : State) (p : Nat) (x : Probe) : (s.setProbe p x).feeds = s.feeds := (rfl)
@[simp] theorem State.setProbe_freeCount (s : State) (p : Nat) (x : Probe) : (s.setProbe p x).freeCount = s.freeCount := (rfl)
@[simp] theorem State.setProbe_part (s : State) (p : Nat) (x : Probe) : (s.setProbe p x).part = s.part := (rfl)
@[simp] theorem State.setProbe_mode (s : State) (p : Nat) (x : Probe) : (s.setProbe p x).mode = s.mode := (rfl)
@[simp] theorem State.setProbe_regs (s : State) (p : Nat) (x : Probe) : (s.setProbe p x).regs = s.regs := (rfl)
@[simp] theorem State.setProbe_readData (s : State) (p : Nat) (x : Probe) : (s.setProbe p x).readData = s.readData := (rfl)
@[simp] theorem State.setProbe_lcs (s : State) (p : Nat) (x : Probe) : (s.setProbe p x).lcs = s.lcs := (rfl)
@[simp] theorem State.setProbe_cells (s : State) (p : Nat) (x : Probe) : (s.setProbe p x).cells = s.cells := (rfl)
@[simp] theorem State.setProbe_groups (s : State) (p : Nat) (x : Probe) : (s.setProbe p x).groups = s.groups := (rfl)
@[simp] theorem State.setProbe_chains (s : State) (p : Nat) (x : Probe) : (s.setProbe p x).chains = s.chains := (rfl)
@[simp] theorem State.setProbe_monitors (s : State) (p : Nat) (x : Probe) : (s.setProbe p x).monitors = s.monitors := (rfl)
@[simp] theorem State.setProbe_dacs (s : State) (p : Nat) (x : Probe) : (s.setProbe p x).dacs = s.dacs := (rfl)
@[simp] theorem State.setProbe_cal (s : State) (p : Nat) (x : Probe) : (s.setProbe p x).cal = s.cal := (rfl)
@[simp] theorem State.setProbe_frames (s : State) (p : Nat) (x : Probe) : (s.setProbe p x).frames = s.frames := (rfl)
@[simp] theorem State.setProbe_checks (s : State) (p : Nat) (x : Probe) : (s.setProbe p x).checks = s.checks := (rfl)
@[simp] theorem State.setProbe_fcells (s : State) (p : Nat) (x : Probe) : (s.setProbe p x).fcells = s.fcells := (rfl)
@[simp] theorem State.setProbe_cabs (s : State) (p : Nat) (x : Probe) : (s.setProbe p x).cabs = s.cabs := (rfl)
@[simp] theorem State.setProbe_lines (s : State) (p : Nat) (x : Probe) : (s.setProbe p x).lines = s.lines := (rfl)
@[simp] theorem State.setProbe_frqs (s : State) (p : Nat) (x : Probe) : (s.setProbe p x).frqs = s.frqs := (rfl)
@[simp] theorem State.setProbe_dio (s : State) (p : Nat) (x : Probe) : (s.setProbe p x).dio = s.dio := (rfl)
@[simp] theorem State.setProbe_stream (s : State) (p : Nat) (x : Probe) : (s.setProbe p x).stream = s.stream := (rfl)
@[simp] theorem State.setProbe_scrub (s : State) (p : Nat) (x : Probe) : (s.setProbe p x).scrub = s.scrub := (rfl)
@[simp] theorem State.setProbe_pins (s : State) (p : Nat) (x : Probe) : (s.setProbe p x).pins = s.pins := (rfl)
@[simp] theorem State.setProbe_rings (s : State) (p : Nat) (x : Probe) : (s.setProbe p x).rings = s.rings := (rfl)
@[simp] theorem State.setProbe_pdir (s : State) (p : Nat) (x : Probe) : (s.setProbe p x).pdir = s.pdir := (rfl)
@[simp] theorem State.setProbe_hostMem (s : State) (p : Nat) (x : Probe) : (s.setProbe p x).hostMem = s.hostMem := (rfl)
@[simp] theorem State.setProbe_chans (s : State) (p : Nat) (x : Probe) : (s.setProbe p x).chans = s.chans := (rfl)
@[simp] theorem State.setProbe_host (s : State) (p : Nat) (x : Probe) : (s.setProbe p x).host = s.host := (rfl)
@[simp] theorem State.setProbe_bur (s : State) (p : Nat) (x : Probe) : (s.setProbe p x).bur = s.bur := (rfl)
@[simp] theorem State.setProbe_pwr (s : State) (p : Nat) (x : Probe) : (s.setProbe p x).pwr = s.pwr := (rfl)
@[simp] theorem State.setProbe_twin (s : State) (p : Nat) (x : Probe) : (s.setProbe p x).twin = s.twin := (rfl)
@[simp] theorem State.setProbe_pending (s : State) (p : Nat) (x : Probe) : (s.setProbe p x).pending = s.pending := (rfl)
@[simp] theorem State.setProbe_word (s : State) (p : Nat) (x : Probe) (b : Nat) : (s.setProbe p x).word b = s.word b := (rfl)
@[simp] theorem State.setProbe_f (s : State) (p : Nat) (x : Probe) (q : FieldRef) (qi qj : Nat) : (s.setProbe p x).f q qi qj = s.f q qi qj := (rfl)
@[simp] theorem State.setProbe_on (s : State) (p : Nat) (x : Probe) (q : FieldRef) (qi qj : Nat) : (s.setProbe p x).on q qi qj = s.on q qi qj := (rfl)

/-! setFeed -/

@[simp] theorem State.setFeed_apPins (s : State) (c : Nat) (x : Feed) : (s.setFeed c x).apPins = s.apPins := (rfl)
@[simp] theorem State.setFeed_voted (s : State) (c : Nat) (x : Feed) : (s.setFeed c x).voted = s.voted := (rfl)
@[simp] theorem State.setFeed_arb (s : State) (c : Nat) (x : Feed) : (s.setFeed c x).arb = s.arb := (rfl)
@[simp] theorem State.setFeed_freeCount (s : State) (c : Nat) (x : Feed) : (s.setFeed c x).freeCount = s.freeCount := (rfl)
@[simp] theorem State.setFeed_part (s : State) (c : Nat) (x : Feed) : (s.setFeed c x).part = s.part := (rfl)
@[simp] theorem State.setFeed_mode (s : State) (c : Nat) (x : Feed) : (s.setFeed c x).mode = s.mode := (rfl)
@[simp] theorem State.setFeed_regs (s : State) (c : Nat) (x : Feed) : (s.setFeed c x).regs = s.regs := (rfl)
@[simp] theorem State.setFeed_readData (s : State) (c : Nat) (x : Feed) : (s.setFeed c x).readData = s.readData := (rfl)
@[simp] theorem State.setFeed_lcs (s : State) (c : Nat) (x : Feed) : (s.setFeed c x).lcs = s.lcs := (rfl)
@[simp] theorem State.setFeed_cells (s : State) (c : Nat) (x : Feed) : (s.setFeed c x).cells = s.cells := (rfl)
@[simp] theorem State.setFeed_groups (s : State) (c : Nat) (x : Feed) : (s.setFeed c x).groups = s.groups := (rfl)
@[simp] theorem State.setFeed_chains (s : State) (c : Nat) (x : Feed) : (s.setFeed c x).chains = s.chains := (rfl)
@[simp] theorem State.setFeed_monitors (s : State) (c : Nat) (x : Feed) : (s.setFeed c x).monitors = s.monitors := (rfl)
@[simp] theorem State.setFeed_dacs (s : State) (c : Nat) (x : Feed) : (s.setFeed c x).dacs = s.dacs := (rfl)
@[simp] theorem State.setFeed_cal (s : State) (c : Nat) (x : Feed) : (s.setFeed c x).cal = s.cal := (rfl)
@[simp] theorem State.setFeed_frames (s : State) (c : Nat) (x : Feed) : (s.setFeed c x).frames = s.frames := (rfl)
@[simp] theorem State.setFeed_checks (s : State) (c : Nat) (x : Feed) : (s.setFeed c x).checks = s.checks := (rfl)
@[simp] theorem State.setFeed_fcells (s : State) (c : Nat) (x : Feed) : (s.setFeed c x).fcells = s.fcells := (rfl)
@[simp] theorem State.setFeed_cabs (s : State) (c : Nat) (x : Feed) : (s.setFeed c x).cabs = s.cabs := (rfl)
@[simp] theorem State.setFeed_lines (s : State) (c : Nat) (x : Feed) : (s.setFeed c x).lines = s.lines := (rfl)
@[simp] theorem State.setFeed_frqs (s : State) (c : Nat) (x : Feed) : (s.setFeed c x).frqs = s.frqs := (rfl)
@[simp] theorem State.setFeed_dio (s : State) (c : Nat) (x : Feed) : (s.setFeed c x).dio = s.dio := (rfl)
@[simp] theorem State.setFeed_probes (s : State) (c : Nat) (x : Feed) : (s.setFeed c x).probes = s.probes := (rfl)
@[simp] theorem State.setFeed_stream (s : State) (c : Nat) (x : Feed) : (s.setFeed c x).stream = s.stream := (rfl)
@[simp] theorem State.setFeed_scrub (s : State) (c : Nat) (x : Feed) : (s.setFeed c x).scrub = s.scrub := (rfl)
@[simp] theorem State.setFeed_pins (s : State) (c : Nat) (x : Feed) : (s.setFeed c x).pins = s.pins := (rfl)
@[simp] theorem State.setFeed_rings (s : State) (c : Nat) (x : Feed) : (s.setFeed c x).rings = s.rings := (rfl)
@[simp] theorem State.setFeed_pdir (s : State) (c : Nat) (x : Feed) : (s.setFeed c x).pdir = s.pdir := (rfl)
@[simp] theorem State.setFeed_hostMem (s : State) (c : Nat) (x : Feed) : (s.setFeed c x).hostMem = s.hostMem := (rfl)
@[simp] theorem State.setFeed_chans (s : State) (c : Nat) (x : Feed) : (s.setFeed c x).chans = s.chans := (rfl)
@[simp] theorem State.setFeed_host (s : State) (c : Nat) (x : Feed) : (s.setFeed c x).host = s.host := (rfl)
@[simp] theorem State.setFeed_bur (s : State) (c : Nat) (x : Feed) : (s.setFeed c x).bur = s.bur := (rfl)
@[simp] theorem State.setFeed_pwr (s : State) (c : Nat) (x : Feed) : (s.setFeed c x).pwr = s.pwr := (rfl)
@[simp] theorem State.setFeed_twin (s : State) (c : Nat) (x : Feed) : (s.setFeed c x).twin = s.twin := (rfl)
@[simp] theorem State.setFeed_pending (s : State) (c : Nat) (x : Feed) : (s.setFeed c x).pending = s.pending := (rfl)
@[simp] theorem State.setFeed_word (s : State) (c : Nat) (x : Feed) (b : Nat) : (s.setFeed c x).word b = s.word b := (rfl)
@[simp] theorem State.setFeed_f (s : State) (c : Nat) (x : Feed) (q : FieldRef) (qi qj : Nat) : (s.setFeed c x).f q qi qj = s.f q qi qj := (rfl)
@[simp] theorem State.setFeed_on (s : State) (c : Nat) (x : Feed) (q : FieldRef) (qi qj : Nat) : (s.setFeed c x).on q qi qj = s.on q qi qj := (rfl)

/-! setTrk -/

@[simp] theorem State.setTrk_apPins (s : State) (n : Nat) (t : Tracker) : (s.setTrk n t).apPins = s.apPins := (rfl)
@[simp] theorem State.setTrk_voted (s : State) (n : Nat) (t : Tracker) : (s.setTrk n t).voted = s.voted := (rfl)
@[simp] theorem State.setTrk_arb (s : State) (n : Nat) (t : Tracker) : (s.setTrk n t).arb = s.arb := (rfl)
@[simp] theorem State.setTrk_feeds (s : State) (n : Nat) (t : Tracker) : (s.setTrk n t).feeds = s.feeds := (rfl)
@[simp] theorem State.setTrk_freeCount (s : State) (n : Nat) (t : Tracker) : (s.setTrk n t).freeCount = s.freeCount := (rfl)
@[simp] theorem State.setTrk_part (s : State) (n : Nat) (t : Tracker) : (s.setTrk n t).part = s.part := (rfl)
@[simp] theorem State.setTrk_mode (s : State) (n : Nat) (t : Tracker) : (s.setTrk n t).mode = s.mode := (rfl)
@[simp] theorem State.setTrk_regs (s : State) (n : Nat) (t : Tracker) : (s.setTrk n t).regs = s.regs := (rfl)
@[simp] theorem State.setTrk_readData (s : State) (n : Nat) (t : Tracker) : (s.setTrk n t).readData = s.readData := (rfl)
@[simp] theorem State.setTrk_cells (s : State) (n : Nat) (t : Tracker) : (s.setTrk n t).cells = s.cells := (rfl)
@[simp] theorem State.setTrk_groups (s : State) (n : Nat) (t : Tracker) : (s.setTrk n t).groups = s.groups := (rfl)
@[simp] theorem State.setTrk_chains (s : State) (n : Nat) (t : Tracker) : (s.setTrk n t).chains = s.chains := (rfl)
@[simp] theorem State.setTrk_monitors (s : State) (n : Nat) (t : Tracker) : (s.setTrk n t).monitors = s.monitors := (rfl)
@[simp] theorem State.setTrk_dacs (s : State) (n : Nat) (t : Tracker) : (s.setTrk n t).dacs = s.dacs := (rfl)
@[simp] theorem State.setTrk_cal (s : State) (n : Nat) (t : Tracker) : (s.setTrk n t).cal = s.cal := (rfl)
@[simp] theorem State.setTrk_frames (s : State) (n : Nat) (t : Tracker) : (s.setTrk n t).frames = s.frames := (rfl)
@[simp] theorem State.setTrk_checks (s : State) (n : Nat) (t : Tracker) : (s.setTrk n t).checks = s.checks := (rfl)
@[simp] theorem State.setTrk_fcells (s : State) (n : Nat) (t : Tracker) : (s.setTrk n t).fcells = s.fcells := (rfl)
@[simp] theorem State.setTrk_cabs (s : State) (n : Nat) (t : Tracker) : (s.setTrk n t).cabs = s.cabs := (rfl)
@[simp] theorem State.setTrk_lines (s : State) (n : Nat) (t : Tracker) : (s.setTrk n t).lines = s.lines := (rfl)
@[simp] theorem State.setTrk_frqs (s : State) (n : Nat) (t : Tracker) : (s.setTrk n t).frqs = s.frqs := (rfl)
@[simp] theorem State.setTrk_dio (s : State) (n : Nat) (t : Tracker) : (s.setTrk n t).dio = s.dio := (rfl)
@[simp] theorem State.setTrk_probes (s : State) (n : Nat) (t : Tracker) : (s.setTrk n t).probes = s.probes := (rfl)
@[simp] theorem State.setTrk_stream (s : State) (n : Nat) (t : Tracker) : (s.setTrk n t).stream = s.stream := (rfl)
@[simp] theorem State.setTrk_scrub (s : State) (n : Nat) (t : Tracker) : (s.setTrk n t).scrub = s.scrub := (rfl)
@[simp] theorem State.setTrk_pins (s : State) (n : Nat) (t : Tracker) : (s.setTrk n t).pins = s.pins := (rfl)
@[simp] theorem State.setTrk_rings (s : State) (n : Nat) (t : Tracker) : (s.setTrk n t).rings = s.rings := (rfl)
@[simp] theorem State.setTrk_pdir (s : State) (n : Nat) (t : Tracker) : (s.setTrk n t).pdir = s.pdir := (rfl)
@[simp] theorem State.setTrk_hostMem (s : State) (n : Nat) (t : Tracker) : (s.setTrk n t).hostMem = s.hostMem := (rfl)
@[simp] theorem State.setTrk_chans (s : State) (n : Nat) (t : Tracker) : (s.setTrk n t).chans = s.chans := (rfl)
@[simp] theorem State.setTrk_host (s : State) (n : Nat) (t : Tracker) : (s.setTrk n t).host = s.host := (rfl)
@[simp] theorem State.setTrk_bur (s : State) (n : Nat) (t : Tracker) : (s.setTrk n t).bur = s.bur := (rfl)
@[simp] theorem State.setTrk_pwr (s : State) (n : Nat) (t : Tracker) : (s.setTrk n t).pwr = s.pwr := (rfl)
@[simp] theorem State.setTrk_twin (s : State) (n : Nat) (t : Tracker) : (s.setTrk n t).twin = s.twin := (rfl)
@[simp] theorem State.setTrk_pending (s : State) (n : Nat) (t : Tracker) : (s.setTrk n t).pending = s.pending := (rfl)
@[simp] theorem State.setTrk_word (s : State) (n : Nat) (t : Tracker) (b : Nat) : (s.setTrk n t).word b = s.word b := (rfl)
@[simp] theorem State.setTrk_f (s : State) (n : Nat) (t : Tracker) (q : FieldRef) (qi qj : Nat) : (s.setTrk n t).f q qi qj = s.f q qi qj := (rfl)
@[simp] theorem State.setTrk_on (s : State) (n : Nat) (t : Tracker) (q : FieldRef) (qi qj : Nat) : (s.setTrk n t).on q qi qj = s.on q qi qj := (rfl)

/-! setAlarm -/

@[simp] theorem State.setAlarm_apPins (s : State) (n : Nat) (x : Alarm) : (s.setAlarm n x).apPins = s.apPins := (rfl)
@[simp] theorem State.setAlarm_voted (s : State) (n : Nat) (x : Alarm) : (s.setAlarm n x).voted = s.voted := (rfl)
@[simp] theorem State.setAlarm_arb (s : State) (n : Nat) (x : Alarm) : (s.setAlarm n x).arb = s.arb := (rfl)
@[simp] theorem State.setAlarm_feeds (s : State) (n : Nat) (x : Alarm) : (s.setAlarm n x).feeds = s.feeds := (rfl)
@[simp] theorem State.setAlarm_freeCount (s : State) (n : Nat) (x : Alarm) : (s.setAlarm n x).freeCount = s.freeCount := (rfl)
@[simp] theorem State.setAlarm_part (s : State) (n : Nat) (x : Alarm) : (s.setAlarm n x).part = s.part := (rfl)
@[simp] theorem State.setAlarm_mode (s : State) (n : Nat) (x : Alarm) : (s.setAlarm n x).mode = s.mode := (rfl)
@[simp] theorem State.setAlarm_regs (s : State) (n : Nat) (x : Alarm) : (s.setAlarm n x).regs = s.regs := (rfl)
@[simp] theorem State.setAlarm_readData (s : State) (n : Nat) (x : Alarm) : (s.setAlarm n x).readData = s.readData := (rfl)
@[simp] theorem State.setAlarm_cells (s : State) (n : Nat) (x : Alarm) : (s.setAlarm n x).cells = s.cells := (rfl)
@[simp] theorem State.setAlarm_groups (s : State) (n : Nat) (x : Alarm) : (s.setAlarm n x).groups = s.groups := (rfl)
@[simp] theorem State.setAlarm_chains (s : State) (n : Nat) (x : Alarm) : (s.setAlarm n x).chains = s.chains := (rfl)
@[simp] theorem State.setAlarm_monitors (s : State) (n : Nat) (x : Alarm) : (s.setAlarm n x).monitors = s.monitors := (rfl)
@[simp] theorem State.setAlarm_dacs (s : State) (n : Nat) (x : Alarm) : (s.setAlarm n x).dacs = s.dacs := (rfl)
@[simp] theorem State.setAlarm_cal (s : State) (n : Nat) (x : Alarm) : (s.setAlarm n x).cal = s.cal := (rfl)
@[simp] theorem State.setAlarm_frames (s : State) (n : Nat) (x : Alarm) : (s.setAlarm n x).frames = s.frames := (rfl)
@[simp] theorem State.setAlarm_checks (s : State) (n : Nat) (x : Alarm) : (s.setAlarm n x).checks = s.checks := (rfl)
@[simp] theorem State.setAlarm_fcells (s : State) (n : Nat) (x : Alarm) : (s.setAlarm n x).fcells = s.fcells := (rfl)
@[simp] theorem State.setAlarm_cabs (s : State) (n : Nat) (x : Alarm) : (s.setAlarm n x).cabs = s.cabs := (rfl)
@[simp] theorem State.setAlarm_lines (s : State) (n : Nat) (x : Alarm) : (s.setAlarm n x).lines = s.lines := (rfl)
@[simp] theorem State.setAlarm_frqs (s : State) (n : Nat) (x : Alarm) : (s.setAlarm n x).frqs = s.frqs := (rfl)
@[simp] theorem State.setAlarm_dio (s : State) (n : Nat) (x : Alarm) : (s.setAlarm n x).dio = s.dio := (rfl)
@[simp] theorem State.setAlarm_probes (s : State) (n : Nat) (x : Alarm) : (s.setAlarm n x).probes = s.probes := (rfl)
@[simp] theorem State.setAlarm_stream (s : State) (n : Nat) (x : Alarm) : (s.setAlarm n x).stream = s.stream := (rfl)
@[simp] theorem State.setAlarm_scrub (s : State) (n : Nat) (x : Alarm) : (s.setAlarm n x).scrub = s.scrub := (rfl)
@[simp] theorem State.setAlarm_pins (s : State) (n : Nat) (x : Alarm) : (s.setAlarm n x).pins = s.pins := (rfl)
@[simp] theorem State.setAlarm_rings (s : State) (n : Nat) (x : Alarm) : (s.setAlarm n x).rings = s.rings := (rfl)
@[simp] theorem State.setAlarm_pdir (s : State) (n : Nat) (x : Alarm) : (s.setAlarm n x).pdir = s.pdir := (rfl)
@[simp] theorem State.setAlarm_hostMem (s : State) (n : Nat) (x : Alarm) : (s.setAlarm n x).hostMem = s.hostMem := (rfl)
@[simp] theorem State.setAlarm_chans (s : State) (n : Nat) (x : Alarm) : (s.setAlarm n x).chans = s.chans := (rfl)
@[simp] theorem State.setAlarm_host (s : State) (n : Nat) (x : Alarm) : (s.setAlarm n x).host = s.host := (rfl)
@[simp] theorem State.setAlarm_bur (s : State) (n : Nat) (x : Alarm) : (s.setAlarm n x).bur = s.bur := (rfl)
@[simp] theorem State.setAlarm_pwr (s : State) (n : Nat) (x : Alarm) : (s.setAlarm n x).pwr = s.pwr := (rfl)
@[simp] theorem State.setAlarm_twin (s : State) (n : Nat) (x : Alarm) : (s.setAlarm n x).twin = s.twin := (rfl)
@[simp] theorem State.setAlarm_pending (s : State) (n : Nat) (x : Alarm) : (s.setAlarm n x).pending = s.pending := (rfl)
@[simp] theorem State.setAlarm_word (s : State) (n : Nat) (x : Alarm) (b : Nat) : (s.setAlarm n x).word b = s.word b := (rfl)
@[simp] theorem State.setAlarm_f (s : State) (n : Nat) (x : Alarm) (q : FieldRef) (qi qj : Nat) : (s.setAlarm n x).f q qi qj = s.f q qi qj := (rfl)
@[simp] theorem State.setAlarm_on (s : State) (n : Nat) (x : Alarm) (q : FieldRef) (qi qj : Nat) : (s.setAlarm n x).on q qi qj = s.on q qi qj := (rfl)

/-! setTimer -/

@[simp] theorem State.setTimer_apPins (s : State) (n : Nat) (t : Timer) : (s.setTimer n t).apPins = s.apPins := (rfl)
@[simp] theorem State.setTimer_voted (s : State) (n : Nat) (t : Timer) : (s.setTimer n t).voted = s.voted := (rfl)
@[simp] theorem State.setTimer_arb (s : State) (n : Nat) (t : Timer) : (s.setTimer n t).arb = s.arb := (rfl)
@[simp] theorem State.setTimer_feeds (s : State) (n : Nat) (t : Timer) : (s.setTimer n t).feeds = s.feeds := (rfl)
@[simp] theorem State.setTimer_freeCount (s : State) (n : Nat) (t : Timer) : (s.setTimer n t).freeCount = s.freeCount := (rfl)
@[simp] theorem State.setTimer_part (s : State) (n : Nat) (t : Timer) : (s.setTimer n t).part = s.part := (rfl)
@[simp] theorem State.setTimer_mode (s : State) (n : Nat) (t : Timer) : (s.setTimer n t).mode = s.mode := (rfl)
@[simp] theorem State.setTimer_regs (s : State) (n : Nat) (t : Timer) : (s.setTimer n t).regs = s.regs := (rfl)
@[simp] theorem State.setTimer_readData (s : State) (n : Nat) (t : Timer) : (s.setTimer n t).readData = s.readData := (rfl)
@[simp] theorem State.setTimer_cells (s : State) (n : Nat) (t : Timer) : (s.setTimer n t).cells = s.cells := (rfl)
@[simp] theorem State.setTimer_groups (s : State) (n : Nat) (t : Timer) : (s.setTimer n t).groups = s.groups := (rfl)
@[simp] theorem State.setTimer_chains (s : State) (n : Nat) (t : Timer) : (s.setTimer n t).chains = s.chains := (rfl)
@[simp] theorem State.setTimer_monitors (s : State) (n : Nat) (t : Timer) : (s.setTimer n t).monitors = s.monitors := (rfl)
@[simp] theorem State.setTimer_dacs (s : State) (n : Nat) (t : Timer) : (s.setTimer n t).dacs = s.dacs := (rfl)
@[simp] theorem State.setTimer_cal (s : State) (n : Nat) (t : Timer) : (s.setTimer n t).cal = s.cal := (rfl)
@[simp] theorem State.setTimer_frames (s : State) (n : Nat) (t : Timer) : (s.setTimer n t).frames = s.frames := (rfl)
@[simp] theorem State.setTimer_checks (s : State) (n : Nat) (t : Timer) : (s.setTimer n t).checks = s.checks := (rfl)
@[simp] theorem State.setTimer_fcells (s : State) (n : Nat) (t : Timer) : (s.setTimer n t).fcells = s.fcells := (rfl)
@[simp] theorem State.setTimer_cabs (s : State) (n : Nat) (t : Timer) : (s.setTimer n t).cabs = s.cabs := (rfl)
@[simp] theorem State.setTimer_lines (s : State) (n : Nat) (t : Timer) : (s.setTimer n t).lines = s.lines := (rfl)
@[simp] theorem State.setTimer_frqs (s : State) (n : Nat) (t : Timer) : (s.setTimer n t).frqs = s.frqs := (rfl)
@[simp] theorem State.setTimer_dio (s : State) (n : Nat) (t : Timer) : (s.setTimer n t).dio = s.dio := (rfl)
@[simp] theorem State.setTimer_probes (s : State) (n : Nat) (t : Timer) : (s.setTimer n t).probes = s.probes := (rfl)
@[simp] theorem State.setTimer_stream (s : State) (n : Nat) (t : Timer) : (s.setTimer n t).stream = s.stream := (rfl)
@[simp] theorem State.setTimer_scrub (s : State) (n : Nat) (t : Timer) : (s.setTimer n t).scrub = s.scrub := (rfl)
@[simp] theorem State.setTimer_pins (s : State) (n : Nat) (t : Timer) : (s.setTimer n t).pins = s.pins := (rfl)
@[simp] theorem State.setTimer_rings (s : State) (n : Nat) (t : Timer) : (s.setTimer n t).rings = s.rings := (rfl)
@[simp] theorem State.setTimer_pdir (s : State) (n : Nat) (t : Timer) : (s.setTimer n t).pdir = s.pdir := (rfl)
@[simp] theorem State.setTimer_hostMem (s : State) (n : Nat) (t : Timer) : (s.setTimer n t).hostMem = s.hostMem := (rfl)
@[simp] theorem State.setTimer_chans (s : State) (n : Nat) (t : Timer) : (s.setTimer n t).chans = s.chans := (rfl)
@[simp] theorem State.setTimer_host (s : State) (n : Nat) (t : Timer) : (s.setTimer n t).host = s.host := (rfl)
@[simp] theorem State.setTimer_bur (s : State) (n : Nat) (t : Timer) : (s.setTimer n t).bur = s.bur := (rfl)
@[simp] theorem State.setTimer_pwr (s : State) (n : Nat) (t : Timer) : (s.setTimer n t).pwr = s.pwr := (rfl)
@[simp] theorem State.setTimer_twin (s : State) (n : Nat) (t : Timer) : (s.setTimer n t).twin = s.twin := (rfl)
@[simp] theorem State.setTimer_pending (s : State) (n : Nat) (t : Timer) : (s.setTimer n t).pending = s.pending := (rfl)
@[simp] theorem State.setTimer_word (s : State) (n : Nat) (t : Timer) (b : Nat) : (s.setTimer n t).word b = s.word b := (rfl)
@[simp] theorem State.setTimer_f (s : State) (n : Nat) (t : Timer) (q : FieldRef) (qi qj : Nat) : (s.setTimer n t).f q qi qj = s.f q qi qj := (rfl)
@[simp] theorem State.setTimer_on (s : State) (n : Nat) (t : Timer) (q : FieldRef) (qi qj : Nat) : (s.setTimer n t).on q qi qj = s.on q qi qj := (rfl)

/-! setCapture -/

@[simp] theorem State.setCapture_apPins (s : State) (n : Nat) (l : List CapEntry) : (s.setCapture n l).apPins = s.apPins := (rfl)
@[simp] theorem State.setCapture_voted (s : State) (n : Nat) (l : List CapEntry) : (s.setCapture n l).voted = s.voted := (rfl)
@[simp] theorem State.setCapture_arb (s : State) (n : Nat) (l : List CapEntry) : (s.setCapture n l).arb = s.arb := (rfl)
@[simp] theorem State.setCapture_feeds (s : State) (n : Nat) (l : List CapEntry) : (s.setCapture n l).feeds = s.feeds := (rfl)
@[simp] theorem State.setCapture_freeCount (s : State) (n : Nat) (l : List CapEntry) : (s.setCapture n l).freeCount = s.freeCount := (rfl)
@[simp] theorem State.setCapture_part (s : State) (n : Nat) (l : List CapEntry) : (s.setCapture n l).part = s.part := (rfl)
@[simp] theorem State.setCapture_mode (s : State) (n : Nat) (l : List CapEntry) : (s.setCapture n l).mode = s.mode := (rfl)
@[simp] theorem State.setCapture_regs (s : State) (n : Nat) (l : List CapEntry) : (s.setCapture n l).regs = s.regs := (rfl)
@[simp] theorem State.setCapture_readData (s : State) (n : Nat) (l : List CapEntry) : (s.setCapture n l).readData = s.readData := (rfl)
@[simp] theorem State.setCapture_cells (s : State) (n : Nat) (l : List CapEntry) : (s.setCapture n l).cells = s.cells := (rfl)
@[simp] theorem State.setCapture_groups (s : State) (n : Nat) (l : List CapEntry) : (s.setCapture n l).groups = s.groups := (rfl)
@[simp] theorem State.setCapture_chains (s : State) (n : Nat) (l : List CapEntry) : (s.setCapture n l).chains = s.chains := (rfl)
@[simp] theorem State.setCapture_monitors (s : State) (n : Nat) (l : List CapEntry) : (s.setCapture n l).monitors = s.monitors := (rfl)
@[simp] theorem State.setCapture_dacs (s : State) (n : Nat) (l : List CapEntry) : (s.setCapture n l).dacs = s.dacs := (rfl)
@[simp] theorem State.setCapture_cal (s : State) (n : Nat) (l : List CapEntry) : (s.setCapture n l).cal = s.cal := (rfl)
@[simp] theorem State.setCapture_frames (s : State) (n : Nat) (l : List CapEntry) : (s.setCapture n l).frames = s.frames := (rfl)
@[simp] theorem State.setCapture_checks (s : State) (n : Nat) (l : List CapEntry) : (s.setCapture n l).checks = s.checks := (rfl)
@[simp] theorem State.setCapture_fcells (s : State) (n : Nat) (l : List CapEntry) : (s.setCapture n l).fcells = s.fcells := (rfl)
@[simp] theorem State.setCapture_cabs (s : State) (n : Nat) (l : List CapEntry) : (s.setCapture n l).cabs = s.cabs := (rfl)
@[simp] theorem State.setCapture_lines (s : State) (n : Nat) (l : List CapEntry) : (s.setCapture n l).lines = s.lines := (rfl)
@[simp] theorem State.setCapture_frqs (s : State) (n : Nat) (l : List CapEntry) : (s.setCapture n l).frqs = s.frqs := (rfl)
@[simp] theorem State.setCapture_dio (s : State) (n : Nat) (l : List CapEntry) : (s.setCapture n l).dio = s.dio := (rfl)
@[simp] theorem State.setCapture_probes (s : State) (n : Nat) (l : List CapEntry) : (s.setCapture n l).probes = s.probes := (rfl)
@[simp] theorem State.setCapture_stream (s : State) (n : Nat) (l : List CapEntry) : (s.setCapture n l).stream = s.stream := (rfl)
@[simp] theorem State.setCapture_scrub (s : State) (n : Nat) (l : List CapEntry) : (s.setCapture n l).scrub = s.scrub := (rfl)
@[simp] theorem State.setCapture_pins (s : State) (n : Nat) (l : List CapEntry) : (s.setCapture n l).pins = s.pins := (rfl)
@[simp] theorem State.setCapture_rings (s : State) (n : Nat) (l : List CapEntry) : (s.setCapture n l).rings = s.rings := (rfl)
@[simp] theorem State.setCapture_pdir (s : State) (n : Nat) (l : List CapEntry) : (s.setCapture n l).pdir = s.pdir := (rfl)
@[simp] theorem State.setCapture_hostMem (s : State) (n : Nat) (l : List CapEntry) : (s.setCapture n l).hostMem = s.hostMem := (rfl)
@[simp] theorem State.setCapture_chans (s : State) (n : Nat) (l : List CapEntry) : (s.setCapture n l).chans = s.chans := (rfl)
@[simp] theorem State.setCapture_host (s : State) (n : Nat) (l : List CapEntry) : (s.setCapture n l).host = s.host := (rfl)
@[simp] theorem State.setCapture_bur (s : State) (n : Nat) (l : List CapEntry) : (s.setCapture n l).bur = s.bur := (rfl)
@[simp] theorem State.setCapture_pwr (s : State) (n : Nat) (l : List CapEntry) : (s.setCapture n l).pwr = s.pwr := (rfl)
@[simp] theorem State.setCapture_twin (s : State) (n : Nat) (l : List CapEntry) : (s.setCapture n l).twin = s.twin := (rfl)
@[simp] theorem State.setCapture_pending (s : State) (n : Nat) (l : List CapEntry) : (s.setCapture n l).pending = s.pending := (rfl)
@[simp] theorem State.setCapture_word (s : State) (n : Nat) (l : List CapEntry) (b : Nat) : (s.setCapture n l).word b = s.word b := (rfl)
@[simp] theorem State.setCapture_f (s : State) (n : Nat) (l : List CapEntry) (q : FieldRef) (qi qj : Nat) : (s.setCapture n l).f q qi qj = s.f q qi qj := (rfl)
@[simp] theorem State.setCapture_on (s : State) (n : Nat) (l : List CapEntry) (q : FieldRef) (qi qj : Nat) : (s.setCapture n l).on q qi qj = s.on q qi qj := (rfl)

/-! setRing -/

@[simp] theorem State.setRing_apPins (s : State) (r : Nat) (x : Ring) : (s.setRing r x).apPins = s.apPins := (rfl)
@[simp] theorem State.setRing_voted (s : State) (r : Nat) (x : Ring) : (s.setRing r x).voted = s.voted := (rfl)
@[simp] theorem State.setRing_arb (s : State) (r : Nat) (x : Ring) : (s.setRing r x).arb = s.arb := (rfl)
@[simp] theorem State.setRing_feeds (s : State) (r : Nat) (x : Ring) : (s.setRing r x).feeds = s.feeds := (rfl)
@[simp] theorem State.setRing_freeCount (s : State) (r : Nat) (x : Ring) : (s.setRing r x).freeCount = s.freeCount := (rfl)
@[simp] theorem State.setRing_part (s : State) (r : Nat) (x : Ring) : (s.setRing r x).part = s.part := (rfl)
@[simp] theorem State.setRing_mode (s : State) (r : Nat) (x : Ring) : (s.setRing r x).mode = s.mode := (rfl)
@[simp] theorem State.setRing_regs (s : State) (r : Nat) (x : Ring) : (s.setRing r x).regs = s.regs := (rfl)
@[simp] theorem State.setRing_readData (s : State) (r : Nat) (x : Ring) : (s.setRing r x).readData = s.readData := (rfl)
@[simp] theorem State.setRing_lcs (s : State) (r : Nat) (x : Ring) : (s.setRing r x).lcs = s.lcs := (rfl)
@[simp] theorem State.setRing_cells (s : State) (r : Nat) (x : Ring) : (s.setRing r x).cells = s.cells := (rfl)
@[simp] theorem State.setRing_groups (s : State) (r : Nat) (x : Ring) : (s.setRing r x).groups = s.groups := (rfl)
@[simp] theorem State.setRing_chains (s : State) (r : Nat) (x : Ring) : (s.setRing r x).chains = s.chains := (rfl)
@[simp] theorem State.setRing_monitors (s : State) (r : Nat) (x : Ring) : (s.setRing r x).monitors = s.monitors := (rfl)
@[simp] theorem State.setRing_dacs (s : State) (r : Nat) (x : Ring) : (s.setRing r x).dacs = s.dacs := (rfl)
@[simp] theorem State.setRing_cal (s : State) (r : Nat) (x : Ring) : (s.setRing r x).cal = s.cal := (rfl)
@[simp] theorem State.setRing_frames (s : State) (r : Nat) (x : Ring) : (s.setRing r x).frames = s.frames := (rfl)
@[simp] theorem State.setRing_checks (s : State) (r : Nat) (x : Ring) : (s.setRing r x).checks = s.checks := (rfl)
@[simp] theorem State.setRing_fcells (s : State) (r : Nat) (x : Ring) : (s.setRing r x).fcells = s.fcells := (rfl)
@[simp] theorem State.setRing_cabs (s : State) (r : Nat) (x : Ring) : (s.setRing r x).cabs = s.cabs := (rfl)
@[simp] theorem State.setRing_lines (s : State) (r : Nat) (x : Ring) : (s.setRing r x).lines = s.lines := (rfl)
@[simp] theorem State.setRing_frqs (s : State) (r : Nat) (x : Ring) : (s.setRing r x).frqs = s.frqs := (rfl)
@[simp] theorem State.setRing_dio (s : State) (r : Nat) (x : Ring) : (s.setRing r x).dio = s.dio := (rfl)
@[simp] theorem State.setRing_probes (s : State) (r : Nat) (x : Ring) : (s.setRing r x).probes = s.probes := (rfl)
@[simp] theorem State.setRing_stream (s : State) (r : Nat) (x : Ring) : (s.setRing r x).stream = s.stream := (rfl)
@[simp] theorem State.setRing_scrub (s : State) (r : Nat) (x : Ring) : (s.setRing r x).scrub = s.scrub := (rfl)
@[simp] theorem State.setRing_pins (s : State) (r : Nat) (x : Ring) : (s.setRing r x).pins = s.pins := (rfl)
@[simp] theorem State.setRing_pdir (s : State) (r : Nat) (x : Ring) : (s.setRing r x).pdir = s.pdir := (rfl)
@[simp] theorem State.setRing_hostMem (s : State) (r : Nat) (x : Ring) : (s.setRing r x).hostMem = s.hostMem := (rfl)
@[simp] theorem State.setRing_chans (s : State) (r : Nat) (x : Ring) : (s.setRing r x).chans = s.chans := (rfl)
@[simp] theorem State.setRing_host (s : State) (r : Nat) (x : Ring) : (s.setRing r x).host = s.host := (rfl)
@[simp] theorem State.setRing_bur (s : State) (r : Nat) (x : Ring) : (s.setRing r x).bur = s.bur := (rfl)
@[simp] theorem State.setRing_pwr (s : State) (r : Nat) (x : Ring) : (s.setRing r x).pwr = s.pwr := (rfl)
@[simp] theorem State.setRing_twin (s : State) (r : Nat) (x : Ring) : (s.setRing r x).twin = s.twin := (rfl)
@[simp] theorem State.setRing_pending (s : State) (r : Nat) (x : Ring) : (s.setRing r x).pending = s.pending := (rfl)
@[simp] theorem State.setRing_word (s : State) (r : Nat) (x : Ring) (b : Nat) : (s.setRing r x).word b = s.word b := (rfl)
@[simp] theorem State.setRing_f (s : State) (r : Nat) (x : Ring) (q : FieldRef) (qi qj : Nat) : (s.setRing r x).f q qi qj = s.f q qi qj := (rfl)
@[simp] theorem State.setRing_on (s : State) (r : Nat) (x : Ring) (q : FieldRef) (qi qj : Nat) : (s.setRing r x).on q qi qj = s.on q qi qj := (rfl)

/-! setChan -/

@[simp] theorem State.setChan_apPins (s : State) (c : Nat) (x : Chan) : (s.setChan c x).apPins = s.apPins := (rfl)
@[simp] theorem State.setChan_voted (s : State) (c : Nat) (x : Chan) : (s.setChan c x).voted = s.voted := (rfl)
@[simp] theorem State.setChan_arb (s : State) (c : Nat) (x : Chan) : (s.setChan c x).arb = s.arb := (rfl)
@[simp] theorem State.setChan_feeds (s : State) (c : Nat) (x : Chan) : (s.setChan c x).feeds = s.feeds := (rfl)
@[simp] theorem State.setChan_freeCount (s : State) (c : Nat) (x : Chan) : (s.setChan c x).freeCount = s.freeCount := (rfl)
@[simp] theorem State.setChan_part (s : State) (c : Nat) (x : Chan) : (s.setChan c x).part = s.part := (rfl)
@[simp] theorem State.setChan_mode (s : State) (c : Nat) (x : Chan) : (s.setChan c x).mode = s.mode := (rfl)
@[simp] theorem State.setChan_regs (s : State) (c : Nat) (x : Chan) : (s.setChan c x).regs = s.regs := (rfl)
@[simp] theorem State.setChan_readData (s : State) (c : Nat) (x : Chan) : (s.setChan c x).readData = s.readData := (rfl)
@[simp] theorem State.setChan_lcs (s : State) (c : Nat) (x : Chan) : (s.setChan c x).lcs = s.lcs := (rfl)
@[simp] theorem State.setChan_cells (s : State) (c : Nat) (x : Chan) : (s.setChan c x).cells = s.cells := (rfl)
@[simp] theorem State.setChan_groups (s : State) (c : Nat) (x : Chan) : (s.setChan c x).groups = s.groups := (rfl)
@[simp] theorem State.setChan_chains (s : State) (c : Nat) (x : Chan) : (s.setChan c x).chains = s.chains := (rfl)
@[simp] theorem State.setChan_monitors (s : State) (c : Nat) (x : Chan) : (s.setChan c x).monitors = s.monitors := (rfl)
@[simp] theorem State.setChan_dacs (s : State) (c : Nat) (x : Chan) : (s.setChan c x).dacs = s.dacs := (rfl)
@[simp] theorem State.setChan_cal (s : State) (c : Nat) (x : Chan) : (s.setChan c x).cal = s.cal := (rfl)
@[simp] theorem State.setChan_frames (s : State) (c : Nat) (x : Chan) : (s.setChan c x).frames = s.frames := (rfl)
@[simp] theorem State.setChan_checks (s : State) (c : Nat) (x : Chan) : (s.setChan c x).checks = s.checks := (rfl)
@[simp] theorem State.setChan_fcells (s : State) (c : Nat) (x : Chan) : (s.setChan c x).fcells = s.fcells := (rfl)
@[simp] theorem State.setChan_cabs (s : State) (c : Nat) (x : Chan) : (s.setChan c x).cabs = s.cabs := (rfl)
@[simp] theorem State.setChan_lines (s : State) (c : Nat) (x : Chan) : (s.setChan c x).lines = s.lines := (rfl)
@[simp] theorem State.setChan_frqs (s : State) (c : Nat) (x : Chan) : (s.setChan c x).frqs = s.frqs := (rfl)
@[simp] theorem State.setChan_dio (s : State) (c : Nat) (x : Chan) : (s.setChan c x).dio = s.dio := (rfl)
@[simp] theorem State.setChan_probes (s : State) (c : Nat) (x : Chan) : (s.setChan c x).probes = s.probes := (rfl)
@[simp] theorem State.setChan_stream (s : State) (c : Nat) (x : Chan) : (s.setChan c x).stream = s.stream := (rfl)
@[simp] theorem State.setChan_scrub (s : State) (c : Nat) (x : Chan) : (s.setChan c x).scrub = s.scrub := (rfl)
@[simp] theorem State.setChan_pins (s : State) (c : Nat) (x : Chan) : (s.setChan c x).pins = s.pins := (rfl)
@[simp] theorem State.setChan_rings (s : State) (c : Nat) (x : Chan) : (s.setChan c x).rings = s.rings := (rfl)
@[simp] theorem State.setChan_pdir (s : State) (c : Nat) (x : Chan) : (s.setChan c x).pdir = s.pdir := (rfl)
@[simp] theorem State.setChan_hostMem (s : State) (c : Nat) (x : Chan) : (s.setChan c x).hostMem = s.hostMem := (rfl)
@[simp] theorem State.setChan_host (s : State) (c : Nat) (x : Chan) : (s.setChan c x).host = s.host := (rfl)
@[simp] theorem State.setChan_bur (s : State) (c : Nat) (x : Chan) : (s.setChan c x).bur = s.bur := (rfl)
@[simp] theorem State.setChan_pwr (s : State) (c : Nat) (x : Chan) : (s.setChan c x).pwr = s.pwr := (rfl)
@[simp] theorem State.setChan_twin (s : State) (c : Nat) (x : Chan) : (s.setChan c x).twin = s.twin := (rfl)
@[simp] theorem State.setChan_pending (s : State) (c : Nat) (x : Chan) : (s.setChan c x).pending = s.pending := (rfl)
@[simp] theorem State.setChan_word (s : State) (c : Nat) (x : Chan) (b : Nat) : (s.setChan c x).word b = s.word b := (rfl)
@[simp] theorem State.setChan_f (s : State) (c : Nat) (x : Chan) (q : FieldRef) (qi qj : Nat) : (s.setChan c x).f q qi qj = s.f q qi qj := (rfl)
@[simp] theorem State.setChan_on (s : State) (c : Nat) (x : Chan) (q : FieldRef) (qi qj : Nat) : (s.setChan c x).on q qi qj = s.on q qi qj := (rfl)

/-! setFunc -/

@[simp] theorem State.setFunc_apPins (s : State) (f : Nat) (x : PciFunc) : (s.setFunc f x).apPins = s.apPins := (rfl)
@[simp] theorem State.setFunc_voted (s : State) (f : Nat) (x : PciFunc) : (s.setFunc f x).voted = s.voted := (rfl)
@[simp] theorem State.setFunc_arb (s : State) (f : Nat) (x : PciFunc) : (s.setFunc f x).arb = s.arb := (rfl)
@[simp] theorem State.setFunc_feeds (s : State) (f : Nat) (x : PciFunc) : (s.setFunc f x).feeds = s.feeds := (rfl)
@[simp] theorem State.setFunc_freeCount (s : State) (f : Nat) (x : PciFunc) : (s.setFunc f x).freeCount = s.freeCount := (rfl)
@[simp] theorem State.setFunc_part (s : State) (f : Nat) (x : PciFunc) : (s.setFunc f x).part = s.part := (rfl)
@[simp] theorem State.setFunc_mode (s : State) (f : Nat) (x : PciFunc) : (s.setFunc f x).mode = s.mode := (rfl)
@[simp] theorem State.setFunc_regs (s : State) (f : Nat) (x : PciFunc) : (s.setFunc f x).regs = s.regs := (rfl)
@[simp] theorem State.setFunc_readData (s : State) (f : Nat) (x : PciFunc) : (s.setFunc f x).readData = s.readData := (rfl)
@[simp] theorem State.setFunc_lcs (s : State) (f : Nat) (x : PciFunc) : (s.setFunc f x).lcs = s.lcs := (rfl)
@[simp] theorem State.setFunc_cells (s : State) (f : Nat) (x : PciFunc) : (s.setFunc f x).cells = s.cells := (rfl)
@[simp] theorem State.setFunc_groups (s : State) (f : Nat) (x : PciFunc) : (s.setFunc f x).groups = s.groups := (rfl)
@[simp] theorem State.setFunc_chains (s : State) (f : Nat) (x : PciFunc) : (s.setFunc f x).chains = s.chains := (rfl)
@[simp] theorem State.setFunc_monitors (s : State) (f : Nat) (x : PciFunc) : (s.setFunc f x).monitors = s.monitors := (rfl)
@[simp] theorem State.setFunc_dacs (s : State) (f : Nat) (x : PciFunc) : (s.setFunc f x).dacs = s.dacs := (rfl)
@[simp] theorem State.setFunc_cal (s : State) (f : Nat) (x : PciFunc) : (s.setFunc f x).cal = s.cal := (rfl)
@[simp] theorem State.setFunc_frames (s : State) (f : Nat) (x : PciFunc) : (s.setFunc f x).frames = s.frames := (rfl)
@[simp] theorem State.setFunc_checks (s : State) (f : Nat) (x : PciFunc) : (s.setFunc f x).checks = s.checks := (rfl)
@[simp] theorem State.setFunc_fcells (s : State) (f : Nat) (x : PciFunc) : (s.setFunc f x).fcells = s.fcells := (rfl)
@[simp] theorem State.setFunc_cabs (s : State) (f : Nat) (x : PciFunc) : (s.setFunc f x).cabs = s.cabs := (rfl)
@[simp] theorem State.setFunc_lines (s : State) (f : Nat) (x : PciFunc) : (s.setFunc f x).lines = s.lines := (rfl)
@[simp] theorem State.setFunc_frqs (s : State) (f : Nat) (x : PciFunc) : (s.setFunc f x).frqs = s.frqs := (rfl)
@[simp] theorem State.setFunc_dio (s : State) (f : Nat) (x : PciFunc) : (s.setFunc f x).dio = s.dio := (rfl)
@[simp] theorem State.setFunc_probes (s : State) (f : Nat) (x : PciFunc) : (s.setFunc f x).probes = s.probes := (rfl)
@[simp] theorem State.setFunc_stream (s : State) (f : Nat) (x : PciFunc) : (s.setFunc f x).stream = s.stream := (rfl)
@[simp] theorem State.setFunc_scrub (s : State) (f : Nat) (x : PciFunc) : (s.setFunc f x).scrub = s.scrub := (rfl)
@[simp] theorem State.setFunc_pins (s : State) (f : Nat) (x : PciFunc) : (s.setFunc f x).pins = s.pins := (rfl)
@[simp] theorem State.setFunc_rings (s : State) (f : Nat) (x : PciFunc) : (s.setFunc f x).rings = s.rings := (rfl)
@[simp] theorem State.setFunc_pdir (s : State) (f : Nat) (x : PciFunc) : (s.setFunc f x).pdir = s.pdir := (rfl)
@[simp] theorem State.setFunc_hostMem (s : State) (f : Nat) (x : PciFunc) : (s.setFunc f x).hostMem = s.hostMem := (rfl)
@[simp] theorem State.setFunc_chans (s : State) (f : Nat) (x : PciFunc) : (s.setFunc f x).chans = s.chans := (rfl)
@[simp] theorem State.setFunc_bur (s : State) (f : Nat) (x : PciFunc) : (s.setFunc f x).bur = s.bur := (rfl)
@[simp] theorem State.setFunc_pwr (s : State) (f : Nat) (x : PciFunc) : (s.setFunc f x).pwr = s.pwr := (rfl)
@[simp] theorem State.setFunc_twin (s : State) (f : Nat) (x : PciFunc) : (s.setFunc f x).twin = s.twin := (rfl)
@[simp] theorem State.setFunc_pending (s : State) (f : Nat) (x : PciFunc) : (s.setFunc f x).pending = s.pending := (rfl)
@[simp] theorem State.setFunc_word (s : State) (f : Nat) (x : PciFunc) (b : Nat) : (s.setFunc f x).word b = s.word b := (rfl)
@[simp] theorem State.setFunc_f (s : State) (f : Nat) (x : PciFunc) (q : FieldRef) (qi qj : Nat) : (s.setFunc f x).f q qi qj = s.f q qi qj := (rfl)
@[simp] theorem State.setFunc_on (s : State) (f : Nat) (x : PciFunc) (q : FieldRef) (qi qj : Nat) : (s.setFunc f x).on q qi qj = s.on q qi qj := (rfl)

/-! setVec -/

@[simp] theorem State.setVec_apPins (s : State) (f v : Nat) (x : Vector) : (s.setVec f v x).apPins = s.apPins := (rfl)
@[simp] theorem State.setVec_voted (s : State) (f v : Nat) (x : Vector) : (s.setVec f v x).voted = s.voted := (rfl)
@[simp] theorem State.setVec_arb (s : State) (f v : Nat) (x : Vector) : (s.setVec f v x).arb = s.arb := (rfl)
@[simp] theorem State.setVec_feeds (s : State) (f v : Nat) (x : Vector) : (s.setVec f v x).feeds = s.feeds := (rfl)
@[simp] theorem State.setVec_freeCount (s : State) (f v : Nat) (x : Vector) : (s.setVec f v x).freeCount = s.freeCount := (rfl)
@[simp] theorem State.setVec_part (s : State) (f v : Nat) (x : Vector) : (s.setVec f v x).part = s.part := (rfl)
@[simp] theorem State.setVec_mode (s : State) (f v : Nat) (x : Vector) : (s.setVec f v x).mode = s.mode := (rfl)
@[simp] theorem State.setVec_regs (s : State) (f v : Nat) (x : Vector) : (s.setVec f v x).regs = s.regs := (rfl)
@[simp] theorem State.setVec_readData (s : State) (f v : Nat) (x : Vector) : (s.setVec f v x).readData = s.readData := (rfl)
@[simp] theorem State.setVec_lcs (s : State) (f v : Nat) (x : Vector) : (s.setVec f v x).lcs = s.lcs := (rfl)
@[simp] theorem State.setVec_cells (s : State) (f v : Nat) (x : Vector) : (s.setVec f v x).cells = s.cells := (rfl)
@[simp] theorem State.setVec_groups (s : State) (f v : Nat) (x : Vector) : (s.setVec f v x).groups = s.groups := (rfl)
@[simp] theorem State.setVec_chains (s : State) (f v : Nat) (x : Vector) : (s.setVec f v x).chains = s.chains := (rfl)
@[simp] theorem State.setVec_monitors (s : State) (f v : Nat) (x : Vector) : (s.setVec f v x).monitors = s.monitors := (rfl)
@[simp] theorem State.setVec_dacs (s : State) (f v : Nat) (x : Vector) : (s.setVec f v x).dacs = s.dacs := (rfl)
@[simp] theorem State.setVec_cal (s : State) (f v : Nat) (x : Vector) : (s.setVec f v x).cal = s.cal := (rfl)
@[simp] theorem State.setVec_frames (s : State) (f v : Nat) (x : Vector) : (s.setVec f v x).frames = s.frames := (rfl)
@[simp] theorem State.setVec_checks (s : State) (f v : Nat) (x : Vector) : (s.setVec f v x).checks = s.checks := (rfl)
@[simp] theorem State.setVec_fcells (s : State) (f v : Nat) (x : Vector) : (s.setVec f v x).fcells = s.fcells := (rfl)
@[simp] theorem State.setVec_cabs (s : State) (f v : Nat) (x : Vector) : (s.setVec f v x).cabs = s.cabs := (rfl)
@[simp] theorem State.setVec_lines (s : State) (f v : Nat) (x : Vector) : (s.setVec f v x).lines = s.lines := (rfl)
@[simp] theorem State.setVec_frqs (s : State) (f v : Nat) (x : Vector) : (s.setVec f v x).frqs = s.frqs := (rfl)
@[simp] theorem State.setVec_dio (s : State) (f v : Nat) (x : Vector) : (s.setVec f v x).dio = s.dio := (rfl)
@[simp] theorem State.setVec_probes (s : State) (f v : Nat) (x : Vector) : (s.setVec f v x).probes = s.probes := (rfl)
@[simp] theorem State.setVec_stream (s : State) (f v : Nat) (x : Vector) : (s.setVec f v x).stream = s.stream := (rfl)
@[simp] theorem State.setVec_scrub (s : State) (f v : Nat) (x : Vector) : (s.setVec f v x).scrub = s.scrub := (rfl)
@[simp] theorem State.setVec_pins (s : State) (f v : Nat) (x : Vector) : (s.setVec f v x).pins = s.pins := (rfl)
@[simp] theorem State.setVec_rings (s : State) (f v : Nat) (x : Vector) : (s.setVec f v x).rings = s.rings := (rfl)
@[simp] theorem State.setVec_pdir (s : State) (f v : Nat) (x : Vector) : (s.setVec f v x).pdir = s.pdir := (rfl)
@[simp] theorem State.setVec_hostMem (s : State) (f v : Nat) (x : Vector) : (s.setVec f v x).hostMem = s.hostMem := (rfl)
@[simp] theorem State.setVec_chans (s : State) (f v : Nat) (x : Vector) : (s.setVec f v x).chans = s.chans := (rfl)
@[simp] theorem State.setVec_bur (s : State) (f v : Nat) (x : Vector) : (s.setVec f v x).bur = s.bur := (rfl)
@[simp] theorem State.setVec_pwr (s : State) (f v : Nat) (x : Vector) : (s.setVec f v x).pwr = s.pwr := (rfl)
@[simp] theorem State.setVec_twin (s : State) (f v : Nat) (x : Vector) : (s.setVec f v x).twin = s.twin := (rfl)
@[simp] theorem State.setVec_pending (s : State) (f v : Nat) (x : Vector) : (s.setVec f v x).pending = s.pending := (rfl)
@[simp] theorem State.setVec_word (s : State) (f v : Nat) (x : Vector) (b : Nat) : (s.setVec f v x).word b = s.word b := (rfl)
@[simp] theorem State.setVec_f (s : State) (f v : Nat) (x : Vector) (q : FieldRef) (qi qj : Nat) : (s.setVec f v x).f q qi qj = s.f q qi qj := (rfl)
@[simp] theorem State.setVec_on (s : State) (f v : Nat) (x : Vector) (q : FieldRef) (qi qj : Nat) : (s.setVec f v x).on q qi qj = s.on q qi qj := (rfl)

/-! setStream -/

@[simp] theorem State.setStream_apPins (s : State) (x : Stream) : (s.setStream x).apPins = s.apPins := (rfl)
@[simp] theorem State.setStream_voted (s : State) (x : Stream) : (s.setStream x).voted = s.voted := (rfl)
@[simp] theorem State.setStream_arb (s : State) (x : Stream) : (s.setStream x).arb = s.arb := (rfl)
@[simp] theorem State.setStream_feeds (s : State) (x : Stream) : (s.setStream x).feeds = s.feeds := (rfl)
@[simp] theorem State.setStream_freeCount (s : State) (x : Stream) : (s.setStream x).freeCount = s.freeCount := (rfl)
@[simp] theorem State.setStream_part (s : State) (x : Stream) : (s.setStream x).part = s.part := (rfl)
@[simp] theorem State.setStream_mode (s : State) (x : Stream) : (s.setStream x).mode = s.mode := (rfl)
@[simp] theorem State.setStream_regs (s : State) (x : Stream) : (s.setStream x).regs = s.regs := (rfl)
@[simp] theorem State.setStream_readData (s : State) (x : Stream) : (s.setStream x).readData = s.readData := (rfl)
@[simp] theorem State.setStream_lcs (s : State) (x : Stream) : (s.setStream x).lcs = s.lcs := (rfl)
@[simp] theorem State.setStream_cells (s : State) (x : Stream) : (s.setStream x).cells = s.cells := (rfl)
@[simp] theorem State.setStream_groups (s : State) (x : Stream) : (s.setStream x).groups = s.groups := (rfl)
@[simp] theorem State.setStream_chains (s : State) (x : Stream) : (s.setStream x).chains = s.chains := (rfl)
@[simp] theorem State.setStream_monitors (s : State) (x : Stream) : (s.setStream x).monitors = s.monitors := (rfl)
@[simp] theorem State.setStream_dacs (s : State) (x : Stream) : (s.setStream x).dacs = s.dacs := (rfl)
@[simp] theorem State.setStream_cal (s : State) (x : Stream) : (s.setStream x).cal = s.cal := (rfl)
@[simp] theorem State.setStream_frames (s : State) (x : Stream) : (s.setStream x).frames = s.frames := (rfl)
@[simp] theorem State.setStream_checks (s : State) (x : Stream) : (s.setStream x).checks = s.checks := (rfl)
@[simp] theorem State.setStream_fcells (s : State) (x : Stream) : (s.setStream x).fcells = s.fcells := (rfl)
@[simp] theorem State.setStream_cabs (s : State) (x : Stream) : (s.setStream x).cabs = s.cabs := (rfl)
@[simp] theorem State.setStream_lines (s : State) (x : Stream) : (s.setStream x).lines = s.lines := (rfl)
@[simp] theorem State.setStream_frqs (s : State) (x : Stream) : (s.setStream x).frqs = s.frqs := (rfl)
@[simp] theorem State.setStream_dio (s : State) (x : Stream) : (s.setStream x).dio = s.dio := (rfl)
@[simp] theorem State.setStream_probes (s : State) (x : Stream) : (s.setStream x).probes = s.probes := (rfl)
@[simp] theorem State.setStream_scrub (s : State) (x : Stream) : (s.setStream x).scrub = s.scrub := (rfl)
@[simp] theorem State.setStream_pins (s : State) (x : Stream) : (s.setStream x).pins = s.pins := (rfl)
@[simp] theorem State.setStream_rings (s : State) (x : Stream) : (s.setStream x).rings = s.rings := (rfl)
@[simp] theorem State.setStream_pdir (s : State) (x : Stream) : (s.setStream x).pdir = s.pdir := (rfl)
@[simp] theorem State.setStream_hostMem (s : State) (x : Stream) : (s.setStream x).hostMem = s.hostMem := (rfl)
@[simp] theorem State.setStream_chans (s : State) (x : Stream) : (s.setStream x).chans = s.chans := (rfl)
@[simp] theorem State.setStream_host (s : State) (x : Stream) : (s.setStream x).host = s.host := (rfl)
@[simp] theorem State.setStream_bur (s : State) (x : Stream) : (s.setStream x).bur = s.bur := (rfl)
@[simp] theorem State.setStream_pwr (s : State) (x : Stream) : (s.setStream x).pwr = s.pwr := (rfl)
@[simp] theorem State.setStream_twin (s : State) (x : Stream) : (s.setStream x).twin = s.twin := (rfl)
@[simp] theorem State.setStream_pending (s : State) (x : Stream) : (s.setStream x).pending = s.pending := (rfl)
@[simp] theorem State.setStream_word (s : State) (x : Stream) (b : Nat) : (s.setStream x).word b = s.word b := (rfl)
@[simp] theorem State.setStream_f (s : State) (x : Stream) (q : FieldRef) (qi qj : Nat) : (s.setStream x).f q qi qj = s.f q qi qj := (rfl)
@[simp] theorem State.setStream_on (s : State) (x : Stream) (q : FieldRef) (qi qj : Nat) : (s.setStream x).on q qi qj = s.on q qi qj := (rfl)

/-! setJob -/

@[simp] theorem State.setJob_apPins (s : State) (j : Option Job) : (s.setJob j).apPins = s.apPins := (rfl)
@[simp] theorem State.setJob_voted (s : State) (j : Option Job) : (s.setJob j).voted = s.voted := (rfl)
@[simp] theorem State.setJob_arb (s : State) (j : Option Job) : (s.setJob j).arb = s.arb := (rfl)
@[simp] theorem State.setJob_feeds (s : State) (j : Option Job) : (s.setJob j).feeds = s.feeds := (rfl)
@[simp] theorem State.setJob_freeCount (s : State) (j : Option Job) : (s.setJob j).freeCount = s.freeCount := (rfl)
@[simp] theorem State.setJob_part (s : State) (j : Option Job) : (s.setJob j).part = s.part := (rfl)
@[simp] theorem State.setJob_mode (s : State) (j : Option Job) : (s.setJob j).mode = s.mode := (rfl)
@[simp] theorem State.setJob_regs (s : State) (j : Option Job) : (s.setJob j).regs = s.regs := (rfl)
@[simp] theorem State.setJob_readData (s : State) (j : Option Job) : (s.setJob j).readData = s.readData := (rfl)
@[simp] theorem State.setJob_lcs (s : State) (j : Option Job) : (s.setJob j).lcs = s.lcs := (rfl)
@[simp] theorem State.setJob_cells (s : State) (j : Option Job) : (s.setJob j).cells = s.cells := (rfl)
@[simp] theorem State.setJob_groups (s : State) (j : Option Job) : (s.setJob j).groups = s.groups := (rfl)
@[simp] theorem State.setJob_chains (s : State) (j : Option Job) : (s.setJob j).chains = s.chains := (rfl)
@[simp] theorem State.setJob_monitors (s : State) (j : Option Job) : (s.setJob j).monitors = s.monitors := (rfl)
@[simp] theorem State.setJob_dacs (s : State) (j : Option Job) : (s.setJob j).dacs = s.dacs := (rfl)
@[simp] theorem State.setJob_cal (s : State) (j : Option Job) : (s.setJob j).cal = s.cal := (rfl)
@[simp] theorem State.setJob_frames (s : State) (j : Option Job) : (s.setJob j).frames = s.frames := (rfl)
@[simp] theorem State.setJob_checks (s : State) (j : Option Job) : (s.setJob j).checks = s.checks := (rfl)
@[simp] theorem State.setJob_fcells (s : State) (j : Option Job) : (s.setJob j).fcells = s.fcells := (rfl)
@[simp] theorem State.setJob_cabs (s : State) (j : Option Job) : (s.setJob j).cabs = s.cabs := (rfl)
@[simp] theorem State.setJob_lines (s : State) (j : Option Job) : (s.setJob j).lines = s.lines := (rfl)
@[simp] theorem State.setJob_frqs (s : State) (j : Option Job) : (s.setJob j).frqs = s.frqs := (rfl)
@[simp] theorem State.setJob_dio (s : State) (j : Option Job) : (s.setJob j).dio = s.dio := (rfl)
@[simp] theorem State.setJob_probes (s : State) (j : Option Job) : (s.setJob j).probes = s.probes := (rfl)
@[simp] theorem State.setJob_stream (s : State) (j : Option Job) : (s.setJob j).stream = s.stream := (rfl)
@[simp] theorem State.setJob_scrub (s : State) (j : Option Job) : (s.setJob j).scrub = s.scrub := (rfl)
@[simp] theorem State.setJob_pins (s : State) (j : Option Job) : (s.setJob j).pins = s.pins := (rfl)
@[simp] theorem State.setJob_rings (s : State) (j : Option Job) : (s.setJob j).rings = s.rings := (rfl)
@[simp] theorem State.setJob_pdir (s : State) (j : Option Job) : (s.setJob j).pdir = s.pdir := (rfl)
@[simp] theorem State.setJob_hostMem (s : State) (j : Option Job) : (s.setJob j).hostMem = s.hostMem := (rfl)
@[simp] theorem State.setJob_chans (s : State) (j : Option Job) : (s.setJob j).chans = s.chans := (rfl)
@[simp] theorem State.setJob_host (s : State) (j : Option Job) : (s.setJob j).host = s.host := (rfl)
@[simp] theorem State.setJob_pwr (s : State) (j : Option Job) : (s.setJob j).pwr = s.pwr := (rfl)
@[simp] theorem State.setJob_twin (s : State) (j : Option Job) : (s.setJob j).twin = s.twin := (rfl)
@[simp] theorem State.setJob_pending (s : State) (j : Option Job) : (s.setJob j).pending = s.pending := (rfl)
@[simp] theorem State.setJob_word (s : State) (j : Option Job) (b : Nat) : (s.setJob j).word b = s.word b := (rfl)
@[simp] theorem State.setJob_f (s : State) (j : Option Job) (q : FieldRef) (qi qj : Nat) : (s.setJob j).f q qi qj = s.f q qi qj := (rfl)
@[simp] theorem State.setJob_on (s : State) (j : Option Job) (q : FieldRef) (qi qj : Nat) : (s.setJob j).on q qi qj = s.on q qi qj := (rfl)

/-! ## A read after a write -/

@[simp] theorem State.group_setGroup (s : State) (g h : Nat) (x : Group) :
    (s.setGroup g x).group h = if g = h then x else s.group h := by
  simp [State.group, State.setGroup]
@[simp] theorem State.chain_setChain (s : State) (g h : Nat) (x : Chain) :
    (s.setChain g x).chain h = if g = h then x else s.chain h := by
  simp [State.chain, State.setChain]
@[simp] theorem State.wm_setWm (s : State) (g h : Nat) (x : Monitor) :
    (s.setWm g x).wm h = if g = h then x else s.wm h := by
  simp [State.wm, State.setWm]
@[simp] theorem State.dac_setDac (s : State) (g h : Nat) (x : Dac) :
    (s.setDac g x).dac h = if g = h then x else s.dac h := by
  simp [State.dac, State.setDac]
@[simp] theorem State.cell_setCell (s : State) (g h : Nat) (x : Cell) :
    (s.setCell g x).cell h = if g = h then x else s.cell h := by
  simp [State.cell, State.setCell]
@[simp] theorem State.cab_setCab (s : State) (g h : Nat) (x : Cabinet) :
    (s.setCab g x).cab h = if g = h then x else s.cab h := by
  simp [State.cab, State.setCab]
@[simp] theorem State.probe_setProbe (s : State) (g h : Nat) (x : Probe) :
    (s.setProbe g x).probe h = if g = h then x else s.probe h := by
  simp [State.probe, State.setProbe]
@[simp] theorem State.feed_setFeed (s : State) (g h : Nat) (x : Feed) :
    (s.setFeed g x).feed h = if g = h then x else s.feed h := by
  simp [State.feed, State.setFeed]
@[simp] theorem State.trk_setTrk (s : State) (g h : Nat) (x : Tracker) :
    (s.setTrk g x).trk h = if g = h then x else s.trk h := by
  simp [State.trk, State.setTrk]
@[simp] theorem State.alarm_setAlarm (s : State) (g h : Nat) (x : Alarm) :
    (s.setAlarm g x).alarm h = if g = h then x else s.alarm h := by
  simp [State.alarm, State.setAlarm]
@[simp] theorem State.timer_setTimer (s : State) (g h : Nat) (x : Timer) :
    (s.setTimer g x).timer h = if g = h then x else s.timer h := by
  simp [State.timer, State.setTimer]
@[simp] theorem State.capture_setCapture (s : State) (g h : Nat) (x : List CapEntry) :
    (s.setCapture g x).capture h = if g = h then x else s.capture h := by
  simp [State.capture, State.setCapture]
@[simp] theorem State.ring_setRing (s : State) (g h : Nat) (x : Ring) :
    (s.setRing g x).ring h = if g = h then x else s.ring h := by
  simp [State.ring, State.setRing]
@[simp] theorem State.chan_setChan (s : State) (g h : Nat) (x : Chan) :
    (s.setChan g x).chan h = if g = h then x else s.chan h := by
  simp [State.chan, State.setChan]
@[simp] theorem State.func_setFunc (s : State) (g h : Nat) (x : PciFunc) :
    (s.setFunc g x).func h = if g = h then x else s.func h := by
  simp [State.func, State.setFunc]

end Sys2Proof.Machine
end

