-- ==== Sys2Proof/Laws/Canon.lean ====
section
/-! SUPPORT. Every operation on a table of the state keeps the tables in canonical form; what the shared guards answer; what the
stream operations leave as it is. -/

namespace Sys2Proof.Machine

/-! ## Canonical form -/

@[simp] theorem State.setWord_canonical {s : State} (h : s.canonical = true) (a : Nat) (w : Word) :
    (s.setWord a w).canonical = true := by
  simp only [State.canonical, State.setWord, Bool.and_eq_true] at h ⊢; simp only [h, Tab.wf_put, and_self]

@[simp] theorem State.setF_canonical {s : State} (h : s.canonical = true) (r : FieldRef) (v i j : Nat) :
    (s.setF r v i j).canonical = true := by
  exact State.setWord_canonical h ..

@[simp] theorem State.setB_canonical {s : State} (h : s.canonical = true) (r : FieldRef) (b : Bool) (i j : Nat) :
    (s.setB r b i j).canonical = true := by
  exact State.setF_canonical h ..

@[simp] theorem State.flag_canonical {s : State} (h : s.canonical = true) (r : FieldRef) (i j : Nat) :
    (s.flag r i j).canonical = true := by
  exact State.setF_canonical h ..

@[simp] theorem State.addSat_canonical {s : State} (h : s.canonical = true) (r : FieldRef) (n i j : Nat) :
    (s.addSat r n i j).canonical = true := by
  exact State.setF_canonical h ..

@[simp] theorem State.addWrap_canonical {s : State} (h : s.canonical = true) (r : FieldRef) (n i j : Nat) :
    (s.addWrap r n i j).canonical = true := by
  exact State.setF_canonical h ..

@[simp] theorem State.setPair_canonical {s : State} (h : s.canonical = true) (lo hi : FieldRef) (v i j : Nat) :
    (s.setPair lo hi v i j).canonical = true := by
  exact State.setF_canonical (State.setF_canonical h ..) ..

@[simp] theorem State.setGroup_canonical {s : State} (h : s.canonical = true) (g : Nat) (x : Group) :
    (s.setGroup g x).canonical = true := by
  simp only [State.canonical, State.setGroup, Bool.and_eq_true] at h ⊢; simp only [h, Tab.wf_put, and_self]

@[simp] theorem State.setChain_canonical {s : State} (h : s.canonical = true) (n : Nat) (c : Chain) :
    (s.setChain n c).canonical = true := by
  simp only [State.canonical, State.setChain, Bool.and_eq_true] at h ⊢; simp only [h, Tab.wf_put, and_self]

@[simp] theorem State.setWm_canonical {s : State} (h : s.canonical = true) (n : Nat) (m : Monitor) :
    (s.setWm n m).canonical = true := by
  simp only [State.canonical, State.setWm, Bool.and_eq_true] at h ⊢; simp only [h, Tab.wf_put, and_self]

@[simp] theorem State.setDac_canonical {s : State} (h : s.canonical = true) (d : Nat) (x : Dac) :
    (s.setDac d x).canonical = true := by
  simp only [State.canonical, State.setDac, Bool.and_eq_true] at h ⊢; simp only [h, Tab.wf_put, and_self]

@[simp] theorem State.setCell_canonical {s : State} (h : s.canonical = true) (c : Nat) (x : Cell) :
    (s.setCell c x).canonical = true := by
  simp only [State.canonical, State.setCell, Bool.and_eq_true] at h ⊢; simp only [h, Tab.wf_put, and_self]

@[simp] theorem State.setFrameWord_canonical {s : State} (h : s.canonical = true) (fa k : Nat) (v : Word) :
    (s.setFrameWord fa k v).canonical = true := by
  simp only [State.canonical, State.setFrameWord, Bool.and_eq_true] at h ⊢; simp only [h, Tab.wf_put, and_self]

@[simp] theorem State.setCheck_canonical {s : State} (h : s.canonical = true) (fa c : Nat) :
    (s.setCheck fa c).canonical = true := by
  simp only [State.canonical, State.setCheck, Bool.and_eq_true] at h ⊢; simp only [h, Tab.wf_put, and_self]

@[simp] theorem State.setFcell_canonical {s : State} (h : s.canonical = true) (k i : Nat) (x : FabCell) :
    (s.setFcell k i x).canonical = true := by
  simp only [State.canonical, State.setFcell, Bool.and_eq_true] at h ⊢; simp only [h, Tab.wf_put, and_self]

@[simp] theorem State.setCab_canonical {s : State} (h : s.canonical = true) (k : Nat) (c : Cabinet) :
    (s.setCab k c).canonical = true := by
  simp only [State.canonical, State.setCab, Bool.and_eq_true] at h ⊢; simp only [h, Tab.wf_put, and_self]

@[simp] theorem State.setLineX_canonical {s : State} (h : s.canonical = true) (k e : Nat) (x : PulseX) :
    (s.setLineX k e x).canonical = true := by
  simp only [State.canonical, State.setLineX, Bool.and_eq_true] at h ⊢; simp only [h, Tab.wf_put, and_self]

@[simp] theorem State.setFrqX_canonical {s : State} (h : s.canonical = true) (f : Nat) (x : PulseX) :
    (s.setFrqX f x).canonical = true := by
  simp only [State.canonical, State.setFrqX, Bool.and_eq_true] at h ⊢; simp only [h, Tab.wf_put, and_self]

@[simp] theorem State.setProbe_canonical {s : State} (h : s.canonical = true) (p : Nat) (x : Probe) :
    (s.setProbe p x).canonical = true := by
  simp only [State.canonical, State.setProbe, Bool.and_eq_true] at h ⊢; simp only [h, Tab.wf_put, and_self]

@[simp] theorem State.setFeed_canonical {s : State} (h : s.canonical = true) (c : Nat) (x : Feed) :
    (s.setFeed c x).canonical = true := by
  simp only [State.canonical, State.setFeed, Bool.and_eq_true] at h ⊢; simp only [h, Tab.wf_put, and_self]

@[simp] theorem State.setRing_canonical {s : State} (h : s.canonical = true) (r : Nat) (x : Ring) :
    (s.setRing r x).canonical = true := by
  simp only [State.canonical, State.setRing, Bool.and_eq_true] at h ⊢; simp only [h, Tab.wf_put, and_self]

@[simp] theorem State.setChan_canonical {s : State} (h : s.canonical = true) (c : Nat) (x : Chan) :
    (s.setChan c x).canonical = true := by
  simp only [State.canonical, State.setChan, Bool.and_eq_true] at h ⊢; simp only [h, Tab.wf_put, and_self]

/-- A fold of updates keeps the canonical form of a table. -/
theorem Tab.wf_foldl_put {α β : Type} [DecidableEq α] (d : Nat → α) (k : β → Nat) (v : β → α) (l : List β) :
    ∀ {t : Tab α}, t.wf d = true → Tab.wf d (l.foldl (fun t e => t.put d (k e) (v e)) t) = true := by
  induction l with
  | nil => exact fun h => h
  | cons e l ih => exact fun h => ih (Tab.wf_put d (k e) (v e) h)

/-- Bytes written to host memory keep its canonical form (R404). -/
theorem State.hostWrite_canonical {s : State} (h : s.canonical = true) (a : Nat) (bytes : List Nat) :
    (s.hostWrite a bytes).canonical = true := by
  have hw : Tab.wf (fun _ => 0) (s.hostWrite a bytes).hostMem = true := by
    refine Tab.wf_foldl_put (fun _ => 0) (fun e : Nat × Nat => e.2 % 2 ^ 64) (fun e => e.1 % 256) _ ?_
    simp only [State.canonical, Bool.and_eq_true] at h
    exact h.1.2
  simp only [State.canonical, Bool.and_eq_true] at h ⊢
  simp_all [State.hostWrite]

/-- A committed page-directory entry keeps the directory's canonical form (R397). -/
theorem State.pdirHi_canonical {s : State} (h : s.canonical = true) (w : Word) : (s.pdirHi w).canonical = true := by
  unfold State.pdirHi
  refine State.setF_canonical ?_ ..
  split
  · exact h
  · split
    · exact State.flag_canonical h ..
    · simp only [State.canonical, Bool.and_eq_true] at h ⊢
      simp only [h, Tab.wf_put, and_self]

/-! ## The guards -/

/-- A command that names an instance answers a next state exactly where the number is one that some part has and its own
answer is that state. -/
theorem onInst_next {n bound : Nat} {k : Out} {t : State} : onInst n bound k = .next t ↔ n < bound ∧ k = .next t := by
  unfold onInst; split <;> simp_all

/-- A command to an instance of the part: its own answer where the instance is present, nothing where it is fused off. -/
theorem ifPresent_next {n count bound : Nat} {s t : State} {k : Out} :
    ifPresent n count bound s k = .next t ↔ n < bound ∧ ((n < count ∧ k = .next t) ∨ (count ≤ n ∧ s = t)) := by
  unfold ifPresent
  rw [onInst_next]
  split
  · next h => simp [h, Nat.not_le.mpr h]
  · next h => simp [h, Nat.not_lt.mp h]

/-- A command that names an instance never refuses. -/
theorem onInst_not_refused {n bound : Nat} {k : Out} (h : ∀ r, k ≠ .refused r) (r : Refusal) :
    onInst n bound k ≠ .refused r := by
  unfold onInst; split <;> simp_all

/-! ## Streams -/

/-- A connection changes the feeds alone, and of them its consumer's. -/
theorem State.connect_frame (s : State) (c code : Nat) : s.connect c code = { s with feeds := (s.connect c code).feeds } := by
  unfold State.connect; split <;> rfl
theorem State.connect_others (s : State) (c code : Nat) : Others c s.feed (s.connect c code).feed := by
  intro d h
  unfold State.connect
  split
  · rfl
  · simp [State.feed, State.setFeed, Ne.symm h]

/-- Taking words changes the feeds alone, and of them the consumer's. -/
theorem State.consume_frame (s : State) (c n : Nat) : s.consume c n = { s with feeds := (s.consume c n).feeds } := rfl
theorem State.consume_others (s : State) (c n : Nat) : Others c s.feed (s.consume c n).feed := by
  intro d h
  simp [State.feed, State.consume, State.setFeed, Ne.symm h]

/-- A consumer connected to a source is connected to it. -/
@[simp] theorem State.connect_src (s : State) (c code : Nat) : ((s.connect c code).feed c).src = code := by
  unfold State.connect
  split
  · assumption
  · simp [State.feed, State.setFeed]

end Sys2Proof.Machine
end

