-- ==== Sys2Proof/Tests/Slice0.lean ====
section
/-! SUPPORT. The model's own tests: ill-formed commands are refused, single steps give what the spec says, and every hypothesis
of a statement is met somewhere. -/

namespace Sys2Proof.Tests

set_option Elab.async false

open Sys2Proof Sys2Proof.Machine

/-- The next state of a command; the state itself where there is none. -/
def after (i : Instr) (s : State) : State := match exec i s with | .next t => t | _ => s

/-- A die in `m` with its clocks running, out of its resets, and with some fields of registers set. -/
def die (m : Mode) (fields : List (FieldRef × Nat × Nat × Nat)) : State :=
  fields.foldl (fun s e => s.setF e.1 e.2.2.2 e.2.1 e.2.2.1)
    { State.reset with
      mode := m,
      lcs := { Longcase.init with pll := .locked, time := 1000 },
      host := { HostIf.init with porst := true, perst := true, ready := true, trained := true },
      bur := { Bureau.init with running := true } }

/-- A field of an instance. -/
def at1 (r : FieldRef) (i v : Nat) : FieldRef × Nat × Nat × Nat := (r, i, 0, v)

/-! ## Ill-formed commands are refused, one for each check of Instr.wf -/

theorem test_wf_instances :
    ([.porstNRelease false 4, .bureauBootComplete 1 true true, .linkTraining 5 16 0 0, .linkTraining 4 3 0 0,
      .linkTraining 4 16 3 0, .linkTraining 4 16 0 6, .functionLevelReset 32, .configRequest 32 .vendorId, .random 64 0,
      .digestRequest 64, .claimLow 64, .claimHigh 64, .unknownSecureOp 64, .scrubFrameCheck [3, 1228], .prEdge 8 0 0 .rise,
      .prIndexEdge 8 0 0 .rise, .edgeProcessing 8, .coastEntry 8 0, .coastLimit 8 0, .prEnable 8 true, .prSnap 8 0,
      .paEnable 256 0 true, .alarmFiring 256 0, .timerStart 32 0, .timerExpiry 32, .timerDisable 32, .seqStart 24, .urgent 24,
      .mark 24, .rsInstant 48, .segStart 24, .blankOpen 96, .blankClose 96, .periodClear 96, .captureEdge 16 0 .rise,
      .capPop 16, .tempConversion 8 0] : List Instr).all (fun i => !i.wf) = true := by decide

theorem test_wf_analog :
    ([.cgEnable 24, .cgDisable 24, .cgGo 24, .cgStop 24, .fabricRequest 48, .settleEnd 24, .dwellComplete 24,
      .urgentDwellComplete 24, .cgCntSnap 24, .elogPop 24, .windowComparatorFire 24 0, .windowComparatorFire 0 4,
      .refSettled 24, .refFault 4, .refqWindowReturn 4, .overlapStart 24 0, .handoverTest 24, .estimatorBlock 24 0 0,
      .signatureVerification 800001,
      .azBoundary 192, .azSwap 192, .autoZeroTrim 192 [], .rst 192 0, .portOverload 96 0, .cellSaturation 192 0,
      .matrixWrite 0xA0004 0, .matrixWrite 0xA6000 0, .sourceWrite 0x200008 0, .fcEnable 48, .fcDisable 48, .bank 48 0,
      .bank 0 2, .xfadeStart 48, .xfDone 48, .fcCntSnap 48, .gapPop 48, .cdata 48 .read, .incCommit 48 0, .slot 48 0,
      .tlogPop 48, .detWindowClose 48, .chainOutput 48, .wmEnable 96, .wmPowerUp 96 ⟨0, 0, 0⟩, .wmConditionWrite 96 .thr 0,
      .wmSettle 96 ⟨0, 0, 0⟩, .wmDisable 96, .comparatorEdge 96 ⟨0, 0, 0⟩ 0, .wmResolve 96 ⟨0, 0, 0⟩ 0, .edgeDelivery 96] : List Instr).all
      (fun i => !i.wf) = true := by decide

theorem test_wf_digital :
    ([.daGo 24, .daStop 24, .daEnable 24 true, .segmentEnd 24, .underrun 24, .pdata 24 .read, .clkenWrite 24 true,
      .fpllMWrite 64, .peekData 24, .fpInputWord 24 0, .fpInputWord 0 4, .fpInputGroupTake 24 0, .fpOutputWord 0 4,
      .agentPost 24 ⟨0, none⟩, .agentPost 0 ⟨2, none⟩, .agentTake 0 ⟨2, none⟩, .agentDbclr 0 ⟨2, none⟩, .vccioChange 8 true, .dioPinCfgWrite 256 0,
      .probeSample 16, .tailWrite 4096 0, .headWrite 4096 0, .ringWord 4096 0 0, .ageClose 4096, .blockWrite 4096,
      .blkHold 4096, .dmaSnap 4096, .ringFetch 4096, .fetchCompletion 0 [1], .completionTimeout 4096, .msgPost 32 0 0,
      .msgPost 0 1024 0, .msgTake 0 1024, .dbSet 32 0 0, .dbClr 0 1024 0, .channelTimeout 1088, .msixMessage 0 2048,
      .msixMessage 1 64, .clockStopped 25, .rcRead 0 ⟨0, 0, 0, 1, some [3], [], false⟩,
      .registerWrite 0 ⟨0, 0, 0, 2, some [3], [], false⟩, .registerWrite 0 ⟨32, 0, 0, 1, some [3], [], false⟩,
      .forwardedWrite 0 (some ⟨0, 4, 0, 1, some [3], [], false⟩), .twinCompare 24 true true, .unknownCommandCode 0x10 0,
      .unknownCommandCode 256 0, .firmwareResume 5, .bunkLinkTraining [1], .flrComplete 32] : List Instr).all
      (fun i => !i.wf) = true := by decide

theorem test_wf_fault : exec (.seqStart 24) State.reset = .fault .illFormed := rfl

/-! ## Worked examples of the spec -/

/-- The ring of chapter 16's example: 1,600 MB/s upstream is charged as 1,613 (R411). -/
theorem test_ring_charge : (die .run [at1 Fld.DMA_RATE 7 0x640]).ringCharge 7 = 1613 := by decide +kernel

/-- The first four words of the record of block 5,096 there (R405, R406). -/
theorem test_block_record :
    ((die .run [(Reg.DMA_CFG, 7, 0, 0x1003101C)]).blockRecord 7
      { seq := 5096, words := List.replicate 2048 (plainWord 9 11236608, 0), stamp := ⟨false, 0, 0, 0, 2, 1⟩,
        dropped := true, first := false, failover := false }).take 4 =
      [0x00AB7500, 0x00200000, 0x000013E8, 0x01120800] := by decide +kernel

/-- The address that follows 0x0A_00FF in a FRAMES record (chapter 15's example, R342), and CB5's own next frame (R378). -/
theorem test_next_frame : nextFrame .kn9640 0x0A00FF = some 0x0C0000 ∧ nextInCabinet 5 0x0A00FF = some 0x4A0000 := by decide

/-- The cell and routing words of chapter 14's example are words that their layouts assign (R343, R344). -/
theorem test_frame_layout :
    (0x00965200 : Word) &&& ~~~frameMask .kn9640 0x060044 0 = 0 ∧ (0x00004C81 : Word) &&& ~~~frameMask .kn9640 0x060044 8 = 0 ∧
      (0x0FFE02CA : Word) &&& ~~~frameMask .kn9640 0x460044 2 = 0 ∧ frameZone 0x460044 = 3 := by decide

/-- SND_STAT through chapter 17's exchange: posted, then rejected, then taken (R431 to R434). -/
theorem test_snd_stat :
    let s : State := { die .run [at1 Fld.HOST_NUMVF 0 3] with
      chans := [(100, { Chan.init with alloc := true, snd := 0x10030002, rcv := 0x30000401 })] }
    let a := after (.msgPost 3 100 0xA17) s
    let b := after (.msgPost 3 100 0xA18) a
    let c := b.takeFrom 100
    (a.chan 100).sndStat = 0x00010005 ∧ (b.chan 100).sndStat = 0x00010109 ∧ (c.chan 100).sndStat = 0x00010118 := by
  decide +kernel

/-- A VF's write to its ring's DMAr_CFG is refused and named (chapter 18's example, R452, R465). -/
theorem test_vf_refused :
    let s := die .run [at1 Fld.DMA_CFG_FUNC 1234 5, at1 Fld.DMA_RSTAT_ADMITTED 1234 1, at1 Fld.HOST_NUMVF 0 5]
    let t := after (.registerWrite 0 ⟨5, 2, 0x13480, 1, some [0], [], false⟩) s
    t.word Reg.HOST_BADOFS.base = 0x2C013480 ∧ t.on Fld.HOST_STAT_VFBAD = true := by decide +kernel

/-- The first bytes of SHAKE256 of the empty string (FIPS 202's function, which R353 names). -/
theorem test_shake256 : (shake256 []).take 4 = [0x46, 0xB9, 0xDD, 0x2B] := by decide +kernel

/-! ## States that meet the invariants, with a command in front -/

theorem test_balance_met :
    let g : Group := { Group.init with core := { CgCore.init with conv := 12, emit := 4, sdisc := 4, pdisc := 4 } }
    let s : State := { die .run [at1 Fld.CG_CTL_EN 3 1] with groups := [(3, g)], pending := [.cgDisable 3] }
    s.balanced = true ∧ s.canonical = true ∧ s.modeShown = false := by decide +kernel

theorem test_mode_shown_met :
    let s : State := { die .run [at1 Fld.DEV_MODE_MODE 0 5] with pending := [.setMode 1 [1]] }
    s.modeShown = true ∧ (match step s with | .next t => t.mode == .blank && t.modeShown | _ => false) = true := by
  decide +kernel

theorem test_nonvolatile_met :
    let s : State := { die .blank [] with
      pending := [.keyEnroll 1 [2, 1, 2, 3, 4, 5, 6, 7, 8] true], bur := { Bureau.init with running := true } }
    (match step s with | .next t => t.bur.nv.policy == 64 && t.bur.nv.slots != s.bur.nv.slots | _ => false) = true := by
  decide +kernel

/-- The highest clocks of R306's table, at the dividers of 4,000 MHz next to them. -/
theorem test_path_timing :
    cabDistance 0 23 = 8 ∧ trunkTooSlow 0 4000 7 = false ∧ trunkTooSlow 1 4000 7 = true ∧ trunkTooSlow 1 4000 8 = false ∧
      trunkTooSlow 3 4000 9 = true ∧ trunkTooSlow 3 4000 10 = false ∧ trunkTooSlow 8 4000 14 = true ∧
      trunkTooSlow 8 4000 15 = false := by decide

/-! ## The hypotheses of each clause of a statement are met -/

theorem StepTakesFrontCommand_2_met :
  let s : State := die .run []
  (s.pending = []) := by decide +kernel

theorem WellFormedCommandsComplete_1_met :
  let i : Instr := .seqStart 23
  (i.wf = true) := by decide +kernel

theorem WellFormedCommandsComplete_2_met :
  let i : Instr := .seqStart 24
  (i.wf = false) := by decide +kernel

theorem ResetEntries_3_met :
  let s : State := ((die .run [(Fld.FC_COEFA_COEF, 47, 127, 99)]).setChain 3 { Chain.init with store := [(4, 5)], t := 7 }).setDac 2 { Dac.init with pattern := [(3, 4)], fifo := [1] }
  let n : Nat := 47
  let a : Nat := 127
  (Tab.wf (fun _ => Chain.init) s.chains = true) ∧ (Tab.wf (fun _ => Dac.init) s.dacs = true) ∧ (Tab.wf RegMap.resetAt s.regs = true) ∧ (n < 48) ∧ (a < 128) ∧ (s.mode ≠ .reset ∨ s.host.porst = true) := by decide +kernel

theorem ResetEntries_4_met :
  let s : State := State.reset
  (s.mode = .reset) ∧ (s.host.porst = false) := by decide +kernel

theorem BootAndStraps_1_met :
  let s : State := { die .reset [] with host := HostIf.init }
  let boot : Nat := 3
  (s.mode = .reset) ∧ (s.host.porst = false) ∧ (boot < 4) := by decide +kernel

theorem BootAndStraps_2_met :
  let s : State := { die .reset [] with host := { HostIf.init with porst := true }, bur := { Bureau.init with nv := { Nonvolatile.init with keyres := 2 ^ 33 + 64 } } }
  (s.mode = .reset) ∧ (s.host.porst = true) ∧ (s.host.ready = false) ∧ (s.bur.nv.keyres < 2 ^ 40) := by decide +kernel

theorem BootAndStraps_3_met :
  let s : State := { die .reset [] with host := { HostIf.init with porst := true }, bur := Bureau.init }
  let err : Nat := 4
  (s.mode = .reset) ∧ (s.host.porst = true) ∧ (s.host.ready = false) ∧ ((err = 3 ∨ err = 4)) := by decide +kernel

theorem BootAndStraps_4_met :
  let s : State := { die .blank [] with pins := { Pins.init with boot := 1 } }
  (s.mode = .blank) ∧ (s.bur.firstBlank = true) ∧ (s.pins.boot = 1) := by decide +kernel

theorem BootAndStraps_5_met :
  let s : State := die .reset []
  let boot : Nat := 3
  (s.host.porst = true) ∧ (boot < 4) := by decide +kernel

theorem SampleClockStamps_1_met :
  let s : State := die .run [at1 Fld.LCS_CTL_CLKSRC 0 2]
  (s.lclk = true) ∧ (s.f Fld.LCS_CTL_CLKSRC = 2) ∧ (s.lcs.smpEdge = none) ∧ (s.lcs.smpStalled = false) := by decide +kernel

theorem SampleClockStamps_2_met :
  let s : State := { die .run [at1 Fld.LCS_CTL_CLKSRC 0 2] with lcs := { Longcase.init with pll := .locked, smpEdge := some ⟨6400, 0⟩ } }
  let e : SmpEdge := ⟨6400, 0⟩
  (s.lclk = true) ∧ (s.f Fld.LCS_CTL_CLKSRC = 2) ∧ (s.lcs.smpEdge = some e) ∧ (s.lcs.smpStalled = false) := by decide +kernel

theorem SampleClockStamps_3_met :
  let s : State := die .run [at1 Fld.LCS_CTL_CLKSRC 0 2]
  (s.f Fld.LCS_CTL_CLKSRC = 2) := by decide +kernel

theorem SampleClockStamps_4_met :
  let s : State := { die .run [at1 Fld.LCS_CTL_CLKSRC 0 2] with lcs := { Longcase.init with pll := .locked, smpStalled := true } }
  (s.lclk = true) ∧ (s.f Fld.LCS_CTL_CLKSRC = 2) ∧ (s.lcs.smpEdge = none) ∧ (s.lcs.smpStalled = true) := by decide +kernel

theorem EdgeIntakeAndProcessing_1_met :
  let s : State := { die .run [at1 Fld.PR_SRC_KIND 2 1, at1 Fld.PR_CFG_EN 2 1, at1 Fld.PR_ADJ_HOLDOFF 2 1, at1 Fld.PR_ADJ_DELAY 2 0xFFFF] with dio := { Dio.init with vok := 1 } }
  let n : Nat := 2
  let stamp : Nat := 70000
  let kind : EdgeKind := .rise
  (n < 8) ∧ (s.lclk = true) ∧ (s.mainInput n = true) ∧ (s.qdec n = 0) ∧ (s.on Fld.PR_CFG_EN n = true) ∧ (edgeMatches (s.f Fld.PR_CFG_EDGE n) kind = true) ∧ ((s.trk n).keptMain.all (fun k => decide ((s.f Fld.PR_ADJ_HOLDOFF n : Int) * 4096 ≤ stamp + toSigned 16 (s.f Fld.PR_ADJ_DELAY n) - k)) = true) := by decide +kernel

theorem EdgeIntakeAndProcessing_2_met :
  let s : State := (die .run [at1 Fld.PR_SRC_KIND 2 3, at1 Fld.PR_SRC_INDEX 2 95, at1 Fld.PR_CFG_EN 2 1, at1 Fld.PR_ADJ_HOLDOFF 2 1]).setTrk 2 { Tracker.init with keptMain := some 66000 }
  let n : Nat := 2
  let stamp : Nat := 70000
  let kind : EdgeKind := .rise
  let k : Int := 66000
  (n < 8) ∧ (s.lclk = true) ∧ (s.mainInput n = true) ∧ (s.qdec n = 0) ∧ (s.on Fld.PR_CFG_EN n = true) ∧ (edgeMatches (s.f Fld.PR_CFG_EDGE n) kind = true) ∧ ((s.trk n).keptMain = some k) ∧ (stamp + toSigned 16 (s.f Fld.PR_ADJ_DELAY n) - k < (s.f Fld.PR_ADJ_HOLDOFF n : Int) * 4096) := by decide +kernel

theorem EdgeIntakeAndProcessing_3_met :
  let s : State := { die .run [at1 Fld.PR_SRC_IKIND 7 1, at1 Fld.PR_CFG_EN 7 1] with dio := { Dio.init with vok := 1 } }
  let n : Nat := 7
  let stamp : Nat := 70000
  (n < 8) ∧ (s.lclk = true) ∧ (s.lcsInput (s.f Fld.PR_SRC_IKIND n) (s.f Fld.PR_SRC_IINDEX n) = true) ∧ (s.on Fld.PR_CFG_EN n = true) ∧ ((s.trk n).keptIndex.all (fun k => decide ((s.f Fld.PR_ADJ_HOLDOFF n : Int) * 4096 ≤ stamp + toSigned 16 (s.f Fld.PR_ADJ_DELAY n) - k)) = true) := by decide +kernel

theorem EdgeIntakeAndProcessing_4_met :
  let s : State := (die .run []).setTrk 7 { Tracker.init with haveFirst := true, last := 64000, queue := [⟨70400, 1100, false⟩] }
  let n : Nat := 7
  let e : EdgeRec := ⟨70400, 1100, false⟩
  let rest : List EdgeRec := []
  (n < 8) ∧ (s.lclk = true) ∧ ((s.trk n).queue = e :: rest) ∧ ((s.trk n).state = .unlocked) ∧ ((s.trk n).haveFirst = true) ∧ (e.rev = false) := by decide +kernel

theorem CoastingAndEnabling_1_met :
  let s : State := (die .run [at1 Fld.PR_TRK_COAST 3 4, at1 Fld.PR_CFG_EPT_M1 3 1]).setTrk 3 { Tracker.init with state := .locked, p := 1000 * 64 * 256, last := 60000, t0 := 60000, phi0 := 7, rate := 1 / 128000, epoch := 1 }
  let n : Nat := 3
  let tick : Nat := 2100
  (n < 8) ∧ (s.lclk = true) ∧ ((s.trk n).state = .locked) ∧ (s.edgeDue n < ((tick : Int) * 64 : Int)) ∧ ((s.trk n).t0 ≤ (tick : Int) * 64) ∧ ((s.trk n).queue.all (fun e => decide (s.edgeDue n < e.stamp)) = true) ∧ (s.f Fld.PR_TRK_COAST n ≠ 0) := by decide +kernel

theorem CoastingAndEnabling_2_met :
  let s : State := (die .run [at1 Fld.PR_TRK_COAST 3 1]).setTrk 3 { Tracker.init with state := .coasting, p := 1000 * 64 * 256, last := 60000, t0 := 60000, phi0 := 7, coastFrom := 7, rate := 1 / 64000, epoch := 1 }
  let n : Nat := 3
  let tick : Nat := 2100
  (n < 8) ∧ (s.lclk = true) ∧ ((s.trk n).state = .coasting) ∧ ((s.trk n).t0 ≤ (tick : Int) * 64) ∧ ((s.trk n).coastFrom + (s.f Fld.PR_TRK_COAST n) ≤ (s.trk n).phase ((tick : Int) * 64)) := by decide +kernel

theorem CoastingAndEnabling_3_met :
  let s : State := die .run [at1 Fld.PR_CFG_EPT_M1 5 99]
  let n : Nat := 5
  (n < 8) ∧ (s.lclk = true) ∧ (s.on Fld.PR_CFG_EN n = false) ∧ (n % 2 = 0 ∨ s.qdec n = 0) := by decide +kernel

theorem CoastingAndEnabling_4_met :
  let s : State := (die .run [at1 Fld.PR_CFG_EN 4 1]).setTrk 4 { Tracker.init with state := .locked, p := 1000, haveFirst := true, t0 := 63936, phi0 := 2, rate := 1 / 256 }
  let n : Nat := 4
  (n < 8) ∧ (s.lclk = true) ∧ (s.on Fld.PR_CFG_EN n = true) ∧ (n % 2 = 0 ∨ s.qdec n = 0) := by decide +kernel

theorem SnapshotsLatch_1_met :
  let s : State := (die .run []).setTrk 6 { Tracker.init with state := .locked, p := 25600, t0 := 0, phi0 := 5, rate := 1 / 3000, err := -2 }
  let n : Nat := 6
  (n < 8) ∧ (s.lclk = true) := by decide +kernel

theorem SnapshotsLatch_2_met :
  let s : State := die .run []
  (s.lclk = true) := by decide +kernel

theorem AlarmsFireOrSkip_1_met :
  let s : State := die .run [at1 Fld.PA_FILTER_SKIP 255 9, at1 Fld.PA_FILTER_EVERY_M1 255 3]
  let n : Nat := 255
  (n < 256) ∧ (s.lclk = true) ∧ (s.on Fld.PA_CTL_EN n = false) := by decide +kernel

theorem AlarmsFireOrSkip_2_met :
  let s : State := (die .run [at1 Fld.PA_CTL_EN 0 1, at1 Fld.PA_CTL_PEND 0 1]).setAlarm 0 { Alarm.init with shTarget := some 77 }
  let n : Nat := 0
  let w : Word := 77
  (n < 256) ∧ (s.lclk = true) ∧ (s.on Fld.PA_CTL_EN n = true) ∧ ((s.alarm n).shTarget = some w) := by decide +kernel

theorem AlarmsFireOrSkip_3_met :
  let s : State := (die .run [at1 Fld.PA_CTL_EN 9 1, at1 Fld.PA_CTL_REF 9 2, at1 Fld.PA_CTL_ACT 9 0x482, at1 Fld.PA_TARGET 9 0x80000000, at1 Fld.PA_FILTER_EVERY_M1 9 3, at1 Fld.PA_CNT 9 0xFFFFFFFF]).setTrk 2 { Tracker.init with state := .locked, p := 1, t0 := 70400, phi0 := 9 / 2 - 1 / 1000, rate := 1 / 6400, epoch := 1 }
  let n : Nat := 9
  let tick : Nat := 1100
  let inst : Rat := 9 / 2
  (n < 256) ∧ (s.lclk = true) ∧ (s.on Fld.PA_CTL_EN n = true) ∧ ((s.trk (s.f Fld.PA_CTL_REF n)).state.tracking = true) ∧ ((s.trk (s.f Fld.PA_CTL_REF n)).t0 ≤ (tick : Int) * 64) ∧ ((s.alarm n).enTick < tick) ∧ ((s.alarm n).lastTick.all (fun l => decide (l < tick)) = true) ∧ ((s.alarm n).skip = 0) ∧ (passes (s.target n) ((s.trk (s.f Fld.PA_CTL_REF n)).phase ((tick : Int) * 64)) ((s.trk (s.f Fld.PA_CTL_REF n)).phase ((tick : Int) * 64 + 64)) = some inst) := by decide +kernel

theorem AlarmsFireOrSkip_4_met :
  let s : State := (((die .run [at1 Fld.PA_CTL_EN 9 1, at1 Fld.PA_CTL_REF 9 2, at1 Fld.PA_TARGET 9 0x80000000]).setTrk 2 { Tracker.init with state := .coasting, p := 1, t0 := 70400, phi0 := 9 / 2 - 1 / 1000, rate := 1 / 6400 })).setAlarm 9 { Alarm.init with skip := 2, lastTick := some 1000 }
  let n : Nat := 9
  let tick : Nat := 1100
  let inst : Rat := 9 / 2
  (n < 256) ∧ (s.lclk = true) ∧ (s.on Fld.PA_CTL_EN n = true) ∧ ((s.trk (s.f Fld.PA_CTL_REF n)).state.tracking = true) ∧ ((s.trk (s.f Fld.PA_CTL_REF n)).t0 ≤ (tick : Int) * 64) ∧ ((s.alarm n).enTick < tick) ∧ ((s.alarm n).lastTick.all (fun l => decide (l < tick)) = true) ∧ ((s.alarm n).skip ≠ 0) ∧ (passes (s.target n) ((s.trk (s.f Fld.PA_CTL_REF n)).phase ((tick : Int) * 64)) ((s.trk (s.f Fld.PA_CTL_REF n)).phase ((tick : Int) * 64 + 64)) = some inst) := by decide +kernel

theorem TimersRunAndExpire_1_met :
  let s : State := die .run [at1 Fld.TT_CTL_EN 31 1, at1 Fld.TT_PERIOD 31 0, at1 Fld.TT_CTL_PRESC 31 2]
  let n : Nat := 31
  let tick : Nat := 1100
  (n < 32) ∧ (s.lclk = true) ∧ (s.on Fld.TT_CTL_EN n = true) ∧ (((s.timer n).running = true → max s.lcs.time tick < (s.timer n).next)) := by decide +kernel

theorem TimersRunAndExpire_2_met :
  let s : State := (die .run [at1 Fld.TT_CTL_EN 31 1, at1 Fld.TT_PERIOD 31 0, at1 Fld.TT_CTL_ACT 31 0x400, at1 Fld.TT_CNT 31 0xFFFFFFFF]).setTimer 31 ⟨true, 1100, 9, true⟩
  let n : Nat := 31
  let tick : Nat := 1100
  (n < 32) ∧ (s.lclk = true) ∧ (s.on Fld.TT_CTL_EN n = true) ∧ ((s.timer n).running = true) ∧ ((s.timer n).next = max s.lcs.time tick) := by decide +kernel

theorem TimersRunAndExpire_3_met :
  let s : State := (die .run [at1 Fld.TT_CTL_EN 4 1, at1 Fld.TT_CTL_PERIODIC 4 1, at1 Fld.TT_PERIOD 4 250]).setTimer 4 ⟨true, 1250, 17, true⟩
  let n : Nat := 4
  (n < 32) ∧ (s.lclk = true) ∧ ((s.timer n).running = true) ∧ (s.on Fld.TT_CTL_PERIODIC n = true) := by decide +kernel

theorem TimersRunAndExpire_4_met :
  let s : State := (die .run [at1 Fld.TT_CTL_EN 4 1, at1 Fld.TT_PERIOD 4 250]).setTimer 4 ⟨true, 1250, 0, false⟩
  let n : Nat := 4
  (n < 32) ∧ (s.lclk = true) ∧ ((s.timer n).running = true) ∧ (s.on Fld.TT_CTL_PERIODIC n = false) := by decide +kernel

theorem TimersRunAndExpire_5_met :
  let s : State := (die .run [at1 Fld.TT_CTL_EN 0 1]).setTimer 0 ⟨true, 1250, 0, false⟩
  let n : Nat := 0
  (n < 32) ∧ (s.lclk = true) := by decide +kernel

theorem CapturesStampAndPop_1_met :
  let s : State := (die .run [at1 Fld.CAP_CTL_EN 15 1, at1 Fld.CAP_CTL_KIND 15 2, at1 Fld.CAP_CTL_INDEX 15 95, at1 Fld.CAP_CTL_EDGE 15 2, at1 Fld.CAP_CTL_REF 15 7]).setTrk 7 { Tracker.init with state := .locked, t0 := 0, phi0 := 3, rate := 1 / 70000, epoch := 2 }
  let k : Nat := 15
  let kind : EdgeKind := .fall
  (k < 16) ∧ (s.lclk = true) ∧ (s.on Fld.CAP_CTL_EN k = true) ∧ (s.lcsInput (s.f Fld.CAP_CTL_KIND k) (s.f Fld.CAP_CTL_INDEX k) = true) ∧ (edgeMatches (s.f Fld.CAP_CTL_EDGE k) kind = true) ∧ ((s.capture k).length < 16) := by decide +kernel

theorem CapturesStampAndPop_2_met :
  let s : State := { (die .run [at1 Fld.CAP_CTL_EN 0 1, at1 Fld.CAP_CTL_KIND 0 1, at1 Fld.CAP_CTL_INDEX 0 255] : State) with dio := { Dio.init with vok := 128 } }.setCapture 0 (List.replicate 16 ⟨1, 0, 0, 0, 0⟩)
  let k : Nat := 0
  let kind : EdgeKind := .rise
  (k < 16) ∧ (s.lclk = true) ∧ (s.on Fld.CAP_CTL_EN k = true) ∧ (s.lcsInput (s.f Fld.CAP_CTL_KIND k) (s.f Fld.CAP_CTL_INDEX k) = true) ∧ (edgeMatches (s.f Fld.CAP_CTL_EDGE k) kind = true) ∧ (16 ≤ (s.capture k).length) := by decide +kernel

theorem CapturesStampAndPop_3_met :
  let s : State := (die .run []).setCapture 3 [⟨1, 0, 0, 0, 0⟩, ⟨2, 0, 0, 0, 0⟩]
  let k : Nat := 3
  let e : CapEntry := ⟨1, 0, 0, 0, 0⟩
  let rest : List CapEntry := [⟨2, 0, 0, 0, 0⟩]
  (k < 16) ∧ (s.lclk = true) ∧ (s.capture k = e :: rest) := by decide +kernel

theorem PllLockAndLoss_1_met :
  let s : State := { die .blank [] with lcs := { Longcase.init with time := 99 } }
  (s.lcs.pll = .waiting) ∧ (s.mode ≠ .reset) := by decide +kernel

theorem PllLockAndLoss_2_met :
  let s : State := die .run []
  (s.lcs.pll = .locked) := by decide +kernel

theorem PllLockAndLoss_3_met :
  let s : State := { die .bench [at1 Fld.LCS_STAT_PLL_SLIPS 0 255] with lcs := { Longcase.init with pll := .lost, time := 1001, smpq := some 3 } }
  (s.lcs.pll = .lost) := by decide +kernel

theorem FiringsAreBroadcastAndPerformed_1_met :
  let s : State := { die .run [at1 Fld.CG_CTL_EN 23 1, (Fld.CG_LISTEN_EN, 23, 3, 1), (Fld.CG_LISTEN_NUM, 23, 3, 9)] with lcs := { Longcase.init with pll := .locked, firings := [⟨5, false, 9, 0x483, 0, false, some 1, 0⟩] } }
  let r : FiringRec := ⟨5, false, 9, 0x483, 0, false, some 1, 0⟩
  let rest : List FiringRec := []
  let g : Nat := 23
  (s.lclk = true) ∧ (s.lcs.firings = r :: rest) ∧ (g < s.part.numCG) ∧ (s.cgObeys g r ≠ 0) ∧ (min (s.group g).queued (s.group g).inbox.length < 16) := by decide +kernel

theorem FiringsAreBroadcastAndPerformed_2_met :
  let s : State := { die .run [] with lcs := { Longcase.init with pll := .locked, actions := [⟨5, false, 9, 0x80, 0, false, some 1, 63⟩], pulsed := [(5, 62), (4, 63)] } }
  let r : FiringRec := ⟨5, false, 9, 0x80, 0, false, some 1, 63⟩
  let k : Nat := 23
  (s.lclk = true) ∧ (s.nextAction 7 = some r) ∧ ((r.tick, r.dest.bits 0 6) ∉ s.lcs.pulsed) ∧ (k < s.part.numCB) := by decide +kernel

theorem FiringsAreBroadcastAndPerformed_3_met :
  let s : State := { die .run [] with lcs := { Longcase.init with pll := .locked, actions := [⟨5, false, 9, 0x80, 0, false, some 1, 63⟩], pulsed := [(5, 63)] } }
  let r : FiringRec := ⟨5, false, 9, 0x80, 0, false, some 1, 63⟩
  (s.lclk = true) ∧ (s.nextAction 7 = some r) ∧ ((r.tick, r.dest.bits 0 6) ∈ s.lcs.pulsed) := by decide +kernel

theorem FiringsAreBroadcastAndPerformed_4_met :
  let s : State := ({ die .run [] with lcs := { Longcase.init with pll := .locked, actions := [⟨5, true, 9, 0x100, 0, false, none, 0x03FF1F00⟩] } } : State).setChan 1023 { Chan.init with alloc := true, db := 1 }
  let r : FiringRec := ⟨5, true, 9, 0x100, 0, false, none, 0x03FF1F00⟩
  (s.lclk = true) ∧ (s.nextAction 8 = some r) ∧ ((s.chan (r.dest.bits 16 10)).alloc = true) := by decide +kernel

theorem FiringsAreBroadcastAndPerformed_5_met :
  let s : State := { die .slumber [] with lcs := { Longcase.init with pll := .locked, actions := [⟨5, true, 9, 0x200, 0, false, none, 0⟩] }, pwr := { Power.init with stage := .asleep } }
  let r : FiringRec := ⟨5, true, 9, 0x200, 0, false, none, 0⟩
  (s.lclk = true) ∧ (s.standby = false) ∧ (s.nextAction 9 = some r) ∧ (s.mode.low = true) ∧ (s.pwr.stage = .asleep) := by decide +kernel

theorem FiringsAreBroadcastAndPerformed_6_met :
  let s : State := { die .run [] with lcs := { Longcase.init with pll := .locked, actions := [⟨5, false, 255, 0x400, 0, false, some 2, 0⟩] } }
  let r : FiringRec := ⟨5, false, 255, 0x400, 0, false, some 2, 0⟩
  (s.lclk = true) ∧ (s.nextAction 10 = some r) := by decide +kernel

theorem FiringsAreBroadcastAndPerformed_7_met :
  let s : State := { die .run [] with lcs := { Longcase.init with firings := [⟨5, false, 9, 0x483, 0, false, some 1, 0⟩] } }
  (s.lclk = false) := by decide +kernel

theorem FiringsAreBroadcastAndPerformed_8_met :
  let s : State := { die .run [] with lcs := { Longcase.init with firings := [⟨5, false, 9, 0x483, 0, false, some 1, 0⟩] } }
  (s.lclk = false) := by decide +kernel

theorem FiringsAreBroadcastAndPerformed_9_met :
  let s : State := { die .run [] with lcs := { Longcase.init with firings := [⟨5, false, 9, 0x483, 0, false, some 1, 0⟩] } }
  (s.lclk = false) := by decide +kernel

theorem FiringsAreBroadcastAndPerformed_10_met :
  let s : State := { die .run [] with lcs := { Longcase.init with firings := [⟨5, false, 9, 0x483, 0, false, some 1, 0⟩] } }
  (s.lclk = false) := by decide +kernel

theorem FiringsAreBroadcastAndPerformed_11_met :
  let s : State := { die .run [] with lcs := { Longcase.init with firings := [⟨5, false, 9, 0x483, 0, false, some 1, 0⟩] } }
  (s.lclk = false) := by decide +kernel

theorem MatrixWritesStoreOrRefuse_1_met :
  let s : State := die .blank []
  let a : Nat := 0xC7F40 + 0x4
  let c : Nat := 127
  let w : Word := 0xFFFFFFFF
  (s.underCheck a = false) ∧ (matrixReg a = some (.lt c)) ∧ (c < s.part.numAC) ∧ (s.mode.checksMatrix = false ∨ refusedNet s (s.setWord a (ltStored w)) a = none) := by decide +kernel

theorem MatrixWritesStoreOrRefuse_2_met :
  let s : State := die .load []
  let a : Nat := 0xCC15C
  let g : Nat := 23
  let w : Word := 0xC0B04081
  (s.underCheck a = false) ∧ (matrixReg a = some (.cgIn g)) ∧ (g < s.part.numCG) ∧ (s.mode.checksMatrix = false ∨ refusedNet s (s.applyMatrix a (.cgIn g) w) a = none) := by decide +kernel

theorem MatrixWritesStoreOrRefuse_3_met :
  let s : State := die .verify []
  let a : Nat := 0xCC25C
  let d : Nat := 23
  let w : Word := 0xFFFFFFFF
  (s.underCheck a = false) ∧ (matrixReg a = some (.daOut d)) ∧ (d < s.part.numDA) ∧ (s.mode.checksMatrix = false ∨ refusedNet s (s.applyMatrix a (.daOut d) w) a = none) := by decide +kernel

theorem MatrixWritesStoreOrRefuse_4_met :
  let s : State := die .blank []
  let a : Nat := 0xA5F00
  let n : Nat := 95
  let w : Word := 0x10F
  (s.underCheck a = false) ∧ (matrixReg a = some (.apCtl n)) ∧ (n < s.part.numAP) ∧ (s.mode.checksMatrix = false ∨ refusedNet s (s.applyMatrix a (.apCtl n) w) a = none) ∧ (s.on Fld.WM_CTL_EN n = false) ∧ (w.bit 3 = true) ∧ (w.bit 4 = false) ∧ (4 ≤ w.bits 0 3) := by decide +kernel

theorem MatrixWritesStoreOrRefuse_5_met :
  let s : State := (die .blank []).setCell 191 { Cell.init with integ := 3 }
  let a : Nat := 0xCBF00
  let c : Nat := 191
  let w : Word := 0x405
  (s.underCheck a = false) ∧ (matrixReg a = some (.acCtl c)) ∧ (c < s.part.numAC) ∧ (s.mode.checksMatrix = false ∨ refusedNet s (s.applyMatrix a (.acCtl c) w) a = none) ∧ (w.bits 0 4 = 5) ∧ (w.bit 10 = true) := by decide +kernel

theorem MatrixWritesStoreOrRefuse_6_met :
  let s : State := (die .run [at1 Fld.AP_CTL_EN 0 1, at1 Fld.AC_CTL_FUNC 0 1]).setWord 0xC0040 0x1
  let a : Nat := 0xC0040
  let r : MatrixReg := .lt 0
  let w : Word := 0x11
  (s.underCheck a = false) ∧ (matrixReg a = some r) ∧ (hasMatrix s.part r = true) ∧ (s.mode.checksMatrix = true) ∧ (refusedNet s (s.applyMatrix a r w) a ≠ none) := by decide +kernel

theorem MatrixWritesStoreOrRefuse_7_met :
  let s : State := die .run []
  let a : Nat := 0xA5F00
  let n : Nat := 95
  let w : Word := 0x116
  (s.underCheck a = false) ∧ (matrixReg a = some (.apCtl n)) ∧ (n < s.part.numAP) ∧ (s.mode.checksMatrix = false ∨ refusedNet s (s.applyMatrix a (.apCtl n) w) a = none) ∧ (s.on Fld.WM_CTL_EN n = false) := by decide +kernel

theorem AutoZeroCycle_1_met :
  let s : State := (die .run []).setCell 191 { Cell.init with az := .trimmed }
  let c : Nat := 191
  (c < s.part.numAC) ∧ ((s.cell c).az = .trimmed) ∧ (s.azClock c = true) := by decide +kernel

theorem AutoZeroCycle_2_met :
  let s : State := (die .run []).setCell 191 { Cell.init with az := .trimming }
  let c : Nat := 191
  (c < s.part.numAC) ∧ ((s.cell c).az = .trimming) ∧ (s.azClock c = true) := by decide +kernel

theorem AutoZeroCycle_3_met :
  let s : State := (die .run [at1 Fld.AC_CTL_FUNC 5 7, at1 Fld.AC_AZCNT_SWAPS 5 65535]).setCell 5 { Cell.init with az := .parallel }
  let c : Nat := 5
  (c < s.part.numAC) ∧ ((s.cell c).az = .parallel) ∧ (s.f Fld.AC_CTL_FUNC c = 7) ∧ (s.azRuns c = true) := by decide +kernel

theorem AutoZeroCycle_4_met :
  let s : State := (die .run []).setCell 5 { Cell.init with az := .trimming, azLate := true }
  let c : Nat := 5
  let tries : List (Int × Int) := [(9, -9), (-8, -7)]
  let v : Int := -7
  (c < s.part.numAC) ∧ ((s.cell c).az = .trimming) ∧ (s.azClock c = true) ∧ (calStep 1 tries = some v) := by decide +kernel

theorem AutoZeroCycle_5_met :
  let s : State := (die .run []).setCell 5 { Cell.init with az := .trimming }
  let c : Nat := 5
  let tries : List (Int × Int) := [(9, -9), (8, 0), (5, 7), (0, 2)]
  (c < s.part.numAC) ∧ ((s.cell c).az = .trimming) ∧ (s.azClock c = true) ∧ (calStep 1 tries = none) ∧ (4 ≤ tries.length) := by decide +kernel

theorem AutoZeroCycle_6_met :
  let s : State := (die .run [at1 Fld.AC_CTL_FUNC 5 5]).setCell 5 { Cell.init with integ := 1 / 3 }
  let c : Nat := 5
  (c < s.part.numAC) ∧ (s.f Fld.AC_CTL_FUNC c = 5) := by decide +kernel

theorem AutoZeroCycle_7_met :
  let s : State := (die .run [at1 Fld.AC_CTL_FUNC 5 6]).setCell 5 { Cell.init with peakMax := 1, peakMin := -1 }
  let c : Nat := 5
  (c < s.part.numAC) ∧ (s.f Fld.AC_CTL_FUNC c = 6) := by decide +kernel

theorem OverloadAndSaturation_1_met :
  let s : State := die .run [at1 Fld.AP_CTL_EN 7 1, at1 Fld.AP_CTL_RANGE 7 2]
  let n : Nat := 7
  let v : Rat := -1100001 / 1000000
  (n < s.part.numAP) ∧ (s.portActive n = true) ∧ (s.on Fld.AP_CTL_DIR n = false) ∧ (11 * 2 ^ s.f Fld.AP_CTL_RANGE n / 40 < v.abs) := by decide +kernel

theorem OverloadAndSaturation_2_met :
  let s : State := die .run [at1 Fld.AP_CTL_EN 7 1, at1 Fld.AP_CTL_RANGE 7 2]
  let n : Nat := 7
  let v : Rat := -11 / 10
  (n < s.part.numAP) ∧ (v.abs ≤ 11 * 2 ^ s.f Fld.AP_CTL_RANGE n / 40) := by decide +kernel

theorem OverloadAndSaturation_3_met :
  let s : State := die .run [at1 Fld.AC_CTL_FUNC 9 1]
  let c : Nat := 9
  (c < s.part.numAC) ∧ (s.mode ≠ .slumber) ∧ (s.f Fld.AC_CTL_FUNC c ≠ 0) := by decide +kernel

theorem OverloadAndSaturation_4_met :
  let s : State := { (die .run [at1 Fld.AC_CTL_FUNC 0 1, at1 Fld.AP_CTL_EN 0 1, at1 Fld.AP_CTL_RANGE 0 2, (Fld.AP_ITRIM_GAIN, 0, 2, 511)]).setWord 0xC0040 5 with apPins := [(0, 2)], cells := [(0, { Cell.init with nullA := some 0 })] }
  let c : Nat := 0
  (c < s.part.numAC) ∧ (s.mode ≠ .slumber) ∧ (s.f Fld.AC_CTL_FUNC c = 1) ∧ (11 / 10 < (s.cellIn c 0).abs) := by decide +kernel

theorem GroupEnableDisableAndCounts_1_met :
  let s : State := (die .run [at1 Fld.CG_CTL_MODE 23 2]).setGroup 23 { Group.init with core := { CgCore.init with conv := 8, emit := 8 }, elog := [⟨1, 2, 3⟩] }
  let g : Nat := 23
  (g < s.part.numCG) ∧ (s.sclk g = true) ∧ (s.on Fld.CG_CTL_EN g = false) := by decide +kernel

theorem GroupEnableDisableAndCounts_2_met :
  let s : State := (die .run [at1 Fld.CG_CTL_EN 3 1]).setGroup 3 { Group.init with core := { CgCore.init with seq := { Seq.init with st := .dwell, dwellLeft := some 7 }, conv := 8, emit := 0, held := [⟨1, 14, 0, 1, false, [[]], false, [false], 9, false⟩, ⟨2, 14, 0, 1, false, [[]], false, [false], 9, false⟩] } }
  let g : Nat := 3
  (g < s.part.numCG) ∧ (s.sclk g = true) ∧ (s.on Fld.CG_CTL_EN g = true) ∧ ((s.group g).base = none) := by decide +kernel

theorem GroupEnableDisableAndCounts_3_met :
  let s : State := (die .run []).setGroup 3 { Group.init with core := { CgCore.init with conv := 2 ^ 40 + 12, emit := 2 ^ 33 + 4, sdisc := 4, pdisc := 4 } }
  let g : Nat := 3
  (g < s.part.numCG) ∧ (s.sclk g = true) := by decide +kernel

theorem GroupEnableDisableAndCounts_4_met :
  let s : State := (die .run []).setGroup 3 { Group.init with elog := [⟨1, 2, 3⟩, ⟨2, 4, 5⟩] }
  let g : Nat := 3
  let r : ElogRec := ⟨1, 2, 3⟩
  let rest : List ElogRec := [⟨2, 4, 5⟩]
  (g < s.part.numCG) ∧ (s.sclk g = true) ∧ ((s.group g).elog = r :: rest) := by decide +kernel

theorem SequencerRequests_1_met :
  let s : State := die .run [at1 Fld.CG_CTL_EN 23 1, at1 Fld.CG_SEQCTL_LAST 23 15]
  let g : Nat := 23
  (g < s.part.numCG) ∧ (s.sclk g = true) ∧ (s.on Fld.CG_CTL_EN g = true) ∧ (s.mode.converts = true) ∧ ((s.group g).base = none) ∧ ((s.group g).core.seq.st = .idle) ∧ (s.on Fld.CG_SEQCTL_TRIG g = false) ∧ (s.on Fld.CG_SEQCTL_STOP g = false) := by decide +kernel

theorem SequencerRequests_2_met :
  let s : State := die .nap [at1 Fld.CG_CTL_EN 2 1, at1 Fld.CG_SEQCTL_TRIG 2 1]
  let g : Nat := 2
  (g < s.part.numCG) ∧ (s.sclk g = true) ∧ (s.on Fld.CG_CTL_EN g = true) ∧ ((s.group g).base = none) ∧ ((s.group g).core.seq.st = .idle) ∧ (s.on Fld.CG_SEQCTL_TRIG g = true) ∧ (s.on Fld.CG_SEQCTL_STOP g = false) := by decide +kernel

theorem SequencerRequests_3_met :
  let s : State := (die .run [at1 Fld.CG_CTL_EN 2 1]).setGroup 2 { Group.init with core := { CgCore.init with seq := { Seq.init with st := .settle, fresh := true }, conv := 4, held := [⟨1, 14, 0, 1, false, [[]], false, [false], 9, true⟩] } }
  let g : Nat := 2
  (g < s.part.numCG) ∧ (s.sclk g = true) ∧ ((s.group g).base = none) ∧ (s.on Fld.CG_SEQCTL_GO g = false) ∧ ((s.group g).core.seq.st = .settle) ∧ ((s.group g).core.seq.fresh = true) := by decide +kernel

theorem SequencerRequests_4_met :
  let s : State := (die .run [at1 Fld.CG_CTL_EN 2 1]).setGroup 2 { Group.init with core := { CgCore.init with seq := { Seq.init with st := .armed } }, inbox := [⟨5, false, 3, 3, 0, false, none, 0⟩] }
  let g : Nat := 2
  let r : FiringRec := ⟨5, false, 3, 3, 0, false, none, 0⟩
  (g < s.part.numCG) ∧ (headBit 0 (s.group g).inbox = some r) ∧ (s.on Fld.CG_CTL_EN g = true) ∧ (s.mode.converts = true) ∧ ((s.group g).base = none) ∧ ((s.group g).core.seq.st = .armed) := by decide +kernel

theorem SequencerRequests_5_met :
  let s : State := (die .run [at1 Fld.CG_CTL_EN 2 1]).setGroup 2 { Group.init with core := { CgCore.init with seq := { Seq.init with st := .dwell, entry := 7, dwellLeft := none }, conv := 4, held := [⟨1, 14, 0, 1, false, [[]], false, [false], 9, false⟩] }, inbox := [⟨5, false, 3, 2, 0, false, none, 0⟩] }
  let g : Nat := 2
  let r : FiringRec := ⟨5, false, 3, 2, 0, false, none, 0⟩
  (g < s.part.numCG) ∧ (headBit 1 (s.group g).inbox = some r) ∧ (s.on Fld.CG_CTL_EN g = true) ∧ ((s.group g).base = none) ∧ ((s.group g).core.seq.st = .dwell) ∧ ((s.group g).core.seq.dwellLeft ≠ some 0) := by decide +kernel

theorem SequencerRequests_6_met :
  let s : State := (die .nap [at1 Fld.CG_CTL_EN 2 1]).setGroup 2 { Group.init with core := { CgCore.init with seq := { Seq.init with st := .paused } }, inbox := [⟨5, false, 3, 2, 0, false, none, 0⟩] }
  let g : Nat := 2
  let r : FiringRec := ⟨5, false, 3, 2, 0, false, none, 0⟩
  (g < s.part.numCG) ∧ (headBit 1 (s.group g).inbox = some r) ∧ (s.on Fld.CG_CTL_EN g = true) ∧ ((s.group g).base = none) ∧ ((s.group g).core.seq.st ∈ [.idle, .armed, .paused]) := by decide +kernel

theorem SequencerRequests_7_met :
  let s : State := ((die .run [at1 Fld.CG_CTL_EN 2 1, at1 Fld.CG_FTRIG_EN 2 1, at1 Fld.CG_FTRIG_LINE 2 47]).setGroup 2 { Group.init with core := { CgCore.init with seq := { Seq.init with st := .dwell, entry := 3, dwellLeft := some 2 } } }).setFrqX 47 { PulseX.init with got := 2 }
  let f : Nat := 47
  let g : Nat := 2
  (f < 48) ∧ (g < s.part.numCG) ∧ (0 < (s.frqX f).got) ∧ (s.on Fld.CG_CTL_EN g = true) ∧ (s.on Fld.CG_FTRIG_EN g = true) ∧ (s.f Fld.CG_FTRIG_LINE g = f) ∧ ((s.group g).base = none) ∧ ((s.group g).core.seq.st = .dwell) ∧ ((s.group g).core.seq.dwellLeft ≠ some 0) := by decide +kernel

theorem SettleAndDwellEnds_1_met :
  let s : State := (die .run []).setGroup 2 { Group.init with core := { CgCore.init with seq := { Seq.init with st := .settle } } }
  let g : Nat := 2
  (g < s.part.numCG) ∧ ((s.group g).core.seq.st = .settle) ∧ ((s.group g).core.seq.fresh = false) ∧ ((s.group g).core.seq.settleLeft = 0) ∧ ((s.group g).base = none) := by decide +kernel

theorem SettleAndDwellEnds_2_met :
  let s : State := (die .run [at1 Fld.CG_SEQCTL_LAST 2 4]).setGroup 2 { Group.init with core := { CgCore.init with seq := { Seq.init with st := .dwell, entry := 3, next := 4, dwellLeft := some 0, eirq := true } } }
  let g : Nat := 2
  (g < s.part.numCG) ∧ ((s.group g).core.seq.st = .dwell) ∧ ((s.group g).core.seq.dwellLeft = some 0) := by decide +kernel

theorem SettleAndDwellEnds_3_met :
  let s : State := (die .run [at1 Fld.CG_SEQCTL_LAST 2 3]).setGroup 2 { Group.init with core := { CgCore.init with seq := { Seq.init with st := .udwell, entry := 16, resume := 2, dwellLeft := some 0 } } }
  let g : Nat := 2
  (g < s.part.numCG) ∧ ((s.group g).core.seq.st = .udwell) ∧ ((s.group g).core.seq.dwellLeft = some 0) := by decide +kernel

theorem ConversionBeatCounts_1_met :
  let s : State := (die .run [at1 Fld.CG_CTL_EN 2 1]).setGroup 2 { Group.init with core := { CgCore.init with seq := { Seq.init with st := .settle, settleLeft := 1 } } }
  let g : Nat := 2
  let raw : List (List Int) := [[1, 2, 3, 4], [1, 2, 3, 4], [1, 2, 3, 4], [1, 2, 3, 4]]
  (g < s.part.numCG) ∧ (s.sclk g = true) ∧ (raw.length = 4) ∧ (raw.all (·.length = 4) = true) ∧ (s.on Fld.CG_CTL_EN g = true) ∧ (s.mode.converts = true) ∧ ((s.group g).rot.overlap = none) ∧ ((s.group g).core.seq.st = .settle) ∧ ((s.group g).core.seq.fresh = false) ∧ ((s.group g).core.seq.settleLeft ≠ 0) ∧ ((s.group g).core.held = []) := by decide +kernel

theorem ConversionBeatCounts_2_met :
  let s : State := (die .doze [at1 Fld.CG_CTL_EN 2 1, at1 Fld.CG_CTL_MODE 2 1]).setGroup 2 { Group.init with core := { CgCore.init with seq := { Seq.init with st := .dwell, dwellLeft := some 2 } } }
  let g : Nat := 2
  let m : Nat := 0
  let raw : List (List Int) := [[1, 2, 3, 4], [1, 2, 3, 4], [1, 2, 3, 4], [1, 2, 3, 4]]
  (g < s.part.numCG) ∧ (s.sclk g = true) ∧ (raw.length = 4) ∧ (raw.all (·.length = 4) = true) ∧ (s.on Fld.CG_CTL_EN g = true) ∧ (s.mode.converts = true) ∧ ((s.group g).rot.overlap = none) ∧ ((s.group g).core.seq.st = .dwell) ∧ ((s.group g).core.seq.fresh = false) ∧ ((s.group g).core.seq.empty = false) ∧ ((s.group g).core.seq.dwellLeft = some (m + 2)) ∧ ((s.group g).core.held = []) := by decide +kernel

theorem ConversionBeatCounts_3_met :
  let s : State := (die .run [at1 Fld.CG_CTL_EN 2 1, at1 Fld.CG_SEQCTL_LAST 2 3]).setGroup 2 { Group.init with core := { CgCore.init with seq := { Seq.init with st := .dwell, entry := 3, dwellLeft := some 1, eirq := true } } }
  let g : Nat := 2
  let raw : List (List Int) := [[1, 2, 3, 4], [1, 2, 3, 4], [1, 2, 3, 4], [1, 2, 3, 4]]
  (g < s.part.numCG) ∧ (s.sclk g = true) ∧ (raw.length = 4) ∧ (raw.all (·.length = 4) = true) ∧ (s.on Fld.CG_CTL_EN g = true) ∧ (s.mode.converts = true) ∧ ((s.group g).rot.overlap = none) ∧ ((s.group g).core.seq.st = .dwell) ∧ ((s.group g).core.seq.fresh = false) ∧ ((s.group g).core.seq.empty = false) ∧ ((s.group g).core.seq.dwellLeft = some 1) ∧ ((s.group g).core.held = []) := by decide +kernel

theorem ConversionBeatCounts_4_met :
  let s : State := (die .run []).setGroup 2 { Group.init with core := { CgCore.init with conv := 4, held := [⟨1, 14, 0, 1, true, [[⟨5, true, 200, false⟩]], false, [false], 9, true⟩] }, beat := 14 }
  let g : Nat := 2
  let raw : List (List Int) := [[1, 2, 3, 4], [1, 2, 3, 4], [1, 2, 3, 4], [1, 2, 3, 4]]
  let h : HeldBeat := ⟨1, 14, 0, 1, true, [[⟨5, true, 200, false⟩]], false, [false], 9, true⟩
  (g < s.part.numCG) ∧ (s.sclk g = true) ∧ (raw.length = 4) ∧ (raw.all (·.length = 4) = true) ∧ ((s.group g).rot.overlap = none) ∧ ((s.group g).core.seq.st = .idle) ∧ ((s.group g).core.seq.fresh = false) ∧ ((s.group g).core.held = [h]) ∧ (h.done = true) ∧ (h.beat + h.lat ≤ (s.group g).beat + 1) := by decide +kernel

theorem MarkWindowAndReference_1_met :
  let s : State := (die .run [at1 Fld.CG_CTL_EN 2 1, at1 Fld.CG_CTL_MODE 2 2, at1 Fld.LCS_CTL_CLKSRC 0 2, at1 Fld.CG_EVCNT_MARK_LOST 2 253]).setGroup 2 { Group.init with inbox := [⟨1000, false, 3, 4, 0, false, none, 0⟩] }
  let g : Nat := 2
  let r : FiringRec := ⟨1000, false, 3, 4, 0, false, none, 0⟩
  (g < s.part.numCG) ∧ (headBit 2 (s.group g).inbox = some r) ∧ (s.on Fld.CG_CTL_EN g = true) ∧ (s.samplePos r.instant = none) := by decide +kernel

theorem MarkWindowAndReference_2_met :
  let s : State := (die .run [at1 Fld.CG_CTL_EN 2 1]).setGroup 2 { Group.init with inbox := [⟨1000, false, 3, 4, 0, false, none, 0⟩] }
  let g : Nat := 2
  let r : FiringRec := ⟨1000, false, 3, 4, 0, false, none, 0⟩
  let p : Rat := 800
  (g < s.part.numCG) ∧ (headBit 2 (s.group g).inbox = some r) ∧ (s.on Fld.CG_CTL_EN g = true) ∧ (s.samplePos r.instant = some p) ∧ ((s.group g).lastEdge = none) := by decide +kernel

theorem MarkWindowAndReference_3_met :
  let s : State := (die .run []).setGroup 2 { Group.init with cmps := [WinCmp.init, WinCmp.init, WinCmp.init, ⟨false, 0, some (true, -5)⟩] }
  let g : Nat := 2
  let l : Nat := 3
  let w : WinCmp := ⟨false, 0, some (true, -5)⟩
  let side : Bool := true
  let code : Int := -5
  (g < s.part.numCG) ∧ (l < 4) ∧ ((s.group g).cmps[l]? = some w) ∧ (w.fired = some (side, code)) := by decide +kernel

theorem MarkWindowAndReference_4_met :
  let s : State := die .run []
  let g : Nat := 2
  (g < s.part.numCG) ∧ ((s.sclk g || s.settling) = true) ∧ (s.on Fld.CG_STAT_REF_FAULT g = false) ∧ (s.on Fld.CG_STAT_REF_SETTLED g = false) := by decide +kernel

theorem MarkWindowAndReference_5_met :
  let s : State := die .run [at1 Fld.CG_REF_SEL 23 1, at1 Fld.CG_STAT_REF_SETTLED 23 1]
  let q : Nat := 3
  let g : Nat := 23
  (q < s.part.numCG / 6) ∧ (g / 6 = q) ∧ (s.f Fld.CG_REF_SEL g = 1) := by decide +kernel

theorem MarkWindowAndReference_6_met :
  let s : State := die .run [at1 Fld.CG_STAT_REF_FAULT 6 1]
  let q : Nat := 1
  let g : Nat := 6
  (q < s.part.numCG / 6) ∧ (g / 6 = q) := by decide +kernel

theorem RotationsAndHandovers_1_met :
  let s : State := die .run [at1 Fld.CG_ROT_MAP_P0 23 2, (Fld.CG_SL_QUAL_SAT, 23, 2, 1)]
  let g : Nat := 23
  let sl : Nat := 2
  (g < s.part.numCG) ∧ (s.bur.running = true) ∧ (s.on Fld.TWN_STAT_PAIRED = false) ∧ (s.rotst g = 0) ∧ (((List.range 5).find? fun k => (s.serving g).contains k && s.on Fld.CG_SL_QUAL_SAT g k) = some sl) := by decide +kernel

theorem RotationsAndHandovers_2_met :
  let s : State := (die .run [at1 Fld.CG_ROT_STAT_ROTST 5 1, at1 Fld.CG_CTL_EN 5 1, at1 Fld.CG_STAT_REF_SETTLED 5 1]).setRot 5 { Rotation.init with chosen := some 2 }
  let g : Nat := 5
  let tick : Nat := 2000
  let p : Nat := 2
  let sl : Nat := 2
  (g < s.part.numCG) ∧ (s.rotst g = 1) ∧ (s.on Fld.CG_CTL_EN g = true) ∧ (s.on Fld.CG_STAT_REF_SETTLED g = true) ∧ (s.mode.converts = true) ∧ (s.bur.running = true) ∧ ((s.rot g).notBefore ≤ (s.atTick tick).lcs.time) ∧ ((s.rot g).chosen = some sl) ∧ (((List.range 4).find? fun k => s.f (rotPos k) g == sl) = some p) := by decide +kernel

theorem RotationsAndHandovers_3_met :
  let s : State := (die .run [at1 Fld.CG_ROT_HOTOL_OFS_TOL 5 4, at1 Fld.CG_ROT_HOTOL_RMS_TOL 5 64]).setRot 5 { Rotation.init with overlap := some ⟨2, 4, 2, 1024, 1000, 250, 1000, 24⟩ }
  let g : Nat := 5
  let o : Overlap := ⟨2, 4, 2, 1024, 1000, 250, 1000, 24⟩
  (g < s.part.numCG) ∧ ((s.rot g).overlap = some o) ∧ (1024 ≤ o.taken) ∧ (o.pos < 4) ∧ (o.slIn < 5) ∧ (o.slOut < 5) ∧ (16 * o.a.natAbs ≤ s.f Fld.CG_ROT_HOTOL_OFS_TOL g * o.n) ∧ (256 * ((o.n : Int) * o.b - o.a * o.a) ≤ (s.f Fld.CG_ROT_HOTOL_RMS_TOL g : Int) ^ 2 * (o.n : Int) ^ 2) := by decide +kernel

theorem RotationsAndHandovers_4_met :
  let s : State := (die .run [at1 Fld.CG_ROT_HOTOL_OFS_TOL 5 4, at1 Fld.CG_ROT_STAT_REJRUN 5 1]).setRot 5 { Rotation.init with overlap := some ⟨2, 4, 2, 1024, 1000, 251, 1000, 24⟩ }
  let g : Nat := 5
  let o : Overlap := ⟨2, 4, 2, 1024, 1000, 251, 1000, 24⟩
  (g < s.part.numCG) ∧ ((s.rot g).overlap = some o) ∧ (1024 ≤ o.taken) ∧ (o.slIn < 5) ∧ (s.f Fld.CG_ROT_HOTOL_OFS_TOL g * o.n < 16 * o.a.natAbs) ∧ (s.f Fld.CG_ROT_STAT_REJRUN g < 2) := by decide +kernel

theorem RotationsAndHandovers_5_met :
  let s : State := (die .run [at1 Fld.CG_ROT_HOTOL_OFS_TOL 5 4, at1 Fld.CG_ROT_STAT_REJRUN 5 2]).setRot 5 { Rotation.init with overlap := some ⟨2, 4, 2, 1024, 1000, 251, 1000, 24⟩ }
  let g : Nat := 5
  let o : Overlap := ⟨2, 4, 2, 1024, 1000, 251, 1000, 24⟩
  (g < s.part.numCG) ∧ ((s.rot g).overlap = some o) ∧ (1024 ≤ o.taken) ∧ (o.slIn < 5) ∧ (s.f Fld.CG_ROT_HOTOL_OFS_TOL g * o.n < 16 * o.a.natAbs) ∧ (2 ≤ s.f Fld.CG_ROT_STAT_REJRUN g) := by decide +kernel

theorem SliceCalibrationAndEstimator_1_met :
  let s : State := (die .run [at1 Fld.CG_ROT_STAT_ROTST 5 3, at1 Fld.CG_ROT_QCFG_RES_LIM 5 32]).setRot 5 { Rotation.init with calib := some 2 }
  let g : Nat := 5
  let sl : Nat := 2
  let res : Nat := 21
  let ofs : List (Int × Int) := [(9, 0), (3, 5)]
  let gain : List (Int × Int) := [(7, 3)]
  let skew : List (Int × Int) := [(100, 101)]
  let rofs : List (Int × Int) := [(-4, -1)]
  let rgain : List (Int × Int) := [(1, 1)]
  let vo : Int := 4
  let vg : Int := 5
  let vk : Int := 100
  let ro : Int := -2
  let rg : Int := 1
  (g < s.part.numCG) ∧ ((s.rot g).calib = some sl) ∧ (sl < 5) ∧ (s.calibRuns g = true) ∧ ((s.busUpdate (g / 6)).busHolder g = some g) ∧ (calStep 2 ofs = some vo) ∧ (calStep 4 gain = some vg) ∧ (calStep 1 skew = some vk) ∧ (calStep 4 rofs = some ro) ∧ (calStep 4 rgain = some rg) ∧ (-2048 < vo) ∧ (vo < 2047) ∧ (-2048 < vg) ∧ (vg < 2047) ∧ (0 < vk) ∧ (vk < 255) ∧ (res ≤ s.f Fld.CG_ROT_QCFG_RES_LIM g) := by decide +kernel

theorem SliceCalibrationAndEstimator_2_met :
  let s : State := (die .run [at1 Fld.CG_ROT_STAT_ROTST 5 3, at1 Fld.CG_ROT_QCFG_RES_LIM 5 32]).setRot 5 { Rotation.init with calib := some 2 }
  let g : Nat := 5
  let sl : Nat := 2
  let res : Nat := 33
  (g < s.part.numCG) ∧ ((s.rot g).calib = some sl) ∧ (s.calibRuns g = true) ∧ ((s.busUpdate (g / 6)).busHolder g = some g) ∧ (s.f Fld.CG_ROT_QCFG_RES_LIM g < res) ∧ ((s.rot g).failedOnce = false) := by decide +kernel

theorem SliceCalibrationAndEstimator_3_met :
  let s : State := (die .run [at1 Fld.CG_ROT_STAT_ROTST 5 3, at1 Fld.CG_ROT_QCFG_RES_LIM 5 32]).setRot 5 { Rotation.init with calib := some 2, failedOnce := true }
  let g : Nat := 5
  let sl : Nat := 2
  let res : Nat := 33
  (g < s.part.numCG) ∧ ((s.rot g).calib = some sl) ∧ (sl < 5) ∧ (s.calibRuns g = true) ∧ ((s.busUpdate (g / 6)).busHolder g = some g) ∧ (s.f Fld.CG_ROT_QCFG_RES_LIM g < res) ∧ ((s.rot g).failedOnce = true) := by decide +kernel

theorem SliceCalibrationAndEstimator_4_met :
  let s : State := (die .run [at1 Fld.CG_ROT_CTL_EST_EN 5 1, at1 Fld.CG_ROT_MAP_P1 5 1, at1 Fld.CG_ROT_MAP_P2 5 2, at1 Fld.CG_ROT_MAP_P3 5 3]).setRot 5 { Rotation.init with done := some [⟨0, 1, 0⟩, ⟨65536, 9, 7⟩, ⟨-3, 1, 0⟩, ⟨-65536, 3, 1⟩] }
  let g : Nat := 5
  let p : Nat := 3
  let stats : List PosStat := [⟨0, 1, 0⟩, ⟨65536, 9, 7⟩, ⟨-3, 1, 0⟩, ⟨-65536, 3, 1⟩]
  (g < s.part.numCG) ∧ (s.on Fld.TWN_STAT_PAIRED = false) ∧ ((s.rot g).done = some stats) ∧ (s.on Fld.CG_ROT_CTL_EST_EN g = true) ∧ (s.f Fld.CG_CTL_MODE g = 0) ∧ ((s.serving g).Nodup) ∧ ((s.serving g).all (· < 5) = true) ∧ (p < 4) := by decide +kernel

theorem SliceCalibrationAndEstimator_5_met :
  let s : State := (die .run [at1 Fld.CG_CTL_MODE 5 1, at1 Fld.CG_ROT_CTL_EST_EN 5 1, at1 Fld.CG_ROT_MAP_P1 5 1, at1 Fld.CG_ROT_MAP_P2 5 2, at1 Fld.CG_ROT_MAP_P3 5 3]).setRot 5 { Rotation.init with done := some [⟨0, 1, 0⟩, ⟨65536, 9, 7⟩, ⟨-3, 1, 0⟩, ⟨-6553600, 3, 1⟩] }
  let g : Nat := 5
  let p : Nat := 3
  let stats : List PosStat := [⟨0, 1, 0⟩, ⟨65536, 9, 7⟩, ⟨-3, 1, 0⟩, ⟨-6553600, 3, 1⟩]
  (g < s.part.numCG) ∧ (s.on Fld.TWN_STAT_PAIRED = false) ∧ ((s.rot g).done = some stats) ∧ (s.on Fld.CG_ROT_CTL_EST_EN g = true) ∧ (s.f Fld.CG_CTL_MODE g = 1) ∧ ((s.serving g).Nodup) ∧ ((s.serving g).all (· < 5) = true) ∧ (p < 4) := by decide +kernel

theorem SliceCalibrationAndEstimator_6_met :
  let s : State := ((die .run [at1 Fld.CG_CTL_EN 2 1, at1 Fld.CG_ROT_CTL_EST_EN 2 1]).setGroup 2 { Group.init with core := { CgCore.init with seq := { Seq.init with st := .dwell, dwellLeft := some 2 } }, rot := { Rotation.init with block := 65535 } })
  let g : Nat := 2
  let m : Nat := 1
  let raw : List (List Int) := [[1, 2, 3, 4], [1, 2, 3, 4], [1, 2, 3, 4], [1, 2, 3, 4]]
  (g < s.part.numCG) ∧ (s.sclk g = true) ∧ (raw.length = 4) ∧ (raw.all (·.length = 4) = true) ∧ (s.on Fld.CG_CTL_EN g = true) ∧ (s.mode.converts = true) ∧ ((s.rot g).overlap = none) ∧ ((s.group g).core.seq.st = .dwell) ∧ ((s.group g).core.seq.fresh = false) ∧ ((s.group g).core.seq.dwellLeft = some (m + 1)) ∧ (s.on Fld.CG_ROT_CTL_EST_EN g = true) ∧ (s.f Fld.CG_CTL_MODE g ≠ 2) := by decide +kernel

theorem ChainsStartStopAndFade_1_met :
  let s : State := (die .run [at1 Fld.FC_SRC_SRC 47 0x105F, at1 Fld.FC_CIC_D 47 8, at1 Fld.FC_CIC_N 47 3, at1 Fld.FC_FIR_NTAP_M1 47 3]).setChain 47 { Chain.init with store := [(4095, 7)], comp := 9 }
  let n : Nat := 47
  (n < s.part.numFC) ∧ (s.sclk (s.fcGroup n (s.f Fld.FC_SRC_SRC n)) = true) ∧ (s.on Fld.FC_CTL_EN n = false) ∧ (s.bankKind n (s.f Fld.FC_FIR_BANK n) = 0) ∧ (s.symmetric n (s.f Fld.FC_FIR_BANK n) = true) := by decide +kernel

theorem ChainsStartStopAndFade_2_met :
  let s : State := (die .run [at1 Fld.FC_CTL_EN 47 1, at1 Fld.FC_FIR_BANK 47 1, at1 Fld.FC_STAT_XFADE 47 1]).setChain 47 { Chain.init with fade := some (1, 3), comp := 9 }
  let n : Nat := 47
  (n < s.part.numFC) ∧ (s.sclk (s.fcGroup n (s.f Fld.FC_SRC_SRC n)) = true) ∧ (s.on Fld.FC_CTL_EN n = true) := by decide +kernel

theorem ChainsStartStopAndFade_3_met :
  let s : State := die .run []
  let n : Nat := 0
  let b : Nat := 1
  (n < s.part.numFC) ∧ (b < 2) ∧ (s.sclk (s.fcGroup n (s.f Fld.FC_SRC_SRC n)) = true) ∧ (s.on Fld.FC_CTL_EN n = false) ∧ ((s.chain n).fade = none) := by decide +kernel

theorem ChainsStartStopAndFade_4_met :
  let s : State := die .run [at1 Fld.FC_CTL_EN 0 1]
  let n : Nat := 0
  let b : Nat := 1
  (n < s.part.numFC) ∧ (b < 2) ∧ (s.sclk (s.fcGroup n (s.f Fld.FC_SRC_SRC n)) = true) ∧ (s.on Fld.FC_CTL_EN n = true) ∧ ((s.chain n).fade = none) ∧ (s.f Fld.FC_FIR_BANK n ≠ b) ∧ (s.f Fld.FC_STAT_ACTBANK n ≠ b) := by decide +kernel

theorem ChainsStartStopAndFade_5_met :
  let s : State := (die .run [at1 Fld.FC_CTL_EN 0 1, at1 Fld.FC_FIR_BANK 0 1, at1 Fld.FC_FIR_XFLEN_M1 0 15]).setChain 0 { Chain.init with fade := some (1, 15) }
  let n : Nat := 0
  let b : Nat := 0
  let old : Nat := 1
  let i : Nat := 15
  (n < s.part.numFC) ∧ (b < 2) ∧ (s.sclk (s.fcGroup n (s.f Fld.FC_SRC_SRC n)) = true) ∧ (s.on Fld.FC_CTL_EN n = true) ∧ ((s.chain n).fade = some (old, i)) ∧ (i ≤ s.f Fld.FC_FIR_XFLEN_M1 n) ∧ (s.f Fld.FC_FIR_BANK n ≠ b) := by decide +kernel

theorem ChainsStartStopAndFade_6_met :
  let s : State := (die .run [at1 Fld.FC_CTL_EN 0 1, at1 Fld.FC_SRC_SRC 0 0x1001, at1 Fld.FC_FIR_BANK 0 1]).setChain 0 { Chain.init with pend := some 1 }
  let n : Nat := 0
  let b : Nat := 1
  (n < s.part.numFC) ∧ (s.fcRuns n = true) ∧ ((s.chain n).fade = none) ∧ ((s.chain n).pend = some b) := by decide +kernel

theorem ChainsStartStopAndFade_7_met :
  let s : State := (die .run [at1 Fld.FC_CTL_EN 0 1, at1 Fld.FC_FIR_XFLEN_M1 0 15, at1 Fld.FC_STAT_XFADE 0 1]).setChain 0 { Chain.init with fade := some (1, 16) }
  let n : Nat := 0
  let b : Nat := 1
  let i : Nat := 16
  (n < s.part.numFC) ∧ (b < 2) ∧ ((s.chain n).fade = some (b, i)) ∧ (s.f Fld.FC_FIR_XFLEN_M1 n < i) ∧ (s.fcMoves n = true) := by decide +kernel

theorem ChainOutputsAndLogs_1_met :
  let s : State := (die .run [at1 Fld.FC_CTL_EN 3 1, at1 Fld.FC_SRC_SRC 3 0x1005, at1 Fld.FC_CIC_D 3 2]).setFeed 3 ⟨0x1005, [{ plainWord 8 0 with edge := some 9 }], false⟩
  let n : Nat := 3
  let w : StreamWord := { plainWord 8 0 with edge := some 9 }
  (n < s.part.numFC) ∧ (s.fcRuns n = true) ∧ ((s.feed (feedFC n)).inq = [w]) ∧ ((s.chain n).t % s.f Fld.FC_CIC_D n + 1 < s.f Fld.FC_CIC_D n) := by decide +kernel

theorem ChainOutputsAndLogs_2_met :
  let s : State := ((die .run [at1 Fld.FC_CTL_EN 3 1, at1 Fld.FC_SRC_SRC 3 0x1005, at1 Fld.FC_CIC_D 3 2, (Fld.FC_COEFA_COEF, 3, 0, 0x200)]).setFeed 3 ⟨0x1005, [{ plainWord 40000 0 with edge := some 9 }], false⟩).setChain 3 { Chain.init with t := 1, cic := [5, 6], entry := some ⟨0, 5, 5⟩, integ := [1, 2, 3, 4, 5], comb := [[1], [2], [3], [], []] }
  let n : Nat := 3
  let w : StreamWord := { plainWord 40000 0 with edge := some 9 }
  (n < s.part.numFC) ∧ (s.fcRuns n = true) ∧ ((s.feed (feedFC n)).inq = [w]) ∧ ((s.chain n).t % s.f Fld.FC_CIC_D n + 1 = s.f Fld.FC_CIC_D n) ∧ ((s.chain n).fade = none) ∧ (s.on Fld.FC_CTL_RSEN n = false) ∧ (s.f Fld.FC_RS_CTL_OUTSEL n = 0) := by decide +kernel

theorem ChainOutputsAndLogs_3_met :
  let s : State := (die .run []).setChain 0 { Chain.init with comp := 2 ^ 40 + 7, emit := 2 ^ 33 + 5, supp := 2 }
  let n : Nat := 0
  (n < s.part.numFC) ∧ (s.sclk (s.fcGroup n (s.f Fld.FC_SRC_SRC n)) = true) ∧ ((s.chain n).comp < 2 ^ 48) ∧ ((s.chain n).emit < 2 ^ 48) ∧ ((s.chain n).supp < 2 ^ 48) := by decide +kernel

theorem ChainOutputsAndLogs_4_met :
  let s : State := (die .run []).setChain 0 { Chain.init with gaps := [⟨1, 2, 1⟩, ⟨9, 3, 2⟩] }
  let n : Nat := 0
  (n < s.part.numFC) ∧ (s.sclk (s.fcGroup n (s.f Fld.FC_SRC_SRC n)) = true) := by decide +kernel

theorem ChainOutputsAndLogs_5_met :
  let s : State := (die .run []).setChain 0 { Chain.init with tlog := [⟨1, 2, 1, 7, false, true⟩] }
  let n : Nat := 0
  (n < s.part.numFC) ∧ (s.sclk (s.fcGroup n (s.f Fld.FC_SRC_SRC n)) = true) := by decide +kernel

theorem ResamplerAndDetector_1_met :
  let s : State := (die .run [at1 Fld.FC_RS_CADDR 2 4095]).setChain 2 { Chain.init with store := [(4095, 7)] }
  let n : Nat := 2
  (n < s.part.numFC) ∧ (s.sclk (s.fcGroup n (s.f Fld.FC_SRC_SRC n)) = true) ∧ ((s.on Fld.FC_CTL_EN n && s.on Fld.FC_CTL_RSEN n) = false) := by decide +kernel

theorem ResamplerAndDetector_2_met :
  let s : State := die .run [at1 Fld.FC_RS_CADDR 2 4095, at1 Fld.FC_CTL_EN 2 1, at1 Fld.FC_CTL_RSEN 2 1]
  let n : Nat := 2
  (n < s.part.numFC) ∧ (s.sclk (s.fcGroup n (s.f Fld.FC_SRC_SRC n)) = true) ∧ ((s.on Fld.FC_CTL_EN n && s.on Fld.FC_CTL_RSEN n) = true) := by decide +kernel

theorem ResamplerAndDetector_3_met :
  let s : State := (die .run [at1 Fld.FC_RS_CADDR 2 4095, at1 Fld.FC_CTL_EN 2 1]).setChain 2 { Chain.init with store := [(4095, 7)] }
  let n : Nat := 2
  (n < s.part.numFC) ∧ (s.sclk (s.fcGroup n (s.f Fld.FC_SRC_SRC n)) = true) ∧ (Tab.get (fun _ => 0) (s.chain n).store (s.f Fld.FC_RS_CADDR n) < 2 ^ 18) := by decide +kernel

theorem ResamplerAndDetector_4_met :
  let s : State := (die .run [at1 Fld.FC_RS_INC_LO 2 5]).setChain 2 { Chain.init with lastPi := some (7 / 2), nextPi := 4 }
  let n : Nat := 2
  (n < s.part.numFC) ∧ (s.sclk (s.fcGroup n (s.f Fld.FC_SRC_SRC n)) = true) := by decide +kernel

theorem ResamplerAndDetector_5_met :
  let s : State := (die .run [at1 Fld.FC_CTL_EN 2 1, at1 Fld.FC_CTL_RSEN 2 1, at1 Fld.FC_RS_CTL_MODE 2 2, at1 Fld.FC_SRC_SRC 2 0x1003, at1 Fld.CG_CTL_EN 0 1, (Fld.FC_RS_LISTEN_EN, 2, 0, 1), (Fld.FC_RS_LISTEN_NUM, 2, 0, 9)] |>.setGroup 0 { Group.init with core := { CgCore.init with seq := { Seq.init with st := .dwell } } }).setChain 2 { Chain.init with inbox := [⟨1000, false, 9, 8, 0, false, none, 0⟩] }
  let n : Nat := 2
  let r : FiringRec := ⟨1000, false, 9, 8, 0, false, none, 0⟩
  let p : Rat := 800
  (n < s.part.numFC) ∧ (headBit 3 (s.chain n).inbox = some r) ∧ (s.on Fld.FC_CTL_EN n = true) ∧ (s.on Fld.FC_CTL_RSEN n = true) ∧ (s.rsMode n = 2) ∧ (s.fcClass n = 1) ∧ (s.on Fld.FC_DET_CTL_SPAN n = false) ∧ (s.on Fld.FC_RS_LISTEN_EN n 0 = true) ∧ (s.f Fld.FC_RS_LISTEN_NUM n 0 = r.num) ∧ (s.mode.converts = true) ∧ (s.samplePos r.instant = some p) ∧ (s.laneSilent n p = false) ∧ ((s.chain n).insts = []) ∧ ((s.chain n).entry = none) ∧ ((s.chain n).slots = []) := by decide +kernel

theorem ResamplerAndDetector_6_met :
  let s : State := (die .run [at1 Fld.LCS_CTL_CLKSRC 0 2, at1 Fld.FC_CTL_EN 2 1, at1 Fld.FC_CTL_RSEN 2 1, at1 Fld.FC_RS_CTL_MODE 2 2, at1 Fld.FC_SRC_SRC 2 0x1003, (Fld.FC_RS_LISTEN_EN, 2, 3, 1), (Fld.FC_RS_LISTEN_NUM, 2, 3, 9), at1 Fld.FC_RS_EVCNT_NOPOS 2 255]).setChain 2 { Chain.init with inbox := [⟨1000, false, 9, 8, 0, false, none, 0⟩] }
  let n : Nat := 2
  let r : FiringRec := ⟨1000, false, 9, 8, 0, false, none, 0⟩
  (n < s.part.numFC) ∧ (headBit 3 (s.chain n).inbox = some r) ∧ (s.on Fld.FC_CTL_EN n = true) ∧ (s.on Fld.FC_CTL_RSEN n = true) ∧ (s.rsMode n = 2) ∧ (s.fcClass n = 1) ∧ (s.on Fld.FC_DET_CTL_SPAN n = false) ∧ (s.on Fld.FC_RS_LISTEN_EN n 3 = true) ∧ (s.f Fld.FC_RS_LISTEN_NUM n 3 = r.num) ∧ ((s.samplePos r.instant).all (s.laneSilent n) = true) ∧ ((s.chain n).entry = none) ∧ ((s.chain n).insts = []) ∧ ((s.chain n).slots = []) := by decide +kernel

theorem ResamplerAndDetector_7_met :
  let s : State := (die .run [at1 Fld.FC_CTL_EN 2 1, at1 Fld.FC_CTL_RSEN 2 1, at1 Fld.FC_RS_CTL_MODE 2 1, at1 Fld.FC_SRC_SRC 2 0x1003, at1 Fld.CG_CTL_EN 0 1, at1 Fld.FC_RS_CTL_SPT_M1 2 15] |>.setGroup 0 { Group.init with core := { CgCore.init with seq := { Seq.init with st := .dwell } } }).setTrk 0 { Tracker.init with state := .locked, rate := 1 / 64000 }
  let n : Nat := 2
  let tick : Nat := 0
  let j : Int := 0
  let p : Rat := 0
  (n < s.part.numFC) ∧ (s.on Fld.FC_CTL_EN n = true) ∧ (s.on Fld.FC_CTL_RSEN n = true) ∧ (s.rsMode n = 1) ∧ (s.fcClass n = 1) ∧ (s.lclk = true) ∧ (s.mode.converts = true) ∧ ((s.trk (s.f Fld.FC_RS_CTL_REF n)).state.tracking = true) ∧ ((s.trk (s.f Fld.FC_RS_CTL_REF n)).t0 ≤ (tick : Int) * 64) ∧ ((s.chain n).lastJ = none) ∧ (slotAfter (s.f Fld.FC_RS_CTL_SPT_M1 n + 1) (s.f Fld.FC_RS_PHOFS n) ((s.trk (s.f Fld.FC_RS_CTL_REF n)).phase ((tick : Int) * 64)) = j) ∧ (slotPhase (s.f Fld.FC_RS_CTL_SPT_M1 n + 1) (s.f Fld.FC_RS_PHOFS n) j < (s.trk (s.f Fld.FC_RS_CTL_REF n)).phase ((tick : Int) * 64 + 64)) ∧ (s.samplePos ((tick + ((((slotPhase (s.f Fld.FC_RS_CTL_SPT_M1 n + 1) (s.f Fld.FC_RS_PHOFS n) j - (s.trk (s.f Fld.FC_RS_CTL_REF n)).phase ((tick : Int) * 64)) / (s.trk (s.f Fld.FC_RS_CTL_REF n)).rate / 64 * 65536).floor.toNat : Nat) : Rat) / 65536) * 64) = some p) ∧ (s.laneSilent n p = false) ∧ ((s.chain n).insts = []) ∧ ((s.chain n).entry = none) := by decide +kernel

theorem ResamplerAndDetector_8_met :
  let s : State := (die .run []).setChain 2 { Chain.init with det := { Detect.init with closed := some ⟨4, 400, ChainBand.nil, 2 ^ 32 + 5, true⟩, hi := some 5, lo := some (-7) } }
  let n : Nat := 2
  let w : DetWin := ⟨4, 400, ChainBand.nil, 2 ^ 32 + 5, true⟩
  let hi : Int := 5
  let lo : Int := -7
  (n < s.part.numFC) ∧ ((s.det n).closed = some w) ∧ (0 < w.n) ∧ (w.n < 2 ^ 25) ∧ (w.sumsq < 2 ^ 64 * w.n) ∧ ((s.det n).hi = some hi) ∧ ((s.det n).lo = some lo) ∧ (s.f Fld.FC_RS_CTL_OUTSEL n < 2) ∧ (s.fcMoves n = true) := by decide +kernel

theorem MonitorsResolveAndSettle_1_met :
  let s : State := die .run [at1 Fld.WM_CTL_INIT_U 95 1]
  let n : Nat := 95
  (n < s.part.numWM) ∧ (s.on Fld.WM_CTL_EN n = false) := by decide +kernel

theorem MonitorsResolveAndSettle_2_met :
  let s : State := (die .run [at1 Fld.WM_THR_UTH 5 100, at1 Fld.AP_CTL_EN 5 1, at1 Fld.AP_CTL_RANGE 5 2]).setWm 5 { Monitor.init with phase := .powerUp }
  let n : Nat := 5
  (n < s.part.numWM) ∧ ((s.wm n).phase = .powerUp) := by decide +kernel

theorem MonitorsResolveAndSettle_3_met :
  let s : State := (die .run [at1 Fld.WM_THR_UTH 5 100, at1 Fld.AP_CTL_EN 5 1, at1 Fld.AP_CTL_RANGE 5 2]).setWm 5 { Monitor.init with phase := .settling }
  let n : Nat := 5
  let v : SenseIn := ⟨25 / 128 + 1 / 1000000, 0, 0⟩
  (n < s.part.numWM) ∧ ((s.wm n).phase = .settling) ∧ ((s.wmBand n true).2 < s.sensed n v.pin - v.errU) ∧ ((s.wmBand n false).2 < s.sensed n v.pin - v.errL) := by decide +kernel

theorem MonitorsResolveAndSettle_4_met :
  let s : State := die .run [at1 Fld.WM_CTL_EN 0 1]
  let n : Nat := 0
  (n < s.part.numWM) ∧ (s.on Fld.WM_CTL_EN n = true) := by decide +kernel

theorem MonitorsResolveAndSettle_5_met :
  let s : State := (die .run [at1 Fld.WM_THR_UTH 5 100, at1 Fld.AP_CTL_EN 5 1, at1 Fld.AP_CTL_RANGE 5 2]).setWm 5 { Monitor.init with phase := .live, upper := ⟨false, false, true⟩ }
  let n : Nat := 5
  let v : SenseIn := ⟨-1 / 4, 0, 0⟩
  (n < s.part.numWM) ∧ ((s.wm n).phase = .live) ∧ ((s.wm n).upper.unres = true) ∧ ((s.wm n).lower.unres = false) ∧ (s.wmForced n v true = some (s.wm n).upper.out) := by decide +kernel

theorem MonitorsResolveAndSettle_6_met :
  let s : State := (die .run [at1 Fld.WM_CTL_EN 7 1]).setWm 7 { Monitor.init with phase := .live, upper := ⟨true, true, false⟩ }
  let n : Nat := 7
  (n < s.part.numWM) ∧ (s.on Fld.WM_CTL_EN n = true) := by decide +kernel

theorem MonitorsResolveAndSettle_7_met :
  let s : State := (die .run [at1 Fld.WM_THR_UTH 5 100, at1 Fld.WM_THR_LTH 5 101, at1 Fld.AP_CTL_EN 5 1, at1 Fld.AP_CTL_RANGE 5 2]).setWm 5 { Monitor.init with phase := .settling, upper := ⟨false, true, false⟩ }
  let n : Nat := 5
  let v : SenseIn := ⟨25 / 128, 0, 1 / 1000⟩
  (n < s.part.numWM) ∧ ((s.wm n).phase = .settling) ∧ ((s.wmBand n true).1 ≤ s.sensed n v.pin - v.errU) ∧ (s.sensed n v.pin - v.errU ≤ (s.wmBand n true).2) ∧ (s.sensed n v.pin - v.errL < (s.wmBand n false).1) := by decide +kernel

theorem MonitorsResolveAndSettle_8_met :
  let s : State := (die .run [at1 Fld.WM_THR_UTH 5 110, at1 Fld.WM_THR_LTH 5 100, at1 Fld.AP_CTL_EN 5 1, at1 Fld.AP_CTL_RANGE 5 2]).setWm 5 { Monitor.init with phase := .settling, lower := ⟨false, true, false⟩ }
  let n : Nat := 5
  let v : SenseIn := ⟨25 / 128, 0, 0⟩
  (n < s.part.numWM) ∧ ((s.wm n).phase = .settling) ∧ (s.sensed n v.pin - v.errU < (s.wmBand n true).1) ∧ ((s.wmBand n false).1 ≤ s.sensed n v.pin - v.errL) ∧ (s.sensed n v.pin - v.errL ≤ (s.wmBand n false).2) := by decide +kernel

theorem MonitorsResolveAndSettle_9_met :
  let s : State := die .run [at1 Fld.WM_CTL_EN 95 1]
  let n : Nat := 95
  (n < s.part.numWM) ∧ (s.on Fld.WM_CTL_EN n = true) := by decide +kernel

theorem MonitorsResolveAndSettle_10_met :
  let s : State := { die .run [at1 Fld.WM_CTL_EN 95 1] with cal := { Calib.init with marks := [(0x500C, 0), (Reg.WM_TRIM.addr 95 0, 16)] } }
  let n : Nat := 95
  (n < s.part.numWM) ∧ (s.on Fld.WM_CTL_EN n = true) ∧ (s.on Fld.CAL_STAT_RUNNING = false) := by decide +kernel

theorem MonitorsResolveAndSettle_11_met :
  let s : State := die .blank [at1 Fld.WM_CTL_EN 95 1]
  let n : Nat := 95
  let w : Word := 0x102
  (n < s.part.numWM) ∧ (s.on Fld.WM_CTL_EN n = true) ∧ (s.mode.checksMatrix = false) ∧ (s.underCheck (Reg.AP_CTL.addr n 0) = false) ∧ ((apCtlStored w).1 ≠ s.word (Reg.AP_CTL.addr n 0)) := by decide +kernel

theorem EdgesAreHeldBlankedOrDelivered_1_met :
  let s : State := (die .run [at1 Fld.WM_THR_UTH 5 100, at1 Fld.WM_THR_LTH 5 0, at1 Fld.WM_HYS_HYS_L 5 16, at1 Fld.WM_THR_UTH 5 10, at1 Fld.AP_CTL_EN 5 1, at1 Fld.AP_CTL_RANGE 5 2, at1 Fld.WM_BLANK_EN 5 1]).setWm 5 { Monitor.init with phase := .live }
  let n : Nat := 5
  let v : SenseIn := ⟨3 / 128, 0, 0⟩
  (n < s.part.numWM) ∧ ((s.wm n).phase = .live) ∧ (s.lclk = true) ∧ (s.on Fld.WM_BLANK_EN n = true) ∧ ((s.wm n).upper.unres = false) ∧ ((s.wm n).lower.unres = false) ∧ (s.wmForced n v true = some (!(s.wm n).upper.raw)) ∧ (s.wmForced n v false = none) := by decide +kernel

theorem EdgesAreHeldBlankedOrDelivered_2_met :
  let s : State := (die .run [at1 Fld.WM_CNT_HITS 5 65535]).setWm 5 { Monitor.init with phase := .live, held := [⟨70000, true, true⟩], upper := ⟨true, false, false⟩ }
  let n : Nat := 5
  let e : WmEdge := ⟨70000, true, true⟩
  let rest : List WmEdge := []
  (n < s.part.numWM) ∧ (s.lclk = true) ∧ ((s.wm n).held = e :: rest) ∧ ((s.wm n).phase = .live) ∧ ((s.wm n).blanks e.stamp = false) ∧ (e.upper = true) ∧ (e.level = true) ∧ ((s.wm n).upper.out = false) ∧ ((s.wm n).resyncs = []) := by decide +kernel

theorem EdgesAreHeldBlankedOrDelivered_3_met :
  let s : State := (die .run []).setWm 5 { Monitor.init with phase := .live, held := [⟨70000, true, true⟩], blanked := true, windows := [⟨70000, none⟩] }
  let n : Nat := 5
  let e : WmEdge := ⟨70000, true, true⟩
  let rest : List WmEdge := []
  (n < s.part.numWM) ∧ (s.lclk = true) ∧ ((s.wm n).held = e :: rest) ∧ ((s.wm n).phase = .live) ∧ ((s.wm n).blanks e.stamp = true) ∧ ((s.wm n).resyncs = []) := by decide +kernel

theorem EdgesAreHeldBlankedOrDelivered_4_met :
  let s : State := (die .run [at1 Fld.WM_BLANK_EN 5 1]).setWm 5 { Monitor.init with phase := .live, inbox := [⟨1100, false, 3, 32, 0, false, none, 0⟩] }
  let n : Nat := 5
  let r : FiringRec := ⟨1100, false, 3, 32, 0, false, none, 0⟩
  (n < s.part.numWM) ∧ (headBit 5 (s.wm n).inbox = some r) ∧ (s.on Fld.WM_BLANK_EN n = true) ∧ ((s.wm n).blanked = false) := by decide +kernel

theorem EdgesAreHeldBlankedOrDelivered_5_met :
  let s : State := (die .run []).setWm 5 { Monitor.init with phase := .live, inbox := [⟨1100, false, 3, 64, 0, false, none, 0⟩], blanked := true, windows := [⟨70000, none⟩], upper := ⟨true, false, false⟩ }
  let n : Nat := 5
  let r : FiringRec := ⟨1100, false, 3, 64, 0, false, none, 0⟩
  (n < s.part.numWM) ∧ (headBit 6 (s.wm n).inbox = some r) ∧ ((s.wm n).blanked = true) ∧ ((s.wm n).phase = .live) ∧ ((s.wm n).upper.unres = false) ∧ ((s.wm n).lower.unres = false) ∧ ((s.wm n).held.all (fun e => decide (r.instant ≤ (e.stamp : Rat))) = true) := by decide +kernel

theorem EdgesAreHeldBlankedOrDelivered_6_met :
  let s : State := (die .run []).setWm 5 { Monitor.init with phase := .live, inbox := [⟨1100, false, 3, 64, 0, false, none, 0⟩], blanked := true, held := [⟨70000, true, true⟩], windows := [⟨70000, none⟩], upper := ⟨true, false, false⟩ }
  let n : Nat := 5
  let r : FiringRec := ⟨1100, false, 3, 64, 0, false, none, 0⟩
  (n < s.part.numWM) ∧ (headBit 6 (s.wm n).inbox = some r) ∧ ((s.wm n).blanked = true) ∧ ((s.wm n).held.any (fun e => decide ((e.stamp : Rat) < r.instant)) = true) := by decide +kernel

theorem EdgesAreHeldBlankedOrDelivered_7_met :
  let s : State := (die .run [at1 Fld.WM_LATCH_UHIT 5 1]).setWm 5 { Monitor.init with inbox := [⟨1100, false, 3, 4096, 0, false, none, 0⟩] }
  let n : Nat := 5
  let r : FiringRec := ⟨1100, false, 3, 4096, 0, false, none, 0⟩
  (n < s.part.numWM) ∧ (headBit pclrBit (s.wm n).inbox = some r) ∧ ((s.wm n).latchBefore true r.tick = none) ∧ ((s.wm n).latchBefore false r.tick = none) := by decide +kernel

theorem EdgesAreHeldBlankedOrDelivered_8_met :
  let s : State := (die .run [at1 Fld.WM_LATCH_UHIT 5 1]).setWm 5 { Monitor.init with latchLog := [⟨true, 1100, true, false⟩], inbox := [⟨1100, false, 3, 4096, 0, false, none, 0⟩] }
  let n : Nat := 5
  let r : FiringRec := ⟨1100, false, 3, 4096, 0, false, none, 0⟩
  let was : Bool := false
  (n < s.part.numWM) ∧ (headBit pclrBit (s.wm n).inbox = some r) ∧ ((s.wm n).latchBefore true r.tick = some was) ∧ ((s.wm n).latchBefore false r.tick = none) := by decide +kernel

theorem DacsStartAndStop_1_met :
  let s : State := ((die .run [at1 Fld.DA_UNDW 23 7]).setDac 23 { Dac.init with fifo := [1], debt := 3, pattern := [(1, 2)] }).setFeed (feedDA 23) ⟨0x4001, [plainWord 1 2], false⟩
  let d : Nat := 23
  (d < s.part.numDA) ∧ (s.sclk d = true) ∧ (s.on Fld.DA_CTL_EN d = false) := by decide +kernel

theorem DacsStartAndStop_2_met :
  let s : State := (die .run [at1 Fld.DA_CTL_EN 3 1]).setDac 3 { Dac.init with fifo := [1], st := .play, pattern := [(1, 2)], under := true, undNew := 4, undRuns := 1 }
  let d : Nat := 3
  (d < s.part.numDA) ∧ (s.sclk d = true) ∧ (s.on Fld.DA_CTL_EN d = true) := by decide +kernel

theorem DacsStartAndStop_3_met :
  let s : State := (die .doze [at1 Fld.DA_CTL_EN 3 1, at1 Fld.DA_CTL_FIRST 3 2, at1 Fld.DA_EVCNT_SEGS 3 65535]).setDac 3 { Dac.init with fifo := [1] }
  let d : Nat := 3
  (d < s.part.numDA) ∧ (s.sclk d = true) ∧ (s.on Fld.DA_CTL_EN d = true) ∧ ((s.dac d).st = .idle) := by decide +kernel

theorem DacsStartAndStop_4_met :
  let s : State := (die .run [at1 Fld.DA_CTL_EN 3 1]).setDac 3 { Dac.init with fifo := [1], st := .play }
  let d : Nat := 3
  (d < s.part.numDA) ∧ (s.sclk d = true) ∧ ((s.dac d).seg.ended = false) ∧ ((s.dac d).undo = none) := by decide +kernel

theorem DacsStartAndStop_5_met :
  let s : State := (die .run []).setDac 3 { Dac.init with st := .wait, inbox := [⟨1000, false, 9, 16, 0, false, none, 0⟩] }
  let d : Nat := 3
  let r : FiringRec := ⟨1000, false, 9, 16, 0, false, none, 0⟩
  let p : Rat := 800
  (d < s.part.numDA) ∧ (headBit 4 (s.dac d).inbox = some r) ∧ ((s.dac d).st = .wait) ∧ (s.samplePos r.instant = some p) := by decide +kernel

theorem DacsStartAndStop_6_met :
  let s : State := (die .run [at1 Fld.DA_EVCNT_SEG_DROP 3 255]).setDac 3 { Dac.init with st := .play, inbox := [⟨1000, false, 9, 16, 0, false, none, 0⟩] }
  let d : Nat := 3
  let r : FiringRec := ⟨1000, false, 9, 16, 0, false, none, 0⟩
  (d < s.part.numDA) ∧ (headBit 4 (s.dac d).inbox = some r) ∧ ((s.dac d).st ≠ .wait) ∧ ((s.dac d).seg.ended = false) := by decide +kernel

theorem DacsStartAndStop_7_met :
  let s : State := (die .run [(Fld.DA_SEG_CFG_WAIT, 3, 2, 1)]).setDac 3 { Dac.init with st := .play, seg := { DacSeg.init with ended := true, eirq := true, next := 2 } }
  let d : Nat := 3
  (d < s.part.numDA) ∧ ((s.dac d).st = .play) ∧ ((s.dac d).seg.ended = true) := by decide +kernel

theorem DacsPlay_1_met :
  let s : State := (die .doze [at1 Fld.DA_CTL_EN 3 1]).setDac 3 { Dac.init with st := .play, seg := { DacSeg.init with len := some 100, start := 65534, pos := 97 }, pattern := [(95, 7), (96, 9)] }
  let d : Nat := 3
  let n : Nat := 100
  (d < s.part.numDA) ∧ (s.sclk d = true) ∧ (s.mode.converts = true) ∧ ((s.feed (feedDA d)).inq = []) ∧ ((s.dac d).resume = false) ∧ ((s.dac d).st = .play) ∧ ((s.dac d).startEdge = none) ∧ ((s.dac d).seg.ended = false) ∧ ((s.dac d).seg.stream = false) ∧ ((s.dac d).seg.len = some n) ∧ ((s.dac d).seg.pos + 2 < n) ∧ ((s.dac d).recent = []) := by decide +kernel

theorem DacsPlay_2_met :
  let s : State := (die .run [at1 Fld.DA_CTL_EN 3 1]).setDac 3 { Dac.init with st := .play, seg := { DacSeg.init with stream := true }, fifo := [1, 2, 3] }
  let d : Nat := 3
  let a : Nat := 1
  let b : Nat := 2
  let rest : List Nat := [3]
  (d < s.part.numDA) ∧ (s.sclk d = true) ∧ (s.mode.converts = true) ∧ ((s.feed (feedDA d)).inq = []) ∧ ((s.dac d).resume = false) ∧ ((s.dac d).st = .play) ∧ ((s.dac d).startEdge = none) ∧ ((s.dac d).seg.ended = false) ∧ ((s.dac d).seg.stream = true) ∧ ((s.dac d).seg.len = none) ∧ ((s.dac d).debt = 0) ∧ ((s.dac d).fifo = a :: b :: rest) := by decide +kernel

theorem DacsPlay_3_met :
  let s : State := (die .run [at1 Fld.DA_CTL_EN 3 1, at1 Fld.DA_IDLE_CODE 3 500]).setDac 3 { Dac.init with st := .play, seg := { DacSeg.init with stream := true } }
  let d : Nat := 3
  (d < s.part.numDA) ∧ (s.sclk d = true) ∧ (s.mode.converts = true) ∧ ((s.feed (feedDA d)).inq = []) ∧ ((s.dac d).resume = false) ∧ ((s.dac d).st = .play) ∧ ((s.dac d).startEdge = none) ∧ ((s.dac d).seg.ended = false) ∧ ((s.dac d).seg.stream = true) ∧ ((s.dac d).seg.len = none) ∧ ((s.dac d).fifo = []) := by decide +kernel

theorem DacsPlay_4_met :
  let s : State := (die .run [at1 Fld.DA_EVCNT_UNDRUN 3 255, at1 Fld.DA_UNDW 3 0xFFFFFFFF]).setDac 3 { Dac.init with undNew := 2, undRuns := 1 }
  let d : Nat := 3
  (d < s.part.numDA) ∧ ((s.dac d).undRuns ≠ 0) := by decide +kernel

theorem DacsPlay_5_met :
  let s : State := (die .run [at1 Fld.DA_PADDR 3 65535]).setDac 3 { Dac.init with pattern := [(0, 3)] }
  let d : Nat := 3
  (d < s.part.numDA) ∧ (s.sclk d = true) := by decide +kernel

theorem DacsPlay_6_met :
  let s : State := (die .run [at1 Fld.DA_PADDR 3 65535]).setDac 3 { Dac.init with pattern := [(65535, 3)] }
  let d : Nat := 3
  (d < s.part.numDA) ∧ (s.sclk d = true) ∧ (Tab.get (fun _ => 0) (s.dac d).pattern (s.f Fld.DA_PADDR d) < 65536) := by decide +kernel

theorem CalibrationRuns_1_met :
  let s : State := { die .bench [] with cal := { Calib.init with marks := [(0x50014C, 0)] } }
  let n : Nat := 5
  let m : CalMeas := ⟨[[(9, 0), (5, 4)], [(-3, -4)]], 12, [], 0⟩
  let up : List (Int × Int) := [(9, 0), (5, 4)]
  let lo : List (Int × Int) := [(-3, -4)]
  let vu : Int := 4
  let vl : Int := -3
  (s.takes = true) ∧ (s.standby = false) ∧ (s.mode = .bench) ∧ (n < s.part.numWM) ∧ (s.on Fld.WM_CTL_EN n = false) ∧ (m.steps = [up, lo]) ∧ (calStep 1 up = some vu) ∧ (calStep 1 lo = some vl) ∧ (m.res < 65536) := by decide +kernel

theorem CalibrationRuns_2_met :
  let s : State := die .bench []
  let n : Nat := 5
  let m : CalMeas := ⟨[[(9, 0), (5, 7)], [(9, 0), (5, 7)]], 12, [], 0⟩
  let up : List (Int × Int) := [(9, 0), (5, 7)]
  (s.takes = true) ∧ (s.standby = false) ∧ (s.mode = .bench) ∧ (n < s.part.numWM) ∧ (s.on Fld.WM_CTL_EN n = false) ∧ (m.steps = [up, up]) ∧ (calStep 1 up = none) := by decide +kernel

theorem CalibrationRuns_3_met :
  let s : State := die .bench []
  let cls : Word := 7
  let first : Word := 1
  let last : Word := 0
  (s.takes = true) ∧ (s.standby = false) ∧ (s.mode = .bench) ∧ (2 ≤ cls.bits 0 3) ∧ (last < first) ∧ (first.toNat < 2) := by decide +kernel

theorem CalibrationRuns_4_met :
  let s : State := die .blank [at1 Fld.CAL_TS_TRIM_OFS 7 0xFF]
  let k : Nat := 7
  (k < 8) ∧ (s.mode ≠ .reset) ∧ (s.mode ≠ .slumber) ∧ (s.pwr.resense.contains k = false) := by decide +kernel

theorem CalibrationRuns_5_met :
  let s : State := die .slumber []
  (s.mode = .slumber) := by decide +kernel

theorem CalibrationRuns_6_met :
  let s : State := { die .run [] with pwr := { Power.init with resense := [0, 3] } }
  let k : Nat := 3
  let g : Nat := 23
  let sl : Nat := 0
  let raw : Int := 400
  (k < 8) ∧ (s.mode ≠ .reset) ∧ (s.mode ≠ .slumber) ∧ (s.pwr.resense.contains k = true) ∧ (s.bur.running = true) ∧ (g < s.part.numCG) ∧ (g / 6 = k) ∧ (s.rotst g = 0) ∧ (((s.setF Fld.CAL_TS_TEMP (ofSigned 16 (satSigned 16 (raw + toSigned 8 (s.f Fld.CAL_TS_TRIM_OFS k)))) k).setF Fld.CAL_TS_VALID 1 k).driftSlice g = some sl) := by decide +kernel

theorem CalibrationStore_1_met :
  let s : State := die .bench [at1 Fld.CAL_STORE_SEQ 0 65535]
  (s.takes = true) ∧ (s.standby = false) ∧ (s.mode = .bench) ∧ ((s.on Fld.CAL_STORE_VALID = true → s.on Fld.CAL_STORE_EXPORTED = true)) ∧ (s.f Fld.CAL_STAT_NDIS = 0) ∧ (s.keyIdx + 1 < 2 ^ 40) ∧ (s.keysUsed = false) := by decide +kernel

theorem CalibrationStore_2_met :
  let s : State := die .bench [at1 Fld.CAL_STORE_SEQ 0 65535]
  let seq : Word := 3
  (s.takes = true) ∧ (s.standby = false) ∧ (s.mode = .bench) ∧ (seq.bits 0 16 ≠ s.f Fld.CAL_STORE_SEQ) := by decide +kernel

theorem CalibrationStore_3_met :
  let s : State := die .bench [at1 Fld.CAL_STORE_VALID 0 1]
  (s.takes = true) ∧ (s.standby = false) ∧ (s.mode = .bench) ∧ (s.on Fld.CAL_STORE_VALID = true) ∧ (s.on Fld.CAL_STORE_EXPORTED = false) := by decide +kernel

theorem CalibrationStore_4_met :
  let s : State := (die .bench [at1 Fld.CAL_STAT_DIRTY 0 1, at1 Fld.CAL_STORE_EXPORTED 0 1]).setJob (some { Job.init with commit := some ⟨7, 300, [], [1]⟩ })
  let j : Job := { Job.init with commit := some ⟨7, 300, [], [1]⟩ }
  let c : CalSet := ⟨7, 300, [], [1]⟩
  (s.bur.running = true) ∧ (s.bur.job = some j) ∧ (j.status = stOk) ∧ (j.out = none) ∧ (j.need = 0) ∧ (j.commit = some c) ∧ (j.results = []) ∧ (c.seq < 65536) := by decide +kernel

theorem CalibrationStore_5_met :
  let s : State := { die .bench [at1 Fld.DMA_RSTAT_ADMITTED 4095 1, at1 Fld.CAL_STORE_VALID 0 1] with cal := { Calib.init with store := some ⟨7, 300, [], [1]⟩ } }
  let r : Nat := 4095
  let c : CalSet := ⟨7, 300, [], [1]⟩
  (s.takes = true) ∧ (s.standby = false) ∧ (s.mode = .bench) ∧ (r < 4096) ∧ (s.admitted r = true) ∧ (s.downstream r = false) ∧ (s.f Fld.DMA_CFG_SRC r = 0) ∧ (s.cal.store = some c) ∧ (s.on Fld.CAL_STORE_VALID = true) := by decide +kernel

theorem CalibrationStore_6_met :
  let s : State := die .bench [at1 Fld.DMA_RSTAT_ADMITTED 9 1, at1 Fld.DMA_CFG_DIR 9 1]
  let r : Nat := 9
  (s.takes = true) ∧ (s.standby = false) ∧ (s.mode = .bench) ∧ (r < 4096) ∧ (s.admitted r = true) ∧ (s.downstream r = true) := by decide +kernel

theorem CalibrationStore_7_met :
  let s : State := { die .bench [] with bur := { Bureau.init with running := true, nv := { Nonvolatile.init with keyres := 2 ^ 40 } } }
  (s.takes = true) ∧ (s.standby = false) ∧ (s.mode = .bench) ∧ ((s.on Fld.CAL_STORE_VALID = true → s.on Fld.CAL_STORE_EXPORTED = true)) ∧ (s.f Fld.CAL_STAT_NDIS = 0) ∧ (s.keysUsed = true) := by decide +kernel

theorem FabricClocksAndPeek_1_met :
  let s : State := { die .run [at1 Fld.SCRB_CB_STATE_STATE 3 1, at1 Fld.FAB_CTL_CLKEN 3 1, at1 Fld.FAB_GCLK_EN 0 1, at1 Fld.FAB_GCLK_DIV 0 8] with fcells := [(773, { FabCell.init with w := [1, 2, 3, 4] })], frames := [(12582912 + 160, 0x00820FFF)] }
  let mask : Nat := 1
  let k : Nat := 3
  let i : Nat := 5
  (k < s.part.numCB) ∧ (i < 256) ∧ (s.cbRuns k = true) ∧ ((s.liveCells k).contains i = true) ∧ ((mask % 256).testBit (s.cellCfg k i).clksel = true) ∧ (s.gclkRuns (s.cellCfg k i).clksel = true) ∧ (Tab.wf (fun _ => FabCell.init) s.fcells = true) ∧ ((s.cabs.all fun e => e.2.ins.all (fun p => !p.taking) && e.2.outs.all fun q => q.offer.isNone) = true) := by decide +kernel

theorem FabricClocksAndPeek_2_met :
  let s : State := { die .run [at1 Fld.SCRB_CB_STATE_STATE 3 1, at1 Fld.FAB_CTL_CLKEN 3 1, at1 Fld.FAB_GCLK_EN 0 1, at1 Fld.FAB_GCLK_DIV 0 8] with fcells := [(773, { FabCell.init with w := [1, 2, 3, 4] })] }
  let mask : Nat := 6
  let k : Nat := 3
  let i : Nat := 5
  (k < s.part.numCB) ∧ (i < 256) ∧ (s.clockEdge (mask % 256) (s.cellCfg k i).clksel = false) ∧ (Tab.wf (fun _ => FabCell.init) s.fcells = true) := by decide +kernel

theorem FabricClocksAndPeek_3_met :
  let s : State := die .partialRun [at1 Fld.SCRB_CB_STATE_STATE 3 1]
  let k : Nat := 3
  (k < s.part.numCB) ∧ ((s.mode = .run ∨ s.mode = .partialRun)) ∧ (s.isolated k = false) := by decide +kernel

theorem FabricClocksAndPeek_4_met :
  let s : State := die .partialRun [at1 Fld.SCRB_CB_STATE_STATE 3 2]
  let k : Nat := 3
  let on : Bool := true
  (k < s.part.numCB) ∧ (s.isolated k = true) ∧ (s.on Fld.FAB_CTL_CLKEN k ≠ on) := by decide +kernel

theorem FabricClocksAndPeek_5_met :
  let s : State := die .blank [at1 Fld.FAB_FPLL_M 0 30, at1 Fld.FAB_FPLL_LOCK 0 1, at1 Fld.FAB_GCLK_SRC 2 1]
  let m : Nat := 63
  (m < 64) ∧ (s.mode = .blank) ∧ (s.f Fld.FAB_FPLL_M ≠ max 24 (min 48 m)) := by decide +kernel

theorem FabricClocksAndPeek_6_met :
  let s : State := die .run [at1 Fld.FAB_FPLL_M 0 30]
  let m : Nat := 10
  (m < 64) ∧ (s.mode ≠ .blank) ∧ (s.f Fld.FAB_FPLL_M ≠ max 24 (min 48 m)) := by decide +kernel

theorem FabricClocksAndPeek_7_met :
  let s : State := die .blank []
  (s.mode ≠ .reset) := by decide +kernel

theorem FabricClocksAndPeek_8_met :
  let s : State := { die .run [at1 Fld.SCRB_CB_STATE_STATE 3 1, at1 Fld.FAB_PEEK_SEL_ITEM 3 4, at1 Fld.FAB_PEEK_SEL_CELL 3 5] with fcells := [(773, { FabCell.init with ow := 77 })] }
  let k : Nat := 3
  (k < s.part.numCB) ∧ (s.cbRuns k = false) ∧ ((s.f Fld.BUR_TAINT).testBit k = false) ∧ (s.f Fld.FAB_PEEK_SEL_ITEM k = 4) ∧ ((s.fcell k (s.f Fld.FAB_PEEK_SEL_CELL k)).ow < 65536) := by decide +kernel

theorem FabricClocksAndPeek_9_met :
  let s : State := die .run [at1 Fld.BUR_TAINT 0 8]
  let k : Nat := 3
  (k < s.part.numCB) ∧ ((s.f Fld.BUR_TAINT).testBit k = true) := by decide +kernel

theorem FabricClocksAndPeek_10_met :
  let s : State := die .run [at1 Fld.SCRB_CB_STATE_STATE 3 1, at1 Fld.FAB_CTL_CLKEN 3 1]
  let k : Nat := 3
  (k < s.part.numCB) ∧ (s.cbRuns k = true) := by decide +kernel

theorem FabricClocksAndPeek_11_met :
  let s : State := { die .run [at1 Fld.SCRB_CB_STATE_STATE 3 1, at1 Fld.FAB_PEEK_SEL_ITEM 3 3, at1 Fld.FAB_PEEK_SEL_CELL 3 5] with fcells := [(773, { FabCell.init with w := [1, 2, 3, 4] })] }
  let k : Nat := 3
  let v : Nat := 4
  (k < s.part.numCB) ∧ (s.cbRuns k = false) ∧ ((s.f Fld.BUR_TAINT).testBit k = false) ∧ (s.f Fld.FAB_PEEK_SEL_ITEM k < 4) ∧ ((s.fcell k (s.f Fld.FAB_PEEK_SEL_CELL k)).w[s.f Fld.FAB_PEEK_SEL_ITEM k]? = some v) := by decide +kernel

theorem FabricClocksAndPeek_12_met :
  let s : State := { die .run [at1 Fld.SCRB_CB_STATE_STATE 3 1, at1 Fld.FAB_PEEK_SEL_ITEM 3 5, at1 Fld.FAB_PEEK_SEL_CELL 3 5] with fcells := [(773, { FabCell.init with index := 3, v := true, z := true })] }
  let k : Nat := 3
  let c : FabCell := { FabCell.init with index := 3, v := true, z := true }
  (k < s.part.numCB) ∧ (s.cbRuns k = false) ∧ ((s.f Fld.BUR_TAINT).testBit k = false) ∧ (s.f Fld.FAB_PEEK_SEL_ITEM k = 5) ∧ (s.fcell k (s.f Fld.FAB_PEEK_SEL_CELL k) = c) := by decide +kernel

theorem BoundaryAndPins_1_met :
  let s : State := ((die .run []).setFeed (feedFP 23 3) ⟨0x1003, [plainWord 5 0, plainWord 6 1], false⟩).setCab 23 { Cabinet.init with frqLast := 1 }
  let k : Nat := 23
  let j : Nat := 3
  let w : StreamWord := plainWord 5 0
  let rest : List StreamWord := [plainWord 6 1]
  (j < 4) ∧ (k < s.part.numCB) ∧ ((s.cab k).ins.length = 4) ∧ ((s.feed (feedFP k j)).inq = w :: rest) ∧ ((s.inPort k j).fifo.length < 256) := by decide +kernel

theorem BoundaryAndPins_2_met :
  let s : State := ((die .run []).setFeed (feedFP 23 3) ⟨0x1003, [plainWord 5 0, plainWord 6 1], false⟩).setCab 23 { Cabinet.init with ins := [InPort.init, InPort.init, InPort.init, { InPort.init with fifo := List.replicate 256 (plainWord 1 1) }] }
  let k : Nat := 23
  let j : Nat := 3
  let w : StreamWord := plainWord 5 0
  let rest : List StreamWord := [plainWord 6 1]
  (j < 4) ∧ (k < s.part.numCB) ∧ ((s.cab k).ins.length = 4) ∧ ((s.feed (feedFP k j)).inq = w :: rest) ∧ (256 ≤ (s.inPort k j).fifo.length) := by decide +kernel

theorem BoundaryAndPins_3_met :
  let s : State := (die .run [(Fld.DIO_FPI_CFG_G, 23, 3, 1)]).setCab 23 { Cabinet.init with ins := [InPort.init, InPort.init, InPort.init, ⟨[plainWord 1 1, plainWord 2 2, plainWord 3 3, plainWord 4 4], true, false, true, true, []⟩] }
  let k : Nat := 23
  let j : Nat := 3
  (j < 4) ∧ (k < s.part.numCB) ∧ ((s.cab k).ins.length = 4) ∧ ((s.inPort k j).taking = true) := by decide +kernel

theorem BoundaryAndPins_4_met :
  let s : State := ((die .run []).setCab 23 { Cabinet.init with outs := [OutPort.init, OutPort.init, OutPort.init, ⟨[], some (plainWord 9 0), 41⟩] }).setFeed (feedFC 3) ⟨0x305F, [], false⟩
  let k : Nat := 23
  let j : Nat := 3
  let w : StreamWord := plainWord 9 0
  (j < 4) ∧ (k < s.part.numCB) ∧ ((s.cab k).outs.length = 4) ∧ ((s.outPort k j).offer = some w) ∧ ((s.outPort k j).fifo = []) ∧ (s.isolated k = false) ∧ (s.mode ≠ .bench) ∧ (s.sourceHeld (portCode k j) = false) := by decide +kernel

theorem BoundaryAndPins_5_met :
  let s : State := (die .run [at1 Fld.SCRB_CB_STATE_STATE 23 2]).setCab 23 { Cabinet.init with outs := [OutPort.init, OutPort.init, OutPort.init, ⟨List.replicate 256 (plainWord 1 1), some (plainWord 9 0), 41⟩] }
  let k : Nat := 23
  let j : Nat := 3
  let w : StreamWord := plainWord 9 0
  (j < 4) ∧ (k < s.part.numCB) ∧ ((s.cab k).outs.length = 4) ∧ ((s.outPort k j).offer = some w) ∧ (256 ≤ (s.outPort k j).fifo.length) ∧ (s.isolated k = true) := by decide +kernel

theorem BoundaryAndPins_6_met :
  let s : State := ((die .run []).setCab 23 { Cabinet.init with agents := [AgentPort.init, { AgentPort.init with busy := true, post := some (1030, 0x12345) }] }).setChan 1030 { Chan.init with alloc := true, snd := (Agent.port 23 1).code, posts := 65535 }
  let k : Nat := 23
  let c : Nat := 1030
  let w : Nat := 0x12345
  let a : PortAct := ⟨1, none⟩
  (a.port < 2) ∧ (k < s.part.numCB) ∧ ((s.cab k).agents.length = 2) ∧ (s.portDoes a (s.agent k a.port).post = some (c, w)) ∧ ((s.chan c).alloc = true) ∧ ((s.chan c).snd = (Agent.port k a.port).code) ∧ ((s.chan c).full = false) ∧ (s.portTurn k a.port = true) := by decide +kernel

theorem BoundaryAndPins_7_met :
  let s : State := (die .run []).setCab 23 { Cabinet.init with agents := [AgentPort.init, { AgentPort.init with busy := true, post := some (1030, 0x12345) }] }
  let k : Nat := 23
  let c : Nat := 1030
  let w : Nat := 0x12345
  let a : PortAct := ⟨1, none⟩
  (a.port < 2) ∧ (k < s.part.numCB) ∧ ((s.cab k).agents.length = 2) ∧ (s.portDoes a (s.agent k a.port).post = some (c, w)) ∧ ((s.chan c).alloc = false) ∧ (s.portTurn k a.port = true) := by decide +kernel

theorem BoundaryAndPins_8_met :
  let s : State := ((die .run []).setCab 23 { Cabinet.init with agents := [AgentPort.init, { AgentPort.init with take := some 1030 }] }).setChan 1030 { Chan.init with alloc := true, full := true, snd := (Agent.port 2 1).code, rcv := (Agent.port 23 1).code, word := 7 }
  let k : Nat := 23
  let c : Nat := 1030
  let d : Nat := 0
  let a : PortAct := ⟨1, none⟩
  (a.port < 2) ∧ (k < s.part.numCB) ∧ ((s.cab k).agents.length = 2) ∧ (s.portDoes a ((s.agent k a.port).take.map fun c => (c, 0)) = some (c, d)) ∧ ((s.chan c).alloc = true) ∧ ((s.chan c).rcv = (Agent.port k a.port).code) ∧ ((s.chan c).full = true) ∧ (s.portTurn k a.port = true) := by decide +kernel

theorem BoundaryAndPins_9_met :
  let s : State := ((die .run []).setCab 23 { Cabinet.init with agents := [AgentPort.init, { AgentPort.init with dbclr := some 1030 }] }).setChan 1030 { Chan.init with alloc := true, db := 9, rcv := (Agent.port 23 1).code }
  let k : Nat := 23
  let c : Nat := 1030
  let d : Nat := 0
  let a : PortAct := ⟨1, none⟩
  (a.port < 2) ∧ (k < s.part.numCB) ∧ (s.portDoes a ((s.agent k a.port).dbclr.map fun c => (c, 0)) = some (c, d)) ∧ ((s.chan c).alloc = true) ∧ ((s.chan c).rcv = (Agent.port k a.port).code) ∧ (s.portTurn k a.port = true) := by decide +kernel

theorem BoundaryAndPins_10_met :
  let s : State := { die .run [at1 Fld.PRB_CTL_EN 15 1, at1 Fld.PRB_SEL_KIND 15 1, at1 Fld.PRB_SEL_CB 15 3, at1 Fld.PRB_SEL_CODE 15 5, at1 Fld.SCRB_CB_STATE_STATE 3 1, at1 Fld.FAB_GCLK_EN 0 1, at1 Fld.FAB_GCLK_DIV 0 8] with fcells := [(773, { FabCell.init with ow := 77 })] }
  let p : Nat := 15
  (p < 16) ∧ (s.on Fld.PRB_CTL_EN p = true) ∧ (s.mode.probes = true) ∧ (s.f Fld.PRB_SEL_KIND p = 1) ∧ (s.gclkRuns (s.f Fld.PRB_CTL_CLK p) = true) ∧ (s.f Fld.PRB_CTL_DIV_M1 p ≤ (s.probe p).skip) ∧ (s.f Fld.PRB_SEL_CB p < s.part.numCB) ∧ (s.isSecure (s.f Fld.PRB_SEL_CB p) = false) ∧ (s.cbState (s.f Fld.PRB_SEL_CB p) = 1) ∧ (s.f Fld.PRB_SEL_CODE p < 4096) := by decide +kernel

theorem BoundaryAndPins_11_met :
  let s : State := die .run [at1 Fld.PRB_CTL_EN 15 1, at1 Fld.PRB_SEL_KIND 15 2, at1 Fld.PRB_SEL_CB 15 3, at1 Fld.SCRB_CB_STATE_SECURE 3 1, at1 Fld.FAB_GCLK_EN 0 1, at1 Fld.FAB_GCLK_DIV 0 8]
  let p : Nat := 15
  (p < 16) ∧ (s.on Fld.PRB_CTL_EN p = true) ∧ (s.mode.probes = true) ∧ (s.f Fld.PRB_SEL_KIND p = 2) ∧ (s.gclkRuns (s.f Fld.PRB_CTL_CLK p) = true) ∧ (s.f Fld.PRB_CTL_DIV_M1 p ≤ (s.probe p).skip) ∧ (s.f Fld.PRB_SEL_CB p < s.part.numCB) ∧ (s.isSecure (s.f Fld.PRB_SEL_CB p) = true) := by decide +kernel

theorem BoundaryAndPins_12_met :
  let b : Nat := 7
  (b < 8) := by decide +kernel

theorem BoundaryAndPins_13_met :
  let s : State := die .slumber []
  let n : Nat := 255
  (n < 256) ∧ (s.mode.pinWrites = true) ∧ (s.underCheck (Reg.DIO_PIN_CFG.addr n 0) = false) := by decide +kernel

theorem BoundaryAndPins_14_met :
  let s : State := die .load []
  let n : Nat := 255
  let w : Word := 0xFFFFFFFF
  (n < 256) ∧ (s.mode.pinWrites = false) ∧ (s.underCheck (Reg.DIO_PIN_CFG.addr n 0) = false) ∧ (w &&& 0x1FFFFFFF ≠ s.word (Reg.DIO_PIN_CFG.addr n 0)) := by decide +kernel

theorem BoundaryAndPins_15_met :
  let s : State := (die .run [at1 Fld.TWN_STAT_PAIRED 0 1]).setCab 23 { Cabinet.init with agents := [AgentPort.init, { AgentPort.init with busy := true, post := some (1030, 0x12345) }] }
  let k : Nat := 23
  let a : PortAct := ⟨1, none⟩
  (a.port < 2) ∧ (k < 24) ∧ (s.standby = true) ∧ (a.mirror = none) := by decide +kernel

theorem BoundaryAndPins_16_met :
  let s : State := ((die .run [at1 Fld.TWN_STAT_PAIRED 0 1]).setCab 23 { Cabinet.init with agents := [AgentPort.init, { AgentPort.init with busy := true, post := some (1030, 0x12345) }] }).setChan 1030 { Chan.init with alloc := true, full := true, snd := (Agent.port 23 1).code }
  let k : Nat := 23
  let c : Nat := 1030
  let w : Nat := 0x12345
  let a : PortAct := ⟨1, some (1030, 0x12345)⟩
  (a.port < 2) ∧ (k < s.part.numCB) ∧ (s.standby = true) ∧ (a.mirror = some (c, w)) ∧ ((s.chan c).alloc = true) ∧ ((s.chan c).snd = (Agent.port k a.port).code) ∧ ((s.chan c).full = true) ∧ ((s.cab k).agents.length = 2) := by decide +kernel

theorem BoundaryAndPins_17_met :
  let s : State := ((die .run []).setCab 23 { Cabinet.init with agents := [AgentPort.init, { AgentPort.init with take := some 1030 }] }).setChan 1030 { Chan.init with alloc := true, full := true, snd := (Agent.port 2 1).code, rcv := (Agent.port 22 1).code, word := 7 }
  let k : Nat := 23
  let c : Nat := 1030
  let d : Nat := 0
  let a : PortAct := ⟨1, none⟩
  (a.port < 2) ∧ (k < s.part.numCB) ∧ (s.portDoes a ((s.agent k a.port).take.map fun c => (c, 0)) = some (c, d)) ∧ (((s.chan c).alloc = false ∨ (s.chan c).rcv ≠ (Agent.port k a.port).code)) ∧ (s.portTurn k a.port = true) := by decide +kernel

theorem StreamOpensAndFramesAreWritten_1_met :
  let s : State := { die .load [] with stream := { Stream.init with active := true, waiting := [0xFFFFFFFF, 5], pre := 1023 } }
  let rest : List Word := [5]
  (s.mode = .load) ∧ (s.stream.active = true) ∧ (s.stream.kind = .full) ∧ (s.stream.src = 0) ∧ (s.stream.sigWait = false) ∧ (s.stream.synced = false) ∧ (s.stream.tag = 0) ∧ (s.stream.waiting = 0xFFFFFFFF :: rest) ∧ (s.stream.pre < 1024) := by decide +kernel

theorem StreamOpensAndFramesAreWritten_2_met :
  let s : State := { die .load [] with stream := { Stream.init with active := true, waiting := [0xFFFFFFFF, 5], pre := 1024 } }
  let w : Word := 0xFFFFFFFF
  let rest : List Word := [5]
  (s.mode = .load) ∧ (s.stream.active = true) ∧ (s.stream.kind = .full) ∧ (s.stream.src = 0) ∧ (s.stream.sigWait = false) ∧ (s.stream.synced = false) ∧ (s.stream.waiting = w :: rest) ∧ (w ≠ 0x4B454E31) ∧ ((w = 0xFFFFFFFF → 1024 ≤ s.stream.pre)) := by decide +kernel

theorem StreamOpensAndFramesAreWritten_3_met :
  let s : State := { die .load [] with stream := { Stream.init with active := true, waiting := [0x4B454E31, 5], pre := 3 } }
  let rest : List Word := [5]
  (s.mode = .load) ∧ (s.stream.active = true) ∧ (s.stream.kind = .full) ∧ (s.stream.src = 0) ∧ (s.stream.sigWait = false) ∧ (s.stream.synced = false) ∧ (s.stream.waiting = 0x4B454E31 :: rest) := by decide +kernel

theorem StreamOpensAndFramesAreWritten_4_met :
  let s : State := { die .load [] with stream := { Stream.init with active := true, src := 2 } }
  (s.mode = .load) ∧ (s.stream.active = true) ∧ (s.stream.kind = .full) ∧ (s.stream.src = 2) ∧ (s.stream.sigWait = false) ∧ (s.stream.synced = false) ∧ (s.stream.waiting = []) := by decide +kernel

theorem StreamOpensAndFramesAreWritten_5_met :
  let s : State := { die .load [] with stream := { Stream.init with active := true, synced := true, crc := 0xFFFFFFFF, waiting := [0x5A000005, 0x4B4E0000 + BitVec.ofNat 32 Config.part.code, 1, 0x11111111, 0x22222222, 0x3, 7, 8] } }
  let code : Word := 0x4B4E0000 + BitVec.ofNat 32 Config.part.code
  let lo : Word := 0x11111111
  let hi : Word := 0x22222222
  let sec : Word := 0x3
  let rest : List Word := [7, 8]
  (s.loading = true) ∧ (s.stream.tag = 0) ∧ (s.stream.last = 0) ∧ (s.stream.waiting = [0x5A000005, code, 1, lo, hi, sec] ++ rest) ∧ (code.bits 16 16 = 0x4B4E) ∧ (code.bits 0 16 = s.part.code) ∧ (sec.toNat < 2 ^ s.part.numCB) ∧ (s.part.numCB ≤ 24) := by decide +kernel

theorem StreamOpensAndFramesAreWritten_6_met :
  let s : State := { die .load [] with stream := { Stream.init with active := true, synced := true, tag := tagDevice, len := 5, pos := 1, waiting := [0x4B4E1234] } }
  let code : Word := 0x4B4E1234
  let rest : List Word := []
  (s.loading = true) ∧ (s.stream.tag = tagDevice) ∧ (s.stream.got = 0) ∧ (s.stream.len = 5) ∧ (s.stream.waiting = code :: rest) ∧ (code.bits 0 16 ≠ s.part.code) ∧ (code.bits 0 16 ≠ 0x9640) := by decide +kernel

theorem StreamOpensAndFramesAreWritten_7_met :
  let s : State := { die .partialRun [] with stream := { Stream.init with active := true, kind := .region 23, gate := true, synced := true, tag := tagRegion, len := 1, waiting := [0x117, 9] } }
  let k : Nat := 23
  let w : Word := 0x117
  let rest : List Word := [9]
  (s.stream.active = true) ∧ (s.stream.sigWait = false) ∧ (s.stream.kind = .region k) ∧ (s.stream.gate = true) ∧ (s.stream.src = 0) ∧ (s.stream.synced = true) ∧ (s.stream.tag = tagRegion) ∧ (s.stream.got = 0) ∧ (s.stream.len = 1) ∧ (s.stream.waiting = w :: rest) ∧ (w &&& 0xFFFFFEE0 = 0) ∧ (w.bits 0 5 = k) := by decide +kernel

theorem StreamOpensAndFramesAreWritten_8_met :
  let s : State := { die .partialRun [at1 Fld.SCRB_CB_STATE_STATE 23 2] with stream := { Stream.init with active := true, kind := .region 23, gate := true, synced := true, tag := tagRegion, len := 1, pos := 9, waiting := [0x105, 9] } }
  let k : Nat := 23
  let w : Word := 0x105
  let rest : List Word := [9]
  (k < 24) ∧ (s.stream.active = true) ∧ (s.stream.sigWait = false) ∧ (s.stream.kind = .region k) ∧ (s.stream.gate = true) ∧ (s.stream.src = 0) ∧ (s.stream.synced = true) ∧ (s.stream.tag = tagRegion) ∧ (s.stream.got = 0) ∧ (s.stream.len = 1) ∧ (s.stream.waiting = w :: rest) ∧ (w &&& 0xFFFFFEE0 = 0) ∧ (w.bits 0 5 ≠ k) := by decide +kernel

theorem StreamOpensAndFramesAreWritten_9_met :
  let s : State := { die .load [] with stream := { Stream.init with active := true, synced := true, last := tagFrames, next := some 4194304, waiting := [0x110A0002, 4194304, 20480, 1] } }
  let fa : Nat := 4194304
  let n : Nat := 20480
  let rest : List Word := [1]
  (s.loading = true) ∧ (s.stream.tag = 0) ∧ ((s.stream.last = tagDevice ∨ s.stream.last = tagFrames)) ∧ (fa < 2 ^ 24) ∧ (s.stream.next = some fa) ∧ (1 ≤ n) ∧ (n ≤ 20480) ∧ (s.stream.waiting = [BitVec.ofNat 32 (0x11000002 + 32 * n), BitVec.ofNat 32 fa, BitVec.ofNat 32 n] ++ rest) := by decide +kernel

theorem StreamOpensAndFramesAreWritten_10_met :
  let s : State := { die .load [] with stream := { Stream.init with active := true, synced := true, tag := tagFrames, got := 2, len := 34, fa := some 255, next := some 255, waiting := List.replicate 8 0xABCDEF ++ [0x12345, 0xFFFFFFFF, 0, 0x1FFFFF] ++ List.replicate 20 0 ++ [3] } }
  let fa : Nat := 255
  let ws : List Word := List.replicate 8 0xABCDEF ++ [0x12345, 0xFFFFFFFF, 0, 0x1FFFFF] ++ List.replicate 20 0
  let rest : List Word := [3]
  (s.loading = true) ∧ (s.stream.tag = tagFrames) ∧ (2 ≤ s.stream.got) ∧ (s.stream.got + 32 ≤ s.stream.len) ∧ (s.stream.frame = []) ∧ (s.stream.fa = some fa) ∧ (s.stream.next = some fa) ∧ (frameType fa < 2) ∧ (fa < 2 ^ 24) ∧ (ws.length = 32) ∧ (s.stream.waiting = ws ++ rest) ∧ (s.stream.frames < 2 ^ 20) ∧ ((ws.zipIdx.all fun e => e.1 &&& ~~~frameMask s.part fa e.2 == 0) = true) := by decide +kernel

theorem StreamOpensAndFramesAreWritten_11_met :
  let s : State := { die .load [] with stream := { Stream.init with active := true, synced := true, tag := tagFrames, got := 2, len := 34, fa := some 5, next := some 6, waiting := [0] } }
  let w : Word := 0
  let rest : List Word := []
  (s.loading = true) ∧ (s.stream.tag = tagFrames) ∧ (2 ≤ s.stream.got) ∧ (s.stream.frame = []) ∧ (s.stream.fa ≠ s.stream.next) ∧ (s.stream.waiting = w :: rest) := by decide +kernel

theorem StreamRecordsAreTaken_1_met :
  let s : State := { die .load [] with stream := { Stream.init with active := true, synced := true, tag := tagAnalog, len := 2, waiting := [BitVec.ofNat 32 (Reg.FC_COEFA.addr 47 127), 0x8001FFFF, 9] } }
  let n : Nat := 47
  let c : Nat := 127
  let v : Word := 0x8001FFFF
  let rest : List Word := [9]
  (s.loading = true) ∧ (s.stream.tag = tagAnalog) ∧ (s.stream.entry = none) ∧ (s.stream.got + 2 ≤ s.stream.len) ∧ (n < s.part.numFC) ∧ (n < 48) ∧ (c < 128) ∧ (s.on Fld.FC_CTL_EN n = false) ∧ (s.lclk = true) ∧ (s.stream.waiting = [BitVec.ofNat 32 (Reg.FC_COEFA.addr n c), v] ++ rest) := by decide +kernel

theorem StreamRecordsAreTaken_2_met :
  let s : State := { die .load [] with stream := { Stream.init with active := true, synced := true, tag := tagAnalog, len := 2, waiting := [BitVec.ofNat 32 (Reg.CG_CTL.addr 23 0), 0x8001FFFF, 9] } }
  let g : Nat := 23
  let v : Word := 0x8001FFFF
  let rest : List Word := [9]
  (s.loading = true) ∧ (s.stream.tag = tagAnalog) ∧ (s.stream.entry = none) ∧ (s.stream.got + 2 ≤ s.stream.len) ∧ (g < s.part.numCG) ∧ (g < 24) ∧ (s.stream.deferred.length < 256) ∧ (s.stream.waiting = [BitVec.ofNat 32 (Reg.CG_CTL.addr g 0), v] ++ rest) := by decide +kernel

theorem StreamRecordsAreTaken_3_met :
  let s : State := { die .load [] with stream := { Stream.init with active := true, synced := true, tag := tagAnalog, len := 2, waiting := [0x80600000, 0x8001FFFF, 9] } }
  let w : Word := 0x80600000
  let rest : List Word := [0x8001FFFF, 9]
  (s.loading = true) ∧ (s.stream.tag = tagAnalog) ∧ (s.stream.entry = none) ∧ (s.stream.got < s.stream.len) ∧ (w.bits 24 7 = 0) ∧ (0x600000 ≤ w.bits 0 24) ∧ (s.stream.waiting = w :: rest) := by decide +kernel

theorem StreamRecordsAreTaken_4_met :
  let s : State := { die .load [] with stream := { Stream.init with active := true, synced := true, last := tagFrames, waiting := [0x44000003, 0xFF800001, 0x100, 5, 9] } }
  let w0 : Word := 0xFF800001
  let w1 : Word := 0x100
  let w2 : Word := 5
  let rest : List Word := [9]
  (s.loading = true) ∧ (s.stream.tag = 0) ∧ ((s.stream.last = tagFrames ∨ s.stream.last = tagAnalog)) ∧ (w0.bits 0 24 < 2 ^ s.part.numCB) ∧ (s.stream.waiting = [0x44000003, w0, w1, w2] ++ rest) := by decide +kernel

theorem StreamRecordsAreTaken_5_met :
  let s : State := { die .load [] with stream := { Stream.init with active := true, synced := true, last := tagStartup, waiting := [0x77000008], taken := [3, 2, 1] } }
  (s.loading = true) ∧ (s.stream.tag = 0) ∧ (s.stream.last = tagStartup) ∧ (s.stream.waiting = [0x77000008]) := by decide +kernel

theorem StreamRecordsAreTaken_6_met :
  let s : State := { die .load [] with stream := { Stream.init with active := true, synced := true, last := tagDigest, tag := tagDigest, len := 8, got := 7, waiting := [0x20000], digest := List.replicate 30 0 ++ [2, 0] } }
  let i : Nat := 7
  let w : Word := 0x20000
  (s.loading = true) ∧ (s.stream.tag = tagDigest) ∧ (s.stream.last = tagDigest) ∧ (s.stream.len = 8) ∧ (s.stream.got = i) ∧ (i < 8) ∧ ((wordsOfBytes s.stream.digest 8)[i]? = some w) ∧ (s.stream.waiting = [w]) := by decide +kernel

theorem StreamRecordsAreTaken_7_met :
  let s : State := { die .load [] with stream := { Stream.init with active := true, synced := true, last := tagDigest, tag := tagDigest, len := 8, got := 7, waiting := [0x20001], digest := List.replicate 30 0 ++ [2, 0] } }
  let i : Nat := 7
  let w : Word := 0x20001
  let v : Word := 0x20000
  let rest : List Word := []
  (s.loading = true) ∧ (s.stream.tag = tagDigest) ∧ (s.stream.got = i) ∧ ((wordsOfBytes s.stream.digest 8)[i]? = some v) ∧ (v ≠ w) ∧ (s.stream.waiting = w :: rest) := by decide +kernel

theorem StreamRecordsAreTaken_8_met :
  let s : State := { die .load [] with stream := { Stream.init with active := true, synced := true, last := tagSignature, tag := tagSignature, len := 643, got := 642, waiting := [7, 8] } }
  let w : Word := 7
  let rest : List Word := [8]
  (s.loading = true) ∧ (s.stream.tag = tagSignature) ∧ (1 ≤ s.stream.got) ∧ (s.stream.got + 1 = s.stream.len) ∧ (s.stream.waiting = w :: rest) := by decide +kernel

theorem StreamRecordsAreTaken_9_met :
  let s : State := { die .load [] with stream := { Stream.init with active := true, synced := true, last := tagSignature, tag := tagSignature, len := 643, waiting := [0xB00, 8] } }
  let w : Word := 0xB00
  let rest : List Word := [8]
  (s.loading = true) ∧ (s.stream.tag = tagSignature) ∧ (s.stream.got = 0) ∧ (w &&& 0xFFFFE0FC = 0) ∧ (w.bits 8 5 = 11) ∧ (s.stream.waiting = w :: rest) := by decide +kernel

theorem StreamRecordsAreTaken_10_met :
  let s : State := { die .load [] with stream := { Stream.init with active := true, sigWait := true, sig := [0xA00], pos := 900 } }
  let mclk : Nat := 800000
  (mclk ≤ 800000) ∧ (s.stream.active = true) ∧ (s.stream.sigWait = true) ∧ (s.bur.running = true) ∧ (s.stream.kind = .full) ∧ (s.mode = .load) := by decide +kernel

theorem StreamRecordsAreTaken_11_met :
  let s : State := { die .load [] with stream := { Stream.init with active := true, sigWait := true, sig := [0xA01], pos := 900 } }
  let mclk : Nat := 1
  (mclk ≤ 800000) ∧ (s.stream.active = true) ∧ (s.stream.sigWait = true) ∧ (s.bur.running = true) ∧ (s.stream.kind = .full) ∧ (s.mode = .load) ∧ ((s.f Fld.BUR_POLICY_ENROLLED).testBit ((s.stream.sig.headD 0).bits 0 2) = false) := by decide +kernel

theorem StreamRecordsAreTaken_12_met :
  let s : State := { die .load [] with stream := { Stream.init with active := true, synced := true, last := tagEnd, tag := tagEnd, len := 1, crc := 99, pos := 50, waiting := [7, 8] } }
  let w : Word := 7
  let rest : List Word := [8]
  (s.loading = true) ∧ (s.stream.tag = tagEnd) ∧ (s.stream.got = 0) ∧ (s.stream.len = 1) ∧ (s.stream.waiting = w :: rest) := by decide +kernel

theorem LoadsAreVerifiedAndFinished_1_met :
  let s : State := { die .load [] with stream := { Stream.init with active := true, waiting := [4] } }
  (s.funcAnswers 0 = true) ∧ (s.mode = .load) ∧ (s.stream.active = true) ∧ (s.stream.src = 0) := by decide +kernel

theorem LoadsAreVerifiedAndFinished_2_met :
  let s : State := die .run []
  let ws : List (Word × Bool) := [(5, true)]
  (s.funcAnswers 0 = true) ∧ ((s.mode ≠ .load ∨ s.stream.active = false ∨ s.stream.src ≠ 0)) ∧ (ws ≠ []) := by decide +kernel

theorem LoadsAreVerifiedAndFinished_3_met :
  let s : State := { die .load [] with stream := { Stream.init with active := true } }
  (s.funcAnswers 0 = true) ∧ (s.mode = .load) ∧ (s.stream.active = true) ∧ (s.stream.src = 0) := by decide +kernel

theorem LoadsAreVerifiedAndFinished_4_met :
  let s : State := { die .load [] with part := Part.kn9640T, stream := { Stream.init with active := true, src := 3 } }
  (s.part.isTwin = true) ∧ (s.mode = .load) ∧ (s.stream.active = true) ∧ (s.stream.src = 3) := by decide +kernel

theorem LoadsAreVerifiedAndFinished_5_met :
  let s : State := { die .verify [at1 Fld.CFG_WORDS 0 77] with stream := { Stream.init with crc := 5, crcEnd := 9 } }
  (s.mode = .verify) ∧ (s.bur.running = true) ∧ (s.stream.crc ^^^ 0xFFFFFFFF ≠ s.stream.crcEnd) := by decide +kernel

theorem LoadsAreVerifiedAndFinished_6_met :
  let s : State := { die .verify [at1 Fld.CFG_WORDS 0 77] with stream := { Stream.init with crc := 0xFFFFFFFF, crcEnd := 0, next := some 3 } }
  (s.mode = .verify) ∧ (s.bur.running = true) ∧ (s.stream.crc ^^^ 0xFFFFFFFF = s.stream.crcEnd) ∧ (s.stream.next.isSome = true) := by decide +kernel

theorem LoadsAreVerifiedAndFinished_7_met :
  let s : State := { die .verify [at1 Fld.BUR_POLICY_REQ_SIGNED 0 1] with stream := { Stream.init with next := none, crc := 0xFFFFFFFF, crcEnd := 0 } }
  (s.mode = .verify) ∧ (s.bur.running = true) ∧ (s.stream.crc ^^^ 0xFFFFFFFF = s.stream.crcEnd) ∧ (s.stream.next = none) ∧ (s.stream.signed = false) ∧ (s.on Fld.BUR_POLICY_REQ_SIGNED = true) := by decide +kernel

theorem LoadsAreVerifiedAndFinished_8_met :
  let s : State := { die .verify [] with stream := { Stream.init with next := none, crc := 0xFFFFFFFF, crcEnd := 0, analog := [3, 4] } }
  (s.mode = .verify) ∧ (s.bur.running = true) ∧ (s.stream.crc ^^^ 0xFFFFFFFF = s.stream.crcEnd) ∧ (s.stream.next = none) ∧ (s.policyMet = true) ∧ (s.census.on Fld.AC_CENSUS_PASS = true) := by decide +kernel

theorem LoadsAreVerifiedAndFinished_9_met :
  let s : State := { die .verify [at1 Fld.AP_CTL_EN 1 1, at1 Fld.AC_CTL_FUNC 2 1, (Reg.AC_LT, 2, 1, 0x11)] with stream := { Stream.init with next := none, crc := 0xFFFFFFFF, crcEnd := 0 } }
  (s.mode = .verify) ∧ (s.bur.running = true) ∧ (s.stream.crc ^^^ 0xFFFFFFFF = s.stream.crcEnd) ∧ (s.stream.next = none) ∧ (s.policyMet = true) ∧ (s.census.on Fld.AC_CENSUS_PASS = false) := by decide +kernel

theorem LoadsAreVerifiedAndFinished_10_met :
  let s : State := { die .wakeUp [] with stream := { Stream.init with cbmask := 8, secmask := 8, design := 44 } }
  let k : Nat := 3
  (s.mode = .wakeUp) ∧ ((s.stream.refwait = false ∨ s.allSettled = true)) ∧ (k < s.part.numCB) ∧ (s.part.numCB ≤ 24) ∧ (s.stream.deferred = []) ∧ ((s.rings.all fun e => e.2.arrived.isEmpty && e.2.late.isEmpty) = true) := by decide +kernel

theorem LoadsAreVerifiedAndFinished_11_met :
  let s : State := { die .wakeUp [] with stream := { Stream.init with refwait := true, cbmask := 8 } }
  let k : Nat := 3
  (s.mode = .wakeUp) ∧ (s.stream.refwait = true) ∧ (s.allSettled = false) ∧ (k < s.part.numCB) ∧ (s.part.numCB ≤ 24) ∧ (s.stream.deferred = []) ∧ ((s.rings.all fun e => e.2.arrived.isEmpty && e.2.late.isEmpty) = true) := by decide +kernel

theorem LoadsAreVerifiedAndFinished_12_met :
  let s : State := { die .wakeUp [] with stream := { Stream.init with refwait := true, cbmask := 8 } }
  (s.mode = .wakeUp) ∧ (s.stream.refwait = true) ∧ (s.allSettled = false) := by decide +kernel

theorem LoadsAreVerifiedAndFinished_13_met :
  let s : State := { die .partialRun [] with stream := { Stream.init with active := true, kind := .region 5 } }
  let k : Nat := 5
  (s.stream.kind = .region k) ∧ (s.stream.active = true) := by decide +kernel

theorem LoadsAreVerifiedAndFinished_14_met :
  let s : State := { die .partialRun [at1 Fld.SCRB_CB_STATE_STATE 5 2] with stream := { Stream.init with next := none, kind := .region 5, ended := true, crc := 0xFFFFFFFF, cbmask := 32 } }
  let k : Nat := 5
  (k < 24) ∧ (s.stream.kind = .region k) ∧ (s.stream.ended = true) ∧ (s.bur.running = true) ∧ (s.stream.crc ^^^ 0xFFFFFFFF = s.stream.crcEnd) ∧ (s.stream.next = none) ∧ (s.policyMet = true) ∧ (((s.stream.secure = true ∨ s.stream.wasSecure = true) → s.stream.signed = true)) := by decide +kernel

theorem LoadsAreVerifiedAndFinished_15_met :
  let s : State := { die .partialRun [at1 Fld.SCRB_CB_STATE_STATE 5 2] with stream := { Stream.init with next := none, kind := .region 5, ended := true, secure := true, crc := 0xFFFFFFFF, cbmask := 32 } }
  let k : Nat := 5
  (k < 24) ∧ (s.stream.kind = .region k) ∧ (s.stream.ended = true) ∧ (s.bur.running = true) ∧ (s.stream.crc ^^^ 0xFFFFFFFF = s.stream.crcEnd) ∧ (s.stream.next = none) ∧ (s.policyMet = true) ∧ (s.stream.secure = true) ∧ (s.stream.signed = false) := by decide +kernel

theorem ScrubbingFindsUpsets_1_met :
  let s : State := die .doze [at1 Fld.SCRB_CTL_EN 0 1]
  (s.mode.scrubs = true) ∧ (s.on Fld.SCRB_CTL_EN = true) ∧ (s.scrub.at_ = none) := by decide +kernel

theorem ScrubbingFindsUpsets_2_met :
  let s : State := { die .run [at1 Fld.SCRB_CB_STATE_STATE 3 1] with scrub := { Scrub.init with at_ := some 393216 } }
  let fa : Nat := 393216
  let n : Nat := 393217
  (s.scrub.at_ = some fa) ∧ (s.scrub.touched = false) ∧ (s.scrub.held = []) ∧ (frameType fa < 2) ∧ (fa < 2 ^ 24) ∧ (s.scrubs fa = true) ∧ (syndrome (s.frameWords fa) (Tab.get (fun _ => 0) s.checks fa) = .clean) ∧ (s.scrubFrom (nextFrame s.part fa) 64 = some n) ∧ (Tab.wf (fun _ => 0) s.frames = true) ∧ (Tab.wf (fun _ => 0) s.checks = true) := by decide +kernel

theorem ScrubbingFindsUpsets_3_met :
  let s : State := { die .run [] with scrub := { Scrub.init with at_ := some 12583167 } }
  let fa : Nat := 12583167
  (s.scrub.at_ = some fa) ∧ (s.scrub.touched = false) ∧ (s.scrub.held = []) ∧ (frameType fa = 3) ∧ (nextFrame s.part fa = none) := by decide +kernel

theorem ScrubbingFindsUpsets_4_met :
  let s : State := { die .run [at1 Fld.SCRB_CB_STATE_STATE 3 1] with scrub := { Scrub.init with at_ := some 393216 } }
  let fa : Nat := 393216
  let k : Nat := 3
  let b : Nat := 1023
  (k < 24) ∧ (s.scrub.at_ = some fa) ∧ (s.scrub.touched = false) ∧ (s.scrub.held = []) ∧ (frameType fa < 2) ∧ (frameZone fa = k) ∧ (fa < 2 ^ 24) ∧ (s.cbState k = 1) ∧ (b < 1024) ∧ (s.on Fld.TWN_STAT_PAIRED = false) ∧ (s.f Fld.SCRB_CB_SGL k < 65535) ∧ ((Tab.get (fun _ => 0) s.checks fa) = checkWord (s.frameWords fa)) := by decide +kernel

theorem ScrubbingFindsUpsets_5_met :
  let s : State := { die .run [at1 Fld.SCRB_CB_STATE_STATE 3 1, at1 Fld.FAB_CTL_CLKEN 3 1] with scrub := { Scrub.init with at_ := some 393216 } }
  let fa : Nat := 393216
  let k : Nat := 3
  let a : Nat := 0
  let b : Nat := 1023
  (k < 24) ∧ (s.scrub.at_ = some fa) ∧ (s.scrub.touched = false) ∧ (s.scrub.held = []) ∧ (frameType fa < 2) ∧ (frameZone fa = k) ∧ (fa < 2 ^ 24) ∧ (s.cbState k = 1) ∧ (a < 1024) ∧ (b < 1024) ∧ (a ≠ b) ∧ (s.on Fld.TWN_STAT_PAIRED = false) ∧ (s.on Fld.SCRB_CB_DBL_VALID k = false) ∧ (s.mode = .run) ∧ ((Tab.get (fun _ => 0) s.checks fa) = checkWord (s.frameWords fa)) := by decide +kernel

theorem ScrubbingFindsUpsets_6_met :
  let s : State := { die .run [] with scrub := { Scrub.init with at_ := some 12583166 } }
  let fa : Nat := 12583166
  let n : Nat := 12583167
  let b : Nat := 1035
  (s.scrub.at_ = some fa) ∧ (s.scrub.touched = false) ∧ (s.scrub.held = []) ∧ (frameType fa = 3) ∧ (b < 1036) ∧ (nextFrame s.part fa = some n) ∧ (s.f Fld.SCRB_HB_SGL < 65535) := by decide +kernel

theorem ScrubbingFindsUpsets_7_met :
  let s : State := die .run []
  (s.mode ≠ .reset) ∧ ((agreed s.voted.ctl && agreed s.voted.irqen) = true) := by decide +kernel

theorem ScrubbingFindsUpsets_8_met :
  let s : State := { die .run [] with voted := ⟨(0x80000001, 0x80000001, 1), (3, 2, 2)⟩ }
  (s.mode ≠ .reset) ∧ ((agreed s.voted.ctl && agreed s.voted.irqen) = false) ∧ ((majority s.voted.ctl).bit 31 = true) := by decide +kernel

theorem ScrubbingFindsUpsets_9_met :
  let s : State := { die .run [at1 Fld.SCRB_CB_STATE_STATE 3 1] with scrub := { Scrub.init with at_ := some 393216, touched := true, discards := 3 } }
  let fa : Nat := 393216
  let flips : List Nat := [1035]
  (s.scrub.touched = true) ∧ (s.frameAt = some fa) ∧ (flips.all (· < 1036) = true) := by decide +kernel

theorem ScrubbingFindsUpsets_10_met :
  let s : State := { die .run [] with scrub := { Scrub.init with at_ := some (3 * 2 ^ 22 + 7) } }
  let n : Nat := 255
  let w : Word := 0x201
  (n < 256) ∧ (s.underCheck (Reg.DIO_PIN_CFG.addr n 0) = true) ∧ (s.scrub.hold = false) ∧ (s.mode.pinWrites = true) ∧ (w &&& 0x1FFFFFFF ≠ s.word (Reg.DIO_PIN_CFG.addr n 0)) := by decide +kernel

theorem ScrubbingFindsUpsets_11_met :
  let s : State := { die .run [] with scrub := { Scrub.init with at_ := some (3 * 2 ^ 22 + 7), discards := 4, hold := true } }
  let n : Nat := 255
  (n < 256) ∧ (s.underCheck (Reg.DIO_PIN_CFG.addr n 0) = true) ∧ (s.scrub.hold = true) := by decide +kernel

theorem ScrubbingFindsUpsets_12_met :
  let s : State := { die .run [] with scrub := { Scrub.init with at_ := some (3 * 2 ^ 22 + 7), discards := 4, hold := true, held := [⟨Reg.DIO_PIN_CFG.addr 255 0, 0xFFFFFFFF, false⟩] } }
  let fa : Nat := 3 * 2 ^ 22 + 7
  let m : Nat := 3 * 2 ^ 22 + 8
  let n : Nat := 255
  let w : Word := 0xFFFFFFFF
  (n < 256) ∧ (s.scrub.at_ = some fa) ∧ (s.scrub.touched = false) ∧ (frameType fa = 3) ∧ (s.scrub.held = [⟨Reg.DIO_PIN_CFG.addr n 0, w, false⟩]) ∧ (nextFrame s.part fa = some m) ∧ (s.mode.pinWrites = true) := by decide +kernel

theorem ScrubbingFindsUpsets_13_met :
  let s : State := { die .partialRun [at1 Fld.SCRB_CB_STATE_STATE 3 2] with scrub := { Scrub.init with at_ := some 393216 } }
  let fa : Nat := 393216
  let k : Nat := 3
  let a : Nat := 0
  let b : Nat := 1023
  (k < 24) ∧ (s.scrub.at_ = some fa) ∧ (s.scrub.touched = false) ∧ (s.scrub.held = []) ∧ (frameType fa < 2) ∧ (frameZone fa = k) ∧ (fa < 2 ^ 24) ∧ (s.cbState k = 2) ∧ (a < 1024) ∧ (b < 1024) ∧ (a ≠ b) ∧ (s.on Fld.TWN_STAT_PAIRED = false) ∧ (s.on Fld.SCRB_CB_DBL_VALID k = false) ∧ ((Tab.get (fun _ => 0) s.checks fa) = checkWord (s.frameWords fa)) := by decide +kernel

theorem RingRegisters_2_met :
  let s : State := die .run [at1 Fld.DMA_PDIR_IDX 0 65535, at1 Fld.DMA_PDIR_LO_DATA 0 0x200001]
  (s.entryUsed (s.f Fld.DMA_PDIR_IDX) = false) := by decide +kernel

theorem RingRegisters_3_met :
  let s : State := die .run [at1 Fld.DMA_PDIR_IDX 0 4, at1 Fld.DMA_RSTAT_ADMITTED 4095 1, at1 Fld.DMA_DATA_DPG 4095 4, at1 Fld.DMA_CFG_DIR 4095 1]
  let w : Word := 7
  (s.entryUsed (s.f Fld.DMA_PDIR_IDX) = true) ∧ (s.pd (s.f Fld.DMA_PDIR_IDX) ≠ w.toNat * 2 ^ 32 + (s.word Reg.DMA_PDIR_LO.base).toNat) := by decide +kernel

theorem RingRegisters_4_met :
  let s : State := (die .run [at1 Fld.DMA_MOD_AGE 9 1]).setRing 9 { Ring.init with opened := some ⟨3, [(plainWord 5 0, 77)], ⟨true, 77, 0, 0, 0, 0⟩, false, true, false⟩ }
  let r : Nat := 9
  let b : RingBlock := ⟨3, [(plainWord 5 0, 77)], ⟨true, 77, 0, 0, 0, 0⟩, false, true, false⟩
  (r < 4096) ∧ (s.f Fld.DMA_MOD_AGE r ≠ 0) ∧ (s.standby = false) ∧ (s.ringLive r = true) ∧ ((s.ring r).opened = some b) := by decide +kernel

theorem RingRegisters_5_met :
  let s : State := (die .run [at1 Fld.DMA_MOD_HOLD 9 1]).setRing 9 { Ring.init with blkCount := 2 }
  let r : Nat := 9
  (r < 4096) ∧ (s.f Fld.DMA_MOD_HOLD r ≠ 0) ∧ (0 < (s.ring r).blkCount) := by decide +kernel

theorem RingRegisters_6_met :
  let r : Nat := 9
  (r < 4096) := by decide +kernel

theorem RingRegisters_7_met :
  let s : State := (die .run []).setRing 9 { Ring.init with asked := 1 }
  let r : Nat := 9
  (r < 4096) ∧ (0 < (s.ring r).asked) := by decide +kernel

theorem RingBlocks_1_met :
  let s : State := ((die .run [at1 Fld.DMA_RSTAT_ADMITTED 9 1, at1 Fld.DMA_CFG_SRC 9 0x1003, at1 Fld.DMA_HEAD 9 5, at1 Fld.DMA_TAIL 9 4, at1 Fld.DMA_RATE 9 1000]).setFeed (feedRing 9) ⟨0x1003, [plainWord 7 1, plainWord 8 2], false⟩).setRing 9 { Ring.init with first := true }
  let r : Nat := 9
  let ns : Nat := 2
  let w : StreamWord := plainWord 7 1
  let rest : List StreamWord := [plainWord 8 2]
  (r < 4096) ∧ (s.ringLive r = true) ∧ (s.admitted r = true) ∧ (s.downstream r = false) ∧ ((s.feed (feedRing r)).inq = w :: rest) ∧ (w.index ≠ 0) ∧ (s.twin.closeAt = []) ∧ ((s.ring r).stopIn = none) ∧ ((s.ring r).opened = none) ∧ (s.canOpen r = true) ∧ (s.nothingHeld = true) ∧ (1000 * s.wordBytes r ≤ min 8192000 ((s.ring r).tokens + s.f Fld.DMA_RATE r * ns)) := by decide +kernel

theorem RingBlocks_2_met :
  let s : State := ((die .run [at1 Fld.DMA_RSTAT_ADMITTED 9 1, at1 Fld.DMA_CFG_SRC 9 0x2003]).setFeed (feedRing 9) ⟨0x2003, [plainWord 7 1023], false⟩).setRing 9 { Ring.init with tokens := 8192000, opened := some ⟨3, List.replicate 1023 (plainWord 5 9, 77), ⟨true, 77, 0, 0, 0, 0⟩, false, true, false⟩ }
  let r : Nat := 9
  let ns : Nat := 0
  let w : StreamWord := plainWord 7 1023
  let rest : List StreamWord := []
  let b : RingBlock := ⟨3, List.replicate 1023 (plainWord 5 9, 77), ⟨true, 77, 0, 0, 0, 0⟩, false, true, false⟩
  (r < 4096) ∧ (s.ringLive r = true) ∧ (s.admitted r = true) ∧ (s.downstream r = false) ∧ ((s.feed (feedRing r)).inq = w :: rest) ∧ (w.index ≠ 0) ∧ (s.twin.closeAt = []) ∧ ((s.ring r).stopIn = none) ∧ ((s.ring r).opened = some b) ∧ (b.words.length + 1 = s.ringW r) ∧ (s.nothingHeld = true) ∧ (1000 * s.wordBytes r ≤ min 8192000 ((s.ring r).tokens + s.f Fld.DMA_RATE r * ns)) := by decide +kernel

theorem RingBlocks_3_met :
  let s : State := ((die .run [at1 Fld.DMA_RSTAT_ADMITTED 9 1, at1 Fld.DMA_CFG_SRC 9 0x2003, at1 Fld.DMA_HEAD 9 512]).setFeed (feedRing 9) ⟨0x2003, [plainWord 7 1], false⟩).setRing 9 { Ring.init with tokens := 4000 }
  let r : Nat := 9
  let ns : Nat := 0
  let w : StreamWord := plainWord 7 1
  let rest : List StreamWord := []
  (r < 4096) ∧ (s.ringLive r = true) ∧ (s.admitted r = true) ∧ (s.downstream r = false) ∧ ((s.feed (feedRing r)).inq = w :: rest) ∧ (w.index ≠ 0) ∧ (s.twin.closeAt = []) ∧ ((s.ring r).stopIn = none) ∧ ((s.ring r).opened = none) ∧ (s.canOpen r = false) ∧ (s.on Fld.DMA_CFG_POLICY r = false) ∧ (s.nothingHeld = true) ∧ (1000 * s.wordBytes r ≤ min 8192000 ((s.ring r).tokens + s.f Fld.DMA_RATE r * ns)) := by decide +kernel

theorem RingBlocks_4_met :
  let s : State := { (die .run [at1 Fld.DMA_RSTAT_ADMITTED 9 1, at1 Fld.DMA_CFG_SRC 9 0x2003, at1 Fld.HOST_LINK_UP 0 1, at1 Fld.DMA_DATA_DPG 9 1]).setRing 9 { Ring.init with closed := [⟨3, [(plainWord 5 9, 77)], ⟨true, 77, 0, 0, 0, 0⟩, false, true, false⟩] } with pdir := [(0, 0x40000001), (1, 0x80000001)], host := { HostIf.init with funcs := [(0, { PciFunc.init with busMaster := true })] } }
  let r : Nat := 9
  let b : RingBlock := ⟨3, [(plainWord 5 9, 77)], ⟨true, 77, 0, 0, 0, 0⟩, false, true, false⟩
  let rest : List RingBlock := []
  (r < 4096) ∧ (s.admitted r = true) ∧ (s.ringLive r = true) ∧ (s.standby = false) ∧ (s.dmaMay r = true) ∧ ((s.ring r).closed = b :: rest) ∧ (s.nothingHeld = true) ∧ (s.f Fld.DMA_MOD_BLKS r = 0) ∧ (s.writeTurn r = true) := by decide +kernel

theorem RingBlocks_5_met :
  let s : State := { die .run [at1 Fld.DMA_RSTAT_ADMITTED 9 1, at1 Fld.DMA_CFG_DIR 9 1, at1 Fld.HOST_LINK_UP 0 1, at1 Fld.DMA_HEAD 9 1] with host := { HostIf.init with funcs := [(0, { PciFunc.init with busMaster := true })] } }
  let r : Nat := 9
  (r < 4096) ∧ (s.admitted r = true) ∧ (s.downstream r = true) ∧ (s.dmaMay r = true) ∧ (s.ringLive r = true) ∧ ((s.ring r).asked = 0) ∧ ((s.ring r).arrived = []) ∧ (0 < s.ringFill r) ∧ ((s.rings.foldl (fun n e => n + e.2.asked) 0 + 1) * s.requestsPerBlock ≤ 256) ∧ (s.sourceHeld (downCode r) = false) ∧ (s.fetchTurn r = true) := by decide +kernel

theorem RingBlocks_6_met :
  let s : State := ((die .run [at1 Fld.DMA_RSTAT_ADMITTED 9 1, at1 Fld.DMA_CFG_DIR 9 1]).setRing 9 { Ring.init with asked := 2 }).setFeed (feedFP 0 1) ⟨0x4009, List.replicate 256 (plainWord 1 1), false⟩
  let r : Nat := 9
  let data : List Nat := List.replicate 4096 3
  (r < 4096) ∧ (data.length = 4096) ∧ (0 < (s.ring r).asked) ∧ (s.admitted r = true) ∧ (s.ringLive r = true) ∧ (s.sourceHeld (downCode r) = true) := by decide +kernel

theorem RingBlocks_7_met :
  let s : State := (die .run [at1 Fld.DMA_RSTAT_ADMITTED 9 1, at1 Fld.DMA_CFG_DIR 9 1, at1 Fld.DMA_TAIL 9 0xFFFFFFFF]).setRing 9 { Ring.init with asked := 1 }
  let r : Nat := 9
  let data : List Nat := List.replicate 4096 3
  (r < 4096) ∧ (data.length = 4096) ∧ ((s.ring r).asked = 1) ∧ (s.admitted r = true) ∧ ((s.ring r).arrived = []) ∧ ((s.ring r).sent = 0) ∧ (s.mode ≠ .bench) ∧ (s.f Fld.DMA_MOD_BLKS r = 0) ∧ ((s.feeds.all fun e => e.2.src != downCode r) = true) := by decide +kernel

theorem PointerWritesAreChecked_1_met :
  let s : State := die .run [at1 Fld.DMA_RSTAT_ADMITTED 4095 1, at1 Fld.DMA_HEAD 4095 3, at1 Fld.DMA_TAIL 4095 0xFFFFFFFF]
  let r : Nat := 4095
  let w : Word := 3
  (r < 4096) ∧ (s.admitted r = true) ∧ (s.downstream r = false) ∧ ((s.ring r).arrived = []) ∧ ((s.ring r).late = []) ∧ ((w.toNat + 2 ^ 32 - s.f Fld.DMA_TAIL r) % 2 ^ 32 ≤ (s.f Fld.DMA_HEAD r + 2 ^ 32 - s.f Fld.DMA_TAIL r) % 2 ^ 32) := by decide +kernel

theorem PointerWritesAreChecked_2_met :
  let s : State := die .run [at1 Fld.DMA_RSTAT_ADMITTED 4095 1, at1 Fld.DMA_HEAD 4095 3, at1 Fld.DMA_TAIL 4095 0xFFFFFFFF]
  let r : Nat := 4095
  let w : Word := 4
  (r < 4096) ∧ ((s.admitted r = false ∨ (s.f Fld.DMA_HEAD r + 2 ^ 32 - s.f Fld.DMA_TAIL r) % 2 ^ 32 < (w.toNat + 2 ^ 32 - s.f Fld.DMA_TAIL r) % 2 ^ 32)) ∧ ((s.ring r).arrived = []) ∧ ((s.ring r).late = []) := by decide +kernel

theorem PointerWritesAreChecked_3_met :
  let s : State := die .run [at1 Fld.DMA_RSTAT_ADMITTED 4095 1, at1 Fld.DMA_CFG_DIR 4095 1]
  let r : Nat := 4095
  let w : Word := 512
  (r < 4096) ∧ (s.admitted r = true) ∧ (s.downstream r = true) ∧ ((w.toNat + 2 ^ 32 - s.f Fld.DMA_TAIL r) % 2 ^ 32 ≤ s.nblk r) ∧ ((w.toNat + 2 ^ 32 - s.f Fld.DMA_HEAD r) % 2 ^ 32 ≤ 2 ^ 31) := by decide +kernel

theorem PointerWritesAreChecked_4_met :
  let s : State := die .run [at1 Fld.DMA_RSTAT_ADMITTED 4095 1, at1 Fld.DMA_CFG_DIR 4095 1]
  let r : Nat := 4095
  let w : Word := 513
  (r < 4096) ∧ ((s.admitted r = false ∨ s.nblk r < (w.toNat + 2 ^ 32 - s.f Fld.DMA_TAIL r) % 2 ^ 32 ∨ 2 ^ 31 < (w.toNat + 2 ^ 32 - s.f Fld.DMA_HEAD r) % 2 ^ 32)) := by decide +kernel

theorem ChannelsAreUsed_1_met :
  let s : State := { die .run [at1 Fld.HOST_NUMVF 0 31] with chans := [(1023, { Chan.init with alloc := true, snd := 0x100103FF, rcv := 0x10000000, posts := 65535 })] }
  let func : Nat := 1
  let c : Nat := 1023
  (func < 32) ∧ (c < 1024) ∧ (s.pageReached func c = true) ∧ (s.holdsSnd func c = true) ∧ ((s.chan c).full = false) := by decide +kernel

theorem ChannelsAreUsed_2_met :
  let s : State := { die .run [at1 Fld.HOST_NUMVF 0 31] with chans := [(1023, { Chan.init with alloc := true, snd := 0x100103FF, rcv := 0x10000000, full := true, rej := 255 })] }
  let func : Nat := 1
  let c : Nat := 1023
  (func < 32) ∧ (c < 1024) ∧ (s.pageReached func c = true) ∧ (s.holdsSnd func c = true) ∧ ((s.chan c).full = true) := by decide +kernel

theorem ChannelsAreUsed_3_met :
  let s : State := { die .run [at1 Fld.HOST_NUMVF 0 31] with chans := [(1023, { Chan.init with alloc := true, snd := 0x100103FF, rcv := 0x10000000, full := true, rej := 255 })] }
  let func : Nat := 31
  let c : Nat := 1023
  (func < 32) ∧ (c < 1024) ∧ (s.pageReached func c = true) ∧ (s.holdsSnd func c = false) := by decide +kernel

theorem ChannelsAreUsed_4_met :
  let s : State := { die .run [at1 Fld.HOST_NUMVF 0 31] with chans := [(1023, { Chan.init with alloc := true, snd := 0x100103FF, rcv := 0x10000000, full := true, word := 5 })] }
  let func : Nat := 0
  let c : Nat := 1023
  let f : Nat := 1
  let x : Nat := 1023
  (func < 32) ∧ (c < 1024) ∧ (s.pageReached func c = true) ∧ (s.holdsRcv func c = true) ∧ ((s.chan c).full = true) ∧ ((s.chan c).snd = (Agent.host f x).code) ∧ (f < 32) ∧ (x < 1024) ∧ ((s.chan c).mute = false) ∧ (s.on Fld.DEV_COMPAT_HERITAGE = false) := by decide +kernel

theorem ChannelsAreUsed_5_met :
  let s : State := { die .run [at1 Fld.HOST_NUMVF 0 31] with chans := [(1023, { Chan.init with alloc := true, snd := 0x100103FF, rcv := 0x10000000, full := true, word := 5 })] }
  let func : Nat := 1
  let c : Nat := 1023
  (func < 32) ∧ (c < 1024) ∧ (s.pageReached func c = true) ∧ (s.holdsRcv func c = false) := by decide +kernel

theorem ChannelsAreUsed_6_met :
  let s : State := { die .run [at1 Fld.HOST_NUMVF 0 31] with chans := [(1023, { Chan.init with alloc := true, snd := 0x100103FF, rcv := 0x10000000, db := 5 })] }
  let func : Nat := 1
  let c : Nat := 1023
  (func < 32) ∧ (c < 1024) ∧ (s.pageReached func c = true) ∧ (s.holdsSnd func c = true) := by decide +kernel

theorem ChannelsAreUsed_7_met :
  let s : State := { die .run [at1 Fld.HOST_NUMVF 0 31] with chans := [(1023, { Chan.init with alloc := true, snd := 0x100103FF, rcv := 0x10000000, db := 5 })] }
  let func : Nat := 0
  let c : Nat := 1023
  (func < 32) ∧ (c < 1024) ∧ (s.pageReached func c = true) ∧ (s.holdsRcv func c = true) := by decide +kernel

theorem ChannelsAreUsed_8_met :
  let s : State := { die .run [] with chans := [(1023, { Chan.init with alloc := true, snd := 0x100103FF, rcv := 0x10010000, full := true })], host := { HostIf.init with bar2 := 2 } }
  let func : Nat := 0
  let c : Nat := 512
  (func < 32) ∧ (c < 1024) ∧ (s.pageReached func c = false) := by decide +kernel

theorem ChannelsAreUsed_9_met :
  let s : State := { die .run [] with chans := [(1023, { Chan.init with alloc := true, snd := 0x100103FF, rcv := 0x10010000, full := true })], host := { HostIf.init with bar2 := 2 } }
  let func : Nat := 0
  let c : Nat := 512
  (func < 32) ∧ (c < 1024) ∧ (s.pageReached func c = false) := by decide +kernel

theorem ChannelsAreUsed_10_met :
  let s : State := { die .run [] with chans := [(1023, { Chan.init with alloc := true, snd := 0x100103FF, rcv := 0x10010000, full := true })], host := { HostIf.init with bar2 := 2 } }
  let func : Nat := 0
  let c : Nat := 512
  (func < 32) ∧ (c < 1024) ∧ (s.pageReached func c = false) := by decide +kernel

theorem ChannelsAreUsed_11_met :
  let s : State := { die .run [] with chans := [(1023, { Chan.init with alloc := true, snd := 0x100103FF, rcv := 0x10010000, full := true })], host := { HostIf.init with bar2 := 2 } }
  let func : Nat := 0
  let c : Nat := 512
  (func < 32) ∧ (c < 1024) ∧ (s.pageReached func c = false) := by decide +kernel

theorem ChannelsAreUsed_12_met :
  let s : State := { die .run [] with part := Part.kn9640T, chans := [(1087, { Chan.init with alloc := true, snd := 0x100103FF, rcv := 0x20000000, full := true })] }
  let c : Nat := 1087
  let f : Nat := 1
  let x : Nat := 1023
  (c < 1088) ∧ (s.part.isTwin = true) ∧ ((s.chan c).alloc = true) ∧ ((s.chan c).full = true) ∧ ((s.chan c).waited = false) ∧ ((s.chan c).snd = (Agent.host f x).code) ∧ (f < 32) ∧ (x < 1024) := by decide +kernel

theorem HostAccesses_1_met :
  let s : State := die .run []
  (s.funcAnswers 0 = true) ∧ (s.on Fld.TWN_STAT_PAIRED = false) := by decide +kernel

theorem HostAccesses_2_met :
  let s : State := die .run []
  (s.funcAnswers 0 = true) ∧ (s.on Fld.TWN_STAT_PAIRED = false) := by decide +kernel

theorem HostAccesses_3_met :
  let s : State := die .run []
  let x : HostAccess := ⟨0, 0, 0x2000000, 1, some [3], [], false⟩
  (x.ok = true) ∧ (x.wr.isSome = true) ∧ (s.barSize x.func x.bar < x.ofs + 4) := by decide +kernel

theorem HostAccesses_4_met :
  let s : State := die .run []
  let x : HostAccess := ⟨0, 0, 0x80000, 3, some [3, 4, 5], [], false⟩
  (x.ok = true) ∧ (x.wr.isSome = true) ∧ (s.funcAnswers x.func = true) ∧ (x.ofs + 4 ≤ s.barSize x.func x.bar) ∧ (2 < x.len) := by decide +kernel

theorem HostAccesses_5_met :
  let s : State := { die .run [] with lcs := Longcase.init, host := { (die .run []).host with stopped := [1, 5] } }
  let g : Nat := 4
  (g < s.part.numCG) ∧ (g < 24) ∧ (s.funcAnswers 0 = true) ∧ (s.on Fld.TWN_STAT_PAIRED = false) ∧ (s.sclk g = false) ∧ (s.lclk = false) ∧ (s.host.stopped.contains (1 + g) = true) ∧ (s.host.held = []) := by decide +kernel

theorem HostAccesses_6_met :
  let s : State := { die .run [] with lcs := Longcase.init, host := { (die .run []).host with stopped := [1, 5] } }
  let g : Nat := 4
  (g < s.part.numCG) ∧ (g < 24) ∧ (s.funcAnswers 0 = true) ∧ (s.on Fld.TWN_STAT_PAIRED = false) ∧ (s.sclk g = false) ∧ (s.host.stopped.contains (1 + g) = true) ∧ (s.host.held = []) := by decide +kernel

theorem HostAccesses_7_met :
  let s : State := die .run [(Reg.PR_CNT, 7, 0, 0x01020304)]
  let n : Nat := 7
  (n < 8) ∧ (s.funcAnswers 0 = true) ∧ (s.on Fld.TWN_STAT_PAIRED = false) ∧ (s.lclk = true) ∧ (s.host.held = []) := by decide +kernel

theorem HostAccesses_8_met :
  let s : State := die .run [at1 Fld.TWN_STAT_PAIRED 0 1, at1 Fld.TWN_STAT_PRIMARY 0 1]
  (s.funcAnswers 0 = true) ∧ (s.on Fld.TWN_STAT_PAIRED = true) ∧ (s.standby = false) := by decide +kernel

theorem HostAccesses_9_met :
  let s : State := die .run [at1 Fld.TWN_STAT_PAIRED 0 1]
  let w : Word := 7
  (s.funcAnswers 0 = true) ∧ (s.standby = true) ∧ (s.f Fld.HOST_IRQEN ≠ w.bits 0 6) := by decide +kernel

theorem HostAccesses_10_met :
  let s : State := die .run [at1 Fld.TWN_STAT_PAIRED 0 1, (Reg.HOST_IRQEN, 0, 0, 7)]
  let tick : Nat := 5000
  let w : Word := 0xFFFFFFC7
  (s.funcAnswers 0 = true) ∧ (s.standby = true) ∧ ((s.atAccess tick).writeWords ⟨0, 0, Reg.HOST_IRQEN.base, 1, some [w], [], false⟩ = s.atAccess tick) := by decide +kernel

theorem HostAccesses_11_met :
  let s : State := die .run []
  let ofs : Nat := 0xFFFC
  let n : Nat := 3
  (s.funcAnswers 0 = true) ∧ (1 ≤ n) ∧ (n ≤ 1024) ∧ (ofs + 4 ≤ 0x10000) := by decide +kernel

theorem HostAccesses_12_met :
  let s : State := { die .run [at1 Fld.TWN_STAT_PAIRED 0 1, at1 Fld.TWN_STAT_PRIMARY 0 1] with twin := { Twin.init with waiting := [(7000, ⟨0, 0, Reg.HOST_IRQEN.base, 1, some [0xFF], [], false⟩)] } }
  let tick : Nat := 7000
  let due : Nat := 7000
  let w : Word := 0xFF
  let rest : List (Nat × HostAccess) := []
  (s.standby = false) ∧ (s.twin.waiting = (due, ⟨0, 0, Reg.HOST_IRQEN.base, 1, some [w], [], false⟩) :: rest) ∧ (due ≤ tick) := by decide +kernel

theorem HostAccesses_13_met :
  let s : State := die .run [at1 Fld.TWN_STAT_PAIRED 0 1]
  (s.standby = true) := by decide +kernel

theorem HostAccesses_14_met :
  let s : State := (die .run []).setFeed (feedFC 3) ⟨0x1001, [plainWord 1 1], false⟩
  let n : Nat := 3
  (n < s.part.numFC) ∧ (n < 48) ∧ (s.sclk (s.fcGroup n (s.f Fld.FC_SRC_SRC n)) = true) ∧ (s.on Fld.FC_CTL_EN n = false) := by decide +kernel

theorem HostAccesses_15_met :
  let s : State := (die .run []).setFeed (feedDA 3) ⟨0x3001, [plainWord 1 1], false⟩
  let d : Nat := 3
  (d < s.part.numDA) ∧ (d < 24) ∧ (s.sclk d = true) ∧ (s.on Fld.DA_CTL_EN d = false) := by decide +kernel

theorem HostAccesses_16_met :
  let s : State := ((die .run [(Fld.DIO_FPI_SRC_SRC, 3, 2, 0x1001)]).setFeed (feedFP 3 2) ⟨0x1001, [plainWord 1 1], false⟩).setCab 3 { Cabinet.init with ins := [InPort.init, InPort.init, { InPort.init with fifo := [plainWord 2 2] }, InPort.init] }
  let k : Nat := 3
  let j : Nat := 2
  let w : Word := 0x1002
  (k < s.part.numCB) ∧ (k < 24) ∧ (j < 4) ∧ (storedSource .port (w.bits 0 16) ≠ s.fpSrc k j) := by decide +kernel

theorem HostAccesses_17_met :
  let s : State := { die .run [] with lcs := Longcase.init }
  let k : Nat := 24
  (k < 25) ∧ (s.clockRuns k = false) ∧ (s.host.held = []) := by decide +kernel

theorem HostAccesses_18_met :
  let s : State := { die .run [] with lcs := Longcase.init, host := { (die .run []).host with stopped := [1] } }
  let g : Nat := 4
  (g < s.part.numCG) ∧ (g < 24) ∧ (s.funcAnswers 0 = true) ∧ (s.on Fld.TWN_STAT_PAIRED = false) ∧ (s.sclk g = false) ∧ (s.lclk = false) ∧ (s.host.stopped.contains (1 + g) = false) ∧ (s.host.held = []) := by decide +kernel

theorem HostAccesses_19_met :
  let s : State := { die .run [] with lcs := Longcase.init, host := { (die .run []).host with held := [(⟨0, 0, Reg.CG_CTL.addr 4 0, 1, some [7], [], false⟩, false)] } }
  let g : Nat := 4
  let w : Word := 7
  (g < s.part.numCG) ∧ (g < 24) ∧ (s.sclk g = false) ∧ (s.host.held = [(⟨0, 0, Reg.CG_CTL.addr g 0, 1, some [w], [], false⟩, false)]) := by decide +kernel

theorem HostAccesses_20_met :
  let s : State := { die .run [] with lcs := Longcase.init }
  let n : Nat := 7
  (n < 8) ∧ (s.funcAnswers 0 = true) ∧ (s.on Fld.TWN_STAT_PAIRED = false) ∧ (s.lclk = false) ∧ (s.host.stopped.contains 0 = false) ∧ (s.host.held = []) := by decide +kernel

theorem HostAccesses_21_met :
  let s : State := die .run [at1 Fld.TWN_STAT_PAIRED 0 1, (Reg.TWN_HSEQ, 0, 0, 0xFFFFFFFF)]
  (s.on Fld.TWN_STAT_PAIRED = true) := by decide +kernel

theorem HostAccesses_22_met :
  let s : State := die .run [at1 Fld.TWN_STAT_PAIRED 0 1, at1 Fld.TWN_STAT_PRIMARY 0 1]
  let r : Nat := 9
  (r < 4096) ∧ (s.on Fld.TWN_STAT_PAIRED = true) := by decide +kernel

theorem HostAccesses_23_met :
  let s : State := die .run [at1 Fld.TWN_STAT_PAIRED 0 1, at1 Fld.TWN_STAT_PRIMARY 0 1]
  let k : Nat := 3
  (k < 16) ∧ (s.lclk = true) ∧ (s.on Fld.TWN_STAT_PAIRED = true) := by decide +kernel

theorem HostLink_1_met :
  let s : State := { die .run [at1 Fld.DMA_UPSUM 0 27001] with host := { HostIf.init with porst := true, perst := true, trained := true } }
  let speed : Nat := 4
  let width : Nat := 16
  let mps : Nat := 1
  let mrrs : Nat := 5
  (1 ≤ speed) ∧ (speed ≤ 4) ∧ ([1, 2, 4, 8, 16].contains width = true) ∧ (mps ≤ 2) ∧ (mrrs ≤ 5) ∧ (s.host.porst = true) ∧ (s.host.perst = true) ∧ (s.part.isTwin = false) ∧ (s.nothingHeld = true) := by decide +kernel

theorem HostLink_3_met :
  let s : State := die .run [at1 Fld.DMA_RSTAT_ADMITTED 4095 1, at1 Fld.HOST_LINK_UP 0 1, at1 Fld.HOST_NUMVF 0 4]
  let r : Nat := 4095
  (r < 4096) ∧ (s.admitted r = true) := by decide +kernel

theorem HostLink_5_met :
  let s : State := { die .run [] with host := HostIf.init }
  let func : Nat := 3
  (func < 32) ∧ ((s.host.porst = false ∨ s.host.perst = false ∨ s.on Fld.HOST_LINK_UP = false)) := by decide +kernel

theorem HostLink_6_met :
  let s : State := { die .run [at1 Fld.HOST_LINK_UP 0 1] with host := { HostIf.init with porst := true, perst := true } }
  let func : Nat := 3
  (func < 32) ∧ (s.host.porst = true) ∧ (s.host.perst = true) ∧ (s.on Fld.HOST_LINK_UP = true) ∧ (s.host.ready = false) := by decide +kernel

theorem HostLink_7_met :
  let s : State := die .run [at1 Fld.HOST_LINK_UP 0 1, at1 Fld.HOST_NUMVF 0 2]
  let func : Nat := 3
  (func < 32) ∧ (s.host.porst = true) ∧ (s.host.perst = true) ∧ (s.on Fld.HOST_LINK_UP = true) ∧ (s.host.ready = true) ∧ (0 < func) ∧ (s.f Fld.HOST_NUMVF < func) := by decide +kernel

theorem HostLink_8_met :
  let s : State := die .run [at1 Fld.HOST_LINK_UP 0 1, at1 Fld.HOST_NUMVF 0 2]
  let func : Nat := 2
  let v : Nat := 0
  let i : ConfigItem := .capability .sriov
  (func < 32) ∧ (s.host.porst = true) ∧ (s.host.perst = true) ∧ (s.on Fld.HOST_LINK_UP = true) ∧ (s.host.ready = true) ∧ (func ≤ s.f Fld.HOST_NUMVF) ∧ (([(ConfigItem.vendorId, 0x1ED5), (ConfigItem.deviceId, s.part.code + if func = 0 then 0 else 1), (ConfigItem.classCode, 0x118000), (ConfigItem.number .msixVectors, vectorsOf func)] ++ [PciCap.powerManagement, .pciExpress, .msix, .aer, .serialNumber, .flr].map (fun c => (ConfigItem.capability c, 1)) ++ [PciCap.ari, .sriov, .resizableBar].map (fun c => (ConfigItem.capability c, if func = 0 then 1 else 0)) ++ [PciCap.ats, .pasid, .pri, .atomicOps, .tph, .ltr, .aspmL0s, .l1Substates, .msi, .intx, .gt32].map (fun c => (ConfigItem.capability c, 0))).contains (i, v) = true) := by decide +kernel

theorem HostLink_9_met :
  let s : State := die .run [at1 Fld.HOST_LINK_UP 0 1, at1 Fld.HOST_NUMVF 0 2]
  let func : Nat := 2
  (func < 32) ∧ (s.host.porst = true) ∧ (s.host.perst = true) ∧ (s.on Fld.HOST_LINK_UP = true) ∧ (s.host.ready = true) ∧ (func ≤ s.f Fld.HOST_NUMVF) ∧ (s.nothingHeld = true) := by decide +kernel

theorem HostLink_10_met :
  let s : State := die .run [at1 Fld.HOST_LINK_UP 0 1, at1 Fld.HOST_NUMVF 0 2]
  let n : Nat := 31
  (s.host.porst = true) ∧ (s.host.perst = true) ∧ (s.on Fld.HOST_LINK_UP = true) ∧ (s.host.ready = true) ∧ (n ≤ 31) ∧ (s.f Fld.HOST_NUMVF ≤ n) := by decide +kernel

theorem HostLink_11_met :
  let s : State := die .run [at1 Fld.HOST_LINK_UP 0 1]
  let m : Nat := 2
  (s.host.porst = true) ∧ (s.host.perst = true) ∧ (s.on Fld.HOST_LINK_UP = true) ∧ (s.host.ready = true) ∧ ((m = 1 ∨ m = 2 ∨ m = 4)) := by decide +kernel

theorem HostLink_12_met :
  let s : State := { die .run [at1 Fld.DEV_MODE_CHG 0 1, (Reg.MSIX_ADDR_LO, 0, 0, 0x1000), (Reg.MSIX_DATA, 0, 0, 0xABCD1234)] with host := { HostIf.init with funcs := [(0, { PciFunc.init with msixEnable := true })] } }.setWord (Reg.MSIX_CTRL.addr 0 0) 0
  let v : Nat := 0
  (v < 2048) ∧ (s.cause 0 v = true) ∧ (s.canSend 0 v = true) ∧ ((s.vec 0 v).cause = false) := by decide +kernel

theorem HostLink_13_met :
  let s : State := die .run [at1 Fld.DEV_MODE_CHG 0 1]
  let f : Nat := 0
  let v : Nat := 0
  (f < 32) ∧ (v < vectorsOf f) ∧ (s.cause f v = true) ∧ (s.canSend f v = false) ∧ ((s.vec f v).cause = false) ∧ ((s.vec f v).owed = false) := by decide +kernel

theorem HostLink_14_met :
  let s : State := (die .run []).setVec 3 63 ⟨true, true, false⟩
  let f : Nat := 3
  let v : Nat := 63
  (f < 32) ∧ (v < vectorsOf f) ∧ (s.cause f v = false) ∧ ((s.vec f v).owed = false) := by decide +kernel

theorem HostLink_15_met :
  let s : State := die .run [at1 Fld.HOST_NUMVF 0 3, at1 Fld.DMA_RSTAT_ADMITTED 9 1, at1 Fld.DMA_CFG_FUNC 9 3]
  let f : Nat := 3
  let r : Nat := 9
  (0 < f) ∧ (f < 32) ∧ (f ≤ s.f Fld.HOST_NUMVF) ∧ (r < 4096) ∧ (s.admitted r = true) ∧ (s.f Fld.DMA_CFG_FUNC r = f) := by decide +kernel

theorem HostLink_16_met :
  let s : State := (die .run [at1 Fld.HOST_NUMVF 0 3, at1 Fld.DMA_RSTAT_ADMITTED 9 1, at1 Fld.DMA_CFG_FUNC 9 2, at1 Fld.DMA_HEAD 9 4]).setRing 9 { Ring.init with produced := 7 }
  let f : Nat := 3
  let r : Nat := 9
  (0 < f) ∧ (f < 32) ∧ (f ≤ s.f Fld.HOST_NUMVF) ∧ (r < 4096) ∧ (s.f Fld.DMA_CFG_FUNC r ≠ f) := by decide +kernel

theorem HostLink_17_met :
  let f : Nat := 5
  (f < 32) := by decide +kernel

theorem HostLink_18_met :
  let s : State := (die .run []).setVec 0 7 ⟨false, false, true⟩
  let v : Nat := 7
  (v < 2048) ∧ (s.cause 0 v = false) ∧ ((s.vec 0 v).owed = true) := by decide +kernel

theorem BureauTransport_1_met :
  let s : State := die .slumber []
  let a : Word := 0
  (s.takes = true) ∧ (s.standby = false) ∧ (commandLegal 0x01 s.mode = true) ∧ (a.bit 0 = false) := by decide +kernel

theorem BureauTransport_2_met :
  let s : State := die .load []
  (s.takes = true) ∧ (s.mode.code ≠ 0) := by decide +kernel

theorem BureauTransport_3_met :
  let s : State := die .verify []
  (s.takes = true) ∧ (s.mode.code ≠ 0) := by decide +kernel

theorem BureauTransport_4_met :
  let s : State := die .doze [at1 Fld.PWR_STAT_CEIL 0 9]
  let c : Word := 0xFFFFFFF7
  (s.takes = true) ∧ (s.standby = false) ∧ (commandLegal 0x50 s.mode = true) ∧ ((c.bits 0 4 = 5 ∨ c.bits 0 4 = 7 ∨ c.bits 0 4 = 8 ∨ c.bits 0 4 = 9)) ∧ (s.mode.code ≤ c.bits 0 4) := by decide +kernel

theorem BureauTransport_5_met :
  let s : State := die .load []
  let code : Nat := 0x51
  (code < 256) ∧ (isCommandCode code = false) ∧ (s.takes = true) := by decide +kernel

theorem BureauTransport_6_met :
  let s : State := die .run []
  let args : List Word := [8]
  (s.takes = true) ∧ (s.standby = false) ∧ (s.mode ≠ .bench) ∧ (args.length ≤ 16) ∧ ((args.headD 0).bits 0 3 = 0) ∧ (args.length ≠ 0) := by decide +kernel

theorem BureauTransport_7_met :
  let s : State := (die .run [at1 Fld.BUR_STATUS_BUSY 0 1]).setJob (some Job.init)
  let j : Job := Job.init
  (s.on Fld.BUR_STATUS_BUSY = true) ∧ (s.bur.job = some j) := by decide +kernel

theorem ModeCommands_1_met :
  let s : State := (die .run [at1 Fld.CG_CTL_EN 3 1]).setGroup 3 { Group.init with core := { CgCore.init with seq := { Seq.init with st := .dwell, entry := 3, dwellLeft := some 2 }, conv := 8, held := [⟨1, 14, 0, 1, false, [[]], false, [false], 9, true⟩, ⟨2, 14, 0, 1, false, [[]], false, [false], 9, false⟩] } }
  let g : Nat := 3
  let a : Word := 0xFFFFFFFA
  (s.takes = true) ∧ (s.standby = false) ∧ ((s.mode = .run ∨ s.mode = .blank)) ∧ (a.bits 0 4 = 10) ∧ (g < s.part.numCG) := by decide +kernel

theorem ModeCommands_2_met :
  let s : State := die .nap []
  let a : Word := 7
  (s.takes = true) ∧ (s.standby = false) ∧ (commandLegal 0x02 s.mode = true) ∧ (a.bits 0 4 ≠ 1) ∧ (a.bits 0 4 ≠ 5) ∧ (a.bits 0 4 ≠ 10) := by decide +kernel

theorem ModeCommands_3_met :
  let s : State := die .faultMode [at1 Fld.CFG_WORDS 0 99]
  let a : Word := 2
  (s.takes = true) ∧ (s.standby = false) ∧ (commandLegal 0x10 s.mode = true) ∧ ((a.bits 0 3 = 0 ∨ a.bits 0 3 = 2)) := by decide +kernel

theorem ModeCommands_4_met :
  let s : State := { die .load [] with stream := { Stream.init with active := true }, frames := [(4, 5)] }
  (s.takes = true) ∧ (s.standby = false) ∧ (s.mode = .load) := by decide +kernel

theorem ModeCommands_5_met :
  let s : State := die .run [at1 Fld.SCRB_CB_STATE_STATE 3 1, at1 Fld.FAB_CTL_CLKEN 3 1]
  let k : Nat := 3
  (s.takes = true) ∧ (s.standby = false) ∧ (s.mode = .run) ∧ (k < s.part.numCB) ∧ (s.partialStream = none) ∧ (s.cbState k = 1) := by decide +kernel

theorem ModeCommands_6_met :
  let s : State := (die .partialRun [at1 Fld.SCRB_CB_STATE_STATE 3 3, at1 Fld.BUR_CLAIM 3 7]).setCab 3 { Cabinet.init with loaded := (true, true) }
  let k : Nat := 3
  (s.takes = true) ∧ (s.standby = false) ∧ (s.mode = .partialRun) ∧ (k < s.part.numCB) ∧ (s.cbState k = 3) := by decide +kernel

theorem ModeCommands_7_met :
  let s : State := (die .bench [at1 Fld.DEV_MODE_PREV 0 5, at1 Fld.CG_CTL_EN 3 1]).setGroup 3 { Group.init with core := { CgCore.init with seq := { Seq.init with st := .paused, resume := 3 } } }
  let g : Nat := 3
  let a : Word := 5
  (s.takes = true) ∧ (s.standby = false) ∧ (s.mode = .bench) ∧ (s.f Fld.DEV_MODE_PREV = 5) ∧ (a.bits 0 4 = 5) ∧ (g < s.part.numCG) ∧ ((s.group g).core.seq.st = .paused) := by decide +kernel

theorem ModeCommands_8_met :
  let s : State := { die .run [at1 Fld.CG_CTL_EN 3 1] with frames := [(4, 5)] }
  let a : Word := 1
  (s.takes = true) ∧ (s.standby = false) ∧ (a.bits 0 4 = 1) ∧ ((s.mode = .run ∨ s.mode = .faultMode ∨ (s.mode = .bench ∧ s.f Fld.DEV_MODE_PREV = 1))) := by decide +kernel

theorem ModeCommands_9_met :
  let s : State := { die .nap [] with pwr := { (die .nap []).pwr with stage := .asleep } }
  let a : Word := 5
  (s.takes = true) ∧ (s.standby = false) ∧ ((s.mode = .doze ∨ s.mode = .nap ∨ s.mode = .slumber)) ∧ (a.bits 0 4 = 5) ∧ (s.pwr.stage = .asleep) := by decide +kernel

theorem ModeCommands_10_met :
  let s : State := die .bench [at1 Fld.DEV_MODE_PREV 0 5]
  let a : Word := 10
  (s.takes = true) ∧ (s.standby = false) ∧ (commandLegal 0x02 s.mode = true) ∧ ((a.bits 0 4 = 1 ∨ a.bits 0 4 = 5 ∨ a.bits 0 4 = 10)) ∧ (a.bits 0 4 = s.mode.code) := by decide +kernel

theorem ModeCommands_11_met :
  let s : State := die .bench [at1 Fld.DEV_MODE_PREV 0 5]
  let a : Word := 1
  (s.takes = true) ∧ (s.standby = false) ∧ (((s.mode = .blank ∧ a.bits 0 4 = 5) ∨ (s.mode = .faultMode ∧ (a.bits 0 4 = 5 ∨ a.bits 0 4 = 10)) ∨ (s.mode = .bench ∧ (a.bits 0 4 = 1 ∨ a.bits 0 4 = 5) ∧ a.bits 0 4 ≠ s.f Fld.DEV_MODE_PREV) ∨ ((s.mode = .doze ∨ s.mode = .nap ∨ s.mode = .slumber) ∧ (a.bits 0 4 = 1 ∨ a.bits 0 4 = 10)))) := by decide +kernel

theorem AbortOfPartialStream_1_met :
  let s : State := { die .partialRun [at1 Fld.SCRB_CB_STATE_STATE 23 2] with stream := { Stream.init with active := true, kind := .region 23, waiting := [5] } }
  let k : Nat := 23
  (k < 24) ∧ (s.takes = true) ∧ (s.standby = false) ∧ (s.mode = .partialRun) ∧ (s.stream.kind = .region k) ∧ ((s.stream.active = true ∨ s.stream.ended = true)) := by decide +kernel

theorem AbortOfPartialStream_2_met :
  let s : State := die .partialRun []
  (s.takes = true) ∧ (s.standby = false) ∧ (s.mode = .partialRun) ∧ (s.partialStream = none) := by decide +kernel

theorem ResourceCommands_1_met :
  let s : State := (die .run []).setRot 23 { Rotation.init with abandons := 3, notBefore := 99 }
  let g : Nat := 23
  let sl : Word := 0xFFFFFFFA
  (s.takes = true) ∧ (s.standby = false) ∧ (commandLegal 0x28 s.mode = true) ∧ (g < s.part.numCG) ∧ (sl.bits 0 3 ≠ 7) ∧ ((s.serving g).contains (sl.bits 0 3) = true) ∧ (s.rotst g = 0) := by decide +kernel

theorem ResourceCommands_2_met :
  let s : State := (die .run []).setChan 1023 { Chan.init with word := 9, posts := 4 }
  let c : Nat := 1023
  let x : Nat := 0
  let y : Nat := 1023
  (s.takes = true) ∧ (s.standby = false) ∧ (commandLegal 0x30 s.mode = true) ∧ (c < 1024) ∧ (x < 1024) ∧ (y < 1024) ∧ (x ≠ y) ∧ ((s.chan c).alloc = false) := by decide +kernel

theorem ResourceCommands_3_met :
  let s : State := (die .blank []).setChan 1087 { Chan.init with word := 9, posts := 4, alloc := true }
  let c : Nat := 63
  (s.takes = true) ∧ (s.standby = false) ∧ (commandLegal 0x31 s.mode = true) ∧ (c < 64) ∧ ((s.chan (1024 + c)).alloc = true) := by decide +kernel

theorem ResourceCommands_4_met :
  let s : State := { die .run [at1 Fld.DMA_CFG_SRC 4095 0x1003, at1 Fld.DMA_RATE 4095 100, at1 Fld.DMA_BUDGET 0 27000] with pdir := [(0, 0x1001), (1, 0x1001)] }
  let r : Nat := 4095
  (s.takes = true) ∧ (s.standby = false) ∧ (commandLegal 0x38 s.mode = true) ∧ (r < 4096) ∧ (s.admitStatus r 0 = 0) ∧ (s.downstream r = false) ∧ (s.f Fld.DMA_UPSUM + s.ringCharge r < 2 ^ 20) := by decide +kernel

theorem ResourceCommands_5_met :
  let s : State := die .run []
  let r : Nat := 0
  (s.takes = true) ∧ (s.standby = false) ∧ (commandLegal 0x38 s.mode = true) ∧ (r < 4096) ∧ (s.f Fld.DMA_RATE r = 0) ∧ (sourceFusedOff s.part (s.f Fld.DMA_CFG_SRC r) = false) := by decide +kernel

theorem ResourceCommands_6_met :
  let s : State := (die .run [at1 Fld.DMA_RSTAT_ADMITTED 4095 1, at1 Fld.DMA_CFG_SRC 4095 0x1003, at1 Fld.DMA_RATE 4095 100, at1 Fld.DMA_UPSUM 0 101]).setRing 4095 { Ring.init with produced := 99, written := 98, droppedCnt := 1 }
  let r : Nat := 4095
  (s.takes = true) ∧ (s.on Fld.TWN_STAT_PAIRED = false) ∧ (commandLegal 0x39 s.mode = true) ∧ (r < 4096) ∧ (s.admitted r = true) ∧ ((s.ring r).opened = none) ∧ ((s.ring r).closed = []) ∧ ((s.ring r).arrived = []) ∧ ((s.ring r).late = []) := by decide +kernel

theorem SecurityCommands_1_met :
  let s : State := { die .run [at1 Fld.DMA_RSTAT_ADMITTED 9 1, at1 Fld.BUR_KEYIDX_LO 0 64] with bur := { Bureau.init with running := true, nv := { Nonvolatile.init with keyres := 64 } } }
  let r : Nat := 9
  let nonce : List Word := [1, 2, 3, 4, 5, 6, 7, 8]
  (s.takes = true) ∧ (commandLegal 0x40 s.mode = true) ∧ (r < 4096) ∧ (s.admitted r = true) ∧ (s.downstream r = false) ∧ (s.f Fld.DMA_CFG_SRC r = 0) ∧ (nonce.length = 8) ∧ (s.keyIdx < 2 ^ 40 - 2 ^ 20) ∧ (s.keysUsed = false) := by decide +kernel

theorem SecurityCommands_2_met :
  let s : State := die .run [at1 Fld.DMA_RSTAT_ADMITTED 9 1, at1 Fld.BUR_KEYIDX_LO 0 0xFFF00000, at1 Fld.BUR_KEYIDX_HI 0 255]
  let r : Nat := 9
  let nonce : List Word := [1, 2, 3, 4, 5, 6, 7, 8]
  (s.takes = true) ∧ (commandLegal 0x40 s.mode = true) ∧ (r < 4096) ∧ (s.admitted r = true) ∧ (s.downstream r = false) ∧ (s.f Fld.DMA_CFG_SRC r = 0) ∧ (nonce.length = 8) ∧ (2 ^ 40 - 2 ^ 20 ≤ s.keyIdx) := by decide +kernel

theorem SecurityCommands_3_met :
  let s : State := die .blank []
  let k : Nat := 3
  let ds : List Word := [1, 2, 3, 4, 5, 6, 7, 8]
  (s.takes = true) ∧ (s.standby = false) ∧ (s.mode = .blank) ∧ (k < 4) ∧ (ds.length = 8) ∧ ((s.f Fld.BUR_POLICY_ENROLLED).testBit k = false) ∧ (s.on Fld.BUR_POLICY_ENROLL_LOCK = false) := by decide +kernel

theorem SecurityCommands_4_met :
  let s : State := die .blank [at1 Fld.BUR_POLICY_ENROLLED 0 8]
  let k : Nat := 3
  (s.takes = true) ∧ (s.standby = false) ∧ (s.mode = .blank) ∧ (k < 4) ∧ ((s.f Fld.BUR_POLICY_ENROLLED).testBit k = true) := by decide +kernel

theorem SecurityCommands_5_met :
  let s : State := die .blank [at1 Fld.BUR_POLICY_ENROLLED 0 8]
  let k : Nat := 3
  (s.takes = true) ∧ (s.standby = false) ∧ (s.mode = .blank) ∧ (k < 4) ∧ ((s.f Fld.BUR_POLICY_ENROLLED).testBit k = true) := by decide +kernel

theorem SecurityCommands_6_met :
  let s : State := die .blank [at1 Fld.BUR_POLICY_ENROLLED 0 8]
  let b : Word := 7
  (s.takes = true) ∧ (s.standby = false) ∧ (s.mode = .blank) ∧ ((b.bit 0 = false ∨ (List.range 4).any (fun k => (s.f Fld.BUR_POLICY_ENROLLED).testBit k && !(s.f Fld.BUR_POLICY_REVOKED).testBit k) = true)) := by decide +kernel

theorem SecurityCommands_7_met :
  let s : State := die .blank [at1 Fld.BUR_POLICY_ENROLLED 0 8, at1 Fld.BUR_POLICY_REVOKED 0 8]
  let b : Word := 3
  let w : Word := 0x5045524D
  (s.takes = true) ∧ (s.standby = false) ∧ (s.mode = .blank) ∧ ((w ≠ 0x5045524D ∨ b.bit 0 = true ∧ (List.range 4).any (fun k => (s.f Fld.BUR_POLICY_ENROLLED).testBit k && !(s.f Fld.BUR_POLICY_REVOKED).testBit k) = false)) := by decide +kernel

theorem SecureRequests_1_met :
  let s : State := ((die .run []).setChan 1087 { Chan.init with alloc := true, full := true, snd := 0x30001701, rcv := 0x20000000, word := 0x10000000 }).setChan 1025 { Chan.init with alloc := true, snd := 0x20000000, rcv := 0x30001701, posts := 65535 }
  let c : Nat := 63
  let k : Nat := 23
  let a : Nat := 1
  let r : Nat := 1025
  (c < 64) ∧ (k < 24) ∧ (a < 2) ∧ (s.bur.running = true) ∧ ((s.chan (1024 + c)).alloc = true) ∧ ((s.chan (1024 + c)).full = true) ∧ ((s.chan (1024 + c)).snd = 3 * 2 ^ 28 + 256 * k + a) ∧ ((s.chan (1024 + c)).rcv = 2 ^ 29) ∧ ((s.chan (1024 + c)).word.bits 28 4 = 1) ∧ (s.replyChan k a = some r) ∧ ((s.chan r).full = false) := by decide +kernel

theorem SecureRequests_2_met :
  let s : State := (((die .run []).setChan 1087 { Chan.init with alloc := true, full := true, snd := 0x30001701, rcv := 0x20000000, word := 0x2000000F }).setChan 1025 { Chan.init with alloc := true, snd := 0x20000000, rcv := 0x30001701 }).setCab 23 { Cabinet.init with meas := ⟨2, [1, 2, 3], 0, 768, 0, true⟩ }
  let c : Nat := 63
  let k : Nat := 23
  let a : Nat := 1
  let r : Nat := 1025
  (c < 64) ∧ (k < 24) ∧ (a < 2) ∧ (s.bur.running = true) ∧ ((s.chan (1024 + c)).alloc = true) ∧ ((s.chan (1024 + c)).full = true) ∧ ((s.chan (1024 + c)).snd = 3 * 2 ^ 28 + 256 * k + a) ∧ ((s.chan (1024 + c)).rcv = 2 ^ 29) ∧ ((s.chan (1024 + c)).word.bits 28 4 = 2) ∧ (s.replyChan k a = some r) ∧ ((s.chan r).full = false) := by decide +kernel

theorem SecureRequests_3_met :
  let s : State := ((die .run [at1 Fld.BUR_CLAIM 23 0x55556666]).setChan 1087 { Chan.init with alloc := true, full := true, snd := 0x30001701, rcv := 0x20000000, word := 0x30001234 }).setChan 1025 { Chan.init with alloc := true, snd := 0x20000000, rcv := 0x30001701 }
  let c : Nat := 63
  let k : Nat := 23
  let a : Nat := 1
  let r : Nat := 1025
  (c < 64) ∧ (k < 24) ∧ (a < 2) ∧ (s.bur.running = true) ∧ ((s.chan (1024 + c)).alloc = true) ∧ ((s.chan (1024 + c)).full = true) ∧ ((s.chan (1024 + c)).snd = 3 * 2 ^ 28 + 256 * k + a) ∧ ((s.chan (1024 + c)).rcv = 2 ^ 29) ∧ ((s.chan (1024 + c)).word.bits 28 4 = 3) ∧ (s.replyChan k a = some r) ∧ ((s.chan r).full = false) := by decide +kernel

theorem SecureRequests_4_met :
  let s : State := ((die .run [at1 Fld.BUR_CLAIM 23 0x55556666]).setChan 1087 { Chan.init with alloc := true, full := true, snd := 0x30001701, rcv := 0x20000000, word := 0x40001234 }).setChan 1025 { Chan.init with alloc := true, snd := 0x20000000, rcv := 0x30001701 }
  let c : Nat := 63
  let k : Nat := 23
  let a : Nat := 1
  let r : Nat := 1025
  (c < 64) ∧ (k < 24) ∧ (a < 2) ∧ (s.bur.running = true) ∧ ((s.chan (1024 + c)).alloc = true) ∧ ((s.chan (1024 + c)).full = true) ∧ ((s.chan (1024 + c)).snd = 3 * 2 ^ 28 + 256 * k + a) ∧ ((s.chan (1024 + c)).rcv = 2 ^ 29) ∧ ((s.chan (1024 + c)).word.bits 28 4 = 4) ∧ (s.replyChan k a = some r) ∧ ((s.chan r).full = false) := by decide +kernel

theorem SecureRequests_5_met :
  let s : State := ((die .run []).setChan 1087 { Chan.init with alloc := true, full := true, snd := 0x30001701, rcv := 0x20000000, word := 0xF0001234 }).setChan 1025 { Chan.init with alloc := true, snd := 0x20000000, rcv := 0x30001701 }
  let c : Nat := 63
  let k : Nat := 23
  let a : Nat := 1
  let r : Nat := 1025
  (c < 64) ∧ (k < 24) ∧ (a < 2) ∧ (s.bur.running = true) ∧ ((s.chan (1024 + c)).alloc = true) ∧ ((s.chan (1024 + c)).full = true) ∧ ((s.chan (1024 + c)).snd = 3 * 2 ^ 28 + 256 * k + a) ∧ ((s.chan (1024 + c)).rcv = 2 ^ 29) ∧ (5 ≤ (s.chan (1024 + c)).word.bits 28 4) ∧ (s.replyChan k a = some r) ∧ ((s.chan r).full = false) := by decide +kernel

theorem SecureRequests_6_met :
  let s : State := ((die .run []).setChan 1087 { Chan.init with alloc := true, full := true, snd := 0x30001701, rcv := 0x20000000, word := 0x10000000 }).setChan 1025 { Chan.init with alloc := true, full := true, snd := 0x20000000, rcv := 0x30001701 }
  let c : Nat := 63
  let k : Nat := 23
  let a : Nat := 1
  let r : Nat := 1025
  (c < 64) ∧ (k < 24) ∧ (a < 2) ∧ ((s.chan (1024 + c)).snd = 3 * 2 ^ 28 + 256 * k + a) ∧ (s.replyChan k a = some r) ∧ ((s.chan r).full = true) := by decide +kernel

theorem CompletionAndHalts_1_met :
  let s : State := (die .run [at1 Fld.BUR_STATUS_BUSY 0 1, at1 Fld.BUR_CMD_TAG 0 77]).setJob (some { Job.init with results := [argIs 0 7, argIs 1 8] })
  let j : Job := { Job.init with results := [argIs 0 7, argIs 1 8] }
  (s.bur.running = true) ∧ (s.bur.job = some j) ∧ (j.out = none) ∧ (j.need = 0) ∧ (j.commit = none) ∧ (j.status = stOk) ∧ (j.results = [argIs 0 7, argIs 1 8]) ∧ (s.on Fld.TWN_STAT_PAIRED = false) := by decide +kernel

theorem CompletionAndHalts_2_met :
  let s : State := (die .run [at1 Fld.BUR_STATUS_BUSY 0 1, at1 Fld.BUR_ARG 0 77]).setJob (some { Job.init with status := stBadArg, results := [argIs 0 7, argIs 1 8] })
  let j : Job := { Job.init with status := stBadArg, results := [argIs 0 7, argIs 1 8] }
  let p : Option Nat := some 2
  (s.bur.running = true) ∧ (s.bur.job = some j) ∧ (j.out = none) ∧ (j.need = 0) ∧ (j.always = false) ∧ (j.status = stBadArg) ∧ (p.all (· = stBadArg) = true) := by decide +kernel

theorem CompletionAndHalts_3_met :
  let s : State := (die .run [at1 Fld.BUR_STATUS_BUSY 0 1, at1 Fld.TWN_STAT_PAIRED 0 1]).setJob (some Job.init)
  let j : Job := Job.init
  let p : Nat := 2
  (s.bur.running = true) ∧ (s.bur.job = some j) ∧ (j.out = none) ∧ (j.need = 0) ∧ (j.results = []) ∧ (j.commit = none) ∧ (s.on Fld.TWN_STAT_PAIRED = true) ∧ (p ≠ j.status) := by decide +kernel

theorem CompletionAndHalts_4_met :
  let s : State := (die .run [at1 Fld.BUR_STATUS_BUSY 0 1, at1 Fld.BUR_BOOT_RESTARTS 0 255]).setJob (some { Job.init with out := some 3 })
  let j : Job := { Job.init with out := some 3 }
  (s.bur.running = true) ∧ (s.bur.job = some j) := by decide +kernel

theorem CompletionAndHalts_5_met :
  let s : State := die .nap [at1 Fld.BUR_BOOT_RESTARTS 0 3]
  (s.bur.running = true) ∧ (s.bur.job = none) := by decide +kernel

theorem CompletionAndHalts_6_met :
  let s : State := { die .run [] with bur := Bureau.init }
  (s.bur.running = false) := by decide +kernel

theorem CompletionAndHalts_7_met :
  let s : State := (die .run [at1 Fld.BUR_STATUS_BUSY 0 1, at1 Fld.BUR_BOOT_RESTARTS 0 255]).setJob (some { Job.init with out := some 3 })
  let j : Job := { Job.init with out := some 3 }
  (s.bur.running = true) ∧ (s.bur.job = some j) := by decide +kernel

theorem CompletionAndHalts_8_met :
  let s : State := die .nap [at1 Fld.BUR_BOOT_RESTARTS 0 3]
  (s.bur.running = true) ∧ (s.bur.job = none) := by decide +kernel

theorem CompletionAndHalts_9_met :
  let s : State := { die .run [] with bur := Bureau.init }
  (s.bur.running = false) := by decide +kernel

theorem CompletionAndHalts_10_met :
  let s : State := { die .run [at1 Fld.BUR_KEYIDX_LO 0 7] with bur := { Bureau.init with nv := { Nonvolatile.init with keyres := 2 ^ 32 + 128 } } }
  (s.bur.running = false) ∧ (s.bur.dead = false) ∧ (s.mode ≠ .reset) ∧ (s.bur.waiting = none) ∧ (s.twin.trigger = none) ∧ (s.bur.nv.keyres < 2 ^ 40) := by decide +kernel

theorem CompletionAndHalts_11_met :
  let s : State := { die .run [at1 Fld.BUR_STATUS_BUSY 0 1] with bur := { Bureau.init with waiting := some (.getMode 3 []) } }
  let tag : Nat := 3
  (s.bur.running = false) ∧ (s.bur.dead = false) ∧ (s.mode.code ≠ 0) ∧ (s.mode ≠ .reset) ∧ (s.bur.waiting = some (.getMode tag [])) ∧ (s.twin.trigger = none) := by decide +kernel

theorem CompletionAndHalts_12_met :
  let s : State := { die .run [at1 Fld.BUR_BOOT_FW_OK 0 1] with bur := Bureau.init }
  let err : Nat := 3
  (s.bur.running = false) ∧ (s.bur.dead = false) ∧ (s.mode ≠ .reset) ∧ ((err = 3 ∨ err = 4)) := by decide +kernel

theorem CompletionAndHalts_13_met :
  let s : State := { die .reset [] with bur := Bureau.init }
  let err : Nat := 4
  ((err = 0 ∨ err = 3 ∨ err = 4)) ∧ ((s.bur.running = true ∨ s.bur.dead = true ∨ s.mode = .reset)) := by decide +kernel

theorem PowerStates_1_met :
  let s : State := die .run [at1 Fld.PWR_STAT_CEIL 0 7, at1 Fld.PWR_CNT_DOZES 0 65535]
  let tick : Nat := 2000
  (s.lclk = true) ∧ (s.standby = false) ∧ (s.mode = .run) ∧ ((s.updateNext tick).wokenNow = false) ∧ ((s.updateNext tick).selectLow = some 7) := by decide +kernel

theorem PowerStates_2_met :
  let s : State := die .run [at1 Fld.PWR_STAT_CEIL 0 5]
  let tick : Nat := 2000
  (s.lclk = true) ∧ (s.standby = false) ∧ (s.mode = .run) ∧ ((s.updateNext tick).selectLow = none) := by decide +kernel

theorem PowerStates_3_met :
  let s : State := { die .slumber [] with pwr := { Power.init with stage := .entering } }
  (s.mode.low = true) ∧ (s.pwr.stage = .entering) ∧ ((s.mode = .slumber → s.linesDrained = true)) ∧ ((s.mode = .slumber → s.rings.all (fun e => e.2.opened.isNone && e.2.closed.isEmpty) = true)) ∧ (s.pwr.wakeHeld = false) := by decide +kernel

theorem PowerStates_4_met :
  let s : State := ({ die .slumber [] with pwr := { Power.init with stage := .entering } } : State).setGroup 0 { Group.init with core := { CgCore.init with conv := 4, held := [⟨0, 0, 0, 0, false, [], false, [], 0, false⟩] } }
  (s.mode = .slumber) ∧ (s.pwr.stage = .entering) ∧ (s.linesDrained = false) := by decide +kernel

theorem PowerStates_5_met :
  let s : State := { die .nap [at1 Fld.CG_STAT_REF_SETTLED 23 1] with pwr := { Power.init with stage := .entering, wakeHeld := true } }
  (s.mode.low = true) ∧ (s.pwr.stage = .entering) ∧ ((s.mode = .slumber → s.linesDrained = true)) ∧ ((s.mode = .slumber → s.rings.all (fun e => e.2.opened.isNone && e.2.closed.isEmpty) = true)) ∧ (s.pwr.wakeHeld = true) := by decide +kernel

theorem PowerStates_6_met :
  let s : State := { die .nap [at1 Fld.CG_STAT_REF_SETTLED 23 1] with pwr := { Power.init with stage := .asleep, selfWake := some 5000 } }
  let tick : Nat := 5000
  (s.mode.low = true) ∧ (s.pwr.stage = .asleep) ∧ (s.pwr.selfWake = some tick) ∧ (s.lclk = true) ∧ (s.standby = false) := by decide +kernel

theorem PowerStates_7_met :
  let s : State := { die .doze [] with pwr := { Power.init with stage := .leaving, selfWake := some 5000 } }
  (s.mode = .doze) ∧ (s.pwr.stage = .leaving) ∧ (s.lclk = true) := by decide +kernel

theorem PowerStates_8_met :
  let s : State := { die .nap [at1 Fld.CG_CTL_EN 23 1] with pwr := { Power.init with stage := .leaving, leftAt := some 1000 } }
  let tick : Nat := 40999
  let g : Nat := 23
  (s.mode = .nap ∨ s.mode = .slumber) ∧ (s.pwr.stage = .leaving) ∧ (g < s.part.numCG) ∧ (s.on Fld.CG_CTL_EN g = true) ∧ (s.on Fld.CG_STAT_REF_SETTLED g = false) ∧ (max s.lcs.time tick < s.pwr.leftAt.getD 0 + (if s.mode = .nap then 40000 else 2000000)) := by decide +kernel

theorem PowerStates_9_met :
  let s : State := { die .slumber [at1 Fld.PWR_STAT_WHY 0 1, at1 Fld.CG_CTL_EN 23 1] with pwr := { Power.init with stage := .leaving, leftAt := some 1000 } }
  let tick : Nat := 2001000
  (s.mode = .slumber) ∧ (s.pwr.stage = .leaving) ∧ (s.f Fld.PWR_STAT_WHY = 1) ∧ ((List.range s.part.numCG).all (fun g => !s.on Fld.CG_CTL_EN g || s.on Fld.CG_STAT_REF_SETTLED g) = true ∨ s.pwr.leftAt.getD 0 + 2000000 ≤ max s.lcs.time tick) := by decide +kernel

theorem PowerStates_10_met :
  let s : State := { die .nap [at1 Fld.CG_CTL_EN 23 1, at1 Fld.CG_ROT_CTL_AUTO 23 1] with pwr := { Power.init with stage := .leaving, leftAt := some 1000 }, bur := { Bureau.init with running := true, checks := 100000 } }
  let tick : Nat := 41000
  let g : Nat := 23
  (s.mode = .nap) ∧ (s.pwr.stage = .leaving) ∧ (s.pwr.leftAt.getD 0 + 40000 ≤ tick) ∧ (s.bur.running = true) ∧ (g < s.part.numCG) ∧ (s.rotst g = 0) ∧ (s.on Fld.CG_ROT_CTL_AUTO g = true) ∧ ((s.rot g).lastAccept + 10 * s.f Fld.CG_ROT_CTL_INTERVAL g ≤ s.bur.checks) := by decide +kernel

theorem PowerStates_12_met :
  let s : State := die .run [at1 Fld.PWR_STAT_CEIL 0 9]
  let tick : Nat := 2000
  let c : Nat := 9
  (s.lclk = true) ∧ (s.standby = false) ∧ (s.mode = .run) ∧ ((s.updateNext tick).wokenNow = false) ∧ ((s.updateNext tick).selectLow = some c) := by decide +kernel

theorem PowerStates_13_met :
  let s : State := { (die .slumber [at1 Fld.DMA_RSTAT_ADMITTED 9 1, at1 Fld.DMA_CFG_SRC 9 0x2003, at1 Fld.HOST_LINK_UP 0 1]).setRing 9 { Ring.init with opened := some ⟨3, [(plainWord 5 9, 77)], ⟨true, 77, 0, 0, 0, 0⟩, false, true, false⟩ } with pwr := { Power.init with stage := .entering } }
  let r : Nat := 9
  (s.mode = .slumber) ∧ (s.pwr.stage = .entering) ∧ (s.linesDrained = true) ∧ (s.pwr.wakeHeld = false) ∧ (s.admitted r = true) ∧ (r < 4096) ∧ (s.downstream r = false) := by decide +kernel

theorem PowerStates_14_met :
  let s : State := { die .nap [at1 Fld.TWN_STAT_PAIRED 0 1] with pwr := { Power.init with stage := .asleep, selfWake := some 5000 } }
  let tick : Nat := 5000
  (s.standby = true) ∧ (s.pwr.selfWake = some tick) ∧ (s.lclk = true) := by decide +kernel

theorem PairsAndLinks_1_met :
  let s : State := { die .run [at1 Fld.TWN_STAT_LINK_UP 0 1, at1 Fld.LCS_CTL_CLKSRC 0 2] with part := Part.kn9640T, twin := { Twin.init with die := 1, fenced := true } }
  let w : Word := 1
  let p : TwinPeer := ⟨true, true, true, false, [], [(3, 5)]⟩
  (s.takes = true) ∧ (s.part.isTwin = true) ∧ (s.mode = .run) ∧ (s.on Fld.TWN_STAT_PAIRED = false) ∧ (s.on Fld.TWN_STAT_LINK_UP = true) ∧ (s.f Fld.LCS_CTL_CLKSRC ≠ 1) ∧ (p.answers = true) ∧ (p.run = true) ∧ (p.same = true) ∧ (p.busy = false) ∧ (s.inUse = false) ∧ (w.bits 0 1 = s.twin.die) := by decide +kernel

theorem PairsAndLinks_2_met :
  let s : State := { die .run [at1 Fld.TWN_STAT_LINK_UP 0 1, at1 Fld.LCS_CTL_CLKSRC 0 2] with part := Part.kn9640T, pdir := [(1, 1)], twin := { Twin.init with die := 1, silent := true } }
  let w : Word := 0
  let p : TwinPeer := ⟨true, true, true, false, [], []⟩
  (s.takes = true) ∧ (s.part.isTwin = true) ∧ (s.mode = .run) ∧ (s.on Fld.TWN_STAT_PAIRED = false) ∧ (s.on Fld.TWN_STAT_LINK_UP = true) ∧ (s.f Fld.LCS_CTL_CLKSRC ≠ 1) ∧ (p.answers = true) ∧ (p.run = true) ∧ (p.same = true) ∧ (p.busy = false) ∧ (s.inUse = false) ∧ (w.bits 0 1 ≠ s.twin.die) ∧ (p.regs = []) ∧ (p.pdir = []) := by decide +kernel

theorem PairsAndLinks_3_met :
  let s : State := { die .run [at1 Fld.TWN_STAT_LINK_UP 0 1, at1 Fld.LCS_CTL_CLKSRC 0 2] with part := Part.kn9640T }
  let p : TwinPeer := ⟨false, false, false, false, [], []⟩
  (s.takes = true) ∧ (s.part.isTwin = true) ∧ (s.mode = .run) ∧ (s.on Fld.TWN_STAT_PAIRED = false) ∧ (s.on Fld.TWN_STAT_LINK_UP = true) ∧ (s.f Fld.LCS_CTL_CLKSRC ≠ 1) ∧ (p.answers = false) ∧ (p.busy = false) ∧ (s.inUse = false) := by decide +kernel

theorem PairsAndLinks_4_met :
  let s : State := { die .run [at1 Fld.TWN_STAT_LINK_UP 0 1, at1 Fld.CG_CTL_EN 0 1, at1 Fld.LCS_CTL_CLKSRC 0 2] with part := Part.kn9640T }
  let p : TwinPeer := ⟨false, false, false, false, [], []⟩
  (s.takes = true) ∧ (s.part.isTwin = true) ∧ (s.mode = .run) ∧ (s.on Fld.TWN_STAT_PAIRED = false) ∧ (s.on Fld.TWN_STAT_LINK_UP = true) ∧ (s.f Fld.LCS_CTL_CLKSRC ≠ 1) ∧ (p.answers = false) ∧ (s.inUse = true) := by decide +kernel

theorem PairsAndLinks_5_met :
  let s : State := { die .run [at1 Fld.TWN_STAT_PAIRED 0 1, at1 Fld.TWN_STAT_PRIMARY 0 1, at1 Fld.TWN_STAT_CAUSE 0 3] with part := Part.kn9640T }
  (s.takes = true) ∧ (s.part.isTwin = true) ∧ (s.mode = .run) ∧ (s.on Fld.TWN_STAT_PAIRED = true) ∧ (s.on Fld.TWN_STAT_PRIMARY = true) := by decide +kernel

theorem PairsAndLinks_6_met :
  let s : State := { die .run [at1 Fld.TWN_STAT_PAIRED 0 1, at1 Fld.DMA_RSTAT_ADMITTED 4095 1] with part := Part.kn9640T }
  let r : Nat := 4095
  (s.takes = true) ∧ (s.part.isTwin = true) ∧ (s.mode = .run) ∧ (s.standby = true) ∧ (r < 4096) ∧ (s.admitted r = true) := by decide +kernel

theorem PairsAndLinks_7_met :
  let s : State := { die .run [] with part := Part.kn9640T, twin := { Twin.init with retrain := true } }
  let eyes : List Nat := List.replicate 12 64 ++ [63, 0, 300, 1]
  let i : Nat := 14
  (s.part.isTwin = true) ∧ (eyes.length = 16) ∧ (i < 16) := by decide +kernel

theorem PairsAndLinks_8_met :
  let s : State := { die .run [] with part := Part.kn9640T }
  (s.part.isTwin = true) := by decide +kernel

theorem PairsAndLinks_9_met :
  let s : State := { die .run [at1 Fld.TWN_STAT_LINK_UP 0 1, at1 Fld.TWN_STAT_LANES 0 16, at1 Fld.TWN_LANE_GOOD 15 1, at1 Fld.TWN_STAT_HB_LINK 0 1] with part := Part.kn9640T }
  let i : Nat := 15
  (s.part.isTwin = true) ∧ (i < 16) ∧ ((s.stream.active = false ∨ s.stream.src ≠ 3)) := by decide +kernel

theorem PairsAndLinks_10_met :
  let s : State := { die .load [at1 Fld.CFG_WORDS 0 12] with part := Part.kn9640T, stream := { Stream.init with active := true, src := 3 } }
  (s.part.isTwin = true) ∧ (s.stream.active = true) ∧ (s.stream.src = 3) ∧ (s.mode = .load) := by decide +kernel

theorem PairsAndLinks_12_met :
  let s : State := die .wakeUp []
  (s.mode ≠ .reset) ∧ (s.mode ≠ .blank) ∧ (s.mode ≠ .faultMode) := by decide +kernel

theorem PairsAndLinks_13_met :
  let s : State := die .blank []
  (s.mode = .blank) := by decide +kernel

theorem PairsAndLinks_15_met :
  let s : State := { die .run [at1 Fld.TWN_STAT_PAIRED 0 1] with part := .kn9640T }
  (s.takes = true) ∧ (s.part.isTwin = true) ∧ (s.mode = .run) ∧ (s.standby = true) := by decide +kernel

theorem PairsAndLinks_16_met :
  let s : State := { die .blank [] with dio := { Dio.init with vok := 255 } }
  let n : Nat := 255
  (n < 256) ∧ (s.mode = .blank) ∧ (s.vok n = true) := by decide +kernel

theorem FailoverAndComparison_1_met :
  let s : State := { die .run [at1 Fld.TWN_STAT_PAIRED 0 1, at1 Fld.TWN_STAT_PRIMARY 0 1] with part := Part.kn9640T }
  (s.part.isTwin = true) ∧ (s.standby = false) := by decide +kernel

theorem FailoverAndComparison_2_met :
  let s : State := { die .run [at1 Fld.TWN_STAT_PAIRED 0 1] with part := Part.kn9640T, twin := { Twin.init with replay := [(9, ⟨3, [(plainWord 5 9, 77)], ⟨true, 77, 0, 0, 0, 0⟩, false, true, false⟩), (9, ⟨4, [(plainWord 5 9, 77)], ⟨true, 77, 0, 0, 0, 0⟩, false, true, false⟩)] } }
  let r : Nat := 9
  let q : Nat := 3
  let b : RingBlock := ⟨3, [(plainWord 5 9, 77)], ⟨true, 77, 0, 0, 0, 0⟩, false, true, false⟩
  let c : RingBlock := ⟨4, [(plainWord 5 9, 77)], ⟨true, 77, 0, 0, 0, 0⟩, false, true, false⟩
  (s.part.isTwin = true) ∧ (s.standby = true) ∧ (r < 4096) ∧ (s.twin.replay = [(r, b), (r, c)]) ∧ (b.seq = q) ∧ (c.seq = q + 1) ∧ (q + 1 < 2 ^ 32) := by decide +kernel

theorem FailoverAndComparison_3_met :
  let s : State := { die .run [at1 Fld.TWN_STAT_PAIRED 0 1, at1 Fld.TWN_CTL_FO_EN 0 1, at1 Fld.TWN_STAT_HB_LINK 0 1, at1 Fld.DMA_RSTAT_ADMITTED 9 1] with part := Part.kn9640T, twin := { Twin.init with replay := [(9, ⟨3, [(plainWord 5 9, 77)], ⟨true, 77, 0, 0, 0, 0⟩, false, true, false⟩)] } }
  (s.part.isTwin = true) ∧ (s.standby = true) ∧ (s.on Fld.TWN_CTL_FO_EN = true) ∧ (s.bur.running = true) ∧ (s.lcs.time < 2 ^ 64) := by decide +kernel

theorem FailoverAndComparison_4_met :
  let s : State := { die .run [at1 Fld.TWN_STAT_PAIRED 0 1, at1 Fld.TWN_STAT_HB_LINK 0 1, at1 Fld.TWN_CTL_FO_EN 0 0] with part := Part.kn9640T }
  (s.part.isTwin = true) ∧ (s.on Fld.TWN_CTL_FO_EN = false) := by decide +kernel

theorem FailoverAndComparison_5_met :
  let s : State := { die .run [at1 Fld.TWN_STAT_PAIRED 0 1, at1 Fld.TWN_STAT_PRIMARY 0 1, at1 Fld.TWN_CTL_FO_EN 0 1] with part := Part.kn9640T, lcs := Longcase.init, twin := { Twin.init with waiting := [(7000, ⟨0, 0, 8, 1, some [1], [], false⟩)] } }
  (s.lcs.pll ≠ .locked) ∧ (s.on Fld.TWN_STAT_PAIRED = true) ∧ (s.on Fld.TWN_STAT_PRIMARY = true) ∧ (s.on Fld.TWN_CTL_FO_EN = true) ∧ (s.bur.running = true) := by decide +kernel

theorem FailoverAndComparison_6_met :
  let s : State := { die .run [at1 Fld.TWN_STAT_PAIRED 0 1, at1 Fld.TWN_CTL_FO_EN 0 1, at1 Fld.DMA_RSTAT_ADMITTED 9 1] with part := Part.kn9640T, lcs := Longcase.init }
  let r : Nat := 9
  (s.lcs.pll ≠ .locked) ∧ (s.standby = true) ∧ (s.on Fld.TWN_CTL_FO_EN = true) ∧ (s.bur.running = true) ∧ (r < 4096) ∧ (s.admitted r = true) := by decide +kernel

theorem FailoverAndComparison_7_met :
  let s : State := { die .run [at1 Fld.TWN_STAT_PAIRED 0 1] with part := Part.kn9640T }
  let cause : Nat := 5
  (s.standby = true) ∧ (cause < 16) := by decide +kernel

theorem FailoverAndComparison_8_met :
  let s : State := { die .run [at1 Fld.TWN_STAT_PAIRED 0 1, at1 Fld.TWN_CMP 0 8, at1 Fld.TWN_FOCNT_MISMATCH 0 65535] with part := Part.kn9640T }
  let k : Nat := 3
  (k < s.part.numCB) ∧ (k < 24) ∧ (s.on Fld.TWN_STAT_PAIRED = true) ∧ ((s.f Fld.TWN_CMP).testBit k = true) ∧ (s.twin.scrubbed.contains k = false) := by decide +kernel

theorem FailoverAndComparison_9_met :
  let s : State := { die .run [at1 Fld.TWN_STAT_PAIRED 0 1, at1 Fld.TWN_CMP 0 8] with part := Part.kn9640T, twin := { Twin.init with scrubbed := [3, 4] } }
  let k : Nat := 3
  (k < s.part.numCB) ∧ (k < 24) ∧ (s.on Fld.TWN_STAT_PAIRED = true) ∧ ((s.f Fld.TWN_CMP).testBit k = true) := by decide +kernel

theorem FailoverAndComparison_10_met :
  let s : State := { die .run [at1 Fld.TWN_STAT_PAIRED 0 1, at1 Fld.TWN_STAT_PRIMARY 0 1, at1 Fld.TWN_CTL_FO_EN 0 1, at1 Fld.TWN_CMP 0 8] with part := Part.kn9640T, twin := { Twin.init with scrubbed := [3, 4] } }
  let k : Nat := 3
  (k < s.part.numCB) ∧ (k < 24) ∧ (s.on Fld.TWN_STAT_PAIRED = true) ∧ (s.on Fld.TWN_STAT_PRIMARY = true) ∧ (s.on Fld.TWN_CTL_FO_EN = true) ∧ (s.bur.running = true) ∧ ((s.f Fld.TWN_CMP).testBit k = true) ∧ (s.twin.scrubbed.contains k = true) := by decide +kernel

theorem FailoverAndComparison_11_met :
  let s : State := { die .run [at1 Fld.TWN_STAT_PAIRED 0 1, at1 Fld.TWN_STAT_PRIMARY 0 1, at1 Fld.TWN_CTL_FO_EN 0 1, at1 Fld.TWN_CMP 0 8] with part := Part.kn9640T, twin := { Twin.init with scrubbed := [3, 4] } }
  let k : Nat := 3
  (k < s.part.numCB) ∧ (k < 24) ∧ (s.on Fld.TWN_STAT_PAIRED = true) ∧ (s.on Fld.TWN_STAT_PRIMARY = true) ∧ (s.on Fld.TWN_CTL_FO_EN = true) ∧ (s.bur.running = true) ∧ ((s.f Fld.TWN_CMP).testBit k = true) := by decide +kernel

theorem FailoverAndComparison_12_met :
  let s : State := { (die .run [at1 Fld.TWN_STAT_PAIRED 0 1, at1 Fld.DMA_RSTAT_ADMITTED 9 1, at1 Fld.DMA_CFG_SRC 9 0x1003]).setRing 9 { Ring.init with closed := [⟨0, [(plainWord 5 9, 77), (plainWord 6 10, 78), (plainWord 7 11, 79)], ⟨true, 77, 0, 0, 0, 0⟩, false, true, false⟩] } with part := Part.kn9640T }
  let r : Nat := 9
  let b : RingBlock := ⟨0, [(plainWord 5 9, 77), (plainWord 6 10, 78), (plainWord 7 11, 79)], ⟨true, 77, 0, 0, 0, 0⟩, false, true, false⟩
  let l : List (StreamWord × Int) := [(plainWord 5 9, 77)]
  let m : List (StreamWord × Int) := [(plainWord 7 11, 79)]
  let e : StreamWord × Int := (plainWord 6 10, 78)
  (s.part.isTwin = true) ∧ (s.standby = true) ∧ (r < 4096) ∧ (s.twin.replay = []) ∧ ((s.ring r).opened = none) ∧ ((s.ring r).closed = [b]) ∧ (b.words = l ++ e :: m) ∧ (l ≠ []) ∧ (l.all (fun x => x.1.index != e.1.index) = true) ∧ (m.length + 1 < s.ringW r) := by decide +kernel

end Sys2Proof.Tests
end

/-!
# The canonical form (O6)

`State.Canonical` names the conjuncts of `State.canonical`. Each function of the model that answers a state keeps it
(`State.Canonical.f`), in the order of the model's files, and so each command (`execX_canonical`) and each step does.
-/

section
namespace Sys2Proof.Machine

/-! ## Tables rewritten entry by entry -/

theorem Tab.rising_filterMap {α β : Type} {f : Nat × α → Option (Nat × β)} {t : Tab α}
    (hf : ∀ e ∈ t, ∀ e', f e = some e' → e'.1 = e.1) {o : Option Nat} (h : Tab.rising o t = true) :
    Tab.rising o (t.filterMap f) = true := by
  induction t generalizing o with
  | nil => rfl
  | cons e t ih =>
    obtain ⟨a, v⟩ := e
    simp only [Tab.rising, Bool.and_eq_true] at h
    have ht := ih (fun e he => hf e (List.mem_cons_of_mem _ he)) h.2
    cases hv : f (a, v) with
    | none =>
      rw [List.filterMap_cons_none hv]
      cases o with
      | none => exact Tab.rising_none ht
      | some b => exact Tab.rising_mono ht (le_of_lt (by simpa using h.1))
    | some e' =>
      obtain ⟨a', v'⟩ := e'
      obtain rfl : a' = a := hf _ List.mem_cons_self _ hv
      rw [List.filterMap_cons_some hv]
      simpa only [Tab.rising, Bool.and_eq_true] using ⟨h.1, ht⟩

/-- Entries rewritten or dropped under their own numbers, none to its default, keep the canonical form. -/
theorem Tab.wf_filterMap {α β : Type} [DecidableEq α] [DecidableEq β] {d : Nat → α} {d' : Nat → β}
    {f : Nat × α → Option (Nat × β)} {t : Tab α} (h : t.wf d = true)
    (hf : ∀ e e', e.2 ≠ d e.1 → f e = some e' → e'.1 = e.1 ∧ e'.2 ≠ d' e'.1) : Tab.wf d' (t.filterMap f) = true := by
  simp only [Tab.wf, Bool.and_eq_true, List.all_eq_true, decide_eq_true_eq] at h ⊢
  refine ⟨Tab.rising_filterMap (fun e he e' hv => (hf e e' (h.2 e he) hv).1) h.1, fun e' he' => ?_⟩
  obtain ⟨e, he, hv⟩ := List.mem_filterMap.mp he'
  exact (hf e e' (h.2 e he) hv).2

/-- Entries dropped, or else rewritten to what is not their default, keep the canonical form. -/
theorem Tab.wf_filterMap_ite {α β : Type} [DecidableEq α] [DecidableEq β] {d : Nat → α} {d' : Nat → β}
    {c : Nat × α → Prop} [DecidablePred c] {v : Nat × α → β} {t : Tab α} (h : t.wf d = true)
    (hv : ∀ e, ¬ c e → v e ≠ d' e.1) : Tab.wf d' (t.filterMap fun e => if c e then none else some (e.1, v e)) = true := by
  refine Tab.wf_filterMap h fun e e' _ he => ?_
  split at he
  · cases he
  · cases he
    exact ⟨rfl, hv e ‹_›⟩

/-- Entries rewritten under their own numbers, none to its default, keep the canonical form. -/
theorem Tab.wf_map_snd {α : Type} [DecidableEq α] {d : Nat → α} {f : Nat × α → Nat × α} {t : Tab α} (h : t.wf d = true)
    (hk : ∀ e, (f e).1 = e.1) (hv : ∀ e, e.2 ≠ d e.1 → (f e).2 ≠ d e.1) : Tab.wf d (t.map f) = true := by
  rw [← List.filterMap_eq_map]
  refine Tab.wf_filterMap h fun e e' he hf => ?_
  obtain rfl : f e = e' := Option.some.inj hf
  exact ⟨hk e, hk e ▸ hv e he⟩

/-- Entries rewritten under their own numbers, without those that then hold the default, are in canonical form. -/
theorem Tab.wf_map_filter {α : Type} [DecidableEq α] {x : α} {f : α → α} {t : Tab α} (h : t.wf (fun _ => x) = true) :
    Tab.wf (fun _ => x) ((t.map fun e => (e.1, f e.2)).filter fun e => e.2 != x) = true := by
  simp only [Tab.wf, Bool.and_eq_true] at h ⊢
  constructor
  · refine Tab.rising_filter _ ?_
    rw [← List.filterMap_eq_map]
    refine Tab.rising_filterMap ?_ h.1
    rintro e - _ ⟨⟩
    rfl
  · simp only [List.all_eq_true, List.mem_filter]
    exact fun e he => by simpa using he.2

theorem Feed.arrive_ne_init {f : Feed} {ws : List StreamWord} (hw : ws ≠ []) : f.arrive ws ≠ Feed.init := by
  cases ws with
  | nil => exact absurd rfl hw
  | cons w r => simp [Feed.arrive, Feed.init]

/-- What stays of a cell stays under its number and is not the cleared cell. -/
theorem Cell.cleared_some {x : Cell} {c : Nat} {b : Bool} {e : Nat × Cell} (h : x.cleared c b = some e) :
    e.1 = c ∧ e.2 ≠ Cell.init := by
  unfold Cell.cleared at h
  dsimp only at h
  split at h
  · cases h
  · cases h
    exact ⟨rfl, ‹_›⟩


/-- Every table of `s` is in its canonical form (`State.canonical`), table by table. -/
structure State.Canonical (s : State) : Prop where
  feeds : Tab.wf (fun _ => Feed.init) s.feeds = true
  apPins : Tab.wf (fun _ => 0) s.apPins = true
  regs : Tab.wf RegMap.resetAt s.regs = true
  cells : Tab.wf (fun _ => Cell.init) s.cells = true
  groups : Tab.wf (fun _ => Group.init) s.groups = true
  chains : Tab.wf (fun _ => Chain.init) s.chains = true
  monitors : Tab.wf (fun _ => Monitor.init) s.monitors = true
  dacs : Tab.wf (fun _ => Dac.init) s.dacs = true
  frames : Tab.wf (fun _ => 0) s.frames = true
  checks : Tab.wf (fun _ => 0) s.checks = true
  fcells : Tab.wf (fun _ => FabCell.init) s.fcells = true
  cabs : Tab.wf (fun _ => Cabinet.init) s.cabs = true
  lines : Tab.wf (fun _ => PulseX.init) s.lines = true
  frqs : Tab.wf (fun _ => PulseX.init) s.frqs = true
  probes : Tab.wf (fun _ => Probe.init) s.probes = true
  rings : Tab.wf (fun _ => Ring.init) s.rings = true
  pdir : Tab.wf (fun _ => 0) s.pdir = true
  hostMem : Tab.wf (fun _ => 0) s.hostMem = true
  chans : Tab.wf (fun _ => Chan.init) s.chans = true

theorem State.canonical_iff {s : State} : s.canonical = true ↔ s.Canonical := by
  simp only [State.canonical, Bool.and_eq_true]
  constructor
  · rintro ⟨⟨⟨⟨⟨⟨⟨⟨⟨⟨⟨⟨⟨⟨⟨⟨⟨⟨h1, h2⟩, h3⟩, h4⟩, h5⟩, h6⟩, h7⟩, h8⟩, h9⟩, h10⟩, h11⟩, h12⟩, h13⟩, h14⟩, h15⟩, h16⟩, h17⟩, h18⟩,
      h19⟩
    exact ⟨h1, h2, h3, h4, h5, h6, h7, h8, h9, h10, h11, h12, h13, h14, h15, h16, h17, h18, h19⟩
  · rintro ⟨⟩
    simp_all

/-- Where a command answers a next state, its tables are in canonical form. -/
def OutCanonical (o : Out) : Prop := ∀ t, o = .next t → t.Canonical

variable {s : State}

theorem State.Canonical.eq (h : s.Canonical) : s.canonical = true := State.canonical_iff.mpr h

theorem State.Canonical.of (h : s.canonical = true) : s.Canonical := State.canonical_iff.mp h

theorem State.Canonical.reset : State.reset.Canonical := .of (by decide)

/-! A field that is no table may take any value. -/

theorem State.Canonical.withFreeCount {x} (h : s.Canonical) : ({ s with freeCount := x } : State).Canonical :=
  { h with }

theorem State.Canonical.withReadData {x} (h : s.Canonical) : ({ s with readData := x } : State).Canonical :=
  { h with }

theorem State.Canonical.withLcs {x} (h : s.Canonical) : ({ s with lcs := x } : State).Canonical :=
  { h with }

theorem State.Canonical.withCal {x} (h : s.Canonical) : ({ s with cal := x } : State).Canonical :=
  { h with }

theorem State.Canonical.withDio {x} (h : s.Canonical) : ({ s with dio := x } : State).Canonical :=
  { h with }

theorem State.Canonical.withStream {x} (h : s.Canonical) : ({ s with stream := x } : State).Canonical :=
  { h with }

theorem State.Canonical.withScrub {x} (h : s.Canonical) : ({ s with scrub := x } : State).Canonical :=
  { h with }

theorem State.Canonical.withVoted {x} (h : s.Canonical) : ({ s with voted := x } : State).Canonical :=
  { h with }

theorem State.Canonical.withPins {x} (h : s.Canonical) : ({ s with pins := x } : State).Canonical :=
  { h with }

theorem State.Canonical.withHost {x} (h : s.Canonical) : ({ s with host := x } : State).Canonical :=
  { h with }

theorem State.Canonical.withBur {x} (h : s.Canonical) : ({ s with bur := x } : State).Canonical :=
  { h with }

theorem State.Canonical.withPwr {x} (h : s.Canonical) : ({ s with pwr := x } : State).Canonical :=
  { h with }

theorem State.Canonical.withTwin {x} (h : s.Canonical) : ({ s with twin := x } : State).Canonical :=
  { h with }

theorem State.Canonical.withArb {x} (h : s.Canonical) : ({ s with arb := x } : State).Canonical :=
  { h with }

theorem State.Canonical.ite {c : Prop} [Decidable c] {t u : State} (ht : t.Canonical) (hu : u.Canonical) :
    (if c then t else u).Canonical := by
  split
  · exact ht
  · exact hu

theorem State.Canonical.foldl {β : Type} {f : State → β → State} {l : List β} (h : s.Canonical)
    (hf : ∀ {t b}, t.Canonical → (f t b).Canonical) : (l.foldl f s).Canonical := by
  induction l generalizing s with
  | nil => exact h
  | cons b l ih => exact ih (hf h)

theorem State.Canonical.foldlFst {α β : Type} {f : State × α → β → State × α} {l : List β} {a : State × α} (h : a.1.Canonical)
    (hf : ∀ {t b}, t.1.Canonical → (f t b).1.Canonical) : (l.foldl f a).1.Canonical := by
  induction l generalizing a with
  | nil => exact h
  | cons b l ih => exact ih (hf h)

theorem OutCanonical.next {t : State} (h : t.Canonical) : OutCanonical (.next t) := by
  rintro _ ⟨⟩
  exact h

theorem OutCanonical.fault {r : Fault} : OutCanonical (.fault r) := by
  rintro _ ⟨⟩

theorem OutCanonical.ite {c : Prop} [Decidable c] {o p : Out} (ho : OutCanonical o) (hp : OutCanonical p) :
    OutCanonical (if c then o else p) := by
  split
  · exact ho
  · exact hp

theorem onInst_canonical {n bound k} (hk : OutCanonical k) : OutCanonical (onInst n bound k) := .ite hk .fault

theorem ifPresent_canonical {n count bound k} (h : s.Canonical) (hk : OutCanonical k) :
    OutCanonical (ifPresent n count bound s k) := onInst_canonical (.ite hk (.next h))

theorem readPresent_canonical {n count bound k} (h : s.Canonical) (hk : OutCanonical k) :
    OutCanonical (readPresent n count bound s k) := onInst_canonical (.ite hk (.next h.withReadData))

theorem State.Canonical.counted (h : s.Canonical) : s.counted.Canonical :=
  .ite (State.canonical_iff.mp (State.addWrap_canonical (State.canonical_iff.mpr h) ..)) h

theorem hostRow_canonical {o : Out} (ho : OutCanonical o) : OutCanonical (hostRow o) := by
  cases o with
  | next t => exact .next (ho t rfl).counted
  | fault r => exact .fault
  | refused r => rintro _ ⟨⟩

/-! ### Machine/Ops -/

theorem State.Canonical.setWord {a w} (h : s.Canonical) : (s.setWord a w).Canonical :=
  .of (State.setWord_canonical h.eq ..)

theorem State.Canonical.setF {r v i j} (h : s.Canonical) : (s.setF r v i j).Canonical :=
  h.setWord

theorem State.Canonical.setB {r b i j} (h : s.Canonical) : (s.setB r b i j).Canonical :=
  h.setF

theorem State.Canonical.flag {r i j} (h : s.Canonical) : (s.flag r i j).Canonical :=
  h.setF

theorem State.Canonical.flagIf {b r i j} (h : s.Canonical) : (s.flagIf b r i j).Canonical :=
  .ite h.flag h

theorem State.Canonical.addSat {r n i j} (h : s.Canonical) : (s.addSat r n i j).Canonical :=
  h.setF

theorem State.Canonical.addWrap {r n i j} (h : s.Canonical) : (s.addWrap r n i j).Canonical :=
  h.setF

theorem State.Canonical.setBit {r k i j} (h : s.Canonical) : (s.setBit r k i j).Canonical :=
  h.setF

theorem State.Canonical.setPair {lo hi v i j} (h : s.Canonical) : (s.setPair lo hi v i j).Canonical :=
  h.setF.setF

/-! ### Machine/Longcase -/

theorem State.Canonical.setTrk {n t} (h : s.Canonical) : (s.setTrk n t).Canonical :=
  h.withLcs

theorem State.Canonical.setAlarm {n a} (h : s.Canonical) : (s.setAlarm n a).Canonical :=
  h.withLcs

theorem State.Canonical.setTimer {n t} (h : s.Canonical) : (s.setTimer n t).Canonical :=
  h.withLcs

theorem State.Canonical.setCapture {n l} (h : s.Canonical) : (s.setCapture n l).Canonical :=
  h.withLcs

theorem State.Canonical.atTick {t} (h : s.Canonical) : (s.atTick t).Canonical :=
  h.withLcs

theorem State.Canonical.stopWrite {a} (h : s.Canonical) : (s.stopWrite a).Canonical :=
  h.flag.setF.setF.setF

theorem State.Canonical.writeIn {runs a k} (h : s.Canonical) (hk : ∀ {t}, t.Canonical → (k t).Canonical) :
    (s.writeIn runs a k).Canonical :=
  .ite (hk h) h.stopWrite

theorem State.Canonical.lcsWrite {a k} (h : s.Canonical) (hk : ∀ {t}, t.Canonical → (k t).Canonical) :
    (s.lcsWrite a k).Canonical :=
  h.writeIn hk

theorem State.Canonical.sclkWrite {g a k} (h : s.Canonical) (hk : ∀ {t}, t.Canonical → (k t).Canonical) :
    (s.sclkWrite g a k).Canonical :=
  h.writeIn hk

theorem State.Canonical.smpStamp {stamp} (h : s.Canonical) : (s.smpStamp stamp).Canonical :=
  .ite h.withLcs h

theorem State.Canonical.smpLost (h : s.Canonical) : s.smpLost.Canonical :=
  h.withLcs

theorem execSmpclkStall_canonical (h : s.Canonical) : OutCanonical (execSmpclkStall s) :=
  .ite (.next h.smpLost.withLcs) (.next h)

theorem State.Canonical.putTrk {n t} (h : s.Canonical) : (s.putTrk n t).Canonical :=
  .ite h.setTrk h.setTrk.setBit

theorem State.Canonical.processEdge {n} (h : s.Canonical) : (s.processEdge n).Canonical := by
  unfold State.processEdge; dsimp only
  split
  · exact h
  · exact h.atTick.putTrk.addSat.addSat.addSat

theorem State.Canonical.keepEdge {n stamp tick rev} (h : s.Canonical) : (s.keepEdge n stamp tick rev).Canonical :=
  .ite h.addSat h.setTrk

theorem State.Canonical.undoQuad {m} (h : s.Canonical) : (s.undoQuad m).Canonical := by
  unfold State.undoQuad; dsimp only
  split
  · exact h
  · exact h.setTrk.setF

theorem State.Canonical.quadOne {n stamp tick rise} (h : s.Canonical) : (s.quadOne n stamp tick rise).Canonical :=
  .ite (.ite h.setTrk.undoQuad.addSat (setTrk (.ite h.setTrk.keepEdge h.setTrk))) h.setTrk

theorem State.Canonical.quadEdge {n stamp tick kind} (h : s.Canonical) : (s.quadEdge n stamp tick kind).Canonical := by
  unfold State.quadEdge; dsimp only
  split
  · exact .ite (.ite h.setTrk.setTrk.addSat h.setTrk.setTrk) h.quadOne
  · exact h.quadOne

theorem State.Canonical.mainEdge {n stamp tick kind} (h : s.Canonical) : (s.mainEdge n stamp tick kind).Canonical :=
  .ite h.atTick (.ite h.atTick.quadEdge (.ite h.atTick.setTrk.keepEdge h.atTick.setTrk))

theorem execPrEdge_canonical {n stamp tick kind} (h : s.Canonical) : OutCanonical (execPrEdge n stamp tick kind s) :=
  onInst_canonical (.next (.ite h.mainEdge h))

theorem execPrIndexEdge_canonical {n stamp tick kind} (h : s.Canonical) : OutCanonical (execPrIndexEdge n stamp tick kind s) :=
  onInst_canonical (.next (.ite (.ite h.atTick.addSat h.atTick.setTrk) h))

theorem State.Canonical.enterCoast {n tick} (h : s.Canonical) : (s.enterCoast n tick).Canonical :=
  .ite h.atTick.putTrk h

theorem State.Canonical.endCoast {n tick} (h : s.Canonical) : (s.endCoast n tick).Canonical :=
  .ite h.atTick.putTrk h

theorem State.Canonical.unlockRef {n} (h : s.Canonical) : (s.unlockRef n).Canonical :=
  h.putTrk

theorem State.Canonical.writePrCfg {n w} (h : s.Canonical) : (s.writePrCfg n w).Canonical := by
  unfold State.writePrCfg
  extract_lets _ _ _ _ _ _ _ _ _ s1 s2
  have h1 : s1.Canonical := h.setWord.flagIf
  have h2 : s2.Canonical := .ite h1.unlockRef h1
  exact .ite h2.setF.unlockRef h2

theorem State.Canonical.enableRef {n en} (h : s.Canonical) : (s.enableRef n en).Canonical :=
  .ite h.setWord.flagIf.unlockRef h.setWord.flagIf

theorem State.Canonical.snapRef {n} (h : s.Canonical) : (s.snapRef n).Canonical :=
  h.setPair.setF.setF.setF.setPair

theorem execPrSnap_canonical {n tick} (h : s.Canonical) : OutCanonical (execPrSnap n tick s) :=
  hostRow_canonical (onInst_canonical (.next (h.lcsWrite (fun h => h.atTick.snapRef))))

theorem State.Canonical.snapTime (h : s.Canonical) : s.snapTime.Canonical :=
  h.setPair.setPair.setPair

theorem execLcsTimeSnap_canonical {tick} (h : s.Canonical) : OutCanonical (execLcsTimeSnap tick s) :=
  hostRow_canonical (.next (h.lcsWrite (fun h => h.atTick.snapTime)))

theorem State.Canonical.loadShadow {n} (h : s.Canonical) : (s.loadShadow n).Canonical := by
  unfold State.loadShadow
  extract_lets _ s1 s2
  have h1 : s1.Canonical := by unfold s1; split <;> [exact h.setWord; exact h]
  have h2 : s2.Canonical := by unfold s2; split <;> [exact h1.setWord; exact h1]
  exact h2.setAlarm.setF

theorem State.Canonical.pushFiring {r} (h : s.Canonical) : (s.pushFiring r).Canonical :=
  h.withLcs

theorem State.Canonical.startTimer {n tick rem coast} (h : s.Canonical) : (s.startTimer n tick rem coast).Canonical :=
  h.setTimer

theorem State.Canonical.expireTimer {n} (h : s.Canonical) : (s.expireTimer n).Canonical :=
  .ite h.atTick.addWrap.pushFiring.setTimer h

theorem State.Canonical.expireFirst {n tick} (h : s.Canonical) : (s.expireFirst n tick).Canonical :=
  .ite h.expireTimer h

theorem State.Canonical.armTimers {n tick rem coast} (h : s.Canonical) : (s.armTimers n tick rem coast).Canonical :=
  h.foldl (fun h => .ite (.ite h.expireFirst h.expireFirst.startTimer) h)

theorem State.Canonical.fireAlarm {n tick a inst} (h : s.Canonical) : (s.fireAlarm n tick a inst).Canonical :=
  h.setAlarm.addWrap.setF.setF.setB.pushFiring.armTimers.loadShadow

theorem State.Canonical.testAlarm {n tick} (h : s.Canonical) : (s.testAlarm n tick).Canonical := by
  unfold State.testAlarm; dsimp only
  split
  · split
    · exact h
    · exact .ite h.atTick.setAlarm.fireAlarm h.atTick.setAlarm.setAlarm
  · exact h

theorem execAlarmFiring_canonical {n tick} (h : s.Canonical) : OutCanonical (execAlarmFiring n tick s) :=
  onInst_canonical (.next (.ite h.testAlarm h))

theorem State.Canonical.writePaCtl {n w} (h : s.Canonical) : (s.writePaCtl n w).Canonical := by
  unfold State.writePaCtl; dsimp only
  split
  · exact h.setWord.flagIf.setAlarm
  · exact h.setWord.flagIf.loadShadow
  · exact h.setWord.flagIf

theorem execPaEnable_canonical {n tick en} (h : s.Canonical) : OutCanonical (execPaEnable n tick en s) :=
  hostRow_canonical (onInst_canonical (.next (h.lcsWrite (fun h => h.atTick.writePaCtl))))

theorem State.Canonical.writePaTarget {n w} (h : s.Canonical) : (s.writePaTarget n w).Canonical :=
  .ite h.setAlarm.flag h.setWord

theorem State.Canonical.writePaFilter {n w} (h : s.Canonical) : (s.writePaFilter n w).Canonical :=
  .ite h.setAlarm.flag h.setWord

theorem State.Canonical.writeTtCtl {n w} (h : s.Canonical) : (s.writeTtCtl n w).Canonical :=
  .ite h.setWord.setTimer (.ite h.expireFirst.setWord.startTimer (.ite h.setWord.setTimer h.setWord))

theorem execTimerStart_canonical {n tick} (h : s.Canonical) : OutCanonical (execTimerStart n tick s) :=
  hostRow_canonical (onInst_canonical (.next (h.lcsWrite (fun h => h.atTick.writeTtCtl))))

theorem execTimerDisable_canonical {n} (h : s.Canonical) : OutCanonical (execTimerDisable n s) :=
  hostRow_canonical (onInst_canonical (.next (h.lcsWrite (fun h => h.writeTtCtl))))

theorem execTimerExpiry_canonical {n} (h : s.Canonical) : OutCanonical (execTimerExpiry n s) :=
  onInst_canonical (.next (.ite h.expireTimer h))

theorem execCaptureEdge_canonical {k stamp kind} (h : s.Canonical) : OutCanonical (execCaptureEdge k stamp kind s) :=
  onInst_canonical (.next (.ite (.ite h.atTick.setCapture.setBit h.flag) h))

theorem execCapPop_canonical {k} (h : s.Canonical) : OutCanonical (execCapPop k s) :=
  hostRow_canonical (onInst_canonical (.next (h.lcsWrite (fun h => h.setCapture))))

theorem State.Canonical.updateNext {tick} (h : s.Canonical) : (s.updateNext tick).Canonical := by
  unfold State.updateNext; dsimp only
  split
  · exact h.atTick.withLcs.setB.setF
  · exact h.atTick.withLcs

theorem State.Canonical.loseRefs (h : s.Canonical) : s.loseRefs.Canonical :=
  h.foldl (fun h => .ite h.putTrk h)

theorem State.Canonical.resumeTime {t} (h : s.Canonical) : (s.resumeTime t).Canonical :=
  h.withLcs.foldl (fun h => .ite h.setTimer h)

theorem State.Canonical.pllRestart (h : s.Canonical) : s.pllRestart.Canonical :=
  h.withLcs

theorem State.Canonical.writeLcsCtl {w} (h : s.Canonical) : (s.writeLcsCtl w).Canonical :=
  .ite h.flagIf (.ite h.setWord.pllRestart.flagIf h.flag)

theorem State.Canonical.pllLock (h : s.Canonical) : s.pllLock.Canonical :=
  .ite h.withLcs.loseRefs.resumeTime h

theorem State.Canonical.pllLost (h : s.Canonical) : s.pllLost.Canonical :=
  .ite h.withLcs h

theorem State.Canonical.pllRelock (h : s.Canonical) : s.pllRelock.Canonical :=
  .ite h.withLcs.addSat.loseRefs.resumeTime h

/-! ### Machine/Vectors -/

theorem State.Canonical.setChan {c x} (h : s.Canonical) : (s.setChan c x).Canonical :=
  .of (State.setChan_canonical h.eq ..)

theorem State.Canonical.setFunc {f x} (h : s.Canonical) : (s.setFunc f x).Canonical :=
  h.withHost

theorem State.Canonical.aer {func k} (h : s.Canonical) : (s.aer func k).Canonical :=
  h.setFunc

theorem State.Canonical.aerAdvisory {func} (h : s.Canonical) : (s.aerAdvisory func).Canonical :=
  h.setFunc

theorem State.Canonical.setVec {f v x} (h : s.Canonical) : (s.setVec f v x).Canonical :=
  h.withHost

theorem State.Canonical.noteVector {before : State} {acc f v} (h : s.Canonical) : (s.noteVector before acc f v).Canonical :=
  .ite h.setVec (.ite h.setVec (.ite h.setVec h.setVec))

theorem State.Canonical.noteVectors {before : State} {acc vs} (h : s.Canonical) : (s.noteVectors before acc vs).Canonical :=
  h.foldl (fun h => h.noteVector)

theorem State.Canonical.lowerChan {c x} (h : s.Canonical) : (s.lowerChan c x).Canonical :=
  h.setChan.noteVectors

/-! ### Machine/Wake -/

theorem State.Canonical.setSettled {g b} (h : s.Canonical) : (s.setSettled g b).Canonical :=
  .ite h h.setB.flag

theorem State.Canonical.leave (h : s.Canonical) : s.leave.Canonical :=
  .ite h.withPwr (h.withPwr.foldl (fun h => h.setSettled))

theorem State.Canonical.wakeOwn {why} (h : s.Canonical) : (s.wakeOwn why).Canonical := by
  unfold State.wakeOwn; dsimp only
  split
  · split
    · exact .ite h h.withPwr.setF
    · exact h.withPwr.setF.leave
    · exact h
  · exact .ite h.withPwr h

theorem State.Canonical.wake {why} (h : s.Canonical) : (s.wake why).Canonical :=
  .ite h h.wakeOwn

/-! ### Machine/Monitor -/

theorem State.Canonical.setWm {n m} (h : s.Canonical) : (s.setWm n m).Canonical :=
  .of (State.setWm_canonical h.eq ..)

theorem State.Canonical.wmResolveAll {n v} (h : s.Canonical) : (s.wmResolveAll n v).Canonical :=
  h.setWm

theorem State.Canonical.wmActivate {n up tick} (h : s.Canonical) : (s.wmActivate n up tick).Canonical :=
  .ite h.setWm.flag.addWrap.wake h.setWm.flag.addWrap

theorem State.Canonical.wmFeed {n up level stamp tick} (h : s.Canonical) : (s.wmFeed n up level stamp tick).Canonical := by
  unfold State.wmFeed
  extract_lets kind ek
  refine (h.foldl ?_).foldl ?_
  · intro t r h
    extract_lets u
    have hu : u.Canonical := .ite h.mainEdge h
    split
    · split
      · exact execPrIndexEdge_canonical hu _ ‹_›
      · exact hu
    · exact hu
  · intro t k h
    split
    · split
      · exact execCaptureEdge_canonical h _ ‹_›
      · exact h
    · exact h

theorem State.Canonical.wmDeliver {n e tick} (h : s.Canonical) : (s.wmDeliver n e tick).Canonical := by
  unfold State.wmDeliver
  extract_lets _ _ _ s1 s2
  have h1 : s1.Canonical := h.setWm
  have h2 : s2.Canonical := .ite h1.wmActivate h1
  exact h2.wmFeed

theorem State.Canonical.wmEdge {n e} (h : s.Canonical) : (s.wmEdge n e).Canonical :=
  .ite h.addSat (.ite h (.ite h.setWm h.wmDeliver))

theorem State.Canonical.wmSense {n up v stamp unresOnly} (h : s.Canonical) : (s.wmSense n up v stamp unresOnly).Canonical := by
  unfold State.wmSense; dsimp only
  split
  · exact h
  · exact .ite (.ite h.setWm h.setWm.wmEdge) (.ite h h.setWm.wmEdge)

theorem State.Canonical.writeWmCtl {n w} (h : s.Canonical) : (s.writeWmCtl n w).Canonical := by
  unfold State.writeWmCtl; dsimp only
  split
  · exact h.setWord.setWm
  · exact h.setWord.setWm
  · exact h.setWord

theorem State.Canonical.wmHold {n} (h : s.Canonical) : (s.wmHold n).Canonical :=
  .ite h.setWm h

theorem State.Canonical.writeWmThr {n w} (h : s.Canonical) : (s.writeWmThr n w).Canonical :=
  h.setWord.wmHold

theorem State.Canonical.writeWmHys {n w} (h : s.Canonical) : (s.writeWmHys n w).Canonical :=
  h.setF.setF.wmHold

theorem State.Canonical.writeWmTrim {n w} (h : s.Canonical) : (s.writeWmTrim n w).Canonical :=
  h.setWord.wmHold

theorem State.Canonical.wmRelease {n tick} (h : s.Canonical) : (s.wmRelease n tick).Canonical := by
  unfold State.wmRelease; dsimp only
  split
  · exact h
  · exact setWm (.ite h.setWm.addSat h.setWm.wmDeliver)

theorem State.Canonical.wmReleaseAll {n tick fuel} (h : s.Canonical) : (s.wmReleaseAll n tick fuel).Canonical := by
  induction fuel generalizing s with
  | zero => exact h
  | succ k ih => exact ih h.wmRelease

theorem State.Canonical.writeWmBlank {n w} (h : s.Canonical) : (s.writeWmBlank n w).Canonical :=
  .ite (setWm (.ite h.setWord.wmReleaseAll h.setWord.setWm)) h.setWord

theorem State.Canonical.writeWmPclr {n w} (h : s.Canonical) : (s.writeWmPclr n w).Canonical :=
  h.setWord

theorem State.Canonical.wmBroadcast {r} (h : s.Canonical) : (s.wmBroadcast r).Canonical :=
  h.foldl (fun h => .ite h h.setWm)

theorem execWmEnable_canonical {n} (h : s.Canonical) : OutCanonical (execWmEnable n s) :=
  hostRow_canonical (ifPresent_canonical h (.next h.writeWmCtl))

theorem execWmDisable_canonical {n} (h : s.Canonical) : OutCanonical (execWmDisable n s) :=
  hostRow_canonical (ifPresent_canonical h (.next h.writeWmCtl))

theorem execWmPowerUp_canonical {n v} (h : s.Canonical) : OutCanonical (execWmPowerUp n v s) :=
  ifPresent_canonical h (.next (.ite h.wmResolveAll h))

theorem execWmSettle_canonical {n v} (h : s.Canonical) : OutCanonical (execWmSettle n v s) :=
  ifPresent_canonical h (.next (.ite h.wmResolveAll h))

theorem execComparatorEdge_canonical {n v stamp} (h : s.Canonical) : OutCanonical (execComparatorEdge n v stamp s) :=
  ifPresent_canonical h (.next (by split <;> [exact h.atTick.wmSense.wmSense; exact h.atTick.wmSense.wmSense; exact h]))

theorem execWmResolve_canonical {n v stamp} (h : s.Canonical) : OutCanonical (execWmResolve n v stamp s) :=
  ifPresent_canonical h (.next (.ite h.atTick.wmSense.wmSense h))

theorem execEdgeDelivery_canonical {n} (h : s.Canonical) : OutCanonical (execEdgeDelivery n s) :=
  ifPresent_canonical h (.next (by split <;> [exact h; exact .ite h.atTick.wmRelease h]))

theorem execBlankOpen_canonical {n} (h : s.Canonical) : OutCanonical (execBlankOpen n s) := by
  refine ifPresent_canonical h (.next ?_)
  dsimp only
  split
  · exact h.setWm
  · exact h

theorem execBlankClose_canonical {n} (h : s.Canonical) : OutCanonical (execBlankClose n s) := by
  refine ifPresent_canonical h (.next ?_)
  dsimp only
  split
  · exact h.setWm
  · exact h

theorem State.Canonical.wmPeriod {n up t} (h : s.Canonical) : (s.wmPeriod n up t).Canonical :=
  h.setWm.setB.setB

theorem execPeriodClear_canonical {n} (h : s.Canonical) : OutCanonical (execPeriodClear n s) := by
  refine ifPresent_canonical h (.next ?_)
  dsimp only
  split
  · exact h.setWm.wmPeriod.wmPeriod.noteVectors
  · exact h

theorem State.Canonical.writeWmLatch {n w} (h : s.Canonical) : (s.writeWmLatch n w).Canonical :=
  h.foldl (fun h => .ite h h.setWm.setB)

theorem State.Canonical.wmRelock (h : s.Canonical) : s.wmRelock.Canonical :=
  h.foldl (fun h => h.setWm)

/-! ### Machine/Streams -/

theorem State.Canonical.setFeed {c x} (h : s.Canonical) : (s.setFeed c x).Canonical :=
  .of (State.setFeed_canonical h.eq ..)

theorem State.Canonical.emit {code ws} (h : s.Canonical) : (s.emit code ws).Canonical := by
  unfold State.emit
  split
  · exact h
  · refine { h with feeds := Tab.wf_map_snd h.feeds ?_ ?_ }
    · intro e; split <;> rfl
    · intro e he
      split
      · exact Feed.arrive_ne_init ‹_›
      · exact he

theorem State.Canonical.connect {c code} (h : s.Canonical) : (s.connect c code).Canonical :=
  .ite h h.setFeed

theorem State.Canonical.consume {c n} (h : s.Canonical) : (s.consume c n).Canonical :=
  h.setFeed

/-! ### Machine/Converter -/

theorem State.Canonical.setGroup {g x} (h : s.Canonical) : (s.setGroup g x).Canonical :=
  .of (State.setGroup_canonical h.eq ..)

theorem State.Canonical.setCore {g c} (h : s.Canonical) : (s.setCore g c).Canonical :=
  h.setGroup

theorem State.Canonical.cgRequest {g r} (h : s.Canonical) : (s.cgRequest g r).Canonical :=
  h.setGroup

theorem State.Canonical.cgCommit {g} (h : s.Canonical) : (s.cgCommit g).Canonical :=
  h.setGroup.addSat.addWrap.addSat.flagIf.flagIf.flagIf.flagIf.setF.setF

theorem State.Canonical.cgNow {g k} (h : s.Canonical) : (s.cgNow g k).Canonical :=
  h.setCore.cgCommit

theorem State.Canonical.pauseGroups (h : s.Canonical) : s.pauseGroups.Canonical :=
  h.foldl (fun h => h.cgNow)

theorem State.Canonical.resumeGroups (h : s.Canonical) : s.resumeGroups.Canonical :=
  h.foldl (fun h => h.cgNow)

theorem State.Canonical.benchGroups (h : s.Canonical) : s.benchGroups.Canonical :=
  h.foldl (fun h => h.cgNow)

theorem State.Canonical.cgMark {g r} (h : s.Canonical) : (s.cgMark g r).Canonical := by
  unfold State.cgMark; dsimp only
  split
  · exact h.setGroup
  · exact h.addSat

theorem State.Canonical.cgWindows {g} (h : s.Canonical) : (s.cgWindows g).Canonical :=
  h.setGroup

theorem State.Canonical.winReport {g l} (h : s.Canonical) : (s.winReport g l).Canonical := by
  unfold State.winReport; dsimp only
  split
  · exact h.setGroup.setBit.setB.setF
  · exact h

theorem State.Canonical.elogPush {g r} (h : s.Canonical) : (s.elogPush g r).Canonical :=
  .ite h.setGroup h.flag

theorem State.Canonical.cgEnable {g} (h : s.Canonical) : (s.cgEnable g).Canonical :=
  h.setGroup

theorem State.Canonical.cgDisable {g} (h : s.Canonical) : (s.cgDisable g).Canonical :=
  h.setGroup.cgCommit

theorem State.Canonical.writeSeqctl {g w} (h : s.Canonical) : (s.writeSeqctl g w).Canonical :=
  .ite h.setWord.cgRequest h.setWord

theorem State.Canonical.writeListen {g k w} (h : s.Canonical) : (s.writeListen g k w).Canonical :=
  h.setWord

theorem State.Canonical.writeFtrig {g w} (h : s.Canonical) : (s.writeFtrig g w).Canonical :=
  h.setWord

theorem State.Canonical.writeWinArm {g l w} (h : s.Canonical) : (s.writeWinArm g l w).Canonical :=
  .ite h.setWord.setGroup h.setWord

/-! ### Machine/Chain -/

theorem State.Canonical.setChain {n c} (h : s.Canonical) : (s.setChain n c).Canonical :=
  .of (State.setChain_canonical h.eq ..)

theorem State.Canonical.checkBank {n bank} (h : s.Canonical) : (s.checkBank n bank).Canonical :=
  .ite h.setB h

theorem State.Canonical.updateGdelay {n} (h : s.Canonical) : (s.updateGdelay n).Canonical :=
  h.setF.setB.setB

theorem State.Canonical.fadeEnd {n} (h : s.Canonical) : (s.fadeEnd n).Canonical := by
  unfold State.fadeEnd; dsimp only
  split
  · exact .ite h h.setChain.setF.setF.flag.checkBank
  · exact h

theorem State.Canonical.fadeStart {n} (h : s.Canonical) : (s.fadeStart n).Canonical := by
  unfold State.fadeStart; dsimp only
  split
  · exact .ite h.setChain.setF.updateGdelay h
  · exact h

theorem State.Canonical.fadeCross {n} (h : s.Canonical) : (s.fadeCross n).Canonical :=
  .ite h.fadeEnd.setChain h.fadeEnd

theorem State.Canonical.writeBank {n bank} (h : s.Canonical) : (s.writeBank n bank).Canonical := by
  unfold State.writeBank
  extract_lets s1 _ s2
  have h1 : s1.Canonical := h.fadeEnd
  have h2 : s2.Canonical := h1.setF
  exact .ite h1.setF.setF.checkBank (.ite h1 (.ite h1.flag h2.setChain.checkBank))

theorem State.Canonical.pushGap {n g} (h : s.Canonical) : (s.pushGap n g).Canonical :=
  .ite h.setChain.flag h.flag

theorem State.Canonical.formWord {n val b} (h : s.Canonical) : (s.formWord n val b).Canonical :=
  .ite (emit (by split <;> [exact h.setChain.pushGap.flagIf; exact h.setChain])) h.setChain

theorem State.Canonical.markLost {n b} (h : s.Canonical) : (s.markLost n b).Canonical :=
  .ite h h.addSat

theorem State.Canonical.formOut {n val b} (h : s.Canonical) : (s.formOut n val b).Canonical :=
  h.formWord.markLost

/-! ### Machine/Detect -/

theorem State.Canonical.setDet {n d} (h : s.Canonical) : (s.setDet n d).Canonical :=
  h.setChain

theorem State.Canonical.detLatch {n} (h : s.Canonical) : (s.detLatch n).Canonical := by
  unfold State.detLatch; dsimp only
  split
  · exact h
  · split
    · exact h.withFreeCount.setDet.setF.setF.setF.setF.setB.setB.setPair.addWrap.flag.flagIf.formOut
    · exact h.withFreeCount.setDet.setF.setF.setF.setF.setB.setB.setPair.addWrap.flag.flagIf.formOut.formWord
    · exact h.withFreeCount.setDet.setF.setF.setF.setF.setB.setB.setPair.addWrap.flag.flagIf

theorem State.Canonical.detClose {n} (h : s.Canonical) : (s.detClose n).Canonical := by
  unfold State.detClose; dsimp only
  split
  · exact h.detLatch.setDet
  · exact h.detLatch

theorem State.Canonical.detAlign {n} (h : s.Canonical) : (s.detAlign n).Canonical :=
  .ite h.detClose h

theorem State.Canonical.detSpans {n pos fuel} (h : s.Canonical) : (s.detSpans n pos fuel).Canonical := by
  induction fuel generalizing s with
  | zero => exact h
  | succ k ih =>
    unfold State.detSpans; dsimp only
    split
    · exact .ite (ih (.ite h.setDet.detClose.setDet h.setDet.detClose)) h
    · exact h

theorem State.Canonical.detSample {n y pos b} (h : s.Canonical) : (s.detSample n y pos b).Canonical := by
  unfold State.detSample
  extract_lets _ s1 s2 s3 _ _ win _ s4 s5
  have h2 : s2.Canonical := .ite h.detLatch.detSpans h.detLatch
  have h4 : s4.Canonical := h2.detLatch.setDet.setF
  have h5 : s5.Canonical := .ite h4.formOut h4
  clear_value s5 win
  split
  · exact .ite (.ite h5.setDet.detClose h5) (.ite h5.detClose h5)
  · exact h5

/-! ### Machine/Resampler -/

theorem State.Canonical.rsMark {n m} (h : s.Canonical) : (s.rsMark n m).Canonical :=
  .ite h.setChain h.addSat

theorem State.Canonical.rsMarksLost {n k} (h : s.Canonical) : (s.rsMarksLost n k).Canonical :=
  .ite h h.addSat

theorem State.Canonical.turnEnd {n} (h : s.Canonical) : (s.turnEnd n).Canonical := by
  unfold State.turnEnd; dsimp only
  split
  · exact h
  · exact .ite h.setChain.setChain.flag h.setChain.flag

theorem State.Canonical.turnFirst {n x} (h : s.Canonical) : (s.turnFirst n x).Canonical :=
  .ite h.setChain.detAlign h.setChain

theorem State.Canonical.turnSlot {n x} (h : s.Canonical) : (s.turnSlot n x).Canonical := by
  unfold State.turnSlot; dsimp only
  split
  · exact .ite h.setChain h.turnEnd.turnFirst
  · exact h.turnFirst

theorem State.Canonical.rsForm {n p next slot} (h : s.Canonical) : (s.rsForm n p next slot).Canonical := by
  unfold State.rsForm
  extract_lets _ _ _ _ _ _ s1 s2 s3 s4
  have h1 : s1.Canonical := h.setChain.rsMarksLost
  have h2 : s2.Canonical := .ite h1.addSat h1
  have h3 : s3.Canonical := by unfold s3; split <;> [exact h2.turnSlot; exact h2]
  have h4 : s4.Canonical := .ite h3.detSample h3
  exact .ite h4.formOut h4

theorem State.Canonical.rsPass {n p next} (h : s.Canonical) : (s.rsPass n p next).Canonical :=
  h.setChain.rsMarksLost

theorem State.Canonical.rsRun {n m fuel} (h : s.Canonical) : (s.rsRun n m fuel).Canonical := by
  induction fuel generalizing s with
  | zero => exact h
  | succ k ih =>
    unfold State.rsRun; dsimp only
    split
    · exact .ite (ih h.setChain.rsForm) h
    · split
      · exact .ite (ih (.ite h.setChain.rsPass h.setChain.rsForm)) h
      · exact h

theorem State.Canonical.rsPlace {n x p} (h : s.Canonical) : (s.rsPlace n x p).Canonical := by
  unfold State.rsPlace; dsimp only
  split
  · exact .ite h h.setChain.addSat
  · exact .ite h.setChain (.ite h.setChain.addSat.flag h.setChain)
  · exact h.setChain
  · exact h.setDet
  · exact h.setDet
  · exact h.addSat

theorem State.Canonical.rsResolve {n gapTo fuel} (h : s.Canonical) : (s.rsResolve n gapTo fuel).Canonical := by
  induction fuel generalizing s with
  | zero => exact h
  | succ k ih =>
    have hk {x p rest} : (((s.setChain n rest).rsPlace n x p).rsResolve n gapTo k).Canonical := ih h.setChain.rsPlace
    unfold State.rsResolve; dsimp only
    split
    · exact h
    · split
      · exact hk
      · refine .ite ?_ (.ite hk h)
        split
        · exact hk
        · exact h

theorem State.Canonical.rsQueue {n inst what} (h : s.Canonical) : (s.rsQueue n inst what).Canonical :=
  h.setChain.rsResolve

theorem State.Canonical.rsSweep {g} (h : s.Canonical) : (s.rsSweep g).Canonical :=
  h.foldl (fun h => .ite h.rsResolve h)

theorem State.Canonical.rsInstant {n r} (h : s.Canonical) : (s.rsInstant n r).Canonical := by
  unfold State.rsInstant
  extract_lets _ _ s1
  have h1 : s1.Canonical := .ite (.ite h.addSat h.rsQueue) h
  exact .ite (.ite h1.rsQueue (.ite h1.rsQueue h1)) h1

theorem State.Canonical.rsSlot {n tick} (h : s.Canonical) : (s.rsSlot n tick).Canonical :=
  .ite (.ite h.atTick.setChain.rsQueue h) h

theorem State.Canonical.rsRefLost {r} (h : s.Canonical) : (s.rsRefLost r).Canonical :=
  h.foldl (fun h => .ite h.rsResolve.turnEnd.rsMarksLost.setChain h)

/-! ### Machine/RingCore -/

theorem State.Canonical.setRing {r x} (h : s.Canonical) : (s.setRing r x).Canonical :=
  .of (State.setRing_canonical h.eq ..)

theorem State.Canonical.closeBlock {r} (h : s.Canonical) : (s.closeBlock r).Canonical := by
  unfold State.closeBlock; dsimp only
  split
  · exact h.setRing
  · exact h

theorem State.Canonical.ringRestart {r} (h : s.Canonical) : (s.ringRestart r).Canonical :=
  h.closeBlock.setRing

theorem State.Canonical.sourceStops {code} (h : s.Canonical) : (s.sourceStops code).Canonical :=
  h.foldl (fun h => .ite (.ite h.ringRestart h.setRing) h)

theorem State.Canonical.closeHere {r w} (h : s.Canonical) : (s.closeHere r w).Canonical :=
  .ite h.closeBlock.withTwin h

theorem State.Canonical.placeWord {r w at_} (h : s.Canonical) : (s.placeWord r w at_).Canonical := by
  unfold State.placeWord; dsimp only
  split
  · exact .ite (closeBlock (by split <;> exact h.setRing)) (by split <;> exact h.setRing)
  · exact by split <;> exact h.setRing

theorem State.Canonical.dropWord {r} (h : s.Canonical) : (s.dropWord r).Canonical :=
  h.closeBlock.setRing.flag

theorem State.Canonical.refillTokens {r ns} (h : s.Canonical) : (s.refillTokens r ns).Canonical :=
  h.setRing

theorem State.Canonical.ringStep {r} (h : s.Canonical) : (s.ringStep r).Canonical := by
  unfold State.ringStep; dsimp only
  split
  · exact h.ringRestart.setRing
  · exact h.ringRestart.setRing
  · exact h.setRing
  · exact h

theorem State.Canonical.ringWord {r ns at_} (h : s.Canonical) : (s.ringWord r ns at_).Canonical := by
  unfold State.ringWord
  extract_lets s1
  have h1 : s1.Canonical := h.refillTokens
  split
  · exact h1
  · refine .ite ?_ h1.consume
    extract_lets s2 _ _ _ s3
    have h3 : s3.Canonical := (closeHere (.ite h1.ringRestart h1)).flagIf
    exact .ite h3.consume.setRing.placeWord.ringStep (.ite h3 h3.consume.setRing.dropWord.ringStep)

theorem State.Canonical.gstat (h : s.Canonical) : s.gstat.Canonical :=
  h.setB.setB

theorem State.Canonical.addCharge {r on} (h : s.Canonical) : (s.addCharge r on).Canonical :=
  gstat (.ite h.setF h.setF)

theorem State.Canonical.detachRing {r} (h : s.Canonical) : (s.detachRing r).Canonical :=
  h.setFeed

theorem State.Canonical.countBlock {r} (h : s.Canonical) : (s.countBlock r).Canonical :=
  .ite h.setRing.flag h.setRing

theorem State.Canonical.passTail {r} (h : s.Canonical) : (s.passTail r).Canonical :=
  .ite (h.addWrap.foldl (fun h => h.countBlock)) h

theorem State.Canonical.retireRing {r} (h : s.Canonical) : (s.retireRing r).Canonical :=
  .ite (detachRing (.ite h.passTail.setRing.withTwin.setBit h.passTail.setRing.withTwin)).addCharge.setF.flag h

theorem State.Canonical.retireRings {func} (h : s.Canonical) : (s.retireRings func).Canonical :=
  h.foldl (fun h => .ite h.retireRing h)

/-! ### Machine/CalStep -/

theorem State.Canonical.setMarks {m} (h : s.Canonical) : (s.setMarks m).Canonical :=
  h.withCal.setF

theorem State.Canonical.markField {r i j} (h : s.Canonical) : (s.markField r i j).Canonical :=
  .ite h h.setMarks

theorem State.Canonical.unmarkField {r i j} (h : s.Canonical) : (s.unmarkField r i j).Canonical :=
  .ite h.setMarks h

theorem State.Canonical.unmarkHalf {a low} (h : s.Canonical) : (s.unmarkHalf a low).Canonical :=
  .ite h.setMarks h

theorem State.Canonical.calField_fst {r i j tol tries} (h : s.Canonical) : (s.calField r i j tol tries).1.Canonical := by
  unfold State.calField
  split
  · exact h.setF.unmarkField
  · exact h.markField

/-! ### Machine/Rotation -/

theorem State.Canonical.setRot {g r} (h : s.Canonical) : (s.setRot g r).Canonical :=
  h.setGroup

theorem State.Canonical.setRotst {g v} (h : s.Canonical) : (s.setRotst g v).Canonical :=
  h.setF

theorem State.Canonical.busUpdate {q} (h : s.Canonical) : (s.busUpdate q).Canonical :=
  .ite h h.withCal

theorem State.Canonical.busUpdates (h : s.Canonical) : s.busUpdates.Canonical :=
  h.foldl (fun h => h.busUpdate)

theorem State.Canonical.logHandover {g o result} (h : s.Canonical) : (s.logHandover g o result).Canonical :=
  h.withFreeCount.setF.setF.setF.setF.setF.setF.setF.setF

theorem State.Canonical.abandon {g} (h : s.Canonical) : (s.abandon g).Canonical := by
  unfold State.abandon; dsimp only
  split
  · exact h
  · exact h.setRot.logHandover.addSat.setRotst

theorem State.Canonical.abandonAll (h : s.Canonical) : s.abandonAll.Canonical :=
  (h.foldl (fun h => h.abandon)).withCal

theorem State.Canonical.refFalls {g} (h : s.Canonical) : (s.refFalls g).Canonical :=
  h.setSettled.abandon

theorem State.Canonical.retire {g sl} (h : s.Canonical) : (s.retire g sl).Canonical :=
  h.flag.flag.setRot.setRotst

theorem State.Canonical.sendCalib {g sl retry} (h : s.Canonical) : (s.sendCalib g sl retry).Canonical :=
  h.setRot.setRotst.setB.busUpdate

theorem State.Canonical.checkSat {g sl} (h : s.Canonical) : (s.checkSat g sl).Canonical :=
  .ite h.flag.flag h

theorem State.Canonical.handoverEnd {g} (h : s.Canonical) : (s.handoverEnd g).Canonical := by
  unfold State.handoverEnd; dsimp only
  split
  · exact h
  · refine .ite h (.ite ?_ ?_)
    · exact h.setRot.setF.setF.setPair.logHandover.addWrap.flag.setF.setBit.checkSat.sendCalib
    · exact .ite h.setRot.logHandover.addSat.flag.setF.retire h.setRot.logHandover.addSat.flag.setF.sendCalib

theorem State.Canonical.overlapSample {g out inc} (h : s.Canonical) : (s.overlapSample g out inc).Canonical := by
  unfold State.overlapSample; dsimp only
  split
  · exact h
  · exact .ite h (.ite (.ite h.setRot.abandon h.setRot) h.setRot)

theorem State.Canonical.rotDue {g slice} (h : s.Canonical) : (s.rotDue g slice).Canonical :=
  h.setRot.setRotst

theorem State.Canonical.dueOnReturn (h : s.Canonical) : s.dueOnReturn.Canonical :=
  .ite (h.foldl (fun h => .ite h.rotDue h)) h

theorem State.Canonical.firstReading {k} (h : s.Canonical) : (s.firstReading k).Canonical :=
  .ite (h.withPwr.foldl (fun h => by split <;> [(split <;> [exact h.rotDue; exact h]); exact h])) h

theorem State.Canonical.rotCheck {g} (h : s.Canonical) : (s.rotCheck g).Canonical := by
  unfold State.rotCheck
  split
  · split
    · exact h.rotDue
    · split
      · exact h.rotDue
      · exact .ite h.rotDue h
  · exact h

theorem State.Canonical.overlapStart {g} (h : s.Canonical) : (s.overlapStart g).Canonical :=
  .ite h.setRot.setRotst h

theorem State.Canonical.sliceSteps_fst {g sl c} (h : s.Canonical) : (s.sliceSteps g sl c).1.Canonical :=
  h.calField_fst.calField_fst.calField_fst.calField_fst.calField_fst.setF.setF.setF

theorem State.Canonical.calSlice_fst {g sl c} (h : s.Canonical) : (s.calSlice g sl c).1.Canonical :=
  .ite h.sliceSteps_fst.setRot h.sliceSteps_fst

theorem State.Canonical.calibEnd {g c} (h : s.Canonical) : (s.calibEnd g c).Canonical := by
  unfold State.calibEnd
  extract_lets s1
  have h1 : s1.Canonical := h.busUpdate
  split
  · exact h1
  · have h2 {sl} : (s1.calSlice g sl c).1.Canonical := h1.calSlice_fst
    exact .ite (.ite h2.setRot.withCal.setRotst.busUpdate (.ite h2.withCal.retire.busUpdate h2.setRot.withCal.busUpdate)) h1

theorem State.Canonical.refillMap {g} (h : s.Canonical) : (s.refillMap g).Canonical :=
  (h.foldl (fun h => h.setF)).setF.setRot.setRotst.flagIf.foldl (fun h => h.checkSat)

theorem State.Canonical.moveField {r g sl est} (h : s.Canonical) : (s.moveField r g sl est).Canonical :=
  .ite h.setF.flag.flag h.setF

theorem State.Canonical.setSpur {g est} (h : s.Canonical) : (s.setSpur g est).Canonical := by
  unfold State.setSpur; dsimp only
  split
  · exact h
  · exact h.withFreeCount.setF.setF.setF

theorem State.Canonical.estimate {g} (h : s.Canonical) : (s.estimate g).Canonical := by
  unfold State.estimate; dsimp only
  split
  · refine .ite ?_ h.setRot
    have {c} [Decidable c] {t : State} {x} (h : t.Canonical) : (if c then t.setSpur g x else t).Canonical := .ite h.setSpur h
    exact this (h.setRot.foldl fun h => .ite h.moveField.moveField.moveField h.moveField.moveField)
  · exact h

theorem State.Canonical.estCount {g ys} (h : s.Canonical) : (s.estCount g ys).Canonical :=
  .ite h.setRot h.setRot.setF.flagIf

theorem State.Canonical.estBreak {g} (h : s.Canonical) : (s.estBreak g).Canonical :=
  .ite h h.setRot

theorem State.Canonical.estClear (h : s.Canonical) : s.estClear.Canonical :=
  h.foldl (fun h => h.setRot.setF)

theorem State.Canonical.writeRotCtl {g w} (h : s.Canonical) : (s.writeRotCtl g w).Canonical :=
  h.setWord

theorem State.Canonical.writeSlice {g a mask open_ w} (h : s.Canonical) : (s.writeSlice g a mask open_ w).Canonical :=
  h.setWord.flagIf

theorem State.Canonical.writeResidual {g sl a mask w} (h : s.Canonical) : (s.writeResidual g sl a mask w).Canonical :=
  .ite h.writeSlice h.writeSlice.checkSat

theorem execOverlapStart_canonical {g tick} (h : s.Canonical) : OutCanonical (execOverlapStart g tick s) :=
  ifPresent_canonical h (.next h.atTick.overlapStart)

theorem execHandoverTest_canonical {g} (h : s.Canonical) : OutCanonical (execHandoverTest g s) :=
  ifPresent_canonical h (.next h.handoverEnd)

theorem execSliceCalibration_canonical {g ofs gain skew rofs rgain res} (h : s.Canonical) :
    OutCanonical (execSliceCalibration g ofs gain skew rofs rgain res s) :=
  ifPresent_canonical h (.next h.calibEnd)

theorem execEstimatorBlock_canonical {g tick pair} (h : s.Canonical) : OutCanonical (execEstimatorBlock g tick pair s) :=
  ifPresent_canonical h (.next (.ite h.atTick.estimate.setWord h.atTick.estimate))

/-! ### Machine/Nets -/

theorem State.Canonical.nameNet {trk d} (h : s.Canonical) : (s.nameNet trk d).Canonical :=
  h.setF.setF.setF

theorem State.Canonical.census (h : s.Canonical) : s.census.Canonical := by
  unfold State.census; dsimp only
  split <;> exact h.setF.setF.setB.nameNet

/-! ### Machine/Signal -/

theorem State.Canonical.setCell {c x} (h : s.Canonical) : (s.setCell c x).Canonical :=
  .of (State.setCell_canonical h.eq ..)

theorem State.Canonical.cellSettle {c clocked dt} (h : s.Canonical) : (s.cellSettle c clocked dt).Canonical :=
  h.setCell.flagIf

theorem State.Canonical.cellReset {c} (h : s.Canonical) : (s.cellReset c).Canonical := by
  unfold State.cellReset; dsimp only
  split
  · exact h.setCell
  · exact h.setCell
  · exact h

/-! ### Machine/Beat -/

theorem State.Canonical.emitBeat {g} (h : s.Canonical) : (s.emitBeat g).Canonical := by
  unfold State.emitBeat; dsimp only
  split
  · exact h
  · exact foldl (.ite h.setGroup.elogPush h.setGroup) (fun h => h.emit)

theorem State.Canonical.convertBeat {g e tick raw before after inc} (h : s.Canonical) :
    (s.convertBeat g e tick raw before after inc).Canonical := by
  unfold State.convertBeat
  extract_lets _ _ core _ _ _ _ _ _ _ _ _ ov _ _ _ _ s1 s2 s3
  have h1 : s1.Canonical := h.setGroup
  have h2 : s2.Canonical := by
    unfold s2
    split
    · exact h1
    · exact h1.foldl fun h => h.addSat
  have h3 : s3.Canonical := by
    unfold s3
    clear_value ov s2
    split
    · exact h2.overlapSample
    · exact h2
  exact .ite h3.estCount h3.estBreak

theorem State.Canonical.cgDrain {g} (h : s.Canonical) : (s.cgDrain g).Canonical :=
  h.setGroup.foldl (fun h => .ite h h.setChain)

theorem State.Canonical.cgEdge {g e tick raw before after inc} (h : s.Canonical) :
    (s.cgEdge g e tick raw before after inc).Canonical := by
  unfold State.cgEdge
  extract_lets s1 s2 _ s3 _ s4 _ _ _ _ s5
  have h1 : s1.Canonical := h.atTick.cgDrain.cgCommit.handoverEnd
  have h2 : s2.Canonical := h1.foldl (fun h => h.winReport)
  have h3 : s3.Canonical := h2.setGroup
  have h4 : s4.Canonical := .ite h3.convertBeat h3
  have h5 : s5.Canonical := h4.setGroup
  exact h5.emitBeat.cgWindows.cgCommit.rsSweep

theorem State.Canonical.cgInbox {g k f} (h : s.Canonical) (hf : ∀ {r t}, t.Canonical → (f r t).Canonical) :
    (s.cgInbox g k f).Canonical := by
  unfold State.cgInbox; dsimp only
  split
  · exact .ite (hf h.setGroup) h.setGroup
  · exact h

theorem execConversionBeat_canonical {g e tick raw before after inc} (h : s.Canonical) :
    OutCanonical (execConversionBeat g e tick raw before after inc s) :=
  .ite (ifPresent_canonical h (.next (.ite h.cgEdge h))) .fault

theorem execSeqStart_canonical {g} (h : s.Canonical) : OutCanonical (execSeqStart g s) :=
  ifPresent_canonical h (.next (h.cgInbox (fun h => h.cgRequest)))

theorem execUrgent_canonical {g} (h : s.Canonical) : OutCanonical (execUrgent g s) :=
  ifPresent_canonical h (.next (h.cgInbox (fun h => h.cgRequest)))

theorem execMark_canonical {g} (h : s.Canonical) : OutCanonical (execMark g s) :=
  ifPresent_canonical h (.next (h.cgInbox (fun h => h.cgMark)))

theorem State.Canonical.writeCgCtl {g w} (h : s.Canonical) : (s.writeCgCtl g w).Canonical := by
  unfold State.writeCgCtl; dsimp only
  split
  · exact h.setWord.flagIf.cgEnable
  · exact h.cgDisable.abandon.setWord.flagIf.foldl (fun h => h.sourceStops)
  · exact h.setWord.flagIf

theorem execCgEnable_canonical {g} (h : s.Canonical) : OutCanonical (execCgEnable g s) :=
  hostRow_canonical (ifPresent_canonical h (.next (h.sclkWrite (fun h => h.writeCgCtl))))

theorem execCgDisable_canonical {g} (h : s.Canonical) : OutCanonical (execCgDisable g s) :=
  hostRow_canonical (ifPresent_canonical h (.next (h.sclkWrite (fun h => h.writeCgCtl))))

theorem execCgGo_canonical {g} (h : s.Canonical) : OutCanonical (execCgGo g s) :=
  hostRow_canonical (ifPresent_canonical h (.next (h.sclkWrite (fun h => h.writeSeqctl))))

theorem execCgStop_canonical {g} (h : s.Canonical) : OutCanonical (execCgStop g s) :=
  hostRow_canonical (ifPresent_canonical h (.next (h.sclkWrite (fun h => h.writeSeqctl))))

theorem State.Canonical.cgAdvance {g ok} (h : s.Canonical) : (s.cgAdvance g ok).Canonical :=
  .ite h.setGroup h

theorem execSettleEnd_canonical {g} (h : s.Canonical) : OutCanonical (execSettleEnd g s) :=
  ifPresent_canonical h (.next h.cgAdvance)

theorem execDwellComplete_canonical {g} (h : s.Canonical) : OutCanonical (execDwellComplete g s) :=
  ifPresent_canonical h (.next h.cgAdvance)

theorem execUrgentDwellComplete_canonical {g} (h : s.Canonical) : OutCanonical (execUrgentDwellComplete g s) :=
  ifPresent_canonical h (.next h.cgAdvance)

theorem State.Canonical.cgSnap {g} (h : s.Canonical) : (s.cgSnap g).Canonical :=
  h.setPair.setPair.setPair.setPair

theorem execCgCntSnap_canonical {g} (h : s.Canonical) : OutCanonical (execCgCntSnap g s) :=
  hostRow_canonical (ifPresent_canonical h (.next (h.sclkWrite (fun h => h.cgSnap))))

theorem execElogPop_canonical {g} (h : s.Canonical) : OutCanonical (execElogPop g s) :=
  hostRow_canonical (ifPresent_canonical h (.next (h.sclkWrite (fun h => h.setGroup))))

theorem execWindowComparatorFire_canonical {g l} (h : s.Canonical) : OutCanonical (execWindowComparatorFire g l s) :=
  onInst_canonical (ifPresent_canonical h (.next h.winReport))

theorem execRefSettled_canonical {g} (h : s.Canonical) : OutCanonical (execRefSettled g s) :=
  ifPresent_canonical h (.next (.ite h h.setSettled))

theorem execRefFault_canonical {q} (h : s.Canonical) : OutCanonical (execRefFault q s) :=
  ifPresent_canonical h (.next (h.foldl (fun h => .ite h.flag.refFalls h)))

theorem execRefqWindowReturn_canonical {q} (h : s.Canonical) : OutCanonical (execRefqWindowReturn q s) :=
  ifPresent_canonical h (.next (h.foldl (fun h => h.setF)))

theorem State.Canonical.writeCgRef {g w} (h : s.Canonical) : (s.writeCgRef g w).Canonical :=
  .ite h (refFalls (.ite h.setF h.setF.setF))

/-! ### Machine/ChainOut -/

theorem State.Canonical.fcMark {n t} (h : s.Canonical) : (s.fcMark n t).Canonical :=
  .ite h.setChain h.addSat

theorem State.Canonical.takeWord_fst {n w} (h : s.Canonical) : (s.takeWord n w).1.Canonical := by
  unfold State.takeWord
  extract_lets _ _ _ _ _ _ s1 _ _ _ s2 s3 s4
  have h1 : s1.Canonical := .ite h.rsResolve h
  have h2 : s2.Canonical := h1.setChain
  have h3 : s3.Canonical := .ite h2.rsResolve h2
  have h4 : s4.Canonical := .ite h3.fcMark h3
  exact h4

theorem State.Canonical.firForm {n u} (h : s.Canonical) : (s.firForm n u).Canonical := by
  unfold State.firForm
  extract_lets s1 _ _ _ _ _ s2 s3 _ s4 _ _ s5 _ s6 _ _ s7 s8
  have h1 : s1.Canonical := h.fadeEnd.fadeStart
  have h2 : s2.Canonical := h1.setChain
  have h3 : s3.Canonical := .ite h2.flag.flag.addSat h2
  have h4 : s4.Canonical := .ite h3.flag.flag.addSat h3
  have h5 : s5.Canonical := h4.setB
  have h6 : s6.Canonical := h5.setChain
  have h7 : s7.Canonical := .ite h6.detSample h6
  have h8 : s8.Canonical := .ite h7 h7.rsMark
  exact .ite (.ite h8 h8.rsRun) (.ite h7.formOut h7)

theorem State.Canonical.chainTake {n fuel} (h : s.Canonical) : (s.chainTake n fuel).Canonical := by
  induction fuel generalizing s with
  | zero => exact h
  | succ k ih =>
    unfold State.chainTake; dsimp only
    split
    · exact h
    · split
      · exact h.consume.takeWord_fst.firForm
      · exact ih h.consume.takeWord_fst

theorem State.Canonical.chainDrain {n fuel} (h : s.Canonical) : (s.chainDrain n fuel).Canonical := by
  induction fuel generalizing s with
  | zero => exact h
  | succ k ih => exact .ite h (ih h.chainTake)

theorem State.Canonical.resumeChains (h : s.Canonical) : s.resumeChains.Canonical :=
  h.foldl (fun h => .ite h (.ite h.setChain h.setFeed))

theorem State.Canonical.fcStart {n} (h : s.Canonical) : (s.fcStart n).Canonical := by
  unfold State.fcStart
  extract_lets _ _ s1 _ s2 s3 s4
  have h1 : s1.Canonical := h.setFeed
  have h2 : s2.Canonical := h1.setChain
  have h3 : s3.Canonical := h2.rsMarksLost.foldl (fun h => h.setWord)
  have h4 : s4.Canonical := h3.checkBank.updateGdelay
  exact .ite h4.setF h4

theorem State.Canonical.fcStop {n} (h : s.Canonical) : (s.fcStop n).Canonical :=
  .ite h.fadeEnd.setChain.setF h.fadeEnd.setChain.setF.setF.checkBank

theorem State.Canonical.writeFcCtl {n w} (h : s.Canonical) : (s.writeFcCtl n w).Canonical := by
  unfold State.writeFcCtl; dsimp only
  split
  · exact h.setWord.flagIf.fcStart
  · exact h.setWord.flagIf.fcStop.sourceStops
  · exact h.setWord.flagIf

theorem State.Canonical.writeWhileOff {n a w flag} (h : s.Canonical) : (s.writeWhileOff n a w flag).Canonical :=
  h.setWord.flagIf

theorem State.Canonical.writeFcSrc {n v} (h : s.Canonical) : (s.writeFcSrc n v).Canonical :=
  .ite h.flag (setF (.ite h.chainDrain h)).connect

theorem State.Canonical.writeFcCic {n w} (h : s.Canonical) : (s.writeFcCic n w).Canonical :=
  h.writeWhileOff.setF

theorem State.Canonical.writeFcFir {n w} (h : s.Canonical) : (s.writeFcFir n w).Canonical :=
  h.writeWhileOff.writeBank

theorem State.Canonical.writeFcBank {n b a w} (h : s.Canonical) : (s.writeFcBank n b a w).Canonical :=
  h.fadeEnd.setWord.flagIf

theorem State.Canonical.writeFcInfo {n b w} (h : s.Canonical) : (s.writeFcInfo n b w).Canonical :=
  h.writeFcBank

theorem State.Canonical.writeRsCtl {n w} (h : s.Canonical) : (s.writeRsCtl n w).Canonical :=
  h.writeWhileOff

theorem State.Canonical.commitInc {n w} (h : s.Canonical) : (s.commitInc n w).Canonical :=
  h.setF.setPair.setChain

theorem State.Canonical.caddrNext {n} (h : s.Canonical) : (s.caddrNext n).Canonical :=
  h.setF

theorem State.Canonical.cdataWrite {n w} (h : s.Canonical) : (s.cdataWrite n w).Canonical :=
  caddrNext (.ite h.flag h.setChain)

theorem State.Canonical.cdataRead {n} (h : s.Canonical) : (s.cdataRead n).Canonical :=
  h.caddrNext.withReadData

theorem State.Canonical.fcWrite {n a k} (h : s.Canonical) (hk : ∀ {t}, t.Canonical → (k t).Canonical) :
    (s.fcWrite n a k).Canonical :=
  h.sclkWrite hk

theorem execFcEnable_canonical {n} (h : s.Canonical) : OutCanonical (execFcEnable n s) :=
  hostRow_canonical (ifPresent_canonical h (.next (h.fcWrite (fun h => h.writeFcCtl))))

theorem execFcDisable_canonical {n} (h : s.Canonical) : OutCanonical (execFcDisable n s) :=
  hostRow_canonical (ifPresent_canonical h (.next (h.fcWrite (fun h => h.writeFcCtl))))

theorem execBank_canonical {n bank} (h : s.Canonical) : OutCanonical (execBank n bank s) :=
  hostRow_canonical (onInst_canonical (ifPresent_canonical h (.next (h.fcWrite (fun h => h.writeBank)))))

theorem execXfadeStart_canonical {n} (h : s.Canonical) : OutCanonical (execXfadeStart n s) :=
  ifPresent_canonical h (.next (.ite h.fadeCross h))

theorem execXfDone_canonical {n} (h : s.Canonical) : OutCanonical (execXfDone n s) :=
  ifPresent_canonical h (.next (.ite h.fadeEnd h))

theorem execFcCntSnap_canonical {n} (h : s.Canonical) : OutCanonical (execFcCntSnap n s) :=
  hostRow_canonical (ifPresent_canonical h (.next (h.fcWrite (fun h => h.setPair.setPair.setPair))))

theorem execGapPop_canonical {n} (h : s.Canonical) : OutCanonical (execGapPop n s) :=
  hostRow_canonical (ifPresent_canonical h (.next (h.fcWrite (fun h => h.setChain))))

theorem execTlogPop_canonical {n} (h : s.Canonical) : OutCanonical (execTlogPop n s) :=
  hostRow_canonical (ifPresent_canonical h (.next (h.fcWrite (fun h => h.setChain))))

theorem execCdata_canonical {n acc} (h : s.Canonical) : OutCanonical (execCdata n acc s) := by
  unfold execCdata
  split
  · exact readPresent_canonical h (.next (.ite h.cdataRead h.withReadData))
  · exact hostRow_canonical (ifPresent_canonical h (.next (h.fcWrite (fun h => h.cdataWrite))))

theorem execIncCommit_canonical {n w} (h : s.Canonical) : OutCanonical (execIncCommit n w s) :=
  hostRow_canonical (ifPresent_canonical h (.next (h.fcWrite (fun h => h.commitInc))))

theorem execSlot_canonical {n tick} (h : s.Canonical) : OutCanonical (execSlot n tick s) :=
  ifPresent_canonical h (.next h.rsSlot)

theorem execRsInstant_canonical {n} (h : s.Canonical) : OutCanonical (execRsInstant n s) := by
  refine ifPresent_canonical h (.next ?_)
  dsimp only
  split
  · exact .ite h.setChain.rsInstant h.setChain
  · exact h

theorem execDetWindowClose_canonical {n} (h : s.Canonical) : OutCanonical (execDetWindowClose n s) :=
  ifPresent_canonical h (.next (.ite h.detLatch h))

/-! ### Machine/Dac -/

theorem State.Canonical.setDac {d x} (h : s.Canonical) : (s.setDac d x).Canonical :=
  .of (State.setDac_canonical h.eq ..)

theorem State.Canonical.daWrite {d a k} (h : s.Canonical) (hk : ∀ {t}, t.Canonical → (k t).Canonical) :
    (s.daWrite d a k).Canonical :=
  h.sclkWrite hk

theorem State.Canonical.segStart {d k} (h : s.Canonical) : (s.segStart d k).Canonical :=
  h.setDac.addWrap

theorem State.Canonical.segEnter {d k} (h : s.Canonical) : (s.segEnter d k).Canonical :=
  .ite h.setDac h.segStart

theorem State.Canonical.segEnd {d} (h : s.Canonical) : (s.segEnd d).Canonical :=
  .ite h.flagIf.segEnter h

theorem State.Canonical.segDrop {d} (h : s.Canonical) : (s.segDrop d).Canonical :=
  h.addSat.flag

theorem State.Canonical.segFire {d r} (h : s.Canonical) : (s.segFire d r).Canonical := by
  unfold State.segFire; dsimp only
  split
  · exact h.segEnd.segDrop
  · split
    · exact h.segEnd.segDrop
    · exact h.segEnd.segStart.setDac.setF

theorem State.Canonical.daHalt {d} (h : s.Canonical) : (s.daHalt d).Canonical :=
  setDac (by split <;> [exact .ite h.segEnd.setF.setF.segDrop h.segEnd; exact h.segEnd])

theorem State.Canonical.daGo {d} (h : s.Canonical) : (s.daGo d).Canonical :=
  .ite h.segEnter h

theorem State.Canonical.daFill {d fuel} (h : s.Canonical) : (s.daFill d fuel).Canonical := by
  induction fuel generalizing s with
  | zero => exact h
  | succ k ih =>
    unfold State.daFill; dsimp only
    split
    · exact h
    · exact .ite (ih h.consume.setDac.addWrap) (.ite (ih h.consume.setDac) h)

theorem State.Canonical.daTake {d} (h : s.Canonical) : (s.daTake d).Canonical :=
  .ite h.daFill h

theorem State.Canonical.daFlush {d} (h : s.Canonical) : (s.daFlush d).Canonical :=
  h.setDac.addWrap

theorem State.Canonical.daUnderrun {d} (h : s.Canonical) : (s.daUnderrun d).Canonical :=
  h.setDac.addWrap.addSat.flagIf

theorem State.Canonical.daPlay {d} (h : s.Canonical) : (s.daPlay d).Canonical := by
  unfold State.daPlay; dsimp only
  split
  · split
    · exact .ite h.setDac h.setDac
    · exact h.setDac
  · exact h.setDac

theorem State.Canonical.daShortOut {d} (h : s.Canonical) : (s.daShortOut d).Canonical :=
  .ite h.setDac h

theorem State.Canonical.daBegin {d e} (h : s.Canonical) : (s.daBegin d e).Canonical :=
  .ite h h.setF

theorem State.Canonical.daSample {d e} (h : s.Canonical) : (s.daSample d e).Canonical := by
  unfold State.daSample; dsimp only
  split
  · exact .ite h.segEnd.setDac.setDac h.segEnd.setDac.daBegin.daPlay.daShortOut
  · exact h.segEnd.setDac.setDac
  · exact h.segEnd.setDac.setDac.withFreeCount

theorem State.Canonical.daEdge {d e tick} (h : s.Canonical) : (s.daEdge d e tick).Canonical := by
  unfold State.daEdge
  extract_lets s1 _ s2 _ s3
  have h1 : s1.Canonical := h.atTick.daUnderrun.daTake
  have h2 : s2.Canonical := h1.setDac
  have h3 : s3.Canonical := .ite h2.setDac h2
  exact h3.daSample.daSample

theorem State.Canonical.daAbandon {d} (h : s.Canonical) : (s.daAbandon d).Canonical :=
  h.daHalt.daFlush.setDac

theorem State.Canonical.abandonDacs (h : s.Canonical) : s.abandonDacs.Canonical :=
  h.foldl (fun h => h.daAbandon)

theorem State.Canonical.resumeDacs (h : s.Canonical) : s.resumeDacs.Canonical :=
  h.foldl (fun h => .ite h.setDac h)

theorem State.Canonical.daEnable {d} (h : s.Canonical) : (s.daEnable d).Canonical :=
  h.setFeed.setDac.setF.setF

theorem State.Canonical.daDisable {d} (h : s.Canonical) : (s.daDisable d).Canonical :=
  h.daHalt.daUnderrun.setDac

theorem State.Canonical.writeDaCtl {d w} (h : s.Canonical) : (s.writeDaCtl d w).Canonical := by
  unfold State.writeDaCtl
  extract_lets _ s1 s2 s3
  have h1 : s1.Canonical := h.setWord
  have h2 : s2.Canonical := by unfold s2; split <;> [exact h1.daEnable; exact h1.daDisable; exact h1]
  have h3 : s3.Canonical := .ite h2.daHalt h2
  exact .ite h3.daGo h3

theorem State.Canonical.writeDaSrc {d v} (h : s.Canonical) : (s.writeDaSrc d v).Canonical :=
  .ite h.flagIf h.setF.connect

theorem State.Canonical.writeDaListen {d k w} (h : s.Canonical) : (s.writeDaListen d k w).Canonical :=
  h.setWord

theorem State.Canonical.writeSegLen {d k w} (h : s.Canonical) : (s.writeSegLen d k w).Canonical :=
  h.setF

theorem State.Canonical.paddrNext {d} (h : s.Canonical) : (s.paddrNext d).Canonical :=
  h.setF

theorem State.Canonical.pdataWrite {d w} (h : s.Canonical) : (s.pdataWrite d w).Canonical :=
  h.setDac.paddrNext

theorem State.Canonical.pdataRead {d} (h : s.Canonical) : (s.pdataRead d).Canonical :=
  h.paddrNext.withReadData

theorem execSegStart_canonical {d} (h : s.Canonical) : OutCanonical (execSegStart d s) := by
  refine ifPresent_canonical h (.next ?_)
  dsimp only
  split
  · exact h.setDac.segFire
  · exact h

theorem execDaGo_canonical {d} (h : s.Canonical) : OutCanonical (execDaGo d s) :=
  hostRow_canonical (ifPresent_canonical h (.next (h.daWrite (fun h => h.daGo))))

theorem execDaStop_canonical {d} (h : s.Canonical) : OutCanonical (execDaStop d s) :=
  hostRow_canonical (ifPresent_canonical h (.next (h.daWrite (fun h => h.daHalt))))

theorem execDaEnable_canonical {d en} (h : s.Canonical) : OutCanonical (execDaEnable d en s) :=
  hostRow_canonical (ifPresent_canonical h (.next (h.daWrite (fun h => h.writeDaCtl))))

theorem execSegmentEnd_canonical {d} (h : s.Canonical) : OutCanonical (execSegmentEnd d s) :=
  ifPresent_canonical h (.next h.segEnd)

theorem execUnderrun_canonical {d} (h : s.Canonical) : OutCanonical (execUnderrun d s) :=
  ifPresent_canonical h (.next h.daUnderrun)

theorem execPdata_canonical {d acc} (h : s.Canonical) : OutCanonical (execPdata d acc s) := by
  unfold execPdata
  split
  · exact readPresent_canonical h (.next (.ite h.pdataRead h.withReadData))
  · exact hostRow_canonical (ifPresent_canonical h (.next (h.daWrite (fun h => h.pdataWrite))))

/-! ### Machine/Pulse -/

theorem State.Canonical.setCab {k c} (h : s.Canonical) : (s.setCab k c).Canonical :=
  .of (State.setCab_canonical h.eq ..)

theorem State.Canonical.setAgent {k a p} (h : s.Canonical) : (s.setAgent k a p).Canonical :=
  h.setCab

theorem State.Canonical.setInPort {k j p} (h : s.Canonical) : (s.setInPort k j p).Canonical :=
  h.setCab

theorem State.Canonical.setOutPort {k j p} (h : s.Canonical) : (s.setOutPort k j p).Canonical :=
  h.setCab

theorem State.Canonical.xovf {bit lost} (h : s.Canonical) : (s.xovf bit lost).Canonical :=
  .ite h.setBit h

theorem State.Canonical.xrst {bit lost} (h : s.Canonical) : (s.xrst bit lost).Canonical :=
  .ite h.setBit h

/-! ### Machine/Pigeon -/

theorem State.Canonical.pulsePort {k a isFault} (h : s.Canonical) : (s.pulsePort k a isFault).Canonical :=
  h.setAgent.xovf

theorem State.Canonical.notifyEmpty {c} (h : s.Canonical) : (s.notifyEmpty c).Canonical := by
  unfold State.notifyEmpty; dsimp only
  split
  · exact h.setChan
  · split
    · exact h
    · split
      · exact h.setChan
      · exact h.pulsePort
      · exact h

theorem State.Canonical.notifyFault {c aborted} (h : s.Canonical) : (s.notifyFault c aborted).Canonical := by
  unfold State.notifyFault; dsimp only
  split
  · exact h.setChan
  · exact h.pulsePort
  · exact h

theorem State.Canonical.postOn {c w} (h : s.Canonical) : (s.postOn c w).Canonical :=
  h.setChan

theorem State.Canonical.takeFrom {c} (h : s.Canonical) : (s.takeFrom c).Canonical :=
  .ite h.lowerChan.notifyEmpty h

theorem State.Canonical.setDoorbell {c w} (h : s.Canonical) : (s.setDoorbell c w).Canonical :=
  h.setChan

theorem State.Canonical.clearDoorbell {c w} (h : s.Canonical) : (s.clearDoorbell c w).Canonical :=
  h.lowerChan

theorem State.Canonical.countChans (h : s.Canonical) : s.countChans.Canonical :=
  h.setF.setF

theorem State.Canonical.freeChan {c} (h : s.Canonical) : (s.freeChan c).Canonical :=
  h.lowerChan.countChans

theorem State.Canonical.allocChan {c snd rcv} (h : s.Canonical) : (s.allocChan c snd rcv).Canonical :=
  h.setChan.countChans

theorem State.Canonical.freeSecure {k} (h : s.Canonical) : (s.freeSecure k).Canonical :=
  h.foldl (fun h => .ite h.freeChan h)

theorem State.Canonical.receiverReset {c} (h : s.Canonical) : (s.receiverReset c).Canonical :=
  .ite h h.lowerChan.notifyFault

theorem State.Canonical.senderReset {c} (h : s.Canonical) : (s.senderReset c).Canonical :=
  h.setChan

theorem State.Canonical.resetAgents {p} (h : s.Canonical) : (s.resetAgents p).Canonical :=
  h.foldl (fun h => .ite (.ite (senderReset (.ite h.receiverReset h)) (.ite h.receiverReset h)) h)

theorem State.Canonical.resetHosts (h : s.Canonical) : s.resetHosts.Canonical :=
  h.resetAgents

theorem State.Canonical.resetBureauAgent (h : s.Canonical) : s.resetBureauAgent.Canonical :=
  h.resetAgents

theorem State.Canonical.resetTwinAgent (h : s.Canonical) : s.resetTwinAgent.Canonical :=
  h.resetAgents

theorem State.Canonical.clearCrossings {k} (h : s.Canonical) : (s.clearCrossings k).Canonical := by
  unfold State.clearCrossings
  extract_lets _ _ _ _ _ s1 s2
  have h1 : s1.Canonical := h.setAgent.setAgent
  have h2 : s2.Canonical := { h1 with lines := Tab.wf_filter _ _ h1.lines, frqs := Tab.wf_filter _ _ h1.frqs }
  exact h2.xrst.xrst.xrst.xrst

theorem State.Canonical.resetPortAgents {p} (h : s.Canonical) : (s.resetPortAgents p).Canonical :=
  h.resetAgents

theorem State.Canonical.resetPorts {k} (h : s.Canonical) : (s.resetPorts k).Canonical :=
  h.clearCrossings.resetPortAgents

theorem State.Canonical.badPage {func c} (h : s.Canonical) : (s.badPage func c).Canonical :=
  h.flag.setF.setF

theorem State.Canonical.writeSndCtl {c w} (h : s.Canonical) : (s.writeSndCtl c w).Canonical :=
  h.setChan

theorem State.Canonical.pageWrite {func c ofs w} (h : s.Canonical) : (s.pageWrite func c ofs w).Canonical := by
  unfold State.pageWrite; dsimp only
  split
  · exact .ite h.postOn h.badPage
  · exact .ite h.setChan h.badPage
  · exact .ite h.setChan h.badPage
  · exact .ite h.setDoorbell h.badPage
  · exact .ite h.clearDoorbell h.badPage
  · exact .ite h.writeSndCtl h.badPage
  · exact .ite h.setChan h.badPage
  · exact .ite h h.badPage
  · exact .ite h h.badPage
  · exact h.badPage

theorem State.Canonical.msgTake {func c} (h : s.Canonical) : (s.msgTake func c).Canonical := by
  unfold State.msgTake; dsimp only
  split
  · exact h.takeFrom.withReadData
  · exact h.badPage.withReadData

theorem execChannelTimeout_canonical {c} (h : s.Canonical) : OutCanonical (execChannelTimeout c s) :=
  onInst_canonical (.next (.ite h.setChan.notifyFault h))

/-! ### Machine/Fabric -/

theorem State.Canonical.setFrameWord {fa k v} (h : s.Canonical) : (s.setFrameWord fa k v).Canonical :=
  .of (State.setFrameWord_canonical h.eq ..)

theorem State.Canonical.setFcell {k i x} (h : s.Canonical) : (s.setFcell k i x).Canonical :=
  .of (State.setFcell_canonical h.eq ..)

theorem State.Canonical.setLineX {k e x} (h : s.Canonical) : (s.setLineX k e x).Canonical :=
  .of (State.setLineX_canonical h.eq ..)

theorem State.Canonical.isolate {k} (h : s.Canonical) : (s.isolate k).Canonical := by
  unfold State.isolate; dsimp only
  split
  · exact h
  · exact h.setCab

theorem State.Canonical.endIsolation {k} (h : s.Canonical) : (s.endIsolation k).Canonical :=
  h.setCab

theorem State.Canonical.setCbState {k v} (h : s.Canonical) : (s.setCbState k v).Canonical :=
  h.setF

theorem State.Canonical.flushBoundary {k} (h : s.Canonical) : (s.flushBoundary k).Canonical :=
  h.foldl (fun h => h.addWrap.addWrap.xrst.setInPort.setOutPort)

theorem State.Canonical.startCells {k} (h : s.Canonical) : (s.startCells k).Canonical :=
  h.foldl (fun h => h.setFcell)

theorem State.Canonical.storeGclk {i w} (h : s.Canonical) : (s.storeGclk i w).Canonical :=
  h.setWord

theorem State.Canonical.storeFpll {m} (h : s.Canonical) : (s.storeFpll m).Canonical :=
  foldl (.ite h h.setF.setF) (fun h => .ite h.setF h)

theorem State.Canonical.writeIf {t : State} {ok a ignored} (h : s.Canonical) (h1 : t.Canonical)
    (hignored : ∀ {t}, t.Canonical → (ignored t).Canonical) :
    (s.writeIf t ok a ignored).Canonical :=
  .ite h1 (.ite h (hignored h))

theorem State.Canonical.writeGclk {i w} (h : s.Canonical) : (s.writeGclk i w).Canonical :=
  h.writeIf h.storeGclk (fun h => h.flag)

theorem State.Canonical.writeFpll {w} (h : s.Canonical) : (s.writeFpll w).Canonical :=
  h.writeIf h.storeFpll (fun h => h.flag)

theorem State.Canonical.writeFabCtl {k w} (h : s.Canonical) : (s.writeFabCtl k w).Canonical :=
  h.writeIf h.setB (fun h => h.flag)

theorem State.Canonical.peek {k} (h : s.Canonical) : (s.peek k).Canonical :=
  .ite h.flag.withReadData h.withReadData

theorem execClkenWrite_canonical {k on} (h : s.Canonical) : OutCanonical (execClkenWrite k on s) :=
  hostRow_canonical (ifPresent_canonical h (.next h.writeFabCtl))

theorem execFpllMWrite_canonical {m} (h : s.Canonical) : OutCanonical (execFpllMWrite m s) :=
  hostRow_canonical (onInst_canonical (.next h.writeFpll))

theorem execFpllLock_canonical (h : s.Canonical) : OutCanonical (execFpllLock s) :=
  .next (.ite h h.flag)

theorem execPeekData_canonical {k} (h : s.Canonical) : OutCanonical (execPeekData k s) :=
  readPresent_canonical h (.next h.peek)

/-! ### Machine/Images -/

theorem State.Canonical.touchFrame {fa} (h : s.Canonical) : (s.touchFrame fa).Canonical :=
  .ite h.withScrub h

theorem State.Canonical.imageWrite {x k} (h : s.Canonical) (hk : ∀ {t}, t.Canonical → (k t).Canonical) :
    (s.imageWrite x k).Canonical :=
  .ite (hk h) (.ite h.withScrub (.ite (hk h) (hk h).withScrub))

/-! ### Machine/Boundary -/

theorem State.Canonical.showGroup {k j} (h : s.Canonical) : (s.showGroup k j).Canonical :=
  .ite h (.ite h.setInPort h)

theorem State.Canonical.fpIn {k j} (h : s.Canonical) : (s.fpIn k j).Canonical := by
  unfold State.fpIn; dsimp only
  split
  · exact h
  · exact .ite h.consume.setInPort.showGroup h.consume.setInPort.addWrap

theorem State.Canonical.fpTake {k j} (h : s.Canonical) : (s.fpTake k j).Canonical :=
  .ite h.setInPort.showGroup h

theorem State.Canonical.fpInAll {k j fuel} (h : s.Canonical) : (s.fpInAll k j fuel).Canonical := by
  induction fuel generalizing s with
  | zero => exact h
  | succ n ih => exact .ite h (ih h.fpIn)

theorem State.Canonical.writeFpiSrc {k j v} (h : s.Canonical) : (s.writeFpiSrc k j v).Canonical :=
  .ite h h.fpTake.fpInAll.setInPort.addWrap.setF.connect

theorem State.Canonical.regroup {k j} (h : s.Canonical) : (s.regroup k j).Canonical :=
  .ite h.showGroup h.setInPort

theorem State.Canonical.fpDrain {k j fuel} (h : s.Canonical) : (s.fpDrain k j fuel).Canonical := by
  induction fuel generalizing s with
  | zero => exact h
  | succ n ih =>
    unfold State.fpDrain; dsimp only
    split
    · exact h
    · exact .ite h (ih h.setOutPort.emit)

theorem State.Canonical.fpOut {k j} (h : s.Canonical) : (s.fpOut k j).Canonical := by
  unfold State.fpOut; dsimp only
  split
  · exact h
  · exact fpDrain (.ite h.setOutPort h.setOutPort.addWrap)

theorem State.Canonical.drainPorts (h : s.Canonical) : s.drainPorts.Canonical :=
  h.foldl (fun ht => ht.foldl (fun h => h.fpDrain))

theorem State.Canonical.deliver {r w} (h : s.Canonical) : (s.deliver r w).Canonical :=
  .ite h.setRing.emit h.setRing.emit.setRing.addWrap.countBlock

theorem State.Canonical.pumpRing {r fuel} (h : s.Canonical) : (s.pumpRing r fuel).Canonical := by
  induction fuel generalizing s with
  | zero => exact h
  | succ n ih =>
    unfold State.pumpRing
    split
    · exact h
    · exact .ite h (ih h.deliver)

theorem State.Canonical.countLate {r} (h : s.Canonical) : (s.countLate r).Canonical :=
  .ite h h.setRing

theorem State.Canonical.pump (h : s.Canonical) : s.pump.Canonical :=
  h.drainPorts.foldl (fun h => .ite h h.countLate.pumpRing)

theorem State.Canonical.setFrqX {f x} (h : s.Canonical) : (s.setFrqX f x).Canonical :=
  .of (State.setFrqX_canonical h.eq ..)

theorem State.Canonical.scanFrq {k} (h : s.Canonical) : (s.scanFrq k).Canonical :=
  h.foldl (fun h => .ite h.setCab.setFrqX.xovf h.setCab)

theorem State.Canonical.frqEdges {k} (h : s.Canonical) : (s.frqEdges k).Canonical :=
  h.foldl (fun h => h.setFrqX)

theorem State.Canonical.settlePorts {k} (h : s.Canonical) : (s.settlePorts k).Canonical :=
  h.foldl (fun h => h.fpTake.fpOut)

theorem State.Canonical.lineEdges {k} (h : s.Canonical) : (s.lineEdges k).Canonical :=
  h.foldl (fun h => .ite h.setLineX.xovf h)

theorem State.Canonical.cabEdge {k on} (h : s.Canonical) : (s.cabEdge k on).Canonical := by
  unfold State.cabEdge
  extract_lets _ _ _ _ _ _ _ s1 s2 s3 s4
  have h1 : s1.Canonical := .ite h.lineEdges h
  have h2 : s2.Canonical := h1.foldl (fun h => h.setFcell)
  have h3 : s3.Canonical := h2.foldl (fun h => .ite h.setInPort h)
  have h4 : s4.Canonical := h3.foldl (fun h => by split <;> [exact h.setOutPort; exact h])
  exact .ite (h4.foldl (fun h => h.setAgent.xovf)) h4

theorem State.Canonical.takeCab {u : State} {k} (h : s.Canonical) : (s.takeCab u k).Canonical := by
  have h1 := h.setCab (k := k) (c := u.cab k)
  exact setF { h1 with
    fcells := Tab.wf_foldl_put _ _ _ _ (Tab.wf_filter _ _ h.fcells)
    lines := Tab.wf_foldl_put _ _ _ _ (Tab.wf_filter _ _ h.lines) }

theorem State.Canonical.fabEdge {mask pins} (h : s.Canonical) : (s.fabEdge mask pins).Canonical := by
  unfold State.fabEdge
  extract_lets _ _ _ s1 _ s2 s3
  have h1 : s1.Canonical := h.withDio.foldl (fun h => h.settlePorts)
  have h2 : s2.Canonical := h1.foldl (fun h => h.takeCab)
  have h3 : s3.Canonical := h2.foldl (fun h => scanFrq (.ite h.frqEdges h))
  exact { h3 with }

theorem State.Canonical.latchPins (h : s.Canonical) : s.latchPins.Canonical :=
  h.withDio

theorem State.Canonical.writePinCfg {n w} (h : s.Canonical) : (s.writePinCfg n w).Canonical :=
  h.writeIf h.setWord (fun h => h.flag)

theorem State.Canonical.writeBankCtl {b w} (h : s.Canonical) : (s.writeBankCtl b w).Canonical :=
  h.writeIf h.setB (fun h => h.flag)

theorem State.Canonical.writeBnd {k a v} (h : s.Canonical) : (s.writeBnd k a v).Canonical :=
  h.writeIf h.setWord (fun h => h.flag)

theorem State.Canonical.setFpiCfg {k j w} (h : s.Canonical) : (s.setFpiCfg k j w).Canonical :=
  h.fpTake.setWord.regroup

theorem State.Canonical.writeFpiCfg {k j w} (h : s.Canonical) : (s.writeFpiCfg k j w).Canonical :=
  h.writeIf (.ite h h.setFpiCfg) (fun h => h.flag)

theorem State.Canonical.setProbe {p x} (h : s.Canonical) : (s.setProbe p x).Canonical :=
  .of (State.setProbe_canonical h.eq ..)

theorem State.Canonical.tapProbe {p} (h : s.Canonical) : (s.tapProbe p).Canonical :=
  h.connect

theorem State.Canonical.writePrbCtl {p w} (h : s.Canonical) : (s.writePrbCtl p w).Canonical := by
  unfold State.writePrbCtl
  extract_lets _ _ _ s1 s2
  have h1 : s1.Canonical := h.setWord.flagIf
  have h2 : s2.Canonical := by unfold s2; split <;> [exact h1.setProbe; exact h1.sourceStops; exact h1]
  exact h2.tapProbe

theorem State.Canonical.writePrbSel {p w} (h : s.Canonical) : (s.writePrbSel p w).Canonical :=
  (h.writeIf h.setWord (fun h => h.flag)).tapProbe

theorem State.Canonical.probeEmit {p w} (h : s.Canonical) : (s.probeEmit p w).Canonical :=
  h.setProbe.emit.addWrap

theorem State.Canonical.probeSample {p} (h : s.Canonical) : (s.probeSample p).Canonical := by
  unfold State.probeSample; dsimp only
  split
  · exact h
  · split
    · exact .ite (.ite h.flagIf.probeEmit h.setProbe) h
    · exact .ite (.ite h.flagIf.probeEmit h.setProbe) h
    · split
      · exact h
      · exact .ite h.consume.probeEmit h.consume.setProbe
    · exact h

theorem execChainOutput_canonical {n} (h : s.Canonical) : OutCanonical (execChainOutput n s) :=
  ifPresent_canonical h (.next (.ite (.ite h.chainTake.drainPorts h.chainTake) h))

theorem execDacSample_canonical {d e tick} (h : s.Canonical) : OutCanonical (execDacSample d e tick s) :=
  ifPresent_canonical h (.next (.ite (.ite h.daEdge h.daEdge.pump) h))

theorem execFpInputWord_canonical {k j} (h : s.Canonical) : OutCanonical (execFpInputWord k j s) :=
  onInst_canonical (ifPresent_canonical h (.next h.fpIn))

theorem execFpInputGroupTake_canonical {k j} (h : s.Canonical) : OutCanonical (execFpInputGroupTake k j s) :=
  onInst_canonical (ifPresent_canonical h (.next h.fpTake.pump))

theorem execFpOutputWord_canonical {k j} (h : s.Canonical) : OutCanonical (execFpOutputWord k j s) :=
  onInst_canonical (ifPresent_canonical h (.next h.fpOut))

theorem execCellClock_canonical {mask pins} (h : s.Canonical) : OutCanonical (execCellClock mask pins s) :=
  .next h.fabEdge.pump

theorem execProbeSample_canonical {p} (h : s.Canonical) : OutCanonical (execProbeSample p s) :=
  onInst_canonical (.next h.probeSample)

theorem State.Canonical.grantPort {k a} (h : s.Canonical) : (s.grantPort k a).Canonical :=
  h.withArb

theorem State.Canonical.portPosts {k a c w} (h : s.Canonical) : (s.portPosts k a c w).Canonical :=
  .ite h.setAgent.postOn.setAgent h.setAgent.flag.setAgent

theorem State.Canonical.agentPost {k a} (h : s.Canonical) : (s.agentPost k a).Canonical := by
  unfold State.agentPost
  split
  · exact h
  · exact .ite h.grantPort.portPosts h

theorem execAgentPost_canonical {k a} (h : s.Canonical) : OutCanonical (execAgentPost k a s) :=
  onInst_canonical (ifPresent_canonical h (.next h.agentPost))

theorem State.Canonical.agentTake {k a} (h : s.Canonical) : (s.agentTake k a).Canonical := by
  unfold State.agentTake; dsimp only
  split
  · exact h
  · exact .ite (.ite h.grantPort.setAgent.takeFrom h.grantPort.setAgent) h

theorem execAgentTake_canonical {k a} (h : s.Canonical) : OutCanonical (execAgentTake k a s) :=
  onInst_canonical (ifPresent_canonical h (.next h.agentTake))

theorem State.Canonical.agentDbclr {k a} (h : s.Canonical) : (s.agentDbclr k a).Canonical := by
  unfold State.agentDbclr; dsimp only
  split
  · exact h
  · exact .ite (.ite h.grantPort.setAgent.clearDoorbell h.grantPort.setAgent) h

theorem execAgentDbclr_canonical {k a} (h : s.Canonical) : OutCanonical (execAgentDbclr k a s) :=
  onInst_canonical (ifPresent_canonical h (.next h.agentDbclr))

theorem State.Canonical.fabricRequest {f} (h : s.Canonical) : (s.fabricRequest f).Canonical :=
  .ite (h.setFrqX.foldl (fun h => .ite h.cgRequest h)) h

theorem execFabricRequest_canonical {f} (h : s.Canonical) : OutCanonical (execFabricRequest f s) :=
  onInst_canonical (.next h.scanFrq.fabricRequest)

theorem execVccioChange_canonical {b present} (h : s.Canonical) : OutCanonical (execVccioChange b present s) :=
  onInst_canonical (.next h.withDio.setB)

theorem execDioPinCfgWrite_canonical {n w} (h : s.Canonical) : OutCanonical (execDioPinCfgWrite n w s) :=
  hostRow_canonical (onInst_canonical (.next (h.imageWrite (fun h => h.writePinCfg))))

/-! ### Machine/Analog -/

theorem State.Canonical.azSettle {c} (h : s.Canonical) : (s.azSettle c).Canonical :=
  .ite h.setCell (.ite (.ite h.setCell h) (.ite h h.setCell))

theorem State.Canonical.azBoundary {c} (h : s.Canonical) : (s.azBoundary c).Canonical := by
  unfold State.azBoundary; dsimp only
  split
  · exact h
  · split
    · exact h.setCell
    · exact h.setCell
    · exact h.setCell
    · exact h

theorem State.Canonical.azSwap {c} (h : s.Canonical) : (s.azSwap c).Canonical :=
  .ite h.setCell.addWrap.azSettle h

theorem State.Canonical.azTrim {c tries} (h : s.Canonical) : (s.azTrim c tries).Canonical := by
  unfold State.azTrim; dsimp only
  split
  · split
    · exact h.setF.unmarkField.setCell
    · exact .ite h h.setCell.addSat.flag
  · exact h

theorem State.Canonical.applyMatrix {a r w} (h : s.Canonical) : (s.applyMatrix a r w).Canonical := by
  unfold State.applyMatrix; dsimp only
  split
  · exact .ite h.setWord.flagIf.wmHold h.setWord.flagIf
  · exact .ite h.setWord.azSettle.cellReset h.setWord.azSettle
  · exact h.setWord

theorem State.Canonical.writeMatrix {a r w} (h : s.Canonical) : (s.writeMatrix a r w).Canonical := by
  unfold State.writeMatrix; dsimp only
  split
  · exact h.flag.nameNet
  · exact h.applyMatrix

theorem State.Canonical.writeAcAz {c w} (h : s.Canonical) : (s.writeAcAz c w).Canonical :=
  h.setF.setF.azSettle

theorem State.Canonical.writeAcTrim {c k w} (h : s.Canonical) : (s.writeAcTrim c k w).Canonical :=
  (setWord (.ite h h.setCell)).flagIf

theorem State.Canonical.writeAcGain {c w} (h : s.Canonical) : (s.writeAcGain c w).Canonical :=
  h.setF

theorem State.Canonical.writeAcTune {c w} (h : s.Canonical) : (s.writeAcTune c w).Canonical :=
  h.setWord.setF

theorem State.Canonical.writeAcSc {c w} (h : s.Canonical) : (s.writeAcSc c w).Canonical :=
  h.setF.setF

theorem State.Canonical.restartAz (h : s.Canonical) : s.restartAz.Canonical :=
  h.foldl (fun h => h.setCell)

theorem State.Canonical.clearHeld (h : s.Canonical) : s.clearHeld.Canonical :=
  { h with cells := Tab.wf_filterMap h.cells fun _ _ _ he => Cell.cleared_some he }

theorem execMatrixWrite_canonical {addr w} (h : s.Canonical) : OutCanonical (execMatrixWrite addr w s) :=
  hostRow_canonical (by split <;> [exact .fault; exact .next (.ite (h.imageWrite (fun h => h.writeMatrix)) h)])

theorem execAzBoundary_canonical {c} (h : s.Canonical) : OutCanonical (execAzBoundary c s) :=
  ifPresent_canonical h (.next h.azBoundary)

theorem execAzSwap_canonical {c} (h : s.Canonical) : OutCanonical (execAzSwap c s) :=
  ifPresent_canonical h (.next h.azSwap)

theorem execAutoZeroTrim_canonical {c tries} (h : s.Canonical) : OutCanonical (execAutoZeroTrim c tries s) :=
  ifPresent_canonical h (.next h.azTrim)

theorem State.Canonical.cellTo {c dt} (h : s.Canonical) : (s.cellTo c dt).Canonical :=
  .ite h h.cellSettle

theorem execRst_canonical {c dt} (h : s.Canonical) : OutCanonical (execRst c dt s) :=
  hostRow_canonical (ifPresent_canonical h (.next h.cellTo.cellReset))

theorem execPortOverload_canonical {n v} (h : s.Canonical) : OutCanonical (execPortOverload n v s) :=
  ifPresent_canonical h (.next (State.Canonical.flagIf { h with apPins := Tab.wf_put _ _ _ h.apPins }))

theorem execCellSaturation_canonical {c dt} (h : s.Canonical) : OutCanonical (execCellSaturation c dt s) :=
  ifPresent_canonical h (.next h.cellTo)

/-! ### Machine/CalStore -/

theorem State.Canonical.loadCal {v} (h : s.Canonical) : (s.loadCal v).Canonical :=
  (h.foldl (fun h => .ite h h.setWord)).foldl (fun h => h.refillMap)

theorem State.Canonical.bootCal {ok} (h : s.Canonical) : (s.bootCal ok).Canonical := by
  unfold State.bootCal
  split
  · exact h.loadCal.setF.flag
  · exact h.loadCal.setF.setF

/-! ### Machine/LcsClock -/

theorem State.Canonical.followRef {was n} (h : s.Canonical) : (s.followRef was n).Canonical :=
  .ite h.rsRefLost h

theorem State.Canonical.onRef {n k} (h : s.Canonical) (hk : ∀ {t}, t.Canonical → (k t).Canonical) : (s.onRef n k).Canonical :=
  (hk h).followRef

theorem State.Canonical.onPair {n k} (h : s.Canonical) (hk : ∀ {t}, t.Canonical → (k t).Canonical) : (s.onPair n k).Canonical :=
  .ite (h.onRef hk).followRef (h.onRef (fun h => hk h))

theorem State.Canonical.followRefs {before : State} (h : s.Canonical) : (s.followRefs before).Canonical :=
  h.foldl (fun h => h.followRef)

theorem State.Canonical.rebase {old} (h : s.Canonical) : (s.rebase old).Canonical :=
  foldl { h with monitors := Tab.wf_map_filter h.monitors } fun h => h.setGroup

theorem State.Canonical.firstLock (h : s.Canonical) : s.firstLock.Canonical :=
  .ite h.pllLock.followRefs.rebase.wmRelock.restartAz h

theorem State.Canonical.relock (h : s.Canonical) : s.relock.Canonical := by
  unfold State.relock
  extract_lets t u v
  have hv : v.Canonical := (h.pllRelock.followRefs.foldl fun h => h.refFalls).abandonDacs.wmRelock.restartAz
  exact .ite (.ite hv.resumeDacs hv) h

theorem execPllLock_canonical (h : s.Canonical) : OutCanonical (execPllLock s) :=
  .next h.firstLock

theorem execPllLockLoss_canonical (h : s.Canonical) : OutCanonical (execPllLockLoss s) :=
  .next h.pllLost

theorem execPllRelock_canonical (h : s.Canonical) : OutCanonical (execPllRelock s) :=
  .next h.relock

theorem execSmpclkStamp_canonical {stamp} (h : s.Canonical) : OutCanonical (execSmpclkStamp stamp s) :=
  .ite (.next (.ite h.withLcs.restartAz.smpStamp h.smpStamp)) (.next h)

theorem execEdgeProcessing_canonical {n} (h : s.Canonical) : OutCanonical (execEdgeProcessing n s) :=
  onInst_canonical (.next (.ite (h.onRef (fun h => h.processEdge)) h))

theorem execCoastEntry_canonical {n tick} (h : s.Canonical) : OutCanonical (execCoastEntry n tick s) :=
  onInst_canonical (.next (.ite (h.onRef (fun h => h.enterCoast)) h))

theorem execCoastLimit_canonical {n tick} (h : s.Canonical) : OutCanonical (execCoastLimit n tick s) :=
  onInst_canonical (.next (.ite (h.onRef (fun h => h.endCoast)) h))

theorem execPrEnable_canonical {n en} (h : s.Canonical) : OutCanonical (execPrEnable n en s) :=
  hostRow_canonical (onInst_canonical (.next (h.lcsWrite (fun ht => ht.onPair (fun h => h.enableRef)))))

/-! ### Machine/Rings -/

theorem State.Canonical.pdirLo {w} (h : s.Canonical) : (s.pdirLo w).Canonical :=
  h.setWord

theorem State.Canonical.pdirHi {w} (h : s.Canonical) : (s.pdirHi w).Canonical :=
  .of (State.pdirHi_canonical h.eq ..)

theorem State.Canonical.writeTail {r w} (h : s.Canonical) : (s.writeTail r w).Canonical :=
  .ite h.setF h.flag

theorem State.Canonical.writeHead {r w} (h : s.Canonical) : (s.writeHead r w).Canonical :=
  .ite h.setF h.flag

theorem State.Canonical.hostWrite {a bytes} (h : s.Canonical) : (s.hostWrite a bytes).Canonical :=
  .of (State.hostWrite_canonical h.eq ..)

theorem State.Canonical.issueBlock {r b} (h : s.Canonical) : (s.issueBlock r b).Canonical :=
  h.hostWrite.hostWrite.setRing.setF.countBlock

theorem State.Canonical.replayLevel (h : s.Canonical) : s.replayLevel.Canonical :=
  h.setF.setF

theorem State.Canonical.passBlock {r b} (h : s.Canonical) : (s.passBlock r b).Canonical :=
  h.setRing.setF

theorem State.Canonical.confirm {r} (h : s.Canonical) : (s.confirm r).Canonical :=
  (h.withTwin.foldl (fun h => h.passBlock)).replayLevel

theorem State.Canonical.toReplay {r b} (h : s.Canonical) : (s.toReplay r b).Canonical := by
  unfold State.toReplay; dsimp only
  split
  · exact h.withTwin.replayLevel.confirm
  · exact .ite h.passBlock.flag.withTwin.replayLevel.confirm h.withTwin.replayLevel.confirm

theorem State.Canonical.writeBlock {r} (h : s.Canonical) : (s.writeBlock r).Canonical := by
  unfold State.writeBlock; dsimp only
  split
  · exact h
  · exact .ite h.setRing.toReplay (.ite h.setRing.issueBlock h)

theorem State.Canonical.grantWrite {r} (h : s.Canonical) : (s.grantWrite r).Canonical :=
  .ite h.withArb.writeBlock.pump h

theorem State.Canonical.writeBlocks {r fuel} (h : s.Canonical) : (s.writeBlocks r fuel).Canonical := by
  induction fuel generalizing s with
  | zero => exact h
  | succ n ih => exact ih h.writeBlock

theorem State.Canonical.flushRings (h : s.Canonical) : s.flushRings.Canonical :=
  h.foldl (fun h => .ite h h.closeBlock.writeBlocks)

theorem State.Canonical.admitRing {r} (h : s.Canonical) : (s.admitRing r).Canonical :=
  .ite h.setRing.flag.setF.setF.addCharge.withTwin h.setRing.flag.setF.setF.addCharge.withTwin.setFeed

theorem State.Canonical.endRing {r} (h : s.Canonical) : (s.endRing r).Canonical :=
  (passTail (.ite h.detachRing h.detachRing.closeBlock.writeBlocks)).setRing.addCharge.setF

theorem State.Canonical.fetch {r} (h : s.Canonical) : (s.fetch r).Canonical :=
  .ite h.setRing.withArb h

theorem State.Canonical.fetched {r data} (h : s.Canonical) : (s.fetched r data).Canonical :=
  .ite h.setRing.pumpRing h.setRing

theorem State.Canonical.snapRing {r} (h : s.Canonical) : (s.snapRing r).Canonical :=
  h.setPair.setPair.setPair

theorem State.Canonical.writeRingCfg {r a v} (h : s.Canonical) : (s.writeRingCfg r a v).Canonical :=
  h.writeIf h.setWord (fun h => h.flag)

theorem execDmaPdirLo_canonical {w} (h : s.Canonical) : OutCanonical (execDmaPdirLo w s) :=
  hostRow_canonical (.next h.pdirLo)

theorem execDmaPdirHi_canonical {w} (h : s.Canonical) : OutCanonical (execDmaPdirHi w s) :=
  hostRow_canonical (.next h.pdirHi)

theorem execTailWrite_canonical {r w} (h : s.Canonical) : OutCanonical (execTailWrite r w s) :=
  hostRow_canonical (onInst_canonical (.next h.writeTail.pump))

theorem execHeadWrite_canonical {r w} (h : s.Canonical) : OutCanonical (execHeadWrite r w s) :=
  hostRow_canonical (onInst_canonical (.next h.writeHead))

theorem execRingWord_canonical {r ns at_} (h : s.Canonical) : OutCanonical (execRingWord r ns at_ s) :=
  onInst_canonical (.next (.ite h.ringWord.pump h))

theorem execAgeClose_canonical {r} (h : s.Canonical) : OutCanonical (execAgeClose r s) :=
  onInst_canonical (.next (.ite h.closeBlock h))

theorem execBlockWrite_canonical {r} (h : s.Canonical) : OutCanonical (execBlockWrite r s) :=
  onInst_canonical (.next h.grantWrite)

theorem execBlkHold_canonical {r} (h : s.Canonical) : OutCanonical (execBlkHold r s) :=
  onInst_canonical (.next (.ite h.setRing.flag h))

theorem execDmaSnap_canonical {r} (h : s.Canonical) : OutCanonical (execDmaSnap r s) :=
  hostRow_canonical (onInst_canonical (.next h.snapRing))

theorem execRingFetch_canonical {r} (h : s.Canonical) : OutCanonical (execRingFetch r s) :=
  onInst_canonical (.next h.fetch)

theorem execCompletionTimeout_canonical {r} (h : s.Canonical) : OutCanonical (execCompletionTimeout r s) :=
  onInst_canonical (.next (.ite h.flag.aer h))

/-! ### Machine/Modes -/

theorem State.Canonical.resetRegs {p keep} (h : s.Canonical) : (s.resetRegs p keep).Canonical := by
  refine { h with regs := Tab.wf_filterMap h.regs ?_ }
  intro e e' hd he
  dsimp only at he
  split at he
  · split at he
    · cases he
    · cases he
      exact ⟨rfl, ‹_›⟩
  · cases he
    exact ⟨rfl, hd⟩

theorem State.Canonical.stopSources (h : s.Canonical) : s.stopSources.Canonical :=
  (h.foldl (fun ht => .ite (ht.foldl (fun h => h.sourceStops)) ht)).foldl (fun h => .ite h.sourceStops h)

theorem State.Canonical.unplug (h : s.Canonical) : s.unplug.Canonical :=
  { h with feeds := Tab.wf_filter _ _ h.feeds }

theorem State.Canonical.refSelReset (h : s.Canonical) : s.refSelReset.Canonical :=
  h.foldl (fun h => .ite h h.refFalls)

theorem State.Canonical.portsReset (h : s.Canonical) : s.portsReset.Canonical :=
  h.foldl (fun h => .ite h h.wmHold)

theorem State.Canonical.resetHard (h : s.Canonical) : s.resetHard.Canonical := by
  unfold State.resetHard
  extract_lets _ s1 s2 _ _ _ _ s3
  have h2 : s2.unplug.Canonical := h.stopSources.refSelReset.portsReset.resetRegs.unplug
  clear_value s2
  have h3 : s3.Canonical :=
    { h2 with
      cells := Tab.wf_filterMap h2.cells fun _ _ _ he => Cell.cleared_some he
      groups := Tab.wf_filterMap_ite h2.groups fun _ h => h
      chains := Tab.wf_filterMap_ite h2.chains fun _ hs h0 => hs (congrArg Chain.store h0)
      dacs := Tab.wf_filterMap_ite h2.dacs fun _ hp h0 => hp (congrArg Dac.pattern h0) }
  exact h3.noteVectors

theorem State.Canonical.stopPorts {k} (h : s.Canonical) : (s.stopPorts k).Canonical :=
  .ite h (h.foldl (fun h => h.sourceStops))

theorem State.Canonical.emptyCabs (h : s.Canonical) : s.emptyCabs.Canonical := by
  unfold State.emptyCabs
  extract_lets _ s1
  have h1 : s1.Canonical := (h.foldl (fun h => h.stopPorts.flushBoundary.clearCrossings)).resetPortAgents
  exact h1.setF.setF.foldl (fun h => h.freeSecure.setWord.setWord.setWord.setF.setCab)

theorem State.Canonical.strayWords (h : s.Canonical) : s.strayWords.Canonical :=
  h.flagIf

theorem State.Canonical.dropStream (h : s.Canonical) : s.dropStream.Canonical :=
  h.strayWords.withStream.connect.pump

theorem State.Canonical.enterBlank {frames} (h : s.Canonical) : (s.enterBlank frames).Canonical := by
  unfold State.enterBlank
  extract_lets s1 _ _ _ _ s2
  have h1 : s1.Canonical := h.abandonAll.emptyCabs.resetHard.strayWords
  clear_value s1
  have h2 : s2.Canonical := { h1 with }
  exact .ite { h2 with frames := rfl, checks := rfl } h2

theorem State.Canonical.enterLoad {src ring} (h : s.Canonical) : (s.enterLoad src ring).Canonical := by
  unfold State.enterLoad
  extract_lets s1 _ _ s2 s3 s4 s5
  have h1 : s1.Canonical := .ite h.emptyCabs.resetHard h.enterBlank
  have h2 : s2.Canonical := { h1 with }
  have h3 : s3.Canonical := h2.setF.setF.setF
  have h4 : s4.Canonical := h3.setF.setF.setF
  have h5 : s5.Canonical := h4.setF.setF
  exact .ite h5.connect.pump h5

theorem State.Canonical.toMode {m cause} (h : s.Canonical) : (s.toMode m cause).Canonical := by
  unfold State.toMode
  extract_lets _ _ s1 s2 s3 _ s4
  have h1 : s1.Canonical := { h with }
  have h3 : s3.Canonical := h1.setF.setF.setF.flag
  clear_value s3
  have h4 : s4.Canonical := { h3 with }
  clear_value s4
  exact .ite h4 (setF { h4 with })

theorem State.Canonical.goBlank {cause frames} (h : s.Canonical) : (s.goBlank cause frames).Canonical :=
  h.enterBlank.toMode

theorem State.Canonical.goLoad {src ring cause} (h : s.Canonical) : (s.goLoad src ring cause).Canonical :=
  h.enterLoad.toMode

theorem State.Canonical.stopConverting (h : s.Canonical) : s.stopConverting.Canonical :=
  h.abandonAll.abandonDacs.pauseGroups

theorem State.Canonical.startConverting (h : s.Canonical) : s.startConverting.Canonical :=
  h.resumeGroups.resumeChains.resumeDacs.busUpdates

theorem State.Canonical.goBench (h : s.Canonical) : s.goBench.Canonical := by
  unfold State.goBench
  extract_lets s1
  have h1 : s1.Canonical := h.latchPins.stopConverting.benchGroups.estClear.clearHeld
  exact h1.toMode

theorem State.Canonical.benchToRun (h : s.Canonical) : s.benchToRun.Canonical := by
  unfold State.benchToRun
  extract_lets s1 _ _ s2
  have h1 : s1.Canonical := h.toMode
  clear_value s1
  have h2 : s2.Canonical := startConverting { h1 with }
  exact h2.restartAz.pump

theorem State.Canonical.heldMemories (h : s.Canonical) : s.heldMemories.Canonical :=
  { reset with
    regs := Tab.wf_filterMap_ite h.regs fun _ h => h
    chains := Tab.wf_filterMap_ite h.chains fun _ hs h0 => hs (congrArg Chain.store h0)
    dacs := Tab.wf_filterMap_ite h.dacs fun _ hp h0 => hp (congrArg Dac.pattern h0)
    fcells := h.fcells }

theorem State.Canonical.keepOutside {s t : State} (h : s.Canonical) (ht : t.Canonical) : (s.keepOutside t).Canonical :=
  foldl { ht with hostMem := h.hostMem, apPins := h.apPins } fun h => h.setB

theorem State.Canonical.goReset {cause held} (h : s.Canonical) : (s.goReset cause held).Canonical := by
  unfold State.goReset
  extract_lets t _ u
  have ht : t.Canonical := h.keepOutside (.ite h.heldMemories reset)
  clear_value t
  have hu : u.Canonical := .ite { ht with } ht
  exact hu.setF

theorem execPowerOn_canonical (h : s.Canonical) : OutCanonical (execPowerOn s) :=
  .next h.goReset

theorem execPorstNAssert_canonical (h : s.Canonical) : OutCanonical (execPorstNAssert s) :=
  .next (.ite h h.goReset)

theorem execBrownOut_canonical (h : s.Canonical) : OutCanonical (execBrownOut s) :=
  .next h.goReset

/-! ### Machine/Access -/

theorem State.Canonical.writePlain {a w} (h : s.Canonical) : (s.writePlain a w).Canonical := by
  unfold State.writePlain
  split
  · exact h.setWord
  · exact h

theorem State.Canonical.writeGuarded {a w prot closed flag} (h : s.Canonical)
    (hflag : ∀ {t}, t.Canonical → (flag t).Canonical) :
    (s.writeGuarded a w prot closed flag).Canonical := by
  unfold State.writeGuarded; dsimp only
  split
  · exact .ite (hflag h.setWord) h.setWord
  · exact h

theorem State.Canonical.writeCal {a w whole k} (h : s.Canonical) (hk : ∀ {t}, t.Canonical → (k t).Canonical) :
    (s.writeCal a w whole k).Canonical :=
  .ite h.writePlain.flag ((hk h).foldl (fun h => .ite h.setF.unmarkHalf h))

theorem State.Canonical.writeDev {a w} (h : s.Canonical) : (s.writeDev a w).Canonical :=
  .ite (h.writeGuarded (fun h => h.flag)) h.writePlain

theorem State.Canonical.writeBur {a w} (h : s.Canonical) : (s.writeBur a w).Canonical :=
  .ite (.ite h.flag (.ite h.setF h)) (.ite h.flag h.writePlain)

theorem State.Canonical.writeLcs {r a w} (h : s.Canonical) : (s.writeLcs r a w).Canonical := by
  unfold State.writeLcs
  extract_lets
  exact h.lcsWrite (fun ht => .ite ht.writeLcsCtl.followRefs <| .ite (.ite ht.snapTime ht) <|
    .ite (ht.writeGuarded (fun h => h.flag)) <| .ite (ht.writeGuarded (fun h => h.flag)) <|
    .ite (ht.onPair (fun h => h.writePrCfg)) <| .ite (.ite ht.snapRef ht) <| .ite ht.writePaCtl <|
    .ite ht.writePaTarget <| .ite ht.writePaFilter <| .ite ht.writeTtCtl <| .ite ht.writePlain <|
    .ite (.ite ht.setCapture ht) ht.writePlain)

theorem State.Canonical.writeAnalog {r a w} (h : s.Canonical) : (s.writeAnalog r a w).Canonical := by
  unfold State.writeAnalog
  dsimp only
  split
  · exact .ite h.writeMatrix h
  · exact .ite h.writeAcGain <| .ite h.writeAcTune <| .ite h.writeAcSc <| .ite h.writeAcAz <|
      .ite (h.writeCal (fun h => h.writeAcTrim)) <| .ite (h.writeCal (fun h => h.writePlain)) h.writePlain

theorem State.Canonical.writeCg {r a w} (h : s.Canonical) : (s.writeCg r a w).Canonical := by
  unfold State.writeCg
  extract_lets
  exact h.sclkWrite (fun ht => .ite ht.writeCgCtl <| .ite ht.writeSeqctl <| .ite ht.writeCgRef <| .ite ht.writeListen <|
    .ite ht.writeFtrig <| .ite ht.writeWinArm <| .ite (.ite ht.cgSnap ht) <| .ite (.ite ht.setGroup ht) <|
    .ite ht.writeRotCtl <| .ite (ht.writeCal (fun h => h.writeSlice)) <| .ite (ht.writeCal (fun h => h.writeSlice)) <|
    .ite (ht.writeCal (fun h => h.writeResidual)) <| .ite (ht.writeCal (fun h => h.writeResidual)) ht.writePlain)

theorem State.Canonical.writeFc {r a w} (h : s.Canonical) : (s.writeFc r a w).Canonical := by
  unfold State.writeFc
  extract_lets
  exact h.fcWrite (fun ht => .ite ht.writeFcCtl <| .ite ht.writeFcSrc <| .ite ht.writeFcCic <| .ite ht.writeWhileOff <|
    .ite ht.writeFcFir <| .ite ht.writeFcInfo <| .ite ht.writeFcBank <| .ite ht.writeFcBank <|
    .ite (.ite ht.setPair.setPair.setPair ht) <| .ite (.ite ht.setChain ht) <| .ite (.ite ht.setChain ht) <|
    .ite ht.writeRsCtl <| .ite ht.commitInc <| .ite (ht.writeGuarded (fun h => h.flag)) <|
    .ite ht.cdataWrite ht.writePlain)

theorem State.Canonical.writeDa {r a w} (h : s.Canonical) : (s.writeDa r a w).Canonical := by
  unfold State.writeDa
  extract_lets
  exact h.daWrite (fun ht => .ite ht.writeDaCtl <| .ite ht.writeDaSrc <| .ite ht.writeDaListen <| .ite ht.writeSegLen <|
    .ite ht.pdataWrite <| .ite (ht.writeCal (fun h => h.writePlain)) ht.writePlain)

theorem State.Canonical.writeWm {r a w} (h : s.Canonical) : (s.writeWm r a w).Canonical := by
  unfold State.writeWm
  extract_lets
  exact .ite h.writeWmCtl <| .ite h.writeWmThr <| .ite h.writeWmHys <| .ite (h.writeCal (fun h => h.writeWmTrim)) <|
    .ite h.writeWmBlank <| .ite h.writeWmLatch <| .ite h.writeWmPclr h.writePlain

theorem State.Canonical.writeCalBlock {a w} (h : s.Canonical) : (s.writeCalBlock a w).Canonical :=
  .ite h.writePlain (h.writeCal (fun ht => ht.writeGuarded (fun h => h.flag)))

theorem State.Canonical.writeScrb {a w} (h : s.Canonical) : (s.writeScrb a w).Canonical := by
  unfold State.writeScrb
  extract_lets s1 _ _ s2
  have h1 : s1.Canonical := h.writePlain
  have h2 : s2.Canonical := { h1 with }
  exact .ite h1.withVoted (.ite (.ite h2 h2.withScrub.setF) h1)

theorem State.Canonical.writeDma {r a w} (h : s.Canonical) : (s.writeDma r a w).Canonical := by
  unfold State.writeDma
  extract_lets
  exact .ite h.writeRingCfg <| .ite h.writeRingCfg <| .ite h.writeRingCfg <| .ite h.writeRingCfg <|
    .ite h.writeTail.pump <| .ite h.writeHead <| .ite (.ite h.snapRing h) <| .ite h.pdirLo <| .ite h.pdirHi h.writePlain

theorem State.Canonical.writeFabric {r a w} (h : s.Canonical) : (s.writeFabric r a w).Canonical := by
  unfold State.writeFabric
  extract_lets
  exact .ite h.writeFabCtl <| .ite h.writePlain <| .ite h.writeGclk <| .ite h.writeFpll <| .ite h.writePinCfg <|
    .ite h.writeBankCtl <| .ite h.writeBnd <| .ite h.writeBnd <| .ite h.writeFpiSrc <| .ite h.writeFpiCfg <|
    .ite h.writePrbCtl <| .ite h.writePrbSel h.writePlain

theorem State.Canonical.writeTwn {a w} (h : s.Canonical) : (s.writeTwn a w).Canonical :=
  .ite h.writePlain h.writePlain

theorem State.Canonical.writeNow {a w} (h : s.Canonical) : (s.writeNow a w).Canonical := by
  unfold State.writeNow
  split
  · exact h
  · exact .ite h <| .ite h.writeDev <| .ite h.writePlain <| .ite h.writePlain <| .ite h.writeScrb <| .ite h.writeBur <|
      .ite h.writeLcs <| .ite h.writeAnalog <| .ite h.writeCg <| .ite h.writeFc <| .ite h.writeWm <| .ite h.writeDa <|
      .ite h.writeCalBlock <| .ite h.writePlain <| .ite h.writeDma <| .ite h.writeFabric <| .ite h.writeTwn h

theorem State.Canonical.copyNow {a w} (h : s.Canonical) : (s.copyNow a w).Canonical := by
  unfold State.copyNow; dsimp only
  split
  · exact h
  · split
    · exact .ite h.applyMatrix h
    · exact .ite h (.ite h.writeFpiSrc (.ite (.ite h h.setFpiCfg) (.ite h.setWord h.writeNow)))

theorem State.Canonical.writeHeld {l} (h : s.Canonical) : (s.writeHeld l).Canonical :=
  h.foldl (fun h => .ite h.copyNow h.writeNow)

theorem State.Canonical.writeReg {a w} (h : s.Canonical) : (s.writeReg a w).Canonical :=
  .ite h.writeNow.writeHeld (h.imageWrite (fun h => h.writeNow))

theorem State.Canonical.copyReg {a w} (h : s.Canonical) : (s.copyReg a w).Canonical :=
  h.imageWrite (fun h => h.copyNow)

theorem execWmConditionWrite_canonical {n what w} (h : s.Canonical) : OutCanonical (execWmConditionWrite n what w s) :=
  hostRow_canonical (ifPresent_canonical h (.next (by split <;> exact h.writeReg)))

/-! ### Machine/Boot -/

theorem State.Canonical.showKeys {i} (h : s.Canonical) : (s.showKeys i).Canonical :=
  h.setPair.setPair

theorem State.Canonical.keyLow (h : s.Canonical) : s.keyLow.Canonical :=
  h.flagIf

theorem State.Canonical.release {compat boot} (h : s.Canonical) : (s.release compat boot).Canonical := by
  unfold State.release
  extract_lets _ _ s1
  have h1 : s1.Canonical := { h with }
  exact h1.setB.setB.setF

theorem execPorstNRelease_canonical {compat boot} (h : s.Canonical) : OutCanonical (execPorstNRelease compat boot s) :=
  .ite .fault (.next (.ite h.release h))

theorem State.Canonical.bootEnds {err trng store} (h : s.Canonical) : (s.bootEnds err trng store).Canonical := by
  unfold State.bootEnds
  extract_lets _ _ s1 s2 s3 s4
  have h1 : s1.Canonical := { h with }
  have h2 : s2.Canonical := h1.setWord.flagIf
  have h3 : s3.Canonical := h2.setF.showKeys.keyLow.bootCal
  have h4 : s4.Canonical := h3.flag.setF
  exact .ite h2.setF h4.withBur.toMode

theorem execBureauBootComplete_canonical {err trng store} (h : s.Canonical) :
    OutCanonical (execBureauBootComplete err trng store s) :=
  .ite .fault (.next (.ite h.bootEnds h))

theorem execAutonomousBoot_canonical (h : s.Canonical) : OutCanonical (execAutonomousBoot s) :=
  .next (by split <;> [(split <;> [exact h.setF.setF.goLoad; exact .ite h.goLoad h; exact h]); exact h])

/-! ### Machine/Frames -/

theorem State.Canonical.setCheck {fa c} (h : s.Canonical) : (s.setCheck fa c).Canonical :=
  .of (State.setCheck_canonical h.eq ..)

theorem State.Canonical.writeImage {a v} (h : s.Canonical) : (s.writeImage a v).Canonical := by
  unfold State.writeImage; dsimp only
  split
  · exact h
  · exact .ite h.setWord (.ite h.setB (.ite h.storeGclk (.ite h.storeFpll h.writeReg)))

theorem State.Canonical.writeFrame {fa ws} (h : s.Canonical) : (s.writeFrame fa ws).Canonical := by
  unfold State.writeFrame
  extract_lets s1 s2
  have h1 : s1.Canonical := h.touchFrame
  have h2 : s2.Canonical := h1.foldl (fun h => h.setFrameWord)
  exact .ite h2.setCheck (h1.foldl (fun h => by split <;> [exact h.writeImage; exact h]))

/-! ### Machine/Loader -/

theorem State.Canonical.setStream {x} (h : s.Canonical) : (s.setStream x).Canonical :=
  h.withStream

theorem State.Canonical.markRun (h : s.Canonical) : s.markRun.Canonical :=
  h.withPwr

theorem State.Canonical.endPartial (h : s.Canonical) : s.endPartial.Canonical :=
  .ite h.toMode.markRun h

theorem State.Canonical.setMeas {k m} (h : s.Canonical) : (s.setMeas k m).Canonical :=
  h.setCab

theorem State.Canonical.regionFail {k reason pos phase} (h : s.Canonical) : (s.regionFail k reason pos phase).Canonical :=
  h.setF.setF.setF.setF.setF.setCbState.flag.setMeas.dropStream.endPartial

theorem State.Canonical.loadFail {reason pos} (h : s.Canonical) : (s.loadFail reason pos).Canonical := by
  unfold State.loadFail
  extract_lets s1
  have h1 : s1.Canonical := h.setF.setF.setF
  exact h1.dropStream.setF.toMode

theorem State.Canonical.streamFailAt {reason pos} (h : s.Canonical) : (s.streamFailAt reason pos).Canonical := by
  unfold State.streamFailAt
  split
  · exact h.loadFail
  · exact h.regionFail

theorem State.Canonical.streamFail {reason} (h : s.Canonical) : (s.streamFail reason).Canonical :=
  h.streamFailAt

theorem State.Canonical.countWord (h : s.Canonical) : s.countWord.Canonical := by
  unfold State.countWord
  split
  · exact h.setF.setF
  · exact h.setF

theorem State.Canonical.setPhase {p} (h : s.Canonical) : (s.setPhase p).Canonical := by
  unfold State.setPhase
  split <;> exact h.setF

theorem State.Canonical.takeDevice {i w} (h : s.Canonical) : (s.takeDevice i w).Canonical := by
  unfold State.takeDevice; dsimp only
  split
  · exact .ite h.streamFail h
  · exact .ite h.streamFail (.ite h.streamFail h)
  · exact .ite h.setStream.setF h.setStream
  · exact .ite h.setStream.setF h.setStream.setMeas
  · exact .ite (.ite h.streamFail h) (.ite h.streamFail (.ite h.streamFail h.setStream))

theorem State.Canonical.takeRegion {w} (h : s.Canonical) : (s.takeRegion w).Canonical :=
  .ite h.streamFail (.ite h.streamFail h.setStream)

theorem State.Canonical.endFrame {fa ws} (h : s.Canonical) : (s.endFrame fa ws).Canonical := by
  unfold State.endFrame; dsimp only
  split
  · exact h.writeFrame.setStream.setF.setF
  · exact h.writeFrame.setStream.setMeas.setF

theorem State.Canonical.takeFrameWord {w} (h : s.Canonical) : (s.takeFrameWord w).Canonical := by
  unfold State.takeFrameWord; dsimp only
  split
  · exact h.streamFail
  · exact h.streamFail
  · exact .ite h.streamFail (.ite h.endFrame h.setStream)

theorem State.Canonical.takeFrames {i w} (h : s.Canonical) : (s.takeFrames i w).Canonical := by
  unfold State.takeFrames; dsimp only
  split
  · exact .ite h.streamFail h.setStream
  · exact .ite h.streamFail (.ite h.streamFail h)
  · exact h.takeFrameWord

theorem State.Canonical.streamWrite {a v} (h : s.Canonical) : (s.streamWrite a v).Canonical :=
  h.writeReg.setF

theorem State.Canonical.analogValue {a v} (h : s.Canonical) : (s.analogValue a v).Canonical :=
  .ite (.ite h.streamFail h.setStream) h.streamWrite

theorem State.Canonical.takeAnalog {left w} (h : s.Canonical) : (s.takeAnalog left w).Canonical := by
  unfold State.takeAnalog
  extract_lets _ s1
  have h1 : s1.Canonical := h.setStream
  split
  · exact .ite h1.streamFail (.ite h1.streamFail (.ite h1.streamFail h1.setStream))
  · exact .ite h1.streamFail (.ite h1.streamFail h1.setStream)
  · exact h1.setStream.analogValue
  · exact h1.setStream.analogValue

theorem State.Canonical.takeStartup {i w} (h : s.Canonical) : (s.takeStartup i w).Canonical := by
  unfold State.takeStartup; dsimp only
  split
  · exact .ite h.streamFail h.setStream
  · exact .ite h.streamFail h.setStream
  · exact h.setStream
  · exact h
  · exact .ite h.streamFail h

theorem State.Canonical.takeDigest {i w} (h : s.Canonical) : (s.takeDigest i w).Canonical :=
  .ite h.streamFail h.setStream

theorem State.Canonical.takeSignature {i w} (h : s.Canonical) : (s.takeSignature i w).Canonical :=
  .ite h.streamFail (.ite h.streamFail h.setStream)

theorem State.Canonical.takeEnd {w} (h : s.Canonical) : (s.takeEnd w).Canonical := by
  unfold State.takeEnd; dsimp only
  split
  · exact h.strayWords.setStream.setPhase.connect.pump.setF.toMode
  · exact h.strayWords.setStream.setPhase.connect.pump

theorem State.Canonical.takePreamble {w} (h : s.Canonical) : (s.takePreamble w).Canonical :=
  .ite h.setStream.setPhase.countWord (.ite h.setStream h.streamFailAt)

theorem State.Canonical.takeHeader {w} (h : s.Canonical) : (s.takeHeader w).Canonical := by
  unfold State.takeHeader
  extract_lets
  exact .ite h.streamFail (.ite h.streamFail (.ite h.streamFail (.ite h.streamFail (.ite h.streamFail h.setStream))))

theorem State.Canonical.takeBody {w} (h : s.Canonical) : (s.takeBody w).Canonical := by
  unfold State.takeBody
  extract_lets _ _ _ s1
  have h1 : s1.Canonical := h.setStream
  exact .ite h1.takeDevice <| .ite h1.takeRegion <| .ite h1.takeFrames <| .ite h1.takeAnalog <| .ite h1.takeStartup <|
    .ite h1.takeDigest <| .ite h1.takeSignature h1.takeEnd

theorem State.Canonical.takeStreamWord {w} (h : s.Canonical) : (s.takeStreamWord w).Canonical :=
  .ite h.takePreamble (.ite h.setStream.countWord.takeHeader h.setStream.countWord.takeBody)

theorem State.Canonical.streamPop (h : s.Canonical) : s.streamPop.Canonical :=
  .ite h.consume.pumpRing h.setStream

theorem State.Canonical.takeUnit {u fuel} (h : s.Canonical) : (s.takeUnit u fuel).Canonical := by
  induction fuel generalizing s with
  | zero => exact h
  | succ k ih =>
    unfold State.takeUnit; dsimp only
    split
    · exact .ite (.ite h.streamPop.takeStreamWord (ih h.streamPop.takeStreamWord)) h
    · exact h

theorem State.Canonical.runUnit {u flash} (h : s.Canonical) : (s.runUnit u flash).Canonical :=
  takeUnit (.ite h.setStream h)

theorem execPreambleWord_canonical {flash} (h : s.Canonical) : OutCanonical (execPreambleWord flash s) :=
  .next h.runUnit

theorem execSyncWord_canonical {flash} (h : s.Canonical) : OutCanonical (execSyncWord flash s) :=
  .next h.runUnit

theorem execDevice_canonical {flash} (h : s.Canonical) : OutCanonical (execDevice flash s) :=
  .next h.runUnit

theorem execRegion_canonical {flash} (h : s.Canonical) : OutCanonical (execRegion flash s) :=
  .next h.runUnit

theorem execFrames_canonical {flash} (h : s.Canonical) : OutCanonical (execFrames flash s) :=
  .next h.runUnit

theorem execFrame_canonical {flash} (h : s.Canonical) : OutCanonical (execFrame flash s) :=
  .next h.runUnit

theorem execAnalogEntry_canonical {flash} (h : s.Canonical) : OutCanonical (execAnalogEntry flash s) :=
  .next h.runUnit

theorem execStartup_canonical {flash} (h : s.Canonical) : OutCanonical (execStartup flash s) :=
  .next h.runUnit

theorem execDigest_canonical {flash} (h : s.Canonical) : OutCanonical (execDigest flash s) :=
  .next h.runUnit

theorem execSignature_canonical {flash} (h : s.Canonical) : OutCanonical (execSignature flash s) :=
  .next h.runUnit

theorem execEnd_canonical {flash} (h : s.Canonical) : OutCanonical (execEnd flash s) :=
  .next h.runUnit

theorem execTwinStreamWord_canonical {w} (h : s.Canonical) : OutCanonical (execTwinStreamWord w s) :=
  .next (.ite h.setStream h)

theorem State.Canonical.bar4 {words} (h : s.Canonical) : (s.bar4 words).Canonical :=
  h.setStream.flagIf

theorem execSignatureVerification_canonical {mclk} (h : s.Canonical) : OutCanonical (execSignatureVerification mclk s) := by
  unfold execSignatureVerification
  extract_lets _ s1
  have h1 : s1.Canonical := h.setStream
  exact .ite .fault (.next (by split <;> [(split <;> [(split <;> exact h1.setF); exact h.streamFail]); exact h]))

/-! ### Machine/LoadEnd -/

theorem State.Canonical.enterWakeUp (h : s.Canonical) : s.enterWakeUp.Canonical := by
  unfold State.enterWakeUp
  extract_lets _ _ _ s1
  have h1 : s1.Canonical := { h with }
  exact h1.setF.toMode

theorem State.Canonical.verifyLoad (h : s.Canonical) : s.verifyLoad.Canonical := by
  unfold State.verifyLoad
  extract_lets _ _ s1
  have h1 : s1.Canonical := h.census
  exact .ite h.loadFail (.ite h.loadFail (.ite h (.ite h.loadFail (.ite h1.enterWakeUp h1.loadFail))))

theorem execVerify_canonical (h : s.Canonical) : OutCanonical (execVerify s) :=
  .next (.ite h.verifyLoad h)

theorem State.Canonical.applyDeferred (h : s.Canonical) : s.applyDeferred.Canonical :=
  h.foldl (fun h => h.streamWrite)

theorem State.Canonical.markCab {k secure} (h : s.Canonical) : (s.markCab k secure).Canonical :=
  setF (.ite h.setB.setWord h.setB.setWord.freeSecure)

theorem State.Canonical.releaseCab {k} (h : s.Canonical) : (s.releaseCab k).Canonical :=
  h.startCells.flushBoundary.clearCrossings.setB.setCbState.markCab.setCab

theorem State.Canonical.enableIo (h : s.Canonical) : s.enableIo.Canonical := by
  unfold State.enableIo
  extract_lets _ _ s1
  have h1 : s1.Canonical := { h with }
  exact h1.foldl (fun h => h.wmHold)

theorem State.Canonical.finishLoad {mclk} (h : s.Canonical) : (s.finishLoad mclk).Canonical := by
  unfold State.finishLoad
  extract_lets s1 s2 s3 s4 _ _ s5
  have h2 : s2.Canonical := (h.applyDeferred.foldl fun h => h.releaseCab).enableIo
  have h4 : s4.Canonical := h2.setF.setF.dropStream.toMode
  clear_value s4
  have h5 : s5.Canonical := { h4 with }
  exact h5.startConverting.pump

theorem execReferenceWait_canonical {mclk} (h : s.Canonical) : OutCanonical (execReferenceWait mclk s) :=
  .next (.ite h.finishLoad h)

theorem execRefTmo_canonical {mclk} (h : s.Canonical) : OutCanonical (execRefTmo mclk s) :=
  .next (.ite h.flag.finishLoad h)

theorem State.Canonical.regionBegin {k src ring} (h : s.Canonical) : (s.regionBegin k src ring).Canonical := by
  unfold State.regionBegin
  extract_lets _ s1 s2 s3 s4 s5 _ s6 _ s7 s8
  have h1 : s1.Canonical := h.stopPorts.isolate
  have h2 : s2.Canonical := h1.setF.resetPorts
  have h3 : s3.Canonical := h2.setWord.setWord.setF
  have h4 : s4.Canonical := h3.setF.setF.setF
  have h5 : s5.Canonical := h4.setWord
  have h6 : s6.Canonical := h5.setCbState.setMeas
  have h7 : s7.Canonical := h6.setStream
  have h8 : s8.Canonical := .ite h7.connect.pump h7
  exact .ite h8.toMode h8

theorem execRegionStreamStart_canonical (h : s.Canonical) : OutCanonical (execRegionStreamStart s) :=
  .next (by split <;> [exact .ite h.setStream h; exact h])

theorem State.Canonical.verifyRegion {k} (h : s.Canonical) : (s.verifyRegion k).Canonical := by
  unfold State.verifyRegion
  extract_lets _ _ s1 _ s2 _ s3
  have h1 : s1.Canonical := h.setCbState.setF
  have h2 : s2.Canonical := h1.setMeas
  have h3 : s3.Canonical := h2.setCab
  exact .ite h.regionFail (.ite h.regionFail (.ite h.regionFail (.ite h.regionFail h3.dropStream.flag)))

theorem execRegionVerify_canonical (h : s.Canonical) : OutCanonical (execRegionVerify s) :=
  .next (by split <;> [exact .ite h.verifyRegion h; exact h])

theorem State.Canonical.regionRelease {k} (h : s.Canonical) : (s.regionRelease k).Canonical :=
  h.stopPorts.startCells.flushBoundary.clearCrossings.markCab.endIsolation.setB.setCbState.endPartial

/-! ### Machine/View -/

theorem State.Canonical.readReg {a} (h : s.Canonical) : (s.readReg a).Canonical := by
  unfold State.readReg; dsimp only
  split
  · exact { h with }
  · exact .ite h.withReadData <| .ite h.withReadData <| .ite h.cdataRead <| .ite h.pdataRead <|
      .ite h.peek h.withReadData.setWord

/-! ### Machine/Bureau -/

theorem State.Canonical.setJob {j} (h : s.Canonical) : (s.setJob j).Canonical :=
  h.withBur

theorem State.Canonical.answer {status} (h : s.Canonical) : (s.answer status).Canonical :=
  h.setJob

theorem State.Canonical.answerOk {results} (h : s.Canonical) : (s.answerOk results).Canonical :=
  h.setJob

theorem State.Canonical.judged {code absent own k} (h : s.Canonical) (hk : ∀ {t}, t.Canonical → (k t).Canonical) :
    (s.judged code absent own k).Canonical :=
  .ite h.answer (.ite h.answer (.ite h.answer (hk h)))

theorem State.Canonical.submit {i code tag args k} (h : s.Canonical) (hk : ∀ {b t}, t.Canonical → (k b t).Canonical) :
    (s.submit i code tag args k).Canonical := by
  unfold State.submit
  extract_lets take _ s2 s3
  have htake {t b} (h : t.Canonical) : (take t b).Canonical := .ite (hk h) { h with }
  have h2 : s2.Canonical := (h.foldl fun h => h.setWord).setF.setF
  have h3 : s3.Canonical := h2.setF
  clear_value s3
  exact .ite (.ite (htake h) h.flag) (.ite h2.flag (htake { h3 with }))

theorem State.Canonical.sendBulk {r bytes results} (h : s.Canonical) : (s.sendBulk r bytes results).Canonical :=
  h.setFeed.setRing.setJob

theorem State.Canonical.takeIndex (h : s.Canonical) : s.takeIndex.Canonical :=
  (showKeys (.ite h.withBur h)).keyLow

theorem State.Canonical.writeResults {l} (h : s.Canonical) : (s.writeResults l).Canonical :=
  h.foldl (fun h => h.setWord)

theorem State.Canonical.endCommand {status} (h : s.Canonical) : (s.endCommand status).Canonical :=
  h.setF.flag.setF.setF.setF.withBur.connect.pump

theorem State.Canonical.commitSet {c} (h : s.Canonical) : (s.commitSet c).Canonical :=
  h.withCal.setF.setF.setF.setF.setF.setF

theorem State.Canonical.importRecord_fst {bytes} (h : s.Canonical) : (s.importRecord bytes).1.Canonical := by
  unfold State.importRecord
  split
  · exact h
  · split
    · exact h.loadCal.setMarks.flag.flag
    · exact h

theorem State.Canonical.jobEnds {j t status} (h : s.Canonical) (ht : s.jobEnds j = some (t, status)) : t.Canonical := by
  unfold State.jobEnds at ht; dsimp only at ht
  split at ht
  · split at ht
    · cases ht; exact h
    · split at ht
      · cases ht; exact h
      · cases ht
  · split at ht
    · cases ht; exact h
    · split at ht
      · obtain rfl : _ = t := congrArg Prod.fst (Option.some.inj ht)
        exact h.importRecord_fst
      · split at ht
        · cases ht
        · cases ht; exact h

theorem State.Canonical.complete {peer} (h : s.Canonical) : (s.complete peer).Canonical := by
  unfold State.complete; dsimp only
  split
  · exact h
  · next j _ =>
    split
    · exact h
    · next t status ht =>
      have h1 : (if status = stOk ∨ j.always then t.writeResults j.results else t).Canonical :=
        .ite (h.jobEnds ht).writeResults (h.jobEnds ht)
      refine endCommand (flagIf ?_)
      split
      · exact .ite h1.commitSet h1
      · exact h1

theorem execCommandComplete_canonical {peer} (h : s.Canonical) : OutCanonical (execCommandComplete peer s) :=
  .next (.ite h.complete h)

theorem State.Canonical.haltBureau (h : s.Canonical) : s.haltBureau.Canonical := by
  unfold State.haltBureau
  extract_lets s1
  have h1 : s1.Canonical := by
    unfold s1
    split
    · refine endCommand ?_
      split
      · exact h.setFeed.setRing
      · exact h
    · exact h
  clear_value s1
  exact .ite (resetBureauAgent (flag (addSat { h1 with }))) h

theorem execWatchdogExpiry_canonical (h : s.Canonical) : OutCanonical (execWatchdogExpiry s) :=
  .next h.haltBureau

theorem execSramUncorrectableError_canonical (h : s.Canonical) : OutCanonical (execSramUncorrectableError s) :=
  .next h.haltBureau

theorem State.Canonical.serve {c ops k} (h : s.Canonical) (hk : ∀ {t cb w}, t.Canonical → (k cb w t).1.Canonical) :
    (s.serve c ops k).Canonical := by
  unfold State.serve; dsimp only
  split
  · split
    · split
      · exact h.takeFrom.flag
      · exact .ite h (hk h.takeFrom).postOn
    · exact h
  · exact h

theorem State.Canonical.freeReply_fst {status} (h : s.Canonical) : (s.freeReply status).1.Canonical :=
  { h with }

theorem execRandom_canonical {c v} (h : s.Canonical) : OutCanonical (execRandom c v s) := by
  refine onInst_canonical (.next (h.serve fun h => ?_))
  split
  · exact h.freeReply_fst
  · exact h

theorem execDigestRequest_canonical {c} (h : s.Canonical) : OutCanonical (execDigestRequest c s) :=
  onInst_canonical (.next (h.serve fun h => h))

theorem State.Canonical.claim_fst {high k w} (h : s.Canonical) : (s.claim high k w).1.Canonical :=
  h.setWord

theorem execClaimLow_canonical {c} (h : s.Canonical) : OutCanonical (execClaimLow c s) :=
  onInst_canonical (.next (h.serve fun h => h.claim_fst))

theorem execClaimHigh_canonical {c} (h : s.Canonical) : OutCanonical (execClaimHigh c s) :=
  onInst_canonical (.next (h.serve fun h => h.claim_fst))

theorem execUnknownSecureOp_canonical {c} (h : s.Canonical) : OutCanonical (execUnknownSecureOp c s) :=
  onInst_canonical (.next (h.serve fun h => h.freeReply_fst))

/-! ### Machine/Cal -/

theorem State.Canonical.runSlice_fst {g sl m} (h : s.Canonical) : (s.runSlice g sl m).1.Canonical := by
  unfold State.runSlice
  extract_lets _ a b t
  have hb : b.1.Canonical := by
    unfold b
    split
    · exact h.calSlice_fst
    · exact h.calSlice_fst.calSlice_fst
  exact hb.setB.flagIf

theorem State.Canonical.runTarget_fst {a t vstd m} (h : s.Canonical) : (s.runTarget a t vstd m).1.Canonical := by
  cases t with
  | monitor n =>
    unfold State.runTarget; dsimp only
    split
    · exact h
    · exact h.foldl fun h => h.calField_fst
  | slice g sl => exact h.runSlice_fst
  | rbuf q =>
    unfold State.runTarget; dsimp only
    refine foldl ?_ fun h => h.calField_fst
    split
    · exact h.setWord
    · exact h
  | cell c => exact foldl (h.foldl fun h => .ite h.setCell h) fun h => h.calField_fst
  | cdac _ | port _ | dac _ => exact h.foldl fun h => h.calField_fst

theorem State.Canonical.runTargets_fst {a vstd ts ms} (h : s.Canonical) : (s.runTargets a vstd ts ms).1.Canonical := by
  induction ts generalizing s a ms with
  | nil => exact h
  | cons t ts ih => exact ih h.runTarget_fst

theorem State.Canonical.calRun {meas} (h : s.Canonical) : (s.calRun meas).Canonical :=
  .ite h.answer (h.runTargets_fst.foldl (fun h => h.refillMap)).flag.flag.setJob

theorem State.Canonical.takeCalRun {own meas} (h : s.Canonical) : (s.takeCalRun own meas).Canonical :=
  h.judged (fun h => h.calRun)

theorem execCalRun_canonical {tag args meas} (h : s.Canonical) : OutCanonical (execCalRun tag args meas s) :=
  .next (h.submit (fun h => h.takeCalRun))

theorem State.Canonical.refuseCommit {status why} (h : s.Canonical) : (s.refuseCommit status why).Canonical :=
  h.setF.answer

theorem State.Canonical.calCommit (h : s.Canonical) : s.calCommit.Canonical :=
  .ite h.refuseCommit (.ite h.refuseCommit (.ite h.refuseCommit (.ite h.answer h.takeIndex.setJob)))

theorem State.Canonical.takeCalCommit {own} (h : s.Canonical) : (s.takeCalCommit own).Canonical :=
  h.judged (fun h => h.calCommit)

theorem execCalCommit_canonical {tag args} (h : s.Canonical) : OutCanonical (execCalCommit tag args s) :=
  .next (h.submit (fun h => h.takeCalCommit))

theorem State.Canonical.calExport (h : s.Canonical) : s.calExport.Canonical := by
  unfold State.calExport; dsimp only
  split
  · exact h.answer
  · split
    · exact .ite h.sendBulk h.answer
    · exact h.answer

theorem State.Canonical.takeCalExport {own} (h : s.Canonical) : (s.takeCalExport own).Canonical :=
  h.judged (fun h => h.calExport)

theorem execCalExport_canonical {tag args} (h : s.Canonical) : OutCanonical (execCalExport tag args s) :=
  .next (h.submit (fun h => h.takeCalExport))

theorem State.Canonical.calImport (h : s.Canonical) : s.calImport.Canonical :=
  .ite h.answer h.withBur.connect.setJob.pump

theorem State.Canonical.takeCalImport {own} (h : s.Canonical) : (s.takeCalImport own).Canonical :=
  h.judged (fun h => h.calImport)

theorem execCalImport_canonical {tag args} (h : s.Canonical) : OutCanonical (execCalImport tag args s) :=
  .next (h.submit (fun h => h.takeCalImport))

theorem execTempConversion_canonical {k raw} (h : s.Canonical) : OutCanonical (execTempConversion k raw s) :=
  onInst_canonical (.next (.ite h h.setF.setF.firstReading))

/-! ### Machine/Power -/

theorem State.Canonical.armWake {t forTick} (h : s.Canonical) : (s.armWake t forTick).Canonical :=
  h.withPwr.setPair

theorem State.Canonical.stopSensors (h : s.Canonical) : s.stopSensors.Canonical :=
  h.foldl (fun h => .ite h h.setF)

theorem State.Canonical.enterLow {c} (h : s.Canonical) : (s.enterLow c).Canonical := by
  unfold State.enterLow
  extract_lets s1 s2 s3 s4 s5 _ s6
  have h1 : s1.Canonical := h.armWake
  have h2 : s2.Canonical := h1.latchPins
  have h3 : s3.Canonical := .ite h2 h2.stopConverting
  have h4 : s4.Canonical := .ite h3.writeHeld.flushRings.clearHeld.stopSensors h3
  have h5 : s5.Canonical := h4.toMode
  have h6 : s6.Canonical := { h5 with }
  split <;> exact h6.addWrap

theorem State.Canonical.moveWake (h : s.Canonical) : s.moveWake.Canonical := by
  unfold State.moveWake; dsimp only
  split
  · exact h
  · exact .ite h (.ite h.armWake.wake h.armWake)

theorem State.Canonical.exitLow (h : s.Canonical) : s.exitLow.Canonical := by
  unfold State.exitLow
  extract_lets _ _ _ _ s1 s2 s3 _ _ _ s4 s5 s6
  have h1 : s1.Canonical := h.toMode
  have h2 : s2.Canonical := h1.armWake.flag
  have h3 : s3.Canonical := h2.flagIf
  have h4 : s4.Canonical := { h3 with }
  have h5 : s5.Canonical := .ite h4.dueOnReturn.startConverting h4
  have h6 : s6.Canonical := .ite h5.restartAz h5
  exact h6.pump

theorem execNextEventUpdate_canonical {t peer} (h : s.Canonical) : OutCanonical (execNextEventUpdate t peer s) := by
  have h1 := h.updateNext (tick := t)
  refine .ite (.next h) (.ite (.next ?_) (.ite (.next ?_) (.ite (.next h1.moveWake) (.next h1))))
  · split
    · exact .ite (.ite h1.enterLow h1) (.ite h1.wakeOwn h1)
    · exact h1
  · split
    · exact h1
    · split
      · exact h1.enterLow
      · exact h1

theorem execSelfWake_canonical (h : s.Canonical) : OutCanonical (execSelfWake s) := by
  unfold execSelfWake; dsimp only
  split
  · exact .next (.ite h.atTick.wake h.atTick)
  · exact .next h

theorem execPowerStateEntry_canonical (h : s.Canonical) : OutCanonical (execPowerStateEntry s) :=
  .ite (.next (.ite (State.Canonical.leave (.ite h.flushRings h)) (State.Canonical.withPwr (.ite h.flushRings h)))) (.next h)

theorem execPowerStateExit_canonical {t} (h : s.Canonical) : OutCanonical (execPowerStateExit t s) :=
  .ite (.next h.atTick.exitLow) (.next h)

theorem execWakeNRelease_canonical (h : s.Canonical) : OutCanonical (execWakeNRelease s) :=
  .next h.withPins

/-! ### Machine/Twin -/

theorem State.Canonical.toSolo {primary} (h : s.Canonical) : (s.toSolo primary).Canonical :=
  h.withTwin.setB.setB.resetTwinAgent

theorem State.Canonical.split (h : s.Canonical) : s.split.Canonical :=
  (toSolo (.ite h.retireRings.withTwin.replayLevel h)).flag

theorem State.Canonical.fence (h : s.Canonical) : s.fence.Canonical :=
  (h.foldl (fun h => .ite h h.closeBlock.writeBlocks)).withTwin.toSolo

theorem State.Canonical.replayRing {r} (h : s.Canonical) : (s.replayRing r).Canonical :=
  (h.setRing.foldl (fun h => h.passBlock)).setRing.withTwin

theorem State.Canonical.markWaiting (h : s.Canonical) : s.markWaiting.Canonical := by
  refine { h with feeds := Tab.wf_map_snd h.feeds ?_ ?_ }
  · intro e; split <;> rfl
  · intro e he
    dsimp only
    split
    · next hs =>
      intro h0
      have : e.2.src = 0 := congrArg Feed.src h0
      omega
    · exact he

theorem State.Canonical.takeover {cause} (h : s.Canonical) : (s.takeover cause).Canonical := by
  unfold State.takeover
  extract_lets s1 _ s2 s3 s4 s5
  have h1 : s1.Canonical := h.markWaiting.foldl (fun h => .ite h h.replayRing)
  have h2 : s2.Canonical := h1.withTwin.replayLevel
  have h3 : s3.Canonical := h2.toSolo.setF
  have h4 : s4.Canonical := h3.setPair.addWrap
  have h5 : s5.Canonical := h4.flag
  exact h5.foldl (fun h => .ite h h.writeBlocks)

theorem State.Canonical.triggered {cause} (h : s.Canonical) : (s.triggered cause).Canonical :=
  .ite h.split.setF h.fence

theorem State.Canonical.trigger {cause} (h : s.Canonical) : (s.trigger cause).Canonical :=
  .ite (.ite h.triggered h.withTwin) h

theorem State.Canonical.heartbeatLost (h : s.Canonical) : s.heartbeatLost.Canonical :=
  .ite (.ite h.setB.setB.takeover h.setB.setB.withTwin) h.setB.setB

theorem State.Canonical.splits {cause} (h : s.Canonical) : (s.splits cause).Canonical :=
  .ite h (.ite h.split.setF h.withTwin)

theorem State.Canonical.resumeTrigger (h : s.Canonical) : s.resumeTrigger.Canonical := by
  unfold State.resumeTrigger; dsimp only
  split
  · exact h
  · exact .ite h.takeover h.withTwin
  · exact .ite h.withTwin.splits h.withTwin.trigger

theorem State.Canonical.scrubEvent {k corrected} (h : s.Canonical) : (s.scrubEvent k corrected).Canonical :=
  .ite (.ite h h.withTwin) (trigger (.ite h h.withTwin))

theorem execRotationCheck_canonical (h : s.Canonical) : OutCanonical (execRotationCheck s) := by
  unfold execRotationCheck
  extract_lets _ s1 s2
  have h1 : s1.Canonical := { h with }
  have h2 : s2.Canonical := h1.foldl (fun h => h.rotCheck)
  exact .next (.ite (.ite h2.trigger h2) h1)

theorem State.Canonical.placeAgain {r blocks} (h : s.Canonical) : (s.placeAgain r blocks).Canonical :=
  h.foldl (fun ht => foldl (.ite ht.closeBlock.setRing ht) (fun h => h.placeWord))

theorem State.Canonical.cutAt {r idx} (h : s.Canonical) : (s.cutAt r idx).Canonical := by
  unfold State.cutAt; dsimp only
  split
  · exact { h with }
  · exact .ite h h.withTwin.setRing.placeAgain.replayLevel

theorem State.Canonical.hear {r seq} (h : s.Canonical) : (s.hear r seq).Canonical :=
  h.withTwin.confirm

theorem execHeartbeat_canonical {lanes strobe seqs closes} (h : s.Canonical) :
    OutCanonical (execHeartbeat lanes strobe seqs closes s) :=
  .ite (.next h) (.next (.ite ((h.setB.setB.foldl (fun h => h.cutAt)).foldl (fun h => h.hear)) h.setB.setB))

theorem execHeartbeatLoss_canonical (h : s.Canonical) : OutCanonical (execHeartbeatLoss s) :=
  .next (.ite h.heartbeatLost h)

theorem execPrimaryPllLoss_canonical (h : s.Canonical) : OutCanonical (execPrimaryPllLoss s) :=
  .next (.ite h h.trigger)

theorem execFenced_canonical {cause seqs} (h : s.Canonical) : OutCanonical (execFenced cause seqs s) :=
  .next (.ite ((h.foldl (fun h => by split <;> [exact h.cutAt; exact h])).foldl (fun h => h.hear)).takeover h)

theorem execTwinCompare_canonical {k differ peer} (h : s.Canonical) : OutCanonical (execTwinCompare k differ peer s) := by
  have h1 {x} : ({ s with twin := x } : State).Canonical := { h with }
  exact ifPresent_canonical h (.next (.ite (.ite h1 <| .ite h1.splits <| .ite h1.trigger <| .ite h1.trigger h1.addSat.flag) h))

theorem State.Canonical.peerLoadFails (h : s.Canonical) : s.peerLoadFails.Canonical :=
  .ite h.loadFail h

theorem State.Canonical.setLink {good} (h : s.Canonical) : (s.setLink good).Canonical := by
  unfold State.setLink
  extract_lets _ s1 _ _ s2 s3
  have h1 : s1.Canonical := h.foldl (fun h => h.setB)
  have h2 : s2.Canonical := h1.setF.setB
  have h3 : s3.Canonical := h2.flagIf
  exact .ite h3.resetTwinAgent.peerLoadFails h3

theorem execLaneErrorBurst_canonical (h : s.Canonical) : OutCanonical (execLaneErrorBurst s) :=
  .next (.ite h.withTwin h)

theorem execBunkLinkTraining_canonical {eyes} (h : s.Canonical) : OutCanonical (execBunkLinkTraining eyes s) :=
  .ite .fault (.next (.ite (h.foldl (fun h => h.setF)).withTwin.setLink h))

theorem execLinkDown_canonical (h : s.Canonical) : OutCanonical (execLinkDown s) :=
  .next (.ite h.setLink.setB.peerLoadFails h)

/-! ### Machine/Commands -/

theorem State.Canonical.getInfo (h : s.Canonical) : s.getInfo.Canonical :=
  .ite h.answerOk (.ite h.answer h.sendBulk)

theorem State.Canonical.takeGetInfo {own} (h : s.Canonical) : (s.takeGetInfo own).Canonical :=
  h.judged (fun h => h.getInfo)

theorem execGetInfo_canonical {tag args} (h : s.Canonical) : OutCanonical (execGetInfo tag args s) :=
  .next (h.submit (fun h => h.takeGetInfo))

theorem State.Canonical.setModeCmd (h : s.Canonical) : s.setModeCmd.Canonical := by
  unfold State.setModeCmd; dsimp only
  split
  · exact h.answer
  · split
    · exact h.answer
    · split
      · exact .ite h.goBench.answer h.answer
      · exact .ite h.goBench.answer h.goBlank.answer
      · exact .ite h.goBlank.answer h.answer
      · exact .ite h.answer (.ite h.goBlank.answer h.benchToRun.answer)
      · exact .ite h.wakeOwn.answer h.answer
      · exact .ite h.wakeOwn.answer h.answer
      · exact .ite h.wakeOwn.answer h.answer
      · exact h.answer

theorem State.Canonical.takeSetMode {own} (h : s.Canonical) : (s.takeSetMode own).Canonical :=
  h.judged (fun h => h.setModeCmd)

theorem execSetMode_canonical {tag args} (h : s.Canonical) : OutCanonical (execSetMode tag args s) :=
  .next (h.submit (fun h => h.takeSetMode))

theorem State.Canonical.takeGetMode {own} (h : s.Canonical) : (s.takeGetMode own).Canonical :=
  h.judged (fun h => h.answerOk)

theorem execGetMode_canonical {tag args} (h : s.Canonical) : OutCanonical (execGetMode tag args s) :=
  .next (h.submit (fun h => h.takeGetMode))

theorem State.Canonical.cfgBegin (h : s.Canonical) : s.cfgBegin.Canonical :=
  .ite h.answer h.goLoad.answer

theorem State.Canonical.takeCfgBegin {own} (h : s.Canonical) : (s.takeCfgBegin own).Canonical :=
  h.judged (fun h => h.cfgBegin)

theorem execCfgBegin_canonical {tag args} (h : s.Canonical) : OutCanonical (execCfgBegin tag args s) :=
  .next (h.submit (fun h => h.takeCfgBegin))

theorem State.Canonical.cfgAbort (h : s.Canonical) : s.cfgAbort.Canonical := by
  unfold State.cfgAbort; dsimp only
  split
  · exact h.setF.setF.goBlank.answer
  · split
    · exact h.regionFail.answer
    · exact h.answer

theorem State.Canonical.takeCfgAbort {own} (h : s.Canonical) : (s.takeCfgAbort own).Canonical :=
  h.judged (fun h => h.cfgAbort)

theorem execCfgAbort_canonical {tag args} (h : s.Canonical) : OutCanonical (execCfgAbort tag args s) :=
  .next (h.submit (fun h => h.takeCfgAbort))

theorem State.Canonical.takeCfgStatus {own} (h : s.Canonical) : (s.takeCfgStatus own).Canonical :=
  h.judged (fun h => h.answerOk)

theorem execCfgStatus_canonical {tag args} (h : s.Canonical) : OutCanonical (execCfgStatus tag args s) :=
  .next (h.submit (fun h => h.takeCfgStatus))

theorem State.Canonical.regionLoadBegin (h : s.Canonical) : s.regionLoadBegin.Canonical :=
  .ite h.answer (.ite h.answer h.regionBegin.answer)

theorem State.Canonical.takeRegionLoadBegin {own} (h : s.Canonical) : (s.takeRegionLoadBegin own).Canonical :=
  h.judged (fun h => h.regionLoadBegin)

theorem execRegionLoadBegin_canonical {tag args} (h : s.Canonical) : OutCanonical (execRegionLoadBegin tag args s) :=
  .next (h.submit (fun h => h.takeRegionLoadBegin))

theorem State.Canonical.regionReleaseCmd (h : s.Canonical) : s.regionReleaseCmd.Canonical :=
  .ite h.answer (.ite h.answer h.regionRelease.answer)

theorem State.Canonical.takeRegionRelease {own} (h : s.Canonical) : (s.takeRegionRelease own).Canonical :=
  h.judged (fun h => h.regionReleaseCmd)

theorem execRegionRelease_canonical {tag args} (h : s.Canonical) : OutCanonical (execRegionRelease tag args s) :=
  .next (h.submit (fun h => h.takeRegionRelease))

theorem State.Canonical.rotateNow (h : s.Canonical) : s.rotateNow.Canonical :=
  .ite h.answer (.ite h.answer (.ite h.answer h.setRot.rotDue.answer))

theorem State.Canonical.takeRotateNow {own} (h : s.Canonical) : (s.takeRotateNow own).Canonical :=
  h.judged (fun h => h.rotateNow)

theorem execRotateNow_canonical {tag args} (h : s.Canonical) : OutCanonical (execRotateNow tag args s) :=
  .next (h.submit (fun h => h.takeRotateNow))

theorem State.Canonical.chanAlloc (h : s.Canonical) : s.chanAlloc.Canonical := by
  unfold State.chanAlloc; dsimp only
  split
  · refine .ite h.answer ?_
    split
    · exact h.answer
    · exact h.allocChan.answerOk
  · exact h.answer

theorem State.Canonical.takeChanAlloc {own} (h : s.Canonical) : (s.takeChanAlloc own).Canonical :=
  h.judged (fun h => h.chanAlloc)

theorem execChanAlloc_canonical {tag args} (h : s.Canonical) : OutCanonical (execChanAlloc tag args s) :=
  .next (h.submit (fun h => h.takeChanAlloc))

theorem State.Canonical.chanFree (h : s.Canonical) : s.chanFree.Canonical :=
  .ite h.answer (.ite h.freeChan.answer h.answer)

theorem State.Canonical.takeChanFree {own} (h : s.Canonical) : (s.takeChanFree own).Canonical :=
  h.judged (fun h => h.chanFree)

theorem execChanFree_canonical {tag args} (h : s.Canonical) : OutCanonical (execChanFree tag args s) :=
  .next (h.submit (fun h => h.takeChanFree))

theorem State.Canonical.ringAdmit {peer} (h : s.Canonical) : (s.ringAdmit peer).Canonical :=
  .ite h.admitRing.answer.pump h.answer

theorem State.Canonical.takeRingAdmit {own peer} (h : s.Canonical) : (s.takeRingAdmit own peer).Canonical :=
  h.judged (fun h => h.ringAdmit)

theorem execRingAdmit_canonical {tag args peer} (h : s.Canonical) : OutCanonical (execRingAdmit tag args peer s) :=
  .next (h.submit (fun h => h.takeRingAdmit))

theorem State.Canonical.ringRetire (h : s.Canonical) : s.ringRetire.Canonical :=
  .ite h.endRing.answer.pump h.answer

theorem State.Canonical.takeRingRetire {own} (h : s.Canonical) : (s.takeRingRetire own).Canonical :=
  h.judged (fun h => h.ringRetire)

theorem execRingRetire_canonical {tag args} (h : s.Canonical) : OutCanonical (execRingRetire tag args s) :=
  .next (h.submit (fun h => h.takeRingRetire))

theorem State.Canonical.attest (h : s.Canonical) : s.attest.Canonical :=
  .ite h.answer (.ite h.keyLow.answer h.takeIndex.sendBulk)

theorem State.Canonical.takeAttest {own} (h : s.Canonical) : (s.takeAttest own).Canonical :=
  h.judged (fun h => h.attest)

theorem execAttest_canonical {tag args} (h : s.Canonical) : OutCanonical (execAttest tag args s) :=
  .next (h.submit (fun h => h.takeAttest))

theorem State.Canonical.blow {bits} (h : s.Canonical) : (s.blow bits).Canonical :=
  h.withBur.setWord

theorem State.Canonical.keyEnroll {good} (h : s.Canonical) : (s.keyEnroll good).Canonical :=
  .ite (.ite h.answer (.ite h.answer h.blow.answer)) (.ite h.answer (.ite h.answer h.withBur.blow.answer))

theorem State.Canonical.takeKeyEnroll {own good} (h : s.Canonical) : (s.takeKeyEnroll own good).Canonical :=
  h.judged (fun h => h.keyEnroll)

theorem execKeyEnroll_canonical {tag args good} (h : s.Canonical) : OutCanonical (execKeyEnroll tag args good s) :=
  .next (h.submit (fun h => h.takeKeyEnroll))

theorem State.Canonical.policySet (h : s.Canonical) : s.policySet.Canonical :=
  setJob (.ite h.blow h)

theorem State.Canonical.takePolicySet {own} (h : s.Canonical) : (s.takePolicySet own).Canonical :=
  h.judged (fun h => h.policySet)

theorem execPolicySet_canonical {tag args} (h : s.Canonical) : OutCanonical (execPolicySet tag args s) :=
  .next (h.submit (fun h => h.takePolicySet))

theorem State.Canonical.copyPrimary {p} (h : s.Canonical) : (s.copyPrimary p).Canonical := by
  unfold State.copyPrimary
  extract_lets s1
  have h1 : s1.Canonical := h.foldl fun h => .ite h.copyReg h
  exact { h1 with pdir := Tab.wf_foldl_put _ _ _ _ rfl }

theorem State.Canonical.pair {primary p} (h : s.Canonical) : (s.pair primary p).Canonical :=
  (flag (.ite h.withTwin h.withTwin.copyPrimary)).setB.replayLevel.resetTwinAgent

theorem State.Canonical.pairEnds {st} (h : s.Canonical) : (s.pairEnds st).Canonical :=
  h.setJob

theorem State.Canonical.twinPair {p} (h : s.Canonical) : (s.twinPair p).Canonical :=
  pairEnds (.ite h.pair h)

theorem State.Canonical.takeTwinPair {own p} (h : s.Canonical) : (s.takeTwinPair own p).Canonical :=
  h.judged (fun h => .ite h.pairEnds h.twinPair)

theorem execTwinPair_canonical {tag args p there} (h : s.Canonical) : OutCanonical (execTwinPair tag args p there s) :=
  .next (by split <;> [exact h.submit (fun h => h.takeTwinPair); exact .ite h.pair h])

theorem State.Canonical.twinSplit (h : s.Canonical) : s.twinSplit.Canonical :=
  .ite h.split.answer h.answer

theorem State.Canonical.takeTwinSplit {own} (h : s.Canonical) : (s.takeTwinSplit own).Canonical :=
  h.judged (fun h => h.twinSplit)

theorem execTwinSplit_canonical {tag args there} (h : s.Canonical) : OutCanonical (execTwinSplit tag args there s) :=
  .next (by split <;> [exact h.submit (fun h => h.takeTwinSplit); exact .ite (.ite h.split h.split.setF) h])

theorem State.Canonical.pwrCeiling (h : s.Canonical) : s.pwrCeiling.Canonical :=
  .ite h.answer (answerOk (.ite h.setF.wakeOwn h.setF))

theorem State.Canonical.takePwrCeiling {own} (h : s.Canonical) : (s.takePwrCeiling own).Canonical :=
  h.judged (fun h => h.pwrCeiling)

theorem execPwrCeiling_canonical {tag args} (h : s.Canonical) : OutCanonical (execPwrCeiling tag args s) :=
  .next (h.submit (fun h => h.takePwrCeiling))

theorem State.Canonical.takeUnknown (h : s.Canonical) : s.takeUnknown.Canonical :=
  h.answer

theorem execUnknownCommandCode_canonical {code tag} (h : s.Canonical) : OutCanonical (execUnknownCommandCode code tag s) :=
  .ite .fault (.next (h.submit (fun h => h.takeUnknown)))

theorem State.Canonical.takeWaiting {i} (h : s.Canonical) : (s.takeWaiting i).Canonical := by
  unfold State.takeWaiting; dsimp only
  split
  · exact h.takeGetInfo
  · exact h.takeSetMode
  · exact h.takeGetMode
  · exact h.takeCfgBegin
  · exact h.takeCfgAbort
  · exact h.takeCfgStatus
  · exact h.takeRegionLoadBegin
  · exact h.takeRegionRelease
  · exact h.takeCalRun
  · exact h.takeCalCommit
  · exact h.takeCalExport
  · exact h.takeCalImport
  · exact h.takeRotateNow
  · exact h.takeChanAlloc
  · exact h.takeChanFree
  · exact h.takeRingAdmit
  · exact h.takeRingRetire
  · exact h.takeAttest
  · exact h.takeKeyEnroll
  · exact h.takePolicySet
  · exact h.takeTwinPair
  · exact h.takeTwinSplit
  · exact h.takePwrCeiling
  · exact h.takeUnknown
  · exact h

theorem State.Canonical.resumeBureau {err} (h : s.Canonical) : (s.resumeBureau err).Canonical := by
  unfold State.resumeBureau; dsimp only
  split
  · exact h
  · split
    · exact h.withBur.setF.setF
    · split
      · exact h.withBur.showKeys.keyLow.busUpdates.resumeTrigger.withBur.takeWaiting
      · exact h.withBur.showKeys.keyLow.busUpdates.resumeTrigger

theorem execFirmwareResume_canonical {err} (h : s.Canonical) : OutCanonical (execFirmwareResume err s) :=
  .ite .fault (.next h.resumeBureau)

/-! ### Machine/Firing -/

theorem State.Canonical.firingCg {g r} (h : s.Canonical) : (s.firingCg g r).Canonical :=
  .ite h h.setGroup.xovf

theorem State.Canonical.firingFc {n r} (h : s.Canonical) : (s.firingFc n r).Canonical :=
  .ite h h.setChain.xovf

theorem State.Canonical.firingDa {d r} (h : s.Canonical) : (s.firingDa d r).Canonical :=
  .ite h h.setDac.xovf

theorem State.Canonical.broadcast (h : s.Canonical) : s.broadcast.Canonical := by
  unfold State.broadcast; dsimp only
  split
  · exact h
  · exact (((h.withLcs.foldl (fun h => h.firingCg)).foldl (fun h => h.firingFc)).foldl (fun h => h.firingDa)).wmBroadcast

theorem State.Canonical.perform {k f} (h : s.Canonical) (hf : ∀ {r t}, t.Canonical → (f r t).Canonical) :
    (s.perform k f).Canonical := by
  unfold State.perform
  split
  · exact h
  · exact hf { h with }

theorem State.Canonical.eventPulse {r} (h : s.Canonical) : (s.eventPulse r).Canonical :=
  .ite h (h.withLcs.foldl (fun h => h.setLineX.xovf))

theorem State.Canonical.ringDoorbell {r} (h : s.Canonical) : (s.ringDoorbell r).Canonical :=
  .ite h.setDoorbell h.flag

theorem State.Canonical.firingIrq {r} (h : s.Canonical) : (s.firingIrq r).Canonical :=
  .ite h.setBit h.setBit

theorem execFiringRecord_canonical (h : s.Canonical) : OutCanonical (execFiringRecord s) :=
  .next (.ite h.broadcast h)

theorem execEvent_canonical (h : s.Canonical) : OutCanonical (execEvent s) :=
  .next (.ite (h.perform (fun h => h.eventPulse)) h)

theorem execDoorbell_canonical (h : s.Canonical) : OutCanonical (execDoorbell s) :=
  .next (.ite (h.perform (fun h => h.ringDoorbell)) h)

theorem execWake_canonical (h : s.Canonical) : OutCanonical (execWake s) :=
  .next (.ite (h.perform (fun h => h.wake)) h)

theorem execIrq_canonical (h : s.Canonical) : OutCanonical (execIrq s) :=
  .next (.ite (h.perform (fun h => h.firingIrq)) h)

/-! ### Machine/HostIf -/

theorem State.Canonical.sendMessage {f v} (h : s.Canonical) : (s.sendMessage f v).Canonical :=
  h.hostWrite

theorem State.Canonical.lookVector {f v} (h : s.Canonical) : (s.lookVector f v).Canonical :=
  setVec (.ite h.sendMessage h)

theorem State.Canonical.afterAccess {before : State} (h : s.Canonical) : (s.afterAccess before).Canonical :=
  h.noteVectors

theorem State.Canonical.resetTable {f} (h : s.Canonical) : (s.resetTable f).Canonical :=
  h.resetRegs.withHost.foldl (fun h => .ite h.setVec h)

theorem execMsixMessage_canonical {func v} (h : s.Canonical) : OutCanonical (execMsixMessage func v s) :=
  onInst_canonical (onInst_canonical (.next h.lookVector))

theorem State.Canonical.completes {c} (h : s.Canonical) : (s.completes c).Canonical :=
  h.withHost

theorem State.Canonical.noFunction (h : s.Canonical) : s.noFunction.Canonical :=
  h.completes

theorem State.Canonical.badOfs {func bar ofs} (h : s.Canonical) : (s.badOfs func bar ofs).Canonical :=
  h.setF.setF.setF

theorem State.Canonical.readWord {func bar ofs} (h : s.Canonical) : (s.readWord func bar ofs).Canonical := by
  unfold State.readWord; dsimp only
  split
  · exact h.readReg
  · split
    · exact .ite h.readReg h.withReadData
    · exact { h with }
    · exact h.withReadData.flag.badOfs
  · split
    · exact h.msgTake
    · split
      · exact { h with }
      · exact h.badPage.withReadData

theorem State.Canonical.writeWord {func bar ofs w} (h : s.Canonical) : (s.writeWord func bar ofs w).Canonical := by
  unfold State.writeWord; dsimp only
  split
  · exact .ite h.writeReg h.flag.badOfs
  · split
    · exact .ite (.ite h.writeReg h.flag.badOfs) h.writePlain
    · exact h
    · exact h.flag.badOfs
  · exact h.pageWrite

theorem State.Canonical.writeWords {x} (h : s.Canonical) : (s.writeWords x).Canonical :=
  h.foldl (fun h => .ite h.flag.badOfs h.writeWord)

theorem State.Canonical.readWords {x} (h : s.Canonical) : (s.readWords x).Canonical :=
  (h.foldlFst (fun h => h.readWord)).completes

theorem State.Canonical.applyAccess {x mirror} (h : s.Canonical) : (s.applyAccess x mirror).Canonical :=
  afterAccess (.ite (withBur (.ite h.writeWords h.readWords)) (.ite h.writeWords h.readWords))

theorem State.Canonical.holdAccess {x mirror} (h : s.Canonical) : (s.holdAccess x mirror).Canonical :=
  h.withHost

theorem State.Canonical.releaseHeld (h : s.Canonical) : s.releaseHeld.Canonical :=
  h.withHost.foldl (fun h => .ite h.holdAccess h.applyAccess)

theorem State.Canonical.performAccess {x mirror} (h : s.Canonical) : (s.performAccess x mirror).Canonical :=
  .ite (holdAccess (.ite h.releaseHeld h)) (applyAccess (.ite h.releaseHeld h))

theorem State.Canonical.standbyWrite {x} (h : s.Canonical) : (s.standbyWrite x).Canonical :=
  h.foldl (fun h => .ite h.flag h.performAccess)

theorem State.Canonical.refuseRequest {x} (h : s.Canonical) : (s.refuseRequest x).Canonical :=
  .ite h.aer h.aer.aerAdvisory.completes

theorem State.Canonical.deliverAccess {x} (h : s.Canonical) : (s.deliverAccess x).Canonical :=
  .ite (.ite h.standbyWrite (.ite h.completes h.performAccess)) (.ite (withTwin (.ite h h.completes)) h.performAccess)

theorem State.Canonical.hostAccess {x} (h : s.Canonical) : (s.hostAccess x).Canonical :=
  .ite h.noFunction (.ite h.completes (.ite h.flag.refuseRequest (.ite h.aer h.deliverAccess)))

theorem State.Canonical.atAccess {tick} (h : s.Canonical) : (s.atAccess tick).Canonical :=
  .ite h.atTick h

theorem execRegisterWrite_canonical {tick x} (h : s.Canonical) : OutCanonical (execRegisterWrite tick x s) :=
  .ite (.next h.atAccess.hostAccess) .fault

theorem execRcRead_canonical {tick x} (h : s.Canonical) : OutCanonical (execRcRead tick x s) :=
  .ite (.next h.atAccess.hostAccess) .fault

theorem execForwardedWrite_canonical {tick peer} (h : s.Canonical) : OutCanonical (execForwardedWrite tick peer s) := by
  refine .ite .fault (.next ?_)
  have h1 := h.atAccess (tick := tick)
  split
  · exact .ite h1.performAccess.addWrap h1.performAccess
  · exact h1
  · exact .ite (.ite h1.withTwin.performAccess.addWrap h1.withTwin.performAccess) h1
  · exact h1

theorem State.Canonical.withLook {s t : State} (h1 : t.Canonical) : (s.withLook t).Canonical :=
  h1.afterAccess

theorem State.Canonical.onPage {func c k} (h : s.Canonical) (hk : ∀ {t}, t.Canonical → (k t).Canonical) :
    (s.onPage func c k).Canonical :=
  .ite (hk h).withLook h.noFunction

theorem execMsgPost_canonical {func c w} (h : s.Canonical) : OutCanonical (execMsgPost func c w s) :=
  onInst_canonical (onInst_canonical (.next (h.onPage (fun h => h.pageWrite.counted))))

theorem execMsgTake_canonical {func c} (h : s.Canonical) : OutCanonical (execMsgTake func c s) :=
  onInst_canonical (onInst_canonical (.next (h.onPage (fun h => h.msgTake))))

theorem execDbSet_canonical {func c w} (h : s.Canonical) : OutCanonical (execDbSet func c w s) :=
  onInst_canonical (onInst_canonical (.next (h.onPage (fun h => h.pageWrite.counted))))

theorem execDbClr_canonical {func c w} (h : s.Canonical) : OutCanonical (execDbClr func c w s) :=
  onInst_canonical (onInst_canonical (.next (h.onPage (fun h => h.pageWrite.counted))))

theorem execSourceWrite_canonical {a w} (h : s.Canonical) : OutCanonical (execSourceWrite a w s) :=
  hostRow_canonical (.ite (.next h.writeWord) .fault)

theorem execBar4Write_canonical {words} (h : s.Canonical) : OutCanonical (execBar4Write words s) :=
  .next (.ite h.bar4 h)

theorem execFetchCompletion_canonical {r data} (h : s.Canonical) : OutCanonical (execFetchCompletion r data s) :=
  onInst_canonical (.ite .fault (.next (.ite h.fetched h)))

theorem State.Canonical.dropAccesses {p} (h : s.Canonical) : (s.dropAccesses p).Canonical := by
  unfold State.dropAccesses
  extract_lets _ s1
  have h1 : s1.Canonical := h.xrst
  exact { h1 with }

theorem State.Canonical.resetFuncs {p flr} (h : s.Canonical) : (s.resetFuncs p flr).Canonical :=
  (h.dropAccesses.foldl (fun h => h.setFunc.retireRings)).resetAgents.foldl (fun h => h.resetTable)

theorem State.Canonical.dropVfs {n} (h : s.Canonical) : (s.dropVfs n).Canonical :=
  h.resetFuncs.setF

theorem State.Canonical.configure {func item} (h : s.Canonical) : (s.configure func item).Canonical := by
  unfold State.configure; dsimp only
  split
  · exact h.completes
  · exact h.completes
  · exact h.completes
  · exact h.completes
  · exact h.completes
  · exact h.completes
  · exact h.setFunc.completes
  · exact h.setFunc.completes
  · exact h.setFunc.completes.pump
  · exact h.setFunc.completes.pump
  · exact h.setFunc.afterAccess.completes
  · exact h.setFunc.afterAccess.completes
  · exact .ite h.dropVfs.completes h.completes
  · exact .ite h.withHost.completes h.completes

theorem execConfigRequest_canonical {func item} (h : s.Canonical) : OutCanonical (execConfigRequest func item s) :=
  onInst_canonical (.next (.ite h.completes (.ite h.completes (.ite h.configure h.completes))))

theorem State.Canonical.trained {speed width mps mrrs} (h : s.Canonical) : (s.trained speed width mps mrrs).Canonical :=
  h.flag.setF.setF.setF.setF.flagIf.withHost.setF.gstat.pump

theorem execLinkTraining_canonical {speed width mps mrrs} (h : s.Canonical) :
    OutCanonical (execLinkTraining speed width mps mrrs s) :=
  .ite .fault (.next (.ite h.trained h))

theorem execPcieLinkDown_canonical (h : s.Canonical) : OutCanonical (execPcieLinkDown s) :=
  .next h.setF

theorem State.Canonical.linkReset (h : s.Canonical) : s.linkReset.Canonical := by
  unfold State.linkReset
  extract_lets _ s1 _ s2 s3 _ s4 s5
  have h1 : s1.Canonical := h.dropAccesses
  have h2 : s2.Canonical := { h1 with }
  have h3 : s3.Canonical := h2.resetRegs
  have h4 : s4.Canonical := .ite h3.setStream.xrst h3
  have h5 : s5.Canonical := h4.retireRings.resetHosts
  exact h5.foldl (fun h => h.resetTable)

theorem execPerstNAssert_canonical (h : s.Canonical) : OutCanonical (execPerstNAssert s) :=
  .next h.linkReset

theorem execPerstNRelease_canonical (h : s.Canonical) : OutCanonical (execPerstNRelease s) :=
  .next h.withHost

theorem State.Canonical.flr {f} (h : s.Canonical) : (s.flr f).Canonical :=
  .ite h.resetFuncs.setF.withHost (.ite h.resetFuncs h)

theorem execFunctionLevelReset_canonical {func} (h : s.Canonical) : OutCanonical (execFunctionLevelReset func s) :=
  onInst_canonical (.next h.flr)

theorem execFlrComplete_canonical {func} (h : s.Canonical) : OutCanonical (execFlrComplete func s) :=
  onInst_canonical (.next h.setFunc)

theorem execClockStopped_canonical {k} (h : s.Canonical) : OutCanonical (execClockStopped k s) :=
  onInst_canonical (.next h.withHost.releaseHeld)

/-! ### Machine/Jtag -/

theorem execJtagInstruction_canonical {code} (h : s.Canonical) : OutCanonical (execJtagInstruction code s) :=
  .next h.withPins

theorem execJtagReset_canonical (h : s.Canonical) : OutCanonical (execJtagReset s) :=
  .next h.withPins

/-! ### Machine/Scrub -/

theorem State.Canonical.turnTo {fa} (h : s.Canonical) : (s.turnTo fa).Canonical :=
  withScrub (by split <;> [exact h.setF; exact h])

theorem execScrubPassStart_canonical (h : s.Canonical) : OutCanonical (execScrubPassStart s) :=
  .next (.ite h.turnTo.setB h)

theorem State.Canonical.storeFrame {fa ws check} (h : s.Canonical) : (s.storeFrame fa ws check).Canonical :=
  (h.foldl (fun h => h.setFrameWord)).setCheck

theorem State.Canonical.quarantine {k fa} (h : s.Canonical) : (s.quarantine k fa).Canonical := by
  unfold State.quarantine
  extract_lets s1 s2 s3 _ s4
  have h1 : s1.Canonical := .ite h h.flag.setF
  have h2 : s2.Canonical := h1.flag
  have h3 : s3.Canonical := h2.stopPorts.isolate.setCbState
  have h4 : s4.Canonical := .ite h3.setMeas.endPartial h2
  exact h4.scrubEvent

theorem State.Canonical.corrected {k} (h : s.Canonical) : (s.corrected k).Canonical := by
  unfold State.corrected
  extract_lets s1
  have h1 : s1.Canonical := h.addSat.flag
  exact h1.withBur.scrubEvent

theorem State.Canonical.checkFrame {fa l} (h : s.Canonical) : (s.checkFrame fa l).Canonical := by
  unfold State.checkFrame; dsimp only
  split
  · split
    · exact h.setF
    · exact h.setF.addSat
    · exact h.setF.addSat
  · split
    · exact h.setF.storeFrame
    · exact h.setF.storeFrame.corrected
    · exact h.setF.storeFrame.quarantine

theorem State.Canonical.rereadFrame {fa} (h : s.Canonical) : (s.rereadFrame fa).Canonical :=
  h.setF.withScrub

theorem State.Canonical.scrubOn {fa held} (h : s.Canonical) : (s.scrubOn fa held).Canonical :=
  writeHeld (by split <;> [exact h; (split <;> [exact h.turnTo.addWrap; exact h.turnTo])])

theorem execScrubFrameCheck_canonical {flips} (h : s.Canonical) : OutCanonical (execScrubFrameCheck flips s) :=
  .ite .fault (.next (by split <;> [exact h.withVoted; exact .ite h.withVoted.rereadFrame h.withVoted.checkFrame.scrubOn]))

theorem execVoteRepair_canonical (h : s.Canonical) : OutCanonical (execVoteRepair s) :=
  .next (.ite h (State.Canonical.withVoted (.ite h.setWord.setWord h.setWord.setWord.withScrub.setB)).flag.flag)

/-! ### Machine/Dispatch -/

theorem exec_canonical {i} (h : s.Canonical) : OutCanonical (exec i s) := by
  unfold exec
  split
  · exact execPowerOn_canonical h
  · exact execPorstNAssert_canonical h
  · exact execPorstNRelease_canonical h
  · exact execBureauBootComplete_canonical h
  · exact execBrownOut_canonical h
  · exact execAutonomousBoot_canonical h
  · exact execPerstNAssert_canonical h
  · exact execPerstNRelease_canonical h
  · exact execLinkTraining_canonical h
  · exact execFunctionLevelReset_canonical h
  · exact execConfigRequest_canonical h
  · exact execWatchdogExpiry_canonical h
  · exact execSramUncorrectableError_canonical h
  · exact execGetInfo_canonical h
  · exact execSetMode_canonical h
  · exact execGetMode_canonical h
  · exact execCfgBegin_canonical h
  · exact execCfgAbort_canonical h
  · exact execCfgStatus_canonical h
  · exact execRegionLoadBegin_canonical h
  · exact execRegionRelease_canonical h
  · exact execCalRun_canonical h
  · exact execCalCommit_canonical h
  · exact execCalExport_canonical h
  · exact execCalImport_canonical h
  · exact execRotateNow_canonical h
  · exact execChanAlloc_canonical h
  · exact execChanFree_canonical h
  · exact execRingAdmit_canonical h
  · exact execRingRetire_canonical h
  · exact execAttest_canonical h
  · exact execKeyEnroll_canonical h
  · exact execPolicySet_canonical h
  · exact execTwinPair_canonical h
  · exact execTwinSplit_canonical h
  · exact execPwrCeiling_canonical h
  · exact execCommandComplete_canonical h
  · exact execRandom_canonical h
  · exact execDigestRequest_canonical h
  · exact execClaimLow_canonical h
  · exact execClaimHigh_canonical h
  · exact execBar4Write_canonical h
  · exact execTwinStreamWord_canonical h
  · exact execPreambleWord_canonical h
  · exact execSyncWord_canonical h
  · exact execDevice_canonical h
  · exact execFrames_canonical h
  · exact execFrame_canonical h
  · exact execAnalogEntry_canonical h
  · exact execStartup_canonical h
  · exact execDigest_canonical h
  · exact execSignature_canonical h
  · exact execSignatureVerification_canonical h
  · exact execEnd_canonical h
  · exact execRegion_canonical h
  · exact execVerify_canonical h
  · exact execReferenceWait_canonical h
  · exact execRefTmo_canonical h
  · exact execRegionStreamStart_canonical h
  · exact execRegionVerify_canonical h
  · exact execScrubPassStart_canonical h
  · exact execScrubFrameCheck_canonical h
  · exact execVoteRepair_canonical h
  · exact execPllLockLoss_canonical h
  · exact execPllRelock_canonical h
  · exact execSmpclkStamp_canonical h
  · exact execSmpclkStall_canonical h
  · exact execPrEdge_canonical h
  · exact execPrIndexEdge_canonical h
  · exact execEdgeProcessing_canonical h
  · exact execCoastEntry_canonical h
  · exact execCoastLimit_canonical h
  · exact execPrEnable_canonical h
  · exact execPrSnap_canonical h
  · exact execLcsTimeSnap_canonical h
  · exact execPaEnable_canonical h
  · exact execAlarmFiring_canonical h
  · exact execTimerStart_canonical h
  · exact execTimerExpiry_canonical h
  · exact execFiringRecord_canonical h
  · exact execSeqStart_canonical h
  · exact execUrgent_canonical h
  · exact execMark_canonical h
  · exact execRsInstant_canonical h
  · exact execSegStart_canonical h
  · exact execBlankOpen_canonical h
  · exact execBlankClose_canonical h
  · exact execEvent_canonical h
  · exact execDoorbell_canonical h
  · exact execWake_canonical h
  · exact execIrq_canonical h
  · exact execPeriodClear_canonical h
  · exact execCaptureEdge_canonical h
  · exact execCapPop_canonical h
  · exact execNextEventUpdate_canonical h
  · exact execSelfWake_canonical h
  · exact execPowerStateEntry_canonical h
  · exact execPowerStateExit_canonical h
  · exact execTempConversion_canonical h
  · exact execCgEnable_canonical h
  · exact execCgDisable_canonical h
  · exact execCgGo_canonical h
  · exact execCgStop_canonical h
  · exact execFabricRequest_canonical h
  · exact execSettleEnd_canonical h
  · exact execDwellComplete_canonical h
  · exact execUrgentDwellComplete_canonical h
  · exact execCgCntSnap_canonical h
  · exact execElogPop_canonical h
  · exact execWindowComparatorFire_canonical h
  · exact execRefSettled_canonical h
  · exact execRefFault_canonical h
  · exact execRotationCheck_canonical h
  · exact execOverlapStart_canonical h
  · exact execHandoverTest_canonical h
  · exact execSliceCalibration_canonical h
  · exact execEstimatorBlock_canonical h
  · exact execAzBoundary_canonical h
  · exact execAzSwap_canonical h
  · exact execRst_canonical h
  · exact execPortOverload_canonical h
  · exact execCellSaturation_canonical h
  · exact execMatrixWrite_canonical h
  · exact execFcEnable_canonical h
  · exact execSourceWrite_canonical h
  · exact execBank_canonical h
  · exact execXfadeStart_canonical h
  · exact execXfDone_canonical h
  · exact execFcCntSnap_canonical h
  · exact execGapPop_canonical h
  · exact execCdata_canonical h
  · exact execIncCommit_canonical h
  · exact execSlot_canonical h
  · exact execTlogPop_canonical h
  · exact execDetWindowClose_canonical h
  · exact execWmEnable_canonical h
  · exact execWmPowerUp_canonical h
  · exact execWmConditionWrite_canonical h
  · exact execWmSettle_canonical h
  · exact execWmDisable_canonical h
  · exact execComparatorEdge_canonical h
  · exact execWmResolve_canonical h
  · exact execEdgeDelivery_canonical h
  · exact execDaGo_canonical h
  · exact execDaStop_canonical h
  · exact execDaEnable_canonical h
  · exact execSegmentEnd_canonical h
  · exact execUnderrun_canonical h
  · exact execPdata_canonical h
  · exact execClkenWrite_canonical h
  · exact execFpllMWrite_canonical h
  · exact execFpllLock_canonical h
  · exact execPeekData_canonical h
  · exact execFpInputWord_canonical h
  · exact execFpInputGroupTake_canonical h
  · exact execFpOutputWord_canonical h
  · exact execAgentPost_canonical h
  · exact execAgentTake_canonical h
  · exact execAgentDbclr_canonical h
  · exact execVccioChange_canonical h
  · exact execDioPinCfgWrite_canonical h
  · exact execDmaPdirLo_canonical h
  · exact execDmaPdirHi_canonical h
  · exact execTailWrite_canonical h
  · exact execHeadWrite_canonical h
  · exact execRingWord_canonical h
  · exact execAgeClose_canonical h
  · exact execBlockWrite_canonical h
  · exact execBlkHold_canonical h
  · exact execDmaSnap_canonical h
  · exact execRingFetch_canonical h
  · exact execFetchCompletion_canonical h
  · exact execCompletionTimeout_canonical h
  · exact execMsgPost_canonical h
  · exact execMsgTake_canonical h
  · exact execDbSet_canonical h
  · exact execDbClr_canonical h
  · exact execChannelTimeout_canonical h
  · exact execMsixMessage_canonical h
  · exact execClockStopped_canonical h
  · exact execRcRead_canonical h
  · exact execRegisterWrite_canonical h
  · exact execHeartbeat_canonical h
  · exact execHeartbeatLoss_canonical h
  · exact execPrimaryPllLoss_canonical h
  · exact execFenced_canonical h
  · exact execTwinCompare_canonical h
  · exact execForwardedWrite_canonical h
  · exact execLaneErrorBurst_canonical h
  · exact execLinkDown_canonical h
  · exact execJtagInstruction_canonical h
  · exact execJtagReset_canonical h
  · exact execPllLock_canonical h
  · exact execRefqWindowReturn_canonical h
  · exact execPcieLinkDown_canonical h
  · exact execUnknownCommandCode_canonical h
  · exact execUnknownSecureOp_canonical h
  · exact execFirmwareResume_canonical h
  · exact execBunkLinkTraining_canonical h
  · exact execWakeNRelease_canonical h
  · exact execFlrComplete_canonical h
  · exact execAutoZeroTrim_canonical h
  · exact execConversionBeat_canonical h
  · exact execChainOutput_canonical h
  · exact execDacSample_canonical h
  · exact execCellClock_canonical h
  · exact execProbeSample_canonical h
  · exact execFcDisable_canonical h
  · exact execTimerDisable_canonical h

/-! ### Machine/Step -/

/-- The canonical form is an invariant of the step: a command starts from a state with a shorter queue, which is no table. -/
theorem step_canonical (h : s.Canonical) : OutCanonical (step s) := by
  unfold step
  split
  · exact .next h
  · exact exec_canonical { h with }

/-- Settles O6: each table operation keeps the form, so each helper of the model, each command and each step does. -/
theorem tablesStayCanonical : Obligations.TablesStayCanonical := by
  intro s t hs ht
  exact (step_canonical (.of hs) t ht).eq

end Sys2Proof.Machine
end

/-!
# Every command answers a next state or the fault of an ill-formed command (O2)
-/

section
namespace Sys2Proof.Machine

/-- The outcome is a next state where `w` holds, and the fault of an ill-formed command where it does not. -/
def Completes (w : Bool) (o : Out) : Prop := if w then ∃ t, o = .next t else o = .fault .illFormed

namespace Completes

theorem congr {v w : Bool} {o : Out} (h : Completes w o) (e : v = w) : Completes v o := e ▸ h

theorem next {t : State} : Completes true (.next t) := ⟨t, rfl⟩

theorem fault : Completes false (.fault .illFormed) := rfl

theorem ite {w : Bool} {c : Prop} [Decidable c] {a b : Out} (ha : Completes w a) (hb : Completes w b) :
    Completes w (if c then a else b) := by
  split <;> assumption

/-- A command that is refused as ill-formed exactly where `c` holds. -/
theorem faultIf {w : Bool} {c : Prop} [Decidable c] {t : State} (h : w = true ↔ ¬ c) :
    Completes w (if c then .fault .illFormed else .next t) := by
  by_cases hc : c
  · simpa [hc, show w = false by simpa [hc] using h] using fault
  · simpa [hc, h.mpr hc] using next

theorem nextIf {w : Bool} {c : Prop} [Decidable c] {t : State} (h : w = true ↔ c) :
    Completes w (if c then .next t else .fault .illFormed) := by
  by_cases hc : c
  · simpa [hc, h.mpr hc] using next
  · simpa [hc, show w = false by simpa [hc] using h] using fault

theorem onInst {n b : Nat} {w : Bool} {o : Out} (h : Completes w o) :
    Completes (decide (n < b) && w) (onInst n b o) := by
  unfold Machine.onInst
  by_cases hn : n < b
  · simpa [hn] using h
  · simpa [hn] using fault

theorem inst {n b : Nat} {t : State} : Completes (decide (n < b)) (Machine.onInst n b (.next t)) :=
  (onInst next).congr (Bool.and_true _).symm

/-- Two numbers, `i` tested first. -/
theorem inst₂ {n b i c : Nat} {t : State} :
    Completes (decide (i < c ∧ n < b)) (Machine.onInst i c (Machine.onInst n b (.next t))) :=
  (onInst inst).congr (Bool.decide_and ..)

theorem present {n m b : Nat} {s t : State} : Completes (decide (n < b)) (ifPresent n m b s (.next t)) :=
  (onInst (ite next next)).congr (Bool.and_true _).symm

/-- An array entry `n` that the part may lack, and a number `i` within it, which is tested first. -/
theorem presentAt {n m b i c : Nat} {s t : State} :
    Completes (decide (n < b ∧ i < c)) (Machine.onInst i c (ifPresent n m b s (.next t))) :=
  (onInst present).congr (by rw [Bool.decide_and, Bool.and_comm])

theorem readPresent {n m b : Nat} {s t : State} : Completes (decide (n < b)) (readPresent n m b s (.next t)) :=
  (onInst (ite next next)).congr (Bool.and_true _).symm

theorem hostRow {w : Bool} {o : Out} (h : Completes w o) : Completes w (hostRow o) := by
  cases w with
  | true => obtain ⟨t, rfl⟩ := h; exact next
  | false => obtain rfl : o = _ := h; exact fault

end Completes

/-! ## Commands whose operands are more than one array index -/

theorem isMatrixReg_eq (a : Nat) : isMatrixReg a = (matrixReg a).isSome := by
  unfold isMatrixReg matrixReg inArray
  rw [Bool.eq_iff_iff]
  simp only [Bool.or_eq_true, Bool.and_eq_true, decide_eq_true_eq]
  split_ifs <;> simp only [Option.isSome_some, Option.isSome_none, Bool.false_eq_true, iff_true, iff_false] <;> omega

theorem isCommandCode_eq (code : Nat) : isCommandCode code = commandKnown code := by
  simp only [isCommandCode, commandKnown, commandTable, List.any_cons, List.any_nil, List.contains_cons, List.contains_nil,
    BEq.comm (a := code)]

theorem execMatrixWrite_completes (a : Nat) (w : Word) (s : State) :
    Completes (isMatrixReg a) (execMatrixWrite a w s) := by
  rw [isMatrixReg_eq]
  unfold execMatrixWrite
  cases matrixReg a with
  | none => exact .hostRow .fault
  | some r => exact .hostRow .next

theorem execSourceWrite_completes (a : Nat) (w : Word) (s : State) :
    Completes (isSourceReg a) (execSourceWrite a w s) := by
  unfold execSourceWrite
  cases isSourceReg a with
  | true => exact .hostRow .next
  | false => exact .hostRow .fault

theorem execPdata_completes (d : Nat) (acc : RegAccess) (s : State) :
    Completes (decide (d < 24)) (execPdata d acc s) := by
  cases acc with
  | read => exact .readPresent
  | write w => exact .hostRow .present

theorem execCdata_completes (n : Nat) (acc : RegAccess) (s : State) :
    Completes (decide (n < 48)) (execCdata n acc s) := by
  cases acc with
  | read => exact .readPresent
  | write w => exact .hostRow .present

theorem execSelfWake_completes (s : State) : Completes true (execSelfWake s) := by
  unfold execSelfWake
  split
  · exact .next
  · exact .next

theorem execScrubFrameCheck_completes (flips : List Nat) (s : State) :
    Completes (decide (∀ b ∈ flips, b < 1228)) (execScrubFrameCheck flips s) :=
  .faultIf (by simp)

theorem execFetchCompletion_completes (r : Nat) (data : List Nat) (s : State) :
    Completes (decide (r < 4096 ∧ data.length = 4096)) (execFetchCompletion r data s) :=
  (Completes.onInst (.faultIf (by simp))).congr (Bool.decide_and ..)

theorem execConversionBeat_completes (g e tick : Nat) (raw : List (List Int)) (before after inc : Int) (s : State) :
    Completes (decide (g < 24 ∧ raw.length = 4 ∧ raw.all (·.length = 4)))
      (execConversionBeat g e tick raw before after inc s) := by
  unfold execConversionBeat
  by_cases h : raw.length = 4 ∧ raw.all (·.length = 4)
  · simpa only [h, and_self, and_true, if_true] using Completes.present
  · simpa only [h, and_false, decide_false, if_false] using Completes.fault

theorem exec_completes (i : Instr) (s : State) : Completes i.wf (exec i s) := by
  cases i with
  | powerOn | porstNAssert | brownOut | autonomousBoot | perstNAssert | perstNRelease | watchdogExpiry
    | sramUncorrectableError | getInfo | setMode | getMode | cfgBegin | cfgAbort | cfgStatus | regionLoadBegin
    | regionRelease | calRun | calCommit | calExport | calImport | rotateNow | chanAlloc | chanFree | ringAdmit
    | ringRetire | attest | keyEnroll | policySet | twinPair | twinSplit | pwrCeiling | commandComplete | bar4Write
    | twinStreamWord | preambleWord | syncWord | device | frames | frame | analogEntry | startup | digest | signature
    | endRecord | region | verify | referenceWait | refTmo | regionStreamStart | regionVerify | scrubPassStart
    | voteRepair | pllLockLoss | pllRelock | lcsTimeSnap | firingRecord | event | doorbell | wakeFiring | irq
    | rotationCheck | fpllLock | dmaPdirLo | dmaPdirHi | heartbeatLoss | primaryPllLoss | fenced | laneErrorBurst
    | linkDown | jtagInstruction | jtagReset | pllLock | pcieLinkDown | wakeNRelease | cellClock => exact .next
  | seqStart | urgent | mark | rsInstant | segStart | blankOpen | blankClose | periodClear | settleEnd | dwellComplete
    | urgentDwellComplete | refSettled | refFault | overlapStart | handoverTest | sliceCalibration | estimatorBlock
    | azBoundary | azSwap | portOverload | cellSaturation | xfadeStart | xfDone | slot | detWindowClose | wmPowerUp
    | wmSettle | comparatorEdge | wmResolve | edgeDelivery | segmentEnd | underrun | peekData | twinCompare
    | refqWindowReturn | autoZeroTrim | chainOutput | dacSample => exact .present
  | functionLevelReset | configRequest | random | digestRequest | claimLow | claimHigh | prEdge | prIndexEdge
    | edgeProcessing | coastEntry | coastLimit | alarmFiring | timerExpiry | captureEdge | tempConversion
    | fabricRequest | vccioChange | ringWord | ageClose | blockWrite | blkHold | ringFetch | completionTimeout
    | channelTimeout | clockStopped | unknownSecureOp | flrComplete | probeSample => exact .inst
  | cgEnable | cgDisable | cgGo | cgStop | cgCntSnap | elogPop | rst | fcEnable | fcCntSnap | gapPop | incCommit
    | tlogPop | wmEnable | wmConditionWrite | wmDisable | daGo | daStop | daEnable | clkenWrite | fcDisable =>
    exact .hostRow .present
  | prEnable | prSnap | paEnable | timerStart | capPop | fpllMWrite | dioPinCfgWrite | tailWrite | headWrite | dmaSnap
    | timerDisable => exact .hostRow .inst
  | windowComparatorFire | fpInputWord | fpInputGroupTake | fpOutputWord | agentPost | agentTake | agentDbclr =>
    exact .presentAt
  | smpclkStamp | smpclkStall | powerStateEntry | powerStateExit | heartbeat => exact .ite .next .next
  | msgPost | msgTake | dbSet | dbClr | msixMessage => exact .inst₂
  | porstNRelease | linkTraining | signatureVerification | forwardedWrite => exact .faultIf (by simp [Instr.wf])
  | bureauBootComplete | firmwareResume => exact .faultIf (by simp [Instr.wf]; tauto)
  | rcRead | registerWrite => exact .nextIf (by simp [Instr.wf])
  | scrubFrameCheck => exact execScrubFrameCheck_completes ..
  | nextEventUpdate => exact .ite .next (.ite .next (.ite .next (.ite .next .next)))
  | selfWake => exact execSelfWake_completes ..
  | matrixWrite => exact execMatrixWrite_completes ..
  | sourceWrite => exact execSourceWrite_completes ..
  | bank => exact .hostRow .presentAt
  | cdata => exact execCdata_completes ..
  | pdata => exact execPdata_completes ..
  | fetchCompletion => exact execFetchCompletion_completes ..
  | unknownCommandCode => exact .faultIf (by simp [Instr.wf, isCommandCode_eq])
  | bunkLinkTraining => exact .faultIf (by simpa [Instr.wf] using eq_comm)
  | conversionBeat => exact execConversionBeat_completes ..

/-- Settles O2: `exec_completes`, for a command that is well-formed and for one that is not. -/
theorem wellFormedCommandsComplete : Obligations.WellFormedCommandsComplete := by
  constructor
  · intro s i hi
    simpa only [Completes, hi, if_true] using exec_completes i s
  · intro s i hi
    simpa only [Completes, hi, Bool.false_eq_true, if_false] using exec_completes i s

end Sys2Proof.Machine
end

/-!
# The state after reset (O3)
-/

section
namespace Sys2Proof.Machine

theorem RegRow.index_bounds {r : RegRow} {a : Nat} (h : (r.index a).isSome) :
    r.reg.base ≤ a ∧ a ≤ r.reg.base + r.n1 * r.reg.st1 + r.n2 * r.reg.st2 := by
  unfold RegRow.index at h
  extract_lets d i e j at h
  split at h
  · cases h
  next hb =>
    split at h
    next hd =>
      obtain ⟨hi, hj, hd⟩ := hd
      have h1 := Nat.mul_le_mul_right r.reg.st1 (Nat.le_of_lt hi)
      have h2 := Nat.mul_le_mul_right r.reg.st2 (Nat.le_of_lt hj)
      omega
    · cases h

/-- Between `lo` and `hi` no row of the map has a reset value but 0. -/
def RegMap.zeroBetween (lo hi : Nat) : Bool :=
  RegMap.pieces.all fun p => p.2.2.all fun r =>
    r.resetWord == 0 || decide (hi < r.reg.base ∨ r.reg.base + r.n1 * r.reg.st1 + r.n2 * r.reg.st2 < lo)

theorem RegMap.resetAt_eq_zero {lo hi a : Nat} (h : RegMap.zeroBetween lo hi = true) (hl : lo ≤ a) (hh : a ≤ hi) :
    RegMap.resetAt a = 0 := by
  unfold RegMap.resetAt
  cases hr : RegMap.row a with
  | none => rfl
  | some r =>
    obtain ⟨p, hp, hf⟩ := List.exists_of_findSome?_eq_some hr
    have hf : RegMap.findIn p.2.2 a = some r := by split at hf <;> [exact hf; cases hf]
    obtain ⟨hb, hb'⟩ := RegRow.index_bounds (a := a) (by simpa using List.find?_some hf)
    have hz := List.all_eq_true.mp (List.all_eq_true.mp h p hp) r (List.mem_of_find?_eq_some hf)
    simp only [Bool.or_eq_true, beq_iff_eq, decide_eq_true_eq] at hz
    rcases hz with hz | hz
    · exact hz
    · omega

theorem State.reset_f_eq_zero {lo hi : Nat} {r : FieldRef} {i : Nat} (h : RegMap.zeroBetween lo hi = true)
    (ha : lo ≤ r.addr i 0 ∧ r.addr i 0 ≤ hi) : State.reset.f r i = 0 := by
  have hw : State.reset.word (r.addr i 0) = 0 := RegMap.resetAt_eq_zero h ha.1 ha.2
  simp [State.f, hw, Word.bits]

theorem State.reset_on_eq_false {lo hi : Nat} {r : FieldRef} {i : Nat} (h : RegMap.zeroBetween lo hi = true)
    (ha : lo ≤ r.addr i 0 ∧ r.addr i 0 ≤ hi) : State.reset.on r i = false := by
  simp [State.on, State.reset_f_eq_zero h ha]

theorem reset_cabinet {k : Nat} (hk : k < 24) :
    State.reset.cbState k = 0 ∧ State.reset.on Fld.FAB_CTL_CLKEN k = false := by
  constructor
  · exact State.reset_f_eq_zero (lo := 0x50100) (hi := 0x503E0) (by decide +kernel)
      (by simp only [FieldRef.addr, Fld.SCRB_CB_STATE_STATE]; omega)
  · exact State.reset_on_eq_false (lo := 0x600000) (hi := 0x617000) (by decide +kernel)
      (by simp only [FieldRef.addr, Fld.FAB_CTL_CLKEN]; omega)

theorem reset_dac {d : Nat} (hd : d < 24) : State.reset.on Fld.DA_CTL_EN d = false :=
  State.reset_on_eq_false (lo := 0x520000) (hi := 0x521700) (by decide +kernel)
    (by simp only [FieldRef.addr, Fld.DA_CTL_EN]; omega)

theorem reset_monitor {n : Nat} (hn : n < 96) : State.reset.on Fld.WM_CTL_EN n = false :=
  State.reset_on_eq_false (lo := 0x500000) (hi := 0x5017C0) (by decide +kernel)
    (by simp only [FieldRef.addr, Fld.WM_CTL_EN]; omega)

theorem reset_ring {r : Nat} (hr : r < 4096) : State.reset.admitted r = false :=
  State.reset_on_eq_false (lo := 0x580000) (hi := 0x5BFFFF) (by decide +kernel)
    (by simp only [FieldRef.addr, Fld.DMA_RSTAT_ADMITTED]; omega)

/-- Settles O3: the enables of rings, monitors, DACs and cabinets stand where the map has no reset value but 0; those of the
groups and chains, which stand among other reset values, are looked up one by one. -/
theorem resetState : Obligations.ResetState :=
  ⟨rfl, by decide +kernel, by decide +kernel, rfl, rfl, rfl, by decide +kernel, by decide +kernel, rfl,
    fun _ hk => reset_cabinet hk,
    fun g hg => ⟨(by decide +kernel : ∀ g < 24, State.reset.on Fld.CG_CTL_EN g = false) g hg, reset_dac hg⟩,
    by decide +kernel, fun _ hn => reset_monitor hn, fun _ hr => reset_ring hr, fun _ _ => rfl,
    by decide, by decide, by decide +kernel⟩

end Sys2Proof.Machine
end

/-!
# Effects on the registers

What a command leaves unchanged, gathered write by write (`WritesOnly`), and how a field reads after a row of writes.
-/

section
namespace Sys2Proof.Machine

/-- `t` is `s` but for the registers listed. -/
structure WritesOnly (l : List Nat) (s t : State) : Prop where
  frame : t = { s with regs := t.regs }
  same : SameBut l s t

variable {s t : State} {l : List Nat}

theorem WritesOnly.refl : WritesOnly l s s := ⟨rfl, fun _ _ => rfl⟩

theorem WritesOnly.setWord {a : Nat} {w : Word} (h : WritesOnly l s t) (ha : a ∈ l) : WritesOnly l s (t.setWord a w) where
  frame := by rw [h.frame]; rfl
  same b hb := by
    rw [State.word_setWord, if_neg (fun e : a = b => hb (e ▸ ha))]
    exact h.same b hb

theorem WritesOnly.setF {r : FieldRef} {v i j : Nat} (h : WritesOnly l s t) (ha : r.addr i j ∈ l) :
    WritesOnly l s (t.setF r v i j) :=
  h.setWord ha

theorem WritesOnly.ite {c : Prop} [Decidable c] {t u : State} (h : WritesOnly l s t) (h' : WritesOnly l s u) :
    WritesOnly l s (if c then t else u) := by
  split <;> assumption

/-- A host row counts in TWN_HSEQ. -/
theorem WritesOnly.counted (h : WritesOnly l s t) (hl : Reg.TWN_HSEQ.base ∈ l) : WritesOnly l s t.counted :=
  .ite (h.setF hl) h

/-! ## Fields of one array entry -/

/-- A field of another register of the same stride reads as before. -/
theorem State.f_setF_beside (s : State) (r q : FieldRef) (v i j : Nat)
    (h : r.st1 = q.st1 ∧ r.st2 = q.st2 ∧ r.base ≠ q.base) : (s.setF r v i j).f q i j = s.f q i j :=
  s.f_setF_of_addr r q v i j i j (by obtain ⟨h1, h2, hb⟩ := h; simp only [FieldRef.addr, h1, h2]; omega)

/-- A field of another register than TWN_HSEQ reads as before a host row counts. -/
theorem State.f_counted (s : State) {q : FieldRef} {i j : Nat} (h : q.addr i j ≠ Reg.TWN_HSEQ.base) :
    s.counted.f q i j = s.f q i j := by
  unfold State.counted
  split
  · exact State.f_setF_of_addr _ _ _ _ _ _ _ _ h.symm
  · rfl

/-- The registers below the TWN block are not TWN_HSEQ. -/
theorem FieldRef.addr_ne_hseq {q : FieldRef} {i N : Nat} (hi : i < N) (h : q.base + N * q.st1 ≤ 0x6C0000) :
    q.addr i 0 ≠ Reg.TWN_HSEQ.base := by
  have := Nat.mul_le_mul_right q.st1 hi.le
  simp only [FieldRef.addr, Reg.TWN_HSEQ]
  omega

end Sys2Proof.Machine
end

/-!
# Snapshots (O14)
-/

section
namespace Sys2Proof.Machine

theorem State.atTick_time {s : State} (hs : s.lclk = true) (tick : Nat) : (s.atTick tick).lcs.time = max s.lcs.time tick := by
  simp [State.atTick, hs]

theorem turnOf_mod (phi : Rat) : turnOf phi % 2 ^ 32 = turnOf phi := Nat.mod_mod ..

/-! ## PRn_SNAP -/

theorem execPrSnap_eq {s : State} {n tick : Nat} (hn : n < 8) (hs : s.lclk = true) :
    exec (.prSnap n tick) s = .next ((s.atTick tick).snapRef n).counted := by
  simp [exec, execPrSnap, onInst, hn, hs, hostRow, State.lcsWrite, State.writeIn]

theorem State.snapRef_writesOnly (s : State) (n : Nat) :
    WritesOnly [Reg.TWN_HSEQ.base, Reg.PR_PERIOD_LO.addr n 0, Reg.PR_PERIOD_HI.addr n 0, Reg.PR_FRAC.addr n 0,
      Reg.PR_TURN.addr n 0, Reg.PR_ERR.addr n 0, Reg.PR_LAST_LO.addr n 0, Reg.PR_LAST_HI.addr n 0] s (s.snapRef n) := by
  refine WritesOnly.setF (.setF (.setF (.setF (.setF (.setF (.setF .refl ?_) ?_) ?_) ?_) ?_) ?_) ?_
  all_goals repeat constructor

/-- The fields a snapshot of PRn latches. -/
theorem State.snapRef_fields (s : State) (n : Nat) :
    (s.snapRef n).f Fld.PR_TURN n = turnOf ((s.trk n).phase ((s.lcs.time : Int) * 64)) ∧
    (s.snapRef n).f Fld.PR_FRAC n = fracOf ((s.trk n).phase ((s.lcs.time : Int) * 64)) % 2 ^ 32 ∧
    (s.snapRef n).f Fld.PR_PERIOD_LO n = (s.trk n).period % 2 ^ 32 ∧
    (s.snapRef n).f Fld.PR_PERIOD_HI n = (s.trk n).period / 2 ^ 32 % 2 ^ 16 ∧
    (s.snapRef n).f Fld.PR_LAST_LO n = ofSigned 64 (s.trk n).last % 2 ^ 32 ∧
    (s.snapRef n).f Fld.PR_LAST_HI n = ofSigned 64 (s.trk n).last / 2 ^ 32 % 2 ^ 32 ∧
    (s.snapRef n).f Fld.PR_ERR n = ofSigned 32 (s.trk n).err % 2 ^ 32 := by
  unfold State.snapRef State.setPair
  dsimp only
  simp (disch := decide) only [State.f_setF, State.f_setF_beside]
  exact ⟨turnOf_mod _, rfl, rfl, rfl, rfl, rfl, rfl⟩

/-! ## LCS_TIME_SNAP -/

theorem execLcsTimeSnap_eq {s : State} {tick : Nat} (hs : s.lclk = true) :
    exec (.lcsTimeSnap tick) s = .next (s.atTick tick).snapTime.counted := by
  simp [exec, execLcsTimeSnap, hs, hostRow, State.lcsWrite, State.writeIn]

theorem State.snapTime_writesOnly (s : State) :
    WritesOnly [Reg.TWN_HSEQ.base, Reg.LCS_TIME_LO.base, Reg.LCS_TIME_HI.base, Reg.LCS_SMPQ_LO.base, Reg.LCS_SMPQ_HI.base,
      Reg.LCS_NEXT_LO.base, Reg.LCS_NEXT_HI.base] s s.snapTime := by
  refine WritesOnly.setF (.setF (.setF (.setF (.setF (.setF .refl ?_) ?_) ?_) ?_) ?_) ?_
  all_goals decide

/-- LCS_SMPQ does not depend on the registers that a snapshot writes before it. -/
theorem State.smpq_setPair (s : State) (v : Nat) :
    (s.setPair Fld.LCS_TIME_LO Fld.LCS_TIME_HI v).smpq = s.smpq := by
  unfold State.smpq
  rw [State.setPair_eq, State.f_setF_beside _ _ _ _ _ _ (by decide), State.f_setF_beside _ _ _ _ _ _ (by decide)]
  rfl

/-- The fields a snapshot of LCS_TIME latches. -/
theorem State.snapTime_fields (s : State) :
    s.snapTime.f Fld.LCS_TIME_LO = s.lcs.time % 2 ^ 32 ∧ s.snapTime.f Fld.LCS_TIME_HI = s.lcs.time / 2 ^ 32 % 2 ^ 32 ∧
    s.snapTime.f Fld.LCS_SMPQ_LO = s.smpq % 2 ^ 32 ∧ s.snapTime.f Fld.LCS_SMPQ_HI = s.smpq / 2 ^ 32 % 2 ^ 16 ∧
    s.snapTime.f Fld.LCS_NEXT_LO = (match s.lcs.next with | some e => e.1 | none => 2 ^ 64 - 1) % 2 ^ 32 ∧
    s.snapTime.f Fld.LCS_NEXT_HI = (match s.lcs.next with | some e => e.1 | none => 2 ^ 64 - 1) / 2 ^ 32 % 2 ^ 32 := by
  unfold State.snapTime
  dsimp only
  rw [State.smpq_setPair]
  unfold State.setPair
  simp (disch := decide) only [State.f_setF, State.f_setF_beside]
  exact ⟨rfl, rfl, rfl, rfl, rfl, rfl⟩

/-- Settles O14: the snapshot latches its fields at the present tick, and counting it writes no other register. -/
theorem snapshotsLatch : Obligations.SnapshotsLatch := by
  constructor
  · intro s n tick hn hs
    have hw := ((s.atTick tick).snapRef_writesOnly n).counted List.mem_cons_self
    have hf := (s.atTick tick).snapRef_fields n
    rw [State.atTick_time hs] at hf
    have hq {q : FieldRef} (h : q.base + 8 * q.st1 ≤ 0x6C0000) :=
      ((s.atTick tick).snapRef n).f_counted (FieldRef.addr_ne_hseq hn h)
    refine ⟨_, execPrSnap_eq hn hs, ?_⟩
    simp (disch := decide) only [hq]
    obtain ⟨hTurn, hFrac, hPeriodLo, hPeriodHi, hLastLo, hLastHi, hErr⟩ := hf
    exact ⟨hTurn, hFrac, hPeriodLo, hPeriodHi, hLastLo, hLastHi, hErr, hw.frame, hw.same⟩
  · intro s tick hs
    have hw := (s.atTick tick).snapTime_writesOnly.counted List.mem_cons_self
    have hf := (s.atTick tick).snapTime_fields
    rw [State.atTick_time hs] at hf
    refine ⟨_, execLcsTimeSnap_eq hs, ?_⟩
    simp (disch := decide) only [State.f_counted]
    obtain ⟨hTimeLo, hTimeHi, hSmpqLo, hSmpqHi, hNextLo, hNextHi⟩ := hf
    exact ⟨hTimeLo, hTimeHi, hSmpqLo, hSmpqHi, hNextLo, hNextHi, hw.frame, hw.same⟩

end Sys2Proof.Machine
end

/-!
# Enabling and disabling a group, its counts and its log (O23)
-/

section
namespace Sys2Proof.Machine

theorem ifPresent_of_lt {n m b : Nat} {s : State} {o : Out} (hn : n < m) (hm : m ≤ b) : ifPresent n m b s o = o := by
  rw [ifPresent, onInst, if_pos (hn.trans_le hm), if_pos hn]

theorem numCG_le (p : Part) : p.numCG ≤ 24 := by
  unfold Part.numCG
  split <;> decide

/-- A host row of a group's register file, on a die that has the group and whose SCLK runs. -/
theorem hostRow_sclkWrite {s : State} {g a : Nat} {k : State → State} (hg : g < s.part.numCG) (hs : s.sclk g = true) :
    hostRow (ifPresent g s.part.numCG 24 s (.next (s.sclkWrite g a k))) = .next (k s).counted := by
  rw [ifPresent_of_lt hg (numCG_le _), State.sclkWrite, State.writeIn, if_pos hs]
  rfl

theorem State.group_counted (s : State) (g : Nat) : s.counted.group g = s.group g := by
  unfold State.counted
  split <;> rfl

/-! ## Bits of a word -/

theorem bit_eq_getLsbD (w : Word) (i : Nat) : w.bit i = w.getLsbD i := rfl

theorem bit_eq_bits (w : Word) (i : Nat) : w.bit i = (w.bits i 1 != 0) := by
  rw [Word.bit, Word.bits, Nat.testBit_eq_decide_div_mod_eq, Nat.shiftRight_eq_div_pow]
  rcases Nat.mod_two_eq_zero_or_one (w.toNat / 2 ^ i) with h | h <;> simp [h]

theorem bit_setBits_of_disjoint (w : Word) {lo width i : Nat} (v : Nat) (h : lo + width ≤ 32)
    (hd : lo + width ≤ i ∨ i + 1 ≤ lo) : (w.setBits lo width v).bit i = w.bit i := by
  rw [bit_eq_bits, bit_eq_bits, Word.bits_setBits_of_disjoint w v h hd]

theorem State.on_eq_bit (s : State) {r : FieldRef} (h : r.width = 1) (i j : Nat) :
    s.on r i j = (s.word (r.addr i j)).bit r.lo := by
  rw [bit_eq_bits, State.on, State.f, h]

theorem bit_guardWrite {old new prot : Word} {i : Nat} (h : prot.bit i = false) :
    (guardWrite old new prot).1.bit i = new.bit i := by
  simp only [bit_eq_getLsbD] at h ⊢
  unfold guardWrite
  split
  · rfl
  · by_cases hi : i < 32
    · simp only [BitVec.getLsbD_or, BitVec.getLsbD_and, BitVec.getLsbD_not, h, hi, decide_true, Bool.not_false,
        Bool.and_true, Bool.and_false, Bool.or_false]
    · simp only [BitVec.getLsbD_of_ge _ _ (Nat.le_of_not_lt hi)]

/-! ## CGg_CTL -/

/-- The word that a write to CGg_CTL stores where nothing protects it. -/
def cgCtlWord (w : Word) : Word :=
  let w := w &&& 0x103
  if w.bits 0 2 = 3 then w.setBits 0 2 0 else w

theorem bit_cgCtlWord (w : Word) : (cgCtlWord w).bit 8 = w.bit 8 := by
  have h : (w &&& 0x103).bit 8 = w.bit 8 := by simp [bit_eq_getLsbD]
  unfold cgCtlWord
  dsimp only
  split
  · rw [bit_setBits_of_disjoint _ _ (by decide) (by decide), h]
  · exact h

/-- Setting EN, where it is clear, stores CGg_CTL and starts the group (R131). -/
theorem writeCgCtl_of_enables {s : State} {g : Nat} {w : Word} (hs : s.on Fld.CG_CTL_EN g = false)
    (hw : w.bit 8 = true) : s.writeCgCtl g w = (s.cgEnable g).setWord (Reg.CG_CTL.addr g 0) (cgCtlWord w) := by
  unfold State.writeCgCtl
  extract_lets a old _ w' x s'
  have hold : old.bit 8 = false := (State.on_eq_bit s rfl g 0).symm.trans hs
  have hx : x = (w', false) := by simp [x, hold, guardWrite]
  have hb : x.1.bit 8 = true := by rw [hx]; exact (bit_cgCtlWord w).trans hw
  rw [hold, hb]
  simp only [s', hx]
  rfl

/-- Clearing EN, where it is set, stops the group, abandons its handover and stops its lanes (R131). -/
theorem writeCgCtl_of_disables {s : State} {g : Nat} {w : Word} (hs : s.on Fld.CG_CTL_EN g = true)
    (hw : w.bit 8 = false) : ∃ (v : Word) (b : Bool), v.bit 8 = false ∧ s.writeCgCtl g w =
      (List.range 4).foldl (fun s l => s.sourceStops (laneCode g l))
        ((((s.cgDisable g).abandon g).setWord (Reg.CG_CTL.addr g 0) v).flagIf b Fld.CG_STAT_WR_IGN g) := by
  unfold State.writeCgCtl
  extract_lets a old _ w' x s'
  have hold : old.bit 8 = true := (State.on_eq_bit s rfl g 0).symm.trans hs
  have hb : x.1.bit 8 = false := by
    refine (bit_guardWrite ?_).trans ((bit_cgCtlWord w).trans hw)
    rw [hold]
    rfl
  exact ⟨x.1, x.2, hb, by rw [hold, hb]⟩

/-! ## What clearing EN leaves of a group -/

/-- A fold whose steps leave `p` alone leaves it alone. -/
theorem foldl_preserves {α β γ : Type} {f : α → β → α} (p : α → γ) (h : ∀ a b, p (f a b) = p a) (l : List β) (a : α) :
    p (l.foldl f a) = p a := by
  induction l generalizing a with
  | nil => rfl
  | cons b l ih => exact (ih _).trans (h a b)

theorem State.ringRestart_eq (s : State) (r : Nat) : s.ringRestart r = { s with rings := (s.ringRestart r).rings } := by
  unfold State.ringRestart State.closeBlock
  dsimp only
  split <;> rfl

/-- A source that stops touches only the rings. -/
theorem State.groups_sourceStops (s : State) (code : Nat) : (s.sourceStops code).groups = s.groups := by
  refine foldl_preserves State.groups (fun s e => ?_) _ _
  split
  · dsimp only
    split
    · rw [State.ringRestart_eq]
    · rfl
  · rfl

theorem State.regs_sourceStops (s : State) (code : Nat) : (s.sourceStops code).regs = s.regs := by
  refine foldl_preserves State.regs (fun s e => ?_) _ _
  split
  · dsimp only
    split
    · rw [State.ringRestart_eq]
    · rfl
  · rfl

theorem State.group_congr {s t : State} (h : t.groups = s.groups) (g : Nat) : t.group g = s.group g := by
  rw [State.group, h]
  rfl

theorem State.core_abandon (s : State) (g : Nat) : ((s.abandon g).group g).core = (s.group g).core := by
  unfold State.abandon
  dsimp only
  split
  · rfl
  · rw [State.group_congr (s := s.setRot g _) (by simp [State.setRotst, State.logHandover]; rfl)]
    simp [State.setRot]

theorem advance_counts (c : CgCore) (f : SeqCfg) :
    (c.advance f).conv = c.conv ∧ (c.advance f).pdisc = c.pdisc ∧ (c.advance f).held = c.held := by
  unfold CgCore.advance CgCore.start
  dsimp only
  split
  · split <;> exact ⟨rfl, rfl, rfl⟩
  · split <;> exact ⟨rfl, rfl, rfl⟩
  · split <;> exact ⟨rfl, rfl, rfl⟩
  · split
    · split <;> exact ⟨rfl, rfl, rfl⟩
    · exact ⟨rfl, rfl, rfl⟩
  · exact ⟨rfl, rfl, rfl⟩

/-- Clearing EN discards every word of the delay line (R131, R137). -/
theorem clear_counts (c : CgCore) (f : SeqCfg) :
    (c.clear f).seq.st = .idle ∧ (c.clear f).held = [] ∧ (c.clear f).conv = c.conv ∧
      (c.clear f).pdisc = c.pdisc + 4 * c.held.length := by
  obtain ⟨hconv, hpdisc, hheld⟩ := advance_counts c f
  refine ⟨rfl, rfl, hconv, ?_⟩
  have hlen := List.length_eq_length_filter_add (l := c.held) (·.done)
  change (c.advance f).pdisc + 4 * ((c.advance f).held.filter fun h => !h.done).length +
    4 * ((c.advance f).held.filter fun h => h.done).length = _
  rw [hpdisc, hheld]
  omega

theorem State.groups_flagIf (s : State) (b : Bool) (r : FieldRef) (i j : Nat) : (s.flagIf b r i j).groups = s.groups := by
  cases b <;> rfl

theorem State.group_cgCommit (s : State) (g : Nat) :
    (s.cgCommit g).group g = { s.group g with core := (s.group g).core.settleUp, base := none, reqs := CgReqs.nil } := by
  unfold State.cgCommit
  dsimp only
  rw [State.group_congr (s := s.setGroup g { s.group g with
    core := (s.group g).core.settleUp, base := none, reqs := CgReqs.nil })]
  · rw [State.group_setGroup, if_pos rfl]
  · simp only [State.setF_groups, State.groups_flagIf, State.addSat_eq, State.addWrap_eq]

theorem State.core_cgDisable {s : State} {g : Nat} (h : (s.group g).base = none) :
    ((s.cgDisable g).group g).core = ((s.group g).core.clear (s.seqCfg g)).settleUp := by
  unfold State.cgDisable
  dsimp only
  rw [State.group_cgCommit, State.group_setGroup, if_pos rfl, h]
  rfl

/-! ## CGg_CNT_SNAP -/

theorem State.cgSnap_writesOnly (s : State) (g : Nat) :
    WritesOnly [Reg.TWN_HSEQ.base, Reg.CG_CONV_LO.addr g 0, Reg.CG_CONV_HI.addr g 0, Reg.CG_EMIT_LO.addr g 0,
      Reg.CG_EMIT_HI.addr g 0, Reg.CG_SDISC_LO.addr g 0, Reg.CG_SDISC_HI.addr g 0, Reg.CG_PDISC_LO.addr g 0,
      Reg.CG_PDISC_HI.addr g 0] s (s.cgSnap g) := by
  refine WritesOnly.setF (.setF (.setF (.setF (.setF (.setF (.setF (.setF .refl ?_) ?_) ?_) ?_) ?_) ?_) ?_) ?_
  all_goals repeat constructor

/-- The fields a snapshot of a group's counts latches. -/
theorem State.cgSnap_fields {s : State} {g : Nat} {c : CgCore} (hc : (s.group g).base.getD (s.group g).core = c) :
    (s.cgSnap g).f Fld.CG_CONV_LO g = c.conv % 2 ^ 32 ∧ (s.cgSnap g).f Fld.CG_CONV_HI g = c.conv / 2 ^ 32 % 2 ^ 32 ∧
    (s.cgSnap g).f Fld.CG_EMIT_LO g = c.emit % 2 ^ 32 ∧ (s.cgSnap g).f Fld.CG_EMIT_HI g = c.emit / 2 ^ 32 % 2 ^ 32 ∧
    (s.cgSnap g).f Fld.CG_SDISC_LO g = c.sdisc % 2 ^ 32 ∧ (s.cgSnap g).f Fld.CG_SDISC_HI g = c.sdisc / 2 ^ 32 % 2 ^ 32 ∧
    (s.cgSnap g).f Fld.CG_PDISC_LO g = c.pdisc % 2 ^ 32 ∧ (s.cgSnap g).f Fld.CG_PDISC_HI g = c.pdisc / 2 ^ 32 % 2 ^ 32 := by
  unfold State.cgSnap State.setPair
  dsimp only
  rw [hc]
  simp (disch := decide) only [State.f_setF, State.f_setF_beside]
  exact ⟨rfl, rfl, rfl, rfl, rfl, rfl, rfl, rfl⟩

/-! ## The obligation -/

/-- EN after a write that stores CGg_CTL. -/
theorem on_cgCtlEn {g : Nat} {t : State} {v : Word} (hg : g < 24) (ht : t.word (Reg.CG_CTL.addr g 0) = v) :
    t.counted.on Fld.CG_CTL_EN g = v.bit 8 := by
  rw [State.on, State.f_counted _ (FieldRef.addr_ne_hseq hg (by decide)), ← ht]
  exact State.on_eq_bit t rfl g 0

theorem cgEnable_starts {s : State} {g : Nat} (hg : g < s.part.numCG) (hs : s.sclk g = true)
    (he : s.on Fld.CG_CTL_EN g = false) : ∃ v : Word, v.bit 8 = true ∧
      exec (.cgEnable g) s = .next ((s.cgEnable g).setWord (Reg.CG_CTL.addr g 0) v).counted := by
  have hb : (s.word (Reg.CG_CTL.addr g 0) ||| 0x100).bit 8 = true := by simp [bit_eq_getLsbD]
  exact ⟨_, (bit_cgCtlWord _).trans hb, (hostRow_sclkWrite hg hs).trans (by rw [writeCgCtl_of_enables he hb])⟩

theorem cgDisable_stops {s : State} {g : Nat} (hg : g < s.part.numCG) (hs : s.sclk g = true)
    (he : s.on Fld.CG_CTL_EN g = true) : ∃ t : State, exec (.cgDisable g) s = .next t.counted ∧
      t.groups = ((s.cgDisable g).abandon g).groups ∧ (t.word (Reg.CG_CTL.addr g 0)).bit 8 = false := by
  have hb : ((s.word (Reg.CG_CTL.addr g 0)).setBits 8 1 0).bit 8 = false := by
    rw [bit_eq_bits, Word.bits_setBits _ _ (by decide)]
    rfl
  obtain ⟨v, b, hv, hw⟩ := writeCgCtl_of_disables he hb
  refine ⟨_, hostRow_sclkWrite hg hs, ?_, ?_⟩
  · rw [hw, foldl_preserves State.groups fun s l => s.groups_sourceStops _, State.groups_flagIf]
    rfl
  · have hr (t : State) : t.word (Reg.CG_CTL.addr g 0) = Tab.get RegMap.resetAt t.regs (Reg.CG_CTL.addr g 0) := rfl
    have ha : Fld.CG_STAT_WR_IGN.addr g 0 ≠ Reg.CG_CTL.addr g 0 := by
      simp only [FieldRef.addr, Fld.CG_STAT_WR_IGN, Reg.CG_CTL]
      omega
    rw [hw, hr, foldl_preserves State.regs fun s l => s.regs_sourceStops _, ← hr, State.flagIf_eq]
    split
    · rw [State.word_setF, if_neg ha, State.word_setWord, if_pos rfl, hv]
    · rw [State.word_setWord, if_pos rfl, hv]

/-- Settles O23: the write to CGg_CTL by the two changes of EN, the snapshot by the fields it latches. -/
theorem groupEnableDisableAndCounts : Obligations.GroupEnableDisableAndCounts := by
  refine ⟨fun s g hg hs he => ?_, fun s g hg hs he hb => ?_, fun s g hg hs => ?_, fun s g r rest hg hs hr => ?_⟩
  · obtain ⟨v, hv, ht⟩ := cgEnable_starts hg hs he
    have hw : WritesOnly [Reg.TWN_HSEQ.base, Reg.CG_CTL.addr g 0] (s.cgEnable g) _ :=
      (WritesOnly.refl.setWord (w := v) (.tail _ (.head _))).counted List.mem_cons_self
    have hen := (on_cgCtlEn (hg.trans_le (numCG_le _))
      (by rw [State.word_setWord, if_pos rfl] : ((s.cgEnable g).setWord (Reg.CG_CTL.addr g 0) v).word _ = v)).trans hv
    have hgroup (h : Nat) : (((s.cgEnable g).setWord (Reg.CG_CTL.addr g 0) v).counted).group h = (s.cgEnable g).group h := by
      rw [State.group_counted]
      rfl
    have hown : (s.cgEnable g).group g = _ := (State.group_setGroup ..).trans (if_pos rfl)
    refine ⟨_, ht, hen, ?_⟩
    simp only [Others, hgroup, hown, true_and]
    refine ⟨fun d hd => (State.group_setGroup ..).trans (if_neg hd.symm), ?_, hw.same⟩
    rw [hw.frame]
    rfl
  · obtain ⟨t, ht, hgroups, hen⟩ := cgDisable_stops hg hs he
    have hcore : (t.counted.group g).core = ((s.group g).core.clear (s.seqCfg g)).settleUp := by
      rw [State.group_counted, State.group_congr hgroups, State.core_abandon, State.core_cgDisable hb]
    obtain ⟨hidle, hheld, hconv, hpdisc⟩ := clear_counts (s.group g).core (s.seqCfg g)
    refine ⟨_, ht, (on_cgCtlEn (hg.trans_le (numCG_le _)) rfl).trans hen, ?_⟩
    rw [hcore]
    exact ⟨hidle, hheld, hconv, hpdisc⟩
  · have hw := (s.cgSnap_writesOnly g).counted List.mem_cons_self
    have hq {q : FieldRef} (h : q.base + 24 * q.st1 ≤ 0x6C0000) :=
      (s.cgSnap g).f_counted (FieldRef.addr_ne_hseq (hg.trans_le (numCG_le _)) h)
    refine ⟨_, hostRow_sclkWrite hg hs, ?_⟩
    simp (disch := decide) only [hq]
    obtain ⟨hConvLo, hConvHi, hEmitLo, hEmitHi, hSdiscLo, hSdiscHi, hPdiscLo, hPdiscHi⟩ :=
      State.cgSnap_fields (s := s) (g := g) rfl
    exact ⟨hConvLo, hConvHi, hEmitLo, hEmitHi, hSdiscLo, hSdiscHi, hPdiscLo, hPdiscHi, hw.frame, hw.same⟩
  · refine ⟨_, hostRow_sclkWrite hg hs, ?_⟩
    rw [hr]
    rfl

end Sys2Proof.Machine
end

/-!
# Host accesses (O49)

The statement says of a standby that a host's write to HOST_IRQEN which leaves every register as it is leaves the whole state
as it is. Such a write is accepted in full (`State.standbyWrite`, R524, R554), so the interrupt vectors are looked at after it
(`State.afterAccess`, R462): a vector that was recorded with its cause at 1, and whose cause is 0 by now, is recorded anew.
-/

section
namespace Sys2Proof.Machine

/-- A standby that has vector 0 on record with its cause at 1, while no interrupt source is at 1. -/
def staleVector : State :=
  ({ State.reset with
    host := { HostIf.init with
      perst := true, vecs := [(0, { cause := true, pendingBit := false, owed := false })] } } : State).setF
    Fld.TWN_STAT_PAIRED 1

/-- A host's write of 0 to HOST_IRQEN, which holds 0. -/
def irqenWrite : HostAccess := ⟨0, 0, Reg.HOST_IRQEN.base, 1, some [0], [], false⟩

/-- The records of the vectors in a next state. -/
def nextVecs : Out → Option (Tab Vector)
  | .next t => some t.host.vecs
  | _ => none

theorem staleVector_write_kept :
    (staleVector.atAccess 0).writeWords irqenWrite = staleVector.atAccess 0 := by decide +kernel

/-- The write, though it changes no register, drops the record of vector 0. -/
theorem staleVector_registerWrite_vecs : nextVecs (exec (.registerWrite 0 irqenWrite) staleVector) = some [] := by
  decide +kernel

/-- Refutes O49: the write that a standby accepts because it changes nothing is followed by a look at the vectors, which takes
a cause that has fallen off the record. -/
theorem not_hostAccesses : ¬ Obligations.HostAccesses := by
  rintro ⟨-, -, -, -, -, -, -, -, -, standbyKeeps, -⟩
  obtain ⟨t, ht, rfl⟩ := standbyKeeps staleVector 0 0 (by decide +kernel) (by decide +kernel) staleVector_write_kept
  have hvecs : nextVecs (exec (.registerWrite 0 irqenWrite) staleVector) = some staleVector.host.vecs := by
    rw [irqenWrite, ht]
    rfl
  rw [staleVector_registerWrite_vecs] at hvecs
  exact absurd hvecs (by decide)

end Sys2Proof.Machine
end

/-!
# A step takes the front command (O1)
-/

section
namespace Sys2Proof.Machine

theorem step_of_pending {s : State} {c : Instr} {rest : List Instr} (h : s.pending = c :: rest) :
    step s = exec c { s with pending := rest } := by
  rw [step, h]

theorem step_of_idle {s : State} (h : s.pending = []) : step s = .next s := by
  rw [step, h]

/-- Settles O1: the two arms of `step`. -/
theorem stepTakesFrontCommand : Obligations.StepTakesFrontCommand :=
  ⟨fun _ _ => step_of_pending rfl, fun _ => step_of_idle⟩

end Sys2Proof.Machine
end

/-!
# Firings (O19)

A broadcast runs over the groups, the chains and the DACs, an EVENT over the cabinets, an exit from a low-power state over the
groups. Each run is a fold whose steps touch an entry of their own, and registers that the other steps do not read.
-/

section
namespace Sys2Proof.Machine

/-! ## Registers left as they are, and folds -/

section
variable {l : List Nat} {s t u : State}

theorem SameBut.trans (h : SameBut l s t) (h' : SameBut l t u) : SameBut l s u :=
  fun a ha => (h' a ha).trans (h a ha)

theorem SameBut.f_eq (h : SameBut l s t) {q : FieldRef} {i j : Nat} (hq : q.addr i j ∉ l) : t.f q i j = s.f q i j := by
  rw [State.f, h _ hq, State.f]

theorem SameBut.on_eq (h : SameBut l s t) {q : FieldRef} {i j : Nat} (hq : q.addr i j ∉ l) : t.on q i j = s.on q i j := by
  rw [State.on, h.f_eq hq, State.on]

end

theorem WritesOnly.trans {l : List Nat} {s t u : State} (h : WritesOnly l s t) (h' : WritesOnly l t u) : WritesOnly l s u where
  frame := h'.frame.trans (by rw [h.frame])
  same := h.same.trans h'.same

theorem WritesOnly.mono {l l' : List Nat} {s t : State} (h : WritesOnly l s t) (hl : l ⊆ l') : WritesOnly l' s t where
  frame := h.frame
  same a ha := h.same a fun hm => ha (hl hm)

theorem State.xovf_writesOnly (s : State) (bit : Nat) (lost : Bool) :
    WritesOnly [Reg.DEV_XSTAT.base] s (s.xovf bit lost) :=
  .ite (.setF .refl List.mem_cons_self) .refl

/-- The registers beyond DEV_XSTAT are not DEV_XSTAT. -/
theorem FieldRef.addr_not_mem_xstat {q : FieldRef} {i j : Nat} (h : 0x20 < q.base) :
    q.addr i j ∉ [Reg.DEV_XSTAT.base] := by
  simp only [FieldRef.addr, Reg.DEV_XSTAT, List.mem_singleton]
  omega

@[simp] theorem State.xovf_lcs (s : State) (bit : Nat) (lost : Bool) : (s.xovf bit lost).lcs = s.lcs := by
  rw [(s.xovf_writesOnly bit lost).frame]

@[simp] theorem State.xovf_groups (s : State) (bit : Nat) (lost : Bool) : (s.xovf bit lost).groups = s.groups := by
  rw [(s.xovf_writesOnly bit lost).frame]

@[simp] theorem State.xovf_lines (s : State) (bit : Nat) (lost : Bool) : (s.xovf bit lost).lines = s.lines := by
  rw [(s.xovf_writesOnly bit lost).frame]

/-- A fold over distinct indices whose step `k` alone changes `p`, by what it finds of `p` and of a `q` that no step changes. -/
theorem foldl_at {σ ι α β : Type} {f : σ → ι → σ} (p : σ → α) (q : σ → β) (g : α → β → α) {k : ι}
    (hp : ∀ s j, j ≠ k → p (f s j) = p s) (hq : ∀ s j, q (f s j) = q s) (hg : ∀ s, p (f s k) = g (p s) (q s))
    {l : List ι} (hl : l.Nodup) (hk : k ∈ l) (s : σ) : p (l.foldl f s) = g (p s) (q s) := by
  induction l generalizing s with
  | nil => cases hk
  | cons j l ih =>
    obtain ⟨hj, hl⟩ := List.nodup_cons.mp hl
    rw [List.foldl_cons]
    by_cases h : j = k
    · subst h
      have hrest (t : σ) : p (l.foldl f t) = p t :=
        List.foldlRecOn l f (motive := fun u => p u = p t) rfl fun u hu i hi =>
          (hp u i fun e => hj (e ▸ hi)).trans hu
      rw [hrest, hg]
    · rw [ih hl ((List.mem_cons.mp hk).resolve_left (Ne.symm h)), hp s j h, hq]

/-! ## The broadcast -/

/-- The group after the broadcast of `r`, of which it obeys the actions `a` (R28, R495). -/
def Group.receive (x : Group) (r : FiringRec) (a : Nat) : Group :=
  if a = 0 then x
  else { x with inbox := (inboxPush x.inbox x.queued { r with act := a }).1,
                queued := (inboxPush x.inbox x.queued { r with act := a }).2.1 }

theorem Group.receive_of_room {x : Group} {r : FiringRec} {a : Nat} (ha : a ≠ 0) (hx : min x.queued x.inbox.length < 16) :
    x.receive r a = { x with inbox := x.inbox ++ [{ r with act := a }], queued := min x.queued x.inbox.length + 1 } := by
  rw [Group.receive, if_neg ha, inboxPush, if_pos hx]

theorem State.group_firingCg (s : State) (g : Nat) (r : FiringRec) :
    (s.firingCg g r).group g = (s.group g).receive r (s.cgObeys g r) := by
  unfold State.firingCg Group.receive
  dsimp only
  split
  · rfl
  · rw [State.group_congr (State.xovf_groups ..), State.group_setGroup, if_pos rfl]

theorem State.group_firingCg_of_ne (s : State) {h g : Nat} (r : FiringRec) (hg : h ≠ g) :
    (s.firingCg h r).group g = s.group g := by
  unfold State.firingCg
  dsimp only
  split
  · rfl
  · rw [State.group_congr (State.xovf_groups ..), State.group_setGroup, if_neg hg]

theorem State.firingCg_sameBut (s : State) (g : Nat) (r : FiringRec) :
    SameBut [Reg.DEV_XSTAT.base] s (s.firingCg g r) := by
  unfold State.firingCg
  dsimp only
  split
  · exact WritesOnly.refl.same
  · exact (State.xovf_writesOnly ..).same

/-- A group obeys a firing by its own registers (R132). -/
theorem State.cgObeys_of_sameBut {s t : State} (h : SameBut [Reg.DEV_XSTAT.base] s t) (g : Nat) (r : FiringRec) :
    t.cgObeys g r = s.cgObeys g r := by
  unfold State.cgObeys
  simp (disch := decide) only [h.on_eq (FieldRef.addr_not_mem_xstat _), h.f_eq (FieldRef.addr_not_mem_xstat _)]

theorem State.firingCg_lcs (s : State) (g : Nat) (r : FiringRec) : (s.firingCg g r).lcs = s.lcs := by
  unfold State.firingCg
  dsimp only
  split <;> simp

theorem State.firingFc_lcs_groups (s : State) (n : Nat) (r : FiringRec) :
    (s.firingFc n r).lcs = s.lcs ∧ (s.firingFc n r).groups = s.groups := by
  unfold State.firingFc
  dsimp only
  split <;> simp

theorem State.firingDa_lcs_groups (s : State) (d : Nat) (r : FiringRec) :
    (s.firingDa d r).lcs = s.lcs ∧ (s.firingDa d r).groups = s.groups := by
  unfold State.firingDa
  dsimp only
  split <;> simp

theorem State.wmBroadcast_lcs_groups (s : State) (r : FiringRec) :
    (s.wmBroadcast r).lcs = s.lcs ∧ (s.wmBroadcast r).groups = s.groups := by
  constructor
  · exact foldl_preserves State.lcs (fun s n => by dsimp only; split <;> rfl) _ _
  · exact foldl_preserves State.groups (fun s n => by dsimp only; split <;> rfl) _ _

/-- `s` with its oldest firing `r` out of the queue, and its own actions to be performed (R75, R76). -/
def State.dequeue (s : State) (r : FiringRec) (rest : List FiringRec) : State :=
  { s with lcs := { s.lcs with
    firings := rest,
    actions := if r.act / 128 % 16 = 0 then s.lcs.actions
      else s.lcs.actions ++ [{ r with act := r.act &&& 0x780, dest := s.destOf r }] } }

variable {s : State} {r : FiringRec} {rest : List FiringRec}

theorem State.broadcast_lcs (h : s.lcs.firings = r :: rest) : s.broadcast.lcs = (s.dequeue r rest).lcs := by
  unfold State.broadcast
  rw [h]
  dsimp only
  rw [(State.wmBroadcast_lcs_groups ..).1, foldl_preserves State.lcs fun s d => (s.firingDa_lcs_groups d r).1,
    foldl_preserves State.lcs fun s n => (s.firingFc_lcs_groups n r).1,
    foldl_preserves State.lcs fun s g => s.firingCg_lcs g r]
  rfl

theorem State.group_broadcast (h : s.lcs.firings = r :: rest) {g : Nat} (hg : g < s.part.numCG) :
    s.broadcast.group g = (s.group g).receive r (s.cgObeys g r) := by
  have hgroups : s.broadcast.groups =
      ((List.range s.part.numCG).foldl (fun s g => s.firingCg g r) (s.dequeue r rest)).groups := by
    unfold State.broadcast
    rw [h]
    dsimp only
    rw [(State.wmBroadcast_lcs_groups ..).2, foldl_preserves State.groups fun s d => (s.firingDa_lcs_groups d r).2,
      foldl_preserves State.groups fun s n => (s.firingFc_lcs_groups n r).2]
    rfl
  rw [State.group_congr hgroups]
  exact foldl_at (fun s => s.group g) (fun s => s.cgObeys g r) (fun x a => x.receive r a)
    (fun s _ hj => s.group_firingCg_of_ne r hj) (fun s j => State.cgObeys_of_sameBut (s.firingCg_sameBut j r) g r)
    (fun s => s.group_firingCg g r) List.nodup_range (List.mem_range.mpr hg) (s.dequeue r rest)

/-! ## Longcase's own actions -/

/-- `s` with action `k` of `r` no longer to be performed. -/
def State.dropped (s : State) (k : Nat) (r : FiringRec) : State :=
  { s with lcs := { s.lcs with actions := dropAction k r s.lcs.actions } }

theorem State.perform_of_next {k : Nat} {f : FiringRec → State → State} (hs : s.lclk = true) (hr : s.nextAction k = some r) :
    (if s.lclk then s.perform k f else s) = f r (s.dropped k r) := by
  rw [if_pos hs, State.perform, hr]
  rfl

/-- Without LCLK the firings wait (R58). -/
theorem next_of_stopped {t : State} (hs : s.lclk = false) : (.next (if s.lclk then t else s) : Out) = .next s := by
  rw [hs]
  rfl

/-! ### EVENT -/

/-- A pulse on line `e` of CBk (R322, R494). -/
def State.pulseLine (s : State) (e k : Nat) : State :=
  (s.setLineX k e ((s.lineX k e).push (s.gclkFlops (s.f Fld.DIO_BND_CTL_EVCLK k))).1).xovf 3
    ((s.lineX k e).push (s.gclkFlops (s.f Fld.DIO_BND_CTL_EVCLK k))).2

/-- `s` with the pulse of `r` on record. -/
def State.recordPulse (s : State) (r : FiringRec) : State :=
  { s with lcs := { s.lcs with pulsed := (r.tick, r.dest.bits 0 6) :: s.lcs.pulsed.filter fun e => e.1 == r.tick } }

theorem State.eventPulse_of_new (h : (r.tick, r.dest.bits 0 6) ∉ s.lcs.pulsed) :
    s.eventPulse r = (List.range s.part.numCB).foldl (fun s k => s.pulseLine (r.dest.bits 0 6) k) (s.recordPulse r) := by
  unfold State.eventPulse
  dsimp only
  rw [if_neg h]
  rfl

theorem State.lineX_setLineX (s : State) (k e j : Nat) (x : PulseX) :
    (s.setLineX k e x).lineX j e = if k = j then x else s.lineX j e := by
  simp [State.lineX, State.setLineX]

theorem State.lineX_pulseLine (s : State) (e k j : Nat) : (s.pulseLine e k).lineX j e =
    if k = j then ((s.lineX k e).push (s.gclkFlops (s.f Fld.DIO_BND_CTL_EVCLK k))).1 else s.lineX j e := by
  rw [State.lineX, State.pulseLine, State.xovf_lines]
  exact s.lineX_setLineX ..

/-- `t` is `s` but for pulses on the cabinets' lines and for XOVF, which shows those lost. -/
structure Pulsed (s t : State) : Prop where
  frame : t = { s with lines := t.lines, regs := t.regs }
  same : SameBut [Reg.DEV_XSTAT.base] s t

theorem State.pulseLine_pulsed (s : State) (e k : Nat) : Pulsed s (s.pulseLine e k) where
  frame := by
    rw [State.pulseLine, (State.xovf_writesOnly ..).frame]
    rfl
  same := (State.xovf_writesOnly ..).same

theorem Pulsed.trans {t u : State} (h : Pulsed s t) (h' : Pulsed t u) : Pulsed s u where
  frame := h'.frame.trans (by rw [h.frame])
  same := h.same.trans h'.same

theorem Pulsed.lcs {t : State} (h : Pulsed s t) : t.lcs = s.lcs := by
  rw [h.frame]

theorem pulsed_lines (s : State) (e : Nat) (l : List Nat) : Pulsed s (l.foldl (fun s k => s.pulseLine e k) s) :=
  List.foldlRecOn l _ (motive := Pulsed s) ⟨rfl, fun _ _ => rfl⟩ fun t ht k _ => ht.trans (t.pulseLine_pulsed e k)

/-- The flops of a line's crossing follow from the clock registers. -/
theorem State.lineFlops_of_sameBut {s t : State} (h : SameBut [Reg.DEV_XSTAT.base] s t) (k : Nat) :
    t.gclkFlops (t.f Fld.DIO_BND_CTL_EVCLK k) = s.gclkFlops (s.f Fld.DIO_BND_CTL_EVCLK k) := by
  unfold State.gclkFlops
  simp (disch := decide) only [h.f_eq (FieldRef.addr_not_mem_xstat _)]

theorem State.lineX_pulseLines {k : Nat} (s : State) (e : Nat) {n : Nat} (hk : k < n) :
    ((List.range n).foldl (fun s k => s.pulseLine e k) s).lineX k e =
      ((s.lineX k e).push (s.gclkFlops (s.f Fld.DIO_BND_CTL_EVCLK k))).1 :=
  foldl_at (fun s => s.lineX k e) (fun s => s.gclkFlops (s.f Fld.DIO_BND_CTL_EVCLK k)) (fun x nd => (x.push nd).1)
    (fun s j hj => (s.lineX_pulseLine e j k).trans (if_neg hj))
    (fun s j => State.lineFlops_of_sameBut (s.pulseLine_pulsed e j).same k)
    (fun s => (s.lineX_pulseLine e k k).trans (if_pos rfl)) List.nodup_range (List.mem_range.mpr hk) s

/-! ### WAKE -/

theorem settleRegs_lt {p : Part} {a : Nat} (h : a ∈ settleRegs p) : a < 0x118000 := by
  obtain ⟨g, hg, ha⟩ := List.mem_flatMap.mp h
  have hg := (List.mem_range.mp hg).trans_le (numCG_le p)
  simp only [List.mem_cons, List.not_mem_nil, or_false, FieldRef.addr, Reg.CG_STAT, Reg.CG_IRQ] at ha
  omega

theorem WritesOnly.setSettled {l : List Nat} {s t : State} (h : WritesOnly l s t) {g : Nat} {b : Bool}
    (hstat : Reg.CG_STAT.addr g 0 ∈ l) (hirq : Reg.CG_IRQ.addr g 0 ∈ l) : WritesOnly l s (t.setSettled g b) :=
  .ite h (.setF (.setF h hstat) hirq)

/-- `s` with its exit from a low-power state begun. -/
def State.leaving (s : State) : State := { s with pwr := { s.pwr with stage := .leaving, leftAt := some s.lcs.time } }

theorem State.leaving_setF (s : State) (r : FieldRef) (v i j : Nat) : (s.setF r v i j).leaving = s.leaving.setF r v i j := (rfl)

/-- An exit that starts takes REF_SETTLED of every group away, out of Doze apart (R126, R512, R515). -/
theorem State.leave_writesOnly (s : State) :
    WritesOnly (if s.mode = .doze then [] else settleRegs s.part) s.leaving s.leave := by
  unfold State.leave
  dsimp only
  split
  · exact .refl
  · refine List.foldlRecOn _ _ (motive := WritesOnly _ s.leaving) .refl fun t ht g hg => ht.setSettled ?_ ?_
    all_goals exact List.mem_flatMap.mpr ⟨g, hg, by simp⟩

/-- A wake in the state itself, other than by SET_MODE (cause 5), holds its cause and starts the exit (R511). -/
theorem State.wake_of_asleep {why : Nat} (hw : why ≠ 5) (hs : s.standby = false) (hm : s.mode.low = true)
    (hp : s.pwr.stage = .asleep) :
    s.wake why = (({ s with pwr := { s.pwr with cause := 13 } } : State).setF Fld.PWR_STAT_WHY why).leave := by
  rw [State.wake, hs, if_neg Bool.false_ne_true, State.wakeOwn, if_pos hm, hp, if_neg hw]

/-- Starting the exit leaves the wake's cause on show. -/
theorem State.why_leave (s : State) : s.leave.f Fld.PWR_STAT_WHY = s.f Fld.PWR_STAT_WHY := by
  refine (s.leave_writesOnly.same.f_eq fun h => ?_).trans rfl
  split at h
  · cases h
  · exact absurd (settleRegs_lt h) (by decide)

/-- What a firing's wake (cause 1) leaves of a die that sleeps. -/
theorem State.wake_firing (hs : s.standby = false) (hm : s.mode.low = true) (hp : s.pwr.stage = .asleep) :
    WritesOnly (Fld.PWR_STAT_WHY.addr 0 0 :: (if s.mode = .doze then [] else settleRegs s.part))
      { s with pwr := { s.pwr with cause := 13, stage := .leaving, leftAt := some s.lcs.time } } (s.wake 1) ∧
    (s.wake 1).f Fld.PWR_STAT_WHY = 1 := by
  rw [State.wake_of_asleep (by decide) hs hm hp]
  constructor
  · have hleave := State.leave_writesOnly (({ s with pwr := { s.pwr with cause := 13 } } : State).setF Fld.PWR_STAT_WHY 1)
    rw [State.leaving_setF, State.setF_mode, State.setF_part] at hleave
    exact .trans (.setF .refl List.mem_cons_self) (hleave.mono (List.subset_cons_self ..))
  · exact (State.why_leave _).trans (State.f_setF _ _ _ _ _ (by decide))

/-! ### IRQ -/

theorem State.firingIrq_dropped (s : State) (r : FiringRec) : (s.dropped 10 r).firingIrq r =
    { (if r.timer then s.setF Fld.LCS_TIRQ_BITS (s.f Fld.LCS_TIRQ_BITS ||| 2 ^ (r.num % 32))
        else s.setF Fld.LCS_AIRQ_BITS (s.f Fld.LCS_AIRQ_BITS (r.num / 32) ||| 2 ^ (r.num % 32)) (r.num / 32) : State) with
      lcs := { s.lcs with actions := dropAction 10 r s.lcs.actions } } := by
  unfold State.firingIrq
  split <;> rfl

/-! ## The obligation -/

theorem execFiringRecord_eq (hs : s.lclk = true) : exec .firingRecord s = .next s.broadcast :=
  congrArg Host.Outcome.next (if_pos hs)

/-- The next state of a command that performs action `k` of the oldest firing that has it. -/
theorem next_performed {k : Nat} {f : FiringRec → State → State} {t : State} (hs : s.lclk = true)
    (hr : s.nextAction k = some r) (ht : f r (s.dropped k r) = t) :
    (.next (if s.lclk then s.perform k f else s) : Out) = .next t := by
  rw [State.perform_of_next hs hr, ht]

/-- Settles O19: the broadcast by the one step of its fold that reaches the group, EVENT by the one that reaches the line, the
other actions by the state each is performed on. -/
theorem firingsAreBroadcastAndPerformed : Obligations.FiringsAreBroadcastAndPerformed := by
  refine ⟨fun s r rest g hs hf hg ha hroom => ?_, fun s r k hs hr hnew hk => ?_, fun s r hs hr hold => ?_,
    fun s r hs hr halloc => ?_, fun s r hs hsb hr hm hp => ?_, fun s r hs hr => ?_, fun s hs => ⟨s, next_of_stopped hs, rfl⟩,
    fun s hs => ⟨s, next_of_stopped hs, rfl⟩, fun s hs => ⟨s, next_of_stopped hs, rfl⟩,
    fun s hs => ⟨s, next_of_stopped hs, rfl⟩, fun s hs => ⟨s, next_of_stopped hs, rfl⟩⟩
  · refine ⟨_, execFiringRecord_eq hs, ?_, ?_, fun hact => ?_⟩
    · rw [State.broadcast_lcs hf]
      rfl
    · rw [State.group_broadcast hf hg, Group.receive_of_room ha hroom]
    · rw [State.broadcast_lcs hf]
      exact if_neg hact
  · have hp := pulsed_lines ((s.dropped 7 r).recordPulse r) (r.dest.bits 0 6) (List.range s.part.numCB)
    refine ⟨_, next_performed hs hr (State.eventPulse_of_new hnew), State.lineX_pulseLines _ _ hk, ?_, ?_, hp.same⟩
    · exact hp.lcs ▸ List.mem_cons_self
    · exact hp.frame.trans (by rw [← hp.lcs]; rfl)
  · exact ⟨_, next_performed hs hr (if_pos hold), rfl⟩
  · refine ⟨_, next_performed hs hr (if_pos halloc), ?_, rfl⟩
    exact congrArg Chan.db ((State.chan_setChan ..).trans (if_pos rfl))
  · obtain ⟨⟨hframe, hsame⟩, hwhy⟩ := State.wake_firing (s := s.dropped 9 r) hsb hm hp
    have hpwr := congrArg State.pwr hframe
    refine ⟨_, next_performed hs hr rfl, congrArg Power.stage hpwr, hwhy, congrArg State.lcs hframe,
      congrArg Power.leftAt hpwr, ?_, hsame⟩
    rw [hframe]
    rfl
  · exact ⟨_, next_performed hs hr (s.firingIrq_dropped r), rfl⟩

end Sys2Proof.Machine
end

/-!
# Completion, halts and the restart of the Bureau (O57)

A command's end shows in BUR_STATUS and then lets held sources go on (`State.pump`); a halt ends the command in progress and
resets the Bureau's agent; a restart shows the keys again, hands out the calibration buses and takes the command that waits.
What each of these leaves unchanged is said once, by `Delivered`, `AgentsReset` and `WritesOnly`.
-/

section
namespace Sys2Proof.Machine

/-! ## Sources that go on -/

/-- `t` is `s` after words of fabric ports and downstream rings have gone on to their consumers, which shows in registers of
the rings alone. -/
structure Delivered (s t : State) : Prop where
  frame : t = { s with cabs := t.cabs, feeds := t.feeds, rings := t.rings, regs := t.regs }
  low : ∀ a < Reg.DMA_CFG.base, t.word a = s.word a
  mismatch : t.on Fld.TWN_IRQ_MISMATCH = s.on Fld.TWN_IRQ_MISMATCH

namespace Delivered

variable {s t u : State}

/-- No register changes. -/
theorem tables {c : Tab Cabinet} {f : Tab Feed} {r : Tab Ring} :
    Delivered s { s with cabs := c, feeds := f, rings := r } :=
  ⟨rfl, fun _ _ => rfl, rfl⟩

theorem trans (h : Delivered s t) (h' : Delivered t u) : Delivered s u where
  frame := h'.frame.trans (by rw [h.frame])
  low a ha := (h'.low a ha).trans (h.low a ha)
  mismatch := h'.mismatch.trans h.mismatch

theorem bur (h : Delivered s t) : t.bur = s.bur := by
  rw [h.frame]

theorem mode (h : Delivered s t) : t.mode = s.mode := by
  rw [h.frame]

theorem groups (h : Delivered s t) : t.groups = s.groups := by
  rw [h.frame]

theorem cal (h : Delivered s t) : t.cal = s.cal := by
  rw [h.frame]

theorem f_eq (h : Delivered s t) {q : FieldRef} {i j : Nat} (hq : q.addr i j < Reg.DMA_CFG.base) : t.f q i j = s.f q i j := by
  rw [State.f, h.low _ hq, State.f]

theorem foldl {β : Type} {f : State → β → State} (hf : ∀ s b, Delivered s (f s b)) (l : List β) : Delivered s (l.foldl f s) :=
  List.foldlRecOn l f (motive := Delivered s) tables fun t ht b _ => ht.trans (hf t b)

/-- A ring's register is above the Bureau's. -/
theorem low_setF (s : State) {q : FieldRef} (hq : Reg.DMA_CFG.base ≤ q.base) (v r : Nat) :
    ∀ a < Reg.DMA_CFG.base, (s.setF q v r).word a = s.word a := by
  intro a ha
  rw [State.word_setF, if_neg]
  simp only [FieldRef.addr]
  omega

theorem tail (s : State) (v r : Nat) : Delivered s (s.setF Fld.DMA_TAIL v r) where
  frame := rfl
  low := low_setF s (by decide) v r
  mismatch := by
    rw [State.on, State.on, State.f_setF_of_addr]
    simp only [FieldRef.addr, Fld.DMA_TAIL, Fld.TWN_IRQ_MISMATCH]
    omega

/-- BLK stands beside MISMATCH where the number of a ring that no part has leads its flags to TWN_IRQ. -/
theorem blk (s : State) (v r : Nat) : Delivered s (s.setF Fld.DMA_IRQ_BLK v r) where
  frame := rfl
  low := low_setF s (by decide) v r
  mismatch := by rw [State.on, State.on, State.f_setF_of_disjoint _ _ _ _ _ _ _ _ (by decide) (by decide)]

theorem emit (s : State) (code : Nat) (ws : List StreamWord) : Delivered s (s.emit code ws) := by
  unfold State.emit
  split <;> exact tables

theorem fpDrain (k j fuel : Nat) (s : State) : Delivered s (s.fpDrain k j fuel) := by
  induction fuel generalizing s with
  | zero => exact tables
  | succ n ih =>
    unfold State.fpDrain
    dsimp only
    split
    · exact tables
    · split
      · exact tables
      · exact .trans (.trans tables (emit ..)) (ih _)

theorem drainPorts (s : State) : Delivered s s.drainPorts :=
  foldl (fun _ (e : Nat × Cabinet) => foldl (fun s j => fpDrain e.1 j 256 s) _) _

theorem countBlock (s : State) (r : Nat) : Delivered s (s.countBlock r) := by
  unfold State.countBlock
  dsimp only
  split
  · exact .trans tables (blk ..)
  · exact tables

theorem deliver (s : State) (r w : Nat) : Delivered s (s.deliver r w) := by
  unfold State.deliver
  dsimp only
  have hword {x : Ring} {ws : List StreamWord} : Delivered s ((s.setRing r x).emit (downCode r) ws) := .trans tables (emit ..)
  split
  · exact hword
  · exact .trans hword (.trans tables (.trans (tail ..) (countBlock ..)))

theorem pumpRing (r fuel : Nat) (s : State) : Delivered s (s.pumpRing r fuel) := by
  induction fuel generalizing s with
  | zero => exact tables
  | succ n ih =>
    unfold State.pumpRing
    split
    · exact tables
    · split
      · exact tables
      · exact .trans (deliver ..) (ih _)

theorem countLate (s : State) (r : Nat) : Delivered s (s.countLate r) := by
  unfold State.countLate
  dsimp only
  split <;> exact tables

theorem pump (s : State) : Delivered s s.pump := by
  refine .trans (drainPorts s) (foldl (fun s e => ?_) _)
  split
  · exact tables
  · exact .trans (countLate ..) (pumpRing ..)

end Delivered

/-! ## The end of a command -/

/-- `s` with the end of a command in BUR_STATUS, and CAL_STAT.RUNNING clear (R466). -/
def State.showEnd (s : State) (status : Nat) : State :=
  let s := ((s.setF Fld.BUR_STATUS_BUSY 0).flag Fld.BUR_STATUS_DONE).setF Fld.BUR_STATUS_STATUS status
  (s.setF Fld.BUR_STATUS_TAG (s.f Fld.BUR_CMD_TAG)).setF Fld.CAL_STAT_RUNNING 0

theorem State.showEnd_writesOnly (s : State) (status : Nat) :
    WritesOnly [Reg.BUR_STATUS.base, Reg.CAL_STAT.base] s (s.showEnd status) := by
  refine WritesOnly.setF (.setF (.setF (.setF (.setF .refl ?_) ?_) ?_) ?_) ?_
  all_goals decide

/-- What BUR_STATUS shows of the end. -/
theorem State.showEnd_fields (s : State) (status : Nat) :
    (s.showEnd status).on Fld.BUR_STATUS_BUSY = false ∧ (s.showEnd status).on Fld.BUR_STATUS_DONE = true ∧
    (s.showEnd status).f Fld.BUR_STATUS_STATUS = status % 256 ∧
    (s.showEnd status).f Fld.BUR_STATUS_TAG = s.f Fld.BUR_CMD_TAG := by
  unfold State.showEnd State.on
  simp (disch := decide) only [State.flag_eq, State.f_setF, State.f_setF_of_disjoint, State.f_setF_of_addr]
  exact ⟨rfl, rfl, rfl, Nat.mod_eq_of_lt (Word.bits_lt ..)⟩

/-- `s` with no command in progress. -/
def State.endJob (s : State) : State := { s with bur := { s.bur with job := none, bulkIn := none } }

theorem State.endJob_word (s : State) (a : Nat) : s.endJob.word a = s.word a := (rfl)
theorem State.endJob_on (s : State) (q : FieldRef) (i j : Nat) : s.endJob.on q i j = s.on q i j := (rfl)
theorem State.endJob_f (s : State) (q : FieldRef) (i j : Nat) : s.endJob.f q i j = s.f q i j := (rfl)

theorem State.connect_delivered (s : State) (c code : Nat) : Delivered s (s.connect c code) := by
  rw [State.connect_frame]
  exact .tables

theorem State.endCommand_delivered (s : State) (status : Nat) :
    Delivered (s.showEnd status).endJob (s.endCommand status) :=
  (State.connect_delivered ..).trans (.pump _)

/-- `t` is `s` with its command in progress at an end. -/
structure Ended (status : Nat) (s t : State) : Prop where
  bur : t.bur = { s.bur with job := none, bulkIn := none }
  mode : t.mode = s.mode
  groups : t.groups = s.groups
  cal : t.cal = s.cal
  busy : t.on Fld.BUR_STATUS_BUSY = false
  done : t.on Fld.BUR_STATUS_DONE = true
  status : t.f Fld.BUR_STATUS_STATUS = status % 256
  tag : t.f Fld.BUR_STATUS_TAG = s.f Fld.BUR_CMD_TAG
  low : ∀ a < Reg.CAL_STAT.base, a ≠ Reg.BUR_STATUS.base → t.word a = s.word a
  mismatch : t.on Fld.TWN_IRQ_MISMATCH = s.on Fld.TWN_IRQ_MISMATCH

theorem Ended.f_eq {status : Nat} {s t : State} (h : Ended status s t) {q : FieldRef} {i j : Nat}
    (hq : q.addr i j < Reg.CAL_STAT.base ∧ q.addr i j ≠ Reg.BUR_STATUS.base) : t.f q i j = s.f q i j := by
  rw [State.f, h.low _ hq.1 hq.2, State.f]

theorem State.endCommand_ended (s : State) (status : Nat) : Ended status s (s.endCommand status) := by
  have h := s.endCommand_delivered status
  obtain ⟨hframe, hsame⟩ := s.showEnd_writesOnly status
  obtain ⟨hbusy, hdone, hstatus, htag⟩ := s.showEnd_fields status
  have hf {q : FieldRef} (hq : q.addr 0 0 < Reg.DMA_CFG.base) : (s.endCommand status).f q = (s.showEnd status).f q := by
    rw [h.f_eq hq, State.endJob_f]
  exact {
    bur := h.bur.trans (by rw [State.endJob, hframe])
    mode := h.mode.trans (by rw [State.endJob, hframe])
    groups := h.groups.trans (by rw [State.endJob, hframe])
    cal := h.cal.trans (by rw [State.endJob, hframe])
    busy := by rw [State.on, hf (by decide)]; exact hbusy
    done := by rw [State.on, hf (by decide)]; exact hdone
    status := (hf (by decide)).trans hstatus
    tag := (hf (by decide)).trans htag
    low := fun a ha hb => by rw [h.low a (ha.trans (by decide)), State.endJob_word, hsame a (by simp [hb, ha.ne])]
    mismatch := by rw [h.mismatch, State.endJob_on, hsame.on_eq (by decide)] }

/-! ## Completion -/

theorem State.flagIf_false (s : State) (r : FieldRef) (i j : Nat) : s.flagIf false r i j = s := (rfl)

/-- The last effects of job `j`: its results, and a commit's final write. -/
def State.lastEffects (s : State) (j : Job) : State :=
  let t := if j.status = stOk ∨ j.always then s.writeResults j.results else s
  match j.commit with
  | some c => if j.status = stOk then t.commitSet c else t
  | none => t

theorem State.lastEffects_of_ok {s : State} {j : Job} (hs : j.status = stOk) (hc : j.commit = none) :
    s.lastEffects j = s.writeResults j.results := by
  rw [State.lastEffects, hc]
  exact if_pos (.inl hs)

theorem State.lastEffects_of_error {s : State} {j : Job} (hs : j.status ≠ stOk) (ha : j.always = false) :
    s.lastEffects j = s := by
  have h : ¬ (j.status = stOk ∨ j.always = true) := by simp [hs, ha]
  rw [State.lastEffects, if_neg h]
  split
  · exact if_neg hs
  · rfl

theorem State.lastEffects_of_empty {s : State} {j : Job} (hr : j.results = []) (hc : j.commit = none) :
    s.lastEffects j = s := by
  rw [State.lastEffects, hc, hr]
  exact ite_self _

/-- A job without a payload completes with its own status (R466); in a pair another status of the other die shows (R524). -/
theorem State.complete_eq {s : State} {j : Job} (p : Option Nat) (hj : s.bur.job = some j) (ho : j.out = none)
    (hn : j.need = 0) : s.complete p = ((s.lastEffects j).flagIf
      ((s.lastEffects j).on Fld.TWN_STAT_PAIRED && p.any (· != j.status)) Fld.TWN_IRQ_MISMATCH).endCommand j.status := by
  rw [State.complete, hj]
  dsimp only
  rw [State.jobEnds, ho]
  dsimp only
  rw [if_pos hn]
  rfl

theorem execCommandComplete_eq {s : State} {j : Job} (p : Option Nat) (hb : s.bur.running = true) (hj : s.bur.job = some j)
    (ho : j.out = none) (hn : j.need = 0) : exec (.commandComplete p) s = .next (((s.lastEffects j).flagIf
      ((s.lastEffects j).on Fld.TWN_STAT_PAIRED && p.any (· != j.status)) Fld.TWN_IRQ_MISMATCH).endCommand j.status) := by
  rw [← State.complete_eq p hj ho hn]
  exact congrArg Host.Outcome.next (if_pos hb)

theorem any_ne_eq_false {α : Type} [DecidableEq α] {p : Option α} {x : α} (h : p.all (· = x) = true) :
    p.any (· != x) = false := by
  cases p with
  | none => rfl
  | some y => simpa using h

/-! ## Halts -/

/-- `t` is `s` after resets of agents, in which pulses to agent ports may be lost. -/
structure AgentsReset (s t : State) : Prop where
  frame : t = { s with chans := t.chans, cabs := t.cabs, host := t.host, regs := t.regs }
  same : SameBut [Reg.DEV_XSTAT.base] s t

namespace AgentsReset

variable {s t u : State}

/-- No register changes. -/
theorem tables {x : Tab Chan} {c : Tab Cabinet} {h : HostIf} : AgentsReset s { s with chans := x, cabs := c, host := h } :=
  ⟨rfl, fun _ _ => rfl⟩

theorem trans (h : AgentsReset s t) (h' : AgentsReset t u) : AgentsReset s u where
  frame := h'.frame.trans (by rw [h.frame])
  same := h.same.trans h'.same

theorem bur (h : AgentsReset s t) : t.bur = s.bur := by
  rw [h.frame]

theorem mode (h : AgentsReset s t) : t.mode = s.mode := by
  rw [h.frame]

theorem groups (h : AgentsReset s t) : t.groups = s.groups := by
  rw [h.frame]

theorem rings (h : AgentsReset s t) : t.rings = s.rings := by
  rw [h.frame]

theorem lcs (h : AgentsReset s t) : t.lcs = s.lcs := by
  rw [h.frame]

theorem ite {c : Prop} [Decidable c] (h : AgentsReset s t) (h' : AgentsReset s u) :
    AgentsReset s (if c then t else u) := by
  split <;> assumption

theorem foldl {β : Type} {f : State → β → State} (hf : ∀ s b, AgentsReset s (f s b)) (l : List β) :
    AgentsReset s (l.foldl f s) :=
  List.foldlRecOn l f (motive := AgentsReset s) tables fun t ht b _ => ht.trans (hf t b)

theorem xovf (s : State) (bit : Nat) (lost : Bool) : AgentsReset s (s.xovf bit lost) where
  frame := by rw [(s.xovf_writesOnly bit lost).frame]
  same := (s.xovf_writesOnly bit lost).same

theorem noteVector (s before : State) (acc : Bool) (f v : Nat) : AgentsReset s (s.noteVector before acc f v) := by
  unfold State.noteVector
  extract_lets c can x y rose lost
  repeat' split
  all_goals exact tables

theorem lowerChan (s : State) (c : Nat) (x : Chan) : AgentsReset s (s.lowerChan c x) :=
  .trans (t := s.setChan c x) tables (foldl (fun t (e : Nat × Nat) => noteVector t s false e.1 e.2) _)

theorem notifyFault (s : State) (c : Nat) (aborted : Bool) : AgentsReset s (s.notifyFault c aborted) := by
  unfold State.notifyFault
  dsimp only
  split
  · exact tables
  · exact .trans tables (xovf ..)
  · exact tables

theorem receiverReset (s : State) (c : Nat) : AgentsReset s (s.receiverReset c) :=
  .ite tables (.trans (lowerChan ..) (notifyFault ..))

theorem senderReset (s : State) (c : Nat) : AgentsReset s (s.senderReset c) := tables

theorem resetAgents (s : State) (p : Agent → Bool) : AgentsReset s (s.resetAgents p) :=
  foldl (fun _ _ => .ite (.trans (.ite (receiverReset ..) tables) (.ite (senderReset ..) tables)) tables) _

end AgentsReset

/-- `s` with its Bureau stopped, and no background calibration on a bus. -/
def State.stopBureau (s : State) : State :=
  { s with bur := { s.bur with running := false }, cal := { s.cal with bus := [none, none, none, none] } }

/-- `s` with a restart of the Bureau counted and flagged. -/
def State.showRestart (s : State) : State := (s.addSat Fld.BUR_BOOT_RESTARTS 1).flag Fld.BUR_STAT_RESTART

/-- `s` with its Bureau halted, once no command is in progress. -/
def State.halted (s : State) : State := s.stopBureau.showRestart.resetBureauAgent

theorem State.showRestart_writesOnly (s : State) : WritesOnly [Reg.BUR_BOOT.base, Reg.BUR_STAT.base] s s.showRestart := by
  refine WritesOnly.setF (.setF .refl ?_) ?_
  all_goals decide

theorem State.showRestart_fields (s : State) : s.showRestart.on Fld.BUR_STAT_RESTART = true ∧
    s.showRestart.f Fld.BUR_BOOT_RESTARTS = min (s.f Fld.BUR_BOOT_RESTARTS + 1) 255 := by
  unfold State.showRestart State.on
  simp (disch := decide) only [State.addSat_eq, State.flag_eq, State.f_setF, State.f_setF_of_addr]
  exact ⟨rfl, Nat.mod_eq_of_lt (Nat.lt_succ_of_le (Nat.min_le_right ..))⟩

/-- `t` is `s` with its Bureau halted. -/
structure Halted (s t : State) : Prop where
  bur : t.bur = { s.bur with running := false }
  mode : t.mode = s.mode
  groups : t.groups = s.groups
  rings : t.rings = s.rings
  lcs : t.lcs = s.lcs
  restart : t.on Fld.BUR_STAT_RESTART = true
  restarts : t.f Fld.BUR_BOOT_RESTARTS = min (s.f Fld.BUR_BOOT_RESTARTS + 1) 255
  same : SameBut [Reg.DEV_XSTAT.base, Reg.BUR_BOOT.base, Reg.BUR_STAT.base] s t

theorem State.halted_spec (s : State) : Halted s s.halted := by
  have h : AgentsReset s.stopBureau.showRestart s.halted := .resetAgents ..
  obtain ⟨hframe, hsame⟩ := s.stopBureau.showRestart_writesOnly
  obtain ⟨hrestart, hrestarts⟩ := s.stopBureau.showRestart_fields
  exact {
    bur := h.bur.trans (by rw [hframe]; rfl)
    mode := h.mode.trans (by rw [hframe]; rfl)
    groups := h.groups.trans (by rw [hframe]; rfl)
    rings := h.rings.trans (by rw [hframe]; rfl)
    lcs := h.lcs.trans (by rw [hframe]; rfl)
    restart := (h.same.on_eq (by decide)).trans hrestart
    restarts := (h.same.f_eq (by decide)).trans hrestarts
    same := fun a ha => by
      obtain ⟨hxstat, hrest⟩ := not_or.mp (mt List.mem_cons.mpr ha)
      exact (h.same a (by simpa using hxstat)).trans (hsame a hrest) }

theorem State.haltBureau_idle {s : State} (hb : s.bur.running = true) (hj : s.bur.job = none) : s.haltBureau = s.halted := by
  rw [State.haltBureau, if_pos hb, hj]
  rfl

/-- The command in progress ends with ST_ABORTED, after its payload, if any, has left the ring. -/
theorem State.haltBureau_busy {s : State} {j : Job} (hb : s.bur.running = true) (hj : s.bur.job = some j) :
    ∃ (f : Tab Feed) (r : Tab Ring),
      s.haltBureau = (({ s with feeds := f, rings := r } : State).endCommand stAborted).halted := by
  rw [State.haltBureau, if_pos hb, hj]
  dsimp only
  split
  · exact ⟨_, _, rfl⟩
  · exact ⟨s.feeds, s.rings, rfl⟩

/-- What a halt leaves where no command was in progress. -/
theorem State.haltBureau_idle_spec {s : State} (hb : s.bur.running = true) (hj : s.bur.job = none) :
    s.haltBureau.bur = { s.bur with running := false } ∧ s.haltBureau.on Fld.BUR_STAT_RESTART = true ∧
    s.haltBureau.f Fld.BUR_BOOT_RESTARTS = min (s.f Fld.BUR_BOOT_RESTARTS + 1) 255 ∧ s.haltBureau.mode = s.mode ∧
    s.haltBureau.groups = s.groups ∧ s.haltBureau.rings = s.rings ∧ s.haltBureau.lcs = s.lcs := by
  obtain ⟨hbur, hmode, hgroups, hrings, hlcs, hrestart, hrestarts, -⟩ := s.halted_spec
  rw [State.haltBureau_idle hb hj]
  exact ⟨hbur, hrestart, hrestarts, hmode, hgroups, hrings, hlcs⟩

theorem State.haltBureau_halted {s : State} (hb : s.bur.running = false) : s.haltBureau = s :=
  if_neg (by simp [hb])

/-- What a halt leaves where a command was in progress (R475). -/
theorem State.haltBureau_busy_spec {s : State} {j : Job} (hb : s.bur.running = true) (hj : s.bur.job = some j) :
    s.haltBureau.bur.running = false ∧ s.haltBureau.bur.job = none ∧ s.haltBureau.bur.waiting = s.bur.waiting ∧
    s.haltBureau.f Fld.BUR_STATUS_STATUS = 12 ∧ s.haltBureau.on Fld.BUR_STATUS_DONE = true ∧
    s.haltBureau.on Fld.BUR_STATUS_BUSY = false ∧ s.haltBureau.on Fld.BUR_STAT_RESTART = true ∧
    s.haltBureau.f Fld.BUR_BOOT_RESTARTS = min (s.f Fld.BUR_BOOT_RESTARTS + 1) 255 ∧ s.haltBureau.mode = s.mode ∧
    s.haltBureau.groups = s.groups ∧ s.haltBureau.bur.nv = s.bur.nv := by
  obtain ⟨f, r, h⟩ := State.haltBureau_busy hb hj
  have he := State.endCommand_ended { s with feeds := f, rings := r } stAborted
  have hh := (State.endCommand { s with feeds := f, rings := r } stAborted).halted_spec
  have hboot := he.f_eq (q := Fld.BUR_BOOT_RESTARTS) (i := 0) (j := 0) (by decide)
  rw [h]
  refine ⟨by rw [hh.bur], by rw [hh.bur, he.bur], by rw [hh.bur, he.bur], (hh.same.f_eq (by decide)).trans he.status,
    (hh.same.on_eq (by decide)).trans he.done, (hh.same.on_eq (by decide)).trans he.busy, hh.restart, ?_,
    hh.mode.trans he.mode, hh.groups.trans he.groups, by rw [hh.bur, he.bur]⟩
  rw [hh.restarts, hboot]
  rfl

/-! ## The restart -/

/-- `s` after a re-verification that passes, before a decision or a command that waits is taken (R475, R482). -/
def State.revived (s : State) : State :=
  ((({ s with bur := { s.bur with running := true } } : State).showKeys s.bur.nv.keyres).keyLow).busUpdates

/-- `s` with its Bureau running. -/
def State.startBureau (s : State) : State := { s with bur := { s.bur with running := true } }

/-- The registers in which the keys show. -/
def keyRegs : List Nat :=
  [Reg.BUR_KEYIDX_LO.base, Reg.BUR_KEYIDX_HI.base, Reg.BUR_KEYRES_LO.base, Reg.BUR_KEYRES_HI.base, Reg.BUR_STAT.base]

theorem State.showKeys_writesOnly (s : State) (i : Nat) : WritesOnly keyRegs s (s.showKeys i) := by
  refine WritesOnly.setF (.setF (.setF (.setF .refl ?_) ?_) ?_) ?_
  all_goals decide

theorem State.keyLow_writesOnly (s : State) : WritesOnly [Reg.BUR_STAT.base] s s.keyLow :=
  .ite (.setF .refl List.mem_cons_self) .refl

theorem WritesOnly.bur {l : List Nat} {s t : State} (h : WritesOnly l s t) : t.bur = s.bur := by
  rw [h.frame]

/-- `t` is `s` but for the holders of the calibration buses. -/
structure BusesTaken (s t : State) : Prop where
  frame : t = { s with cal := { s.cal with bus := t.cal.bus } }

theorem BusesTaken.trans {s t u : State} (h : BusesTaken s t) (h' : BusesTaken t u) : BusesTaken s u where
  frame := h'.frame.trans (by rw [h.frame])

theorem BusesTaken.word {s t : State} (h : BusesTaken s t) (a : Nat) : t.word a = s.word a := by
  rw [h.frame]
  rfl

theorem State.busUpdate_taken (s : State) (q : Nat) : BusesTaken s (s.busUpdate q) where
  frame := by
    unfold State.busUpdate
    dsimp only
    split <;> rfl

theorem State.busUpdates_taken (s : State) : BusesTaken s s.busUpdates :=
  List.foldlRecOn _ _ (motive := BusesTaken s) ⟨rfl⟩ fun t ht q _ => ht.trans (t.busUpdate_taken q)

theorem State.keyIdx_of_sameBut {s t : State} (h : SameBut [Reg.BUR_STAT.base] s t) : t.keyIdx = s.keyIdx := by
  rw [State.keyIdx, h.f_eq (by decide), h.f_eq (by decide), State.keyIdx]

theorem State.keyIdx_showKeys (s : State) {i : Nat} (hi : i < 2 ^ 40) : (s.showKeys i).keyIdx = i := by
  unfold State.showKeys State.keyIdx
  simp (disch := decide) only [State.setPair_eq, State.f_setF, State.f_setF_of_addr]
  simp only [Fld.BUR_KEYIDX_LO, Fld.BUR_KEYIDX_HI]
  omega

/-- A restart in two stages: the keys show, then the buses are taken. -/
theorem State.revived_stages (s : State) : ∃ k : State,
    WritesOnly keyRegs s.startBureau k ∧ k.keyIdx = (s.startBureau.showKeys s.bur.nv.keyres).keyIdx ∧
      BusesTaken k s.revived :=
  ⟨_, (State.showKeys_writesOnly ..).trans ((State.keyLow_writesOnly _).mono (by decide)),
    State.keyIdx_of_sameBut (State.keyLow_writesOnly _).same, State.busUpdates_taken _⟩

theorem State.keyIdx_revived {s : State} (hk : s.bur.nv.keyres < 2 ^ 40) : s.revived.keyIdx = s.bur.nv.keyres := by
  obtain ⟨k, -, hidx, hbus⟩ := s.revived_stages
  rw [State.keyIdx_of_sameBut fun a _ => hbus.word a, hidx, State.keyIdx_showKeys _ hk]

theorem State.revived_same (s : State) : SameBut keyRegs s s.revived := by
  obtain ⟨k, hk, -, hbus⟩ := s.revived_stages
  exact fun a ha => (hbus.word a).trans (hk.same a ha)

theorem BusesTaken.frame_of_started {s k u : State} {l : List Nat} (hk : WritesOnly l s.startBureau k) (h : BusesTaken k u) :
    u = { s with regs := u.regs, bur := { s.bur with running := true }, cal := { s.cal with bus := u.cal.bus } } := by
  have hregs : u.regs = k.regs := by rw [h.frame]
  rw [hregs]
  exact h.frame.trans (by rw [hk.frame]; rfl)

theorem State.revived_frame (s : State) : s.revived =
    { s with regs := s.revived.regs, bur := { s.bur with running := true },
             cal := { s.cal with bus := s.revived.cal.bus } } := by
  obtain ⟨k, hk, -, hbus⟩ := s.revived_stages
  exact hbus.frame_of_started hk

theorem State.revived_bur (s : State) : s.revived.bur = { s.bur with running := true } := by
  rw [State.revived_frame]

/-- `s` with no command waiting at the Bureau. -/
def State.noneWaiting (s : State) : State := { s with bur := { s.bur with waiting := none } }

/-- No decision waits, before the restart or after. -/
theorem State.resumeTrigger_revived {s : State} (ht : s.twin.trigger = none) : s.revived.resumeTrigger = s.revived := by
  have hnone : s.revived.twin.trigger = none := by rw [State.revived_frame]; exact ht
  rw [State.resumeTrigger, hnone]

section
variable {s : State} (hb : s.bur.running = false) (hd : s.bur.dead = false) (hm : s.mode ≠ .reset)
include hb hd hm

/-- A halted Bureau that verifies, with nothing waiting. -/
theorem State.resumeBureau_idle (ht : s.twin.trigger = none) (hw : s.bur.waiting = none) : s.resumeBureau 0 = s.revived := by
  have hnext : s.revived.bur.waiting = none := by rw [State.revived_bur]; exact hw
  rw [State.resumeBureau, if_neg (by simp [hb, hd, hm]), if_neg (by decide)]
  dsimp only
  rw [← State.revived, State.resumeTrigger_revived ht, hnext]

/-- A halted Bureau that verifies, with a command waiting (R467). -/
theorem State.resumeBureau_waiting {i : Instr} (ht : s.twin.trigger = none) (hw : s.bur.waiting = some i) :
    s.resumeBureau 0 = s.revived.noneWaiting.takeWaiting i := by
  have hnext : s.revived.bur.waiting = some i := by rw [State.revived_bur]; exact hw
  rw [State.resumeBureau, if_neg (by simp [hb, hd, hm]), if_neg (by decide)]
  dsimp only
  rw [← State.revived, State.resumeTrigger_revived ht, hnext, State.noneWaiting]

/-- A halted Bureau whose re-verification fails at step `err`. -/
theorem State.resumeBureau_failed {err : Nat} (he : err = 3 ∨ err = 4) : s.resumeBureau err =
    (({ s with bur := { s.bur with dead := true } } : State).setF Fld.BUR_BOOT_FW_OK 0).setF Fld.BUR_BOOT_ERR err := by
  rw [State.resumeBureau, if_neg (by simp [hb, hd, hm]), if_pos he]

end

theorem execFirmwareResume_eq {s : State} {err : Nat} (he : err = 0 ∨ err = 3 ∨ err = 4) :
    exec (.firmwareResume err) s = .next (s.resumeBureau err) :=
  if_neg (by omega)

/-! ### GET_MODE, waiting -/

theorem commandLegal_getMode {m : Mode} (hm : m ≠ .reset) : commandLegal 0x03 m = true := by
  cases m with
  | reset => exact absurd rfl hm
  | _ => rfl

/-- GET_MODE passes the checks of R48 in every mode and on either die of a pair. -/
theorem State.judged_getMode {s : State} {own : Bool} {k : State → State} (hm : s.mode ≠ .reset) :
    s.judged 0x03 false own k = k s := by
  rw [State.judged, if_neg Bool.false_ne_true, commandLegal_getMode hm, if_neg (by decide),
    if_neg fun h => h.2.2 (by decide)]

/-- A register of the device block, DEV_ID apart, reads as it is stored. -/
theorem State.view_of_word {s t : State} {a : Nat} (hp : t.part = s.part) (hw : t.word a = s.word a)
    (ha : 0 < a ∧ a < 0x10000) : t.view a = s.view a := by
  unfold State.view
  simp only [hp, hw, if_pos ha.2, if_neg ha.1.ne']

theorem State.answerOk_noneWaiting_running (s : State) (l : List (Nat × Word)) :
    (s.noneWaiting.answerOk l).bur.running = s.bur.running := (rfl)

/-- GET_MODE, taken after it has waited, answers what DEV_MODE and DEV_COMPAT hold. -/
theorem State.takeWaiting_getMode (s : State) {tag : Nat} (hm : s.mode ≠ .reset) :
    s.noneWaiting.takeWaiting (.getMode tag []) = s.noneWaiting.answerOk
      [argIs 0 (s.view Reg.DEV_MODE.base).toNat, argIs 1 (s.view Reg.DEV_COMPAT.base).toNat] := by
  have hview {a : Nat} (ha : 0 < a ∧ a < 0x10000) : s.noneWaiting.view a = s.view a := State.view_of_word rfl rfl ha
  rw [State.takeWaiting, State.takeGetMode, State.judged_getMode (s := s.noneWaiting) hm, hview (by decide), hview (by decide)]

/-- A halted Bureau that verifies takes the GET_MODE that waits: it answers DEV_MODE and DEV_COMPAT as they stood. -/
theorem State.resumeBureau_getMode {s : State} {tag : Nat} (hb : s.bur.running = false) (hd : s.bur.dead = false)
    (hm : s.mode ≠ .reset) (ht : s.twin.trigger = none) (hw : s.bur.waiting = some (.getMode tag [])) :
    s.resumeBureau 0 = s.revived.noneWaiting.answerOk
      [argIs 0 (s.view Reg.DEV_MODE.base).toNat, argIs 1 (s.view Reg.DEV_COMPAT.base).toNat] := by
  have hmode : s.revived.mode ≠ .reset := by rw [State.revived_frame]; exact hm
  have hpart : s.revived.part = s.part := by rw [State.revived_frame]
  rw [State.resumeBureau_waiting hb hd hm ht hw, State.takeWaiting_getMode _ hmode,
    State.view_of_word hpart (s.revived_same _ (by decide)) (by decide),
    State.view_of_word hpart (s.revived_same _ (by decide)) (by decide)]

/-! ## The obligation -/

/-- Two results on the arguments. -/
theorem State.writeResults_args (s : State) (v w : Nat) :
    WritesOnly [Reg.BUR_ARG.addr 0 0, Reg.BUR_ARG.addr 1 0] s (s.writeResults [argIs 0 v, argIs 1 w]) ∧
    (s.writeResults [argIs 0 v, argIs 1 w]).arg 0 = BitVec.ofNat 32 v ∧
    (s.writeResults [argIs 0 v, argIs 1 w]).arg 1 = BitVec.ofNat 32 w := by
  refine ⟨.setWord (.setWord .refl (.head _)) (.tail _ (.head _)), ?_, ?_⟩
  · have hne : Reg.BUR_ARG.addr 1 0 ≠ Reg.BUR_ARG.addr 0 0 := by decide
    exact (State.word_setWord ..).trans ((if_neg hne).trans ((State.word_setWord ..).trans (if_pos rfl)))
  · exact (State.word_setWord ..).trans (if_pos rfl)

/-- Settles O57: a completion by its last effects and `State.endCommand_ended`, a halt by `State.halted_spec` after such an end,
a restart by `State.revived`. -/
theorem completionAndHalts : Obligations.CompletionAndHalts := by
  refine ⟨fun s j p hb hj ho hn hc hs hr hp => ?_, fun s j p hb hj ho hn ha hs hp => ?_,
    fun s j p hb hj ho hn hr hc hp hne => ?_, fun s j hb hj => ⟨_, rfl, State.haltBureau_busy_spec hb hj⟩,
    fun s hb hj => ⟨_, rfl, State.haltBureau_idle_spec hb hj⟩, fun s hb => ⟨_, rfl, State.haltBureau_halted hb⟩,
    fun s j hb hj => ⟨_, rfl, State.haltBureau_busy_spec hb hj⟩,
    fun s hb hj => ⟨_, rfl, State.haltBureau_idle_spec hb hj⟩, fun s hb => ⟨_, rfl, State.haltBureau_halted hb⟩,
    fun s hb hd hm hw ht hk => ?_, fun s tag hb hd _ hm hw ht => ?_, fun s err hb hd hm he => ?_, fun s err he h => ?_⟩
  · obtain ⟨hu, harg0, harg1⟩ := s.writeResults_args 7 8
    have he := (s.writeResults [argIs 0 7, argIs 1 8]).endCommand_ended stOk
    have hpaired : (s.writeResults [argIs 0 7, argIs 1 8]).on Fld.TWN_STAT_PAIRED = false :=
      (hu.same.on_eq (by decide)).trans hp
    refine ⟨_, execCommandComplete_eq p hb hj ho hn, ?_⟩
    rw [State.lastEffects_of_ok hs hc, hr, hpaired, hs, Bool.false_and, State.flagIf_false]
    refine ⟨(he.low _ (by decide) (by decide)).trans harg0, (he.low _ (by decide) (by decide)).trans harg1, he.busy, he.done,
      he.status, he.tag.trans (hu.same.f_eq (by decide)), ?_, ?_, ?_, ?_, ?_⟩
    · rw [he.bur]
    · rw [he.mode, hu.frame]
    · rw [he.groups, hu.frame]
    · rw [he.bur, hu.frame]
    · rw [he.cal, hu.frame]
  · have he := s.endCommand_ended stBadArg
    refine ⟨_, execCommandComplete_eq p hb hj ho hn, ?_⟩
    rw [State.lastEffects_of_error (by rw [hs]; decide) ha, hs, any_ne_eq_false hp, Bool.and_false, State.flagIf_false]
    exact ⟨he.low _ (by decide) (by decide), he.done, he.status, by rw [he.bur], he.cal, he.mismatch⟩
  · have he := (s.setF Fld.TWN_IRQ_MISMATCH 1).endCommand_ended j.status
    have hany : (some p).any (· != j.status) = true := by simpa using hne
    refine ⟨_, execCommandComplete_eq (some p) hb hj ho hn, ?_⟩
    rw [State.lastEffects_of_empty hr hc, hp, hany, Bool.and_true, State.flagIf_eq, if_pos rfl]
    refine ⟨he.mismatch.trans ?_, by rw [he.bur], he.status⟩
    rw [State.on, State.f_setF _ _ _ _ _ (by decide)]
    rfl
  · refine ⟨s.revived, ?_, s.revived_bur, State.keyIdx_revived hk, ?_, s.revived_same⟩
    · rw [execFirmwareResume_eq (.inl rfl), State.resumeBureau_idle hb hd hm ht hw]
    · rw [s.revived_bur]
      exact s.revived_frame
  · refine ⟨s.revived.noneWaiting.answerOk _, ?_, ?_, rfl, rfl⟩
    · rw [execFirmwareResume_eq (.inl rfl), State.resumeBureau_getMode hb hd hm ht hw]
    · rw [State.answerOk_noneWaiting_running, s.revived_bur]
  · have hw : WritesOnly [Reg.BUR_BOOT.base] { s with bur := { s.bur with dead := true } } (s.resumeBureau err) := by
      rw [State.resumeBureau_failed hb hd hm he]
      exact .setF (.setF .refl List.mem_cons_self) List.mem_cons_self
    have hfields : (s.resumeBureau err).f Fld.BUR_BOOT_FW_OK = 0 ∧ (s.resumeBureau err).f Fld.BUR_BOOT_ERR = err := by
      rw [State.resumeBureau_failed hb hd hm he]
      simp (disch := decide) only [State.f_setF, State.f_setF_of_disjoint]
      rcases he with rfl | rfl <;> exact ⟨rfl, rfl⟩
    refine ⟨_, execFirmwareResume_eq (.inr he), by rw [hw.frame], ?_, hfields.2, ?_, hw.same⟩
    · rw [State.on, hfields.1]
      rfl
    · rw [hw.bur]
      exact hw.frame
  · exact ⟨_, execFirmwareResume_eq he, if_pos h⟩

end Sys2Proof.Machine
end

/-!
# The transition table (O7)
-/

section
namespace Sys2Proof.Machine

/-- A die in Partial without a loading cabinet. Its scrubber reads the first frame of CB0, which is ACTIVE, and a write that
clears DEV_MODE.CHG waits for the end of that check: no run holds a write to DEV_MODE back, but no statement about every state
rules it out. -/
def State.chgWriteHeld : State :=
  { State.reset.setF Fld.SCRB_CB_STATE_STATE 1 with
    mode := .partialRun
    scrub := { Scrub.init with at_ := some 0, held := [⟨Reg.DEV_MODE.base, 0x1000, false⟩] }
    pending := [.scrubFrameCheck [0, 1]] }

/-- Refutes O7: the check of `State.chgWriteHeld` finds a double error, so that CB0 is quarantined and Partial ends with CHG
set; the write that waited then takes effect in the same step and clears CHG. -/
theorem not_modeChangesOnlyAlongTheTable : ¬ Obligations.ModeChangesOnlyAlongTheTable := by
  unfold Obligations.ModeChangesOnlyAlongTheTable
  intro h
  exact absurd (h State.chgWriteHeld _ rfl) (by decide +kernel)

end Sys2Proof.Machine
end

/-!
# The mode, and DEV_MODE.MODE which shows it (O8)

Almost every function of the model leaves the mode, the Bureau and the fields of `keptFields` alone: `Kept.f` says so of each of
them, in the order of the model's files, `Kept` being gathered function by function. What is left are the transitions, the
Bureau's commands and the streams; of these `State.Shown.f` says that they keep the invariant.
-/

section
namespace Sys2Proof.Machine

/-! ## Fields beside each other -/

/-- The fields that transitions and full loads write, and nothing else. -/
def keptFields : List FieldRef := [Fld.DEV_MODE_MODE, Fld.DEV_MODE_PREV, Fld.DEV_MODE_CAUSE, Fld.CFG_STAT_PHASE]

/-- No copy of `r` stands where `q` stands: it is a field beside `q` in a register, its register is beyond that of `q`, or
it is another register without instances. -/
def FieldRef.beside (r q : FieldRef) : Bool :=
  (decide (r.lo + r.width ≤ 32) && decide (r.lo + r.width ≤ q.lo ∨ q.lo + q.width ≤ r.lo)) || decide (q.base < r.base) ||
    (r.st1 == 0 && r.st2 == 0 && r.base != q.base)

/-- No copy of `r` stands where a kept field stands. -/
def FieldRef.apart (r : FieldRef) : Bool := keptFields.all r.beside

theorem State.f_setF_of_beside (s : State) {r q : FieldRef} (h : r.beside q = true) (v i j : Nat) :
    (s.setF r v i j).f q = s.f q := by
  simp only [FieldRef.beside, Bool.or_eq_true, Bool.and_eq_true, decide_eq_true_eq, beq_iff_eq, bne_iff_ne] at h
  rcases h with (⟨hlt, hd⟩ | hlt) | ⟨⟨h1, h2⟩, hne⟩
  · exact State.f_setF_of_disjoint _ _ _ _ _ _ _ _ hlt hd
  · refine State.f_setF_of_addr _ _ _ _ _ _ _ _ ?_
    simp only [FieldRef.addr]
    omega
  · refine State.f_setF_of_addr _ _ _ _ _ _ _ _ ?_
    simp only [FieldRef.addr, h1, h2]
    omega

/-! ## What is kept -/

/-- `t` has the mode, the part, the Bureau and the type 0 and 1 frames of `s`, and the kept fields. -/
structure Kept (s t : State) : Prop where
  mode : t.mode = s.mode
  part : t.part = s.part
  bur : t.bur = s.bur
  frames : t.frames = s.frames
  fields : ∀ q ∈ keptFields, t.f q = s.f q

/-- Where a command answers a next state, `Kept` holds of it. -/
def OutKept (s : State) (o : Out) : Prop := ∀ t, o = .next t → Kept s t

section
variable {s t u : State}

theorem Kept.refl : Kept s s := ⟨rfl, rfl, rfl, rfl, fun _ _ => rfl⟩

theorem Kept.trans (h : Kept u s) (h' : Kept s t) : Kept u t where
  mode := h'.mode.trans h.mode
  part := h'.part.trans h.part
  bur := h'.bur.trans h.bur
  frames := h'.frames.trans h.frames
  fields q hq := (h'.fields q hq).trans (h.fields q hq)

/-- What `Kept` speaks of; tables and other parts of the state may change. -/
def State.keptPart (s : State) : Mode × Part × Bureau × Tab Word × Tab Word :=
  (s.mode, s.part, s.bur, s.frames, s.regs)

theorem Kept.same (h : Kept u s) (e : t.keptPart = s.keptPart) : Kept u t := by
  simp only [State.keptPart, Prod.mk.injEq] at e
  obtain ⟨hmode, hpart, hbur, hframes, hregs⟩ := e
  exact h.trans ⟨hmode, hpart, hbur, hframes, fun q _ => by rw [State.f, State.word, hregs]; rfl⟩

theorem Kept.ite {c : Prop} [Decidable c] (ht : Kept u s) (hu : Kept u t) : Kept u (if c then s else t) := by
  split <;> assumption

/-- A choice whose branches may use the condition. -/
theorem Kept.iteOf {c : Prop} [Decidable c] (ht : c → Kept u s) (hu : ¬ c → Kept u t) : Kept u (if c then s else t) := by
  split
  · exact ht ‹_›
  · exact hu ‹_›

theorem Kept.foldl {β : Type} {f : State → β → State} {l : List β} (h : Kept u s)
    (hf : ∀ {t b}, Kept u t → Kept u (f t b)) : Kept u (l.foldl f s) :=
  List.foldlRecOn l f h fun _ ht _ _ => hf ht

/-- A fold whose steps may use that their item is of the list. -/
theorem Kept.foldlMem {β : Type} {f : State → β → State} {l : List β} (h : Kept u s)
    (hf : ∀ {t b}, b ∈ l → Kept u t → Kept u (f t b)) : Kept u (l.foldl f s) :=
  List.foldlRecOn l f h fun _ ht _ hb => hf hb ht

theorem Kept.foldlFst {α β : Type} {f : State × α → β → State × α} {l : List β} {a : State × α} (h : Kept u a.1)
    (hf : ∀ {t b}, Kept u t.1 → Kept u (f t b).1) : Kept u (l.foldl f a).1 :=
  List.foldlRecOn l f (motive := fun a => Kept u a.1) h fun _ ht _ _ => hf ht

/-! ## Writes -/

/-- The registers beyond the CFG block's first. -/
theorem FieldRef.cfg_lt_addr {r : FieldRef} (h : Reg.CFG_STAT.base < r.base) (i j : Nat) : Reg.CFG_STAT.base < r.addr i j := by
  unfold FieldRef.addr
  omega

theorem Kept.setWord {a w} (h : Kept u s) (ha : Reg.CFG_STAT.base < a) : Kept u (s.setWord a w) := by
  refine h.trans ⟨rfl, rfl, rfl, rfl, fun q hq => ?_⟩
  have hle : q.addr 0 0 ≤ Reg.CFG_STAT.base :=
    (by decide : ∀ q ∈ keptFields, q.addr 0 0 ≤ Reg.CFG_STAT.base) q hq
  rw [State.f, State.word_setWord, if_neg (by omega), State.f]

theorem FieldRef.apart_of_base {r : FieldRef} (h : Reg.CFG_STAT.base < r.base) : r.apart = true := by
  rw [FieldRef.apart, List.all_eq_true]
  intro q hq
  have hle : q.base ≤ Reg.CFG_STAT.base := (by decide : ∀ q ∈ keptFields, q.base ≤ Reg.CFG_STAT.base) q hq
  simp [FieldRef.beside, hle.trans_lt h]

/-! A field that stands apart is written. -/

theorem Kept.setFOf {r v i j} (h : Kept u s) (hr : r.apart = true) : Kept u (s.setF r v i j) :=
  h.trans ⟨rfl, rfl, rfl, rfl, fun q hq => s.f_setF_of_beside (List.all_eq_true.mp hr q hq) v i j⟩

theorem Kept.flagOf {r i j} (h : Kept u s) (hr : r.apart = true) : Kept u (s.flag r i j) :=
  h.setFOf hr

theorem Kept.flagIfOf {b r i j} (h : Kept u s) (hr : r.apart = true) : Kept u (s.flagIf b r i j) :=
  .ite (h.flagOf hr) h

/-! A register beyond the CFG block's first is written: its offset is more than 0x40000, which the form of the offset says. -/

section
variable {b c d lo n : Nat} {v i j : Nat}

theorem FieldRef.apart_of_form : FieldRef.apart ⟨b + 0x40001, c, d, lo, n⟩ = true :=
  FieldRef.apart_of_base (Nat.lt_of_lt_of_le (by decide : 0x40000 < 0x40001) (Nat.le_add_left ..))

theorem Kept.setReg {w} (h : Kept u s) : Kept u (s.setWord (FieldRef.addr ⟨b + 0x40001, c, d, lo, n⟩ i j) w) :=
  h.setWord (FieldRef.cfg_lt_addr (Nat.lt_of_lt_of_le (by decide : 0x40000 < 0x40001) (Nat.le_add_left ..)) i j)

theorem Kept.setF (h : Kept u s) : Kept u (s.setF ⟨b + 0x40001, c, d, lo, n⟩ v i j) :=
  h.setFOf FieldRef.apart_of_form

theorem Kept.setB {x} (h : Kept u s) : Kept u (s.setB ⟨b + 0x40001, c, d, lo, n⟩ x i j) :=
  h.setF

theorem Kept.flag (h : Kept u s) : Kept u (s.flag ⟨b + 0x40001, c, d, lo, n⟩ i j) :=
  h.setF

theorem Kept.flagIf {x} (h : Kept u s) : Kept u (s.flagIf x ⟨b + 0x40001, c, d, lo, n⟩ i j) :=
  .ite h.flag h

theorem Kept.addSat (h : Kept u s) : Kept u (s.addSat ⟨b + 0x40001, c, d, lo, n⟩ v i j) :=
  h.setF

theorem Kept.addWrap (h : Kept u s) : Kept u (s.addWrap ⟨b + 0x40001, c, d, lo, n⟩ v i j) :=
  h.setF

theorem Kept.setBit (h : Kept u s) : Kept u (s.setBit ⟨b + 0x40001, c, d, lo, n⟩ v i j) :=
  h.setF

theorem Kept.setPair {b' c' d' lo' n'} (h : Kept u s) :
    Kept u (s.setPair ⟨b + 0x40001, c, d, lo, n⟩ ⟨b' + 0x40001, c', d', lo', n'⟩ v i j) :=
  h.setF.setF

end

/-! Parts that `Kept` does not speak of. -/

theorem Kept.withFreeCount {x} (h : Kept u s) : Kept u { s with freeCount := x } := h.same rfl

theorem Kept.withReadData {x} (h : Kept u s) : Kept u { s with readData := x } := h.same rfl

theorem Kept.withLcs {x} (h : Kept u s) : Kept u { s with lcs := x } := h.same rfl

theorem Kept.withCal {x} (h : Kept u s) : Kept u { s with cal := x } := h.same rfl

theorem Kept.withDio {x} (h : Kept u s) : Kept u { s with dio := x } := h.same rfl

theorem Kept.withStream {x} (h : Kept u s) : Kept u { s with stream := x } := h.same rfl

theorem Kept.withScrub {x} (h : Kept u s) : Kept u { s with scrub := x } := h.same rfl

theorem Kept.withVoted {x} (h : Kept u s) : Kept u { s with voted := x } := h.same rfl

theorem Kept.withPins {x} (h : Kept u s) : Kept u { s with pins := x } := h.same rfl

theorem Kept.withHost {x} (h : Kept u s) : Kept u { s with host := x } := h.same rfl

theorem Kept.withPwr {x} (h : Kept u s) : Kept u { s with pwr := x } := h.same rfl

theorem Kept.withTwin {x} (h : Kept u s) : Kept u { s with twin := x } := h.same rfl

theorem Kept.withPdir {x} (h : Kept u s) : Kept u { s with pdir := x } := h.same rfl

theorem Kept.withArb {x} (h : Kept u s) : Kept u { s with arb := x } := h.same rfl

/-! ## Outcomes -/

theorem OutKept.next (h : Kept u t) : OutKept u (.next t) := by
  rintro _ ⟨⟩
  exact h

theorem OutKept.fault {r : Fault} : OutKept u (.fault r) := by
  rintro _ ⟨⟩

theorem OutKept.ite {c : Prop} [Decidable c] {o p : Out} (ho : OutKept u o) (hp : OutKept u p) :
    OutKept u (if c then o else p) := by
  split <;> assumption

theorem OutKept.inst {n bound k} (hk : OutKept u k) : OutKept u (onInst n bound k) := .ite hk .fault

theorem OutKept.present {n count bound k} (h : Kept u s) (hk : OutKept u k) : OutKept u (ifPresent n count bound s k) :=
  .inst (.ite hk (.next h))

theorem OutKept.readPresent {n count bound k} (h : Kept u s) (hk : OutKept u k) :
    OutKept u (readPresent n count bound s k) :=
  .inst (.ite hk (.next (h.same rfl)))

theorem Kept.counted (h : Kept u s) : Kept u s.counted := .ite h.addWrap h

theorem OutKept.hostRow {o : Out} (ho : OutKept u o) : OutKept u (hostRow o) := by
  cases o with
  | next t => exact .next (ho t rfl).counted
  | fault r => exact .fault
  | refused r => rintro _ ⟨⟩

end
/-! ## Writes by the access codes -/

theorem Tab.get_filterMap_of_keeps {α : Type} {d : Nat → α} {f : Nat × α → Option (Nat × α)} {k : Nat}
    (hkey : ∀ e e', f e = some e' → e'.1 = e.1) (hk : ∀ v, f (k, v) = some (k, v)) (t : Tab α) :
    Tab.get d (t.filterMap f) k = Tab.get d t k := by
  induction t with
  | nil => rfl
  | cons e t ih =>
    obtain ⟨a, v⟩ := e
    rcases eq_or_ne a k with rfl | ha
    · rw [List.filterMap_cons_some (hk v), Tab.get_cons, Tab.get_cons, if_pos rfl, if_pos rfl]
    · rw [Tab.get_cons, if_neg ha, ← ih, List.filterMap_cons]
      cases hv : f (a, v) with
      | none => rfl
      | some e' =>
        have : e'.1 ≠ k := fun h => ha ((hkey _ _ hv).symm.trans h)
        exact (Tab.get_cons ..).trans (if_neg this)

theorem Tab.get_filterMap_of_drops {α : Type} {d : Nat → α} {f : Nat × α → Option (Nat × α)} {k : Nat}
    (hkey : ∀ e e', f e = some e' → e'.1 = e.1) (hk : ∀ v, f (k, v) = none) (t : Tab α) :
    Tab.get d (t.filterMap f) k = d k := by
  induction t with
  | nil => rfl
  | cons e t ih =>
    rw [List.filterMap_cons]
    cases hv : f e with
    | none => exact ih
    | some e' =>
      have : e'.1 ≠ k := by
        rintro rfl
        have := hk e.2
        rw [hkey _ _ hv, hv] at this
        cases this
      exact ((Tab.get_cons ..).trans (if_neg this)).trans ih

/-- The bits of the register at `a` that belong to kept fields. -/
def keptBits (a : Nat) : Word :=
  if a = Reg.DEV_MODE.base then 0xFFF else if a = Reg.CFG_STAT.base then 0xF else 0

theorem bits_congr {w v m : Word} {lo n : Nat} (h : w &&& m = v &&& m) (hm : ∀ k < n, m.getLsbD (lo + k) = true) :
    w.bits lo n = v.bits lo n := by
  refine Nat.eq_of_testBit_eq fun k => ?_
  simp only [Word.bits, Nat.testBit_mod_two_pow, Nat.testBit_shiftRight]
  by_cases hk : k < n
  · have := congrArg (fun x : Word => x.getLsbD (lo + k)) h
    simp only [BitVec.getLsbD_and, hm k hk, Bool.and_true] at this
    rw [show w.toNat.testBit (lo + k) = v.toNat.testBit (lo + k) from this]
  · simp [hk]

theorem Kept.setBits {s u : State} {a w} (h : Kept u s) (hw : w &&& keptBits a = s.word a &&& keptBits a) :
    Kept u (s.setWord a w) := by
  refine h.trans ⟨rfl, rfl, rfl, rfl, fun q hq => ?_⟩
  rw [State.f, State.word_setWord, State.f]
  split
  · next ha =>
    subst ha
    refine bits_congr hw ?_
    exact (by decide +kernel : ∀ q ∈ keptFields, ∀ k < q.width, (keptBits (q.addr 0 0)).getLsbD (q.lo + k) = true) q hq
  · rfl

/-- The bits that a write or a read of a register may change are none of the kept fields. -/
theorem RegMap.mask_keptBits {a : Nat} {r : RegRow} (h : RegMap.row a = some r) :
    (r.mask (· == .rw) ||| r.mask (· == .w1c) ||| r.mask (· == .w1s) ||| r.mask (· == .rc)) &&& keptBits a = 0#32 := by
  have key (b : Nat) (hb : ((RegMap.row b).all fun r =>
      (r.mask (· == .rw) ||| r.mask (· == .w1c) ||| r.mask (· == .w1s) ||| r.mask (· == .rc)) &&& keptBits b == 0) = true)
      (hr : RegMap.row b = some r) :
      (r.mask (· == .rw) ||| r.mask (· == .w1c) ||| r.mask (· == .w1s) ||| r.mask (· == .rc)) &&& keptBits b = 0#32 := by
    rw [hr] at hb
    exact eq_of_beq hb
  by_cases hm : a = Reg.DEV_MODE.base
  · exact key a (by rw [hm]; decide +kernel) h
  · by_cases hc : a = Reg.CFG_STAT.base
    · exact key a (by rw [hc]; decide +kernel) h
    · rw [keptBits, if_neg hm, if_neg hc]
      exact BitVec.and_zero

theorem RegRow.apply_keptBits {a : Nat} {r : RegRow} (h : RegMap.row a = some r) (old w : Word) :
    r.apply old w &&& keptBits a = old &&& keptBits a := by
  have hm := RegMap.mask_keptBits h
  refine BitVec.eq_of_getLsbD_eq fun i hi => ?_
  have hb := congrArg (fun x : Word => x.getLsbD i) hm
  simp only [BitVec.getLsbD_and, BitVec.getLsbD_or, BitVec.getLsbD_zero] at hb
  simp only [RegRow.apply, BitVec.getLsbD_and, BitVec.getLsbD_or, BitVec.getLsbD_not, hi, decide_true, Bool.true_and]
  cases hk : (keptBits a).getLsbD i
  · simp
  · simp only [hk, Bool.and_true, Bool.or_eq_false_iff] at hb
    obtain ⟨⟨⟨hrw, hw1c⟩, hw1s⟩, -⟩ := hb
    simp [hrw, hw1c, hw1s]

/-- A guarded write leaves a bit as it is or as the write wants it. -/
theorem guardWrite_and {old new prot m : Word} (h : new &&& m = old &&& m) : (guardWrite old new prot).1 &&& m = old &&& m := by
  unfold guardWrite
  split
  · exact h
  · refine BitVec.eq_of_getLsbD_eq fun i hi => ?_
    have hb := congrArg (fun x : Word => x.getLsbD i) h
    simp only [BitVec.getLsbD_and, BitVec.getLsbD_or, BitVec.getLsbD_not, hi, decide_true, Bool.true_and] at hb ⊢
    cases prot.getLsbD i <;> simp [hb]

section
variable {s s₀ : State}

/-! ### Machine/Longcase -/

theorem Kept.setTrk {n t} (h : Kept s₀ s) : Kept s₀ (s.setTrk n t) :=
  h.same rfl

theorem Kept.setAlarm {n a} (h : Kept s₀ s) : Kept s₀ (s.setAlarm n a) :=
  h.same rfl

theorem Kept.setTimer {n t} (h : Kept s₀ s) : Kept s₀ (s.setTimer n t) :=
  h.same rfl

theorem Kept.setCapture {n l} (h : Kept s₀ s) : Kept s₀ (s.setCapture n l) :=
  h.same rfl

theorem Kept.atTick {t} (h : Kept s₀ s) : Kept s₀ (s.atTick t) :=
  h.same rfl

theorem Kept.stopWrite {a} (h : Kept s₀ s) : Kept s₀ (s.stopWrite a) :=
  (((h.flagOf (by rfl)).setFOf (by rfl)).setFOf (by rfl)).setFOf (by rfl)

theorem Kept.writeIn {runs a k} (h : Kept s₀ s) (hk : ∀ {t}, Kept s₀ t → Kept s₀ (k t)) :
    Kept s₀ (s.writeIn runs a k) :=
  .ite (hk h) h.stopWrite

theorem Kept.lcsWrite {a k} (h : Kept s₀ s) (hk : ∀ {t}, Kept s₀ t → Kept s₀ (k t)) :
    Kept s₀ (s.lcsWrite a k) :=
  h.writeIn hk

theorem Kept.sclkWrite {g a k} (h : Kept s₀ s) (hk : ∀ {t}, Kept s₀ t → Kept s₀ (k t)) :
    Kept s₀ (s.sclkWrite g a k) :=
  h.writeIn hk

theorem Kept.smpStamp {stamp} (h : Kept s₀ s) : Kept s₀ (s.smpStamp stamp) :=
  .ite h.withLcs h

theorem Kept.smpLost (h : Kept s₀ s) : Kept s₀ s.smpLost :=
  h.same rfl

theorem execSmpclkStall_kept (h : Kept s₀ s) : OutKept s₀ (execSmpclkStall s) :=
  .ite (.next h.smpLost.withLcs) (.next h)

theorem Kept.putTrk {n t} (h : Kept s₀ s) : Kept s₀ (s.putTrk n t) :=
  .ite h.setTrk h.setTrk.setBit

theorem Kept.processEdge {n} (h : Kept s₀ s) : Kept s₀ (s.processEdge n) := by
  unfold State.processEdge; dsimp only
  split
  · exact h
  · exact h.atTick.putTrk.addSat.addSat.addSat

theorem Kept.keepEdge {n stamp tick rev} (h : Kept s₀ s) : Kept s₀ (s.keepEdge n stamp tick rev) :=
  .ite h.addSat h.setTrk

theorem Kept.undoQuad {m} (h : Kept s₀ s) : Kept s₀ (s.undoQuad m) := by
  unfold State.undoQuad; dsimp only
  split
  · exact h
  · exact h.setTrk.setF

theorem Kept.quadOne {n stamp tick rise} (h : Kept s₀ s) : Kept s₀ (s.quadOne n stamp tick rise) :=
  .ite (.ite h.setTrk.undoQuad.addSat (setTrk (.ite h.setTrk.keepEdge h.setTrk))) h.setTrk

theorem Kept.quadEdge {n stamp tick kind} (h : Kept s₀ s) : Kept s₀ (s.quadEdge n stamp tick kind) := by
  unfold State.quadEdge; dsimp only
  split
  · exact .ite (.ite h.setTrk.setTrk.addSat h.setTrk.setTrk) h.quadOne
  · exact h.quadOne

theorem Kept.mainEdge {n stamp tick kind} (h : Kept s₀ s) : Kept s₀ (s.mainEdge n stamp tick kind) :=
  .ite h.atTick (.ite h.atTick.quadEdge (.ite h.atTick.setTrk.keepEdge h.atTick.setTrk))

theorem execPrEdge_kept {n stamp tick kind} (h : Kept s₀ s) : OutKept s₀ (execPrEdge n stamp tick kind s) :=
  .inst (.next (.ite h.mainEdge h))

theorem execPrIndexEdge_kept {n stamp tick kind} (h : Kept s₀ s) : OutKept s₀ (execPrIndexEdge n stamp tick kind s) :=
  .inst (.next (.ite (.ite h.atTick.addSat h.atTick.setTrk) h))

theorem Kept.enterCoast {n tick} (h : Kept s₀ s) : Kept s₀ (s.enterCoast n tick) :=
  .ite h.atTick.putTrk h

theorem Kept.endCoast {n tick} (h : Kept s₀ s) : Kept s₀ (s.endCoast n tick) :=
  .ite h.atTick.putTrk h

theorem Kept.unlockRef {n} (h : Kept s₀ s) : Kept s₀ (s.unlockRef n) :=
  h.putTrk

theorem Kept.writePrCfg {n w} (h : Kept s₀ s) : Kept s₀ (s.writePrCfg n w) := by
  unfold State.writePrCfg
  extract_lets _ _ _ _ _ _ _ _ _ s1 s2
  have h1 : Kept s₀ s1 := h.setReg.flagIf
  have h2 : Kept s₀ s2 := .ite h1.unlockRef h1
  exact .ite h2.setF.unlockRef h2

theorem Kept.enableRef {n en} (h : Kept s₀ s) : Kept s₀ (s.enableRef n en) :=
  .ite h.setReg.flagIf.unlockRef h.setReg.flagIf

theorem Kept.snapRef {n} (h : Kept s₀ s) : Kept s₀ (s.snapRef n) :=
  h.setPair.setF.setF.setF.setPair

theorem execPrSnap_kept {n tick} (h : Kept s₀ s) : OutKept s₀ (execPrSnap n tick s) :=
  .hostRow (.inst (.next (h.lcsWrite (fun h => h.atTick.snapRef))))

theorem Kept.snapTime (h : Kept s₀ s) : Kept s₀ s.snapTime :=
  h.setPair.setPair.setPair

theorem execLcsTimeSnap_kept {tick} (h : Kept s₀ s) : OutKept s₀ (execLcsTimeSnap tick s) :=
  .hostRow (.next (h.lcsWrite (fun h => h.atTick.snapTime)))

theorem Kept.loadShadow {n} (h : Kept s₀ s) : Kept s₀ (s.loadShadow n) := by
  unfold State.loadShadow
  extract_lets _ s1 s2
  have h1 : Kept s₀ s1 := by unfold s1; split <;> [exact h.setReg; exact h]
  have h2 : Kept s₀ s2 := by unfold s2; split <;> [exact h1.setReg; exact h1]
  exact h2.setAlarm.setF

theorem Kept.pushFiring {r} (h : Kept s₀ s) : Kept s₀ (s.pushFiring r) :=
  h.same rfl

theorem Kept.startTimer {n tick rem coast} (h : Kept s₀ s) : Kept s₀ (s.startTimer n tick rem coast) :=
  h.setTimer

theorem Kept.expireTimer {n} (h : Kept s₀ s) : Kept s₀ (s.expireTimer n) :=
  .ite h.atTick.addWrap.pushFiring.setTimer h

theorem Kept.expireFirst {n tick} (h : Kept s₀ s) : Kept s₀ (s.expireFirst n tick) :=
  .ite h.expireTimer h

theorem Kept.armTimers {n tick rem coast} (h : Kept s₀ s) : Kept s₀ (s.armTimers n tick rem coast) :=
  h.foldl (fun h => .ite (.ite h.expireFirst h.expireFirst.startTimer) h)

theorem Kept.fireAlarm {n tick a inst} (h : Kept s₀ s) : Kept s₀ (s.fireAlarm n tick a inst) :=
  h.setAlarm.addWrap.setF.setF.setB.pushFiring.armTimers.loadShadow

theorem Kept.testAlarm {n tick} (h : Kept s₀ s) : Kept s₀ (s.testAlarm n tick) := by
  unfold State.testAlarm; dsimp only
  split
  · split
    · exact h
    · exact .ite h.atTick.setAlarm.fireAlarm h.atTick.setAlarm.setAlarm
  · exact h

theorem execAlarmFiring_kept {n tick} (h : Kept s₀ s) : OutKept s₀ (execAlarmFiring n tick s) :=
  .inst (.next (.ite h.testAlarm h))

theorem Kept.writePaCtl {n w} (h : Kept s₀ s) : Kept s₀ (s.writePaCtl n w) := by
  unfold State.writePaCtl; dsimp only
  split
  · exact h.setReg.flagIf.setAlarm
  · exact h.setReg.flagIf.loadShadow
  · exact h.setReg.flagIf

theorem execPaEnable_kept {n tick en} (h : Kept s₀ s) : OutKept s₀ (execPaEnable n tick en s) :=
  .hostRow (.inst (.next (h.lcsWrite (fun h => h.atTick.writePaCtl))))

theorem Kept.writePaTarget {n w} (h : Kept s₀ s) : Kept s₀ (s.writePaTarget n w) :=
  .ite h.setAlarm.flag h.setReg

theorem Kept.writePaFilter {n w} (h : Kept s₀ s) : Kept s₀ (s.writePaFilter n w) :=
  .ite h.setAlarm.flag h.setReg

theorem Kept.writeTtCtl {n w} (h : Kept s₀ s) : Kept s₀ (s.writeTtCtl n w) :=
  .ite h.setReg.setTimer (.ite h.expireFirst.setReg.startTimer (.ite h.setReg.setTimer h.setReg))

theorem execTimerStart_kept {n tick} (h : Kept s₀ s) : OutKept s₀ (execTimerStart n tick s) :=
  .hostRow (.inst (.next (h.lcsWrite (fun h => h.atTick.writeTtCtl))))

theorem execTimerDisable_kept {n} (h : Kept s₀ s) : OutKept s₀ (execTimerDisable n s) :=
  .hostRow (.inst (.next (h.lcsWrite (fun h => h.writeTtCtl))))

theorem execTimerExpiry_kept {n} (h : Kept s₀ s) : OutKept s₀ (execTimerExpiry n s) :=
  .inst (.next (.ite h.expireTimer h))

theorem execCaptureEdge_kept {k stamp kind} (h : Kept s₀ s) : OutKept s₀ (execCaptureEdge k stamp kind s) :=
  .inst (.next (.ite (.ite h.atTick.setCapture.setBit h.flag) h))

theorem execCapPop_kept {k} (h : Kept s₀ s) : OutKept s₀ (execCapPop k s) :=
  .hostRow (.inst (.next (h.lcsWrite (fun h => h.setCapture))))

theorem Kept.updateNext {tick} (h : Kept s₀ s) : Kept s₀ (s.updateNext tick) := by
  unfold State.updateNext; dsimp only
  split
  · exact h.atTick.withLcs.setB.setF
  · exact h.atTick.withLcs

theorem Kept.loseRefs (h : Kept s₀ s) : Kept s₀ s.loseRefs :=
  h.foldl (fun h => .ite h.putTrk h)

theorem Kept.resumeTime {t} (h : Kept s₀ s) : Kept s₀ (s.resumeTime t) :=
  h.withLcs.foldl (fun h => .ite h.setTimer h)

theorem Kept.pllRestart (h : Kept s₀ s) : Kept s₀ s.pllRestart :=
  h.same rfl

theorem Kept.writeLcsCtl {w} (h : Kept s₀ s) : Kept s₀ (s.writeLcsCtl w) :=
  .ite h.flagIf (.ite h.setReg.pllRestart.flagIf h.flag)

theorem Kept.pllLock (h : Kept s₀ s) : Kept s₀ s.pllLock :=
  .ite h.withLcs.loseRefs.resumeTime h

theorem Kept.pllLost (h : Kept s₀ s) : Kept s₀ s.pllLost :=
  .ite h.withLcs h

theorem Kept.pllRelock (h : Kept s₀ s) : Kept s₀ s.pllRelock :=
  .ite h.withLcs.addSat.loseRefs.resumeTime h

/-! ### Machine/Vectors -/

theorem Kept.setChan {c x} (h : Kept s₀ s) : Kept s₀ (s.setChan c x) :=
  h.same rfl

theorem Kept.setFunc {f x} (h : Kept s₀ s) : Kept s₀ (s.setFunc f x) :=
  h.same rfl

theorem Kept.aer {func k} (h : Kept s₀ s) : Kept s₀ (s.aer func k) :=
  h.setFunc

theorem Kept.aerAdvisory {func} (h : Kept s₀ s) : Kept s₀ (s.aerAdvisory func) :=
  h.setFunc

theorem Kept.setVec {f v x} (h : Kept s₀ s) : Kept s₀ (s.setVec f v x) :=
  h.same rfl

theorem Kept.noteVector {before : State} {acc f v} (h : Kept s₀ s) : Kept s₀ (s.noteVector before acc f v) :=
  .ite h.setVec (.ite h.setVec (.ite h.setVec h.setVec))

theorem Kept.noteVectors {before : State} {acc vs} (h : Kept s₀ s) : Kept s₀ (s.noteVectors before acc vs) :=
  h.foldl (fun h => h.noteVector)

theorem Kept.lowerChan {c x} (h : Kept s₀ s) : Kept s₀ (s.lowerChan c x) :=
  h.setChan.noteVectors

/-! ### Machine/Wake -/

theorem Kept.setSettled {g b} (h : Kept s₀ s) : Kept s₀ (s.setSettled g b) :=
  .ite h h.setB.flag

theorem Kept.leave (h : Kept s₀ s) : Kept s₀ s.leave :=
  .ite h.withPwr (h.withPwr.foldl (fun h => h.setSettled))

theorem Kept.wakeOwn {why} (h : Kept s₀ s) : Kept s₀ (s.wakeOwn why) := by
  unfold State.wakeOwn; dsimp only
  split
  · split
    · exact .ite h h.withPwr.setF
    · exact h.withPwr.setF.leave
    · exact h
  · exact .ite h.withPwr h

theorem Kept.wake {why} (h : Kept s₀ s) : Kept s₀ (s.wake why) :=
  .ite h h.wakeOwn

/-! ### Machine/Monitor -/

theorem Kept.setWm {n m} (h : Kept s₀ s) : Kept s₀ (s.setWm n m) :=
  h.same rfl

theorem Kept.wmResolveAll {n v} (h : Kept s₀ s) : Kept s₀ (s.wmResolveAll n v) :=
  h.setWm

theorem hitFld_apart (up : Bool) : (hitFld up).apart = true := by
  cases up <;> rfl

theorem Kept.wmActivate {n up tick} (h : Kept s₀ s) : Kept s₀ (s.wmActivate n up tick) :=
  .ite (h.setWm.flagOf (hitFld_apart up)).addWrap.wake (h.setWm.flagOf (hitFld_apart up)).addWrap

theorem Kept.wmFeed {n up level stamp tick} (h : Kept s₀ s) : Kept s₀ (s.wmFeed n up level stamp tick) := by
  unfold State.wmFeed
  extract_lets kind ek
  refine (h.foldl ?_).foldl ?_
  · intro t r h
    extract_lets u
    have hu : Kept s₀ u := .ite h.mainEdge h
    split
    · split
      · exact execPrIndexEdge_kept hu _ ‹_›
      · exact hu
    · exact hu
  · intro t k h
    split
    · split
      · exact execCaptureEdge_kept h _ ‹_›
      · exact h
    · exact h

theorem Kept.wmDeliver {n e tick} (h : Kept s₀ s) : Kept s₀ (s.wmDeliver n e tick) := by
  unfold State.wmDeliver
  extract_lets _ _ _ s1 s2
  have h1 : Kept s₀ s1 := h.setWm
  have h2 : Kept s₀ s2 := .ite h1.wmActivate h1
  exact h2.wmFeed

theorem Kept.wmEdge {n e} (h : Kept s₀ s) : Kept s₀ (s.wmEdge n e) :=
  .ite h.addSat (.ite h (.ite h.setWm h.wmDeliver))

theorem Kept.wmSense {n up v stamp unresOnly} (h : Kept s₀ s) : Kept s₀ (s.wmSense n up v stamp unresOnly) := by
  unfold State.wmSense; dsimp only
  split
  · exact h
  · exact .ite (.ite h.setWm h.setWm.wmEdge) (.ite h h.setWm.wmEdge)

theorem Kept.writeWmCtl {n w} (h : Kept s₀ s) : Kept s₀ (s.writeWmCtl n w) := by
  unfold State.writeWmCtl; dsimp only
  split
  · exact h.setReg.setWm
  · exact h.setReg.setWm
  · exact h.setReg

theorem Kept.wmHold {n} (h : Kept s₀ s) : Kept s₀ (s.wmHold n) :=
  .ite h.setWm h

theorem Kept.writeWmThr {n w} (h : Kept s₀ s) : Kept s₀ (s.writeWmThr n w) :=
  h.setReg.wmHold

theorem Kept.writeWmHys {n w} (h : Kept s₀ s) : Kept s₀ (s.writeWmHys n w) :=
  h.setF.setF.wmHold

theorem Kept.writeWmTrim {n w} (h : Kept s₀ s) : Kept s₀ (s.writeWmTrim n w) :=
  h.setReg.wmHold

theorem Kept.wmRelease {n tick} (h : Kept s₀ s) : Kept s₀ (s.wmRelease n tick) := by
  unfold State.wmRelease; dsimp only
  split
  · exact h
  · exact setWm (.ite h.setWm.addSat h.setWm.wmDeliver)

theorem Kept.wmReleaseAll {n tick fuel} (h : Kept s₀ s) : Kept s₀ (s.wmReleaseAll n tick fuel) := by
  induction fuel generalizing s with
  | zero => exact h
  | succ k ih => exact ih h.wmRelease

theorem Kept.writeWmBlank {n w} (h : Kept s₀ s) : Kept s₀ (s.writeWmBlank n w) :=
  .ite (setWm (.ite h.setReg.wmReleaseAll h.setReg.setWm)) h.setReg

theorem Kept.writeWmPclr {n w} (h : Kept s₀ s) : Kept s₀ (s.writeWmPclr n w) :=
  h.setReg

theorem Kept.wmBroadcast {r} (h : Kept s₀ s) : Kept s₀ (s.wmBroadcast r) :=
  h.foldl (fun h => .ite h h.setWm)

theorem execWmEnable_kept {n} (h : Kept s₀ s) : OutKept s₀ (execWmEnable n s) :=
  .hostRow (.present h (.next h.writeWmCtl))

theorem execWmDisable_kept {n} (h : Kept s₀ s) : OutKept s₀ (execWmDisable n s) :=
  .hostRow (.present h (.next h.writeWmCtl))

theorem execWmPowerUp_kept {n v} (h : Kept s₀ s) : OutKept s₀ (execWmPowerUp n v s) :=
  .present h (.next (.ite h.wmResolveAll h))

theorem execWmSettle_kept {n v} (h : Kept s₀ s) : OutKept s₀ (execWmSettle n v s) :=
  .present h (.next (.ite h.wmResolveAll h))

theorem execComparatorEdge_kept {n v stamp} (h : Kept s₀ s) : OutKept s₀ (execComparatorEdge n v stamp s) :=
  .present h (.next (by split <;> [exact h.atTick.wmSense.wmSense; exact h.atTick.wmSense.wmSense; exact h]))

theorem execWmResolve_kept {n v stamp} (h : Kept s₀ s) : OutKept s₀ (execWmResolve n v stamp s) :=
  .present h (.next (.ite h.atTick.wmSense.wmSense h))

theorem execEdgeDelivery_kept {n} (h : Kept s₀ s) : OutKept s₀ (execEdgeDelivery n s) :=
  .present h (.next (by split <;> [exact h; exact .ite h.atTick.wmRelease h]))

theorem execBlankOpen_kept {n} (h : Kept s₀ s) : OutKept s₀ (execBlankOpen n s) := by
  refine .present h (.next ?_)
  dsimp only
  split
  · exact h.setWm
  · exact h

theorem execBlankClose_kept {n} (h : Kept s₀ s) : OutKept s₀ (execBlankClose n s) := by
  refine .present h (.next ?_)
  dsimp only
  split
  · exact h.setWm
  · exact h

theorem Kept.wmPeriod {n up t} (h : Kept s₀ s) : Kept s₀ (s.wmPeriod n up t) :=
  (h.setWm.setFOf (by cases up <;> rfl)).setFOf (hitFld_apart up)

theorem execPeriodClear_kept {n} (h : Kept s₀ s) : OutKept s₀ (execPeriodClear n s) := by
  refine .present h (.next ?_)
  dsimp only
  split
  · exact h.setWm.wmPeriod.wmPeriod.noteVectors
  · exact h

theorem Kept.writeWmLatch {n w} (h : Kept s₀ s) : Kept s₀ (s.writeWmLatch n w) :=
  h.foldl (fun h => .ite h (h.setWm.setFOf (hitFld_apart _)))

theorem Kept.wmRelock (h : Kept s₀ s) : Kept s₀ s.wmRelock :=
  h.foldl (fun h => h.setWm)

/-! ### Machine/Streams -/

theorem Kept.setFeed {c x} (h : Kept s₀ s) : Kept s₀ (s.setFeed c x) :=
  h.same rfl

theorem Kept.emit {code ws} (h : Kept s₀ s) : Kept s₀ (s.emit code ws) := by
  unfold State.emit
  split
  · exact h
  · exact h.same rfl

theorem Kept.connect {c code} (h : Kept s₀ s) : Kept s₀ (s.connect c code) :=
  .ite h h.setFeed

theorem Kept.consume {c n} (h : Kept s₀ s) : Kept s₀ (s.consume c n) :=
  h.setFeed

/-! ### Machine/Converter -/

theorem Kept.setGroup {g x} (h : Kept s₀ s) : Kept s₀ (s.setGroup g x) :=
  h.same rfl

theorem Kept.setCore {g c} (h : Kept s₀ s) : Kept s₀ (s.setCore g c) :=
  h.setGroup

theorem Kept.cgRequest {g r} (h : Kept s₀ s) : Kept s₀ (s.cgRequest g r) :=
  h.setGroup

theorem Kept.cgCommit {g} (h : Kept s₀ s) : Kept s₀ (s.cgCommit g) :=
  h.setGroup.addSat.addWrap.addSat.flagIf.flagIf.flagIf.flagIf.setF.setF

theorem Kept.cgNow {g k} (h : Kept s₀ s) : Kept s₀ (s.cgNow g k) :=
  h.setCore.cgCommit

theorem Kept.pauseGroups (h : Kept s₀ s) : Kept s₀ s.pauseGroups :=
  h.foldl (fun h => h.cgNow)

theorem Kept.resumeGroups (h : Kept s₀ s) : Kept s₀ s.resumeGroups :=
  h.foldl (fun h => h.cgNow)

theorem Kept.benchGroups (h : Kept s₀ s) : Kept s₀ s.benchGroups :=
  h.foldl (fun h => h.cgNow)

theorem Kept.cgMark {g r} (h : Kept s₀ s) : Kept s₀ (s.cgMark g r) := by
  unfold State.cgMark; dsimp only
  split
  · exact h.setGroup
  · exact h.addSat

theorem Kept.cgWindows {g} (h : Kept s₀ s) : Kept s₀ (s.cgWindows g) :=
  h.setGroup

theorem Kept.winReport {g l} (h : Kept s₀ s) : Kept s₀ (s.winReport g l) := by
  unfold State.winReport; dsimp only
  split
  · exact h.setGroup.setBit.setB.setF
  · exact h

theorem Kept.elogPush {g r} (h : Kept s₀ s) : Kept s₀ (s.elogPush g r) :=
  .ite h.setGroup h.flag

theorem Kept.cgEnable {g} (h : Kept s₀ s) : Kept s₀ (s.cgEnable g) :=
  h.setGroup

theorem Kept.cgDisable {g} (h : Kept s₀ s) : Kept s₀ (s.cgDisable g) :=
  h.setGroup.cgCommit

theorem Kept.writeSeqctl {g w} (h : Kept s₀ s) : Kept s₀ (s.writeSeqctl g w) :=
  .ite h.setReg.cgRequest h.setReg

theorem Kept.writeListen {g k w} (h : Kept s₀ s) : Kept s₀ (s.writeListen g k w) :=
  h.setReg

theorem Kept.writeFtrig {g w} (h : Kept s₀ s) : Kept s₀ (s.writeFtrig g w) :=
  h.setReg

theorem Kept.writeWinArm {g l w} (h : Kept s₀ s) : Kept s₀ (s.writeWinArm g l w) :=
  .ite h.setReg.setGroup h.setReg

/-! ### Machine/Chain -/

theorem Kept.setChain {n c} (h : Kept s₀ s) : Kept s₀ (s.setChain n c) :=
  h.same rfl

theorem Kept.checkBank {n bank} (h : Kept s₀ s) : Kept s₀ (s.checkBank n bank) :=
  .ite h.setB h

theorem Kept.updateGdelay {n} (h : Kept s₀ s) : Kept s₀ (s.updateGdelay n) :=
  h.setF.setB.setB

theorem Kept.fadeEnd {n} (h : Kept s₀ s) : Kept s₀ (s.fadeEnd n) := by
  unfold State.fadeEnd; dsimp only
  split
  · exact .ite h h.setChain.setF.setF.flag.checkBank
  · exact h

theorem Kept.fadeStart {n} (h : Kept s₀ s) : Kept s₀ (s.fadeStart n) := by
  unfold State.fadeStart; dsimp only
  split
  · exact .ite h.setChain.setF.updateGdelay h
  · exact h

theorem Kept.fadeCross {n} (h : Kept s₀ s) : Kept s₀ (s.fadeCross n) :=
  .ite h.fadeEnd.setChain h.fadeEnd

theorem Kept.writeBank {n bank} (h : Kept s₀ s) : Kept s₀ (s.writeBank n bank) := by
  unfold State.writeBank
  extract_lets s1 _ s2
  have h1 : Kept s₀ s1 := h.fadeEnd
  have h2 : Kept s₀ s2 := h1.setF
  exact .ite h1.setF.setF.checkBank (.ite h1 (.ite h1.flag h2.setChain.checkBank))

theorem Kept.pushGap {n g} (h : Kept s₀ s) : Kept s₀ (s.pushGap n g) :=
  .ite h.setChain.flag h.flag

theorem Kept.formWord {n val b} (h : Kept s₀ s) : Kept s₀ (s.formWord n val b) :=
  .ite (emit (by split <;> [exact h.setChain.pushGap.flagIf; exact h.setChain])) h.setChain

theorem Kept.markLost {n b} (h : Kept s₀ s) : Kept s₀ (s.markLost n b) :=
  .ite h (h.setFOf (by split <;> rfl))

theorem Kept.formOut {n val b} (h : Kept s₀ s) : Kept s₀ (s.formOut n val b) :=
  h.formWord.markLost

/-! ### Machine/Detect -/

theorem Kept.setDet {n d} (h : Kept s₀ s) : Kept s₀ (s.setDet n d) :=
  h.setChain

theorem Kept.detLatch {n} (h : Kept s₀ s) : Kept s₀ (s.detLatch n) := by
  unfold State.detLatch; dsimp only
  split
  · exact h
  · split
    · exact h.withFreeCount.setDet.setF.setF.setF.setF.setB.setB.setPair.addWrap.flag.flagIf.formOut
    · exact h.withFreeCount.setDet.setF.setF.setF.setF.setB.setB.setPair.addWrap.flag.flagIf.formOut.formWord
    · exact h.withFreeCount.setDet.setF.setF.setF.setF.setB.setB.setPair.addWrap.flag.flagIf

theorem Kept.detClose {n} (h : Kept s₀ s) : Kept s₀ (s.detClose n) := by
  unfold State.detClose; dsimp only
  split
  · exact h.detLatch.setDet
  · exact h.detLatch

theorem Kept.detAlign {n} (h : Kept s₀ s) : Kept s₀ (s.detAlign n) :=
  .ite h.detClose h

theorem Kept.detSpans {n pos fuel} (h : Kept s₀ s) : Kept s₀ (s.detSpans n pos fuel) := by
  induction fuel generalizing s with
  | zero => exact h
  | succ k ih =>
    unfold State.detSpans; dsimp only
    split
    · exact .ite (ih (.ite h.setDet.detClose.setDet h.setDet.detClose)) h
    · exact h

theorem Kept.detSample {n y pos b} (h : Kept s₀ s) : Kept s₀ (s.detSample n y pos b) := by
  unfold State.detSample
  extract_lets _ s1 s2 s3 _ _ win _ s4 s5
  have h2 : Kept s₀ s2 := .ite h.detLatch.detSpans h.detLatch
  have h4 : Kept s₀ s4 := h2.detLatch.setDet.setF
  have h5 : Kept s₀ s5 := .ite h4.formOut h4
  clear_value s5 win
  split
  · exact .ite (.ite h5.setDet.detClose h5) (.ite h5.detClose h5)
  · exact h5

/-! ### Machine/Resampler -/

theorem Kept.rsMark {n m} (h : Kept s₀ s) : Kept s₀ (s.rsMark n m) :=
  .ite h.setChain h.addSat

theorem Kept.rsMarksLost {n k} (h : Kept s₀ s) : Kept s₀ (s.rsMarksLost n k) :=
  .ite h h.addSat

theorem Kept.turnEnd {n} (h : Kept s₀ s) : Kept s₀ (s.turnEnd n) := by
  unfold State.turnEnd; dsimp only
  split
  · exact h
  · exact .ite h.setChain.setChain.flag h.setChain.flag

theorem Kept.turnFirst {n x} (h : Kept s₀ s) : Kept s₀ (s.turnFirst n x) :=
  .ite h.setChain.detAlign h.setChain

theorem Kept.turnSlot {n x} (h : Kept s₀ s) : Kept s₀ (s.turnSlot n x) := by
  unfold State.turnSlot; dsimp only
  split
  · exact .ite h.setChain h.turnEnd.turnFirst
  · exact h.turnFirst

theorem Kept.rsForm {n p next slot} (h : Kept s₀ s) : Kept s₀ (s.rsForm n p next slot) := by
  unfold State.rsForm
  extract_lets _ _ _ _ _ _ s1 s2 s3 s4
  have h1 : Kept s₀ s1 := h.setChain.rsMarksLost
  have h2 : Kept s₀ s2 := .ite h1.addSat h1
  have h3 : Kept s₀ s3 := by unfold s3; split <;> [exact h2.turnSlot; exact h2]
  have h4 : Kept s₀ s4 := .ite h3.detSample h3
  exact .ite h4.formOut h4

theorem Kept.rsPass {n p next} (h : Kept s₀ s) : Kept s₀ (s.rsPass n p next) :=
  h.setChain.rsMarksLost

theorem Kept.rsRun {n m fuel} (h : Kept s₀ s) : Kept s₀ (s.rsRun n m fuel) := by
  induction fuel generalizing s with
  | zero => exact h
  | succ k ih =>
    unfold State.rsRun; dsimp only
    split
    · exact .ite (ih h.setChain.rsForm) h
    · split
      · exact .ite (ih (.ite h.setChain.rsPass h.setChain.rsForm)) h
      · exact h

theorem Kept.rsPlace {n x p} (h : Kept s₀ s) : Kept s₀ (s.rsPlace n x p) := by
  unfold State.rsPlace; dsimp only
  split
  · exact .ite h h.setChain.addSat
  · exact .ite h.setChain (.ite h.setChain.addSat.flag h.setChain)
  · exact h.setChain
  · exact h.setDet
  · exact h.setDet
  · exact h.addSat

theorem Kept.rsResolve {n gapTo fuel} (h : Kept s₀ s) : Kept s₀ (s.rsResolve n gapTo fuel) := by
  induction fuel generalizing s with
  | zero => exact h
  | succ k ih =>
    have hk {x p rest} : Kept s₀ (((s.setChain n rest).rsPlace n x p).rsResolve n gapTo k) := ih h.setChain.rsPlace
    unfold State.rsResolve; dsimp only
    split
    · exact h
    · split
      · exact hk
      · refine .ite ?_ (.ite hk h)
        split
        · exact hk
        · exact h

theorem Kept.rsQueue {n inst what} (h : Kept s₀ s) : Kept s₀ (s.rsQueue n inst what) :=
  h.setChain.rsResolve

theorem Kept.rsSweep {g} (h : Kept s₀ s) : Kept s₀ (s.rsSweep g) :=
  h.foldl (fun h => .ite h.rsResolve h)

theorem Kept.rsInstant {n r} (h : Kept s₀ s) : Kept s₀ (s.rsInstant n r) := by
  unfold State.rsInstant
  extract_lets _ _ s1
  have h1 : Kept s₀ s1 := .ite (.ite h.addSat h.rsQueue) h
  exact .ite (.ite h1.rsQueue (.ite h1.rsQueue h1)) h1

theorem Kept.rsSlot {n tick} (h : Kept s₀ s) : Kept s₀ (s.rsSlot n tick) :=
  .ite (.ite h.atTick.setChain.rsQueue h) h

theorem Kept.rsRefLost {r} (h : Kept s₀ s) : Kept s₀ (s.rsRefLost r) :=
  h.foldl (fun h => .ite h.rsResolve.turnEnd.rsMarksLost.setChain h)

/-! ### Machine/RingCore -/

theorem Kept.setRing {r x} (h : Kept s₀ s) : Kept s₀ (s.setRing r x) :=
  h.same rfl

theorem Kept.closeBlock {r} (h : Kept s₀ s) : Kept s₀ (s.closeBlock r) := by
  unfold State.closeBlock; dsimp only
  split
  · exact h.setRing
  · exact h

theorem Kept.ringRestart {r} (h : Kept s₀ s) : Kept s₀ (s.ringRestart r) :=
  h.closeBlock.setRing

theorem Kept.sourceStops {code} (h : Kept s₀ s) : Kept s₀ (s.sourceStops code) :=
  h.foldl (fun h => .ite (.ite h.ringRestart h.setRing) h)

theorem Kept.closeHere {r w} (h : Kept s₀ s) : Kept s₀ (s.closeHere r w) :=
  .ite h.closeBlock.withTwin h

theorem Kept.placeWord {r w at_} (h : Kept s₀ s) : Kept s₀ (s.placeWord r w at_) := by
  unfold State.placeWord; dsimp only
  split
  · exact .ite (closeBlock (by split <;> exact h.setRing)) (by split <;> exact h.setRing)
  · exact by split <;> exact h.setRing

theorem Kept.dropWord {r} (h : Kept s₀ s) : Kept s₀ (s.dropWord r) :=
  h.closeBlock.setRing.flag

theorem Kept.refillTokens {r ns} (h : Kept s₀ s) : Kept s₀ (s.refillTokens r ns) :=
  h.setRing

theorem Kept.ringStep {r} (h : Kept s₀ s) : Kept s₀ (s.ringStep r) := by
  unfold State.ringStep; dsimp only
  split
  · exact h.ringRestart.setRing
  · exact h.ringRestart.setRing
  · exact h.setRing
  · exact h

theorem Kept.ringWord {r ns at_} (h : Kept s₀ s) : Kept s₀ (s.ringWord r ns at_) := by
  unfold State.ringWord
  extract_lets s1
  have h1 : Kept s₀ s1 := h.refillTokens
  split
  · exact h1
  · refine .ite ?_ h1.consume
    extract_lets s2 _ _ _ s3
    have h3 : Kept s₀ s3 := (closeHere (.ite h1.ringRestart h1)).flagIf
    exact .ite h3.consume.setRing.placeWord.ringStep (.ite h3 h3.consume.setRing.dropWord.ringStep)

theorem Kept.gstat (h : Kept s₀ s) : Kept s₀ s.gstat :=
  h.setB.setB

theorem Kept.addCharge {r on} (h : Kept s₀ s) : Kept s₀ (s.addCharge r on) :=
  gstat (.ite h.setF h.setF)

theorem Kept.detachRing {r} (h : Kept s₀ s) : Kept s₀ (s.detachRing r) :=
  h.setFeed

theorem Kept.countBlock {r} (h : Kept s₀ s) : Kept s₀ (s.countBlock r) :=
  .ite h.setRing.flag h.setRing

theorem Kept.passTail {r} (h : Kept s₀ s) : Kept s₀ (s.passTail r) :=
  .ite (h.addWrap.foldl (fun h => h.countBlock)) h

theorem Kept.retireRing {r} (h : Kept s₀ s) : Kept s₀ (s.retireRing r) :=
  .ite (detachRing (.ite (h.passTail.setRing.withTwin.setFOf (by rfl)) h.passTail.setRing.withTwin)).addCharge.setF.flag h

theorem Kept.retireRings {func} (h : Kept s₀ s) : Kept s₀ (s.retireRings func) :=
  h.foldl (fun h => .ite h.retireRing h)

/-! ### Machine/CalStep -/

theorem Kept.setMarks {m} (h : Kept s₀ s) : Kept s₀ (s.setMarks m) :=
  h.withCal.setF

theorem Kept.markField {r i j} (h : Kept s₀ s) : Kept s₀ (s.markField r i j) :=
  .ite h h.setMarks

theorem Kept.unmarkField {r i j} (h : Kept s₀ s) : Kept s₀ (s.unmarkField r i j) :=
  .ite h.setMarks h

theorem Kept.unmarkHalf {a low} (h : Kept s₀ s) : Kept s₀ (s.unmarkHalf a low) :=
  .ite h.setMarks h

theorem Kept.calField_fst {r i j tol tries} (h : Kept s₀ s) (hr : r.apart = true) :
    Kept s₀ (s.calField r i j tol tries).1 := by
  unfold State.calField
  split
  · exact (h.setFOf hr).unmarkField
  · exact h.markField

/-! ### Machine/Rotation -/

theorem Kept.setRot {g r} (h : Kept s₀ s) : Kept s₀ (s.setRot g r) :=
  h.setGroup

theorem Kept.setRotst {g v} (h : Kept s₀ s) : Kept s₀ (s.setRotst g v) :=
  h.setF

theorem Kept.busUpdate {q} (h : Kept s₀ s) : Kept s₀ (s.busUpdate q) :=
  .ite h h.withCal

theorem Kept.busUpdates (h : Kept s₀ s) : Kept s₀ s.busUpdates :=
  h.foldl (fun h => h.busUpdate)

theorem Kept.logHandover {g o result} (h : Kept s₀ s) : Kept s₀ (s.logHandover g o result) :=
  h.withFreeCount.setF.setF.setF.setF.setF.setF.setF.setF

theorem Kept.abandon {g} (h : Kept s₀ s) : Kept s₀ (s.abandon g) := by
  unfold State.abandon; dsimp only
  split
  · exact h
  · exact h.setRot.logHandover.addSat.setRotst

theorem Kept.abandonAll (h : Kept s₀ s) : Kept s₀ s.abandonAll :=
  (h.foldl (fun h => h.abandon)).withCal

theorem Kept.refFalls {g} (h : Kept s₀ s) : Kept s₀ (s.refFalls g) :=
  h.setSettled.abandon

theorem Kept.retire {g sl} (h : Kept s₀ s) : Kept s₀ (s.retire g sl) :=
  h.flag.flag.setRot.setRotst

theorem Kept.sendCalib {g sl retry} (h : Kept s₀ s) : Kept s₀ (s.sendCalib g sl retry) :=
  h.setRot.setRotst.setB.busUpdate

theorem Kept.checkSat {g sl} (h : Kept s₀ s) : Kept s₀ (s.checkSat g sl) :=
  .ite h.flag.flag h

theorem Kept.handoverEnd {g} (h : Kept s₀ s) : Kept s₀ (s.handoverEnd g) := by
  unfold State.handoverEnd; dsimp only
  split
  · exact h
  · refine .ite h (.ite ?_ ?_)
    · exact h.setRot.setF.setF.setPair.logHandover.addWrap.flag.setF.setBit.checkSat.sendCalib
    · exact .ite h.setRot.logHandover.addSat.flag.setF.retire h.setRot.logHandover.addSat.flag.setF.sendCalib

theorem Kept.overlapSample {g out inc} (h : Kept s₀ s) : Kept s₀ (s.overlapSample g out inc) := by
  unfold State.overlapSample; dsimp only
  split
  · exact h
  · exact .ite h (.ite (.ite h.setRot.abandon h.setRot) h.setRot)

theorem Kept.rotDue {g slice} (h : Kept s₀ s) : Kept s₀ (s.rotDue g slice) :=
  h.setRot.setRotst

theorem Kept.dueOnReturn (h : Kept s₀ s) : Kept s₀ s.dueOnReturn :=
  .ite (h.foldl (fun h => .ite h.rotDue h)) h

theorem Kept.firstReading {k} (h : Kept s₀ s) : Kept s₀ (s.firstReading k) :=
  .ite (h.withPwr.foldl (fun h => by split <;> [(split <;> [exact h.rotDue; exact h]); exact h])) h

theorem Kept.rotCheck {g} (h : Kept s₀ s) : Kept s₀ (s.rotCheck g) := by
  unfold State.rotCheck
  split
  · split
    · exact h.rotDue
    · split
      · exact h.rotDue
      · exact .ite h.rotDue h
  · exact h

theorem Kept.overlapStart {g} (h : Kept s₀ s) : Kept s₀ (s.overlapStart g) :=
  .ite h.setRot.setRotst h

theorem Kept.sliceSteps_fst {g sl c} (h : Kept s₀ s) : Kept s₀ (s.sliceSteps g sl c).1 :=
  ((((h.calField_fst (by rfl)).calField_fst (by rfl)).calField_fst (by rfl)).calField_fst (by rfl)).calField_fst (by rfl)
    |>.setF.setF.setF

theorem Kept.calSlice_fst {g sl c} (h : Kept s₀ s) : Kept s₀ (s.calSlice g sl c).1 :=
  .ite h.sliceSteps_fst.setRot h.sliceSteps_fst

theorem Kept.calibEnd {g c} (h : Kept s₀ s) : Kept s₀ (s.calibEnd g c) := by
  unfold State.calibEnd
  extract_lets s1
  have h1 : Kept s₀ s1 := h.busUpdate
  split
  · exact h1
  · have h2 {sl} : Kept s₀ (s1.calSlice g sl c).1 := h1.calSlice_fst
    exact .ite (.ite h2.setRot.withCal.setRotst.busUpdate (.ite h2.withCal.retire.busUpdate h2.setRot.withCal.busUpdate)) h1

theorem Kept.refillMap {g} (h : Kept s₀ s) : Kept s₀ (s.refillMap g) :=
  (h.foldl (fun h => h.setF)).setF.setRot.setRotst.flagIf.foldl (fun h => h.checkSat)

theorem Kept.moveField {r g sl est} (h : Kept s₀ s) (hr : r.apart = true) : Kept s₀ (s.moveField r g sl est) :=
  .ite (h.setFOf hr).flag.flag (h.setFOf hr)

theorem Kept.setSpur {g est} (h : Kept s₀ s) : Kept s₀ (s.setSpur g est) := by
  unfold State.setSpur; dsimp only
  split
  · exact h
  · exact h.withFreeCount.setF.setF.setF

theorem Kept.estimate {g} (h : Kept s₀ s) : Kept s₀ (s.estimate g) := by
  unfold State.estimate; dsimp only
  split
  · refine .ite ?_ h.setRot
    have {c} [Decidable c] {t : State} {x} (h : Kept s₀ t) : Kept s₀ (if c then t.setSpur g x else t) := .ite h.setSpur h
    exact this (h.setRot.foldl fun h => .ite (((h.moveField (by rfl)).moveField (by rfl)).moveField (by rfl))
      ((h.moveField (by rfl)).moveField (by rfl)))
  · exact h

theorem Kept.estCount {g ys} (h : Kept s₀ s) : Kept s₀ (s.estCount g ys) :=
  .ite h.setRot h.setRot.setF.flagIf

theorem Kept.estBreak {g} (h : Kept s₀ s) : Kept s₀ (s.estBreak g) :=
  .ite h h.setRot

theorem Kept.estClear (h : Kept s₀ s) : Kept s₀ s.estClear :=
  h.foldl (fun h => h.setRot.setF)

theorem Kept.writeRotCtl {g w} (h : Kept s₀ s) : Kept s₀ (s.writeRotCtl g w) :=
  h.setReg

theorem Kept.writeSlice {g a mask open_ w} (h : Kept s₀ s) (ha : Reg.CFG_STAT.base < a) :
    Kept s₀ (s.writeSlice g a mask open_ w) :=
  (h.setWord ha).flagIf

theorem Kept.writeResidual {g sl a mask w} (h : Kept s₀ s) (ha : Reg.CFG_STAT.base < a) :
    Kept s₀ (s.writeResidual g sl a mask w) :=
  .ite (h.writeSlice ha) (h.writeSlice ha).checkSat

theorem execOverlapStart_kept {g tick} (h : Kept s₀ s) : OutKept s₀ (execOverlapStart g tick s) :=
  .present h (.next h.atTick.overlapStart)

theorem execHandoverTest_kept {g} (h : Kept s₀ s) : OutKept s₀ (execHandoverTest g s) :=
  .present h (.next h.handoverEnd)

theorem execSliceCalibration_kept {g ofs gain skew rofs rgain res} (h : Kept s₀ s) :
    OutKept s₀ (execSliceCalibration g ofs gain skew rofs rgain res s) :=
  .present h (.next h.calibEnd)

theorem execEstimatorBlock_kept {g tick pair} (h : Kept s₀ s) : OutKept s₀ (execEstimatorBlock g tick pair s) :=
  .present h (.next (.ite h.atTick.estimate.setReg h.atTick.estimate))

/-! ### Machine/Nets -/

theorem Kept.nameNet {trk d} (h : Kept s₀ s) : Kept s₀ (s.nameNet trk d) :=
  h.setF.setF.setF

theorem Kept.census (h : Kept s₀ s) : Kept s₀ s.census := by
  unfold State.census; dsimp only
  split <;> exact h.setF.setF.setB.nameNet

/-! ### Machine/Signal -/

theorem Kept.setCell {c x} (h : Kept s₀ s) : Kept s₀ (s.setCell c x) :=
  h.same rfl

theorem Kept.cellSettle {c clocked dt} (h : Kept s₀ s) : Kept s₀ (s.cellSettle c clocked dt) :=
  h.setCell.flagIf

theorem Kept.cellReset {c} (h : Kept s₀ s) : Kept s₀ (s.cellReset c) := by
  unfold State.cellReset; dsimp only
  split
  · exact h.setCell
  · exact h.setCell
  · exact h

/-! ### Machine/Beat -/

theorem Kept.emitBeat {g} (h : Kept s₀ s) : Kept s₀ (s.emitBeat g) := by
  unfold State.emitBeat; dsimp only
  split
  · exact h
  · exact foldl (.ite h.setGroup.elogPush h.setGroup) (fun h => h.emit)

theorem Kept.convertBeat {g e tick raw before after inc} (h : Kept s₀ s) :
    Kept s₀ (s.convertBeat g e tick raw before after inc) := by
  unfold State.convertBeat
  extract_lets _ _ core _ _ _ _ _ _ _ _ _ ov _ _ _ _ s1 s2 s3
  have h1 : Kept s₀ s1 := h.setGroup
  have h2 : Kept s₀ s2 := by
    unfold s2
    split
    · exact h1
    · exact h1.foldl fun h => h.addSat
  have h3 : Kept s₀ s3 := by
    unfold s3
    clear_value ov s2
    split
    · exact h2.overlapSample
    · exact h2
  exact .ite h3.estCount h3.estBreak

theorem Kept.cgDrain {g} (h : Kept s₀ s) : Kept s₀ (s.cgDrain g) :=
  h.setGroup.foldl (fun h => .ite h h.setChain)

theorem Kept.cgEdge {g e tick raw before after inc} (h : Kept s₀ s) :
    Kept s₀ (s.cgEdge g e tick raw before after inc) := by
  unfold State.cgEdge
  extract_lets s1 s2 _ s3 _ s4 _ _ _ _ s5
  have h1 : Kept s₀ s1 := h.atTick.cgDrain.cgCommit.handoverEnd
  have h2 : Kept s₀ s2 := h1.foldl (fun h => h.winReport)
  have h3 : Kept s₀ s3 := h2.setGroup
  have h4 : Kept s₀ s4 := .ite h3.convertBeat h3
  have h5 : Kept s₀ s5 := h4.setGroup
  exact h5.emitBeat.cgWindows.cgCommit.rsSweep

theorem Kept.cgInbox {g k f} (h : Kept s₀ s) (hf : ∀ {r t}, Kept s₀ t → Kept s₀ (f r t)) :
    Kept s₀ (s.cgInbox g k f) := by
  unfold State.cgInbox; dsimp only
  split
  · exact .ite (hf h.setGroup) h.setGroup
  · exact h

theorem execConversionBeat_kept {g e tick raw before after inc} (h : Kept s₀ s) :
    OutKept s₀ (execConversionBeat g e tick raw before after inc s) :=
  .ite (.present h (.next (.ite h.cgEdge h))) .fault

theorem execSeqStart_kept {g} (h : Kept s₀ s) : OutKept s₀ (execSeqStart g s) :=
  .present h (.next (h.cgInbox (fun h => h.cgRequest)))

theorem execUrgent_kept {g} (h : Kept s₀ s) : OutKept s₀ (execUrgent g s) :=
  .present h (.next (h.cgInbox (fun h => h.cgRequest)))

theorem execMark_kept {g} (h : Kept s₀ s) : OutKept s₀ (execMark g s) :=
  .present h (.next (h.cgInbox (fun h => h.cgMark)))

theorem Kept.writeCgCtl {g w} (h : Kept s₀ s) : Kept s₀ (s.writeCgCtl g w) := by
  unfold State.writeCgCtl; dsimp only
  split
  · exact h.setReg.flagIf.cgEnable
  · exact h.cgDisable.abandon.setReg.flagIf.foldl (fun h => h.sourceStops)
  · exact h.setReg.flagIf

theorem execCgEnable_kept {g} (h : Kept s₀ s) : OutKept s₀ (execCgEnable g s) :=
  .hostRow (.present h (.next (h.sclkWrite (fun h => h.writeCgCtl))))

theorem execCgDisable_kept {g} (h : Kept s₀ s) : OutKept s₀ (execCgDisable g s) :=
  .hostRow (.present h (.next (h.sclkWrite (fun h => h.writeCgCtl))))

theorem execCgGo_kept {g} (h : Kept s₀ s) : OutKept s₀ (execCgGo g s) :=
  .hostRow (.present h (.next (h.sclkWrite (fun h => h.writeSeqctl))))

theorem execCgStop_kept {g} (h : Kept s₀ s) : OutKept s₀ (execCgStop g s) :=
  .hostRow (.present h (.next (h.sclkWrite (fun h => h.writeSeqctl))))

theorem Kept.cgAdvance {g ok} (h : Kept s₀ s) : Kept s₀ (s.cgAdvance g ok) :=
  .ite h.setGroup h

theorem execSettleEnd_kept {g} (h : Kept s₀ s) : OutKept s₀ (execSettleEnd g s) :=
  .present h (.next h.cgAdvance)

theorem execDwellComplete_kept {g} (h : Kept s₀ s) : OutKept s₀ (execDwellComplete g s) :=
  .present h (.next h.cgAdvance)

theorem execUrgentDwellComplete_kept {g} (h : Kept s₀ s) : OutKept s₀ (execUrgentDwellComplete g s) :=
  .present h (.next h.cgAdvance)

theorem Kept.cgSnap {g} (h : Kept s₀ s) : Kept s₀ (s.cgSnap g) :=
  h.setPair.setPair.setPair.setPair

theorem execCgCntSnap_kept {g} (h : Kept s₀ s) : OutKept s₀ (execCgCntSnap g s) :=
  .hostRow (.present h (.next (h.sclkWrite (fun h => h.cgSnap))))

theorem execElogPop_kept {g} (h : Kept s₀ s) : OutKept s₀ (execElogPop g s) :=
  .hostRow (.present h (.next (h.sclkWrite (fun h => h.setGroup))))

theorem execWindowComparatorFire_kept {g l} (h : Kept s₀ s) : OutKept s₀ (execWindowComparatorFire g l s) :=
  .inst (.present h (.next h.winReport))

theorem execRefSettled_kept {g} (h : Kept s₀ s) : OutKept s₀ (execRefSettled g s) :=
  .present h (.next (.ite h h.setSettled))

theorem execRefFault_kept {q} (h : Kept s₀ s) : OutKept s₀ (execRefFault q s) :=
  .present h (.next (h.foldl (fun h => .ite h.flag.refFalls h)))

theorem execRefqWindowReturn_kept {q} (h : Kept s₀ s) : OutKept s₀ (execRefqWindowReturn q s) :=
  .present h (.next (h.foldl (fun h => h.setF)))

theorem Kept.writeCgRef {g w} (h : Kept s₀ s) : Kept s₀ (s.writeCgRef g w) :=
  .ite h (refFalls (.ite h.setF h.setF.setF))

/-! ### Machine/ChainOut -/

theorem Kept.fcMark {n t} (h : Kept s₀ s) : Kept s₀ (s.fcMark n t) :=
  .ite h.setChain h.addSat

theorem Kept.takeWord_fst {n w} (h : Kept s₀ s) : Kept s₀ (s.takeWord n w).1 := by
  unfold State.takeWord
  extract_lets _ _ _ _ _ _ s1 _ _ _ s2 s3 s4
  have h1 : Kept s₀ s1 := .ite h.rsResolve h
  have h2 : Kept s₀ s2 := h1.setChain
  have h3 : Kept s₀ s3 := .ite h2.rsResolve h2
  have h4 : Kept s₀ s4 := .ite h3.fcMark h3
  exact h4

theorem Kept.firForm {n u} (h : Kept s₀ s) : Kept s₀ (s.firForm n u) := by
  unfold State.firForm
  extract_lets s1 _ _ _ _ _ s2 s3 _ s4 _ _ s5 _ s6 _ _ s7 s8
  have h1 : Kept s₀ s1 := h.fadeEnd.fadeStart
  have h2 : Kept s₀ s2 := h1.setChain
  have h3 : Kept s₀ s3 := .ite h2.flag.flag.addSat h2
  have h4 : Kept s₀ s4 := .ite h3.flag.flag.addSat h3
  have h5 : Kept s₀ s5 := h4.setB
  have h6 : Kept s₀ s6 := h5.setChain
  have h7 : Kept s₀ s7 := .ite h6.detSample h6
  have h8 : Kept s₀ s8 := .ite h7 h7.rsMark
  exact .ite (.ite h8 h8.rsRun) (.ite h7.formOut h7)

theorem Kept.chainTake {n fuel} (h : Kept s₀ s) : Kept s₀ (s.chainTake n fuel) := by
  induction fuel generalizing s with
  | zero => exact h
  | succ k ih =>
    unfold State.chainTake; dsimp only
    split
    · exact h
    · split
      · exact h.consume.takeWord_fst.firForm
      · exact ih h.consume.takeWord_fst

theorem Kept.chainDrain {n fuel} (h : Kept s₀ s) : Kept s₀ (s.chainDrain n fuel) := by
  induction fuel generalizing s with
  | zero => exact h
  | succ k ih => exact .ite h (ih h.chainTake)

theorem Kept.resumeChains (h : Kept s₀ s) : Kept s₀ s.resumeChains :=
  h.foldl (fun h => .ite h (.ite h.setChain h.setFeed))

theorem detResults_beyond {n a : Nat} (ha : a ∈ detResults n) : Reg.CFG_STAT.base < a := by
  simp only [detResults, List.mem_cons, List.not_mem_nil, or_false] at ha
  rcases ha with rfl | rfl | rfl | rfl | rfl | rfl | rfl | rfl <;> exact FieldRef.cfg_lt_addr (by decide) _ _

theorem Kept.fcStart {n} (h : Kept s₀ s) : Kept s₀ (s.fcStart n) := by
  unfold State.fcStart
  extract_lets _ _ s1 _ s2 s3 s4
  have h1 : Kept s₀ s1 := h.setFeed
  have h2 : Kept s₀ s2 := h1.setChain
  have h3 : Kept s₀ s3 := h2.rsMarksLost.foldlMem fun ha h => h.setWord (detResults_beyond ha)
  have h4 : Kept s₀ s4 := h3.checkBank.updateGdelay
  exact .ite h4.setF h4

theorem Kept.fcStop {n} (h : Kept s₀ s) : Kept s₀ (s.fcStop n) :=
  .ite h.fadeEnd.setChain.setF h.fadeEnd.setChain.setF.setF.checkBank

theorem Kept.writeFcCtl {n w} (h : Kept s₀ s) : Kept s₀ (s.writeFcCtl n w) := by
  unfold State.writeFcCtl; dsimp only
  split
  · exact h.setReg.flagIf.fcStart
  · exact h.setReg.flagIf.fcStop.sourceStops
  · exact h.setReg.flagIf

theorem Kept.writeWhileOff {n a w flag} (h : Kept s₀ s) (ha : Reg.CFG_STAT.base < a) (hf : flag.apart = true) :
    Kept s₀ (s.writeWhileOff n a w flag) :=
  (h.setWord ha).flagIfOf hf

theorem Kept.writeFcSrc {n v} (h : Kept s₀ s) : Kept s₀ (s.writeFcSrc n v) :=
  .ite h.flag (setF (.ite h.chainDrain h)).connect

theorem Kept.writeFcCic {n w} (h : Kept s₀ s) : Kept s₀ (s.writeFcCic n w) :=
  (h.writeWhileOff (FieldRef.cfg_lt_addr (by decide) _ _) (by rfl)).setF

theorem Kept.writeFcFir {n w} (h : Kept s₀ s) : Kept s₀ (s.writeFcFir n w) :=
  (h.writeWhileOff (FieldRef.cfg_lt_addr (by decide) _ _) (by rfl)).writeBank

theorem Kept.writeFcBank {n b a w} (h : Kept s₀ s) (ha : Reg.CFG_STAT.base < a) : Kept s₀ (s.writeFcBank n b a w) :=
  (h.fadeEnd.setWord ha).flagIf

theorem Kept.writeFcInfo {n b w} (h : Kept s₀ s) : Kept s₀ (s.writeFcInfo n b w) :=
  h.writeFcBank (FieldRef.cfg_lt_addr (by decide) _ _)

theorem Kept.writeRsCtl {n w} (h : Kept s₀ s) : Kept s₀ (s.writeRsCtl n w) :=
  (h.writeWhileOff (FieldRef.cfg_lt_addr (by decide) _ _) (by rfl))

theorem Kept.commitInc {n w} (h : Kept s₀ s) : Kept s₀ (s.commitInc n w) :=
  h.setF.setPair.setChain

theorem Kept.caddrNext {n} (h : Kept s₀ s) : Kept s₀ (s.caddrNext n) :=
  h.setF

theorem Kept.cdataWrite {n w} (h : Kept s₀ s) : Kept s₀ (s.cdataWrite n w) :=
  caddrNext (.ite h.flag h.setChain)

theorem Kept.cdataRead {n} (h : Kept s₀ s) : Kept s₀ (s.cdataRead n) :=
  h.caddrNext.withReadData

theorem Kept.fcWrite {n a k} (h : Kept s₀ s) (hk : ∀ {t}, Kept s₀ t → Kept s₀ (k t)) :
    Kept s₀ (s.fcWrite n a k) :=
  h.sclkWrite hk

theorem execFcEnable_kept {n} (h : Kept s₀ s) : OutKept s₀ (execFcEnable n s) :=
  .hostRow (.present h (.next (h.fcWrite (fun h => h.writeFcCtl))))

theorem execFcDisable_kept {n} (h : Kept s₀ s) : OutKept s₀ (execFcDisable n s) :=
  .hostRow (.present h (.next (h.fcWrite (fun h => h.writeFcCtl))))

theorem execBank_kept {n bank} (h : Kept s₀ s) : OutKept s₀ (execBank n bank s) :=
  .hostRow (.inst (.present h (.next (h.fcWrite (fun h => h.writeBank)))))

theorem execXfadeStart_kept {n} (h : Kept s₀ s) : OutKept s₀ (execXfadeStart n s) :=
  .present h (.next (.ite h.fadeCross h))

theorem execXfDone_kept {n} (h : Kept s₀ s) : OutKept s₀ (execXfDone n s) :=
  .present h (.next (.ite h.fadeEnd h))

theorem execFcCntSnap_kept {n} (h : Kept s₀ s) : OutKept s₀ (execFcCntSnap n s) :=
  .hostRow (.present h (.next (h.fcWrite (fun h => h.setPair.setPair.setPair))))

theorem execGapPop_kept {n} (h : Kept s₀ s) : OutKept s₀ (execGapPop n s) :=
  .hostRow (.present h (.next (h.fcWrite (fun h => h.setChain))))

theorem execTlogPop_kept {n} (h : Kept s₀ s) : OutKept s₀ (execTlogPop n s) :=
  .hostRow (.present h (.next (h.fcWrite (fun h => h.setChain))))

theorem execCdata_kept {n acc} (h : Kept s₀ s) : OutKept s₀ (execCdata n acc s) := by
  unfold execCdata
  split
  · exact .readPresent h (.next (.ite h.cdataRead h.withReadData))
  · exact .hostRow (.present h (.next (h.fcWrite (fun h => h.cdataWrite))))

theorem execIncCommit_kept {n w} (h : Kept s₀ s) : OutKept s₀ (execIncCommit n w s) :=
  .hostRow (.present h (.next (h.fcWrite (fun h => h.commitInc))))

theorem execSlot_kept {n tick} (h : Kept s₀ s) : OutKept s₀ (execSlot n tick s) :=
  .present h (.next h.rsSlot)

theorem execRsInstant_kept {n} (h : Kept s₀ s) : OutKept s₀ (execRsInstant n s) := by
  refine .present h (.next ?_)
  dsimp only
  split
  · exact .ite h.setChain.rsInstant h.setChain
  · exact h

theorem execDetWindowClose_kept {n} (h : Kept s₀ s) : OutKept s₀ (execDetWindowClose n s) :=
  .present h (.next (.ite h.detLatch h))

/-! ### Machine/Dac -/

theorem Kept.setDac {d x} (h : Kept s₀ s) : Kept s₀ (s.setDac d x) :=
  h.same rfl

theorem Kept.daWrite {d a k} (h : Kept s₀ s) (hk : ∀ {t}, Kept s₀ t → Kept s₀ (k t)) :
    Kept s₀ (s.daWrite d a k) :=
  h.sclkWrite hk

theorem Kept.segStart {d k} (h : Kept s₀ s) : Kept s₀ (s.segStart d k) :=
  h.setDac.addWrap

theorem Kept.segEnter {d k} (h : Kept s₀ s) : Kept s₀ (s.segEnter d k) :=
  .ite h.setDac h.segStart

theorem Kept.segEnd {d} (h : Kept s₀ s) : Kept s₀ (s.segEnd d) :=
  .ite h.flagIf.segEnter h

theorem Kept.segDrop {d} (h : Kept s₀ s) : Kept s₀ (s.segDrop d) :=
  h.addSat.flag

theorem Kept.segFire {d r} (h : Kept s₀ s) : Kept s₀ (s.segFire d r) := by
  unfold State.segFire; dsimp only
  split
  · exact h.segEnd.segDrop
  · split
    · exact h.segEnd.segDrop
    · exact h.segEnd.segStart.setDac.setF

theorem Kept.daHalt {d} (h : Kept s₀ s) : Kept s₀ (s.daHalt d) :=
  setDac (by split <;> [exact .ite h.segEnd.setF.setF.segDrop h.segEnd; exact h.segEnd])

theorem Kept.daGo {d} (h : Kept s₀ s) : Kept s₀ (s.daGo d) :=
  .ite h.segEnter h

theorem Kept.daFill {d fuel} (h : Kept s₀ s) : Kept s₀ (s.daFill d fuel) := by
  induction fuel generalizing s with
  | zero => exact h
  | succ k ih =>
    unfold State.daFill; dsimp only
    split
    · exact h
    · exact .ite (ih h.consume.setDac.addWrap) (.ite (ih h.consume.setDac) h)

theorem Kept.daTake {d} (h : Kept s₀ s) : Kept s₀ (s.daTake d) :=
  .ite h.daFill h

theorem Kept.daFlush {d} (h : Kept s₀ s) : Kept s₀ (s.daFlush d) :=
  h.setDac.addWrap

theorem Kept.daUnderrun {d} (h : Kept s₀ s) : Kept s₀ (s.daUnderrun d) :=
  h.setDac.addWrap.addSat.flagIf

theorem Kept.daPlay {d} (h : Kept s₀ s) : Kept s₀ (s.daPlay d) := by
  unfold State.daPlay; dsimp only
  split
  · split
    · exact .ite h.setDac h.setDac
    · exact h.setDac
  · exact h.setDac

theorem Kept.daShortOut {d} (h : Kept s₀ s) : Kept s₀ (s.daShortOut d) :=
  .ite h.setDac h

theorem Kept.daBegin {d e} (h : Kept s₀ s) : Kept s₀ (s.daBegin d e) :=
  .ite h h.setF

theorem Kept.daSample {d e} (h : Kept s₀ s) : Kept s₀ (s.daSample d e) := by
  unfold State.daSample; dsimp only
  split
  · exact .ite h.segEnd.setDac.setDac h.segEnd.setDac.daBegin.daPlay.daShortOut
  · exact h.segEnd.setDac.setDac
  · exact h.segEnd.setDac.setDac.withFreeCount

theorem Kept.daEdge {d e tick} (h : Kept s₀ s) : Kept s₀ (s.daEdge d e tick) := by
  unfold State.daEdge
  extract_lets s1 _ s2 _ s3
  have h1 : Kept s₀ s1 := h.atTick.daUnderrun.daTake
  have h2 : Kept s₀ s2 := h1.setDac
  have h3 : Kept s₀ s3 := .ite h2.setDac h2
  exact h3.daSample.daSample

theorem Kept.daAbandon {d} (h : Kept s₀ s) : Kept s₀ (s.daAbandon d) :=
  h.daHalt.daFlush.setDac

theorem Kept.abandonDacs (h : Kept s₀ s) : Kept s₀ s.abandonDacs :=
  h.foldl (fun h => h.daAbandon)

theorem Kept.resumeDacs (h : Kept s₀ s) : Kept s₀ s.resumeDacs :=
  h.foldl (fun h => .ite h.setDac h)

theorem Kept.daEnable {d} (h : Kept s₀ s) : Kept s₀ (s.daEnable d) :=
  h.setFeed.setDac.setF.setF

theorem Kept.daDisable {d} (h : Kept s₀ s) : Kept s₀ (s.daDisable d) :=
  h.daHalt.daUnderrun.setDac

theorem Kept.writeDaCtl {d w} (h : Kept s₀ s) : Kept s₀ (s.writeDaCtl d w) := by
  unfold State.writeDaCtl
  extract_lets _ s1 s2 s3
  have h1 : Kept s₀ s1 := h.setReg
  have h2 : Kept s₀ s2 := by unfold s2; split <;> [exact h1.daEnable; exact h1.daDisable; exact h1]
  have h3 : Kept s₀ s3 := .ite h2.daHalt h2
  exact .ite h3.daGo h3

theorem Kept.writeDaSrc {d v} (h : Kept s₀ s) : Kept s₀ (s.writeDaSrc d v) :=
  .ite h.flagIf h.setF.connect

theorem Kept.writeDaListen {d k w} (h : Kept s₀ s) : Kept s₀ (s.writeDaListen d k w) :=
  h.setReg

theorem Kept.writeSegLen {d k w} (h : Kept s₀ s) : Kept s₀ (s.writeSegLen d k w) :=
  h.setF

theorem Kept.paddrNext {d} (h : Kept s₀ s) : Kept s₀ (s.paddrNext d) :=
  h.setF

theorem Kept.pdataWrite {d w} (h : Kept s₀ s) : Kept s₀ (s.pdataWrite d w) :=
  h.setDac.paddrNext

theorem Kept.pdataRead {d} (h : Kept s₀ s) : Kept s₀ (s.pdataRead d) :=
  h.paddrNext.withReadData

theorem execSegStart_kept {d} (h : Kept s₀ s) : OutKept s₀ (execSegStart d s) := by
  refine .present h (.next ?_)
  dsimp only
  split
  · exact h.setDac.segFire
  · exact h

theorem execDaGo_kept {d} (h : Kept s₀ s) : OutKept s₀ (execDaGo d s) :=
  .hostRow (.present h (.next (h.daWrite (fun h => h.daGo))))

theorem execDaStop_kept {d} (h : Kept s₀ s) : OutKept s₀ (execDaStop d s) :=
  .hostRow (.present h (.next (h.daWrite (fun h => h.daHalt))))

theorem execDaEnable_kept {d en} (h : Kept s₀ s) : OutKept s₀ (execDaEnable d en s) :=
  .hostRow (.present h (.next (h.daWrite (fun h => h.writeDaCtl))))

theorem execSegmentEnd_kept {d} (h : Kept s₀ s) : OutKept s₀ (execSegmentEnd d s) :=
  .present h (.next h.segEnd)

theorem execUnderrun_kept {d} (h : Kept s₀ s) : OutKept s₀ (execUnderrun d s) :=
  .present h (.next h.daUnderrun)

theorem execPdata_kept {d acc} (h : Kept s₀ s) : OutKept s₀ (execPdata d acc s) := by
  unfold execPdata
  split
  · exact .readPresent h (.next (.ite h.pdataRead h.withReadData))
  · exact .hostRow (.present h (.next (h.daWrite (fun h => h.pdataWrite))))

/-! ### Machine/Pulse -/

theorem Kept.setCab {k c} (h : Kept s₀ s) : Kept s₀ (s.setCab k c) :=
  h.same rfl

theorem Kept.setAgent {k a p} (h : Kept s₀ s) : Kept s₀ (s.setAgent k a p) :=
  h.setCab

theorem Kept.setInPort {k j p} (h : Kept s₀ s) : Kept s₀ (s.setInPort k j p) :=
  h.setCab

theorem Kept.setOutPort {k j p} (h : Kept s₀ s) : Kept s₀ (s.setOutPort k j p) :=
  h.setCab

theorem Kept.xovf {bit lost} (h : Kept s₀ s) : Kept s₀ (s.xovf bit lost) :=
  .ite (h.setFOf (by rfl)) h

theorem Kept.xrst {bit lost} (h : Kept s₀ s) : Kept s₀ (s.xrst bit lost) :=
  .ite (h.setFOf (by rfl)) h

/-! ### Machine/Pigeon -/

theorem Kept.pulsePort {k a isFault} (h : Kept s₀ s) : Kept s₀ (s.pulsePort k a isFault) :=
  h.setAgent.xovf

theorem Kept.notifyEmpty {c} (h : Kept s₀ s) : Kept s₀ (s.notifyEmpty c) := by
  unfold State.notifyEmpty; dsimp only
  split
  · exact h.setChan
  · split
    · exact h
    · split
      · exact h.setChan
      · exact h.pulsePort
      · exact h

theorem Kept.notifyFault {c aborted} (h : Kept s₀ s) : Kept s₀ (s.notifyFault c aborted) := by
  unfold State.notifyFault; dsimp only
  split
  · exact h.setChan
  · exact h.pulsePort
  · exact h

theorem Kept.postOn {c w} (h : Kept s₀ s) : Kept s₀ (s.postOn c w) :=
  h.setChan

theorem Kept.takeFrom {c} (h : Kept s₀ s) : Kept s₀ (s.takeFrom c) :=
  .ite h.lowerChan.notifyEmpty h

theorem Kept.setDoorbell {c w} (h : Kept s₀ s) : Kept s₀ (s.setDoorbell c w) :=
  h.setChan

theorem Kept.clearDoorbell {c w} (h : Kept s₀ s) : Kept s₀ (s.clearDoorbell c w) :=
  h.lowerChan

theorem Kept.countChans (h : Kept s₀ s) : Kept s₀ s.countChans :=
  (h.setFOf (by rfl)).setFOf (by rfl)

theorem Kept.freeChan {c} (h : Kept s₀ s) : Kept s₀ (s.freeChan c) :=
  h.lowerChan.countChans

theorem Kept.allocChan {c snd rcv} (h : Kept s₀ s) : Kept s₀ (s.allocChan c snd rcv) :=
  h.setChan.countChans

theorem Kept.freeSecure {k} (h : Kept s₀ s) : Kept s₀ (s.freeSecure k) :=
  h.foldl (fun h => .ite h.freeChan h)

theorem Kept.receiverReset {c} (h : Kept s₀ s) : Kept s₀ (s.receiverReset c) :=
  .ite h h.lowerChan.notifyFault

theorem Kept.senderReset {c} (h : Kept s₀ s) : Kept s₀ (s.senderReset c) :=
  h.setChan

theorem Kept.resetAgents {p} (h : Kept s₀ s) : Kept s₀ (s.resetAgents p) :=
  h.foldl (fun h => .ite (.ite (senderReset (.ite h.receiverReset h)) (.ite h.receiverReset h)) h)

theorem Kept.resetHosts (h : Kept s₀ s) : Kept s₀ s.resetHosts :=
  h.resetAgents

theorem Kept.resetBureauAgent (h : Kept s₀ s) : Kept s₀ s.resetBureauAgent :=
  h.resetAgents

theorem Kept.resetTwinAgent (h : Kept s₀ s) : Kept s₀ s.resetTwinAgent :=
  h.resetAgents

theorem Kept.clearCrossings {k} (h : Kept s₀ s) : Kept s₀ (s.clearCrossings k) := by
  unfold State.clearCrossings
  extract_lets _ _ _ _ _ s1 s2
  have h1 : Kept s₀ s1 := h.setAgent.setAgent
  have h2 : Kept s₀ s2 := h1.same rfl
  exact h2.xrst.xrst.xrst.xrst

theorem Kept.resetPortAgents {p} (h : Kept s₀ s) : Kept s₀ (s.resetPortAgents p) :=
  h.resetAgents

theorem Kept.resetPorts {k} (h : Kept s₀ s) : Kept s₀ (s.resetPorts k) :=
  h.clearCrossings.resetPortAgents

theorem Kept.badPage {func c} (h : Kept s₀ s) : Kept s₀ (s.badPage func c) :=
  ((h.flagOf (by rfl)).setFOf (by rfl)).setFOf (by rfl)

theorem Kept.writeSndCtl {c w} (h : Kept s₀ s) : Kept s₀ (s.writeSndCtl c w) :=
  h.setChan

theorem Kept.pageWrite {func c ofs w} (h : Kept s₀ s) : Kept s₀ (s.pageWrite func c ofs w) := by
  unfold State.pageWrite; dsimp only
  split
  · exact .ite h.postOn h.badPage
  · exact .ite h.setChan h.badPage
  · exact .ite h.setChan h.badPage
  · exact .ite h.setDoorbell h.badPage
  · exact .ite h.clearDoorbell h.badPage
  · exact .ite h.writeSndCtl h.badPage
  · exact .ite h.setChan h.badPage
  · exact .ite h h.badPage
  · exact .ite h h.badPage
  · exact h.badPage

theorem Kept.msgTake {func c} (h : Kept s₀ s) : Kept s₀ (s.msgTake func c) := by
  unfold State.msgTake; dsimp only
  split
  · exact h.takeFrom.withReadData
  · exact h.badPage.withReadData

theorem execChannelTimeout_kept {c} (h : Kept s₀ s) : OutKept s₀ (execChannelTimeout c s) :=
  .inst (.next (.ite h.setChan.notifyFault h))

/-! ### Machine/Fabric -/

theorem Kept.setFcell {k i x} (h : Kept s₀ s) : Kept s₀ (s.setFcell k i x) :=
  h.same rfl

theorem Kept.setLineX {k e x} (h : Kept s₀ s) : Kept s₀ (s.setLineX k e x) :=
  h.same rfl

theorem Kept.isolate {k} (h : Kept s₀ s) : Kept s₀ (s.isolate k) := by
  unfold State.isolate; dsimp only
  split
  · exact h
  · exact h.setCab

theorem Kept.endIsolation {k} (h : Kept s₀ s) : Kept s₀ (s.endIsolation k) :=
  h.setCab

theorem Kept.setCbState {k v} (h : Kept s₀ s) : Kept s₀ (s.setCbState k v) :=
  h.setF

theorem Kept.flushBoundary {k} (h : Kept s₀ s) : Kept s₀ (s.flushBoundary k) :=
  h.foldl (fun h => h.addWrap.addWrap.xrst.setInPort.setOutPort)

theorem Kept.startCells {k} (h : Kept s₀ s) : Kept s₀ (s.startCells k) :=
  h.foldl (fun h => h.setFcell)

theorem Kept.storeGclk {i w} (h : Kept s₀ s) : Kept s₀ (s.storeGclk i w) :=
  h.setReg

theorem Kept.storeFpll {m} (h : Kept s₀ s) : Kept s₀ (s.storeFpll m) :=
  foldl (.ite h h.setF.setF) (fun h => .ite h.setF h)

theorem Kept.writeIf {t : State} {ok a ignored} (h : Kept s₀ s) (h1 : Kept s₀ t)
    (hignored : ∀ {t}, Kept s₀ t → Kept s₀ (ignored t)) :
    Kept s₀ (s.writeIf t ok a ignored) :=
  .ite h1 (.ite h (hignored h))

theorem Kept.writeGclk {i w} (h : Kept s₀ s) : Kept s₀ (s.writeGclk i w) :=
  h.writeIf h.storeGclk (fun h => h.flag)

theorem Kept.writeFpll {w} (h : Kept s₀ s) : Kept s₀ (s.writeFpll w) :=
  h.writeIf h.storeFpll (fun h => h.flag)

theorem Kept.writeFabCtl {k w} (h : Kept s₀ s) : Kept s₀ (s.writeFabCtl k w) :=
  h.writeIf h.setB (fun h => h.flag)

theorem Kept.peek {k} (h : Kept s₀ s) : Kept s₀ (s.peek k) :=
  .ite h.flag.withReadData h.withReadData

theorem execClkenWrite_kept {k on} (h : Kept s₀ s) : OutKept s₀ (execClkenWrite k on s) :=
  .hostRow (.present h (.next h.writeFabCtl))

theorem execFpllMWrite_kept {m} (h : Kept s₀ s) : OutKept s₀ (execFpllMWrite m s) :=
  .hostRow (.inst (.next h.writeFpll))

theorem execFpllLock_kept (h : Kept s₀ s) : OutKept s₀ (execFpllLock s) :=
  .next (.ite h h.flag)

theorem execPeekData_kept {k} (h : Kept s₀ s) : OutKept s₀ (execPeekData k s) :=
  .readPresent h (.next h.peek)

/-! ### Machine/Images -/

theorem Kept.touchFrame {fa} (h : Kept s₀ s) : Kept s₀ (s.touchFrame fa) :=
  .ite h.withScrub h

theorem Kept.imageWrite {x k} (h : Kept s₀ s) (hk : ∀ {t}, Kept s₀ t → Kept s₀ (k t)) :
    Kept s₀ (s.imageWrite x k) :=
  .ite (hk h) (.ite h.withScrub (.ite (hk h) (hk h).withScrub))

/-! ### Machine/Boundary -/

theorem Kept.showGroup {k j} (h : Kept s₀ s) : Kept s₀ (s.showGroup k j) :=
  .ite h (.ite h.setInPort h)

theorem Kept.fpIn {k j} (h : Kept s₀ s) : Kept s₀ (s.fpIn k j) := by
  unfold State.fpIn; dsimp only
  split
  · exact h
  · exact .ite h.consume.setInPort.showGroup h.consume.setInPort.addWrap

theorem Kept.fpTake {k j} (h : Kept s₀ s) : Kept s₀ (s.fpTake k j) :=
  .ite h.setInPort.showGroup h

theorem Kept.fpInAll {k j fuel} (h : Kept s₀ s) : Kept s₀ (s.fpInAll k j fuel) := by
  induction fuel generalizing s with
  | zero => exact h
  | succ n ih => exact .ite h (ih h.fpIn)

theorem Kept.writeFpiSrc {k j v} (h : Kept s₀ s) : Kept s₀ (s.writeFpiSrc k j v) :=
  .ite h h.fpTake.fpInAll.setInPort.addWrap.setF.connect

theorem Kept.regroup {k j} (h : Kept s₀ s) : Kept s₀ (s.regroup k j) :=
  .ite h.showGroup h.setInPort

theorem Kept.fpDrain {k j fuel} (h : Kept s₀ s) : Kept s₀ (s.fpDrain k j fuel) := by
  induction fuel generalizing s with
  | zero => exact h
  | succ n ih =>
    unfold State.fpDrain; dsimp only
    split
    · exact h
    · exact .ite h (ih h.setOutPort.emit)

theorem Kept.fpOut {k j} (h : Kept s₀ s) : Kept s₀ (s.fpOut k j) := by
  unfold State.fpOut; dsimp only
  split
  · exact h
  · exact fpDrain (.ite h.setOutPort h.setOutPort.addWrap)

theorem Kept.drainPorts (h : Kept s₀ s) : Kept s₀ s.drainPorts :=
  h.foldl (fun ht => ht.foldl (fun h => h.fpDrain))

theorem Kept.deliver {r w} (h : Kept s₀ s) : Kept s₀ (s.deliver r w) :=
  .ite h.setRing.emit h.setRing.emit.setRing.addWrap.countBlock

theorem Kept.pumpRing {r fuel} (h : Kept s₀ s) : Kept s₀ (s.pumpRing r fuel) := by
  induction fuel generalizing s with
  | zero => exact h
  | succ n ih =>
    unfold State.pumpRing
    split
    · exact h
    · exact .ite h (ih h.deliver)

theorem Kept.countLate {r} (h : Kept s₀ s) : Kept s₀ (s.countLate r) :=
  .ite h h.setRing

theorem Kept.pump (h : Kept s₀ s) : Kept s₀ s.pump :=
  h.drainPorts.foldl (fun h => .ite h h.countLate.pumpRing)

theorem Kept.setFrqX {f x} (h : Kept s₀ s) : Kept s₀ (s.setFrqX f x) :=
  h.same rfl

theorem Kept.scanFrq {k} (h : Kept s₀ s) : Kept s₀ (s.scanFrq k) :=
  h.foldl (fun h => .ite h.setCab.setFrqX.xovf h.setCab)

theorem Kept.frqEdges {k} (h : Kept s₀ s) : Kept s₀ (s.frqEdges k) :=
  h.foldl (fun h => h.setFrqX)

theorem Kept.settlePorts {k} (h : Kept s₀ s) : Kept s₀ (s.settlePorts k) :=
  h.foldl (fun h => h.fpTake.fpOut)

theorem Kept.takeCab {u : State} {k} (h : Kept s₀ s) : Kept s₀ (s.takeCab u k) :=
  have hc : Kept s₀ (s.setCab k (u.cab k)) := h.setCab
  have ht {f l} : Kept s₀ ({ s.setCab k (u.cab k) with fcells := f, lines := l } : State) := hc.same rfl
  ht.setFOf (by rfl)

theorem Kept.fabEdge {mask pins} (h : Kept s₀ s) : Kept s₀ (s.fabEdge mask pins) := by
  unfold State.fabEdge
  extract_lets _ _ _ s1 _ s2 s3
  have h1 : Kept s₀ s1 := h.withDio.foldl (fun h => h.settlePorts)
  have h2 : Kept s₀ s2 := h1.foldl (fun h => h.takeCab)
  have h3 : Kept s₀ s3 := h2.foldl (fun h => scanFrq (.ite h.frqEdges h))
  exact h3.same rfl

theorem Kept.latchPins (h : Kept s₀ s) : Kept s₀ s.latchPins :=
  h.same rfl

theorem Kept.writePinCfg {n w} (h : Kept s₀ s) : Kept s₀ (s.writePinCfg n w) :=
  h.writeIf h.setReg (fun h => h.flag)

theorem Kept.writeBankCtl {b w} (h : Kept s₀ s) : Kept s₀ (s.writeBankCtl b w) :=
  h.writeIf h.setB (fun h => h.flag)

theorem Kept.writeBnd {k a v} (h : Kept s₀ s) (ha : Reg.CFG_STAT.base < a) : Kept s₀ (s.writeBnd k a v) :=
  h.writeIf (h.setWord ha) (fun h => h.flag)

theorem Kept.setFpiCfg {k j w} (h : Kept s₀ s) : Kept s₀ (s.setFpiCfg k j w) :=
  h.fpTake.setReg.regroup

theorem Kept.writeFpiCfg {k j w} (h : Kept s₀ s) : Kept s₀ (s.writeFpiCfg k j w) :=
  h.writeIf (.ite h h.setFpiCfg) (fun h => h.flag)

theorem Kept.setProbe {p x} (h : Kept s₀ s) : Kept s₀ (s.setProbe p x) :=
  h.same rfl

theorem Kept.tapProbe {p} (h : Kept s₀ s) : Kept s₀ (s.tapProbe p) :=
  h.connect

theorem Kept.writePrbCtl {p w} (h : Kept s₀ s) : Kept s₀ (s.writePrbCtl p w) := by
  unfold State.writePrbCtl
  extract_lets _ _ _ s1 s2
  have h1 : Kept s₀ s1 := h.setReg.flagIf
  have h2 : Kept s₀ s2 := by unfold s2; split <;> [exact h1.setProbe; exact h1.sourceStops; exact h1]
  exact h2.tapProbe

theorem Kept.writePrbSel {p w} (h : Kept s₀ s) : Kept s₀ (s.writePrbSel p w) :=
  (h.writeIf h.setReg (fun h => h.flag)).tapProbe

theorem Kept.probeEmit {p w} (h : Kept s₀ s) : Kept s₀ (s.probeEmit p w) :=
  h.setProbe.emit.addWrap

theorem Kept.probeSample {p} (h : Kept s₀ s) : Kept s₀ (s.probeSample p) := by
  unfold State.probeSample; dsimp only
  split
  · exact h
  · split
    · exact .ite (.ite h.flagIf.probeEmit h.setProbe) h
    · exact .ite (.ite h.flagIf.probeEmit h.setProbe) h
    · split
      · exact h
      · exact .ite h.consume.probeEmit h.consume.setProbe
    · exact h

theorem execChainOutput_kept {n} (h : Kept s₀ s) : OutKept s₀ (execChainOutput n s) :=
  .present h (.next (.ite (.ite h.chainTake.drainPorts h.chainTake) h))

theorem execDacSample_kept {d e tick} (h : Kept s₀ s) : OutKept s₀ (execDacSample d e tick s) :=
  .present h (.next (.ite (.ite h.daEdge h.daEdge.pump) h))

theorem execFpInputWord_kept {k j} (h : Kept s₀ s) : OutKept s₀ (execFpInputWord k j s) :=
  .inst (.present h (.next h.fpIn))

theorem execFpInputGroupTake_kept {k j} (h : Kept s₀ s) : OutKept s₀ (execFpInputGroupTake k j s) :=
  .inst (.present h (.next h.fpTake.pump))

theorem execFpOutputWord_kept {k j} (h : Kept s₀ s) : OutKept s₀ (execFpOutputWord k j s) :=
  .inst (.present h (.next h.fpOut))

theorem execCellClock_kept {mask pins} (h : Kept s₀ s) : OutKept s₀ (execCellClock mask pins s) :=
  .next h.fabEdge.pump

theorem execProbeSample_kept {p} (h : Kept s₀ s) : OutKept s₀ (execProbeSample p s) :=
  .inst (.next h.probeSample)

theorem Kept.grantPort {k a} (h : Kept s₀ s) : Kept s₀ (s.grantPort k a) :=
  h.same rfl

theorem Kept.portPosts {k a c w} (h : Kept s₀ s) : Kept s₀ (s.portPosts k a c w) :=
  .ite h.setAgent.postOn.setAgent h.setAgent.flag.setAgent

theorem Kept.agentPost {k a} (h : Kept s₀ s) : Kept s₀ (s.agentPost k a) := by
  unfold State.agentPost
  split
  · exact h
  · exact .ite h.grantPort.portPosts h

theorem execAgentPost_kept {k a} (h : Kept s₀ s) : OutKept s₀ (execAgentPost k a s) :=
  .inst (.present h (.next h.agentPost))

theorem Kept.agentTake {k a} (h : Kept s₀ s) : Kept s₀ (s.agentTake k a) := by
  unfold State.agentTake; dsimp only
  split
  · exact h
  · exact .ite (.ite h.grantPort.setAgent.takeFrom h.grantPort.setAgent) h

theorem execAgentTake_kept {k a} (h : Kept s₀ s) : OutKept s₀ (execAgentTake k a s) :=
  .inst (.present h (.next h.agentTake))

theorem Kept.agentDbclr {k a} (h : Kept s₀ s) : Kept s₀ (s.agentDbclr k a) := by
  unfold State.agentDbclr; dsimp only
  split
  · exact h
  · exact .ite (.ite h.grantPort.setAgent.clearDoorbell h.grantPort.setAgent) h

theorem execAgentDbclr_kept {k a} (h : Kept s₀ s) : OutKept s₀ (execAgentDbclr k a s) :=
  .inst (.present h (.next h.agentDbclr))

theorem Kept.fabricRequest {f} (h : Kept s₀ s) : Kept s₀ (s.fabricRequest f) :=
  .ite (h.setFrqX.foldl (fun h => .ite h.cgRequest h)) h

theorem execFabricRequest_kept {f} (h : Kept s₀ s) : OutKept s₀ (execFabricRequest f s) :=
  .inst (.next h.scanFrq.fabricRequest)

theorem execVccioChange_kept {b present} (h : Kept s₀ s) : OutKept s₀ (execVccioChange b present s) :=
  .inst (.next h.withDio.setB)

theorem execDioPinCfgWrite_kept {n w} (h : Kept s₀ s) : OutKept s₀ (execDioPinCfgWrite n w s) :=
  .hostRow (.inst (.next (h.imageWrite (fun h => h.writePinCfg))))

/-! ### Machine/Analog -/

theorem Kept.azSettle {c} (h : Kept s₀ s) : Kept s₀ (s.azSettle c) :=
  .ite h.setCell (.ite (.ite h.setCell h) (.ite h h.setCell))

theorem Kept.azBoundary {c} (h : Kept s₀ s) : Kept s₀ (s.azBoundary c) := by
  unfold State.azBoundary; dsimp only
  split
  · exact h
  · split
    · exact h.setCell
    · exact h.setCell
    · exact h.setCell
    · exact h

theorem Kept.azSwap {c} (h : Kept s₀ s) : Kept s₀ (s.azSwap c) :=
  .ite h.setCell.addWrap.azSettle h

theorem Kept.azTrim {c tries} (h : Kept s₀ s) : Kept s₀ (s.azTrim c tries) := by
  unfold State.azTrim; dsimp only
  split
  · split
    · exact h.setF.unmarkField.setCell
    · exact .ite h h.setCell.addSat.flag
  · exact h

theorem Kept.applyMatrix {a r w} (h : Kept s₀ s) (ha : Reg.CFG_STAT.base < a) : Kept s₀ (s.applyMatrix a r w) := by
  unfold State.applyMatrix; dsimp only
  split
  · exact .ite (h.setWord ha).flagIf.wmHold (h.setWord ha).flagIf
  · exact .ite (h.setWord ha).azSettle.cellReset (h.setWord ha).azSettle
  · exact h.setWord ha

theorem matrixReg_beyond {a : Nat} {m : MatrixReg} (h : matrixReg a = some m) : Reg.CFG_STAT.base < a := by
  have hc : 0xA0000 ≤ a := by
    by_contra hlt
    simp only [matrixReg] at h
    rw [if_neg (by omega), if_neg (by omega), if_neg (by omega), if_neg (by omega)] at h
    cases h
  exact Nat.lt_of_lt_of_le (by decide) hc

theorem Kept.writeMatrix {a r w} (h : Kept s₀ s) (ha : Reg.CFG_STAT.base < a) : Kept s₀ (s.writeMatrix a r w) := by
  unfold State.writeMatrix; dsimp only
  split
  · exact h.flag.nameNet
  · exact h.applyMatrix ha

theorem Kept.writeAcAz {c w} (h : Kept s₀ s) : Kept s₀ (s.writeAcAz c w) :=
  h.setF.setF.azSettle

theorem Kept.writeAcTrim {c k w} (h : Kept s₀ s) : Kept s₀ (s.writeAcTrim c k w) :=
  (setReg (.ite h h.setCell)).flagIf

theorem Kept.writeAcGain {c w} (h : Kept s₀ s) : Kept s₀ (s.writeAcGain c w) :=
  h.setF

theorem Kept.writeAcTune {c w} (h : Kept s₀ s) : Kept s₀ (s.writeAcTune c w) :=
  h.setReg.setF

theorem Kept.writeAcSc {c w} (h : Kept s₀ s) : Kept s₀ (s.writeAcSc c w) :=
  h.setF.setF

theorem Kept.restartAz (h : Kept s₀ s) : Kept s₀ s.restartAz :=
  h.foldl (fun h => h.setCell)

theorem Kept.clearHeld (h : Kept s₀ s) : Kept s₀ s.clearHeld :=
  h.same rfl

theorem execMatrixWrite_kept {addr w} (h : Kept s₀ s) : OutKept s₀ (execMatrixWrite addr w s) :=
  .hostRow (by split <;> [exact .fault; exact .next (.ite (h.imageWrite (fun h => h.writeMatrix (matrixReg_beyond ‹_›))) h)])

theorem execAzBoundary_kept {c} (h : Kept s₀ s) : OutKept s₀ (execAzBoundary c s) :=
  .present h (.next h.azBoundary)

theorem execAzSwap_kept {c} (h : Kept s₀ s) : OutKept s₀ (execAzSwap c s) :=
  .present h (.next h.azSwap)

theorem execAutoZeroTrim_kept {c tries} (h : Kept s₀ s) : OutKept s₀ (execAutoZeroTrim c tries s) :=
  .present h (.next h.azTrim)

theorem Kept.cellTo {c dt} (h : Kept s₀ s) : Kept s₀ (s.cellTo c dt) :=
  .ite h h.cellSettle

theorem execRst_kept {c dt} (h : Kept s₀ s) : OutKept s₀ (execRst c dt s) :=
  .hostRow (.present h (.next h.cellTo.cellReset))

theorem execPortOverload_kept {n v} (h : Kept s₀ s) : OutKept s₀ (execPortOverload n v s) :=
  .present h (.next (Kept.flagIf (h.same rfl)))

theorem execCellSaturation_kept {c dt} (h : Kept s₀ s) : OutKept s₀ (execCellSaturation c dt s) :=
  .present h (.next h.cellTo)

/-! ### Machine/CalStore -/

/-- The calibration registers stand beyond the Bureau's block. -/
theorem calRegs_ge {p : Part} {a : Nat} (ha : a ∈ calRegs p) : 0x70000 ≤ a := by
  have key {r : FieldRef} (h : 0x70000 ≤ r.base) (i j : Nat) : 0x70000 ≤ r.addr i j := by
    unfold FieldRef.addr
    omega
  simp only [calRegs, List.mem_append, List.mem_flatMap, List.mem_map, List.mem_cons, List.not_mem_nil, or_false] at ha
  rcases ha with ((((((⟨_, -, ⟨_, -, rfl⟩ | ⟨_, -, rfl⟩⟩ | ⟨_, -, _, -, rfl⟩) |
    ⟨_, -, _, -, _, rfl | rfl | rfl | rfl | rfl, rfl⟩) | ⟨_, -, _, -, rfl⟩) | ⟨_, -, _, -, rfl⟩) | rfl) | ⟨_, -, _, -, rfl⟩) |
    ⟨_, -, _, -, rfl⟩
  all_goals exact key (by decide) _ _

theorem Kept.loadCal {v} (h : Kept s₀ s) : Kept s₀ (s.loadCal v) :=
  (h.foldlMem fun ha h => .ite h (h.setWord (Nat.lt_of_lt_of_le (by decide) (calRegs_ge ha)))).foldl (fun h => h.refillMap)

theorem Kept.bootCal {ok} (h : Kept s₀ s) : Kept s₀ (s.bootCal ok) := by
  unfold State.bootCal
  split
  · exact h.loadCal.setF.flag
  · exact h.loadCal.setF.setF

/-! ### Machine/LcsClock -/

theorem Kept.followRef {was n} (h : Kept s₀ s) : Kept s₀ (s.followRef was n) :=
  .ite h.rsRefLost h

theorem Kept.onRef {n k} (h : Kept s₀ s) (hk : ∀ {t}, Kept s₀ t → Kept s₀ (k t)) : Kept s₀ (s.onRef n k) :=
  (hk h).followRef

theorem Kept.onPair {n k} (h : Kept s₀ s) (hk : ∀ {t}, Kept s₀ t → Kept s₀ (k t)) : Kept s₀ (s.onPair n k) :=
  .ite (h.onRef hk).followRef (h.onRef (fun h => hk h))

theorem Kept.followRefs {before : State} (h : Kept s₀ s) : Kept s₀ (s.followRefs before) :=
  h.foldl (fun h => h.followRef)

theorem Kept.rebase {old} (h : Kept s₀ s) : Kept s₀ (s.rebase old) :=
  foldl (h.same rfl) fun h => h.setGroup

theorem Kept.firstLock (h : Kept s₀ s) : Kept s₀ s.firstLock :=
  .ite h.pllLock.followRefs.rebase.wmRelock.restartAz h

theorem Kept.relock (h : Kept s₀ s) : Kept s₀ s.relock := by
  unfold State.relock
  extract_lets t u v
  have hv : Kept s₀ v := (h.pllRelock.followRefs.foldl fun h => h.refFalls).abandonDacs.wmRelock.restartAz
  exact .ite (.ite hv.resumeDacs hv) h

theorem execPllLock_kept (h : Kept s₀ s) : OutKept s₀ (execPllLock s) :=
  .next h.firstLock

theorem execPllLockLoss_kept (h : Kept s₀ s) : OutKept s₀ (execPllLockLoss s) :=
  .next h.pllLost

theorem execPllRelock_kept (h : Kept s₀ s) : OutKept s₀ (execPllRelock s) :=
  .next h.relock

theorem execSmpclkStamp_kept {stamp} (h : Kept s₀ s) : OutKept s₀ (execSmpclkStamp stamp s) :=
  .ite (.next (.ite h.withLcs.restartAz.smpStamp h.smpStamp)) (.next h)

theorem execEdgeProcessing_kept {n} (h : Kept s₀ s) : OutKept s₀ (execEdgeProcessing n s) :=
  .inst (.next (.ite (h.onRef (fun h => h.processEdge)) h))

theorem execCoastEntry_kept {n tick} (h : Kept s₀ s) : OutKept s₀ (execCoastEntry n tick s) :=
  .inst (.next (.ite (h.onRef (fun h => h.enterCoast)) h))

theorem execCoastLimit_kept {n tick} (h : Kept s₀ s) : OutKept s₀ (execCoastLimit n tick s) :=
  .inst (.next (.ite (h.onRef (fun h => h.endCoast)) h))

theorem execPrEnable_kept {n en} (h : Kept s₀ s) : OutKept s₀ (execPrEnable n en s) :=
  .hostRow (.inst (.next (h.lcsWrite (fun ht => ht.onPair (fun h => h.enableRef)))))

/-! ### Machine/Rings -/

theorem Kept.pdirLo {w} (h : Kept s₀ s) : Kept s₀ (s.pdirLo w) :=
  h.setReg

theorem Kept.pdirHi {w} (h : Kept s₀ s) : Kept s₀ (s.pdirHi w) :=
  setF (.ite h (.ite h.flag h.withPdir))

theorem Kept.writeTail {r w} (h : Kept s₀ s) : Kept s₀ (s.writeTail r w) :=
  .ite h.setF h.flag

theorem Kept.writeHead {r w} (h : Kept s₀ s) : Kept s₀ (s.writeHead r w) :=
  .ite h.setF h.flag

theorem Kept.hostWrite {a bytes} (h : Kept s₀ s) : Kept s₀ (s.hostWrite a bytes) :=
  h.same rfl

theorem Kept.issueBlock {r b} (h : Kept s₀ s) : Kept s₀ (s.issueBlock r b) :=
  h.hostWrite.hostWrite.setRing.setF.countBlock

theorem Kept.replayLevel (h : Kept s₀ s) : Kept s₀ s.replayLevel :=
  h.setF.setF

theorem Kept.passBlock {r b} (h : Kept s₀ s) : Kept s₀ (s.passBlock r b) :=
  h.setRing.setF

theorem Kept.confirm {r} (h : Kept s₀ s) : Kept s₀ (s.confirm r) :=
  (h.withTwin.foldl (fun h => h.passBlock)).replayLevel

theorem Kept.toReplay {r b} (h : Kept s₀ s) : Kept s₀ (s.toReplay r b) := by
  unfold State.toReplay; dsimp only
  split
  · exact h.withTwin.replayLevel.confirm
  · exact .ite h.passBlock.flag.withTwin.replayLevel.confirm h.withTwin.replayLevel.confirm

theorem Kept.writeBlock {r} (h : Kept s₀ s) : Kept s₀ (s.writeBlock r) := by
  unfold State.writeBlock; dsimp only
  split
  · exact h
  · exact .ite h.setRing.toReplay (.ite h.setRing.issueBlock h)

theorem Kept.grantWrite {r} (h : Kept s₀ s) : Kept s₀ (s.grantWrite r) :=
  .ite h.withArb.writeBlock.pump h

theorem Kept.writeBlocks {r fuel} (h : Kept s₀ s) : Kept s₀ (s.writeBlocks r fuel) := by
  induction fuel generalizing s with
  | zero => exact h
  | succ n ih => exact ih h.writeBlock

theorem Kept.flushRings (h : Kept s₀ s) : Kept s₀ s.flushRings :=
  h.foldl (fun h => .ite h h.closeBlock.writeBlocks)

theorem Kept.admitRing {r} (h : Kept s₀ s) : Kept s₀ (s.admitRing r) :=
  .ite h.setRing.flag.setF.setF.addCharge.withTwin h.setRing.flag.setF.setF.addCharge.withTwin.setFeed

theorem Kept.endRing {r} (h : Kept s₀ s) : Kept s₀ (s.endRing r) :=
  (passTail (.ite h.detachRing h.detachRing.closeBlock.writeBlocks)).setRing.addCharge.setF

theorem Kept.fetch {r} (h : Kept s₀ s) : Kept s₀ (s.fetch r) :=
  .ite h.setRing.withArb h

theorem Kept.fetched {r data} (h : Kept s₀ s) : Kept s₀ (s.fetched r data) :=
  .ite h.setRing.pumpRing h.setRing

theorem Kept.snapRing {r} (h : Kept s₀ s) : Kept s₀ (s.snapRing r) :=
  h.setPair.setPair.setPair

theorem Kept.writeRingCfg {r a v} (h : Kept s₀ s) (ha : Reg.CFG_STAT.base < a) : Kept s₀ (s.writeRingCfg r a v) :=
  h.writeIf (h.setWord ha) (fun h => h.flag)

theorem execDmaPdirLo_kept {w} (h : Kept s₀ s) : OutKept s₀ (execDmaPdirLo w s) :=
  .hostRow (.next h.pdirLo)

theorem execDmaPdirHi_kept {w} (h : Kept s₀ s) : OutKept s₀ (execDmaPdirHi w s) :=
  .hostRow (.next h.pdirHi)

theorem execTailWrite_kept {r w} (h : Kept s₀ s) : OutKept s₀ (execTailWrite r w s) :=
  .hostRow (.inst (.next h.writeTail.pump))

theorem execHeadWrite_kept {r w} (h : Kept s₀ s) : OutKept s₀ (execHeadWrite r w s) :=
  .hostRow (.inst (.next h.writeHead))

theorem execRingWord_kept {r ns at_} (h : Kept s₀ s) : OutKept s₀ (execRingWord r ns at_ s) :=
  .inst (.next (.ite h.ringWord.pump h))

theorem execAgeClose_kept {r} (h : Kept s₀ s) : OutKept s₀ (execAgeClose r s) :=
  .inst (.next (.ite h.closeBlock h))

theorem execBlockWrite_kept {r} (h : Kept s₀ s) : OutKept s₀ (execBlockWrite r s) :=
  .inst (.next h.grantWrite)

theorem execBlkHold_kept {r} (h : Kept s₀ s) : OutKept s₀ (execBlkHold r s) :=
  .inst (.next (.ite h.setRing.flag h))

theorem execDmaSnap_kept {r} (h : Kept s₀ s) : OutKept s₀ (execDmaSnap r s) :=
  .hostRow (.inst (.next h.snapRing))

theorem execRingFetch_kept {r} (h : Kept s₀ s) : OutKept s₀ (execRingFetch r s) :=
  .inst (.next h.fetch)

theorem execCompletionTimeout_kept {r} (h : Kept s₀ s) : OutKept s₀ (execCompletionTimeout r s) :=
  .inst (.next (.ite (h.flagOf (by rfl)).aer h))

/-! ### Machine/Modes -/

theorem State.word_resetRegs {p keep} {a : Nat} (hp : p a = false) : (s.resetRegs p keep).word a = s.word a := by
  refine Tab.get_filterMap_of_keeps (fun e e' he => ?_) (fun v => if_neg (Bool.eq_false_iff.mp hp)) _
  dsimp only at he
  split at he
  · split at he
    · cases he
    · cases he
      rfl
  · cases he
    rfl

theorem Kept.resetRegs {p keep} (h : Kept s₀ s) (hm : p Reg.DEV_MODE.base = false) (hc : p Reg.CFG_STAT.base = false) :
    Kept s₀ (s.resetRegs p keep) := by
  refine h.trans ⟨rfl, rfl, rfl, rfl, fun q hq => ?_⟩
  have hq : p (q.addr 0 0) = false := by
    rcases (by decide : ∀ q ∈ keptFields, q.addr 0 0 = Reg.DEV_MODE.base ∨ q.addr 0 0 = Reg.CFG_STAT.base) q hq with e | e <;>
      rwa [e]
  rw [State.f, State.word_resetRegs hq, State.f]

theorem Kept.stopSources (h : Kept s₀ s) : Kept s₀ s.stopSources :=
  (h.foldl (fun ht => .ite (ht.foldl (fun h => h.sourceStops)) ht)).foldl (fun h => .ite h.sourceStops h)

theorem Kept.unplug (h : Kept s₀ s) : Kept s₀ s.unplug :=
  h.same rfl

theorem Kept.refSelReset (h : Kept s₀ s) : Kept s₀ s.refSelReset :=
  h.foldl (fun h => .ite h h.refFalls)

theorem Kept.portsReset (h : Kept s₀ s) : Kept s₀ s.portsReset :=
  h.foldl (fun h => .ite h h.wmHold)

theorem Kept.resetHard (h : Kept s₀ s) : Kept s₀ s.resetHard := by
  unfold State.resetHard
  extract_lets _ s1 s2 _ _ _ _ s3
  have h2 : Kept s₀ s2.unplug := (h.stopSources.refSelReset.portsReset.resetRegs (by decide) (by decide)).unplug
  clear_value s2
  have h3 : Kept s₀ s3 := h2.same rfl
  exact h3.noteVectors

theorem Kept.stopPorts {k} (h : Kept s₀ s) : Kept s₀ (s.stopPorts k) :=
  .ite h (h.foldl (fun h => h.sourceStops))

theorem Kept.emptyCabs (h : Kept s₀ s) : Kept s₀ s.emptyCabs := by
  unfold State.emptyCabs
  extract_lets _ s1
  have h1 : Kept s₀ s1 := (h.foldl (fun h => h.stopPorts.flushBoundary.clearCrossings)).resetPortAgents
  exact h1.setF.setF.foldl (fun h => h.freeSecure.setReg.setReg.setReg.setF.setCab)

theorem Kept.strayWords (h : Kept s₀ s) : Kept s₀ s.strayWords :=
  h.flagIfOf (by rfl)

theorem Kept.dropStream (h : Kept s₀ s) : Kept s₀ s.dropStream :=
  h.strayWords.withStream.connect.pump

/-- The frames go beside everything else that an entry to Blank does. -/
theorem State.enterBlank_true : s.enterBlank true = { s.enterBlank false with frames := [], checks := [] } := rfl

theorem Kept.enterBlank (h : Kept s₀ s) : Kept s₀ (s.enterBlank false) := by
  unfold State.enterBlank
  extract_lets s1 s2
  have h1 : Kept s₀ s1 := h.abandonAll.emptyCabs.resetHard.strayWords
  clear_value s1
  exact h1.same rfl

theorem Kept.stopConverting (h : Kept s₀ s) : Kept s₀ s.stopConverting :=
  h.abandonAll.abandonDacs.pauseGroups

theorem Kept.startConverting (h : Kept s₀ s) : Kept s₀ s.startConverting :=
  h.resumeGroups.resumeChains.resumeDacs.busUpdates

/-! ### Machine/Access -/

theorem Kept.writePlain {a w} (h : Kept s₀ s) : Kept s₀ (s.writePlain a w) := by
  unfold State.writePlain
  split
  · exact h.setBits (RegRow.apply_keptBits ‹_› _ _)
  · exact h

theorem Kept.writeGuarded {a w prot closed flag} (h : Kept s₀ s)
    (hflag : ∀ {t}, Kept s₀ t → Kept s₀ (flag t)) :
    Kept s₀ (s.writeGuarded a w prot closed flag) := by
  unfold State.writeGuarded; dsimp only
  split
  · next r hr =>
    have ht := h.setBits (guardWrite_and (prot := if closed then prot else 0) (RegRow.apply_keptBits hr (s.word a) w))
    exact .ite (hflag ht) ht
  · exact h

theorem Kept.writeCal {a w whole k} (h : Kept s₀ s) (hk : ∀ {t}, Kept s₀ t → Kept s₀ (k t)) :
    Kept s₀ (s.writeCal a w whole k) :=
  .ite h.writePlain.flag ((hk h).foldl (fun h => .ite h.setF.unmarkHalf h))

theorem Kept.writeDev {a w} (h : Kept s₀ s) : Kept s₀ (s.writeDev a w) :=
  .ite (h.writeGuarded (fun h => h.flagOf (by rfl))) h.writePlain

theorem Kept.writeBur {a w} (h : Kept s₀ s) : Kept s₀ (s.writeBur a w) :=
  .ite (.ite h.flag (.ite h.setF h)) (.ite h.flag h.writePlain)

theorem Kept.writeLcs {r a w} (h : Kept s₀ s) : Kept s₀ (s.writeLcs r a w) := by
  unfold State.writeLcs
  extract_lets
  exact h.lcsWrite (fun ht => .ite ht.writeLcsCtl.followRefs <| .ite (.ite ht.snapTime ht) <|
    .ite (ht.writeGuarded (fun h => h.flag)) <| .ite (ht.writeGuarded (fun h => h.flag)) <|
    .ite (ht.onPair (fun h => h.writePrCfg)) <| .ite (.ite ht.snapRef ht) <| .ite ht.writePaCtl <|
    .ite ht.writePaTarget <| .ite ht.writePaFilter <| .ite ht.writeTtCtl <| .ite ht.writePlain <|
    .ite (.ite ht.setCapture ht) ht.writePlain)

theorem Kept.writeAnalog {r a w} (h : Kept s₀ s) : Kept s₀ (s.writeAnalog r a w) := by
  unfold State.writeAnalog
  dsimp only
  split
  · exact .ite (h.writeMatrix (matrixReg_beyond ‹_›)) h
  · exact .ite h.writeAcGain <| .ite h.writeAcTune <| .ite h.writeAcSc <| .ite h.writeAcAz <|
      .ite (h.writeCal (fun h => h.writeAcTrim)) <| .ite (h.writeCal (fun h => h.writePlain)) h.writePlain

theorem Kept.writeCg {r a w} (h : Kept s₀ s) (ha : Reg.CFG_STAT.base < a) : Kept s₀ (s.writeCg r a w) := by
  unfold State.writeCg
  extract_lets
  exact h.sclkWrite (fun ht => .ite ht.writeCgCtl <| .ite ht.writeSeqctl <| .ite ht.writeCgRef <| .ite ht.writeListen <|
    .ite ht.writeFtrig <| .ite ht.writeWinArm <| .ite (.ite ht.cgSnap ht) <| .ite (.ite ht.setGroup ht) <|
    .ite ht.writeRotCtl <| .ite (ht.writeCal (fun h => h.writeSlice ha)) <| .ite (ht.writeCal (fun h => h.writeSlice ha)) <|
    .ite (ht.writeCal (fun h => h.writeResidual ha)) <| .ite (ht.writeCal (fun h => h.writeResidual ha)) ht.writePlain)

theorem Kept.writeFc {r a w} (h : Kept s₀ s) (ha : Reg.CFG_STAT.base < a) : Kept s₀ (s.writeFc r a w) := by
  unfold State.writeFc
  extract_lets
  exact h.fcWrite (fun ht => .ite ht.writeFcCtl <| .ite ht.writeFcSrc <| .ite ht.writeFcCic <|
    .ite (ht.writeWhileOff ha (by rfl)) <| .ite ht.writeFcFir <| .ite ht.writeFcInfo <| .ite (ht.writeFcBank ha) <| .ite (ht.writeFcBank ha) <|
    .ite (.ite ht.setPair.setPair.setPair ht) <| .ite (.ite ht.setChain ht) <| .ite (.ite ht.setChain ht) <|
    .ite ht.writeRsCtl <| .ite ht.commitInc <| .ite (ht.writeGuarded (fun h => h.flag)) <|
    .ite ht.cdataWrite ht.writePlain)

theorem Kept.writeDa {r a w} (h : Kept s₀ s) : Kept s₀ (s.writeDa r a w) := by
  unfold State.writeDa
  extract_lets
  exact h.daWrite (fun ht => .ite ht.writeDaCtl <| .ite ht.writeDaSrc <| .ite ht.writeDaListen <| .ite ht.writeSegLen <|
    .ite ht.pdataWrite <| .ite (ht.writeCal (fun h => h.writePlain)) ht.writePlain)

theorem Kept.writeWm {r a w} (h : Kept s₀ s) : Kept s₀ (s.writeWm r a w) := by
  unfold State.writeWm
  extract_lets
  exact .ite h.writeWmCtl <| .ite h.writeWmThr <| .ite h.writeWmHys <| .ite (h.writeCal (fun h => h.writeWmTrim)) <|
    .ite h.writeWmBlank <| .ite h.writeWmLatch <| .ite h.writeWmPclr h.writePlain

theorem Kept.writeCalBlock {a w} (h : Kept s₀ s) : Kept s₀ (s.writeCalBlock a w) :=
  .ite h.writePlain (h.writeCal (fun ht => ht.writeGuarded (fun h => h.flag)))

theorem Kept.writeScrb {a w} (h : Kept s₀ s) : Kept s₀ (s.writeScrb a w) := by
  unfold State.writeScrb
  extract_lets s1 _ _ s2
  have h1 : Kept s₀ s1 := h.writePlain
  have h2 : Kept s₀ s2 := h1.same rfl
  exact .ite h1.withVoted (.ite (.ite h2 h2.withScrub.setF) h1)

theorem Kept.writeDma {r a w} (h : Kept s₀ s) (ha : Reg.CFG_STAT.base < a) : Kept s₀ (s.writeDma r a w) := by
  unfold State.writeDma
  extract_lets
  exact .ite (h.writeRingCfg ha) <| .ite (h.writeRingCfg ha) <| .ite (h.writeRingCfg ha) <| .ite (h.writeRingCfg ha) <|
    .ite h.writeTail.pump <| .ite h.writeHead <| .ite (.ite h.snapRing h) <| .ite h.pdirLo <| .ite h.pdirHi h.writePlain

theorem Kept.writeFabric {r a w} (h : Kept s₀ s) (ha : Reg.CFG_STAT.base < a) : Kept s₀ (s.writeFabric r a w) := by
  unfold State.writeFabric
  extract_lets
  exact .ite h.writeFabCtl <| .ite h.writePlain <| .ite h.writeGclk <| .ite h.writeFpll <| .ite h.writePinCfg <|
    .ite h.writeBankCtl <| .ite (h.writeBnd ha) <| .ite (h.writeBnd ha) <| .ite h.writeFpiSrc <| .ite h.writeFpiCfg <|
    .ite h.writePrbCtl <| .ite h.writePrbSel h.writePlain

theorem Kept.writeTwn {a w} (h : Kept s₀ s) : Kept s₀ (s.writeTwn a w) :=
  .ite h.writePlain h.writePlain

theorem Kept.writeNow {a w} (h : Kept s₀ s) : Kept s₀ (s.writeNow a w) := by
  unfold State.writeNow
  split
  · exact h
  · refine .ite h <| .ite h.writeDev <| .ite h.writePlain <| .ite h.writePlain <| .iteOf (fun _ => h.writeScrb) fun ha => ?_
    have ha : Reg.CFG_STAT.base < a := lt_of_lt_of_le (by decide) (not_lt.mp ha)
    exact .ite h.writeBur <| .ite h.writeLcs <| .ite h.writeAnalog <| .ite (h.writeCg ha) <| .ite (h.writeFc ha) <|
      .ite h.writeWm <| .ite h.writeDa <| .ite h.writeCalBlock <| .ite h.writePlain <| .ite (h.writeDma ha) <|
      .ite (h.writeFabric ha) <| .ite h.writeTwn h

theorem Kept.copyNow {a w} (h : Kept s₀ s) : Kept s₀ (s.copyNow a w) := by
  unfold State.copyNow; dsimp only
  split
  · exact h
  · split
    · exact .ite (h.applyMatrix (matrixReg_beyond ‹_›)) h
    · exact .ite h <| .ite h.writeFpiSrc <| .ite (.ite h h.setFpiCfg) <|
        .iteOf (fun ha => h.setWord (lt_of_lt_of_le (by decide) ha)) fun _ => h.writeNow

theorem Kept.writeHeld {l} (h : Kept s₀ s) : Kept s₀ (s.writeHeld l) :=
  h.foldl (fun h => .ite h.copyNow h.writeNow)

theorem Kept.writeReg {a w} (h : Kept s₀ s) : Kept s₀ (s.writeReg a w) :=
  .ite h.writeNow.writeHeld (h.imageWrite (fun h => h.writeNow))

theorem Kept.copyReg {a w} (h : Kept s₀ s) : Kept s₀ (s.copyReg a w) :=
  h.imageWrite (fun h => h.copyNow)

/-! ### Machine/Boot -/

theorem Kept.showKeys {i} (h : Kept s₀ s) : Kept s₀ (s.showKeys i) :=
  h.setPair.setPair

theorem Kept.keyLow (h : Kept s₀ s) : Kept s₀ s.keyLow :=
  h.flagIf

theorem Kept.release {compat boot} (h : Kept s₀ s) : Kept s₀ (s.release compat boot) := by
  unfold State.release
  extract_lets _ _ s1
  have h1 : Kept s₀ s1 := h.same rfl
  exact ((h1.setFOf (by rfl)).setFOf (by rfl)).setFOf (by rfl)

/-! ### Machine/Frames -/

theorem regAt_base_le {a : Nat} {r : RegAt} (h : regAt a = some r) : r.row.reg.base ≤ a := by
  unfold regAt at h
  split at h
  · obtain ⟨e, he, rfl⟩ := Option.map_eq_some_iff.mp h
    by_contra hlt
    rw [RegRow.index, if_pos (not_le.mp hlt)] at he
    cases he
  · cases h

theorem Kept.writeImage {a v} (h : Kept s₀ s) : Kept s₀ (s.writeImage a v) := by
  unfold State.writeImage; dsimp only
  split
  · exact h
  · next r hr =>
    refine .iteOf (fun hb => h.setWord ?_) fun _ => .ite h.setB (.ite h.storeGclk (.ite h.storeFpll h.writeReg))
    exact lt_of_lt_of_le (by decide) (hb ▸ regAt_base_le hr)

/-! ### Machine/Loader -/

theorem Kept.setStream {x} (h : Kept s₀ s) : Kept s₀ (s.setStream x) :=
  h.same rfl

theorem Kept.markRun (h : Kept s₀ s) : Kept s₀ s.markRun :=
  h.same rfl

theorem Kept.setMeas {k m} (h : Kept s₀ s) : Kept s₀ (s.setMeas k m) :=
  h.setCab

theorem Kept.streamWrite {a v} (h : Kept s₀ s) : Kept s₀ (s.streamWrite a v) :=
  h.writeReg.setF

theorem Kept.streamPop (h : Kept s₀ s) : Kept s₀ s.streamPop :=
  .ite h.consume.pumpRing h.setStream

theorem Kept.bar4 {words} (h : Kept s₀ s) : Kept s₀ (s.bar4 words) :=
  h.setStream.flagIfOf (by rfl)

/-! ### Machine/LoadEnd -/

theorem Kept.applyDeferred (h : Kept s₀ s) : Kept s₀ s.applyDeferred :=
  h.foldl (fun h => h.streamWrite)

theorem Kept.markCab {k secure} (h : Kept s₀ s) : Kept s₀ (s.markCab k secure) := by
  have h1 : Kept s₀ ((s.setB Fld.SCRB_CB_STATE_SECURE secure k).setWord (Reg.BUR_CLAIM.addr k 0) 0) := h.setB.setReg
  exact (Kept.ite h1 h1.freeSecure).setFOf (r := Fld.BUR_TAINT) (by rfl)

theorem Kept.releaseCab {k} (h : Kept s₀ s) : Kept s₀ (s.releaseCab k) :=
  h.startCells.flushBoundary.clearCrossings.setB.setCbState.markCab.setCab

theorem Kept.enableIo (h : Kept s₀ s) : Kept s₀ s.enableIo := by
  unfold State.enableIo
  extract_lets _ _ s1
  have h1 : Kept s₀ s1 := h.same rfl
  exact h1.foldl (fun h => h.wmHold)

/-! ### Machine/View -/

/-- What a read clears is of no kept field. -/
theorem RegAt.cleared_keptBits {a : Nat} {r : RegAt} (h : regAt a = some r) (w : Word) :
    w &&& ~~~r.row.mask (· == .rc) &&& keptBits a = w &&& keptBits a := by
  unfold regAt at h
  split at h
  · next row hrow =>
    obtain ⟨e, -, rfl⟩ := Option.map_eq_some_iff.mp h
    have hm := RegMap.mask_keptBits hrow
    refine BitVec.eq_of_getLsbD_eq fun i hi => ?_
    have hb := congrArg (fun x : Word => x.getLsbD i) hm
    simp only [BitVec.getLsbD_and, BitVec.getLsbD_or, BitVec.getLsbD_zero] at hb
    simp only [BitVec.getLsbD_and, BitVec.getLsbD_not, hi, decide_true, Bool.true_and]
    cases hk : (keptBits a).getLsbD i
    · simp
    · simp only [hk, Bool.and_true, Bool.or_eq_false_iff] at hb
      simp [hb.2]
  · cases h

theorem Kept.readReg {a} (h : Kept s₀ s) : Kept s₀ (s.readReg a) := by
  unfold State.readReg; dsimp only
  split
  · exact h.same rfl
  · next r hr =>
    exact .ite h.withReadData <| .ite h.withReadData <| .ite h.cdataRead <| .ite h.pdataRead <|
      .ite h.peek (h.withReadData.setBits (RegAt.cleared_keptBits hr _))

/-! ### Machine/Bureau -/

theorem Kept.commitSet {c} (h : Kept s₀ s) : Kept s₀ (s.commitSet c) :=
  h.withCal.setF.setF.setF.setF.setF.setF

theorem Kept.importRecord_fst {bytes} (h : Kept s₀ s) : Kept s₀ (s.importRecord bytes).1 := by
  unfold State.importRecord
  split
  · exact h
  · split
    · exact h.loadCal.setMarks.flag.flag
    · exact h

theorem Kept.serve {c ops k} (h : Kept s₀ s) (hk : ∀ {t cb w}, Kept s₀ t → Kept s₀ (k cb w t).1) :
    Kept s₀ (s.serve c ops k) := by
  unfold State.serve; dsimp only
  split
  · split
    · split
      · exact h.takeFrom.flag
      · exact .ite h (hk h.takeFrom).postOn
    · exact h
  · exact h

theorem Kept.freeReply_fst {status} (h : Kept s₀ s) : Kept s₀ (s.freeReply status).1 :=
  h.same rfl

theorem Kept.claim_fst {high k w} (h : Kept s₀ s) : Kept s₀ (s.claim high k w).1 :=
  h.setReg

/-! ### Machine/Cal -/

theorem Kept.runSlice_fst {g sl m} (h : Kept s₀ s) : Kept s₀ (s.runSlice g sl m).1 := by
  unfold State.runSlice
  extract_lets _ a b t
  have hb : Kept s₀ b.1 := by
    unfold b
    split
    · exact h.calSlice_fst
    · exact h.calSlice_fst.calSlice_fst
  exact hb.setB.flagIf

theorem calFields_apart {t : CalTarget} {e : (FieldRef × Nat × Nat × Nat) × Nat} (h : e ∈ (calFields t).zipIdx) :
    e.1.1.apart = true := by
  have hall : ((calFields t).all fun f => f.1.apart) = true := by cases t <;> rfl
  exact List.all_eq_true.mp hall e.1 (List.fst_mem_of_mem_zipIdx h)

/-- The fields of a target are moved. -/
theorem Kept.calFields {t : CalTarget} {x : (FieldRef × Nat × Nat × Nat) × Nat → List (Int × Int)} (h : Kept s₀ s) :
    Kept s₀ ((calFields t).zipIdx.foldl (fun s e => (s.calField e.1.1 e.1.2.1 e.1.2.2.1 e.1.2.2.2 (x e)).1) s) :=
  h.foldlMem fun he h => h.calField_fst (calFields_apart he)

theorem Kept.runTarget_fst {a t vstd m} (h : Kept s₀ s) : Kept s₀ (s.runTarget a t vstd m).1 := by
  cases t with
  | monitor n =>
    unfold State.runTarget; dsimp only
    split
    · exact h
    · exact h.calFields
  | slice g sl => exact h.runSlice_fst
  | rbuf q =>
    unfold State.runTarget; dsimp only
    refine calFields ?_
    split
    · exact h.setReg
    · exact h
  | cell c => exact calFields (h.foldl fun h => .ite h.setCell h)
  | cdac _ | port _ | dac _ => exact h.calFields

theorem Kept.runTargets_fst {a vstd ts ms} (h : Kept s₀ s) : Kept s₀ (s.runTargets a vstd ts ms).1 := by
  induction ts generalizing s a ms with
  | nil => exact h
  | cons t ts ih => exact ih h.runTarget_fst

/-! ### Machine/Power -/

theorem Kept.armWake {t forTick} (h : Kept s₀ s) : Kept s₀ (s.armWake t forTick) :=
  h.withPwr.setPair

theorem Kept.stopSensors (h : Kept s₀ s) : Kept s₀ s.stopSensors :=
  h.foldl (fun h => .ite h h.setF)

theorem Kept.moveWake (h : Kept s₀ s) : Kept s₀ s.moveWake := by
  unfold State.moveWake; dsimp only
  split
  · exact h
  · exact .ite h (.ite h.armWake.wake h.armWake)

/-! ### Machine/Twin -/

theorem Kept.toSolo {primary} (h : Kept s₀ s) : Kept s₀ (s.toSolo primary) :=
  h.withTwin.setB.setB.resetTwinAgent

theorem Kept.split (h : Kept s₀ s) : Kept s₀ s.split :=
  (toSolo (.ite h.retireRings.withTwin.replayLevel h)).flag

theorem Kept.fence (h : Kept s₀ s) : Kept s₀ s.fence :=
  (h.foldl (fun h => .ite h h.closeBlock.writeBlocks)).withTwin.toSolo

theorem Kept.replayRing {r} (h : Kept s₀ s) : Kept s₀ (s.replayRing r) :=
  (h.setRing.foldl (fun h => h.passBlock)).setRing.withTwin

theorem Kept.markWaiting (h : Kept s₀ s) : Kept s₀ s.markWaiting :=
  h.same rfl

theorem Kept.takeover {cause} (h : Kept s₀ s) : Kept s₀ (s.takeover cause) := by
  unfold State.takeover
  extract_lets s1 _ s2 s3 s4 s5
  have h1 : Kept s₀ s1 := h.markWaiting.foldl (fun h => .ite h h.replayRing)
  have h2 : Kept s₀ s2 := h1.withTwin.replayLevel
  have h3 : Kept s₀ s3 := h2.toSolo.setF
  have h4 : Kept s₀ s4 := h3.setPair.addWrap
  have h5 : Kept s₀ s5 := h4.flag
  exact h5.foldl (fun h => .ite h h.writeBlocks)

theorem Kept.triggered {cause} (h : Kept s₀ s) : Kept s₀ (s.triggered cause) :=
  .ite h.split.setF h.fence

theorem Kept.trigger {cause} (h : Kept s₀ s) : Kept s₀ (s.trigger cause) :=
  .ite (.ite h.triggered h.withTwin) h

theorem Kept.heartbeatLost (h : Kept s₀ s) : Kept s₀ s.heartbeatLost :=
  .ite (.ite h.setB.setB.takeover h.setB.setB.withTwin) h.setB.setB

theorem Kept.splits {cause} (h : Kept s₀ s) : Kept s₀ (s.splits cause) :=
  .ite h (.ite h.split.setF h.withTwin)

theorem Kept.resumeTrigger (h : Kept s₀ s) : Kept s₀ s.resumeTrigger := by
  unfold State.resumeTrigger; dsimp only
  split
  · exact h
  · exact .ite h.takeover h.withTwin
  · exact .ite h.withTwin.splits h.withTwin.trigger

theorem Kept.scrubEvent {k corrected} (h : Kept s₀ s) : Kept s₀ (s.scrubEvent k corrected) :=
  .ite (.ite h h.withTwin) (trigger (.ite h h.withTwin))

theorem Kept.placeAgain {r blocks} (h : Kept s₀ s) : Kept s₀ (s.placeAgain r blocks) :=
  h.foldl (fun ht => foldl (.ite ht.closeBlock.setRing ht) (fun h => h.placeWord))

theorem Kept.cutAt {r idx} (h : Kept s₀ s) : Kept s₀ (s.cutAt r idx) := by
  unfold State.cutAt; dsimp only
  split
  · exact h.same rfl
  · exact .ite h h.withTwin.setRing.placeAgain.replayLevel

theorem Kept.hear {r seq} (h : Kept s₀ s) : Kept s₀ (s.hear r seq) :=
  h.withTwin.confirm

/-! ### Machine/Commands -/

theorem Kept.copyPrimary {p} (h : Kept s₀ s) : Kept s₀ (s.copyPrimary p) := by
  unfold State.copyPrimary
  extract_lets s1
  have h1 : Kept s₀ s1 := h.foldl fun h => .ite h.copyReg h
  exact h1.same rfl

theorem Kept.pair {primary p} (h : Kept s₀ s) : Kept s₀ (s.pair primary p) :=
  (flag (.ite h.withTwin h.withTwin.copyPrimary)).setB.replayLevel.resetTwinAgent

/-! ### Machine/Firing -/

theorem Kept.firingCg {g r} (h : Kept s₀ s) : Kept s₀ (s.firingCg g r) :=
  .ite h h.setGroup.xovf

theorem Kept.firingFc {n r} (h : Kept s₀ s) : Kept s₀ (s.firingFc n r) :=
  .ite h h.setChain.xovf

theorem Kept.firingDa {d r} (h : Kept s₀ s) : Kept s₀ (s.firingDa d r) :=
  .ite h h.setDac.xovf

theorem Kept.broadcast (h : Kept s₀ s) : Kept s₀ s.broadcast := by
  unfold State.broadcast; dsimp only
  split
  · exact h
  · exact (((h.withLcs.foldl (fun h => h.firingCg)).foldl (fun h => h.firingFc)).foldl (fun h => h.firingDa)).wmBroadcast

theorem Kept.perform {k f} (h : Kept s₀ s) (hf : ∀ {r t}, Kept s₀ t → Kept s₀ (f r t)) :
    Kept s₀ (s.perform k f) := by
  unfold State.perform
  split
  · exact h
  · exact hf (h.same rfl)

theorem Kept.eventPulse {r} (h : Kept s₀ s) : Kept s₀ (s.eventPulse r) :=
  .ite h (h.withLcs.foldl (fun h => h.setLineX.xovf))

theorem Kept.ringDoorbell {r} (h : Kept s₀ s) : Kept s₀ (s.ringDoorbell r) :=
  .ite h.setDoorbell (h.flagOf (by rfl))

theorem Kept.firingIrq {r} (h : Kept s₀ s) : Kept s₀ (s.firingIrq r) :=
  .ite h.setBit h.setBit

/-! ### Machine/HostIf -/

theorem Kept.sendMessage {f v} (h : Kept s₀ s) : Kept s₀ (s.sendMessage f v) :=
  h.hostWrite

theorem Kept.lookVector {f v} (h : Kept s₀ s) : Kept s₀ (s.lookVector f v) :=
  setVec (.ite h.sendMessage h)

theorem Kept.afterAccess {before : State} (h : Kept s₀ s) : Kept s₀ (s.afterAccess before) :=
  h.noteVectors

/-- The MSI-X tables lie apart from the kept fields. -/
theorem Kept.resetTable {f} (h : Kept s₀ s) : Kept s₀ (s.resetTable f) :=
  (h.resetRegs (by split <;> rfl) (by split <;> rfl)).withHost.foldl (fun h => .ite h.setVec h)

theorem Kept.completes {c} (h : Kept s₀ s) : Kept s₀ (s.completes c) :=
  h.same rfl

theorem Kept.noFunction (h : Kept s₀ s) : Kept s₀ s.noFunction :=
  h.completes

theorem Kept.badOfs {func bar ofs} (h : Kept s₀ s) : Kept s₀ (s.badOfs func bar ofs) :=
  ((h.setFOf (by rfl)).setFOf (by rfl)).setFOf (by rfl)

theorem Kept.readWord {func bar ofs} (h : Kept s₀ s) : Kept s₀ (s.readWord func bar ofs) := by
  unfold State.readWord; dsimp only
  split
  · exact h.readReg
  · split
    · exact .ite h.readReg h.withReadData
    · exact h.same rfl
    · exact (h.withReadData.flagOf (by rfl)).badOfs
  · split
    · exact h.msgTake
    · split
      · exact h.same rfl
      · exact h.badPage.withReadData

theorem Kept.writeWord {func bar ofs w} (h : Kept s₀ s) : Kept s₀ (s.writeWord func bar ofs w) := by
  unfold State.writeWord; dsimp only
  split
  · exact .ite h.writeReg (h.flagOf (by rfl)).badOfs
  · split
    · exact .ite (.ite h.writeReg (h.flagOf (by rfl)).badOfs) h.writePlain
    · exact h
    · exact (h.flagOf (by rfl)).badOfs
  · exact h.pageWrite

theorem Kept.writeWords {x} (h : Kept s₀ s) : Kept s₀ (s.writeWords x) :=
  h.foldl (fun h => .ite (h.flagOf (by rfl)).badOfs h.writeWord)

theorem Kept.readWords {x} (h : Kept s₀ s) : Kept s₀ (s.readWords x) :=
  (h.foldlFst (fun h => h.readWord)).completes

theorem Kept.holdAccess {x mirror} (h : Kept s₀ s) : Kept s₀ (s.holdAccess x mirror) :=
  h.same rfl

theorem Kept.refuseRequest {x} (h : Kept s₀ s) : Kept s₀ (s.refuseRequest x) :=
  .ite h.aer h.aer.aerAdvisory.completes

theorem Kept.atAccess {tick} (h : Kept s₀ s) : Kept s₀ (s.atAccess tick) :=
  .ite h.atTick h

theorem Kept.withLook {s t : State} (h1 : Kept s₀ t) : Kept s₀ (s.withLook t) :=
  h1.afterAccess

theorem Kept.onPage {func c k} (h : Kept s₀ s) (hk : ∀ {t}, Kept s₀ t → Kept s₀ (k t)) :
    Kept s₀ (s.onPage func c k) :=
  .ite (hk h).withLook h.noFunction

theorem Kept.dropAccesses {p} (h : Kept s₀ s) : Kept s₀ (s.dropAccesses p) := by
  unfold State.dropAccesses
  extract_lets _ s1
  have h1 : Kept s₀ s1 := h.xrst
  exact h1.same rfl

theorem Kept.resetFuncs {p flr} (h : Kept s₀ s) : Kept s₀ (s.resetFuncs p flr) :=
  (h.dropAccesses.foldl (fun h => h.setFunc.retireRings)).resetAgents.foldl (fun h => h.resetTable)

theorem Kept.dropVfs {n} (h : Kept s₀ s) : Kept s₀ (s.dropVfs n) :=
  h.resetFuncs.setFOf (by rfl)

theorem Kept.configure {func item} (h : Kept s₀ s) : Kept s₀ (s.configure func item) := by
  unfold State.configure; dsimp only
  split
  · exact h.completes
  · exact h.completes
  · exact h.completes
  · exact h.completes
  · exact h.completes
  · exact h.completes
  · exact h.setFunc.completes
  · exact h.setFunc.completes
  · exact h.setFunc.completes.pump
  · exact h.setFunc.completes.pump
  · exact h.setFunc.afterAccess.completes
  · exact h.setFunc.afterAccess.completes
  · exact .ite h.dropVfs.completes h.completes
  · exact .ite h.withHost.completes h.completes

theorem Kept.trained {speed width mps mrrs} (h : Kept s₀ s) : Kept s₀ (s.trained speed width mps mrrs) := by
  unfold State.trained
  extract_lets s1 s2 _ s3
  have h1 : Kept s₀ s1 := ((h.flagOf (by rfl)).setFOf (by rfl)).setFOf (by rfl)
  have h2 : Kept s₀ s2 := ((h1.setFOf (by rfl)).setFOf (by rfl)).flagIfOf (by rfl)
  have h3 : Kept s₀ s3 := h2.withHost
  exact h3.setF.gstat.pump

theorem Kept.linkReset (h : Kept s₀ s) : Kept s₀ s.linkReset := by
  unfold State.linkReset
  extract_lets _ s1 _ s2 s3 _ s4 s5
  have h1 : Kept s₀ s1 := h.dropAccesses
  have h2 : Kept s₀ s2 := h1.same rfl
  have h3 : Kept s₀ s3 := h2.resetRegs (by decide) (by decide)
  have h4 : Kept s₀ s4 := .ite h3.setStream.xrst h3
  have h5 : Kept s₀ s5 := h4.retireRings.resetHosts
  exact h5.foldl (fun h => h.resetTable)

theorem Kept.flr {f} (h : Kept s₀ s) : Kept s₀ (s.flr f) :=
  .ite (h.resetFuncs.setFOf (by rfl)).withHost (.ite h.resetFuncs h)

/-! ### Machine/Jtag -/

/-! ### Machine/Scrub -/

theorem Kept.turnTo {fa} (h : Kept s₀ s) : Kept s₀ (s.turnTo fa) :=
  withScrub (by split <;> [exact h.setF; exact h])

theorem Kept.rereadFrame {fa} (h : Kept s₀ s) : Kept s₀ (s.rereadFrame fa) :=
  h.setF.withScrub

theorem Kept.scrubOn {fa held} (h : Kept s₀ s) : Kept s₀ (s.scrubOn fa held) :=
  writeHeld (by split <;> [exact h; (split <;> [exact h.turnTo.addWrap; exact h.turnTo])])

/-! ### The commands that change nothing else -/

theorem execWmConditionWrite_kept {n what w} (h : Kept s₀ s) : OutKept s₀ (execWmConditionWrite n what w s) :=
  .hostRow (.present h (.next (by split <;> exact h.writeReg)))

theorem execPorstNRelease_kept {compat boot} (h : Kept s₀ s) : OutKept s₀ (execPorstNRelease compat boot s) :=
  .ite .fault (.next (.ite h.release h))

theorem execTwinStreamWord_kept {w} (h : Kept s₀ s) : OutKept s₀ (execTwinStreamWord w s) :=
  .next (.ite h.setStream h)

theorem execRegionStreamStart_kept (h : Kept s₀ s) : OutKept s₀ (execRegionStreamStart s) :=
  .next (by split <;> [exact .ite h.setStream h; exact h])

theorem execRandom_kept {c v} (h : Kept s₀ s) : OutKept s₀ (execRandom c v s) := by
  refine .inst (.next (h.serve fun h => ?_))
  split
  · exact h.freeReply_fst
  · exact h

theorem execDigestRequest_kept {c} (h : Kept s₀ s) : OutKept s₀ (execDigestRequest c s) :=
  .inst (.next (h.serve fun h => h))

theorem execClaimLow_kept {c} (h : Kept s₀ s) : OutKept s₀ (execClaimLow c s) :=
  .inst (.next (h.serve fun h => h.claim_fst))

theorem execClaimHigh_kept {c} (h : Kept s₀ s) : OutKept s₀ (execClaimHigh c s) :=
  .inst (.next (h.serve fun h => h.claim_fst))

theorem execUnknownSecureOp_kept {c} (h : Kept s₀ s) : OutKept s₀ (execUnknownSecureOp c s) :=
  .inst (.next (h.serve fun h => h.freeReply_fst))

theorem execTempConversion_kept {k raw} (h : Kept s₀ s) : OutKept s₀ (execTempConversion k raw s) :=
  .inst (.next (.ite h h.setF.setF.firstReading))

theorem execSelfWake_kept (h : Kept s₀ s) : OutKept s₀ (execSelfWake s) := by
  unfold execSelfWake; dsimp only
  split
  · exact .next (.ite h.atTick.wake h.atTick)
  · exact .next h

theorem execPowerStateEntry_kept (h : Kept s₀ s) : OutKept s₀ (execPowerStateEntry s) :=
  .ite (.next (.ite (Kept.leave (.ite h.flushRings h)) (Kept.withPwr (.ite h.flushRings h)))) (.next h)

theorem execWakeNRelease_kept (h : Kept s₀ s) : OutKept s₀ (execWakeNRelease s) :=
  .next h.withPins

theorem execHeartbeat_kept {lanes strobe seqs closes} (h : Kept s₀ s) :
    OutKept s₀ (execHeartbeat lanes strobe seqs closes s) :=
  .ite (.next h) (.next (.ite ((h.setB.setB.foldl (fun h => h.cutAt)).foldl (fun h => h.hear)) h.setB.setB))

theorem execHeartbeatLoss_kept (h : Kept s₀ s) : OutKept s₀ (execHeartbeatLoss s) :=
  .next (.ite h.heartbeatLost h)

theorem execPrimaryPllLoss_kept (h : Kept s₀ s) : OutKept s₀ (execPrimaryPllLoss s) :=
  .next (.ite h h.trigger)

theorem execFenced_kept {cause seqs} (h : Kept s₀ s) : OutKept s₀ (execFenced cause seqs s) :=
  .next (.ite ((h.foldl (fun h => by split <;> [exact h.cutAt; exact h])).foldl (fun h => h.hear)).takeover h)

theorem execTwinCompare_kept {k differ peer} (h : Kept s₀ s) : OutKept s₀ (execTwinCompare k differ peer s) := by
  have h1 {x} : Kept s₀ ({ s with twin := x } : State) := h.same rfl
  exact .present h (.next (.ite (.ite h1 <| .ite h1.splits <| .ite h1.trigger <| .ite h1.trigger h1.addSat.flag) h))

theorem execLaneErrorBurst_kept (h : Kept s₀ s) : OutKept s₀ (execLaneErrorBurst s) :=
  .next (.ite h.withTwin h)

theorem execFiringRecord_kept (h : Kept s₀ s) : OutKept s₀ (execFiringRecord s) :=
  .next (.ite h.broadcast h)

theorem execEvent_kept (h : Kept s₀ s) : OutKept s₀ (execEvent s) :=
  .next (.ite (h.perform (fun h => h.eventPulse)) h)

theorem execDoorbell_kept (h : Kept s₀ s) : OutKept s₀ (execDoorbell s) :=
  .next (.ite (h.perform (fun h => h.ringDoorbell)) h)

theorem execWake_kept (h : Kept s₀ s) : OutKept s₀ (execWake s) :=
  .next (.ite (h.perform (fun h => h.wake)) h)

theorem execIrq_kept (h : Kept s₀ s) : OutKept s₀ (execIrq s) :=
  .next (.ite (h.perform (fun h => h.firingIrq)) h)

theorem execMsixMessage_kept {func v} (h : Kept s₀ s) : OutKept s₀ (execMsixMessage func v s) :=
  .inst (.inst (.next h.lookVector))

theorem execMsgPost_kept {func c w} (h : Kept s₀ s) : OutKept s₀ (execMsgPost func c w s) :=
  .inst (.inst (.next (h.onPage (fun h => h.pageWrite.counted))))

theorem execMsgTake_kept {func c} (h : Kept s₀ s) : OutKept s₀ (execMsgTake func c s) :=
  .inst (.inst (.next (h.onPage (fun h => h.msgTake))))

theorem execDbSet_kept {func c w} (h : Kept s₀ s) : OutKept s₀ (execDbSet func c w s) :=
  .inst (.inst (.next (h.onPage (fun h => h.pageWrite.counted))))

theorem execDbClr_kept {func c w} (h : Kept s₀ s) : OutKept s₀ (execDbClr func c w s) :=
  .inst (.inst (.next (h.onPage (fun h => h.pageWrite.counted))))

theorem execSourceWrite_kept {a w} (h : Kept s₀ s) : OutKept s₀ (execSourceWrite a w s) :=
  .hostRow (.ite (.next h.writeWord) .fault)

theorem execBar4Write_kept {words} (h : Kept s₀ s) : OutKept s₀ (execBar4Write words s) :=
  .next (.ite h.bar4 h)

theorem execFetchCompletion_kept {r data} (h : Kept s₀ s) : OutKept s₀ (execFetchCompletion r data s) :=
  .inst (.ite .fault (.next (.ite h.fetched h)))

theorem execConfigRequest_kept {func item} (h : Kept s₀ s) : OutKept s₀ (execConfigRequest func item s) :=
  .inst (.next (.ite h.completes (.ite h.completes (.ite h.configure h.completes))))

theorem execLinkTraining_kept {speed width mps mrrs} (h : Kept s₀ s) :
    OutKept s₀ (execLinkTraining speed width mps mrrs s) :=
  .ite .fault (.next (.ite h.trained h))

theorem execPcieLinkDown_kept (h : Kept s₀ s) : OutKept s₀ (execPcieLinkDown s) :=
  .next (h.setFOf (by rfl))

theorem execPerstNAssert_kept (h : Kept s₀ s) : OutKept s₀ (execPerstNAssert s) :=
  .next h.linkReset

theorem execPerstNRelease_kept (h : Kept s₀ s) : OutKept s₀ (execPerstNRelease s) :=
  .next h.withHost

theorem execFunctionLevelReset_kept {func} (h : Kept s₀ s) : OutKept s₀ (execFunctionLevelReset func s) :=
  .inst (.next h.flr)

theorem execFlrComplete_kept {func} (h : Kept s₀ s) : OutKept s₀ (execFlrComplete func s) :=
  .inst (.next h.setFunc)

theorem execJtagInstruction_kept {code} (h : Kept s₀ s) : OutKept s₀ (execJtagInstruction code s) :=
  .next h.withPins

theorem execJtagReset_kept (h : Kept s₀ s) : OutKept s₀ (execJtagReset s) :=
  .next h.withPins

theorem execScrubPassStart_kept (h : Kept s₀ s) : OutKept s₀ (execScrubPassStart s) :=
  .next (.ite h.turnTo.setB h)

theorem execVoteRepair_kept (h : Kept s₀ s) : OutKept s₀ (execVoteRepair s) := by
  have h1 : Kept s₀ ((s.setWord Reg.SCRB_CTL.base (majority s.voted.ctl)).setWord Reg.SCRB_IRQEN.base
      (majority s.voted.irqen)) := (h.setWord (by decide)).setWord (by decide)
  exact .next (.ite h (Kept.withVoted (.ite h1 h1.withScrub.setB)).flag.flag)

end

/-! ## The invariant -/

/-- None of the results goes to DEV_MODE. -/
def ResultsSpare (l : List (Nat × Word)) : Prop := ∀ e ∈ l, e.1 ≠ Reg.DEV_MODE.base

/-- DEV_MODE shows the mode, and no result that a command in progress will write goes there. -/
structure State.Shown (s : State) : Prop where
  shown : s.f Fld.DEV_MODE_MODE = s.mode.code
  job : ∀ j, s.bur.job = some j → ResultsSpare j.results

theorem State.shown_iff (s : State) : s.Shown ↔ s.modeShown = true := by
  simp only [State.modeShown, Bool.and_eq_true, beq_iff_eq, Option.all_eq_true, List.all_eq_true, bne_iff_ne]
  exact ⟨fun h => ⟨h.shown, h.job⟩, fun h => ⟨h.1, h.2⟩⟩

/-- Where a command answers a next state, the invariant holds there. -/
def OutShown (o : Out) : Prop := ∀ t, o = .next t → t.Shown

section
variable {s t : State}

namespace State.Shown

theorem kept (h : s.Shown) (k : Kept s t) : t.Shown where
  shown := (k.fields _ (by decide)).trans (h.shown.trans (congrArg Mode.code k.mode.symm))
  job := by
    rw [k.bur]
    exact h.job

/-- What is neither the mode, a register nor the command in progress may change. -/
theorem same (h : s.Shown) (e : (t.mode, t.regs, t.bur.job) = (s.mode, s.regs, s.bur.job)) : t.Shown := by
  simp only [Prod.mk.injEq] at e
  obtain ⟨hmode, hregs, hjob⟩ := e
  refine ⟨?_, ?_⟩
  · rw [State.f, State.word, hregs, hmode]
    exact h.shown
  · rw [hjob]
    exact h.job

theorem ite {c : Prop} [Decidable c] (hs : s.Shown) (ht : t.Shown) : (if c then s else t).Shown := by
  split <;> assumption

theorem foldl {β : Type} {f : State → β → State} {l : List β} (h : s.Shown) (hf : ∀ {t b}, t.Shown → (f t b).Shown) :
    (l.foldl f s).Shown :=
  List.foldlRecOn l f h fun _ ht _ _ => hf ht

theorem setWord {a w} (h : s.Shown) (ha : a ≠ Reg.DEV_MODE.base) : (s.setWord a w).Shown where
  shown := by
    exact (congrArg (fun w : Word => w.bits 0 4) ((s.word_setWord ..).trans (if_neg ha))).trans h.shown
  job := h.job

/-- A field beside MODE is written. -/
theorem setFOf {r v i j} (h : s.Shown) (hr : r.beside Fld.DEV_MODE_MODE = true) : (s.setF r v i j).Shown where
  shown := (s.f_setF_of_beside hr v i j).trans h.shown
  job := h.job

/-- A register beyond DEV_MODE is written. -/
theorem setF {b c d lo n v i j} (h : s.Shown) : (s.setF ⟨b + 0x11, c, d, lo, n⟩ v i j).Shown :=
  h.setFOf (by simp [FieldRef.beside, Fld.DEV_MODE_MODE])

theorem setStream {x} (h : s.Shown) : (s.setStream x).Shown :=
  h.same rfl

theorem setJob {j} (h : s.Shown) (hj : ∀ k, j = some k → ResultsSpare k.results) : (s.setJob j).Shown where
  shown := h.shown
  job := hj

end State.Shown

theorem OutShown.next (h : s.Shown) : OutShown (.next s) := by
  rintro _ ⟨⟩
  exact h

theorem OutShown.fault {r : Fault} : OutShown (.fault r) := by
  rintro _ ⟨⟩

theorem State.Shown.out {o : Out} (h : s.Shown) (k : OutKept s o) : OutShown o :=
  fun t ht => h.kept (k t ht)

theorem OutShown.ite {c : Prop} [Decidable c] {o p : Out} (ho : OutShown o) (hp : OutShown p) :
    OutShown (if c then o else p) := by
  split <;> assumption

theorem OutShown.inst {n bound k} (hk : OutShown k) : OutShown (onInst n bound k) := .ite hk .fault

end

section
variable {s : State}

namespace State.Shown

/-! ## Transitions -/

theorem enterBlank {frames} (h : s.Shown) : (s.enterBlank frames).Shown := by
  have h0 : (s.enterBlank false).Shown := h.kept Kept.refl.enterBlank
  cases frames
  · exact h0
  · rw [State.enterBlank_true]
    generalize s.enterBlank false = t at h0
    exact h0.same rfl

theorem toMode {m cause} (h : s.Shown) : (s.toMode m cause).Shown := by
  unfold State.toMode
  extract_lets _ _ s1 s2 s3 _ s4
  have h2 : s2.f Fld.DEV_MODE_MODE = m.code :=
    (State.f_setF _ _ _ _ _ (by decide)).trans (by cases m <;> rfl)
  have h3 : s3.f Fld.DEV_MODE_MODE = m.code :=
    (State.f_setF_of_beside _ rfl _ _ _).trans ((State.f_setF_of_beside _ rfl _ _ _).trans h2)
  have hjob : s3.bur.job = s.bur.job := rfl
  clear_value s3
  have h4 : s4.Shown := ⟨h3, by rw [show s4.bur.job = s.bur.job from hjob]; exact h.job⟩
  clear_value s4
  exact .ite h4 (h4.kept Kept.refl.withScrub.setF)

theorem goBlank {cause frames} (h : s.Shown) : (s.goBlank cause frames).Shown :=
  h.enterBlank.toMode

theorem enterLoad {src ring} (h : s.Shown) : (s.enterLoad src ring).Shown := by
  unfold State.enterLoad
  extract_lets s1 _ _ s2 s3 s4 s5
  have h1 : s1.Shown := .ite (h.kept Kept.refl.emptyCabs.resetHard) h.enterBlank
  clear_value s1
  have h2 : s2.Shown := h1.same rfl
  have h5 : s5.Shown := h2.setF.setF.setF.setF.setF.setF.setF.setF
  exact .ite (h5.kept Kept.refl.connect.pump) h5

theorem goLoad {src ring cause} (h : s.Shown) : (s.goLoad src ring cause).Shown :=
  h.enterLoad.toMode

theorem goBench (h : s.Shown) : s.goBench.Shown := by
  unfold State.goBench
  extract_lets s1
  have h1 : s1.Shown := h.kept Kept.refl.latchPins.stopConverting.benchGroups.estClear.clearHeld
  exact h1.toMode

theorem benchToRun (h : s.Shown) : s.benchToRun.Shown := by
  unfold State.benchToRun
  extract_lets s1 _ _ s2
  have h1 : s1.Shown := h.toMode
  clear_value s1
  have hrun : ({ s1 with dio := { s1.dio with latched := none }, pwr := { s1.pwr with lastRun := some s1.lcs.time } } :
      State).Shown := h1.same rfl
  have h2 : s2.Shown := hrun.kept Kept.refl.startConverting
  exact h2.kept Kept.refl.restartAz.pump

/-! ### Reset -/

/-- After a reset DEV_MODE is at its reset value, and no command is in progress. -/
theorem of_reset {t : State} (hmode : t.mode = .reset) (hregs : t.word Reg.DEV_MODE.base = 0) (hjob : t.bur.job = none) :
    t.Shown where
  shown := by
    rw [State.f, hmode]
    exact (congrArg (fun w : Word => w.bits 0 4) hregs).trans rfl
  job := by
    rw [hjob]
    rintro _ ⟨⟩

end State.Shown

/-- DEV_MODE holds nothing that PORST_N leaves. -/
theorem State.heldWord_mode (w : Word) : heldWord Reg.DEV_MODE.base w = RegMap.resetAt Reg.DEV_MODE.base := by
  rw [heldWord, if_neg (by decide), show calMask Reg.DEV_MODE.base = 0#32 by decide]
  simp only [BitVec.and_zero, BitVec.or_zero, BitVec.not_zero, BitVec.and_allOnes]

theorem State.word_heldMemories : s.heldMemories.word Reg.DEV_MODE.base = 0 := by
  refine (Tab.get_filterMap_of_drops (fun e e' he => ?_) (fun v => if_pos (State.heldWord_mode v)) s.regs).trans (by decide)
  dsimp only at he
  split at he
  · cases he
  · cases he
    rfl

theorem State.Shown.keepOutside {t : State} (hmode : t.mode = .reset) (hregs : t.word Reg.DEV_MODE.base = 0) :
    (s.keepOutside t).Shown := by
  unfold State.keepOutside
  extract_lets _ _ _ _ _ u
  have hu : u.Shown := .of_reset hmode hregs rfl
  exact hu.foldl fun h => h.setF

theorem State.Shown.goReset {cause held} : (s.goReset cause held).Shown := by
  unfold State.goReset
  extract_lets t _ u
  have ht : t.Shown := by
    unfold t
    split
    · exact .keepOutside rfl State.word_heldMemories
    · exact .keepOutside rfl (by decide)
  clear_value t
  have hu : u.Shown := .ite (ht.same rfl) ht
  exact hu.setFOf (by rfl)

namespace State.Shown

/-! ## The boot, and the end of a load -/

/-- The Bureau's firmware runs. -/
theorem running (h : s.Shown) : ({ s with bur := { s.bur with running := true } } : State).Shown :=
  h.same rfl

theorem bootEnds {err trng store} (h : s.Shown) : (s.bootEnds err trng store).Shown := by
  unfold State.bootEnds
  extract_lets _ _ s1 s2 s3 s4
  have h1 : s1.Shown := h.same rfl
  have h2 : s2.Shown := h1.kept (Kept.refl.setWord (by decide)).flagIf
  clear_value s2
  have h3 : s3.Shown := h2.kept Kept.refl.setF.showKeys.keyLow.bootCal
  have h4 : s4.Shown := h3.kept Kept.refl.flag.setF
  exact .ite (h2.kept Kept.refl.setF) h4.running.toMode

theorem autonomousBoot (h : s.Shown) : OutShown (execAutonomousBoot s) := by
  unfold execAutonomousBoot
  refine .next (.ite ?_ h)
  split
  · exact (h.kept Kept.refl.setF.setF).goLoad
  · exact .ite h.goLoad h
  · exact h

theorem endPartial (h : s.Shown) : s.endPartial.Shown :=
  .ite (h.toMode.kept Kept.refl.markRun) h

theorem regionFail {k reason pos phase} (h : s.Shown) : (s.regionFail k reason pos phase).Shown :=
  (h.kept Kept.refl.setF.setF.setF.setF.setF.setCbState.flag.setMeas.dropStream).endPartial

theorem loadFail {reason pos} (h : s.Shown) : (s.loadFail reason pos).Shown := by
  unfold State.loadFail
  extract_lets s1
  have h1 : s1.Shown := h.setF.setF.setF
  have h2 : s1.dropStream.Shown := h1.kept Kept.refl.dropStream
  exact (h2.setFOf (by rfl)).toMode

/-! ### Streams -/

theorem streamFailAt {reason pos} (h : s.Shown) : (s.streamFailAt reason pos).Shown := by
  unfold State.streamFailAt
  split
  · exact h.loadFail
  · exact h.regionFail

theorem streamFail {reason} (h : s.Shown) : (s.streamFail reason).Shown :=
  h.streamFailAt

theorem countWord (h : s.Shown) : s.countWord.Shown := by
  unfold State.countWord
  split
  · exact h.setF.setF
  · exact h.setF

theorem setPhase {p} (h : s.Shown) : (s.setPhase p).Shown := by
  unfold State.setPhase
  split <;> exact h.setF

theorem takeDevice {i w} (h : s.Shown) : (s.takeDevice i w).Shown := by
  unfold State.takeDevice; dsimp only
  split
  · exact .ite h.streamFail h
  · exact .ite h.streamFail (.ite h.streamFail h)
  · exact .ite h.setStream.setF h.setStream
  · exact .ite h.setStream.setF (h.setStream.kept Kept.refl.setMeas)
  · exact .ite (.ite h.streamFail h) (.ite h.streamFail (.ite h.streamFail h.setStream))

theorem takeRegion {w} (h : s.Shown) : (s.takeRegion w).Shown :=
  .ite h.streamFail (.ite h.streamFail h.setStream)

theorem writeFrame {fa ws} (h : s.Shown) : (s.writeFrame fa ws).Shown := by
  unfold State.writeFrame
  extract_lets s1 s2
  have h1 : s1.Shown := h.kept Kept.refl.touchFrame
  clear_value s1
  have h2 : s2.Shown := h1.foldl fun h => h.same rfl
  exact .ite (h2.same rfl) (h1.foldl fun h => by split <;> [exact h.kept Kept.refl.writeImage; exact h])

theorem endFrame {fa ws} (h : s.Shown) : (s.endFrame fa ws).Shown := by
  unfold State.endFrame; dsimp only
  split
  · exact h.writeFrame.setStream.setF.setF
  · exact (h.writeFrame.setStream.kept Kept.refl.setMeas).setF

theorem takeFrameWord {w} (h : s.Shown) : (s.takeFrameWord w).Shown := by
  unfold State.takeFrameWord; dsimp only
  split
  · exact h.streamFail
  · exact h.streamFail
  · exact .ite h.streamFail (.ite h.endFrame h.setStream)

theorem takeFrames {i w} (h : s.Shown) : (s.takeFrames i w).Shown := by
  unfold State.takeFrames; dsimp only
  split
  · exact .ite h.streamFail h.setStream
  · exact .ite h.streamFail (.ite h.streamFail h)
  · exact h.takeFrameWord

theorem analogValue {a v} (h : s.Shown) : (s.analogValue a v).Shown :=
  .ite (.ite h.streamFail h.setStream) (h.kept Kept.refl.streamWrite)

theorem takeAnalog {left w} (h : s.Shown) : (s.takeAnalog left w).Shown := by
  unfold State.takeAnalog
  extract_lets _ s1
  have h1 : s1.Shown := h.setStream
  split
  · exact .ite h1.streamFail (.ite h1.streamFail (.ite h1.streamFail h1.setStream))
  · exact .ite h1.streamFail (.ite h1.streamFail h1.setStream)
  · exact h1.setStream.analogValue
  · exact h1.setStream.analogValue

theorem takeStartup {i w} (h : s.Shown) : (s.takeStartup i w).Shown := by
  unfold State.takeStartup; dsimp only
  split
  · exact .ite h.streamFail h.setStream
  · exact .ite h.streamFail h.setStream
  · exact h.setStream
  · exact h
  · exact .ite h.streamFail h

theorem takeDigest {i w} (h : s.Shown) : (s.takeDigest i w).Shown :=
  .ite h.streamFail h.setStream

theorem takeSignature {i w} (h : s.Shown) : (s.takeSignature i w).Shown :=
  .ite h.streamFail (.ite h.streamFail h.setStream)

theorem takeEnd {w} (h : s.Shown) : (s.takeEnd w).Shown := by
  unfold State.takeEnd
  extract_lets _ s1 s2
  have h1 : s1.Shown := (h.kept Kept.refl.strayWords).setStream.setPhase
  have h2 : s2.Shown := h1.kept Kept.refl.connect.pump
  split
  · exact h2.setF.toMode
  · exact h2

theorem takePreamble {w} (h : s.Shown) : (s.takePreamble w).Shown :=
  .ite h.setStream.setPhase.countWord (.ite h.setStream h.streamFailAt)

theorem takeHeader {w} (h : s.Shown) : (s.takeHeader w).Shown := by
  unfold State.takeHeader
  extract_lets
  exact .ite h.streamFail (.ite h.streamFail (.ite h.streamFail (.ite h.streamFail (.ite h.streamFail h.setStream))))

theorem takeBody {w} (h : s.Shown) : (s.takeBody w).Shown := by
  unfold State.takeBody
  extract_lets _ _ _ s1
  have h1 : s1.Shown := h.setStream
  exact .ite h1.takeDevice <| .ite h1.takeRegion <| .ite h1.takeFrames <| .ite h1.takeAnalog <| .ite h1.takeStartup <|
    .ite h1.takeDigest <| .ite h1.takeSignature h1.takeEnd

theorem takeStreamWord {w} (h : s.Shown) : (s.takeStreamWord w).Shown :=
  .ite h.takePreamble (.ite h.setStream.countWord.takeHeader h.setStream.countWord.takeBody)

theorem takeUnit {u fuel} (h : s.Shown) : (s.takeUnit u fuel).Shown := by
  induction fuel generalizing s with
  | zero => exact h
  | succ k ih =>
    unfold State.takeUnit; dsimp only
    split
    · next v w _ _ =>
      have h1 : (s.streamPop.takeStreamWord w).Shown := (h.kept Kept.refl.streamPop).takeStreamWord
      exact .ite (.ite h1 (ih h1)) h
    · exact h

theorem runUnit {u flash} (h : s.Shown) : OutShown (.next (s.runUnit u flash)) :=
  .next (takeUnit (.ite h.setStream h))

theorem signatureVerification {mclk} (h : s.Shown) : OutShown (execSignatureVerification mclk s) := by
  unfold execSignatureVerification
  extract_lets x s1
  have h1 : s1.Shown := h.setStream
  refine .ite .fault (.next (.ite (.ite ?_ h.streamFail) h))
  split <;> exact h1.setF

/-! ### The end of a load -/

theorem enterWakeUp (h : s.Shown) : s.enterWakeUp.Shown := by
  unfold State.enterWakeUp
  extract_lets _ _ _ s1
  have h1 : s1.Shown := h.same rfl
  exact h1.setF.toMode

theorem verifyLoad (h : s.Shown) : s.verifyLoad.Shown := by
  unfold State.verifyLoad
  extract_lets _ _ s1
  have h1 : s1.Shown := h.kept Kept.refl.census
  exact .ite h.loadFail (.ite h.loadFail (.ite h (.ite h.loadFail (.ite h1.enterWakeUp h1.loadFail))))

theorem finishLoad {mclk} (h : s.Shown) : (s.finishLoad mclk).Shown := by
  unfold State.finishLoad
  extract_lets s1 s2 s3 s4 _ _ s5
  have h2 : s2.Shown := h.kept (Kept.refl.applyDeferred.foldl fun h => h.releaseCab).enableIo
  clear_value s2
  have h3 : s3.Shown := h2.setF.setF
  have h4 : s4.Shown := (h3.kept Kept.refl.dropStream).toMode
  clear_value s4
  have h5 : s5.Shown := h4.same rfl
  exact h5.kept Kept.refl.startConverting.pump

theorem regionBegin {k src ring} (h : s.Shown) : (s.regionBegin k src ring).Shown := by
  unfold State.regionBegin
  extract_lets _ s1 s2 s3 s4 s5 _ s6 _ s7 s8
  have h3 : s3.Shown := h.kept Kept.refl.stopPorts.isolate.setF.resetPorts.setReg.setReg.setF
  clear_value s3
  have h6 : s6.Shown := h3.kept (Kept.refl.setF.setF.setF.setWord (by decide)).setCbState.setMeas
  have h7 : s7.Shown := h6.setStream
  have h8 : s8.Shown := .ite (h7.kept Kept.refl.connect.pump) h7
  exact .ite h8.toMode h8

theorem verifyRegion {k} (h : s.Shown) : (s.verifyRegion k).Shown := by
  unfold State.verifyRegion
  extract_lets _ _ s1 _ s2 _ s3
  have h3 : s3.Shown := h.kept Kept.refl.setCbState.setF.setMeas.setCab
  exact .ite h.regionFail (.ite h.regionFail (.ite h.regionFail (.ite h.regionFail (h3.kept Kept.refl.dropStream.flag))))

theorem regionVerify (h : s.Shown) : OutShown (execRegionVerify s) := by
  unfold execRegionVerify
  refine .next ?_
  split
  · exact .ite h.verifyRegion h
  · exact h

theorem regionRelease {k} (h : s.Shown) : (s.regionRelease k).Shown := by
  unfold State.regionRelease
  extract_lets _ s1 s2
  have h1 : s1.Shown := h.kept Kept.refl.stopPorts.startCells.flushBoundary.clearCrossings.markCab
  have h2 : s2.Shown := h1.kept Kept.refl.endIsolation.setB
  have h3 : (s2.setCbState k 1).Shown := h2.kept Kept.refl.setCbState
  exact h3.endPartial

/-! ## The Bureau -/

/-- A command ends without results. -/
theorem answer {status} (h : s.Shown) : (s.answer status).Shown :=
  h.setJob fun _ hk e he => by
    obtain rfl := Option.some.inj hk
    cases he

/-- A command that is in progress writes its results elsewhere. -/
theorem job_of {j : Job} (h : s.Shown) (hj : ResultsSpare j.results) : (s.setJob (some j)).Shown :=
  h.setJob fun _ hk => Option.some.inj hk ▸ hj

end State.Shown

@[simp] theorem argIs_fst_ne (i v : Nat) : (argIs i v).1 ≠ Reg.DEV_MODE.base := by
  change Reg.BUR_ARG.base + i * Reg.BUR_ARG.st1 + 0 * Reg.BUR_ARG.st2 ≠ Reg.DEV_MODE.base
  have : Reg.DEV_MODE.base < Reg.BUR_ARG.base := by decide
  omega

namespace State.Shown

theorem answerOk {l} (h : s.Shown) (hl : ResultsSpare l) : (s.answerOk l).Shown :=
  h.job_of hl

theorem judged {code absent own k} (h : s.Shown) (hk : s.Shown → (k s).Shown) : (s.judged code absent own k).Shown :=
  .ite h.answer (.ite h.answer (.ite h.answer (hk h)))

/-- The Bureau's other parts may change. -/
theorem withBur {b : Bureau} (h : s.Shown) (hb : b.job = s.bur.job) : ({ s with bur := b } : State).Shown :=
  h.same (by simp only [hb])

/-- The doorbell is rung by this die's own host. -/
theorem rung (h : s.Shown) :
    ({ s.setF Fld.BUR_STATUS_BUSY 1 with bur := { s.bur with mirrored := false } } : State).Shown := by
  have h1 : (s.setF Fld.BUR_STATUS_BUSY 1).Shown := h.setF
  exact h1.withBur rfl

theorem submit {i code tag args k} (h : s.Shown) (hk : ∀ {b t}, t.Shown → (k b t).Shown) :
    OutShown (.next (s.submit i code tag args k)) := by
  unfold State.submit
  extract_lets take s1 s2 _ _
  have htake {t b} (h : t.Shown) : (take t b).Shown := .ite (hk h) (h.same rfl)
  have h2 : s2.Shown := h.kept (Kept.refl.foldl fun h => h.setReg).setF.setF
  clear_value s2
  exact .next (.ite (.ite (htake h) (h.kept Kept.refl.flag)) (.ite (h2.kept Kept.refl.flag) (htake h2.rung)))

theorem sendBulk {r bytes results} (h : s.Shown) (hl : ResultsSpare results) : (s.sendBulk r bytes results).Shown :=
  (h.kept Kept.refl.setFeed.setRing).job_of hl

theorem takeIndex (h : s.Shown) : s.takeIndex.Shown := by
  unfold State.takeIndex
  extract_lets _ _ _ s1
  have h1 : s1.Shown := .ite (h.same rfl) h
  exact h1.kept Kept.refl.showKeys.keyLow

/-! ### Completion -/

theorem writeResults {l} (h : s.Shown) (hl : ResultsSpare l) : (s.writeResults l).Shown :=
  List.foldlRecOn l _ h fun _ ht e he => ht.setWord (hl e he)

/-- No command is in progress any longer. -/
theorem jobOver (h : s.Shown) : ({ s with bur := { s.bur with job := none, bulkIn := none } } : State).Shown :=
  ⟨h.shown, fun _ hk => nomatch hk⟩

theorem endCommand {status} (h : s.Shown) : (s.endCommand status).Shown := by
  unfold State.endCommand
  extract_lets s1 s2 _
  have h2 : s2.Shown := h.kept Kept.refl.setF.flag.setF.setF.setF
  exact h2.jobOver.kept Kept.refl.connect.pump

end State.Shown

/-- The payload of a command that ends has its effects, which leave the mode and the Bureau alone. -/
theorem State.jobEnds_kept {j t status} (h : s.jobEnds j = some (t, status)) : Kept s t := by
  unfold State.jobEnds at h; dsimp only at h
  split at h
  · split at h
    · cases h
      exact .refl
    · split at h
      · cases h
        exact .refl
      · cases h
  · split at h
    · cases h
      exact .refl
    · split at h
      · obtain rfl : _ = t := congrArg Prod.fst (Option.some.inj h)
        exact Kept.refl.importRecord_fst
      · split at h
        · cases h
        · cases h
          exact .refl

namespace State.Shown

theorem complete {peer} (h : s.Shown) : (s.complete peer).Shown := by
  unfold State.complete
  split
  · exact h
  · next j hj =>
    split
    · exact h
    · next t status ht =>
      extract_lets t1 t2 t3
      have h0 : t.Shown := h.kept (State.jobEnds_kept ht)
      have h1 : t1.Shown := .ite (h0.writeResults (h.job j hj)) h0
      have h2 : t2.Shown := by
        unfold t2
        split
        · exact .ite (h1.kept Kept.refl.commitSet) h1
        · exact h1
      exact (h2.kept Kept.refl.flagIf).endCommand

theorem haltBureau (h : s.Shown) : s.haltBureau.Shown := by
  unfold State.haltBureau
  extract_lets s1 _ _ s2
  have h1 : s1.Shown := by
    unfold s1
    split
    · refine endCommand ?_
      split
      · exact h.kept Kept.refl.setFeed.setRing
      · exact h
    · exact h
  clear_value s1
  have h2 : s2.Shown := h1.same rfl
  exact .ite (h2.kept Kept.refl.addSat.flag.resetBureauAgent) h

end State.Shown

/-! ### Calibration -/

/-- The worst residuals of a run are kept for the registers that show them. -/
def CalRun.Spare (a : CalRun) : Prop := ∀ e ∈ a.worst, e.1 ≠ Reg.DEV_MODE.base

theorem CalRun.count_worst {a : CalRun} {t passes} : (a.count t passes).worst = a.worst :=
  List.foldlRecOn _ _ (motive := fun b : CalRun => b.worst = a.worst) rfl fun _ hb _ _ => hb

theorem CalTarget.quality_ne {t : CalTarget} {r i : Nat} (h : t.quality = some (r, i)) : r ≠ Reg.DEV_MODE.base := by
  cases t <;> cases h <;> decide

theorem CalRun.Spare.residual {a : CalRun} {t res} (h : a.Spare) : (a.residual t res).Spare := by
  unfold CalRun.residual
  split
  · exact h
  · next r i hq =>
    have hr : r ≠ Reg.DEV_MODE.base := CalTarget.quality_ne hq
    split
    · intro e he
      rcases List.mem_append.mp he with he | he
      · exact h e he
      · rw [List.mem_singleton.mp he]
        exact hr
    · split
      · intro e he
        obtain ⟨x, hx, rfl⟩ := List.mem_map.mp he
        split
        · exact hr
        · exact h x hx
      · exact h

theorem CalRun.Spare.count {a : CalRun} {t passes} (h : a.Spare) : (a.count t passes).Spare := by
  unfold CalRun.Spare
  rw [CalRun.count_worst]
  exact h

theorem CalRun.Spare.runTarget {a : CalRun} {t vstd m} (h : a.Spare) : (s.runTarget a t vstd m).2.Spare := by
  cases t with
  | monitor n =>
    unfold State.runTarget; dsimp only
    split
    · exact h
    · exact h.count.residual
  | slice g sl => exact h.count
  | _ => exact h.count.residual

theorem CalRun.Spare.runTargets {a : CalRun} {vstd ts ms} (h : a.Spare) : (s.runTargets a vstd ts ms).2.Spare := by
  induction ts generalizing s a ms with
  | nil => exact h
  | cons t ts ih => exact ih h.runTarget

theorem CalRun.Spare.results {a : CalRun} (h : a.Spare) : ResultsSpare a.results := by
  intro e he
  simp only [CalRun.results, List.mem_append, List.mem_cons, List.not_mem_nil, or_false, List.mem_map] at he
  rcases he with (rfl | rfl) | ⟨x, hx, rfl⟩
  · exact (by decide : Reg.CAL_RUNCNT.base ≠ Reg.DEV_MODE.base)
  · exact (by decide : Reg.CAL_DIS_FIRST.base ≠ Reg.DEV_MODE.base)
  · exact h x hx

namespace State.Shown

theorem calRun {meas} (h : s.Shown) : (s.calRun meas).Shown := by
  unfold State.calRun
  extract_lets _ _ _ _ _ _ ts r groups t1 t2
  have h1 : t1.Shown := h.kept (Kept.refl.runTargets_fst.foldl fun h => h.refillMap).flag
  have hr : r.2.Spare := CalRun.Spare.runTargets fun _ he => nomatch he
  exact .ite h.answer ((h1.kept Kept.refl.flag).job_of hr.results)

theorem calCommit (h : s.Shown) : s.calCommit.Shown := by
  have hrefuse {status why} : (s.refuseCommit status why).Shown := (h.kept Kept.refl.setF).answer
  exact .ite hrefuse <| .ite hrefuse <| .ite hrefuse <| .ite h.answer <| h.takeIndex.job_of fun _ he => nomatch he

theorem calExport (h : s.Shown) : s.calExport.Shown := by
  unfold State.calExport; dsimp only
  refine .ite h.answer ?_
  split
  · refine .ite (h.sendBulk fun e he => ?_) h.answer
    simp only [List.mem_cons, List.not_mem_nil, or_false] at he
    rcases he with rfl | rfl
    · exact argIs_fst_ne _ _
    · exact (by decide : Reg.CAL_STORE.base ≠ Reg.DEV_MODE.base)
  · exact h.answer

theorem calImport (h : s.Shown) : s.calImport.Shown := by
  unfold State.calImport
  extract_lets _ _ _ s1
  have h1 : s1.Shown := h.same rfl
  have h2 : (s1.connect feedBur (downCode ((s.arg 0).bits 0 12))).Shown := h1.kept Kept.refl.connect
  exact .ite h.answer ((h2.job_of (j := { Job.init with need := _ }) fun _ he => nomatch he).kept Kept.refl.pump)

/-! ### Power -/

theorem enterLow {c} (h : s.Shown) : (s.enterLow c).Shown := by
  unfold State.enterLow
  extract_lets s1 s2 s3 s4 s5 _ s6
  have h2 : s2.Shown := h.kept Kept.refl.armWake.latchPins
  clear_value s2
  have h3 : s3.Shown := .ite h2 (h2.kept Kept.refl.stopConverting)
  clear_value s3
  have h4 : s4.Shown := .ite (h3.kept Kept.refl.writeHeld.flushRings.clearHeld.stopSensors) h3
  have h5 : s5.Shown := h4.toMode
  clear_value s5
  have h6 : s6.Shown := h5.same rfl
  split <;> exact h6.kept Kept.refl.addWrap

theorem exitLow (h : s.Shown) : s.exitLow.Shown := by
  unfold State.exitLow
  extract_lets _ _ _ _ s1 s2 s3 _ _ _ s4 s5 s6
  have h1 : s1.Shown := h.toMode
  clear_value s1
  have h3 : s3.Shown := h1.kept Kept.refl.armWake.flag.flagIf
  clear_value s3
  have h4 : s4.Shown := h3.same rfl
  clear_value s4
  have h5 : s5.Shown := .ite (h4.kept Kept.refl.dueOnReturn.startConverting) h4
  have h6 : s6.Shown := .ite (h5.kept Kept.refl.restartAz) h5
  exact h6.kept Kept.refl.pump

theorem nextEventUpdate {t peer} (h : s.Shown) : OutShown (execNextEventUpdate t peer s) := by
  have h1 : (s.updateNext t).Shown := h.kept Kept.refl.updateNext
  refine .ite (.next h) (.ite (.next ?_) (.ite (.next ?_) (.ite (.next (h1.kept Kept.refl.moveWake)) (.next h1))))
  · split
    · exact .ite (.ite h1.enterLow h1) (.ite (h1.kept Kept.refl.wakeOwn) h1)
    · exact h1
  · split
    · exact h1
    · split
      · exact h1.enterLow
      · exact h1

theorem powerStateExit {t} (h : s.Shown) : OutShown (execPowerStateExit t s) :=
  .ite (.next (h.kept Kept.refl.atTick).exitLow) (.next h)

/-! ### The peer's load -/

theorem peerLoadFails (h : s.Shown) : s.peerLoadFails.Shown :=
  .ite h.loadFail h

theorem setLink {good} (h : s.Shown) : (s.setLink good).Shown := by
  unfold State.setLink
  extract_lets _ s1 _ _ s2 s3
  have h1 : s1.Shown := h.kept (Kept.refl.foldl fun h => h.setB)
  have h3 : s3.Shown := h1.kept Kept.refl.setF.setB.flagIf
  exact .ite (h3.kept Kept.refl.resetTwinAgent).peerLoadFails h3

theorem bunkLinkTraining {eyes} (h : s.Shown) : OutShown (execBunkLinkTraining eyes s) := by
  have h1 : (eyes.zipIdx.foldl (fun s e => s.setF Fld.TWN_LANE_EYE (min e.1 255) e.2) s).Shown :=
    h.kept (Kept.refl.foldl fun h => h.setF)
  exact .ite .fault (.next (.ite (setLink (h1.same rfl)) h))

theorem linkDown (h : s.Shown) : OutShown (execLinkDown s) :=
  .next (.ite (h.setLink.kept Kept.refl.setB).peerLoadFails h)

/-! ### The commands -/

theorem getInfo (h : s.Shown) : s.getInfo.Shown := by
  unfold State.getInfo
  extract_lets _ _ _ base
  have hbase {n} : ResultsSpare (base ++ [argIs 5 n]) := by
    simp [ResultsSpare, base]
  exact .ite (h.answerOk hbase) (.ite h.answer (h.sendBulk hbase))

theorem setModeCmd (h : s.Shown) : s.setModeCmd.Shown := by
  have hwake : (if (s.arg 0).bits 0 4 = 5 then (s.wakeOwn 5).answer stOk else s.answer stRefused).Shown :=
    .ite (h.kept Kept.refl.wakeOwn).answer h.answer
  unfold State.setModeCmd; dsimp only
  refine .ite h.answer (.ite h.answer ?_)
  split
  · exact .ite h.goBench.answer h.answer
  · exact .ite h.goBench.answer h.goBlank.answer
  · exact .ite h.goBlank.answer h.answer
  · exact .ite h.answer (.ite h.goBlank.answer h.benchToRun.answer)
  · exact hwake
  · exact hwake
  · exact hwake
  · exact h.answer

theorem cfgBegin (h : s.Shown) : s.cfgBegin.Shown :=
  .ite h.answer h.goLoad.answer

theorem cfgAbort (h : s.Shown) : s.cfgAbort.Shown := by
  unfold State.cfgAbort; dsimp only
  refine .ite h.setF.setF.goBlank.answer ?_
  split
  · exact h.regionFail.answer
  · exact h.answer

theorem regionLoadBegin (h : s.Shown) : s.regionLoadBegin.Shown :=
  .ite h.answer (.ite h.answer h.regionBegin.answer)

theorem regionReleaseCmd (h : s.Shown) : s.regionReleaseCmd.Shown :=
  .ite h.answer (.ite h.answer h.regionRelease.answer)

theorem rotateNow (h : s.Shown) : s.rotateNow.Shown :=
  .ite h.answer (.ite h.answer (.ite h.answer (h.kept Kept.refl.setRot.rotDue).answer))

theorem chanAlloc (h : s.Shown) : s.chanAlloc.Shown := by
  unfold State.chanAlloc; dsimp only
  split
  · refine .ite h.answer ?_
    split
    · exact h.answer
    · exact (h.kept Kept.refl.allocChan).answerOk (by simp [ResultsSpare])
  · exact h.answer

theorem chanFree (h : s.Shown) : s.chanFree.Shown :=
  .ite h.answer (.ite (h.kept Kept.refl.freeChan).answer h.answer)

theorem ringAdmit {peer} (h : s.Shown) : (s.ringAdmit peer).Shown :=
  .ite ((h.kept Kept.refl.admitRing).answer.kept Kept.refl.pump) h.answer

theorem ringRetire (h : s.Shown) : s.ringRetire.Shown :=
  .ite ((h.kept Kept.refl.endRing).answer.kept Kept.refl.pump) h.answer

theorem attest (h : s.Shown) : s.attest.Shown := by
  unfold State.attest
  extract_lets
  exact .ite h.answer (.ite (h.kept Kept.refl.keyLow).answer (h.takeIndex.sendBulk (by simp [ResultsSpare])))

theorem blow {bits} (h : s.Shown) : (s.blow bits).Shown := by
  unfold State.blow
  extract_lets p _ _
  have h1 : ({ s with bur := { s.bur with nv := { s.bur.nv with policy := p } } } : State).Shown := h.same rfl
  exact h1.setWord (by decide)

theorem keyEnroll {good} (h : s.Shown) : (s.keyEnroll good).Shown := by
  have hslot {x} : ({ s with bur := { s.bur with nv := { s.bur.nv with slots := x } } } : State).Shown := h.same rfl
  exact .ite (.ite h.answer (.ite h.answer h.blow.answer)) (.ite h.answer (.ite h.answer hslot.blow.answer))

theorem policySet (h : s.Shown) : s.policySet.Shown := by
  unfold State.policySet
  extract_lets _ _ _ t
  have ht : t.Shown := .ite h.blow h
  exact ht.job_of (by simp [ResultsSpare])

theorem pairEnds {st} (h : s.Shown) : (s.pairEnds st).Shown :=
  h.job_of (by simp [ResultsSpare])

theorem twinPair {p} (h : s.Shown) : (s.twinPair p).Shown :=
  pairEnds (.ite (h.kept Kept.refl.pair) h)

theorem twinSplit (h : s.Shown) : s.twinSplit.Shown :=
  .ite (h.kept Kept.refl.split).answer h.answer

theorem pwrCeiling (h : s.Shown) : s.pwrCeiling.Shown := by
  unfold State.pwrCeiling
  extract_lets c old s1
  have h1 : s1.Shown := h.kept Kept.refl.setF
  exact .ite h.answer (answerOk (.ite (h1.kept Kept.refl.wakeOwn) h1) (by simp [ResultsSpare]))

/-! The taking of each, which a command that waited may need. -/

theorem takeGetInfo {own} (h : s.Shown) : (s.takeGetInfo own).Shown := h.judged getInfo

theorem takeSetMode {own} (h : s.Shown) : (s.takeSetMode own).Shown := h.judged setModeCmd

theorem takeGetMode {own} (h : s.Shown) : (s.takeGetMode own).Shown :=
  h.judged fun h => h.answerOk (by simp [ResultsSpare])

theorem takeCfgBegin {own} (h : s.Shown) : (s.takeCfgBegin own).Shown := h.judged cfgBegin

theorem takeCfgAbort {own} (h : s.Shown) : (s.takeCfgAbort own).Shown := h.judged cfgAbort

theorem takeCfgStatus {own} (h : s.Shown) : (s.takeCfgStatus own).Shown :=
  h.judged fun h => h.answerOk (by simp [ResultsSpare])

theorem takeRegionLoadBegin {own} (h : s.Shown) : (s.takeRegionLoadBegin own).Shown := h.judged regionLoadBegin

theorem takeRegionRelease {own} (h : s.Shown) : (s.takeRegionRelease own).Shown := h.judged regionReleaseCmd

theorem takeCalRun {own meas} (h : s.Shown) : (s.takeCalRun own meas).Shown := h.judged calRun

theorem takeCalCommit {own} (h : s.Shown) : (s.takeCalCommit own).Shown := h.judged calCommit

theorem takeCalExport {own} (h : s.Shown) : (s.takeCalExport own).Shown := h.judged calExport

theorem takeCalImport {own} (h : s.Shown) : (s.takeCalImport own).Shown := h.judged calImport

theorem takeRotateNow {own} (h : s.Shown) : (s.takeRotateNow own).Shown := h.judged rotateNow

theorem takeChanAlloc {own} (h : s.Shown) : (s.takeChanAlloc own).Shown := h.judged chanAlloc

theorem takeChanFree {own} (h : s.Shown) : (s.takeChanFree own).Shown := h.judged chanFree

theorem takeRingAdmit {own peer} (h : s.Shown) : (s.takeRingAdmit own peer).Shown := h.judged ringAdmit

theorem takeRingRetire {own} (h : s.Shown) : (s.takeRingRetire own).Shown := h.judged ringRetire

theorem takeAttest {own} (h : s.Shown) : (s.takeAttest own).Shown := h.judged attest

theorem takeKeyEnroll {own good} (h : s.Shown) : (s.takeKeyEnroll own good).Shown := h.judged keyEnroll

theorem takePolicySet {own} (h : s.Shown) : (s.takePolicySet own).Shown := h.judged policySet

theorem takeTwinPair {own p} (h : s.Shown) : (s.takeTwinPair own p).Shown :=
  h.judged fun h => .ite h.pairEnds h.twinPair

theorem takeTwinSplit {own} (h : s.Shown) : (s.takeTwinSplit own).Shown := h.judged twinSplit

theorem takePwrCeiling {own} (h : s.Shown) : (s.takePwrCeiling own).Shown := h.judged pwrCeiling

theorem takeWaiting {i} (h : s.Shown) : (s.takeWaiting i).Shown := by
  unfold State.takeWaiting; dsimp only
  split
  · exact h.takeGetInfo
  · exact h.takeSetMode
  · exact h.takeGetMode
  · exact h.takeCfgBegin
  · exact h.takeCfgAbort
  · exact h.takeCfgStatus
  · exact h.takeRegionLoadBegin
  · exact h.takeRegionRelease
  · exact h.takeCalRun
  · exact h.takeCalCommit
  · exact h.takeCalExport
  · exact h.takeCalImport
  · exact h.takeRotateNow
  · exact h.takeChanAlloc
  · exact h.takeChanFree
  · exact h.takeRingAdmit
  · exact h.takeRingRetire
  · exact h.takeAttest
  · exact h.takeKeyEnroll
  · exact h.takePolicySet
  · exact h.takeTwinPair
  · exact h.takeTwinSplit
  · exact h.takePwrCeiling
  · exact h.answer
  · exact h

theorem twinPairHere {tag args p there} (h : s.Shown) : OutShown (execTwinPair tag args p there s) := by
  unfold execTwinPair
  split
  · exact h.submit fun h => h.takeTwinPair
  · exact .next (.ite (h.kept Kept.refl.pair) h)

theorem twinSplitHere {tag args there} (h : s.Shown) : OutShown (execTwinSplit tag args there s) := by
  unfold execTwinSplit
  split
  · exact h.submit fun h => h.takeTwinSplit
  · exact .next (.ite (.ite (h.kept Kept.refl.split) (h.kept Kept.refl.split.setF)) h)

theorem resumeBureau {err} (h : s.Shown) : (s.resumeBureau err).Shown := by
  unfold State.resumeBureau
  extract_lets _ s1 s2 _
  have hdead : ({ s with bur := { s.bur with dead := true } } : State).Shown := h.same rfl
  have h2 : s2.Shown := h.running.kept Kept.refl.showKeys.keyLow.busUpdates.resumeTrigger
  clear_value s2
  refine .ite h (.ite (hdead.kept Kept.refl.setF.setF) ?_)
  split
  · next i _ =>
    have h3 : ({ s2 with bur := { s2.bur with waiting := none } } : State).Shown := h2.withBur rfl
    exact h3.takeWaiting
  · exact h2

/-! ## The host's accesses -/

theorem applyAccess {x mirror} (h : s.Shown) : (s.applyAccess x mirror).Shown := by
  unfold State.applyAccess
  extract_lets t _ u
  have ht : t.Shown := h.kept (.ite Kept.refl.writeWords Kept.refl.readWords)
  have hu : u.Shown := .ite (ht.withBur rfl) ht
  exact hu.kept Kept.refl.afterAccess

theorem releaseHeld (h : s.Shown) : s.releaseHeld.Shown := by
  have h1 : ({ s with host := { s.host with held := [] } } : State).Shown := h.same rfl
  exact h1.foldl fun h => .ite (h.kept Kept.refl.holdAccess) h.applyAccess

theorem performAccess {x mirror} (h : s.Shown) : (s.performAccess x mirror).Shown := by
  unfold State.performAccess
  extract_lets s1
  have h1 : s1.Shown := .ite h.releaseHeld h
  exact .ite (h1.kept Kept.refl.holdAccess) h1.applyAccess

theorem standbyWrite {x} (h : s.Shown) : (s.standbyWrite x).Shown :=
  h.foldl fun h => .ite (h.kept Kept.refl.flag) h.performAccess

theorem deliverAccess {x} (h : s.Shown) : (s.deliverAccess x).Shown := by
  unfold State.deliverAccess
  extract_lets s1
  have hc {c} : (s.completes c).Shown := h.kept Kept.refl.completes
  have h1 : s1.Shown := .ite h hc
  exact .ite (.ite h.standbyWrite (.ite hc h.performAccess)) (.ite (h1.same rfl) h.performAccess)

theorem hostAccess {x} (h : s.Shown) : (s.hostAccess x).Shown :=
  .ite (h.kept Kept.refl.noFunction) <| .ite (h.kept Kept.refl.completes) <|
    .ite (h.kept (Kept.refl.flagOf (by rfl)).refuseRequest) <| .ite (h.kept Kept.refl.aer) h.deliverAccess

theorem forwardedWrite {tick peer} (h : s.Shown) : OutShown (execForwardedWrite tick peer s) := by
  unfold execForwardedWrite
  extract_lets s1 run _
  have h1 : s1.Shown := h.kept Kept.refl.atAccess
  have hrun {t x m} (h : t.Shown) : (run t x m).Shown := .ite (h.performAccess.kept Kept.refl.addWrap) h.performAccess
  refine .ite .fault (.next ?_)
  split
  · exact hrun h1
  · exact h1
  · exact .ite (hrun (h1.kept Kept.refl.withTwin)) h1
  · exact h1

theorem clockStopped {k} (h : s.Shown) : OutShown (execClockStopped k s) :=
  .inst (.next (h.kept Kept.refl.withHost).releaseHeld)

/-! ## The scrubber -/

theorem quarantine {k fa} (h : s.Shown) : (s.quarantine k fa).Shown := by
  unfold State.quarantine
  extract_lets s1 s2 s3 _ s4
  have h2 : s2.Shown := h.kept (Kept.ite Kept.refl Kept.refl.flag.setF).flag
  clear_value s2
  have h3 : s3.Shown := h2.kept Kept.refl.stopPorts.isolate.setCbState
  have h4 : s4.Shown := .ite (h3.kept Kept.refl.setMeas).endPartial h2
  exact h4.kept Kept.refl.scrubEvent

theorem corrected {k} (h : s.Shown) : (s.corrected k).Shown := by
  unfold State.corrected
  extract_lets s1 _
  have h1 : s1.Shown := h.kept Kept.refl.addSat.flag
  have h2 : ({ s1 with bur := { s1.bur with corrections := s1.bur.corrections + 1 } } : State).Shown := h1.withBur rfl
  exact h2.kept Kept.refl.scrubEvent

theorem storeFrame {fa ws check} (h : s.Shown) : (s.storeFrame fa ws check).Shown := by
  have h1 : (ws.zipIdx.foldl (fun s e => s.setFrameWord fa e.2 e.1) s).Shown := h.foldl fun h => h.same rfl
  exact h1.same rfl

theorem checkFrame {fa l} (h : s.Shown) : (s.checkFrame fa l).Shown := by
  unfold State.checkFrame; dsimp only
  have h1 : (s.setF Fld.SCRB_POS fa).Shown := h.setF
  split
  · split
    · exact h1
    · exact h1.kept Kept.refl.addSat
    · exact h1.kept Kept.refl.addSat
  · split
    · exact h1.storeFrame
    · exact h1.storeFrame.corrected
    · exact h1.storeFrame.quarantine

theorem scrubFrameCheck {flips} (h : s.Shown) : OutShown (execScrubFrameCheck flips s) := by
  unfold execScrubFrameCheck
  extract_lets s1 _
  have h1 : s1.Shown := h.kept Kept.refl.withVoted
  refine .ite .fault (.next ?_)
  split
  · exact h1
  · exact .ite (h1.kept Kept.refl.rereadFrame) (h1.checkFrame.kept Kept.refl.scrubOn)

end State.Shown

/-! ## Every command -/

theorem State.Shown.rotationCheck (h : s.Shown) : OutShown (execRotationCheck s) := by
  unfold execRotationCheck
  extract_lets _ s1 s2
  have h1 : s1.Shown := h.same rfl
  clear_value s1
  have h2 : s2.Shown := h1.kept (Kept.refl.foldl fun h => h.rotCheck)
  exact .next (.ite (.ite (h2.kept Kept.refl.trigger) h2) h1)

theorem exec_shown {i : Instr} (h : s.Shown) : OutShown (exec i s) := by
  have k : Kept s s := .refl
  cases i with
  | powerOn => exact .next .goReset
  | porstNAssert => exact .next (.ite h .goReset)
  | porstNRelease => exact h.out (execPorstNRelease_kept k)
  | bureauBootComplete => exact .ite .fault (.next (.ite h.bootEnds h))
  | brownOut => exact .next .goReset
  | autonomousBoot => exact h.autonomousBoot
  | perstNAssert => exact h.out (execPerstNAssert_kept k)
  | perstNRelease => exact h.out (execPerstNRelease_kept k)
  | linkTraining => exact h.out (execLinkTraining_kept k)
  | functionLevelReset => exact h.out (execFunctionLevelReset_kept k)
  | configRequest => exact h.out (execConfigRequest_kept k)
  | watchdogExpiry => exact .next h.haltBureau
  | sramUncorrectableError => exact .next h.haltBureau
  | getInfo => exact h.submit fun h => h.takeGetInfo
  | setMode => exact h.submit fun h => h.takeSetMode
  | getMode => exact h.submit fun h => h.takeGetMode
  | cfgBegin => exact h.submit fun h => h.takeCfgBegin
  | cfgAbort => exact h.submit fun h => h.takeCfgAbort
  | cfgStatus => exact h.submit fun h => h.takeCfgStatus
  | regionLoadBegin => exact h.submit fun h => h.takeRegionLoadBegin
  | regionRelease => exact h.submit fun h => h.takeRegionRelease
  | calRun => exact h.submit fun h => h.takeCalRun
  | calCommit => exact h.submit fun h => h.takeCalCommit
  | calExport => exact h.submit fun h => h.takeCalExport
  | calImport => exact h.submit fun h => h.takeCalImport
  | rotateNow => exact h.submit fun h => h.takeRotateNow
  | chanAlloc => exact h.submit fun h => h.takeChanAlloc
  | chanFree => exact h.submit fun h => h.takeChanFree
  | ringAdmit => exact h.submit fun h => h.takeRingAdmit
  | ringRetire => exact h.submit fun h => h.takeRingRetire
  | attest => exact h.submit fun h => h.takeAttest
  | keyEnroll => exact h.submit fun h => h.takeKeyEnroll
  | policySet => exact h.submit fun h => h.takePolicySet
  | twinPair => exact h.twinPairHere
  | twinSplit => exact h.twinSplitHere
  | pwrCeiling => exact h.submit fun h => h.takePwrCeiling
  | commandComplete => exact .next (.ite h.complete h)
  | random => exact h.out (execRandom_kept k)
  | digestRequest => exact h.out (execDigestRequest_kept k)
  | claimLow => exact h.out (execClaimLow_kept k)
  | claimHigh => exact h.out (execClaimHigh_kept k)
  | bar4Write => exact h.out (execBar4Write_kept k)
  | twinStreamWord => exact h.out (execTwinStreamWord_kept k)
  | preambleWord => exact h.runUnit
  | syncWord => exact h.runUnit
  | device => exact h.runUnit
  | frames => exact h.runUnit
  | frame => exact h.runUnit
  | analogEntry => exact h.runUnit
  | startup => exact h.runUnit
  | digest => exact h.runUnit
  | signature => exact h.runUnit
  | signatureVerification => exact h.signatureVerification
  | endRecord => exact h.runUnit
  | region => exact h.runUnit
  | verify => exact .next (.ite h.verifyLoad h)
  | referenceWait => exact .next (.ite h.finishLoad h)
  | refTmo => exact .next (.ite (h.kept (Kept.refl.flagOf (by rfl))).finishLoad h)
  | regionStreamStart => exact h.out (execRegionStreamStart_kept k)
  | regionVerify => exact h.regionVerify
  | scrubPassStart => exact h.out (execScrubPassStart_kept k)
  | scrubFrameCheck => exact h.scrubFrameCheck
  | voteRepair => exact h.out (execVoteRepair_kept k)
  | pllLockLoss => exact h.out (execPllLockLoss_kept k)
  | pllRelock => exact h.out (execPllRelock_kept k)
  | smpclkStamp => exact h.out (execSmpclkStamp_kept k)
  | smpclkStall => exact h.out (execSmpclkStall_kept k)
  | prEdge => exact h.out (execPrEdge_kept k)
  | prIndexEdge => exact h.out (execPrIndexEdge_kept k)
  | edgeProcessing => exact h.out (execEdgeProcessing_kept k)
  | coastEntry => exact h.out (execCoastEntry_kept k)
  | coastLimit => exact h.out (execCoastLimit_kept k)
  | prEnable => exact h.out (execPrEnable_kept k)
  | prSnap => exact h.out (execPrSnap_kept k)
  | lcsTimeSnap => exact h.out (execLcsTimeSnap_kept k)
  | paEnable => exact h.out (execPaEnable_kept k)
  | alarmFiring => exact h.out (execAlarmFiring_kept k)
  | timerStart => exact h.out (execTimerStart_kept k)
  | timerExpiry => exact h.out (execTimerExpiry_kept k)
  | firingRecord => exact h.out (execFiringRecord_kept k)
  | seqStart => exact h.out (execSeqStart_kept k)
  | urgent => exact h.out (execUrgent_kept k)
  | mark => exact h.out (execMark_kept k)
  | rsInstant => exact h.out (execRsInstant_kept k)
  | segStart => exact h.out (execSegStart_kept k)
  | blankOpen => exact h.out (execBlankOpen_kept k)
  | blankClose => exact h.out (execBlankClose_kept k)
  | event => exact h.out (execEvent_kept k)
  | doorbell => exact h.out (execDoorbell_kept k)
  | wakeFiring => exact h.out (execWake_kept k)
  | irq => exact h.out (execIrq_kept k)
  | periodClear => exact h.out (execPeriodClear_kept k)
  | captureEdge => exact h.out (execCaptureEdge_kept k)
  | capPop => exact h.out (execCapPop_kept k)
  | nextEventUpdate => exact h.nextEventUpdate
  | selfWake => exact h.out (execSelfWake_kept k)
  | powerStateEntry => exact h.out (execPowerStateEntry_kept k)
  | powerStateExit => exact h.powerStateExit
  | tempConversion => exact h.out (execTempConversion_kept k)
  | cgEnable => exact h.out (execCgEnable_kept k)
  | cgDisable => exact h.out (execCgDisable_kept k)
  | cgGo => exact h.out (execCgGo_kept k)
  | cgStop => exact h.out (execCgStop_kept k)
  | fabricRequest => exact h.out (execFabricRequest_kept k)
  | settleEnd => exact h.out (execSettleEnd_kept k)
  | dwellComplete => exact h.out (execDwellComplete_kept k)
  | urgentDwellComplete => exact h.out (execUrgentDwellComplete_kept k)
  | cgCntSnap => exact h.out (execCgCntSnap_kept k)
  | elogPop => exact h.out (execElogPop_kept k)
  | windowComparatorFire => exact h.out (execWindowComparatorFire_kept k)
  | refSettled => exact h.out (execRefSettled_kept k)
  | refFault => exact h.out (execRefFault_kept k)
  | rotationCheck => exact h.rotationCheck
  | overlapStart => exact h.out (execOverlapStart_kept k)
  | handoverTest => exact h.out (execHandoverTest_kept k)
  | sliceCalibration => exact h.out (execSliceCalibration_kept k)
  | estimatorBlock => exact h.out (execEstimatorBlock_kept k)
  | azBoundary => exact h.out (execAzBoundary_kept k)
  | azSwap => exact h.out (execAzSwap_kept k)
  | rst => exact h.out (execRst_kept k)
  | portOverload => exact h.out (execPortOverload_kept k)
  | cellSaturation => exact h.out (execCellSaturation_kept k)
  | matrixWrite => exact h.out (execMatrixWrite_kept k)
  | fcEnable => exact h.out (execFcEnable_kept k)
  | sourceWrite => exact h.out (execSourceWrite_kept k)
  | bank => exact h.out (execBank_kept k)
  | xfadeStart => exact h.out (execXfadeStart_kept k)
  | xfDone => exact h.out (execXfDone_kept k)
  | fcCntSnap => exact h.out (execFcCntSnap_kept k)
  | gapPop => exact h.out (execGapPop_kept k)
  | cdata => exact h.out (execCdata_kept k)
  | incCommit => exact h.out (execIncCommit_kept k)
  | slot => exact h.out (execSlot_kept k)
  | tlogPop => exact h.out (execTlogPop_kept k)
  | detWindowClose => exact h.out (execDetWindowClose_kept k)
  | wmEnable => exact h.out (execWmEnable_kept k)
  | wmPowerUp => exact h.out (execWmPowerUp_kept k)
  | wmConditionWrite => exact h.out (execWmConditionWrite_kept k)
  | wmSettle => exact h.out (execWmSettle_kept k)
  | wmDisable => exact h.out (execWmDisable_kept k)
  | comparatorEdge => exact h.out (execComparatorEdge_kept k)
  | wmResolve => exact h.out (execWmResolve_kept k)
  | edgeDelivery => exact h.out (execEdgeDelivery_kept k)
  | daGo => exact h.out (execDaGo_kept k)
  | daStop => exact h.out (execDaStop_kept k)
  | daEnable => exact h.out (execDaEnable_kept k)
  | segmentEnd => exact h.out (execSegmentEnd_kept k)
  | underrun => exact h.out (execUnderrun_kept k)
  | pdata => exact h.out (execPdata_kept k)
  | clkenWrite => exact h.out (execClkenWrite_kept k)
  | fpllMWrite => exact h.out (execFpllMWrite_kept k)
  | fpllLock => exact h.out (execFpllLock_kept k)
  | peekData => exact h.out (execPeekData_kept k)
  | fpInputWord => exact h.out (execFpInputWord_kept k)
  | fpInputGroupTake => exact h.out (execFpInputGroupTake_kept k)
  | fpOutputWord => exact h.out (execFpOutputWord_kept k)
  | agentPost => exact h.out (execAgentPost_kept k)
  | agentTake => exact h.out (execAgentTake_kept k)
  | agentDbclr => exact h.out (execAgentDbclr_kept k)
  | vccioChange => exact h.out (execVccioChange_kept k)
  | dioPinCfgWrite => exact h.out (execDioPinCfgWrite_kept k)
  | dmaPdirLo => exact h.out (execDmaPdirLo_kept k)
  | dmaPdirHi => exact h.out (execDmaPdirHi_kept k)
  | tailWrite => exact h.out (execTailWrite_kept k)
  | headWrite => exact h.out (execHeadWrite_kept k)
  | ringWord => exact h.out (execRingWord_kept k)
  | ageClose => exact h.out (execAgeClose_kept k)
  | blockWrite => exact h.out (execBlockWrite_kept k)
  | blkHold => exact h.out (execBlkHold_kept k)
  | dmaSnap => exact h.out (execDmaSnap_kept k)
  | ringFetch => exact h.out (execRingFetch_kept k)
  | fetchCompletion => exact h.out (execFetchCompletion_kept k)
  | completionTimeout => exact h.out (execCompletionTimeout_kept k)
  | msgPost => exact h.out (execMsgPost_kept k)
  | msgTake => exact h.out (execMsgTake_kept k)
  | dbSet => exact h.out (execDbSet_kept k)
  | dbClr => exact h.out (execDbClr_kept k)
  | channelTimeout => exact h.out (execChannelTimeout_kept k)
  | msixMessage => exact h.out (execMsixMessage_kept k)
  | clockStopped => exact h.clockStopped
  | rcRead => exact .ite (.next (h.kept Kept.refl.atAccess).hostAccess) .fault
  | registerWrite => exact .ite (.next (h.kept Kept.refl.atAccess).hostAccess) .fault
  | heartbeat => exact h.out (execHeartbeat_kept k)
  | heartbeatLoss => exact h.out (execHeartbeatLoss_kept k)
  | primaryPllLoss => exact h.out (execPrimaryPllLoss_kept k)
  | fenced => exact h.out (execFenced_kept k)
  | twinCompare => exact h.out (execTwinCompare_kept k)
  | forwardedWrite => exact h.forwardedWrite
  | laneErrorBurst => exact h.out (execLaneErrorBurst_kept k)
  | linkDown => exact h.linkDown
  | jtagInstruction => exact h.out (execJtagInstruction_kept k)
  | jtagReset => exact h.out (execJtagReset_kept k)
  | pllLock => exact h.out (execPllLock_kept k)
  | refqWindowReturn => exact h.out (execRefqWindowReturn_kept k)
  | pcieLinkDown => exact h.out (execPcieLinkDown_kept k)
  | unknownCommandCode => exact .ite .fault (h.submit fun h => h.answer)
  | unknownSecureOp => exact h.out (execUnknownSecureOp_kept k)
  | firmwareResume => exact .ite .fault (.next h.resumeBureau)
  | bunkLinkTraining => exact h.bunkLinkTraining
  | wakeNRelease => exact h.out (execWakeNRelease_kept k)
  | flrComplete => exact h.out (execFlrComplete_kept k)
  | autoZeroTrim => exact h.out (execAutoZeroTrim_kept k)
  | conversionBeat => exact h.out (execConversionBeat_kept k)
  | chainOutput => exact h.out (execChainOutput_kept k)
  | dacSample => exact h.out (execDacSample_kept k)
  | cellClock => exact h.out (execCellClock_kept k)
  | probeSample => exact h.out (execProbeSample_kept k)
  | fcDisable => exact h.out (execFcDisable_kept k)
  | timerDisable => exact h.out (execTimerDisable_kept k)

/-- Settles O8, gathered over every command: most keep the mode and the fields of DEV_MODE, and those that do not show the mode
that they enter. -/
theorem modeRegisterShowsMode : Obligations.ModeRegisterShowsMode := by
  unfold Obligations.ModeRegisterShowsMode
  intro s t hs ht
  have h : s.Shown := (State.shown_iff s).mpr hs
  refine (State.shown_iff t).mp ?_
  cases hp : s.pending with
  | nil =>
    rw [step_of_idle hp] at ht
    cases ht
    exact h
  | cons c rest =>
    rw [step_of_pending hp] at ht
    have hrest : ({ s with pending := rest } : State).Shown := h.same rfl
    exact exec_shown hrest t ht

end

end Sys2Proof.Machine
end

/-!
# Reset (O9)
-/

section
namespace Sys2Proof.Machine

/-! ## A table that is rewritten entry by entry -/

/-- A number at or below the ones listed has its default. -/
theorem Tab.get_of_rising {α : Type} {d : Nat → α} {t : Tab α} {a k : Nat} (h : Tab.rising (some a) t = true)
    (hk : k ≤ a) :
    Tab.get d t k = d k := by
  induction t generalizing a with
  | nil => rfl
  | cons e t ih =>
    obtain ⟨b, v⟩ := e
    simp only [Tab.rising, Bool.and_eq_true, decide_eq_true_eq] at h
    obtain ⟨hab, ht⟩ := h
    rw [Tab.get_cons, if_neg (by omega)]
    exact ih ht (by omega)

/-- Where `f` makes `g k v` of an entry `(k, v)`, and leaves it out where that is the default, every entry becomes what
`g` makes of it. -/
theorem Tab.get_filterMap {α β : Type} {d : Nat → α} {d' : Nat → β} {f : Nat × α → Option (Nat × β)}
    {g : Nat → α → β}
    (hf : ∀ k v, f (k, v) = some (k, g k v) ∨ (f (k, v) = none ∧ g k v = d' k)) (hd : ∀ k, g k (d k) = d' k)
    {t : Tab α} {o : Option Nat} (ht : Tab.rising o t = true) (k : Nat) : Tab.get d' (t.filterMap f) k = g k (Tab.get d t k) := by
  induction t generalizing o with
  | nil => exact (hd k).symm
  | cons e t ih =>
    obtain ⟨a, v⟩ := e
    simp only [Tab.rising, Bool.and_eq_true] at ht
    obtain ⟨-, ht⟩ := ht
    rw [Tab.get_cons]
    rcases hf a v with h | ⟨h, hv⟩
    · rw [List.filterMap_cons_some h, Tab.get_cons]
      split
      · next hk => rw [hk]
      · exact ih ht
    · rw [List.filterMap_cons_none h, ih ht]
      split
      · next hk => rw [← hk, Tab.get_of_rising ht le_rfl, hd, hv]
      · rfl

/-! ## What every reset leaves -/

section
variable {s : State} {cause : Nat} {held : Bool}

theorem State.goReset_cause (h : cause < 16) : (s.goReset cause held).f Fld.DEV_MODE_CAUSE = cause := by
  unfold State.goReset
  rw [State.f_setF _ _ _ _ _ (by decide)]
  exact Nat.mod_eq_of_lt h

theorem State.goReset_unheld (h : cause < 16) :
    (s.goReset cause false).mode = .reset ∧ (s.goReset cause false).f Fld.DEV_MODE_CAUSE = cause ∧
      (s.goReset cause false).part = s.part ∧ (s.goReset cause false).bur.nv = s.bur.nv ∧
      (s.goReset cause false).cal.store = s.cal.store ∧ (s.goReset cause false).bur.running = false ∧
      (s.goReset cause false).lcs = Longcase.init ∧ (s.goReset cause false).rings = [] ∧
      (s.goReset cause false).chans = [] ∧ (s.goReset cause false).cabs = [] ∧ (s.goReset cause false).groups = [] ∧
      (s.goReset cause false).frames = [] ∧ (s.goReset cause false).pending = s.pending :=
  ⟨rfl, State.goReset_cause h, rfl, rfl, rfl, rfl, rfl, rfl, rfl, rfl, rfl, rfl, rfl⟩

/-! ## What PORST_N leaves while the supplies hold -/

/-- The reset writes DEV_MODE and what the DIO banks' supplies show; every other register is as PORST_N leaves it. -/
theorem State.word_goReset_held {a : Nat} (ha : Reg.DEV_MODE.base < a) (hv : a < Reg.DIO_BANK_STAT.base) :
    (s.goReset cause true).word a = s.heldMemories.word a := by
  have hout (t : State) : (s.keepOutside t).word a = t.word a := by
    refine List.foldlRecOn (motive := fun u : State => u.word a = t.word a) _ _ rfl fun u hu b _ => ?_
    have hb : Fld.DIO_BANK_STAT_VOK.addr b 0 ≠ a :=
      (Nat.lt_of_lt_of_le hv (by simp [FieldRef.addr, Fld.DIO_BANK_STAT_VOK, Reg.DIO_BANK_STAT])).ne'
    rw [State.setB, State.word_setF, if_neg hb, hu]
  unfold State.goReset
  extract_lets t _ u
  rw [State.word_setF, if_neg (show Fld.DEV_MODE_CAUSE.addr 0 0 ≠ a from ha.ne)]
  have hu : u.regs = t.regs := rfl
  have ht : t.word a = s.heldMemories.word a := hout _
  rw [State.word, hu]
  exact ht

theorem heldWord_resetAt (a : Nat) : heldWord a (RegMap.resetAt a) = RegMap.resetAt a := by
  unfold heldWord
  split
  · rfl
  · refine BitVec.eq_of_getLsbD_eq fun i hi => ?_
    simp only [BitVec.getLsbD_or, BitVec.getLsbD_and, BitVec.getLsbD_not, hi, decide_true, Bool.true_and]
    cases (calMask a).getLsbD i <;> simp

theorem State.word_heldMemories_of_wf (hs : Tab.wf RegMap.resetAt s.regs = true) (a : Nat) :
    s.heldMemories.word a = heldWord a (s.word a) := by
  refine Tab.get_filterMap (g := heldWord) (fun k v => ?_) heldWord_resetAt (Bool.and_eq_true_iff.mp hs).1 a
  dsimp only
  split
  · exact .inr ⟨rfl, ‹_›⟩
  · exact .inl rfl

/-- The bits of the CAL fields are left. -/
theorem heldWord_and_calMask (a : Nat) (w : Word) : heldWord a w &&& calMask a = w &&& calMask a := by
  unfold heldWord
  split
  · rfl
  · refine BitVec.eq_of_getLsbD_eq fun i hi => ?_
    simp only [BitVec.getLsbD_or, BitVec.getLsbD_and, BitVec.getLsbD_not, hi, decide_true, Bool.true_and]
    cases (calMask a).getLsbD i <;> simp

theorem State.store_heldMemories (hs : Tab.wf (fun _ => Chain.init) s.chains = true) (n : Nat) :
    (s.heldMemories.chain n).store = (s.chain n).store := by
  have h : s.heldMemories.chain n = { Chain.init with store := (s.chain n).store } := by
    refine Tab.get_filterMap (d := fun _ => Chain.init) (g := fun _ c => { Chain.init with store := c.store })
      (fun k v => ?_) (fun _ => rfl) (Bool.and_eq_true_iff.mp hs).1 n
    dsimp only
    split
    · next h => exact .inr ⟨rfl, by rw [h]; rfl⟩
    · exact .inl rfl
  rw [h]

theorem State.pattern_heldMemories (hs : Tab.wf (fun _ => Dac.init) s.dacs = true) (d : Nat) :
    (s.heldMemories.dac d).pattern = (s.dac d).pattern := by
  have h : s.heldMemories.dac d = { Dac.init with pattern := (s.dac d).pattern } := by
    refine Tab.get_filterMap (d := fun _ => Dac.init) (g := fun _ x => { Dac.init with pattern := x.pattern })
      (fun k v => ?_) (fun _ => rfl) (Bool.and_eq_true_iff.mp hs).1 d
    dsimp only
    split
    · next h => exact .inr ⟨rfl, by rw [h]; rfl⟩
    · exact .inl rfl
  rw [h]

/-- A coefficient memory is left. -/
theorem State.coef_goReset (hs : Tab.wf RegMap.resetAt s.regs = true) {n a : Nat} (hn : n < 48) (ha : a < 128) :
    (s.goReset cause true).word (Reg.FC_COEFA.addr n a) = s.word (Reg.FC_COEFA.addr n a) := by
  have haddr : Reg.FC_COEFA.addr n a = 0x200800 + n * 0x1000 + a * 4 := rfl
  have hcoef : coefReg (Reg.FC_COEFA.addr n a) = true := by
    rw [haddr, coefReg, decide_eq_true_eq]
    omega
  rw [State.word_goReset_held (by rw [haddr, show Reg.DEV_MODE.base = 16 from rfl]; omega)
    (by rw [haddr, show Reg.DIO_BANK_STAT.base = 0x680420 from rfl]; omega),
      State.word_heldMemories_of_wf hs, heldWord, if_pos hcoef]

/-- A monitor's working trim is left. -/
theorem State.wmTrim_goReset (hs : Tab.wf RegMap.resetAt s.regs = true) {n : Nat} (hn : n < 48) :
    (s.goReset cause true).f Fld.WM_TRIM_OFS_U n = s.f Fld.WM_TRIM_OFS_U n := by
  have haddr : Fld.WM_TRIM_OFS_U.addr n 0 = 0x50000C + n * 0x40 + 0 * 0 := rfl
  have hmask : calMask (Fld.WM_TRIM_OFS_U.addr n 0) = 0x00FF00FF := by
    rw [haddr, calMask, if_neg (by omega), if_neg (by omega), if_neg (by omega), if_pos (by omega), if_pos (by omega)]
  rw [State.f, State.word_goReset_held (by rw [haddr, show Reg.DEV_MODE.base = 16 from rfl]; omega)
    (by rw [haddr, show Reg.DIO_BANK_STAT.base = 0x680420 from rfl]; omega), State.word_heldMemories_of_wf hs, State.f]
  refine bits_congr (heldWord_and_calMask _ _) ?_
  rw [hmask]
  decide

end

/-- Settles O9: `State.goReset` field by field; what PORST_N leaves is looked up in the tables that `State.heldMemories`
rewrites. -/
theorem resetEntries : Obligations.ResetEntries := by
  refine ⟨fun s => ⟨_, rfl, State.goReset_unheld (by decide)⟩, fun s => ⟨_, rfl, State.goReset_unheld (by decide)⟩,
    fun s n d a hchains hdacs hregs hn ha hmode => ?_, fun s hmode hporst => ⟨s, ?_, rfl⟩⟩
  · refine ⟨s.goReset 1 true, ?_, rfl, State.goReset_cause (by decide), rfl, State.store_heldMemories hchains n,
      State.pattern_heldMemories hdacs d, State.coef_goReset hregs hn ha, rfl, State.wmTrim_goReset hregs hn, rfl, rfl, rfl, rfl,
      rfl, rfl, rfl, rfl, rfl, rfl⟩
    rw [exec, execPorstNAssert, if_neg]
    rintro ⟨h, h'⟩
    rcases hmode with hm | hp
    · exact hm h
    · simp [hp] at h'
  · simp [exec, execPorstNAssert, hmode, hporst]

end Sys2Proof.Machine
end

/-!
# Boot and straps (O10)

What a transition leaves of the registers, where the CFG block is left alone, and where the Bureau's block is.
-/

section
namespace Sys2Proof.Machine

section
variable {s t u : State}

/-! ## A transition -/

/-- `s` with a test on the pins ended. -/
def State.testEnded (s : State) : State := { s with pins := { s.pins with jtag := s.tapLeaves } }

/-- `s` with DEV_MODE as a transition to `m` writes it. -/
def State.modeNoted (s : State) (m : Mode) (cause : Nat) : State :=
  (((s.testEnded.setF Fld.DEV_MODE_PREV s.mode.code).setF Fld.DEV_MODE_MODE m.code).setF Fld.DEV_MODE_CAUSE cause).flag
    Fld.DEV_MODE_CHG

theorem State.modeNoted_writesOnly (s : State) (m : Mode) (cause : Nat) :
    WritesOnly [Reg.DEV_MODE.base] s.testEnded (s.modeNoted m cause) :=
  .setF (.setF (.setF (.setF .refl (by decide)) (by decide)) (by decide)) (by decide)

/-- `s` in mode `m`, the scrubber being as it was. -/
def State.inMode (s : State) (m : Mode) (cause : Nat) : State :=
  let n := s.modeNoted m cause
  { n with mode := m, bur := { n.bur with firstBlank := n.bur.firstBlank && s.mode == Mode.reset } }

/-- A transition: a scrubber that does not run in `m` stops. -/
theorem State.toMode_eq (s : State) (m : Mode) (cause : Nat) : s.toMode m cause =
    if m.scrubs then s.inMode m cause
    else ({ s.inMode m cause with scrub := Scrub.init } : State).setF Fld.SCRB_STAT_RUNNING 0 := (rfl)

/-- What a transition changes: the mode, the TAP's instruction, the mark of the first Blank, the scrubber and registers. -/
theorem State.toMode_frame (s : State) (m : Mode) (cause : Nat) : s.toMode m cause =
    { s.testEnded with
      mode := m, bur := { s.bur with firstBlank := s.bur.firstBlank && s.mode == Mode.reset },
      scrub := (s.toMode m cause).scrub, regs := (s.toMode m cause).regs } := by
  rw [State.toMode_eq, State.inMode]
  obtain ⟨r, hr⟩ : ∃ r, s.modeNoted m cause = { s.testEnded with regs := r } :=
    ⟨_, (s.modeNoted_writesOnly m cause).frame⟩
  rw [hr]
  split <;> rfl

theorem State.inMode_regs (s : State) (m : Mode) (cause : Nat) : (s.inMode m cause).regs = (s.modeNoted m cause).regs := by
  rw [State.inMode]

theorem State.toMode_mode (s : State) (m : Mode) (cause : Nat) : (s.toMode m cause).mode = m := by
  rw [State.toMode_frame]

theorem State.toMode_bur (s : State) (m : Mode) (cause : Nat) :
    (s.toMode m cause).bur = { s.bur with firstBlank := s.bur.firstBlank && s.mode == Mode.reset } := by
  rw [State.toMode_frame]

theorem State.word_congr (h : t.regs = s.regs) (a : Nat) : t.word a = s.word a := by
  rw [State.word, h]
  rfl

theorem State.f_congr (h : t.regs = s.regs) (q : FieldRef) (i j : Nat) : t.f q i j = s.f q i j := by
  rw [State.f, State.word_congr h]
  rfl

theorem State.toMode_host (s : State) (m : Mode) (cause : Nat) : (s.toMode m cause).host = s.host := by
  rw [State.toMode_frame, State.testEnded]

theorem State.toMode_stream (s : State) (m : Mode) (cause : Nat) : (s.toMode m cause).stream = s.stream := by
  rw [State.toMode_frame, State.testEnded]

theorem State.toMode_done (s : State) (m : Mode) (cause : Nat) : (s.toMode m cause).pins.done = s.pins.done := by
  rw [State.toMode_frame, State.testEnded]

/-- A field outside SCRB_STAT, after a transition. -/
theorem State.f_toMode (s : State) (m : Mode) (cause : Nat) {q : FieldRef} {i j : Nat}
    (hq : q.addr i j ≠ Reg.SCRB_STAT.base) : (s.toMode m cause).f q i j = (s.modeNoted m cause).f q i j := by
  rw [State.toMode_eq]
  split
  · exact State.f_congr (s.inMode_regs m cause) q i j
  · have hne : Fld.SCRB_STAT_RUNNING.addr 0 0 ≠ q.addr i j := fun h => hq h.symm
    have hregs : ({ s.inMode m cause with scrub := Scrub.init } : State).regs = (s.modeNoted m cause).regs := by
      dsimp only
      exact s.inMode_regs m cause
    rw [State.f_setF_of_addr _ _ _ _ _ _ _ _ hne, State.f_congr hregs]

theorem State.toMode_prev (s : State) (m : Mode) (cause : Nat) : (s.toMode m cause).f Fld.DEV_MODE_PREV = s.mode.code := by
  rw [State.f_toMode _ _ _ (by decide), State.modeNoted, State.flag]
  simp (disch := decide) only [State.f_setF_of_disjoint, State.f_setF]
  cases s.mode <;> rfl

theorem State.toMode_cause (s : State) (m : Mode) (cause : Nat) : (s.toMode m cause).f Fld.DEV_MODE_CAUSE = cause % 16 := by
  rw [State.f_toMode _ _ _ (by decide), State.modeNoted, State.flag]
  simp (disch := decide) only [State.f_setF_of_disjoint, State.f_setF]
  rfl

theorem State.toMode_chg (s : State) (m : Mode) (cause : Nat) : (s.toMode m cause).on Fld.DEV_MODE_CHG = true := by
  rw [State.on, State.f_toMode _ _ _ (by decide), State.modeNoted, State.flag, State.f_setF _ _ _ _ _ (by decide)]
  rfl

/-- A field of another register, after a transition. -/
theorem State.f_toMode_beside (s : State) (m : Mode) (cause : Nat) {q : FieldRef} {i j : Nat}
    (hq : q.addr i j ≠ Reg.SCRB_STAT.base) (hd : q.addr i j ≠ Reg.DEV_MODE.base) :
    (s.toMode m cause).f q i j = s.f q i j := by
  rw [State.f_toMode _ _ _ hq]
  exact (s.modeNoted_writesOnly m cause).same.f_eq (by simpa using hd)

/-! ## The straps -/

theorem State.release_spec (s : State) (compat : Bool) {boot : Nat} (hb : boot < 4) :
    (s.release compat boot).on Fld.DEV_COMPAT_PIN = compat ∧ (s.release compat boot).on Fld.DEV_COMPAT_HERITAGE = compat ∧
      (s.release compat boot).f Fld.CFG_STAT_BOOT = boot ∧ (s.release compat boot).pins.boot = boot := by
  unfold State.release State.on State.setB
  simp (disch := decide) only [State.f_setF_of_disjoint, State.f_setF]
  refine ⟨?_, ?_, Nat.mod_eq_of_lt hb, Nat.mod_eq_of_lt hb⟩ <;> cases compat <;> rfl

/-- The straps show in two registers. -/
theorem State.release_writesOnly (s : State) (compat : Bool) (boot : Nat) :
    WritesOnly [Reg.DEV_COMPAT.base, Reg.CFG_STAT.base]
      { s with pins := { s.pins with compat := compat, boot := boot % 4 }, host := { s.host with porst := true } }
      (s.release compat boot) :=
  .setF (.setF (.setF .refl (by decide)) (by decide)) (by decide)

theorem execPorstNRelease_low {s : State} {compat : Bool} {boot : Nat} (hm : s.mode = .reset) (hp : s.host.porst = false)
    (hb : boot < 4) : exec (.porstNRelease compat boot) s = .next (s.release compat boot) := by
  simp [exec, execPorstNRelease, hm, hp, hb]

/-! ## The boot -/

/-- `t` has the host interface of `s`, and its registers from DEV_ID to the end of the Bureau's block. -/
structure LowKept (s t : State) : Prop where
  host : t.host = s.host
  word : ∀ a, a < 0x70000 → t.word a = s.word a

theorem LowKept.refl : LowKept s s := ⟨rfl, fun _ _ => rfl⟩

theorem LowKept.same (h : LowKept u s) (e : (t.host, t.regs) = (s.host, s.regs)) : LowKept u t := by
  obtain ⟨hhost, hregs⟩ := Prod.mk.inj e
  exact ⟨hhost.trans h.host, fun a ha => (State.word_congr hregs a).trans (h.word a ha)⟩

theorem LowKept.f_eq (h : LowKept s t) {q : FieldRef} {i j : Nat} (hq : q.addr i j < 0x70000) : t.f q i j = s.f q i j := by
  rw [State.f, h.word _ hq, State.f]

theorem LowKept.setWord {a w} (h : LowKept u s) (ha : 0x70000 ≤ a) : LowKept u (s.setWord a w) where
  host := h.host
  word b hb := by rw [State.word_setWord, if_neg (by omega), h.word b hb]

theorem LowKept.setF {b c d lo n v i j} (h : LowKept u s) : LowKept u (s.setF ⟨b + 0x70000, c, d, lo, n⟩ v i j) :=
  h.setWord (by simp only [FieldRef.addr]; omega)

theorem LowKept.ite {c : Prop} [Decidable c] (ht : LowKept u s) (hu : LowKept u t) : LowKept u (if c then s else t) := by
  split <;> assumption

theorem LowKept.foldl {β : Type} {f : State → β → State} {l : List β} (h : LowKept u s)
    (hf : ∀ {t b}, b ∈ l → LowKept u t → LowKept u (f t b)) : LowKept u (l.foldl f s) :=
  List.foldlRecOn l f h fun _ ht _ hb => hf hb ht

theorem LowKept.checkSat {g sl} (h : LowKept u s) : LowKept u (s.checkSat g sl) :=
  .ite h.setF.setF h

theorem LowKept.refillMap {g} (h : LowKept u s) : LowKept u (s.refillMap g) := by
  unfold State.refillMap
  extract_lets ret m s1 s2 n rot s3 s4 s5
  have h1 : LowKept u s1 := h.foldl fun _ h => h.setF
  have h3 : LowKept u s3 := h1.setF.same rfl
  have h5 : LowKept u s5 := .ite h3.setF.setF h3.setF
  exact h5.foldl fun _ h => h.checkSat

/-- The CAL fields, which stand beyond the Bureau's block, are loaded. -/
theorem LowKept.loadCal {v} (h : LowKept u s) : LowKept u (s.loadCal v) :=
  (h.foldl fun ha h => .ite h (h.setWord (calRegs_ge ha))).foldl fun _ h => h.refillMap

theorem LowKept.bootCal {ok} (h : LowKept u s) : LowKept u (s.bootCal ok) := by
  unfold State.bootCal
  split
  · exact h.loadCal.setF.setF
  · exact h.loadCal.setF.setF

/-! ## The straps start a load -/

/-- The CFG block is as before. -/
structure CfgKept (s t : State) : Prop where
  word : ∀ a, 0x40000 ≤ a → a < 0x50000 → t.word a = s.word a

theorem CfgKept.refl : CfgKept s s := ⟨fun _ _ _ => rfl⟩

theorem CfgKept.same (h : CfgKept u s) (e : t.regs = s.regs) : CfgKept u t :=
  ⟨fun a hl hu => (State.word_congr e a).trans (h.word a hl hu)⟩

theorem CfgKept.setWord {a w} (h : CfgKept u s) (ha : a < 0x40000 ∨ 0x50000 ≤ a) : CfgKept u (s.setWord a w) :=
  ⟨fun b hl hu => by rw [State.word_setWord, if_neg (by omega), h.word b hl hu]⟩

theorem CfgKept.setF {b c d lo n v i j} (h : CfgKept u s) : CfgKept u (s.setF ⟨b + 0x50000, c, d, lo, n⟩ v i j) :=
  h.setWord (.inr (by simp only [FieldRef.addr]; omega))

theorem CfgKept.setReg {b c d lo n i j w} (h : CfgKept u s) :
    CfgKept u (s.setWord (FieldRef.addr ⟨b + 0x50000, c, d, lo, n⟩ i j) w) :=
  h.setWord (.inr (by simp only [FieldRef.addr]; omega))

theorem CfgKept.ite {c : Prop} [Decidable c] (ht : CfgKept u s) (hu : CfgKept u t) : CfgKept u (if c then s else t) := by
  split <;> assumption

theorem CfgKept.foldl {β : Type} {f : State → β → State} {l : List β} (h : CfgKept u s)
    (hf : ∀ {t b}, CfgKept u t → CfgKept u (f t b)) : CfgKept u (l.foldl f s) :=
  List.foldlRecOn l f h fun _ ht _ _ => hf ht

theorem CfgKept.agents (h : CfgKept u s) (k : AgentsReset s t) : CfgKept u t where
  word a hl hu := by rw [k.same a (by simp only [Reg.DEV_XSTAT, List.mem_singleton]; omega), h.word a hl hu]

theorem CfgKept.xrst {bit lost} (h : CfgKept u s) : CfgKept u (s.xrst bit lost) :=
  .ite (h.setWord (.inl (by decide))) h

theorem CfgKept.sourceStops {code} (h : CfgKept u s) : CfgKept u (s.sourceStops code) :=
  h.same (s.regs_sourceStops code)

theorem CfgKept.stopPorts {k} (h : CfgKept u s) : CfgKept u (s.stopPorts k) :=
  .ite h (h.foldl fun h => h.sourceStops)

theorem CfgKept.flushBoundary {k} (h : CfgKept u s) : CfgKept u (s.flushBoundary k) :=
  h.foldl fun h => (h.setF.setF.xrst : CfgKept u _).same rfl

theorem CfgKept.clearCrossings {k} (h : CfgKept u s) : CfgKept u (s.clearCrossings k) := by
  unfold State.clearCrossings
  extract_lets lost note ps evs rqs s1 s2
  have h2 : CfgKept u s2 := h.same rfl
  exact h2.xrst.xrst.xrst.xrst

theorem CfgKept.freeChan {c} (h : CfgKept u s) : CfgKept u (s.freeChan c) := by
  have h1 := h.agents (AgentsReset.lowerChan s c { Chan.init with word := (s.chan c).word })
  exact (h1.setWord (.inl (by decide))).setWord (.inl (by decide))

theorem CfgKept.freeSecure {k} (h : CfgKept u s) : CfgKept u (s.freeSecure k) :=
  h.foldl fun h => .ite h.freeChan h

theorem CfgKept.setCab {k c} (h : CfgKept u s) : CfgKept u (s.setCab k c) :=
  h.same rfl

theorem CfgKept.emptyCabs (h : CfgKept u s) : CfgKept u s.emptyCabs := by
  unfold State.emptyCabs
  extract_lets ks s1
  have h1 : CfgKept u s1 :=
    (h.foldl fun h => h.stopPorts.flushBoundary.clearCrossings).agents (AgentsReset.resetAgents ..)
  exact h1.setF.setF.foldl fun h => h.freeSecure.setReg.setReg.setReg.setF.setCab

theorem CfgKept.logHandover {g o r} (h : CfgKept u s) : CfgKept u (s.logHandover g o r) := by
  unfold State.logHandover
  extract_lets ms s1 s2 s3 s4
  have h1 : CfgKept u s1 := h.same rfl
  exact h1.setF.setF.setF.setF.setF.setF.setF.setF

theorem CfgKept.abandon {g} (h : CfgKept u s) : CfgKept u (s.abandon g) := by
  unfold State.abandon
  extract_lets r
  split
  · exact h
  · exact ((h.same rfl : CfgKept u (s.setRot g _)).logHandover.setF).setF

theorem CfgKept.refFalls {g} (h : CfgKept u s) : CfgKept u (s.refFalls g) :=
  (CfgKept.ite h h.setF.setF).abandon

theorem CfgKept.noteVectors {before : State} {acc vs} (h : CfgKept u s) : CfgKept u (s.noteVectors before acc vs) :=
  h.foldl fun h => h.agents (AgentsReset.noteVector ..)

theorem CfgKept.stopSources (h : CfgKept u s) : CfgKept u s.stopSources :=
  (h.foldl fun h => .ite (h.foldl fun h => h.sourceStops) h).foldl fun h => .ite h.sourceStops h

theorem CfgKept.refSelReset (h : CfgKept u s) : CfgKept u s.refSelReset :=
  h.foldl fun h => .ite h h.refFalls

theorem CfgKept.wmHold {n} (h : CfgKept u s) : CfgKept u (s.wmHold n) :=
  .ite (h.same rfl) h

theorem CfgKept.portsReset (h : CfgKept u s) : CfgKept u s.portsReset :=
  h.foldl fun h => .ite h h.wmHold

theorem CfgKept.resetHard (h : CfgKept u s) : CfgKept u s.resetHard := by
  unfold State.resetHard
  extract_lets before s1 s2 _ _ _ _ s3
  have h1 : CfgKept u s1 := h.stopSources.refSelReset.portsReset
  have h2 : CfgKept u s2 := ⟨fun a hl hu => by
    rw [State.word_resetRegs, h1.word a hl hu]
    simp only [hardReg, Bool.or_eq_false_iff, decide_eq_false_iff_not]
    omega⟩
  clear_value s2
  have h3 : CfgKept u s3 := h2.same rfl
  exact h3.noteVectors

/-! ### Entry to Load -/

/-- `s` with its blocks emptied for a load, and the stream of `src` begun. -/
def State.loadEmptied (s : State) (src ring : Nat) : State :=
  let s := if s.mode = .blank then s.emptyCabs.resetHard else s.enterBlank true
  { s with
    stream := { Stream.init with active := true, src := src, ring := ring, qspi := s.flashRead src },
    pins := { s.pins with done := false } }

/-- `s` with the registers of a load begun. -/
def State.loadNoted (s : State) (src : Nat) : State :=
  (((((((s.setF Fld.CFG_WORDS 0).setF Fld.CFG_FRAMES 0).setF Fld.CFG_ERRPOS 0).setF Fld.CFG_STAT_REASON 0).setF
    Fld.CFG_STAT_PHASE 1).setF Fld.CFG_STAT_SRC src).setF Fld.CFG_STAT_SIGNED 0).setF Fld.CFG_NEXTFA 0

theorem State.enterLoad_eq (s : State) {src : Nat} (hs : src ≠ 1) (ring : Nat) :
    s.enterLoad src ring = (s.loadEmptied src ring).loadNoted src := by
  unfold State.enterLoad
  rw [if_neg hs]
  rfl

theorem State.loadNoted_fields (s : State) (src : Nat) :
    (s.loadNoted src).f Fld.CFG_WORDS = 0 ∧ (s.loadNoted src).f Fld.CFG_STAT_REASON = 0 ∧
      (s.loadNoted src).f Fld.CFG_STAT_PHASE = 1 ∧ (s.loadNoted src).f Fld.CFG_STAT_SRC = src % 8 := by
  unfold State.loadNoted
  simp (disch := decide) only [State.f_setF_of_addr, State.f_setF_of_disjoint, State.f_setF]
  exact ⟨rfl, rfl, rfl, rfl⟩

/-- A load begins to note itself in registers only. -/
theorem State.loadNoted_frame (s : State) (src : Nat) : (s.loadNoted src) = { s with regs := (s.loadNoted src).regs } := by
  refine WritesOnly.frame (l := [Reg.CFG_WORDS.base, Reg.CFG_FRAMES.base, Reg.CFG_ERRPOS.base, Reg.CFG_STAT.base,
    Reg.CFG_NEXTFA.base]) ?_
  refine WritesOnly.setF (.setF (.setF (.setF (.setF (.setF (.setF (.setF .refl ?_) ?_) ?_) ?_) ?_) ?_) ?_) ?_
  all_goals decide

theorem State.loadNoted_parts (s : State) (src : Nat) :
    (s.loadNoted src).mode = s.mode ∧ (s.loadNoted src).stream = s.stream ∧
    (s.loadNoted src).pins = s.pins ∧ (s.loadNoted src).bur = s.bur := by
  rw [State.loadNoted_frame]
  exact ⟨rfl, rfl, rfl, rfl⟩

theorem State.loadEmptied_of_blank {s : State} (hm : s.mode = .blank) (src ring : Nat) : s.loadEmptied src ring =
    { s.emptyCabs.resetHard with
      stream := { Stream.init with active := true, src := src, ring := ring, qspi := s.emptyCabs.resetHard.flashRead src },
      pins := { s.emptyCabs.resetHard.pins with done := false } } := by
  rw [State.loadEmptied, if_pos hm]

/-- Entry to Load leaves the mode, the Bureau and DEV_MODE to the transition. -/
theorem Kept.loadEmptied_of_blank {src ring} (hm : s.mode = .blank) (h : Kept u s) : Kept u (s.loadEmptied src ring) := by
  have h1 : Kept u s.emptyCabs.resetHard := h.emptyCabs.resetHard
  rw [State.loadEmptied_of_blank hm]
  generalize s.emptyCabs.resetHard = n at h1 ⊢
  exact h1.same rfl

/-- The flash is read from where CFG_QSPI says, which a load does not change. -/
theorem State.flashRead_of_cfgKept (h : CfgKept s t) (src : Nat) : t.flashRead src = s.flashRead src := by
  unfold State.flashRead State.f
  rw [h.word _ (by decide) (by decide), h.word _ (by decide) (by decide)]

end

section
variable {s : State}

/-- `s` after the boot's first steps: what the keep store and the random source gave shows. -/
def State.bootNoted (s : State) (trng : Bool) : State :=
  (({ s with host := { s.host with ready := true }, bur := { s.bur with trngFails := !trng } } : State).setWord
    Reg.BUR_POLICY.base (BitVec.ofNat 32 s.bur.nv.policy)).flagIf (!trng) Fld.BUR_STAT_TRNG_FAIL

/-- `s` after a boot's last step, the calibration. -/
def State.bootLoaded (s : State) (trng store : Bool) : State :=
  ((((s.bootNoted trng).setF Fld.BUR_BOOT_ERR (if trng then 0 else 5)).showKeys
    (s.bootNoted trng).bur.nv.keyres).keyLow).bootCal store

theorem State.bootEnds_failed (s : State) {err : Nat} (he : err = 3 ∨ err = 4) (trng store : Bool) :
    s.bootEnds err trng store = (s.bootNoted trng).setF Fld.BUR_BOOT_ERR err := by
  rw [State.bootEnds, if_pos he]
  rfl

theorem State.bootNoted_bur (s : State) (trng : Bool) : (s.bootNoted trng).bur = { s.bur with trngFails := !trng } := by
  cases trng <;> rfl

theorem State.bootNoted_mode (s : State) (trng : Bool) : (s.bootNoted trng).mode = s.mode := by
  cases trng <;> rfl

theorem State.bootNoted_host (s : State) (trng : Bool) : (s.bootNoted trng).host = { s.host with ready := true } := by
  cases trng <;> rfl

theorem State.bootNoted_same (s : State) (trng : Bool) :
    SameBut [Reg.BUR_POLICY.base, Reg.BUR_STAT.base] s (s.bootNoted trng) := by
  have h : WritesOnly [Reg.BUR_POLICY.base, Reg.BUR_STAT.base]
      { s with host := { s.host with ready := true }, bur := { s.bur with trngFails := !trng } } (s.bootNoted trng) :=
    .ite (.setF (.setWord .refl (by decide)) (by decide)) (.setWord .refl (by decide))
  exact h.same

/-- A flag that is raised shows. -/
theorem State.on_flag (s : State) {r : FieldRef} (h : r.lo + r.width ≤ 32) (hw : r.width ≠ 0) (i j : Nat) :
    (s.flag r i j).on r i j = true := by
  rw [State.on, State.flag, State.f_setF _ _ _ _ _ h, Nat.mod_eq_of_lt (Nat.one_lt_two_pow hw)]
  rfl

theorem State.bootNoted_trng (s : State) : (s.bootNoted false).on Fld.BUR_STAT_TRNG_FAIL = true := by
  unfold State.bootNoted State.flagIf
  rw [Bool.not_false, if_pos rfl]
  exact State.on_flag _ (by decide) (by decide) _ _

theorem State.on_keyLow_of_beside (s : State) {q : FieldRef} (h : Fld.BUR_STAT_KEY_LOW.beside q = true) :
    s.keyLow.on q = s.on q := by
  unfold State.keyLow State.flagIf State.on
  split
  · rw [State.flag, State.f_setF_of_beside _ h]
  · rfl

theorem State.bootLoaded_kept (s : State) (trng store : Bool) : Kept (s.bootNoted trng) (s.bootLoaded trng store) := by
  unfold State.bootLoaded
  exact Kept.refl.setF.showKeys.keyLow.bootCal

theorem State.bootLoaded_low (s : State) (trng store : Bool) : LowKept
    ((((s.bootNoted trng).setF Fld.BUR_BOOT_ERR (if trng then 0 else 5)).showKeys (s.bootNoted trng).bur.nv.keyres).keyLow)
    (s.bootLoaded trng store) :=
  LowKept.refl.bootCal

theorem State.bootLoaded_err (s : State) (trng store : Bool) :
    (s.bootLoaded trng store).f Fld.BUR_BOOT_ERR = (if trng then 0 else 5) := by
  rw [(s.bootLoaded_low trng store).f_eq (by decide), (State.keyLow_writesOnly _).same.f_eq (by decide),
    (State.showKeys_writesOnly _ _).same.f_eq (by decide), State.f_setF _ _ _ _ _ (by decide)]
  cases trng <;> rfl

theorem State.bootLoaded_keyIdx (s : State) (trng store : Bool) (hk : s.bur.nv.keyres < 2 ^ 40) :
    (s.bootLoaded trng store).keyIdx = s.bur.nv.keyres := by
  have hlow := s.bootLoaded_low trng store
  rw [State.keyIdx, hlow.f_eq (by decide), hlow.f_eq (by decide), ← State.keyIdx,
    State.keyIdx_of_sameBut (State.keyLow_writesOnly _).same, State.bootNoted_bur]
  exact State.keyIdx_showKeys _ hk

theorem State.bootLoaded_ready (s : State) (trng store : Bool) : (s.bootLoaded trng store).host.ready = true := by
  have hlow (n : State) : n.keyLow.host = n.host := by rw [(State.keyLow_writesOnly n).frame]
  have hkeys (n : State) (i : Nat) : (n.showKeys i).host = n.host := by rw [(n.showKeys_writesOnly i).frame]
  rw [(s.bootLoaded_low trng store).host, hlow, hkeys, State.setF_host, State.bootNoted_host]

theorem State.bootLoaded_trng (s : State) (store : Bool) :
    (s.bootLoaded false store).on Fld.BUR_STAT_TRNG_FAIL = true := by
  rw [State.on, (s.bootLoaded_low false store).f_eq (by decide), ← State.on, State.on_keyLow_of_beside _ (by decide)]
  unfold State.showKeys
  simp (disch := decide) only [State.setPair_eq, State.on, State.f_setF_of_addr]
  exact s.bootNoted_trng

/-- `s` with the Bureau's firmware running, before the transition. -/
def State.fwStarted (s : State) : State :=
  let n := (s.flag Fld.BUR_BOOT_FW_OK).setF Fld.BUR_BOOT_VERSION Config.fwVersion
  { n with bur := { n.bur with running := true } }

theorem State.bootEnds_zero (s : State) (trng store : Bool) : ∃ cause,
    s.bootEnds 0 trng store = (s.bootLoaded trng store).fwStarted.toMode .blank cause := by
  rw [State.bootEnds, if_neg (by decide)]
  exact ⟨_, rfl⟩

theorem State.fwStarted_bur (s : State) : s.fwStarted.bur = { s.bur with running := true } := by
  simp only [State.fwStarted, State.flag, State.setF_bur]

theorem State.fwStarted_mode (s : State) : s.fwStarted.mode = s.mode := by
  simp only [State.fwStarted, State.flag, State.setF_mode]

theorem State.fwStarted_host (s : State) : s.fwStarted.host = s.host := by
  simp only [State.fwStarted, State.flag, State.setF_host]

theorem State.f_fwStarted_eq (s : State) (q : FieldRef) :
    s.fwStarted.f q = ((s.flag Fld.BUR_BOOT_FW_OK).setF Fld.BUR_BOOT_VERSION Config.fwVersion).f q := by
  refine State.f_congr ?_ q 0 0
  unfold State.fwStarted
  dsimp only

theorem State.fwStarted_ok (s : State) : s.fwStarted.on Fld.BUR_BOOT_FW_OK = true := by
  rw [State.on, State.f_fwStarted_eq, State.f_setF_of_disjoint _ _ _ _ _ _ _ _ (by decide) (by decide), ← State.on,
    State.on_flag _ (by decide) (by decide)]

/-- A field beside FW_OK and VERSION. -/
theorem State.f_fwStarted (s : State) {q : FieldRef} (h : Fld.BUR_BOOT_FW_OK.beside q = true)
    (h' : Fld.BUR_BOOT_VERSION.beside q = true) : s.fwStarted.f q = s.f q := by
  rw [State.f_fwStarted_eq, State.f_setF_of_beside _ h', State.flag, State.f_setF_of_beside _ h]

/-- What a boot without failure leaves, in Blank. -/
theorem State.bootEnds_spec (s : State) (trng store : Bool) (hm : s.mode = .reset) (hk : s.bur.nv.keyres < 2 ^ 40) :
    ∃ t, s.bootEnds 0 trng store = t ∧ t.mode = .blank ∧ t.f Fld.DEV_MODE_PREV = 0 ∧
      t.bur.running = true ∧ t.bur.firstBlank = s.bur.firstBlank ∧ t.on Fld.BUR_BOOT_FW_OK = true ∧
      t.f Fld.BUR_BOOT_ERR = (if trng then 0 else 5) ∧ t.keyIdx = s.bur.nv.keyres ∧ t.host.ready = true ∧
      t.bur.trngFails = !trng ∧ (trng = false → t.on Fld.BUR_STAT_TRNG_FAIL = true) ∧ t.bur.nv = s.bur.nv := by
  obtain ⟨cause, he⟩ := s.bootEnds_zero trng store
  have hkept := s.bootLoaded_kept trng store
  have hmode : (s.bootLoaded trng store).fwStarted.mode = .reset := by
    rw [State.fwStarted_mode, hkept.mode, State.bootNoted_mode, hm]
  have hbur : ((s.bootLoaded trng store).fwStarted.toMode .blank cause).bur =
      { s.bur with trngFails := !trng, running := true } := by
    rw [State.toMode_bur, hmode, State.fwStarted_bur, hkept.bur, State.bootNoted_bur, beq_self_eq_true, Bool.and_true]
  have hf {q : FieldRef} (h : Fld.BUR_BOOT_FW_OK.beside q = true) (h' : Fld.BUR_BOOT_VERSION.beside q = true)
      (hs : q.addr 0 0 ≠ Reg.SCRB_STAT.base) (hd : q.addr 0 0 ≠ Reg.DEV_MODE.base) :
      ((s.bootLoaded trng store).fwStarted.toMode .blank cause).f q = (s.bootLoaded trng store).f q := by
    rw [State.f_toMode_beside _ _ _ hs hd, State.f_fwStarted _ h h']
  refine ⟨_, he, State.toMode_mode .., ?_, ?_, ?_, ?_, ?_, ?_, ?_, ?_, ?_, ?_⟩
  · rw [State.toMode_prev, hmode]
    rfl
  · rw [hbur]
  · rw [hbur]
  · rw [State.on, State.f_toMode_beside _ _ _ (by decide) (by decide), ← State.on, State.fwStarted_ok]
  · rw [hf (by decide) (by decide) (by decide) (by decide), State.bootLoaded_err]
  · rw [State.keyIdx, hf (by decide) (by decide) (by decide) (by decide), hf (by decide) (by decide) (by decide) (by decide),
      ← State.keyIdx, State.bootLoaded_keyIdx _ _ _ hk]
  · rw [State.toMode_host, State.fwStarted_host, State.bootLoaded_ready]
  · rw [hbur]
  · rintro rfl
    rw [State.on, hf (by decide) (by decide) (by decide) (by decide), ← State.on, State.bootLoaded_trng]
  · rw [hbur]

/-- A boot that fails at step 3 or 4. -/
theorem State.bootEnds_failed_spec (s : State) {err : Nat} (he : err = 3 ∨ err = 4) (trng store : Bool) :
    ∃ t, s.bootEnds err trng store = t ∧ t.mode = s.mode ∧ t.bur.running = s.bur.running ∧
      t.f Fld.BUR_BOOT_ERR = err ∧ t.bur.nv = s.bur.nv ∧ SameBut [Reg.BUR_BOOT.base, Reg.BUR_POLICY.base, Reg.BUR_STAT.base] s t := by
  refine ⟨_, s.bootEnds_failed he trng store, ?_, ?_, ?_, ?_, ?_⟩
  · rw [State.setF_mode, State.bootNoted_mode]
  · rw [State.setF_bur, State.bootNoted_bur]
  · rw [State.f_setF _ _ _ _ _ (by decide)]
    rcases he with rfl | rfl <;> rfl
  · rw [State.setF_bur, State.bootNoted_bur]
  · exact SameBut.trans (fun a ha => s.bootNoted_same trng a fun hm => ha (List.mem_cons_of_mem _ hm))
      (WritesOnly.refl.setF (by decide)).same

/-! ## The obligation -/

/-- The registers of a flash transaction from the start of the flash. -/
def State.flashAtStart (s : State) : State := (s.setF Fld.CFG_QSPI_ADDR 0).setF Fld.CFG_QSPI_CLKDIV 1

theorem State.flashRead_flashAtStart (s : State) : s.flashAtStart.flashRead 2 = some ⟨0, 1, 0⟩ := by
  unfold State.flashAtStart State.flashRead
  simp (disch := decide) only [State.f_setF_of_disjoint, State.f_setF]
  rfl

/-- What an entry to Load shows, from a source other than a ring. -/
theorem State.goLoad_spec (s : State) {src : Nat} (hs : src ≠ 1) (ring cause : Nat) :
    (s.goLoad src ring cause).mode = .load ∧ (s.goLoad src ring cause).f Fld.DEV_MODE_CAUSE = cause % 16 ∧
      (s.goLoad src ring cause).f Fld.DEV_MODE_PREV = (s.loadEmptied src ring).mode.code ∧
      (s.goLoad src ring cause).on Fld.DEV_MODE_CHG = true ∧
      (s.goLoad src ring cause).stream = (s.loadEmptied src ring).stream ∧ (s.goLoad src ring cause).pins.done = false ∧
      (s.goLoad src ring cause).f Fld.CFG_STAT_SRC = src % 8 ∧ (s.goLoad src ring cause).f Fld.CFG_STAT_PHASE = 1 ∧
      (s.goLoad src ring cause).f Fld.CFG_WORDS = 0 ∧ (s.goLoad src ring cause).f Fld.CFG_STAT_REASON = 0 ∧
      (s.goLoad src ring cause).bur = { (s.loadEmptied src ring).bur with
        firstBlank := (s.loadEmptied src ring).bur.firstBlank && (s.loadEmptied src ring).mode == Mode.reset } := by
  obtain ⟨hwords, hreason, hphase, hsrc⟩ := (s.loadEmptied src ring).loadNoted_fields src
  obtain ⟨hmode, hstream, hpins, hbur⟩ := (s.loadEmptied src ring).loadNoted_parts src
  have hdone : (s.loadEmptied src ring).pins.done = false := (rfl)
  have hf {q : FieldRef} (hq : q.addr 0 0 ≠ Reg.SCRB_STAT.base) (hd : q.addr 0 0 ≠ Reg.DEV_MODE.base) :
      (((s.loadEmptied src ring).loadNoted src).toMode .load cause).f q = ((s.loadEmptied src ring).loadNoted src).f q :=
    State.f_toMode_beside _ _ _ hq hd
  rw [State.goLoad, s.enterLoad_eq hs]
  refine ⟨State.toMode_mode .., State.toMode_cause .., ?_, State.toMode_chg .., ?_, ?_, ?_, ?_, ?_, ?_, ?_⟩
  · rw [State.toMode_prev, hmode]
  · rw [State.toMode_stream, hstream]
  · rw [State.toMode_done, hpins, hdone]
  · rw [hf (by decide) (by decide), hsrc]
  · rw [hf (by decide) (by decide), hphase]
  · rw [hf (by decide) (by decide), hwords]
  · rw [hf (by decide) (by decide), hreason]
  · rw [State.toMode_bur, hbur, hmode]

theorem CfgKept.loadEmptied_flash (hm : s.mode = .blank) (src ring : Nat) :
    (s.loadEmptied src ring).stream =
      { Stream.init with active := true, src := src, ring := ring, qspi := s.flashRead src } := by
  rw [State.loadEmptied_of_blank hm, State.flashRead_of_cfgKept CfgKept.refl.emptyCabs.resetHard]

/-- A load that the straps start in the first Blank. -/
theorem State.autoLoad_spec (s : State) (hm : s.mode = .blank) :
    ∃ t, s.flashAtStart.goLoad 2 0 4 = t ∧ t.mode = .load ∧ t.f Fld.DEV_MODE_CAUSE = 4 ∧ t.f Fld.DEV_MODE_PREV = 1 ∧
      t.on Fld.DEV_MODE_CHG = true ∧ t.bur.firstBlank = false ∧
      t.stream = { Stream.init with active := true, src := 2, ring := 0, qspi := some ⟨0, 1, 0⟩ } ∧
      t.f Fld.CFG_STAT_SRC = 2 ∧ t.f Fld.CFG_STAT_PHASE = 1 ∧ t.f Fld.CFG_WORDS = 0 ∧ t.bur.nv = s.bur.nv := by
  have hblank : s.flashAtStart.mode = .blank := by rw [State.flashAtStart, State.setF_mode, State.setF_mode, hm]
  have hkept : Kept s (s.flashAtStart.loadEmptied 2 0) := Kept.loadEmptied_of_blank hblank Kept.refl.setF.setF
  obtain ⟨hmode, hcause, hprev, hchg, hstream, -, hsrc, hphase, hwords, -, hbur⟩ :=
    s.flashAtStart.goLoad_spec (src := 2) (by decide) 0 4
  rw [hkept.bur, hkept.mode, hm] at hbur
  refine ⟨_, rfl, hmode, hcause, ?_, hchg, ?_, ?_, hsrc, hphase, hwords, ?_⟩
  · rw [hprev, hkept.mode, hm]
    rfl
  · rw [hbur]
    exact Bool.and_false _
  · rw [hstream, CfgKept.loadEmptied_flash hblank, State.flashRead_flashAtStart]
  · rw [hbur]

/-- Settles O10: the boot stage by stage, and an entry to Load from Blank. -/
theorem bootAndStraps : Obligations.BootAndStraps := by
  refine ⟨fun s compat boot hm hp hb => ?_, fun s trng store hm hp hr hk => ?_, fun s err trng store hm hp hr he => ?_,
    fun s hm hf hb => ?_, fun s compat boot hp hb => ⟨s, ?_, rfl⟩⟩
  · obtain ⟨hpin, hher, hboot, hstrap⟩ := s.release_spec compat hb
    have hw := s.release_writesOnly compat boot
    refine ⟨_, execPorstNRelease_low hm hp hb, hpin, hher, hboot, hstrap, ?_, ?_, hw.same⟩
    · rw [hw.frame]
    · rw [hw.frame]
  · obtain ⟨t, ht, hspec⟩ := s.bootEnds_spec trng store hm hk
    refine ⟨t, ?_, hspec⟩
    rw [← ht]
    simp [exec, execBureauBootComplete, hm, hp, hr]
  · obtain ⟨t, ht, hmode, hspec⟩ := s.bootEnds_failed_spec he trng store
    refine ⟨t, ?_, hmode.trans hm, hspec⟩
    rw [← ht]
    rcases he with rfl | rfl <;> simp [exec, execBureauBootComplete, hm, hp, hr]
  · obtain ⟨t, ht, hspec⟩ := s.autoLoad_spec hm
    refine ⟨t, ?_, hspec⟩
    rw [← ht]
    simp [exec, execAutonomousBoot, hm, hf, hb, State.flashAtStart]
  · simp [exec, execPorstNRelease, hp, hb]

end

end Sys2Proof.Machine
end

/-!
# The Bureau's transport (O51)

What a command finds when the Bureau takes it as it is submitted, and what a read returns then.
-/

section
namespace Sys2Proof.Machine

section
variable {s t : State}

/-! ## Submission -/

/-- `s` with the words of `l` in the arguments from argument `n` on. -/
def State.writeArgs (s : State) (l : List Word) (n : Nat) : State :=
  (l.zipIdx n).foldl (fun s e => s.setWord (Reg.BUR_ARG.addr e.2 0) e.1) s

theorem State.writeArgs_cons (s : State) (w : Word) (l : List Word) (n : Nat) :
    s.writeArgs (w :: l) n = (s.setWord (Reg.BUR_ARG.addr n 0) w).writeArgs l (n + 1) := (rfl)

theorem argAddr_inj {i j : Nat} (h : Reg.BUR_ARG.addr i 0 = Reg.BUR_ARG.addr j 0) : i = j := by
  simp only [FieldRef.addr, Reg.BUR_ARG] at h
  omega

/-- The arguments before the first that is written. -/
theorem State.arg_writeArgs_of_lt (s : State) {l : List Word} {i n : Nat} (hi : i < n) : (s.writeArgs l n).arg i = s.arg i := by
  induction l generalizing s n with
  | nil => rfl
  | cons w l ih =>
    rw [State.writeArgs_cons, ih _ (Nat.lt_succ_of_lt hi), State.arg, State.word_setWord, if_neg, State.arg]
    exact fun h => hi.ne (argAddr_inj h).symm

/-- The arguments that are written. -/
theorem State.arg_writeArgs (s : State) {l : List Word} {i : Nat} (n : Nat) {w : Word} (hi : l[i]? = some w) :
    (s.writeArgs l n).arg (n + i) = w := by
  induction l generalizing s n i with
  | nil => simp at hi
  | cons v l ih =>
    rw [State.writeArgs_cons]
    cases i with
    | zero =>
      change ((s.setWord (Reg.BUR_ARG.addr n 0) v).writeArgs l (n + 1)).arg n = w
      rw [State.arg_writeArgs_of_lt _ (Nat.lt_add_one n), State.arg, State.word_setWord, if_pos rfl]
      simpa using hi
    | succ i =>
      have h := ih (s.setWord (Reg.BUR_ARG.addr n 0) v) (n + 1) (by simpa using hi)
      rwa [Nat.add_assoc, Nat.add_comm 1 i] at h

theorem State.writeArgs_writesOnly (s : State) {l : List Word} {n : Nat} (hn : n + l.length ≤ 16) :
    WritesOnly transportRegs s (s.writeArgs l n) := by
  induction l generalizing s n with
  | nil => exact .refl
  | cons w l ih =>
    rw [List.length_cons] at hn
    have hmem : Reg.BUR_ARG.addr n 0 ∈ transportRegs :=
      List.mem_cons_of_mem _ (List.mem_cons_of_mem _ (List.mem_map.mpr ⟨n, List.mem_range.mpr (by omega), rfl⟩))
    rw [State.writeArgs_cons]
    exact (WritesOnly.refl.setWord hmem).trans (ih _ (by omega))

/-- `s` with the arguments, the tag and the code of a command. -/
def State.passed (s : State) (code tag : Nat) (args : List Word) : State :=
  ((s.writeArgs (args.take 16) 0).setF Fld.BUR_CMD_TAG tag).setF Fld.BUR_CMD_CODE code

/-- `s` as the Bureau finds it when it takes a command that this die's host submits. -/
def State.submitted (s : State) (code tag : Nat) (args : List Word) : State :=
  let n := s.passed code tag args
  { n.setF Fld.BUR_STATUS_BUSY 1 with bur := { n.bur with mirrored := false } }

theorem State.passed_writesOnly (s : State) (code tag : Nat) (args : List Word) :
    WritesOnly transportRegs s (s.passed code tag args) :=
  .setF (.setF (s.writeArgs_writesOnly (by simp)) (by decide)) (by decide)

/-- A submission changes registers only, and notes that the command is this die's own. -/
theorem State.submitted_frame (s : State) (code tag : Nat) (args : List Word) :
    ∃ r, s.submitted code tag args = { s with regs := r, bur := { s.bur with mirrored := false } } := by
  obtain ⟨r, hr⟩ : ∃ r, s.passed code tag args = { s with regs := r } := ⟨_, (s.passed_writesOnly code tag args).frame⟩
  obtain ⟨r', hr'⟩ : ∃ r', (s.passed code tag args).setF Fld.BUR_STATUS_BUSY 1 = { s with regs := r' } :=
    ⟨_, ((s.passed_writesOnly code tag args).setF (by decide)).frame⟩
  refine ⟨r', ?_⟩
  rw [State.submitted, hr', hr]

theorem State.submitted_regs (s : State) (code tag : Nat) (args : List Word) :
    (s.submitted code tag args).regs = ((s.passed code tag args).setF Fld.BUR_STATUS_BUSY 1).regs := by
  rw [State.submitted]

theorem State.submitted_same (s : State) (code tag : Nat) (args : List Word) :
    SameBut transportRegs s (s.submitted code tag args) := fun a ha =>
  (State.word_congr (s.submitted_regs code tag args) a).trans
    (((s.passed_writesOnly code tag args).setF (by decide)).same a ha)

theorem State.takes_iff (s : State) : s.takes = true ↔
    s.bur.running = true ∧ s.on Fld.BUR_STATUS_BUSY = false ∧ s.mode ≠ .reset := by
  simp [State.takes, and_assoc]

/-- A command that the Bureau takes as it is submitted. -/
theorem State.submit_takes (h : s.takes = true) (i : Instr) (code tag : Nat) (args : List Word) (k : Bool → State → State) :
    s.submit i code tag args k = k true (s.submitted code tag args) := by
  obtain ⟨hrun, hbusy, hmode⟩ := s.takes_iff.mp h
  have hmode' : (s.passed code tag args).mode ≠ .reset := by
    rw [(s.passed_writesOnly code tag args).frame]
    exact hmode
  have hrun' : (s.submitted code tag args).bur.running = true := by
    obtain ⟨r, hr⟩ := s.submitted_frame code tag args
    rw [hr]
    exact hrun
  unfold State.submit
  rw [hbusy, if_neg Bool.false_ne_true]
  exact (if_neg hmode').trans (if_pos hrun')

/-- What the Bureau finds in the transport's registers. -/
theorem State.submitted_shows (s : State) (code tag : Nat) (args : List Word) :
    (s.submitted code tag args).on Fld.BUR_STATUS_BUSY = true ∧ (s.submitted code tag args).f Fld.BUR_CMD_CODE = code % 256 ∧
      (s.submitted code tag args).f Fld.BUR_CMD_TAG = tag % 256 := by
  have hf (q : FieldRef) : (s.submitted code tag args).f q = ((s.passed code tag args).setF Fld.BUR_STATUS_BUSY 1).f q :=
    State.f_congr (s.submitted_regs code tag args) q 0 0
  rw [State.on, hf, hf, hf, ← State.on, State.passed]
  simp (disch := decide) only [State.f_setF_of_addr, State.f_setF_of_disjoint, State.f_setF]
  exact ⟨State.on_flag _ (by decide) (by decide) 0 0, rfl, rfl⟩

/-- The arguments that the host has written. -/
theorem State.arg_submitted (s : State) (code tag : Nat) {args : List Word} {i : Nat} {w : Word} (hi : i < 16)
    (hw : args[i]? = some w) : (s.submitted code tag args).arg i = w := by
  have hsame : SameBut [Reg.BUR_CMD.base, Reg.BUR_STATUS.base] (s.writeArgs (args.take 16) 0)
      ((s.passed code tag args).setF Fld.BUR_STATUS_BUSY 1) :=
    (WritesOnly.setF (.setF (.setF .refl (by decide)) (by decide)) (by decide)).same
  have hne : Reg.BUR_ARG.addr i 0 ∉ [Reg.BUR_CMD.base, Reg.BUR_STATUS.base] := by
    simp only [FieldRef.addr, Reg.BUR_ARG, Reg.BUR_CMD, Reg.BUR_STATUS, List.mem_cons, List.not_mem_nil, or_false]
    omega
  have htake : (args.take 16)[i]? = some w := by rw [List.getElem?_take_of_lt hi, hw]
  have harg := s.arg_writeArgs 0 htake
  rw [Nat.zero_add] at harg
  exact (State.word_congr (s.submitted_regs code tag args) _).trans ((hsame _ hne).trans harg)

/-! ## What a read returns -/

/-- The registers that a read returns as they are stored, DEV_ID apart. -/
def storedReg (a : Nat) : Bool :=
  (regAt a).all fun r => decide (a < 0x10000) || (decide (a < 0x80000) &&
    !([Reg.MSIX_PBA.base, Reg.PGH_SNDSUM.base, Reg.PGH_RCVSUM.base, Reg.CFG_FIFO.base, Reg.PWR_STAT.base].contains
      r.row.reg.base))

/-- Such a register reads the same where it holds the same. -/
theorem State.view_congr {a : Nat} (ha : storedReg a = true) (hp : t.part = s.part) (hw : t.word a = s.word a) :
    t.view a = s.view a := by
  unfold State.view
  unfold storedReg at ha
  cases hr : regAt a with
  | none => rfl
  | some r =>
    rw [hr] at ha
    simp only [Option.all_some, Bool.or_eq_true, Bool.and_eq_true, decide_eq_true_eq, Bool.not_eq_true',
      List.contains_eq_mem, decide_eq_false_iff_not, List.mem_cons, List.not_mem_nil, or_false, not_or] at ha
    dsimp only
    rw [hp, hw]
    rcases ha with hlow | ⟨hmid, hpba, hsnd, hrcv, hfifo, hpwr⟩
    · rw [if_pos hlow, if_pos hlow]
    · rw [if_neg hpba, if_neg hsnd, if_neg hrcv, if_neg hfifo, if_neg hpwr, if_pos hmid,
        if_neg hpba, if_neg hsnd, if_neg hrcv, if_neg hfifo, if_neg hpwr, if_pos hmid]

/-- What a submission does not write, it leaves to read. -/
theorem State.view_submitted (s : State) (code tag : Nat) (args : List Word) {a : Nat} (ha : storedReg a = true)
    (hl : a ∉ transportRegs) : (s.submitted code tag args).view a = s.view a := by
  refine State.view_congr ha ?_ (s.submitted_same code tag args a hl)
  obtain ⟨r, hr⟩ := s.submitted_frame code tag args
  rw [hr]

theorem State.mode_submitted (s : State) (code tag : Nat) (args : List Word) : (s.submitted code tag args).mode = s.mode := by
  obtain ⟨r, hr⟩ := s.submitted_frame code tag args
  rw [hr]

theorem State.part_submitted (s : State) (code tag : Nat) (args : List Word) : (s.submitted code tag args).part = s.part := by
  obtain ⟨r, hr⟩ := s.submitted_frame code tag args
  rw [hr]

/-- A field outside the transport's registers. -/
theorem State.f_submitted (s : State) (code tag : Nat) (args : List Word) {q : FieldRef} {i j : Nat}
    (hq : q.addr i j ∉ transportRegs) : (s.submitted code tag args).f q i j = s.f q i j :=
  (s.submitted_same code tag args).f_eq hq

theorem State.standby_submitted (s : State) (code tag : Nat) (args : List Word) :
    (s.submitted code tag args).standby = s.standby := by
  simp only [State.standby, State.on]
  rw [State.f_submitted _ _ _ _ (by decide), State.f_submitted _ _ _ _ (by decide)]

/-! ## The checks -/

/-- A command that passes the checks of R48. -/
theorem State.judged_passes {code : Nat} {own : Bool} {k : State → State} (hl : commandLegal code s.mode = true)
    (hs : s.standby = false ∨ standbyMay code = true) : s.judged code false own k = k s := by
  rw [State.judged, if_neg Bool.false_ne_true, hl, Bool.not_true, if_neg Bool.false_ne_true, if_neg]
  rintro ⟨hstand, -, hmay⟩
  rcases hs with h | h
  · rw [h] at hstand
    cases hstand
  · exact hmay h

/-- A command that is not legal in the mode. -/
theorem State.judged_illegal {code : Nat} {own : Bool} {k : State → State} (hl : commandLegal code s.mode = false) :
    s.judged code false own k = s.answer stRefused := by
  rw [State.judged, if_neg Bool.false_ne_true, hl, Bool.not_false, if_pos rfl]

/-- GET_MODE and CFG_STATUS are legal out of Reset. -/
theorem commandLegal_out {code : Nat} {m : Mode} (hc : code = 0x03 ∨ code = 0x12) (hm : m ≠ .reset) :
    commandLegal code m = true := by
  rcases hc with rfl | rfl
  · exact commandLegal_getMode hm
  · cases m with
    | reset => exact absurd rfl hm
    | _ => rfl

/-- CAL_RUN is legal in Bench alone. -/
theorem commandLegal_calRun {m : Mode} (hm : m ≠ .bench) : commandLegal 0x20 m = false := by
  cases m with
  | bench => exact absurd rfl hm
  | _ => rfl

/-- The codes of the command table. -/
theorem commandKnown_eq (code : Nat) : commandKnown code = isCommandCode code := by
  rw [isCommandCode, List.contains_eq_any_beq, commandKnown, commandTable]
  simp only [List.any_cons, List.any_nil, Bool.beq_comm (a := code)]

theorem State.f_setJob (s : State) (j : Option Job) (q : FieldRef) (i k : Nat) : (s.setJob j).f q i k = s.f q i k := (rfl)

theorem State.on_setJob (s : State) (j : Option Job) (q : FieldRef) (i k : Nat) : (s.setJob j).on q i k = s.on q i k := (rfl)

theorem State.arg_setJob (s : State) (j : Option Job) (i : Nat) : (s.setJob j).arg i = s.arg i := (rfl)

theorem State.word_setJob (s : State) (j : Option Job) (a : Nat) : (s.setJob j).word a = s.word a := (rfl)

/-- What a command leaves that is answered at once, by job `j`. -/
structure Answered (s : State) (j : Job) (t : State) : Prop where
  job : t.bur.job = some j
  frame : t = { s with regs := t.regs, bur := { s.bur with mirrored := false, job := t.bur.job } }
  same : SameBut transportRegs s t

theorem State.answered (s : State) (code tag : Nat) (args : List Word) (j : Job) :
    Answered s j ((s.submitted code tag args).setJob (some j)) := by
  obtain ⟨r, hr⟩ := s.submitted_frame code tag args
  refine ⟨rfl, ?_, fun a ha => ?_⟩
  · rw [hr]
    rfl
  · rw [State.word_setJob, s.submitted_same code tag args a ha]

/-! ## The commands -/

section
variable (tag : Nat) (h : s.takes = true)
include h

theorem execGetInfo_takes {a : Word} (hs : s.standby = false) (hl : commandLegal 0x01 s.mode = true) (ha : a.bit 0 = false) :
    exec (.getInfo tag [a]) s = .next ((s.submitted 1 tag [a]).setJob (some { Job.init with
      results := [argIs 0 (s.view Reg.DEV_ID.base).toNat, argIs 1 Config.dieId, argIs 2 (Config.dieId / 2 ^ 32),
        argIs 3 (s.view Reg.BUR_BOOT.base).toNat, argIs 4 (s.view Reg.BUR_POLICY.base).toNat, argIs 5 0] })) := by
  have harg : (s.submitted 1 tag [a]).arg 0 = a := s.arg_submitted 1 tag (by decide) rfl
  rw [exec, execGetInfo, State.submit_takes h, State.takeGetInfo, State.judged_passes, State.getInfo, harg, ha,
    State.view_submitted _ _ _ _ (by decide +kernel) (by decide), State.view_submitted _ _ _ _ (by decide +kernel) (by decide),
    State.view_submitted _ _ _ _ (by decide +kernel) (by decide)]
  · rfl
  · rw [State.mode_submitted, hl]
  · rw [State.standby_submitted]
    exact .inl hs

theorem execGetMode_takes : exec (.getMode tag []) s = .next ((s.submitted 3 tag []).setJob (some { Job.init with
    results := [argIs 0 (s.view Reg.DEV_MODE.base).toNat, argIs 1 (s.view Reg.DEV_COMPAT.base).toNat] })) := by
  obtain ⟨-, -, hm⟩ := s.takes_iff.mp h
  rw [exec, execGetMode, State.submit_takes h, State.takeGetMode, State.judged_passes,
    State.view_submitted _ _ _ _ (by decide +kernel) (by decide), State.view_submitted _ _ _ _ (by decide +kernel) (by decide)]
  · rfl
  · rw [State.mode_submitted, commandLegal_out (.inl rfl) hm]
  · exact .inr rfl

theorem execCfgStatus_takes : exec (.cfgStatus tag []) s = .next ((s.submitted 0x12 tag []).setJob (some { Job.init with
    results := [argIs 0 (s.view Reg.CFG_STAT.base).toNat, argIs 1 (s.view Reg.CFG_WORDS.base).toNat,
      argIs 2 (s.view Reg.CFG_FRAMES.base).toNat, argIs 3 (s.view Reg.CFG_ERRPOS.base).toNat,
      argIs 4 (s.view Reg.SCRB_RLD_STAT.base).toNat] })) := by
  obtain ⟨-, -, hm⟩ := s.takes_iff.mp h
  rw [exec, execCfgStatus, State.submit_takes h, State.takeCfgStatus, State.judged_passes]
  · dsimp only
    rw [State.view_submitted _ _ _ _ (by decide +kernel) (by decide), State.view_submitted _ _ _ _ (by decide +kernel) (by decide),
      State.view_submitted _ _ _ _ (by decide +kernel) (by decide), State.view_submitted _ _ _ _ (by decide +kernel) (by decide),
      State.view_submitted _ _ _ _ (by decide +kernel) (by decide)]
    rfl
  · rw [State.mode_submitted, commandLegal_out (.inr rfl) hm]
  · exact .inr rfl

theorem execUnknown_takes {code : Nat} (hc : code < 256) (hk : isCommandCode code = false) :
    exec (.unknownCommandCode code tag) s =
      .next ((s.submitted code tag []).setJob (some { Job.init with status := stBadArg })) := by
  have hknown : commandKnown code = false := (commandKnown_eq code).trans hk
  rw [exec, execUnknownCommandCode, if_neg, State.submit_takes h]
  · rfl
  · simpa [hknown] using hc

theorem execCalRun_refused {args : List Word} (meas : List CalMeas) (hm : s.mode ≠ .bench) (hn : args ≠ [])
    (hcls : (args.headD 0).bits 0 3 = 0) : exec (.calRun tag args meas) s =
      .next ((s.submitted 0x20 tag args).setJob (some { Job.init with status := stRefused })) := by
  have harg : (s.submitted 0x20 tag args).arg 0 = args.headD 0 :=
    s.arg_submitted 0x20 tag (by decide) (by cases args with | nil => exact absurd rfl hn | cons w l => rfl)
  have habsent : (s.submitted 0x20 tag args).calAbsent = false := by
    rw [State.calAbsent, harg]
    exact if_pos hcls
  rw [exec, execCalRun, State.submit_takes h, State.takeCalRun, habsent, State.judged_illegal]
  · rfl
  · rw [State.mode_submitted, commandLegal_calRun hm]

end

/-! ### PWR_CEILING -/

/-- A ceiling that allows the mode: it is stored, and the old one is answered. -/
theorem execPwrCeiling_takes (tag : Nat) {c : Word} (h : s.takes = true) (hs : s.standby = false)
    (hl : commandLegal 0x50 s.mode = true)
    (hc : c.bits 0 4 = 5 ∨ c.bits 0 4 = 7 ∨ c.bits 0 4 = 8 ∨ c.bits 0 4 = 9) (hm : s.mode.code ≤ c.bits 0 4) :
    exec (.pwrCeiling tag [c]) s = .next (((s.submitted 0x50 tag [c]).setF Fld.PWR_STAT_CEIL (c.bits 0 4)).setJob
      (some { Job.init with results := [argIs 0 (s.f Fld.PWR_STAT_CEIL)] })) := by
  have harg : (s.submitted 0x50 tag [c]).arg 0 = c := s.arg_submitted 0x50 tag (by decide) rfl
  rw [exec, execPwrCeiling, State.submit_takes h, State.takePwrCeiling, State.judged_passes, State.pwrCeiling, harg,
    State.f_submitted _ _ _ _ (by decide)]
  · dsimp only
    rw [if_neg (not_not_intro hc), if_neg]
    · rfl
    · rw [State.setF_mode, State.mode_submitted]
      exact hm.not_gt
  · rw [State.mode_submitted, hl]
  · rw [State.standby_submitted]
    exact .inl hs

/-- What PWR_CEILING leaves, answered by job `j`. -/
theorem State.ceiling_spec (s : State) (tag : Nat) (c : Word) (j : Job) :
    ∃ t, ((s.submitted 0x50 tag [c]).setF Fld.PWR_STAT_CEIL (c.bits 0 4)).setJob (some j) = t ∧
      t.f Fld.PWR_STAT_CEIL = c.bits 0 4 ∧ t.bur.job = some j ∧
      t = { s with regs := t.regs, bur := { s.bur with mirrored := false, job := t.bur.job } } ∧
      SameBut (Reg.PWR_STAT.base :: transportRegs) s t := by
  obtain ⟨r, hr⟩ := s.submitted_frame 0x50 tag [c]
  have hw : WritesOnly [Reg.PWR_STAT.base] (s.submitted 0x50 tag [c])
      ((s.submitted 0x50 tag [c]).setF Fld.PWR_STAT_CEIL (c.bits 0 4)) := .setF .refl (by decide)
  obtain ⟨r', hr'⟩ : ∃ r', (s.submitted 0x50 tag [c]).setF Fld.PWR_STAT_CEIL (c.bits 0 4) =
      { s.submitted 0x50 tag [c] with regs := r' } := ⟨_, hw.frame⟩
  refine ⟨_, rfl, ?_, rfl, ?_, fun a ha => ?_⟩
  · rw [State.f, State.word_setJob, ← State.f, State.f_setF _ _ _ _ _ (by decide)]
    exact Nat.mod_mod _ _
  · rw [hr', hr]
    rfl
  · rw [State.word_setJob, hw.same a (fun hm => ha (List.mem_cons.mpr (.inl (List.mem_singleton.mp hm)))),
      s.submitted_same 0x50 tag [c] a fun hm => ha (List.mem_cons_of_mem _ hm)]

/-- A command that is submitted while another is in progress. -/
theorem State.submit_busy {j : Job} (hb : s.on Fld.BUR_STATUS_BUSY = true) (hj : s.bur.job = some j) (i : Instr)
    (code tag : Nat) (args : List Word) (k : Bool → State → State) :
    s.submit i code tag args k = s.flag Fld.BUR_STATUS_IGN := by
  unfold State.submit
  rw [if_pos hb, if_neg]
  rw [hj]
  exact fun h => nomatch h.1

/-- Settles O51: each command as the Bureau finds it, `State.submitted`, and what it is answered. -/
theorem bureauTransport : Obligations.BureauTransport := by
  refine ⟨fun s tag a h hs hl ha => ?_, fun s tag h _ => ?_, fun s tag h _ => ?_, fun s tag c h hs hl hc hm => ?_,
    fun s code tag hc hk h => ?_, fun s tag args meas h hs hm hlen hcls hn => ?_, fun s tag args j hb hj => ?_⟩
  · obtain ⟨hbusy, hcode, htag⟩ := s.submitted_shows 1 tag [a]
    obtain ⟨hjob, hframe, hsame⟩ := s.answered 1 tag [a] _
    exact ⟨_, execGetInfo_takes tag h hs hl ha, (State.on_setJob ..).trans hbusy, (State.f_setJob ..).trans hcode,
      (State.f_setJob ..).trans htag, (State.arg_setJob ..).trans (s.arg_submitted 1 tag (by decide) rfl), hjob, hframe, hsame⟩
  · obtain ⟨hjob, hframe, hsame⟩ := s.answered 3 tag [] _
    exact ⟨_, execGetMode_takes tag h, hjob, hframe, hsame⟩
  · obtain ⟨hjob, hframe, hsame⟩ := s.answered 0x12 tag [] _
    exact ⟨_, execCfgStatus_takes tag h, hjob, hframe, hsame⟩
  · obtain ⟨t, ht, hspec⟩ := s.ceiling_spec tag c _
    exact ⟨t, (execPwrCeiling_takes tag h hs hl hc hm).trans (congrArg _ ht), hspec⟩
  · obtain ⟨hjob, hframe, hsame⟩ := s.answered code tag [] _
    obtain ⟨-, hcode, -⟩ := s.submitted_shows code tag []
    exact ⟨_, execUnknown_takes tag h hc hk, hjob, (State.f_setJob ..).trans (hcode.trans (Nat.mod_eq_of_lt hc)),
      hframe, hsame⟩
  · obtain ⟨hjob, hframe, hsame⟩ := s.answered 0x20 tag args _
    exact ⟨_, execCalRun_refused tag h meas hm (List.ne_nil_of_length_pos (Nat.pos_of_ne_zero hn)) hcls, hjob, hframe, hsame⟩
  · exact ⟨_, congrArg Host.Outcome.next (State.submit_busy hb hj ..), rfl⟩

end

end Sys2Proof.Machine
end

/-!
# The commands that change the mode (O52)

Each as the Bureau finds it, `State.submitted`; then what an entry to Blank, Bench, Load and Partial leaves.
-/

section
namespace Sys2Proof.Machine

section
variable {s t u : State}

/-! ## Acceptance -/

/-- What a command leaves of `s`, which it finds as `State.submitted`, where it keeps that. -/
theorem Kept.nv_submitted {code tag : Nat} {args : List Word} (h : Kept (s.submitted code tag args) t) :
    t.bur.nv = s.bur.nv := by
  obtain ⟨r, hr⟩ := s.submitted_frame code tag args
  rw [h.bur, hr]

theorem State.bur_submitted (s : State) (code tag : Nat) (args : List Word) :
    (s.submitted code tag args).bur = { s.bur with mirrored := false } := by
  obtain ⟨r, hr⟩ := s.submitted_frame code tag args
  rw [hr]

theorem State.frames_submitted (s : State) (code tag : Nat) (args : List Word) :
    (s.submitted code tag args).frames = s.frames := by
  obtain ⟨r, hr⟩ := s.submitted_frame code tag args
  rw [hr]

theorem State.pwr_submitted (s : State) (code tag : Nat) (args : List Word) :
    (s.submitted code tag args).pwr = s.pwr := by
  obtain ⟨r, hr⟩ := s.submitted_frame code tag args
  rw [hr]

theorem State.cab_submitted (s : State) (code tag : Nat) (args : List Word) (k : Nat) :
    (s.submitted code tag args).cab k = s.cab k := by
  obtain ⟨r, hr⟩ := s.submitted_frame code tag args
  rw [hr]
  rfl

theorem State.groups_submitted (s : State) (code tag : Nat) (args : List Word) :
    (s.submitted code tag args).groups = s.groups := by
  obtain ⟨r, hr⟩ := s.submitted_frame code tag args
  rw [hr]

/-- A command of the table that is not for another part and legal in the mode does its own work. -/
theorem State.submitted_judged {code tag : Nat} {args : List Word} {k : State → State} (hs : s.standby = false)
    (hl : commandLegal code s.mode = true) :
    (s.submitted code tag args).judged code false true k = k (s.submitted code tag args) :=
  State.judged_passes (by rw [State.mode_submitted, hl]) (.inl (by rw [State.standby_submitted, hs]))

/-! ## SET_MODE -/

theorem execSetMode_takes (tag : Nat) (args : List Word) (h : s.takes = true) (hs : s.standby = false)
    (hl : commandLegal 0x02 s.mode = true) : exec (.setMode tag args) s = .next (s.submitted 2 tag args).setModeCmd := by
  rw [exec, execSetMode, State.submit_takes h, State.takeSetMode, State.submitted_judged hs hl]

/-- A target outside Blank, Run and Bench. -/
theorem State.setModeCmd_bad (h1 : (s.arg 0).bits 0 4 ≠ 1) (h5 : (s.arg 0).bits 0 4 ≠ 5) (h10 : (s.arg 0).bits 0 4 ≠ 10) :
    s.setModeCmd = s.answer stBadArg := by
  simp [State.setModeCmd, h1, h5, h10]

/-- The mode itself as the target. -/
theorem State.setModeCmd_same (h : (s.arg 0).bits 0 4 = 1 ∨ (s.arg 0).bits 0 4 = 5 ∨ (s.arg 0).bits 0 4 = 10)
    (hm : (s.arg 0).bits 0 4 = s.mode.code) : s.setModeCmd = s.answer stOk := by
  rw [State.setModeCmd, if_neg (not_not_intro h), if_pos hm]

theorem State.setModeCmd_bench (h : (s.arg 0).bits 0 4 = 10) (hm : s.mode = .run ∨ s.mode = .blank) :
    s.setModeCmd = s.goBench.answer stOk := by
  rcases hm with hm | hm <;> simp [State.setModeCmd, h, hm, Mode.code]

theorem State.setModeCmd_run (h : (s.arg 0).bits 0 4 = 5) (hm : s.mode = .bench) (hp : s.prevMode = 5) :
    s.setModeCmd = s.benchToRun.answer stOk := by
  simp [State.setModeCmd, h, hm, hp, Mode.code]

theorem State.setModeCmd_blank (h : (s.arg 0).bits 0 4 = 1)
    (hm : s.mode = .run ∨ s.mode = .faultMode ∨ (s.mode = .bench ∧ s.prevMode = 1)) :
    s.setModeCmd = (s.goBlank 2 true).answer stOk := by
  rcases hm with hm | hm | ⟨hm, hp⟩
  · simp [State.setModeCmd, h, hm, Mode.code]
  · simp [State.setModeCmd, h, hm, Mode.code]
  · simp [State.setModeCmd, h, hm, hp, Mode.code]

theorem State.setModeCmd_wake (h : (s.arg 0).bits 0 4 = 5) (hm : s.mode = .doze ∨ s.mode = .nap ∨ s.mode = .slumber) :
    s.setModeCmd = (s.wakeOwn 5).answer stOk := by
  rcases hm with hm | hm | hm <;> simp [State.setModeCmd, h, hm, Mode.code]

/-- The pairs that the table of R37 does not list. -/
theorem State.setModeCmd_refused
    (h : (s.mode = .blank ∧ (s.arg 0).bits 0 4 = 5) ∨
      (s.mode = .faultMode ∧ ((s.arg 0).bits 0 4 = 5 ∨ (s.arg 0).bits 0 4 = 10)) ∨
      (s.mode = .bench ∧ ((s.arg 0).bits 0 4 = 1 ∨ (s.arg 0).bits 0 4 = 5) ∧ (s.arg 0).bits 0 4 ≠ s.prevMode) ∨
      ((s.mode = .doze ∨ s.mode = .nap ∨ s.mode = .slumber) ∧ ((s.arg 0).bits 0 4 = 1 ∨ (s.arg 0).bits 0 4 = 10))) :
    s.setModeCmd = s.answer stRefused := by
  rcases h with ⟨hm, ha⟩ | ⟨hm, ha⟩ | ⟨hm, ha, hp⟩ | ⟨hm, ha⟩
  · simp [State.setModeCmd, ha, hm, Mode.code]
  · rcases ha with ha | ha <;> simp [State.setModeCmd, ha, hm, Mode.code]
  · rcases ha with ha | ha
    · rw [ha] at hp
      simp [State.setModeCmd, ha, hm, hp, Mode.code]
    · rw [ha] at hp
      simp [State.setModeCmd, ha, hm, hp, Mode.code]
  · rcases hm with hm | hm | hm <;> rcases ha with ha | ha <;> simp [State.setModeCmd, ha, hm, Mode.code]

/-! ### Entry to Blank -/

/-- What an entry to Blank does beside the registers. -/
theorem State.enterBlank_ends (s : State) : (s.enterBlank false).stream.active = false ∧
    (s.enterBlank false).dio.ioOn = false ∧ (s.enterBlank false).pins.done = false := by
  unfold State.enterBlank
  extract_lets n
  clear_value n
  exact ⟨rfl, rfl, rfl⟩

/-- Entry to Blank ends what runs; the mode, the Bureau and DEV_MODE are the transition's. -/
theorem State.enterBlank_spec (s : State) (frames : Bool) :
    (s.enterBlank frames).stream.active = false ∧ (s.enterBlank frames).dio.ioOn = false ∧
      (s.enterBlank frames).pins.done = false ∧ (s.enterBlank frames).mode = s.mode ∧ (s.enterBlank frames).bur = s.bur ∧
      (s.enterBlank frames).f Fld.CFG_STAT_PHASE = s.f Fld.CFG_STAT_PHASE := by
  obtain ⟨hmode, -, hbur, -, hfields⟩ := (Kept.refl (s := s)).enterBlank
  have hphase := hfields Fld.CFG_STAT_PHASE (by decide)
  obtain ⟨hstream, hdio, hpins⟩ := s.enterBlank_ends
  cases frames with
  | false => exact ⟨hstream, hdio, hpins, hmode, hbur, hphase⟩
  | true =>
    rw [State.enterBlank_true]
    generalize s.enterBlank false = n at *
    exact ⟨hstream, hdio, hpins, hmode, hbur, hphase⟩

theorem State.frames_enterBlank (s : State) :
    (s.enterBlank true).frames = [] ∧ (s.enterBlank true).checks = [] ∧ (s.enterBlank false).frames = s.frames := by
  rw [State.enterBlank_true]
  exact ⟨rfl, rfl, (Kept.refl (s := s)).enterBlank.frames⟩

/-- An entry to Blank by transition. -/
theorem State.goBlank_spec (s : State) (cause : Nat) (frames : Bool) :
    (s.goBlank cause frames).mode = .blank ∧ (s.goBlank cause frames).f Fld.DEV_MODE_CAUSE = cause % 16 ∧
      (s.goBlank cause frames).f Fld.DEV_MODE_PREV = s.mode.code ∧ (s.goBlank cause frames).stream.active = false ∧
      (s.goBlank cause frames).dio.ioOn = false ∧ (s.goBlank cause frames).pins.done = false ∧
      (s.goBlank cause frames).f Fld.CFG_STAT_PHASE = s.f Fld.CFG_STAT_PHASE ∧
      (s.goBlank cause frames).bur.nv = s.bur.nv := by
  obtain ⟨hstream, hdio, hpins, hmode, hbur, hphase⟩ := s.enterBlank_spec frames
  rw [State.goBlank]
  refine ⟨State.toMode_mode .., State.toMode_cause .., ?_, ?_, ?_, ?_, ?_, ?_⟩
  · rw [State.toMode_prev, hmode]
  · rw [State.toMode_stream, hstream]
  · rw [State.toMode_frame]
    exact hdio
  · rw [State.toMode_done, hpins]
  · rw [State.f_toMode_beside _ _ _ (by decide) (by decide), hphase]
  · rw [State.toMode_bur, hbur]

theorem State.toMode_cab (s : State) (m : Mode) (cause k : Nat) : (s.toMode m cause).cab k = s.cab k := by
  rw [State.toMode_frame, State.testEnded]
  rfl

theorem State.toMode_frames (s : State) (m : Mode) (cause : Nat) :
    (s.toMode m cause).frames = s.frames ∧ (s.toMode m cause).checks = s.checks := by
  rw [State.toMode_frame, State.testEnded]
  exact ⟨rfl, rfl⟩

theorem State.frames_goBlank (s : State) (cause : Nat) :
    (s.goBlank cause true).frames = [] ∧ (s.goBlank cause true).checks = [] := by
  obtain ⟨hframes, hchecks, -⟩ := s.frames_enterBlank
  obtain ⟨hf, hc⟩ := (s.enterBlank true).toMode_frames .blank cause
  exact ⟨hf.trans hframes, hc.trans hchecks⟩

theorem State.frames_goBlank_false (s : State) (cause : Nat) : (s.goBlank cause false).frames = s.frames :=
  ((s.enterBlank false).toMode_frames .blank cause).1.trans s.frames_enterBlank.2.2

/-! ### Loads -/

theorem State.loadEmptied_bur (s : State) (src ring : Nat) : (s.loadEmptied src ring).bur = s.bur := by
  by_cases hm : s.mode = .blank
  · exact (Kept.loadEmptied_of_blank hm Kept.refl).bur
  · obtain ⟨-, -, -, -, hbur, -⟩ := s.enterBlank_spec true
    rw [State.loadEmptied, if_neg hm]
    exact hbur

theorem execCfgBegin_takes {tag : Nat} {a : Word} (h : s.takes = true) (hs : s.standby = false)
    (hl : commandLegal 0x10 s.mode = true) (ha : a.bits 0 3 = 0 ∨ a.bits 0 3 = 2) :
    ∃ ring, exec (.cfgBegin tag [a]) s = .next (((s.submitted 0x10 tag [a]).goLoad (a.bits 0 3) ring 3).answer stOk) := by
  have harg : (s.submitted 0x10 tag [a]).arg 0 = a := s.arg_submitted 0x10 tag (by decide) rfl
  have habsent : (a.bits 0 3 == 3 && !(s.submitted 0x10 tag [a]).part.isTwin) = false := by
    rcases ha with ha | ha <;> rw [ha] <;> rfl
  refine ⟨((s.submitted 0x10 tag [a]).arg 1).bits 0 12, ?_⟩
  rw [exec, execCfgBegin, State.submit_takes h, State.takeCfgBegin, harg, habsent, State.submitted_judged hs hl, State.cfgBegin,
    harg, if_neg (by omega)]

/-- `s` with a full load aborted by the host (R338, R367). -/
def State.aborted (s : State) : State :=
  ((s.setF Fld.CFG_ERRPOS (s.f Fld.CFG_WORDS)).setF Fld.CFG_STAT_PHASE 7).goBlank 9 false

theorem State.aborted_spec (s : State) : s.aborted.mode = .blank ∧ s.aborted.f Fld.DEV_MODE_CAUSE = 9 ∧
    s.aborted.stream.active = false ∧ s.aborted.f Fld.CFG_STAT_PHASE = 7 ∧ s.aborted.frames = s.frames ∧
    s.aborted.bur.nv = s.bur.nv := by
  obtain ⟨hmode, hcause, -, hstream, -, -, hphase, hnv⟩ :=
    ((s.setF Fld.CFG_ERRPOS (s.f Fld.CFG_WORDS)).setF Fld.CFG_STAT_PHASE 7).goBlank_spec 9 false
  rw [State.f_setF _ _ _ _ _ (by decide)] at hphase
  rw [State.setF_bur, State.setF_bur] at hnv
  unfold State.aborted
  refine ⟨hmode, hcause, hstream, hphase, ?_, hnv⟩
  rw [State.frames_goBlank_false, State.setF_frames, State.setF_frames]

theorem execCfgAbort_takes {tag : Nat} (h : s.takes = true) (hs : s.standby = false) (hm : s.mode = .load) :
    exec (.cfgAbort tag []) s = .next ((s.submitted 0x11 tag []).aborted.answer stOk) := by
  have hl : commandLegal 0x11 s.mode = true := by rw [hm]; rfl
  rw [exec, execCfgAbort, State.submit_takes h, State.takeCfgAbort, State.submitted_judged hs hl, State.cfgAbort,
    State.mode_submitted, if_pos hm, State.aborted]

/-! ### Exit from a low-power state -/

theorem State.f_setSettled (s : State) (g : Nat) (b : Bool) {q : FieldRef} (hq : 0x400000 ≤ q.base) (hg : g < 24) :
    (s.setSettled g b).f q = s.f q := by
  unfold State.setSettled
  split
  · rfl
  · rw [State.flag, State.setB, State.f_setF_of_addr, State.f_setF_of_addr]
    · simp only [FieldRef.addr, Fld.CG_STAT_REF_SETTLED]
      omega
    · simp only [FieldRef.addr, Fld.CG_IRQ_REF_CHG]
      omega

theorem State.pwr_setSettled (s : State) (g : Nat) (b : Bool) : (s.setSettled g b).pwr = s.pwr := by
  unfold State.setSettled
  split <;> rfl

/-- The exit starts: the references settle again. -/
theorem State.leave_spec (s : State) : s.leave.pwr.stage = .leaving ∧ s.leave.pwr.cause = s.pwr.cause ∧
    s.leave.f Fld.PWR_STAT_WHY = s.f Fld.PWR_STAT_WHY := by
  unfold State.leave
  extract_lets _ n
  have hn : n.pwr.stage = .leaving ∧ n.pwr.cause = s.pwr.cause ∧ n.f Fld.PWR_STAT_WHY = s.f Fld.PWR_STAT_WHY :=
    ⟨rfl, rfl, rfl⟩
  split
  · exact hn
  · have hpwr : ((List.range n.part.numCG).foldl (fun s g => s.setSettled g false) n).pwr = n.pwr :=
      foldl_preserves State.pwr (fun t g => t.pwr_setSettled g false) _ _
    have hwhy : ((List.range n.part.numCG).foldl (fun s g => s.setSettled g false) n).f Fld.PWR_STAT_WHY =
        n.f Fld.PWR_STAT_WHY :=
      List.foldlRecOn _ _ (motive := fun t : State => t.f Fld.PWR_STAT_WHY = n.f Fld.PWR_STAT_WHY) rfl fun t ht g hg =>
        (t.f_setSettled g false (by decide)
          (Nat.lt_of_lt_of_le (List.mem_range.mp hg) (numCG_le _))).trans ht
    rw [hpwr, hwhy]
    exact hn

/-- A host's wake out of a state that the device is in. -/
theorem State.wakeOwn_spec (s : State) (hm : s.mode.low = true) (hp : s.pwr.stage = .asleep) :
    (s.wakeOwn 5).pwr.stage = .leaving ∧ (s.wakeOwn 5).pwr.cause = 2 ∧ (s.wakeOwn 5).f Fld.PWR_STAT_WHY = 5 := by
  rw [State.wakeOwn, if_pos hm, hp]
  dsimp only
  obtain ⟨hstage, hcause, hwhy⟩ :=
    (({ s with pwr := { s.pwr with cause := if 5 = 5 then 2 else 13 } } : State).setF Fld.PWR_STAT_WHY 5).leave_spec
  refine ⟨hstage, hcause.trans rfl, hwhy.trans ?_⟩
  rw [State.f_setF _ _ _ _ _ (by decide)]
  rfl

/-! ### Groups, one after another -/

/-- A fold over distinct indices of which step `k` alone changes `p`, in a way that `R` describes. -/
theorem foldl_once {σ ι α : Type} {f : σ → ι → σ} (p : σ → α) (R : α → α → Prop) {k : ι}
    (hp : ∀ s j, j ≠ k → p (f s j) = p s) (hk : ∀ s, R (p s) (p (f s k))) {l : List ι} (hl : l.Nodup) (hm : k ∈ l)
    (s : σ) : R (p s) (p (l.foldl f s)) := by
  induction l generalizing s with
  | nil => cases hm
  | cons j l ih =>
    obtain ⟨hj, hl⟩ := List.nodup_cons.mp hl
    rw [List.foldl_cons]
    by_cases h : j = k
    · subst h
      have hrest (t : σ) : p (l.foldl f t) = p t :=
        List.foldlRecOn l f (motive := fun u => p u = p t) rfl fun u hu i hi =>
          (hp u i fun e => hj (e ▸ hi)).trans hu
      rw [hrest]
      exact hk s
    · rw [← hp s j h]
      exact ih hl ((List.mem_cons.mp hm).resolve_left (Ne.symm h)) _

/-- A fold over the groups that the part has. -/
theorem foldl_groups {n g : Nat} {f : State → Nat → State} (hg : g < n) (R : Group → Group → Prop)
    (hp : ∀ (s : State) (j : Nat), j ≠ g → (f s j).group g = s.group g) (hk : ∀ s : State, R (s.group g) ((f s g).group g))
    (s : State) : R (s.group g) (((List.range n).foldl f s).group g) :=
  foldl_once (fun s : State => s.group g) R hp hk List.nodup_range (List.mem_range.mpr hg) s

theorem State.group_setGroup_of_ne (s : State) {j g : Nat} (x : Group) (h : j ≠ g) : (s.setGroup j x).group g = s.group g := by
  rw [State.group_setGroup, if_neg (by omega)]

theorem State.group_setGroup_same (s : State) (g : Nat) (x : Group) : (s.setGroup g x).group g = x := by
  rw [State.group_setGroup, if_pos rfl]

theorem State.group_cgCommit_of_ne (s : State) {j g : Nat} (h : j ≠ g) : (s.cgCommit j).group g = s.group g := by
  unfold State.cgCommit
  dsimp only
  rw [State.group_congr (s := s.setGroup j { s.group j with
    core := (s.group j).core.settleUp, base := none, reqs := CgReqs.nil }), State.group_setGroup_of_ne _ _ h]
  simp only [State.setF_groups, State.groups_flagIf, State.addSat_eq, State.addWrap_eq]

/-- The sequencer of a group acts at once. -/
theorem State.group_cgNow (s : State) (g : Nat) (k : CgCore → CgCore) : (s.cgNow g k).group g =
    { s.group g with core := (k (s.group g).core).settleUp, base := none, reqs := CgReqs.nil } := by
  rw [State.cgNow, State.group_cgCommit, State.setCore, State.group_setGroup_same]

theorem State.group_cgNow_of_ne (s : State) {j g : Nat} (k : CgCore → CgCore) (h : j ≠ g) :
    (s.cgNow j k).group g = s.group g := by
  rw [State.cgNow, State.group_cgCommit_of_ne _ h, State.setCore, State.group_setGroup_of_ne _ _ h]

section
variable {g : Nat} (hg : g < s.part.numCG)
include hg

/-- Every group's sequencer does `k` at once, by what it reads of its registers. -/
theorem State.group_allNow (k : SeqCfg → CgCore → CgCore) :
    ∃ f, ((List.range s.part.numCG).foldl (fun s g => s.cgNow g (k (s.seqCfg g))) s).group g =
      { s.group g with core := (k f (s.group g).core).settleUp, base := none, reqs := CgReqs.nil } :=
  foldl_groups (f := fun s g => s.cgNow g (k (s.seqCfg g))) hg
    (fun x y => ∃ f, y = { x with core := (k f x.core).settleUp, base := none, reqs := CgReqs.nil })
    (fun t j h => t.group_cgNow_of_ne (k (t.seqCfg j)) h) (fun t => ⟨t.seqCfg g, t.group_cgNow g (k (t.seqCfg g))⟩) s

theorem State.group_pauseGroups : ∃ f, s.pauseGroups.group g =
    { s.group g with core := ((s.group g).core.pause f).settleUp, base := none, reqs := CgReqs.nil } :=
  State.group_allNow hg fun f c => c.pause f

theorem State.group_resumeGroups : ∃ f, s.resumeGroups.group g =
    { s.group g with core := ((s.group g).core.resume f).settleUp, base := none, reqs := CgReqs.nil } :=
  State.group_allNow hg fun f c => c.resume f

/-- An entry to Bench leaves no word in a delay line. -/
theorem State.group_benchGroups : (s.benchGroups.group g).core.held = [] ∧
    (s.benchGroups.group g).core.seq = (s.group g).core.seq ∧
    (s.benchGroups.group g).core.pdisc = (s.group g).core.pdisc + 4 * (s.group g).core.held.length ∧
    (s.benchGroups.group g).core.conv = (s.group g).core.conv ∧ (s.benchGroups.group g).core.emit = (s.group g).core.emit ∧
    (s.benchGroups.group g).rot = (s.group g).rot := by
  unfold State.benchGroups
  refine foldl_groups hg (fun x y => y.core.held = [] ∧ y.core.seq = x.core.seq ∧
      y.core.pdisc = x.core.pdisc + 4 * x.core.held.length ∧ y.core.conv = x.core.conv ∧ y.core.emit = x.core.emit ∧
      y.rot = x.rot)
    (fun t _ h => t.group_cgNow_of_ne _ h) (fun t => ?_) s
  rw [State.group_cgNow]
  exact ⟨rfl, rfl, rfl, rfl, rfl, rfl⟩

end

/-! ### Entry to Bench and the return -/

/-- The state of a sequence in a mode in which the positions do not convert. -/
def SeqSt.atRest : SeqSt → SeqSt
  | .idle => .idle
  | .armed => .armed
  | _ => .paused

/-- A transition that is due is one between entries. -/
theorem atRest_advance (c : CgCore) (f : SeqCfg) :
    (c.advance f).seq.st.atRest = c.seq.st.atRest ∧ (c.advance f).emit = c.emit := by
  unfold CgCore.advance CgCore.start
  dsimp only
  cases hs : c.seq.st with
  | idle | armed | paused => exact ⟨congrArg SeqSt.atRest hs, rfl⟩
  | settle | usettle | dwell =>
    dsimp only
    split
    · exact ⟨rfl, rfl⟩
    · exact ⟨congrArg SeqSt.atRest hs, rfl⟩
  | udwell =>
    dsimp only
    split
    · split <;> exact ⟨rfl, rfl⟩
    · exact ⟨congrArg SeqSt.atRest hs, rfl⟩

/-- The beats of a partial dwell are discarded, and the others stay (R133, R137). -/
theorem interrupt_words (c : CgCore) : c.interrupt.pdisc + 4 * c.interrupt.held.length = c.pdisc + 4 * c.held.length := by
  have hlen := List.length_eq_length_filter_add (l := c.held) (·.done)
  change c.pdisc + 4 * (c.held.filter fun h => !h.done).length + 4 * (c.held.filter fun h => h.done).length = _
  omega

/-- A pause discards the partial dwell of a sequence that runs; the words of the core are accounted for (R135, R137). -/
theorem pause_spec (c : CgCore) (f : SeqCfg) : (c.pause f).seq.st = c.seq.st.atRest ∧
    (c.pause f).pdisc + 4 * (c.pause f).held.length = c.pdisc + 4 * c.held.length ∧ (c.pause f).conv = c.conv ∧
    (c.pause f).emit = c.emit := by
  obtain ⟨hconv, hpdisc, hheld⟩ := advance_counts c f
  obtain ⟨hrest, hemit⟩ := atRest_advance c f
  rw [← hrest, ← hconv, ← hpdisc, ← hheld, ← hemit]
  unfold CgCore.pause
  generalize c.advance f = d
  cases hs : d.seq.st with
  | idle | armed | paused =>
    simp only [hs, SeqSt.atRest, and_self]
  | settle | dwell | usettle | udwell =>
    simp only [hs]
    exact ⟨rfl, interrupt_words d, rfl, rfl⟩

theorem resume_spec (c : CgCore) (f : SeqCfg) (h : c.seq.st = .paused) : (c.resume f).seq.st = .settle ∧
    (c.resume f).seq.entry = if c.seq.restart then 0 else c.seq.resume := by
  rw [CgCore.resume, if_pos h]
  cases c.seq.restart <;> exact ⟨rfl, rfl⟩

/-! An abandoned handover changes no core. -/

theorem State.group_setRot (s : State) (j g : Nat) (r : Rotation) :
    (s.setRot j r).group g = if j = g then { s.group j with rot := r } else s.group g :=
  State.group_setGroup ..

theorem State.group_abandon (s : State) (j : Nat) :
    ∃ r : Rotation, r.overlap = none ∧ ∀ g, (s.abandon j).group g = (s.setRot j r).group g := by
  unfold State.abandon
  dsimp only
  split
  · next h =>
    refine ⟨s.rot j, h, fun g => ?_⟩
    rw [State.group_setRot]
    split
    · next hj =>
      subst hj
      rfl
    · rfl
  · next o _ =>
    refine ⟨{ s.rot j with
      overlap := none, abandons := (s.rot j).abandons + 1,
      notBefore := s.lcs.time + abandonWait ((s.rot j).abandons + 1) }, rfl, fun g => State.group_congr ?_ g⟩
    simp only [State.setRotst, State.logHandover, State.setF_groups, State.addSat_eq]

theorem State.group_abandonAll {g : Nat} (hg : g < s.part.numCG) :
    (s.abandonAll.group g).core = (s.group g).core ∧ (s.abandonAll.group g).rot.overlap = none := by
  refine foldl_groups (f := fun s g => s.abandon g) hg (fun x y => y.core = x.core ∧ y.rot.overlap = none)
    (fun t j h => ?_) (fun t => ?_) s
  · obtain ⟨r, -, hr⟩ := t.group_abandon j
    rw [hr, State.group_setRot, if_neg h]
  · obtain ⟨r, ho, hr⟩ := t.group_abandon g
    rw [hr, State.group_setRot, if_pos rfl]
    exact ⟨rfl, ho⟩

/-! ### What leaves the groups alone -/

/-- `t` has the groups of `s`. -/
structure GroupsKept (s t : State) : Prop where
  groups : t.groups = s.groups

namespace GroupsKept

theorem refl : GroupsKept s s := ⟨rfl⟩

theorem same (h : GroupsKept u s) (e : t.groups = s.groups) : GroupsKept u t := ⟨e.trans h.groups⟩

theorem ite {c : Prop} [Decidable c] (ht : GroupsKept u s) (hu : GroupsKept u t) : GroupsKept u (if c then s else t) := by
  split <;> assumption

theorem foldl {β : Type} {f : State → β → State} {l : List β} (h : GroupsKept u s)
    (hf : ∀ {t b}, GroupsKept u t → GroupsKept u (f t b)) : GroupsKept u (l.foldl f s) :=
  List.foldlRecOn l f h fun _ ht _ _ => hf ht

theorem setWord {a w} (h : GroupsKept u s) : GroupsKept u (s.setWord a w) := h.same rfl

theorem setF {r v i j} (h : GroupsKept u s) : GroupsKept u (s.setF r v i j) := h.same rfl

theorem setB {r v i j} (h : GroupsKept u s) : GroupsKept u (s.setB r v i j) := h.same rfl

theorem flag {r i j} (h : GroupsKept u s) : GroupsKept u (s.flag r i j) := h.same rfl

theorem flagIf {b r i j} (h : GroupsKept u s) : GroupsKept u (s.flagIf b r i j) := .ite h.flag h

theorem addWrap {r v i j} (h : GroupsKept u s) : GroupsKept u (s.addWrap r v i j) := h.same rfl

theorem addSat {r v i j} (h : GroupsKept u s) : GroupsKept u (s.addSat r v i j) := h.same rfl

/-! DACs, chains and the analog cells -/

theorem setDac {d x} (h : GroupsKept u s) : GroupsKept u (s.setDac d x) := h.same rfl

theorem segEnter {d k} (h : GroupsKept u s) : GroupsKept u (s.segEnter d k) :=
  .ite h.setDac h.setDac.addWrap

theorem segEnd {d} (h : GroupsKept u s) : GroupsKept u (s.segEnd d) :=
  .ite h.flagIf.segEnter h

theorem daHalt {d} (h : GroupsKept u s) : GroupsKept u (s.daHalt d) := by
  unfold State.daHalt
  extract_lets s1 x s2
  have h1 : GroupsKept u s1 := h.segEnd
  have h2 : GroupsKept u s2 := by
    simp only [s2]
    split
    · exact .ite h1.setF.setF.addSat.flag h1
    · exact h1
  exact h2.setDac

theorem abandonDacs (h : GroupsKept u s) : GroupsKept u s.abandonDacs :=
  h.foldl fun h => h.daHalt.setDac.addWrap.setDac

theorem resumeChains (h : GroupsKept u s) : GroupsKept u s.resumeChains :=
  h.foldl fun h => .ite h (.ite (h.same rfl) (h.same rfl))

theorem resumeDacs (h : GroupsKept u s) : GroupsKept u s.resumeDacs :=
  h.foldl fun h => .ite h.setDac h

theorem busUpdates (h : GroupsKept u s) : GroupsKept u s.busUpdates :=
  h.foldl fun h => .ite h (h.same rfl)

theorem restartAz (h : GroupsKept u s) : GroupsKept u s.restartAz :=
  h.foldl fun h => h.same rfl

theorem pump (h : GroupsKept u s) : GroupsKept u s.pump :=
  h.same (Delivered.pump s).groups

theorem toMode {m cause} (h : GroupsKept u s) : GroupsKept u (s.toMode m cause) := by
  refine h.same ?_
  rw [State.toMode_frame, State.testEnded]

theorem clearHeld (h : GroupsKept u s) : GroupsKept u s.clearHeld := h.same rfl

theorem setStream {x} (h : GroupsKept u s) : GroupsKept u (s.setStream x) := h.same rfl

theorem markRun (h : GroupsKept u s) : GroupsKept u s.markRun := h.same rfl

/-! Cabinets -/

theorem stopPorts {k} (h : GroupsKept u s) : GroupsKept u (s.stopPorts k) :=
  .ite h (h.foldl fun h => h.same (State.groups_sourceStops ..))

theorem isolate {k} (h : GroupsKept u s) : GroupsKept u (s.isolate k) := by
  unfold State.isolate
  dsimp only
  split
  · exact h
  · exact h.same rfl

theorem agents (h : GroupsKept u s) (k : AgentsReset s t) : GroupsKept u t := h.same k.groups

theorem xrst {bit lost} (h : GroupsKept u s) : GroupsKept u (s.xrst bit lost) :=
  .ite h.setF h

theorem clearCrossings {k} (h : GroupsKept u s) : GroupsKept u (s.clearCrossings k) := by
  unfold State.clearCrossings
  extract_lets lost note ps evs rqs s1 s2
  have h2 : GroupsKept u s2 := h.same rfl
  exact h2.xrst.xrst.xrst.xrst

theorem resetPorts {k} (h : GroupsKept u s) : GroupsKept u (s.resetPorts k) :=
  h.clearCrossings.agents (AgentsReset.resetAgents ..)

theorem flushBoundary {k} (h : GroupsKept u s) : GroupsKept u (s.flushBoundary k) :=
  h.foldl fun h => h.addWrap.addWrap.xrst.same rfl

theorem freeSecure {k} (h : GroupsKept u s) : GroupsKept u (s.freeSecure k) :=
  h.foldl fun h => .ite (setF (setF (h.agents (AgentsReset.lowerChan ..)))) h

theorem markCab {k secure} (h : GroupsKept u s) : GroupsKept u (s.markCab k secure) := by
  unfold State.markCab
  extract_lets s1 s2 v
  have h1 : GroupsKept u s1 := h.setB.setWord
  have h2 : GroupsKept u s2 := .ite h1 h1.freeSecure
  exact h2.setF

theorem startCells {k} (h : GroupsKept u s) : GroupsKept u (s.startCells k) :=
  h.foldl fun h => h.same rfl

theorem setCab {k c} (h : GroupsKept u s) : GroupsKept u (s.setCab k c) := h.same rfl

end GroupsKept

/-! ### Entry to Bench and the return -/

theorem State.group_estClear (s : State) (g : Nat) :
    (s.estClear.group g).core = (s.group g).core ∧ (s.estClear.group g).rot.overlap = (s.group g).rot.overlap := by
  refine List.foldlRecOn _ _ (motive := fun t : State => (t.group g).core = (s.group g).core ∧
    (t.group g).rot.overlap = (s.group g).rot.overlap) ⟨rfl, rfl⟩ fun t ht j _ => ?_
  dsimp only
  rw [State.group_congr (State.setF_groups ..), State.group_setRot]
  split
  · next h =>
    subst h
    exact ht
  · exact ht

/-- What pausing leaves of a group that no handover runs in. -/
theorem State.stopConverting_group (s : State) {g : Nat} (hg : g < s.part.numCG) :
    (s.stopConverting.group g).core.seq.st = (s.group g).core.seq.st.atRest ∧
      (s.stopConverting.group g).core.pdisc + 4 * (s.stopConverting.group g).core.held.length =
        (s.group g).core.pdisc + 4 * (s.group g).core.held.length ∧
      (s.stopConverting.group g).core.conv = (s.group g).core.conv ∧
      (s.stopConverting.group g).core.emit = (s.group g).core.emit ∧
      (s.stopConverting.group g).rot.overlap = none := by
  have hpart : s.abandonAll.abandonDacs.part = s.part := (Kept.refl (s := s)).abandonAll.abandonDacs.part
  obtain ⟨f, hf⟩ := State.group_pauseGroups (s := s.abandonAll.abandonDacs) (g := g) (by rw [hpart]; exact hg)
  obtain ⟨hcore, hnone⟩ := State.group_abandonAll hg
  obtain ⟨hst, hwords, hconv, hemit⟩ := pause_spec (s.group g).core f
  rw [State.group_congr (GroupsKept.refl (s := s.abandonAll)).abandonDacs.groups, hcore] at hf
  rw [State.stopConverting, hf]
  exact ⟨hst, hwords, hconv, hemit, hnone⟩

theorem State.goBench_eq (s : State) :
    s.goBench = s.latchPins.stopConverting.benchGroups.estClear.clearHeld.toMode .bench 2 := (rfl)

/-- What an entry to Bench leaves of a group (R36, R135, R137). -/
theorem State.goBench_group (s : State) {g : Nat} (hg : g < s.part.numCG) :
    (s.goBench.group g).core.held = [] ∧ (s.goBench.group g).core.seq.st = (s.group g).core.seq.st.atRest ∧
      (s.goBench.group g).core.pdisc = (s.group g).core.pdisc + 4 * (s.group g).core.held.length ∧
      (s.goBench.group g).core.conv = (s.group g).core.conv ∧ (s.goBench.group g).core.emit = (s.group g).core.emit ∧
      (s.goBench.group g).rot.overlap = none := by
  have hpart : s.latchPins.stopConverting.part = s.part := (Kept.refl (s := s)).latchPins.stopConverting.part
  obtain ⟨hst, hwords, hconv, hemit, hnone⟩ := s.latchPins.stopConverting_group (g := g) hg
  obtain ⟨hheld, hseq', hpdisc', hconv', hemit', hrot'⟩ :=
    State.group_benchGroups (s := s.latchPins.stopConverting) (g := g) (by rw [hpart]; exact hg)
  obtain ⟨hcore, hover⟩ := s.latchPins.stopConverting.benchGroups.group_estClear g
  have hend : s.goBench.group g = s.latchPins.stopConverting.benchGroups.estClear.group g := by
    rw [State.goBench_eq]
    exact State.group_congr GroupsKept.refl.clearHeld.toMode.groups g
  have hstart : s.latchPins.group g = s.group g := (rfl)
  rw [hstart] at hst hwords hconv hemit
  rw [hend, hcore, hover, hseq', hpdisc', hconv', hemit', hrot']
  exact ⟨hheld, hst, hwords, hconv, hemit, hnone⟩

theorem State.goBench_spec (s : State) : s.goBench.mode = .bench ∧ s.goBench.f Fld.DEV_MODE_CAUSE = 2 ∧
    s.goBench.f Fld.DEV_MODE_PREV = s.mode.code ∧ s.goBench.on Fld.DEV_MODE_CHG = true ∧ s.goBench.frames = s.frames ∧
    s.goBench.bur.nv = s.bur.nv := by
  have hkept : Kept s s.latchPins.stopConverting.benchGroups.estClear.clearHeld :=
    Kept.refl.latchPins.stopConverting.benchGroups.estClear.clearHeld
  rw [State.goBench_eq]
  refine ⟨State.toMode_mode .., State.toMode_cause .., ?_, State.toMode_chg .., ?_, ?_⟩
  · rw [State.toMode_prev, hkept.mode]
  · rw [(State.toMode_frames ..).1, hkept.frames]
  · rw [State.toMode_bur, hkept.bur]

/-- `s`, back in Run: the pins no longer hold, and the limit of R509 counts from here. -/
def State.backInRun (s : State) : State :=
  { s with dio := { s.dio with latched := none }, pwr := { s.pwr with lastRun := some s.lcs.time } }

theorem State.benchToRun_eq (s : State) : s.benchToRun = (s.toMode .run 2).backInRun.startConverting.restartAz.pump := (rfl)

theorem GroupsKept.backInRun (h : GroupsKept u s) : GroupsKept u s.backInRun := h.same rfl

theorem Kept.backInRun (h : Kept u s) : Kept u s.backInRun := h.same rfl

/-- What the return to Run leaves of a group whose sequence is paused. -/
theorem State.benchToRun_group (s : State) {g : Nat} (hg : g < s.part.numCG) (hp : (s.group g).core.seq.st = .paused) :
    (s.benchToRun.group g).core.seq.st = .settle ∧
      (s.benchToRun.group g).core.seq.entry =
        if (s.group g).core.seq.restart then 0 else (s.group g).core.seq.resume := by
  have hstart : (s.toMode .run 2).backInRun.group g = s.group g :=
    State.group_congr (s := s) GroupsKept.refl.toMode.backInRun.groups g
  have hpart : (s.toMode .run 2).backInRun.part = s.part := by
    rw [State.backInRun, State.toMode_frame, State.testEnded]
  obtain ⟨f, hf⟩ := State.group_resumeGroups (s := (s.toMode .run 2).backInRun) (g := g) (by rw [hpart]; exact hg)
  have hend : s.benchToRun.group g = (s.toMode .run 2).backInRun.resumeGroups.group g := by
    rw [State.benchToRun_eq]
    exact State.group_congr GroupsKept.refl.resumeChains.resumeDacs.busUpdates.restartAz.pump.groups g
  obtain ⟨hst, hentry⟩ := resume_spec (s.group g).core f hp
  rw [hend, hf, hstart]
  exact ⟨hst, hentry⟩

/-- What the return to Run shows. -/
theorem State.benchToRun_spec (s : State) : s.benchToRun.mode = .run ∧ s.benchToRun.f Fld.DEV_MODE_CAUSE = 2 ∧
    s.benchToRun.f Fld.DEV_MODE_PREV = s.mode.code ∧ s.benchToRun.frames = s.frames ∧ s.benchToRun.bur.nv = s.bur.nv := by
  have hkept : Kept (s.toMode .run 2) s.benchToRun := by
    rw [State.benchToRun_eq]
    exact Kept.refl.backInRun.startConverting.restartAz.pump
  refine ⟨?_, ?_, ?_, ?_, ?_⟩
  · rw [hkept.mode, State.toMode_mode]
  · rw [hkept.fields _ (by decide), State.toMode_cause]
  · rw [hkept.fields _ (by decide), State.toMode_prev]
  · rw [hkept.frames, (State.toMode_frames ..).1]
  · rw [hkept.bur, State.toMode_bur]

/-! ### Cabinets -/

/-- What a transition leaves of the registers. -/
theorem State.toMode_same (s : State) (m : Mode) (cause : Nat) :
    SameBut [Reg.DEV_MODE.base, Reg.SCRB_STAT.base] s (s.toMode m cause) := fun a ha => by
  simp only [List.mem_cons, List.not_mem_nil, or_false, not_or] at ha
  have hnoted : (s.inMode m cause).word a = s.word a :=
    (State.word_congr (s.inMode_regs m cause) a).trans
      ((s.modeNoted_writesOnly m cause).same a (by simpa using ha.1))
  rw [State.toMode_eq]
  split
  · exact hnoted
  · have hscrub : ({ s.inMode m cause with scrub := Scrub.init } : State).word a = (s.inMode m cause).word a :=
      State.word_congr (by dsimp only) a
    rw [State.word_setF, if_neg (fun h => ha.2 h.symm), hscrub, hnoted]

/-- The end of Partial is a transition. -/
theorem State.endPartial_same (s : State) : SameBut [Reg.DEV_MODE.base, Reg.SCRB_STAT.base] s s.endPartial := by
  have hmark (n : State) (a : Nat) : n.markRun.word a = n.word a := rfl
  unfold State.endPartial
  split
  · exact fun a ha => (hmark _ a).trans (s.toMode_same .run 0xB a ha)
  · exact fun _ _ => rfl

theorem SameBut.xrst {l : List Nat} (h : SameBut l s t) (hl : Reg.DEV_XSTAT.base ∈ l) (bit : Nat) (lost : Bool) :
    SameBut l s (t.xrst bit lost) :=
  h.trans (WritesOnly.ite (.setF .refl hl) .refl).same

theorem State.clearCrossings_same (s : State) (k : Nat) : SameBut [Reg.DEV_XSTAT.base] s (s.clearCrossings k) := by
  unfold State.clearCrossings
  extract_lets lost note ps evs rqs s1 s2
  have h2 : SameBut [Reg.DEV_XSTAT.base] s s2 := fun _ _ => rfl
  exact (((h2.xrst (by decide) _ _).xrst (by decide) _ _).xrst (by decide) _ _).xrst (by decide) _ _

theorem State.resetPorts_same (s : State) (k : Nat) : SameBut [Reg.DEV_XSTAT.base] s (s.resetPorts k) :=
  (s.clearCrossings_same k).trans (AgentsReset.resetAgents ..).same

/-- The registers that show what becomes of a secure channel. -/
theorem State.freeSecure_same (s : State) (k : Nat) :
    SameBut [Reg.DEV_XSTAT.base, Reg.PGH_ALLOC.base] s (s.freeSecure k) := by
  refine List.foldlRecOn _ _ (motive := SameBut [Reg.DEV_XSTAT.base, Reg.PGH_ALLOC.base] s) (fun _ _ => rfl)
    fun t ht e _ => ?_
  split
  · refine SameBut.trans (fun a ha => ?_)
      ((WritesOnly.refl.setF (by decide)).setF (by decide) : WritesOnly [Reg.DEV_XSTAT.base, Reg.PGH_ALLOC.base] _ _).same
    rw [(AgentsReset.lowerChan ..).same a fun hm => ha (List.mem_cons.mpr (.inl (List.mem_singleton.mp hm))), ht a ha]
  · exact ht

/-- The marks of a cabinet beside SECURE and its claim. -/
theorem State.markCab_same (s : State) (k : Nat) (secure : Bool) :
    SameBut [Reg.DEV_XSTAT.base, Reg.PGH_ALLOC.base, Reg.BUR_TAINT.base]
      ((s.setB Fld.SCRB_CB_STATE_SECURE secure k).setWord (Reg.BUR_CLAIM.addr k 0) 0) (s.markCab k secure) := by
  unfold State.markCab
  extract_lets s1 s2 v
  have h2 : SameBut [Reg.DEV_XSTAT.base, Reg.PGH_ALLOC.base, Reg.BUR_TAINT.base] s1 s2 := by
    simp only [s2]
    split
    · exact fun _ _ => rfl
    · exact fun a ha => s1.freeSecure_same k a fun hm => ha (List.mem_append_left [Reg.BUR_TAINT.base] hm)
  exact h2.trans (WritesOnly.refl.setF (by decide)).same

/-- A register of a cabinet's state, and its claim, stand apart from what `l` lists. -/
theorem cab_beside {k : Nat} (hk : k < 24) :
    Reg.SCRB_CB_STATE.addr k 0 ∉ [Reg.DEV_XSTAT.base, Reg.PGH_ALLOC.base, Reg.BUR_TAINT.base] ∧
      Reg.BUR_CLAIM.addr k 0 ∉ [Reg.DEV_XSTAT.base, Reg.PGH_ALLOC.base, Reg.BUR_TAINT.base] ∧
      Reg.FAB_CTL.addr k 0 ∉ [Reg.DEV_MODE.base, Reg.SCRB_STAT.base] ∧
      Reg.SCRB_CB_STATE.addr k 0 ∉ [Reg.DEV_MODE.base, Reg.SCRB_STAT.base] ∧
      Reg.BUR_CLAIM.addr k 0 ∉ [Reg.DEV_MODE.base, Reg.SCRB_STAT.base] := by
  simp only [FieldRef.addr, Reg.SCRB_CB_STATE, Reg.BUR_CLAIM, Reg.FAB_CTL, Reg.DEV_XSTAT, Reg.PGH_ALLOC, Reg.BUR_TAINT,
    Reg.DEV_MODE, Reg.SCRB_STAT, List.mem_cons, List.not_mem_nil, or_false]
  omega

theorem claim_ne_state {k : Nat} (hk : k < 24) : Reg.BUR_CLAIM.addr k 0 ≠ Reg.SCRB_CB_STATE.addr k 0 ∧
    Reg.FAB_CTL.addr k 0 ≠ Reg.SCRB_CB_STATE.addr k 0 ∧ Reg.FAB_CTL.addr k 0 ≠ Reg.BUR_CLAIM.addr k 0 := by
  simp only [FieldRef.addr, Reg.SCRB_CB_STATE, Reg.BUR_CLAIM, Reg.FAB_CTL]
  omega

theorem State.markCab_spec (s : State) {k : Nat} (hk : k < 24) (secure : Bool) :
    (s.markCab k secure).on Fld.SCRB_CB_STATE_SECURE k = secure ∧ (s.markCab k secure).word (Reg.BUR_CLAIM.addr k 0) = 0 := by
  obtain ⟨hstate, hclaim, -⟩ := cab_beside hk
  have hsame := s.markCab_same k secure
  have hf (n : State) (w : Word) : (n.setWord (Reg.BUR_CLAIM.addr k 0) w).f Fld.SCRB_CB_STATE_SECURE k =
      n.f Fld.SCRB_CB_STATE_SECURE k := by
    have hne : Reg.BUR_CLAIM.addr k 0 ≠ Fld.SCRB_CB_STATE_SECURE.addr k 0 := (claim_ne_state hk).1
    rw [State.f, State.word_setWord, if_neg hne, State.f]
  constructor
  · rw [hsame.on_eq (q := Fld.SCRB_CB_STATE_SECURE) hstate, State.on, hf, State.setB, State.f_setF _ _ _ _ _ (by decide)]
    cases secure <;> rfl
  · rw [hsame _ hclaim, State.word_setWord, if_pos rfl]

/-- `s` with the cells of CBk started and its marks set. -/
def State.cabStarted (s : State) (k : Nat) : State :=
  ((((s.stopPorts k).startCells k).flushBoundary k).clearCrossings k).markCab k (s.cab k).loaded.1

/-- `s` with CBk released, and Partial not ended yet. -/
def State.cabReleased (s : State) (k : Nat) : State :=
  (((s.cabStarted k).endIsolation k).setB Fld.FAB_CTL_CLKEN (s.cab k).loaded.2 k).setCbState k 1

theorem State.regionRelease_eq (s : State) (k : Nat) : s.regionRelease k = (s.cabReleased k).endPartial := (rfl)

/-- What shows of a cabinet that is released (R384). -/
theorem State.cabReleased_spec (s : State) {k : Nat} (hk : k < 24) :
    (s.cabReleased k).cbState k = 1 ∧ (s.cabReleased k).on Fld.FAB_CTL_CLKEN k = (s.cab k).loaded.2 ∧
      (s.cabReleased k).isSecure k = (s.cab k).loaded.1 ∧ (s.cabReleased k).word (Reg.BUR_CLAIM.addr k 0) = 0 := by
  obtain ⟨hsecure, hclaim⟩ : (s.cabStarted k).on Fld.SCRB_CB_STATE_SECURE k = (s.cab k).loaded.1 ∧
    (s.cabStarted k).word (Reg.BUR_CLAIM.addr k 0) = 0 := State.markCab_spec _ hk _
  obtain ⟨hclaimState, hfabState, hfabClaim⟩ := claim_ne_state hk
  have hstate : Fld.SCRB_CB_STATE_STATE.addr k 0 ≠ Fld.FAB_CTL_CLKEN.addr k 0 := fun h => hfabState h.symm
  have hsec : Fld.FAB_CTL_CLKEN.addr k 0 ≠ Fld.SCRB_CB_STATE_SECURE.addr k 0 := hfabState
  unfold State.cabReleased
  generalize s.cabStarted k = n at *
  have hn (q : FieldRef) (i : Nat) : (n.endIsolation k).f q i = n.f q i := rfl
  unfold State.setCbState State.setB
  refine ⟨?_, ?_, ?_, ?_⟩
  · rw [State.cbState, State.f_setF _ _ _ _ _ (by decide)]
    rfl
  · rw [State.on, State.f_setF_of_addr _ _ _ _ _ _ _ _ hstate, State.f_setF _ _ _ _ _ (by decide)]
    cases (s.cab k).loaded.2 <;> rfl
  · rw [State.isSecure, State.on, State.f_setF_of_disjoint _ _ _ _ _ _ _ _ (by decide) (by decide),
      State.f_setF_of_addr _ _ _ _ _ _ _ _ hsec, hn]
    exact hsecure
  · have hfab : Fld.FAB_CTL_CLKEN.addr k 0 ≠ Reg.BUR_CLAIM.addr k 0 := hfabClaim
    rw [State.word_setF, if_neg (fun h => hclaimState h.symm), State.word_setF, if_neg hfab]
    exact hclaim

theorem GroupsKept.endPartial (h : GroupsKept u s) : GroupsKept u s.endPartial :=
  .ite h.toMode.markRun h

theorem State.frames_endPartial (s : State) : s.endPartial.frames = s.frames := by
  have hmark (n : State) : n.markRun.frames = n.frames := rfl
  unfold State.endPartial
  split
  · rw [hmark, (State.toMode_frames ..).1]
  · rfl

/-- What the release of a LOADED cabinet shows, and leaves. -/
theorem State.regionRelease_spec (s : State) {k : Nat} (hk : k < 24) :
    (s.regionRelease k).cbState k = 1 ∧ (s.regionRelease k).on Fld.FAB_CTL_CLKEN k = (s.cab k).loaded.2 ∧
      (s.regionRelease k).isSecure k = (s.cab k).loaded.1 ∧ (s.regionRelease k).word (Reg.BUR_CLAIM.addr k 0) = 0 ∧
      (s.regionRelease k).groups = s.groups ∧ (s.regionRelease k).frames = s.frames := by
  obtain ⟨-, -, hclk, hstate, hclaim⟩ := cab_beside hk
  obtain ⟨hst, hfab, hsec, hcl⟩ := s.cabReleased_spec hk
  have hend := (s.cabReleased k).endPartial_same
  have hgroups : GroupsKept s (s.cabReleased k) :=
    GroupsKept.refl.stopPorts.startCells.flushBoundary.clearCrossings.markCab.setCab.setB.setF
  have hkept : Kept s (s.cabReleased k) :=
    Kept.refl.stopPorts.startCells.flushBoundary.clearCrossings.markCab.endIsolation.setB.setCbState
  rw [State.regionRelease_eq]
  refine ⟨?_, ?_, ?_, ?_, hgroups.endPartial.groups, ?_⟩
  · rw [State.cbState, hend.f_eq (q := Fld.SCRB_CB_STATE_STATE) hstate]
    exact hst
  · rw [hend.on_eq (q := Fld.FAB_CTL_CLKEN) hclk, hfab]
  · rw [State.isSecure, hend.on_eq (q := Fld.SCRB_CB_STATE_SECURE) hstate]
    exact hsec
  · rw [hend _ hclaim, hcl]
  · rw [State.frames_endPartial, hkept.frames]

/-- `s` with CBk stopped and isolated for a partial stream. -/
def State.cabStopped (s : State) (k : Nat) : State :=
  ((((s.stopPorts k).isolate k).setF Fld.FAB_CTL_CLKEN 0 k).resetPorts k)

/-- `s` with the registers of a partial stream of CBk begun. -/
def State.regionNoted (s : State) (k : Nat) : State :=
  let s := ((s.setWord (Reg.SCRB_CB_SGL.addr k 0) 0).setWord (Reg.SCRB_CB_DBL.addr k 0) 0).setF Fld.SCRB_CB_STATE_REASON 0 k
  let s := ((s.setF Fld.SCRB_RLD_WORDS 0).setF Fld.SCRB_RLD_FRAMES 0).setF Fld.SCRB_RLD_ERRPOS 0
  let s := s.setWord Reg.SCRB_RLD_STAT.base (BitVec.ofNat 32 (256 * k + 1))
  s.setCbState k 2

/-- The registers that it writes. -/
def regionRegs (k : Nat) : List Nat :=
  [Reg.SCRB_CB_SGL.addr k 0, Reg.SCRB_CB_DBL.addr k 0, Reg.SCRB_CB_STATE.addr k 0, Reg.SCRB_RLD_WORDS.base,
    Reg.SCRB_RLD_FRAMES.base, Reg.SCRB_RLD_ERRPOS.base, Reg.SCRB_RLD_STAT.base]

theorem State.regionNoted_writesOnly (s : State) (k : Nat) : WritesOnly (regionRegs k) s (s.regionNoted k) := by
  refine .setF (.setWord (.setF (.setF (.setF (.setF (.setWord (.setWord .refl ?_) ?_) ?_) ?_) ?_) ?_) ?_) ?_
  all_goals simp [regionRegs, FieldRef.addr, Fld.SCRB_CB_STATE_REASON, Fld.SCRB_CB_STATE_STATE, Reg.SCRB_CB_STATE,
    Fld.SCRB_RLD_WORDS, Fld.SCRB_RLD_FRAMES, Fld.SCRB_RLD_ERRPOS, Reg.SCRB_RLD_WORDS, Reg.SCRB_RLD_FRAMES, Reg.SCRB_RLD_ERRPOS]

/-- The stream of CBk from the flash that begins. -/
def State.regionStream (s : State) (k ring : Nat) (secure : Bool) : Stream :=
  { Stream.init with
    active := true, kind := .region k, src := 2, ring := ring, next := some (k * 2 ^ 17), wasSecure := secure,
    qspi := s.flashRead 2 }

/-- `s` with a partial stream of CBk begun, before the transition. -/
def State.regionBegun (s : State) (k ring : Nat) (secure : Bool) : State :=
  let n := (s.regionNoted k).setMeas k { MeasRec.none with dstate := 1 }
  n.setStream (n.regionStream k ring secure)

theorem Kept.regionNoted {k} (h : Kept u s) : Kept u (s.regionNoted k) :=
  (h.setReg.setReg.setF.setF.setF.setF.setWord (by decide)).setCbState

theorem Kept.regionBegun {k ring secure} (h : Kept u s) : Kept u (s.regionBegun k ring secure) :=
  h.regionNoted.setMeas.withStream

theorem GroupsKept.regionBegun {k ring secure} (h : GroupsKept u s) : GroupsKept u (s.regionBegun k ring secure) := by
  have hnoted : GroupsKept u (s.regionNoted k) := h.setWord.setWord.setF.setF.setF.setF.setWord.setF
  exact hnoted.setCab.setStream

theorem Kept.cabStopped {k} (h : Kept u s) : Kept u (s.cabStopped k) :=
  h.stopPorts.isolate.setF.resetPorts

theorem State.regionBegin_eq (s : State) (k ring : Nat) (hm : s.mode = .run) : s.regionBegin k 2 ring =
    ((s.cabStopped k).regionBegun k ring (s.isSecure k)).toMode .partialRun 0xA := by
  have hmode : ((s.cabStopped k).regionBegun k ring (s.isSecure k)).mode = .run :=
    (Kept.refl (s := s)).cabStopped.regionBegun.mode.trans hm
  unfold State.regionBegin
  extract_lets _ _ _ _ _ _ _ _ _ n
  exact (if_pos (hmode : n.mode = .run)).trans rfl

/-- What the registers of a partial stream's beginning leave of the cabinet's clock enable. -/
theorem clken_beside {k : Nat} (hk : k < 24) : Reg.FAB_CTL.addr k 0 ∉ regionRegs k ∧
    Reg.FAB_CTL.addr k 0 ∉ [Reg.DEV_XSTAT.base] := by
  simp only [regionRegs, FieldRef.addr, Reg.FAB_CTL, Reg.SCRB_CB_SGL, Reg.SCRB_CB_DBL, Reg.SCRB_CB_STATE, Reg.SCRB_RLD_WORDS,
    Reg.SCRB_RLD_FRAMES, Reg.SCRB_RLD_ERRPOS, Reg.SCRB_RLD_STAT, Reg.DEV_XSTAT, List.mem_cons, List.not_mem_nil, or_false]
  omega

theorem State.regionBegun_spec (s : State) {k : Nat} (hk : k < 24) (ring : Nat) (secure : Bool) :
    (s.regionBegun k ring secure).cbState k = 2 ∧
      (s.regionBegun k ring secure).on Fld.FAB_CTL_CLKEN k = s.on Fld.FAB_CTL_CLKEN k ∧
      (s.regionBegun k ring secure).stream.kind = .region k ∧
      (s.regionBegun k ring secure).stream.next = some (k * 2 ^ 17) ∧
      ((s.regionBegun k ring secure).cab k).meas.dstate = 1 := by
  have hstreamF (n : State) (x : Stream) (q : FieldRef) (i : Nat) : (n.setStream x).f q i = n.f q i := rfl
  have hmeasF (n : State) (m : MeasRec) (q : FieldRef) (i : Nat) : (n.setMeas k m).f q i = n.f q i := rfl
  have hf (q : FieldRef) (i : Nat) : (s.regionBegun k ring secure).f q i = (s.regionNoted k).f q i := by
    rw [State.regionBegun, hstreamF, hmeasF]
  have hclk := (s.regionNoted_writesOnly k).same.f_eq (q := Fld.FAB_CTL_CLKEN) (clken_beside hk).1
  have hstream (n : State) (x : Stream) : (n.setStream x).stream = x := rfl
  have hcabs (n : State) (x : Stream) : (n.setStream x).cab k = n.cab k := rfl
  refine ⟨?_, ?_, ?_, ?_, ?_⟩
  · rw [State.cbState, hf, State.regionNoted, State.setCbState, State.f_setF _ _ _ _ _ (by decide)]
    rfl
  · rw [State.on, hf, hclk, State.on]
  · rw [State.regionBegun, hstream, State.regionStream]
  · rw [State.regionBegun, hstream, State.regionStream]
  · rw [State.regionBegun, hcabs, State.setMeas, State.cab_setCab, if_pos rfl]

/-- What a partial stream's beginning shows, and leaves (R381). -/
theorem State.regionBegin_spec (s : State) {k : Nat} (hk : k < 24) (ring : Nat) (hm : s.mode = .run) :
    (s.regionBegin k 2 ring).mode = .partialRun ∧ (s.regionBegin k 2 ring).f Fld.DEV_MODE_CAUSE = 10 ∧
      (s.regionBegin k 2 ring).cbState k = 2 ∧ (s.regionBegin k 2 ring).on Fld.FAB_CTL_CLKEN k = false ∧
      (s.regionBegin k 2 ring).stream.kind = .region k ∧ (s.regionBegin k 2 ring).stream.next = some (k * 2 ^ 17) ∧
      ((s.regionBegin k 2 ring).cab k).meas.dstate = 1 ∧ (s.regionBegin k 2 ring).groups = s.groups ∧
      (s.regionBegin k 2 ring).frames = s.frames := by
  obtain ⟨-, -, hclk, hstate, -⟩ := cab_beside hk
  obtain ⟨hst, hclken, hkind, hnext, hmeas⟩ := (s.cabStopped k).regionBegun_spec hk ring (s.isSecure k)
  have hstopped : (s.cabStopped k).on Fld.FAB_CTL_CLKEN k = false := by
    rw [State.cabStopped, (State.resetPorts_same _ k).on_eq (q := Fld.FAB_CTL_CLKEN) (clken_beside hk).2, State.on,
      State.f_setF _ _ _ _ _ (by decide)]
    rfl
  have hgroups : GroupsKept s (s.cabStopped k) := GroupsKept.refl.stopPorts.isolate.setF.resetPorts
  have hkept : Kept s ((s.cabStopped k).regionBegun k ring (s.isSecure k)) := Kept.refl.cabStopped.regionBegun
  rw [State.regionBegin_eq _ _ _ hm]
  have hbegun : GroupsKept s ((s.cabStopped k).regionBegun k ring (s.isSecure k)) := hgroups.regionBegun
  generalize (s.cabStopped k).regionBegun k ring (s.isSecure k) = n at *
  refine ⟨State.toMode_mode .., State.toMode_cause .., ?_, ?_, ?_, ?_, ?_, hbegun.toMode.groups, ?_⟩
  · rw [State.cbState, (n.toMode_same _ _).f_eq (q := Fld.SCRB_CB_STATE_STATE) hstate]
    exact hst
  · rw [(n.toMode_same _ _).on_eq (q := Fld.FAB_CTL_CLKEN) hclk, hclken, hstopped]
  · rw [State.toMode_stream, hkind]
  · rw [State.toMode_stream, hnext]
  · rw [State.toMode_cab, hmeas]
  · rw [(State.toMode_frames ..).1, hkept.frames]

/-! ### The commands -/

theorem numCB_le (p : Part) : p.numCB ≤ 24 := by
  unfold Part.numCB
  split <;> decide

/-- A cabinet's number, as an argument carries it. -/
theorem bits_cabArg {k : Nat} (hk : k < 24) : Word.bits (BitVec.ofNat 32 k) 0 5 = k := by
  rw [Word.bits, BitVec.toNat_ofNat, Nat.shiftRight_zero]
  omega

theorem State.cabAbsent_of_lt {k : Nat} (hk : k < s.part.numCB) : s.cabAbsent k = false := by
  rw [State.cabAbsent, decide_eq_false_iff_not]
  omega

theorem State.cbState_submitted (s : State) (code tag : Nat) (args : List Word) {k : Nat} (hk : k < 24) :
    (s.submitted code tag args).cbState k = s.cbState k := by
  refine s.f_submitted code tag args fun hm => ?_
  have hge := (by decide : ∀ a ∈ transportRegs, Reg.BUR_CMD.base ≤ a) _ hm
  simp only [FieldRef.addr, Fld.SCRB_CB_STATE_STATE, Reg.BUR_CMD] at hge
  omega

theorem State.partialStream_submitted (s : State) (code tag : Nat) (args : List Word) :
    (s.submitted code tag args).partialStream = s.partialStream := by
  obtain ⟨r, hr⟩ := s.submitted_frame code tag args
  rw [hr]
  rfl

theorem execRegionLoadBegin_takes {tag k : Nat} (h : s.takes = true) (hs : s.standby = false) (hm : s.mode = .run)
    (hk : k < s.part.numCB) (hp : s.partialStream = none) (hst : s.cbState k = 1) :
    ∃ ring, exec (.regionLoadBegin tag [BitVec.ofNat 32 k, 2]) s =
      .next (((s.submitted 0x18 tag [BitVec.ofNat 32 k, 2]).regionBegin k 2 ring).answer stOk) := by
  have hk24 : k < 24 := Nat.lt_of_lt_of_le hk (numCB_le _)
  have harg0 : (s.submitted 0x18 tag [BitVec.ofNat 32 k, 2]).arg 0 = BitVec.ofNat 32 k :=
    s.arg_submitted 0x18 tag (by decide) rfl
  have harg1 : ((s.submitted 0x18 tag [BitVec.ofNat 32 k, 2]).arg 1).bits 0 3 = 2 := by
    rw [s.arg_submitted 0x18 tag (args := [BitVec.ofNat 32 k, 2]) (i := 1) (w := 2) (by decide) rfl]
    decide
  have hl : commandLegal 0x18 s.mode = true := by rw [hm]; rfl
  have habsent : (s.submitted 0x18 tag [BitVec.ofNat 32 k, 2]).cabAbsent k = false :=
    State.cabAbsent_of_lt (by rw [State.part_submitted]; exact hk)
  refine ⟨((s.submitted 0x18 tag [BitVec.ofNat 32 k, 2]).arg 2).bits 0 12, ?_⟩
  rw [exec, execRegionLoadBegin, State.submit_takes h, State.takeRegionLoadBegin, harg0, bits_cabArg hk24, habsent,
    State.submitted_judged hs hl, State.regionLoadBegin, harg0, bits_cabArg hk24, harg1, if_neg (by omega),
    State.partialStream_submitted, hp, State.cbState_submitted _ _ _ _ hk24, hst, if_neg (by decide)]

theorem execRegionRelease_takes {tag k : Nat} (h : s.takes = true) (hs : s.standby = false) (hm : s.mode = .partialRun)
    (hk : k < s.part.numCB) (hst : s.cbState k = 3) :
    exec (.regionRelease tag [BitVec.ofNat 32 k]) s =
      .next (((s.submitted 0x19 tag [BitVec.ofNat 32 k]).regionRelease k).answer stOk) := by
  have hk24 : k < 24 := Nat.lt_of_lt_of_le hk (numCB_le _)
  have harg : (s.submitted 0x19 tag [BitVec.ofNat 32 k]).arg 0 = BitVec.ofNat 32 k :=
    s.arg_submitted 0x19 tag (by decide) rfl
  have hl : commandLegal 0x19 s.mode = true := by rw [hm]; rfl
  have habsent : (s.submitted 0x19 tag [BitVec.ofNat 32 k]).cabAbsent k = false :=
    State.cabAbsent_of_lt (by rw [State.part_submitted]; exact hk)
  rw [exec, execRegionRelease, State.submit_takes h, State.takeRegionRelease, harg, bits_cabArg hk24, habsent,
    State.submitted_judged hs hl, State.regionReleaseCmd, harg, bits_cabArg hk24, State.cbState_submitted _ _ _ _ hk24, hst,
    if_neg (by omega), if_neg (by decide)]

/-! ### The obligation -/

theorem State.group_submitted (s : State) (code tag : Nat) (args : List Word) (g : Nat) :
    (s.submitted code tag args).group g = s.group g :=
  State.group_congr (s.groups_submitted code tag args) g

section
variable {tag : Nat} {a : Word} (h : s.takes = true) (hs : s.standby = false)
include h hs

/-- SET_MODE, where its work on the state that it finds is `k`. -/
theorem execSetMode_of (hl : commandLegal 0x02 s.mode = true) {k : State → State}
    (hk : ∀ n : State, n.mode = s.mode → n.prevMode = s.prevMode → (n.arg 0).bits 0 4 = a.bits 0 4 → n.setModeCmd = k n) :
    exec (.setMode tag [a]) s = .next (k (s.submitted 2 tag [a])) := by
  rw [execSetMode_takes tag [a] h hs hl, hk _ (State.mode_submitted ..) (s.f_submitted 2 tag [a] (by decide))]
  rw [s.arg_submitted 2 tag (by decide) rfl]

/-- SET_MODE that leaves the mode alone: it is answered `status`. -/
theorem setMode_answered (hl : commandLegal 0x02 s.mode = true) {status : Nat}
    (hk : ∀ n : State, n.mode = s.mode → n.prevMode = s.prevMode → (n.arg 0).bits 0 4 = a.bits 0 4 →
      n.setModeCmd = n.answer status) :
    ∃ t, exec (.setMode tag [a]) s = .next t ∧ t.bur.job = some { Job.init with status := status } ∧
      t = { s with regs := t.regs, bur := { s.bur with mirrored := false, job := t.bur.job } } ∧ SameBut transportRegs s t := by
  obtain ⟨hjob, hframe, hsame⟩ := s.answered 2 tag [a] { Job.init with status := status }
  exact ⟨_, execSetMode_of h hs hl hk, hjob, hframe, hsame⟩

theorem setMode_bench (hm : s.mode = .run ∨ s.mode = .blank) (ha : a.bits 0 4 = 10) {g : Nat} (hg : g < s.part.numCG) :
    ∃ t, exec (.setMode tag [a]) s = .next t ∧ t.mode = .bench ∧ t.f Fld.DEV_MODE_CAUSE = 2 ∧
      t.f Fld.DEV_MODE_PREV = s.mode.code ∧ t.on Fld.DEV_MODE_CHG = true ∧ (t.group g).core.held = [] ∧
      (t.group g).core.seq.st = (s.group g).core.seq.st.atRest ∧
      (t.group g).core.pdisc = (s.group g).core.pdisc + 4 * (s.group g).core.held.length ∧
      (t.group g).core.conv = (s.group g).core.conv ∧ (t.group g).core.emit = (s.group g).core.emit ∧
      (t.rot g).overlap = none ∧ t.frames = s.frames ∧ t.bur.job = some Job.init ∧ t.bur.nv = s.bur.nv := by
  have hl : commandLegal 0x02 s.mode = true := by rcases hm with hm | hm <;> rw [hm] <;> rfl
  obtain ⟨hmode, hcause, hprev, hchg, hframes, hnv⟩ := (s.submitted 2 tag [a]).goBench_spec
  obtain ⟨hheld, hst, hpdisc, hconv, hemit, hover⟩ :=
    (s.submitted 2 tag [a]).goBench_group (g := g) (by rw [State.part_submitted]; exact hg)
  rw [State.group_submitted] at hst hpdisc hconv hemit
  rw [State.mode_submitted] at hprev
  rw [State.frames_submitted] at hframes
  rw [State.bur_submitted] at hnv
  refine ⟨_, execSetMode_of h hs hl (k := fun n => n.goBench.answer stOk) fun n hnm _ hna =>
    State.setModeCmd_bench (hna.trans ha) (by rw [hnm]; exact hm), ?_⟩
  generalize (s.submitted 2 tag [a]).goBench = n at *
  exact ⟨hmode, hcause, hprev, hchg, hheld, hst, hpdisc, hconv, hemit, hover, hframes, rfl, hnv⟩

theorem setMode_run (hm : s.mode = .bench) (hp : s.f Fld.DEV_MODE_PREV = 5) (ha : a.bits 0 4 = 5) {g : Nat}
    (hg : g < s.part.numCG) (hst : (s.group g).core.seq.st = .paused) :
    ∃ t, exec (.setMode tag [a]) s = .next t ∧ t.mode = .run ∧ t.f Fld.DEV_MODE_CAUSE = 2 ∧ t.f Fld.DEV_MODE_PREV = 10 ∧
      (t.group g).core.seq.st = .settle ∧
      (t.group g).core.seq.entry = (if (s.group g).core.seq.restart then 0 else (s.group g).core.seq.resume) ∧
      t.frames = s.frames ∧ t.bur.job = some Job.init ∧ t.bur.nv = s.bur.nv := by
  have hl : commandLegal 0x02 s.mode = true := by rw [hm]; rfl
  obtain ⟨hmode, hcause, hprev, hframes, hnv⟩ := (s.submitted 2 tag [a]).benchToRun_spec
  obtain ⟨hsettle, hentry⟩ := (s.submitted 2 tag [a]).benchToRun_group (g := g) (by rw [State.part_submitted]; exact hg)
    (by rw [State.group_submitted]; exact hst)
  rw [State.group_submitted] at hentry
  rw [State.mode_submitted, hm] at hprev
  rw [State.frames_submitted] at hframes
  rw [State.bur_submitted] at hnv
  refine ⟨_, execSetMode_of h hs hl (k := fun n => n.benchToRun.answer stOk) fun n hnm hnp hna =>
    State.setModeCmd_run (hna.trans ha) (hnm.trans hm) (hnp.trans hp), ?_⟩
  generalize (s.submitted 2 tag [a]).benchToRun = n at *
  exact ⟨hmode, hcause, hprev, hsettle, hentry, hframes, rfl, hnv⟩

theorem setMode_blank (ha : a.bits 0 4 = 1)
    (hm : s.mode = .run ∨ s.mode = .faultMode ∨ (s.mode = .bench ∧ s.f Fld.DEV_MODE_PREV = 1)) :
    ∃ t, exec (.setMode tag [a]) s = .next t ∧ t.mode = .blank ∧ t.f Fld.DEV_MODE_CAUSE = 2 ∧
      t.f Fld.DEV_MODE_PREV = s.mode.code ∧ t.frames = [] ∧ t.checks = [] ∧ t.pins.done = false ∧ t.dio.ioOn = false ∧
      t.stream.active = false ∧ t.bur.job = some Job.init ∧ t.bur.nv = s.bur.nv := by
  have hl : commandLegal 0x02 s.mode = true := by rcases hm with hm | hm | ⟨hm, -⟩ <;> rw [hm] <;> rfl
  obtain ⟨hmode, hcause, hprev, hstream, hdio, hdone, -, hnv⟩ := (s.submitted 2 tag [a]).goBlank_spec 2 true
  obtain ⟨hframes, hchecks⟩ := (s.submitted 2 tag [a]).frames_goBlank 2
  rw [State.mode_submitted] at hprev
  rw [State.bur_submitted] at hnv
  refine ⟨_, execSetMode_of h hs hl (k := fun n => (n.goBlank 2 true).answer stOk) fun n hnm hnp hna =>
    State.setModeCmd_blank (hna.trans ha) (by rw [hnm, hnp]; exact hm), ?_⟩
  generalize (s.submitted 2 tag [a]).goBlank 2 true = n at *
  exact ⟨hmode, hcause, hprev, hframes, hchecks, hdone, hdio, hstream, rfl, hnv⟩

theorem setMode_wake (hm : s.mode = .doze ∨ s.mode = .nap ∨ s.mode = .slumber) (ha : a.bits 0 4 = 5)
    (hp : s.pwr.stage = .asleep) :
    ∃ t, exec (.setMode tag [a]) s = .next t ∧ t.mode = s.mode ∧ t.pwr.stage = .leaving ∧ t.pwr.cause = 2 ∧
      t.f Fld.PWR_STAT_WHY = 5 ∧ t.frames = s.frames ∧ t.bur.job = some Job.init ∧ t.bur.nv = s.bur.nv := by
  have hl : commandLegal 0x02 s.mode = true := by rcases hm with hm | hm | hm <;> rw [hm] <;> rfl
  have hlow : (s.submitted 2 tag [a]).mode.low = true := by
    rw [State.mode_submitted]
    rcases hm with hm | hm | hm <;> rw [hm] <;> rfl
  obtain ⟨hstage, hcause, hwhy⟩ := (s.submitted 2 tag [a]).wakeOwn_spec hlow (by rw [State.pwr_submitted]; exact hp)
  have hkept : Kept (s.submitted 2 tag [a]) ((s.submitted 2 tag [a]).wakeOwn 5) := Kept.refl.wakeOwn
  have hnv := hkept.nv_submitted
  have hmode := hkept.mode.trans (State.mode_submitted ..)
  have hframes := hkept.frames.trans (State.frames_submitted ..)
  refine ⟨_, execSetMode_of h hs hl (k := fun n => (n.wakeOwn 5).answer stOk) fun n hnm _ hna =>
    State.setModeCmd_wake (hna.trans ha) (by rw [hnm]; exact hm), ?_⟩
  generalize (s.submitted 2 tag [a]).wakeOwn 5 = n at *
  exact ⟨hmode, hstage, hcause, hwhy, hframes, rfl, hnv⟩

theorem cfgBegin_load (hl : commandLegal 0x10 s.mode = true) (ha : a.bits 0 3 = 0 ∨ a.bits 0 3 = 2) :
    ∃ t, exec (.cfgBegin tag [a]) s = .next t ∧ t.mode = .load ∧ t.f Fld.DEV_MODE_CAUSE = 3 ∧
      t.stream.active = true ∧ t.stream.src = a.bits 0 3 ∧ t.f Fld.CFG_STAT_SRC = a.bits 0 3 ∧ t.f Fld.CFG_STAT_PHASE = 1 ∧
      t.f Fld.CFG_WORDS = 0 ∧ t.f Fld.CFG_STAT_REASON = 0 ∧ t.pins.done = false ∧ t.bur.job = some Job.init ∧
      t.bur.nv = s.bur.nv := by
  obtain ⟨ring, hexec⟩ := execCfgBegin_takes h hs hl ha
  obtain ⟨hmode, hcause, -, -, hstream, hdone, hsrc, hphase, hwords, hreason, hbur⟩ :=
    (s.submitted 0x10 tag [a]).goLoad_spec (src := a.bits 0 3) (by omega) ring 3
  have hactive : ((s.submitted 0x10 tag [a]).goLoad (a.bits 0 3) ring 3).stream.active = true := by
    rw [hstream]
    rfl
  have hfrom : ((s.submitted 0x10 tag [a]).goLoad (a.bits 0 3) ring 3).stream.src = a.bits 0 3 := by
    rw [hstream]
    rfl
  have hsrc' : ((s.submitted 0x10 tag [a]).goLoad (a.bits 0 3) ring 3).f Fld.CFG_STAT_SRC = a.bits 0 3 :=
    hsrc.trans (Nat.mod_eq_of_lt (by omega))
  have hnv : ((s.submitted 0x10 tag [a]).goLoad (a.bits 0 3) ring 3).bur.nv = s.bur.nv := by
    rw [hbur, State.loadEmptied_bur, State.bur_submitted]
  refine ⟨_, hexec, ?_⟩
  generalize (s.submitted 0x10 tag [a]).goLoad (a.bits 0 3) ring 3 = n at *
  exact ⟨hmode, hcause, hactive, hfrom, hsrc', hphase, hwords, hreason, hdone, rfl, hnv⟩

end

theorem cfgAbort_blank (tag : Nat) (h : s.takes = true) (hs : s.standby = false) (hm : s.mode = .load) :
    ∃ t, exec (.cfgAbort tag []) s = .next t ∧ t.mode = .blank ∧ t.f Fld.DEV_MODE_CAUSE = 9 ∧ t.stream.active = false ∧
      t.f Fld.CFG_STAT_PHASE = 7 ∧ t.frames = s.frames ∧ t.bur.job = some Job.init ∧ t.bur.nv = s.bur.nv := by
  obtain ⟨hmode, hcause, hstream, hphase, hframes, hnv⟩ := (s.submitted 0x11 tag []).aborted_spec
  rw [State.frames_submitted] at hframes
  rw [State.bur_submitted] at hnv
  refine ⟨_, execCfgAbort_takes h hs hm, ?_⟩
  generalize (s.submitted 0x11 tag []).aborted = n at *
  exact ⟨hmode, hcause, hstream, hphase, hframes, rfl, hnv⟩

/-! An answer changes nothing but the job. -/

theorem State.answer_mode (s : State) (status : Nat) : (s.answer status).mode = s.mode := (rfl)

theorem State.answer_stream (s : State) (status : Nat) : (s.answer status).stream = s.stream := (rfl)

theorem State.answer_groups (s : State) (status : Nat) : (s.answer status).groups = s.groups := (rfl)

theorem State.answer_frames (s : State) (status : Nat) : (s.answer status).frames = s.frames := (rfl)

theorem State.answer_job (s : State) : (s.answer stOk).bur.job = some Job.init := (rfl)

theorem State.cab_answer (s : State) (status k : Nat) : (s.answer status).cab k = s.cab k := (rfl)

theorem State.f_answer (s : State) (status : Nat) (q : FieldRef) (i j : Nat) : (s.answer status).f q i j = s.f q i j := (rfl)

theorem State.on_answer (s : State) (status : Nat) (q : FieldRef) (i j : Nat) : (s.answer status).on q i j = s.on q i j := (rfl)

theorem regionLoad_partial (tag : Nat) {k : Nat} (h : s.takes = true) (hs : s.standby = false) (hm : s.mode = .run)
    (hk : k < s.part.numCB) (hp : s.partialStream = none) (hst : s.cbState k = 1) :
    ∃ t, exec (.regionLoadBegin tag [BitVec.ofNat 32 k, 2]) s = .next t ∧ t.mode = .partialRun ∧
      t.f Fld.DEV_MODE_CAUSE = 10 ∧ t.cbState k = 2 ∧ t.isolated k = true ∧ t.on Fld.FAB_CTL_CLKEN k = false ∧
      t.stream.kind = .region k ∧ t.stream.next = some (k * 2 ^ 17) ∧ (t.cab k).meas.dstate = 1 ∧
      t.bur.job = some Job.init ∧ t.groups = s.groups ∧ t.frames = s.frames := by
  obtain ⟨ring, hexec⟩ := execRegionLoadBegin_takes (tag := tag) h hs hm hk hp hst
  obtain ⟨hmode, hcause, hstate, hclk, hkind, hnext, hmeas, hgroups, hframes⟩ :=
    (s.submitted 0x18 tag [BitVec.ofNat 32 k, 2]).regionBegin_spec (Nat.lt_of_lt_of_le hk (numCB_le _)) ring
      ((State.mode_submitted ..).trans hm)
  rw [State.groups_submitted] at hgroups
  rw [State.frames_submitted] at hframes
  have hiso (n : State) (hn : n.cbState k = 2) : n.isolated k = true := by
    rw [State.isolated, hn]
    rfl
  exact ⟨_, hexec, (State.answer_mode ..).trans hmode, (State.f_answer ..).trans hcause, (State.f_answer ..).trans hstate,
    hiso _ ((State.f_answer ..).trans hstate), (State.on_answer ..).trans hclk,
    (congrArg Stream.kind (State.answer_stream ..)).trans hkind, (congrArg Stream.next (State.answer_stream ..)).trans hnext,
    (congrArg (·.meas.dstate) (State.cab_answer ..)).trans hmeas, State.answer_job .., (State.answer_groups ..).trans hgroups,
    (State.answer_frames ..).trans hframes⟩

theorem regionRelease_active (tag : Nat) {k : Nat} (h : s.takes = true) (hs : s.standby = false) (hm : s.mode = .partialRun)
    (hk : k < s.part.numCB) (hst : s.cbState k = 3) :
    ∃ t, exec (.regionRelease tag [BitVec.ofNat 32 k]) s = .next t ∧ t.cbState k = 1 ∧
      t.on Fld.FAB_CTL_CLKEN k = (s.cab k).loaded.2 ∧ t.isSecure k = (s.cab k).loaded.1 ∧
      t.word (Reg.BUR_CLAIM.addr k 0) = 0 ∧ t.bur.job = some Job.init ∧ t.groups = s.groups ∧ t.frames = s.frames := by
  obtain ⟨hstate, hclk, hsec, hclaim, hgroups, hframes⟩ :=
    (s.submitted 0x19 tag [BitVec.ofNat 32 k]).regionRelease_spec (Nat.lt_of_lt_of_le hk (numCB_le _))
  rw [State.cab_submitted] at hclk hsec
  rw [State.groups_submitted] at hgroups
  rw [State.frames_submitted] at hframes
  refine ⟨_, execRegionRelease_takes h hs hm hk hst, ?_⟩
  generalize (s.submitted 0x19 tag [BitVec.ofNat 32 k]).regionRelease k = n at *
  exact ⟨hstate, hclk, hsec, hclaim, rfl, hgroups, hframes⟩

/-- Settles O52: each command on the state that it finds, and what the transition it makes leaves. -/
theorem modeCommands : Obligations.ModeCommands := by
  refine ⟨fun s tag g a h hs hm ha hg => ?_, fun s tag a h hs hl h1 h5 h10 => ?_,
    fun s tag a h hs hl ha => cfgBegin_load h hs hl ha,
    fun s tag h hs hm => cfgAbort_blank tag h hs hm, fun s tag k h hs hm hk hp hst => regionLoad_partial tag h hs hm hk hp hst,
    fun s tag k h hs hm hk hst => regionRelease_active tag h hs hm hk hst,
    fun s tag g a h hs hm hp ha hg hst => setMode_run h hs hm hp ha hg hst, fun s tag a h hs ha hm => setMode_blank h hs ha hm,
    fun s tag a h hs hm ha hp => setMode_wake h hs hm ha hp, fun s tag a h hs hl ha hm => ?_, fun s tag a h hs hc => ?_⟩
  · obtain ⟨t, ht, hmode, hcause, hprev, hchg, hheld, hst, hrest⟩ := setMode_bench (tag := tag) h hs hm ha hg
    refine ⟨t, ht, hmode, hcause, hprev, hchg, hheld, hst.trans ?_, hrest⟩
    cases (s.group g).core.seq.st <;> rfl
  · exact setMode_answered h hs hl fun n _ _ hna =>
      State.setModeCmd_bad (by rwa [hna]) (by rwa [hna]) (by rwa [hna])
  · exact setMode_answered h hs hl fun n hnm _ hna =>
      State.setModeCmd_same (by rwa [hna]) (by rw [hna, hnm, hm])
  · have hl : commandLegal 0x02 s.mode = true := by
      rcases hc with ⟨hm, -⟩ | ⟨hm, -⟩ | ⟨hm, -⟩ | ⟨hm | hm | hm, -⟩ <;> rw [hm] <;> rfl
    exact setMode_answered h hs hl fun n hnm hnp hna =>
      State.setModeCmd_refused (by rw [hna, hnm, hnp]; exact hc)

end

end Sys2Proof.Machine
end

/-!
# Longcase and registers

What the rows of chapter 03 share: a row of an array entry while LCLK runs, and a row that changes nothing but Longcase and the
registers it names (`LcsOnly`).
-/

section
namespace Sys2Proof.Machine

section
variable {s t u : State} {l : List Nat}

/-! ## Rows -/

theorem onInst_of_lt {n bound : Nat} {o : Out} (h : n < bound) : onInst n bound o = o := if_pos h

/-- A row of an array entry, while LCLK runs. -/
theorem onInst_of_lclk {n bound : Nat} (hn : n < bound) (hs : s.lclk = true) :
    onInst n bound (.next (if s.lclk then t else s)) = .next t := by
  rw [onInst_of_lt hn, if_pos hs]

/-- A host row of an array entry of Longcase, while LCLK runs. -/
theorem hostRow_lcsWrite {n bound a : Nat} {k : State → State} (hn : n < bound) (hs : s.lclk = true) :
    hostRow (onInst n bound (.next (s.lcsWrite a k))) = .next (k s).counted := by
  rw [onInst_of_lt hn, State.lcsWrite, State.writeIn, if_pos hs]
  rfl

theorem State.counted_lcs (s : State) : s.counted.lcs = s.lcs := by
  unfold State.counted
  split <;> rfl

@[simp] theorem State.atTick_f (s : State) (t : Nat) (q : FieldRef) (i j : Nat) : (s.atTick t).f q i j = s.f q i j := (rfl)

@[simp] theorem State.pushFiring_f (s : State) (r : FiringRec) (q : FieldRef) (i j : Nat) :
    (s.pushFiring r).f q i j = s.f q i j := (rfl)

/-! ## Longcase alone -/

/-- `t` is `s` but for Longcase and the registers listed. -/
structure LcsOnly (l : List Nat) (s t : State) : Prop where
  frame : t = { s with lcs := t.lcs, regs := t.regs }
  same : SameBut l s t

namespace LcsOnly

theorem refl : LcsOnly l s s := ⟨rfl, fun _ _ => rfl⟩

theorem trans (h : LcsOnly l s t) (h' : LcsOnly l t u) : LcsOnly l s u where
  frame := h'.frame.trans (by rw [h.frame])
  same := h.same.trans h'.same

theorem mono {l' : List Nat} (h : LcsOnly l s t) (hl : l ⊆ l') : LcsOnly l' s t where
  frame := h.frame
  same a ha := h.same a fun hm => ha (hl hm)

theorem of_writesOnly (h : WritesOnly l s t) : LcsOnly l s t where
  frame := h.frame.trans (by rw [h.frame])
  same := h.same

theorem withLcs {x : Longcase} (h : LcsOnly l s t) : LcsOnly l s { t with lcs := x } where
  frame := by rw [h.frame]
  same := h.same

theorem setWord {a : Nat} {w : Word} (h : LcsOnly l s t) (ha : a ∈ l) : LcsOnly l s (t.setWord a w) :=
  h.trans (of_writesOnly (WritesOnly.refl.setWord ha))

theorem setF {r : FieldRef} {v i j : Nat} (h : LcsOnly l s t) (ha : r.addr i j ∈ l) : LcsOnly l s (t.setF r v i j) :=
  h.setWord ha

theorem ite {c : Prop} [Decidable c] (ht : LcsOnly l s t) (hu : LcsOnly l s u) : LcsOnly l s (if c then t else u) := by
  split <;> assumption

theorem foldl {β : Type} {f : State → β → State} {k : List β} (h : LcsOnly l s t)
    (hf : ∀ {t b}, LcsOnly l s t → LcsOnly l s (f t b)) : LcsOnly l s (k.foldl f t) :=
  List.foldlRecOn k f h fun _ ht _ _ => hf ht

/-- A host row counts in TWN_HSEQ. -/
theorem counted (h : LcsOnly l s t) (hl : Reg.TWN_HSEQ.base ∈ l) : LcsOnly l s t.counted :=
  .ite (h.setF hl) h

end LcsOnly

/-! ## Fields -/

theorem State.f_setWord_of_ne {a i j : Nat} {w : Word} {q : FieldRef} (h : a ≠ q.addr i j) :
    (s.setWord a w).f q i j = s.f q i j := by
  rw [State.f, State.word_setWord, if_neg h, State.f]

/-- A bit of a field is set. -/
theorem State.f_setBit (s : State) {r : FieldRef} {k : Nat} (h : r.lo + r.width ≤ 32) (hk : k < r.width) (i j : Nat) :
    (s.setBit r k i j).f r i j = s.f r i j ||| 2 ^ k := by
  rw [State.setBit_eq, State.f_setF _ _ _ _ _ h]
  exact Nat.mod_eq_of_lt (Nat.or_lt_two_pow (Word.bits_lt ..) (Nat.pow_lt_pow_right (by decide) hk))

/-- Writing a field's own value changes no bit. -/
theorem Word.setBits_bits (w : Word) (lo width : Nat) : w.setBits lo width (w.bits lo width) = w := by
  have hle : w.bits lo width * 2 ^ lo ≤ w.toNat := by
    refine (Nat.mul_le_mul_right _ (Nat.mod_le ..)).trans ?_
    rw [Nat.shiftRight_eq_div_pow]
    exact Nat.div_mul_le_self ..
  rw [Word.setBits, Nat.mod_eq_of_lt (Word.bits_lt ..), Nat.sub_add_cancel hle, BitVec.ofNat_toNat, BitVec.setWidth_eq]

/-- A count that is raised by 0 writes back what it holds. -/
theorem State.word_addSat_zero (s : State) (r : FieldRef) (i j a : Nat) : (s.addSat r 0 i j).word a = s.word a := by
  have hlt : s.f r i j < 2 ^ r.width := Word.bits_lt ..
  rw [State.addSat_eq, Nat.add_zero, Nat.min_eq_left (Nat.le_sub_one_of_lt hlt), State.word_setF]
  split
  · next h => rw [State.f, h, Word.setBits_bits]
  · rfl

theorem State.f_addSat_zero (s : State) (r q : FieldRef) (i j k m : Nat) : (s.addSat r 0 i j).f q k m = s.f q k m := by
  rw [State.f, State.word_addSat_zero, State.f]

theorem LcsOnly.addSatZero {r : FieldRef} {i j : Nat} (h : LcsOnly l s t) : LcsOnly l s (t.addSat r 0 i j) :=
  h.trans ⟨rfl, fun a _ => t.word_addSat_zero r i j a⟩

end

end Sys2Proof.Machine
end

/-!
# Sample-clock stamps (O11)
-/

section
namespace Sys2Proof.Machine

variable {s : State}

/-- The auto-zero cycles restart in the cells alone. -/
theorem State.restartAz_frame (s : State) : s.restartAz = { s with cells := s.restartAz.cells } :=
  List.foldlRecOn _ _ (motive := fun t : State => t = { s with cells := t.cells }) rfl
    fun t ht c _ => by rw [ht]; rfl

theorem execSmpclkStamp_of_running {stamp : Nat} (h : s.f Fld.LCS_CTL_CLKSRC = 2) (hs : s.lcs.smpStalled = false) :
    exec (.smpclkStamp stamp) s = .next (s.smpStamp stamp) := by
  simp [exec, execSmpclkStamp, h, hs]

/-- With the first stamp after a stall the auto-zero cycles start again. -/
theorem execSmpclkStamp_of_stalled {stamp : Nat} (h : s.f Fld.LCS_CTL_CLKSRC = 2) (hs : s.lcs.smpStalled = true) :
    exec (.smpclkStamp stamp) s =
      .next (({ s with lcs := { s.lcs with smpStalled := false } } : State).restartAz.smpStamp stamp) := by
  simp [exec, execSmpclkStamp, h, hs]

theorem State.smpStamp_of_first {stamp : Nat} (hl : s.lclk = true) (he : s.lcs.smpEdge = none) :
    s.smpStamp stamp = { s with lcs := { s.lcs with smpEdge := some ⟨stamp, 0⟩ } } := by
  simp [State.smpStamp, hl, he]

theorem State.smpStamp_of_later {stamp : Nat} {e : SmpEdge} (hl : s.lclk = true) (he : s.lcs.smpEdge = some e) :
    s.smpStamp stamp =
      { s with lcs := { s.lcs with smpEdge := some ⟨stamp, e.edge + 65536⟩, smpq := some (stamp - e.stamp) } } := by
  simp [State.smpStamp, hl, he]

theorem State.smpValid_of_smpclk (h : s.f Fld.LCS_CTL_CLKSRC = 2) : s.smpValid = s.lcs.smpq.isSome := if_pos h

theorem State.sampleClock_of_smpclk (h : s.f Fld.LCS_CTL_CLKSRC = 2) : s.sampleClock = !s.lcs.smpStalled := if_pos h

/-- Settles O11: the stamp by whether an edge was stamped before it, and the first one after a stall by what restarting the
auto-zero cycles leaves alone. -/
theorem sampleClockStamps : Obligations.SampleClockStamps := by
  refine ⟨fun s stamp hl hsrc he hst => ?_, fun s stamp e hl hsrc he hst => ?_, fun s hsrc => ?_,
    fun s stamp hl hsrc he hst => ?_⟩
  · exact ⟨_, execSmpclkStamp_of_running hsrc hst, State.smpStamp_of_first hl he⟩
  · refine ⟨_, execSmpclkStamp_of_running hsrc hst, ?_, State.smpStamp_of_later hl he⟩
    rw [State.smpStamp_of_later hl he]
    exact State.smpValid_of_smpclk hsrc
  · exact ⟨_, if_pos hsrc, State.smpValid_of_smpclk hsrc, State.sampleClock_of_smpclk hsrc, rfl⟩
  · have hfirst := State.smpStamp_of_first (stamp := stamp)
      (s := ({ s with lcs := { s.lcs with smpStalled := false } } : State).restartAz)
      (by rw [State.restartAz_frame]; exact hl) (by rw [State.restartAz_frame]; exact he)
    rw [State.restartAz_frame] at hfirst
    refine ⟨_, execSmpclkStamp_of_stalled hsrc hst, ?_, ?_⟩
    · rw [State.restartAz_frame, hfirst]
      exact State.sampleClock_of_smpclk hsrc
    · rw [State.restartAz_frame, hfirst]

end Sys2Proof.Machine
end

/-!
# Alarms (O15)

The statement says that the firing of an alarm adds its own record alone to the firings. A timer that the alarm arms, and whose
expiry falls in the tick of the firing, expires before it would start (`State.armTimers`, R79), and its record joins as well.
-/

section
namespace Sys2Proof.Machine

/-- A die at tick 1000 whose alarm 0 passes its instant in tick 1001, and arms timer 0, which expires in that tick. -/
def armedTimerExpires : State :=
  { ((State.reset.setF Fld.PA_CTL_EN 1).setF Fld.TT_CTL_EN 1).setF Fld.TT_CTL_ARM_EN 1 with
    mode := .run
    lcs := { Longcase.init with
      pll := .locked
      time := 1000
      trackers := [(0, { Tracker.init with state := .locked, t0 := 64064, phi0 := 1, rate := 1 / 128 })]
      timers := [(0, ⟨true, 1001, 0, false⟩)] } }

/-- How many firings a next state holds. -/
def nextFirings : Out → Nat
  | .next t => t.lcs.firings.length
  | _ => 0

/-- The records of the alarm and of the timer. -/
theorem armedTimerExpires_firings : nextFirings (exec (.alarmFiring 0 1001) armedTimerExpires) = 2 := by
  decide +kernel

/-- Refutes O15: the alarm fires in the tick in which a timer that it arms expires, and the record of that expiry joins the
firings with the alarm's own. -/
theorem not_alarmsFireOrSkip : ¬ Obligations.AlarmsFireOrSkip := by
  rintro ⟨-, -, fires, -⟩
  obtain ⟨t, ht, hfirings, -⟩ := fires armedTimerExpires 0 1001 1 (by decide) (by decide +kernel) (by decide +kernel)
    (by decide +kernel) (by decide +kernel) (by decide +kernel) (by decide +kernel) (by decide +kernel) (by decide +kernel)
  have htwo := armedTimerExpires_firings
  rw [ht] at htwo
  have hone : nextFirings (.next t) = 1 := congrArg List.length hfirings
  omega

end Sys2Proof.Machine
end

/-!
# Timers (O16)
-/

section
namespace Sys2Proof.Machine

variable {s : State} {n : Nat}

/-! ## An expiry -/

/-- The record of timer `n`'s next firing (R75, R79). -/
def State.timerRecord (s : State) (n : Nat) : FiringRec :=
  { tick := (s.timer n).next, timer := true, num := n, act := s.f Fld.TT_CTL_ACT n, rem := (s.timer n).rem,
    coast := (s.timer n).coast, turn := none, dest := 0 }

/-- `s` with timer `n`'s firing counted and on record. -/
def State.timerFired (s : State) (n : Nat) : State :=
  ((s.atTick (s.timer n).next).addWrap Fld.TT_CNT 1 n).pushFiring (s.timerRecord n)

/-- The ticks from a start to the expiry follow from TTn_CTL and TTn_PERIOD. -/
theorem State.timerSpan_congr {t : State} (hper : t.f Fld.TT_PERIOD n = s.f Fld.TT_PERIOD n)
    (hpresc : t.f Fld.TT_CTL_PRESC n = s.f Fld.TT_CTL_PRESC n) : t.timerSpan n = s.timerSpan n := by
  rw [State.timerSpan, hper, hpresc, State.timerSpan]

/-- A firing leaves a timer's other registers. -/
theorem State.f_timerFired (s : State) (n : Nat) {q : FieldRef}
    (h : Fld.TT_CNT.st1 = q.st1 ∧ Fld.TT_CNT.st2 = q.st2 ∧ Fld.TT_CNT.base ≠ q.base) : (s.timerFired n).f q n = s.f q n := by
  rw [State.timerFired, State.pushFiring_f, State.addWrap_eq, State.f_setF_beside _ _ _ _ _ _ h, State.atTick_f]

theorem State.count_timerFired (s : State) (n : Nat) :
    (s.timerFired n).f Fld.TT_CNT n = (s.f Fld.TT_CNT n + 1) % 2 ^ 32 := by
  rw [State.timerFired, State.pushFiring_f, State.addWrap_eq, State.f_setF _ _ _ _ _ (by decide), State.atTick_f]
  rfl

theorem State.timerSpan_timerFired (s : State) (n : Nat) : (s.timerFired n).timerSpan n = s.timerSpan n :=
  State.timerSpan_congr (s.f_timerFired n (by decide)) (s.f_timerFired n (by decide))

theorem State.timerSpan_counted (hn : n < 32) : s.counted.timerSpan n = s.timerSpan n :=
  State.timerSpan_congr (s.f_counted (FieldRef.addr_ne_hseq hn (by decide)))
    (s.f_counted (FieldRef.addr_ne_hseq hn (by decide)))

theorem State.timerFired_lcsOnly (s : State) (n : Nat) : LcsOnly [Reg.TT_CNT.addr n 0] s (s.timerFired n) :=
  .withLcs (.setF (.withLcs .refl) List.mem_cons_self)

/-- An expiry: the timer reloads, or stops (R78, R79). -/
theorem State.expireTimer_of_running (h : (s.timer n).running = true) :
    s.expireTimer n = (s.timerFired n).setTimer n
      (if s.on Fld.TT_CTL_PERIODIC n then { s.timer n with next := (s.timer n).next + s.timerSpan n } else Timer.init) := by
  have hper : (s.timerFired n).on Fld.TT_CTL_PERIODIC n = s.on Fld.TT_CTL_PERIODIC n :=
    congrArg (· != 0) (s.f_timerFired n (by decide))
  rw [State.expireTimer, if_pos h, ← hper, ← s.timerSpan_timerFired n]
  rfl

theorem State.expireTimer_lcsOnly (h : (s.timer n).running = true) :
    LcsOnly [Reg.TT_CNT.addr n 0] s (s.expireTimer n) := by
  rw [State.expireTimer_of_running h]
  exact (s.timerFired_lcsOnly n).withLcs

theorem execTimerExpiry_eq (hn : n < 32) (hs : s.lclk = true) : exec (.timerExpiry n) s = .next (s.expireTimer n) :=
  onInst_of_lclk hn hs

/-! ## TTn_CTL -/

/-- The word that a write of `w` to TTn_CTL stores. -/
def ttCtlWord (w : Word) : Word :=
  let new := w &&& 0xBFFC07F7
  if new.bits 27 2 = 3 then new.setBits 27 2 0 else new

theorem bit_ttCtlWord (w : Word) : (ttCtlWord w).bit 31 = w.bit 31 ∧ (ttCtlWord w).bit 30 = false := by
  have h31 : (w &&& 0xBFFC07F7).bit 31 = w.bit 31 := by simp [bit_eq_getLsbD]
  have h30 : (w &&& 0xBFFC07F7).bit 30 = false := by simp [bit_eq_getLsbD]
  unfold ttCtlWord
  dsimp only
  split
  · rw [bit_setBits_of_disjoint _ _ (by decide) (by decide), bit_setBits_of_disjoint _ _ (by decide) (by decide)]
    exact ⟨h31, h30⟩
  · exact ⟨h31, h30⟩

theorem writeTtCtl_of_starts {w : Word} (hen : w.bit 31 = true) (hstart : w.bit 30 = true) :
    s.writeTtCtl n w =
      ((s.expireFirst n s.lcs.time).setWord (Reg.TT_CTL.addr n 0) (ttCtlWord w)).startTimer n s.lcs.time 0 false := by
  have hnew : ¬ ¬ (ttCtlWord w).bit 31 = true := by rw [(bit_ttCtlWord w).1]; exact not_not_intro hen
  exact (if_neg hnew).trans (if_pos hstart)

theorem writeTtCtl_of_stops {w : Word} (hen : w.bit 31 = false) :
    s.writeTtCtl n w = (s.setWord (Reg.TT_CTL.addr n 0) (ttCtlWord w)).setTimer n Timer.init := by
  have hnew : ¬ (ttCtlWord w).bit 31 = true := by rw [(bit_ttCtlWord w).1, hen]; decide
  exact if_pos hnew

/-- `s` after the expiry in the present tick, if there is one, and with timer `n` started by TTn_CTL (R78, R79). -/
def State.started (s : State) (n : Nat) : State :=
  ((s.expireFirst n s.lcs.time).setWord (Reg.TT_CTL.addr n 0)
    (ttCtlWord (s.word (Reg.TT_CTL.addr n 0) ||| 0x40000000))).startTimer n s.lcs.time 0 false

/-- EN, where it is set, is set in the word that a start writes. -/
theorem bit_startWord (hen : s.on Fld.TT_CTL_EN n = true) :
    (s.word (Reg.TT_CTL.addr n 0) ||| 0x40000000).bit 31 = true := by
  have hold : (s.word (Reg.TT_CTL.addr n 0)).bit 31 = true := (State.on_eq_bit s rfl n 0).symm.trans hen
  rw [bit_eq_getLsbD] at hold ⊢
  simp [hold]

theorem execTimerStart_eq {tick : Nat} (hn : n < 32) (hs : s.lclk = true) (hen : s.on Fld.TT_CTL_EN n = true) :
    exec (.timerStart n tick) s = .next ((s.atTick tick).started n).counted := by
  have h30 : (s.word (Reg.TT_CTL.addr n 0) ||| 0x40000000).bit 30 = true := by simp [bit_eq_getLsbD]
  refine (hostRow_lcsWrite hn hs).trans (congrArg (fun t : State => Host.Outcome.next t.counted) ?_)
  exact writeTtCtl_of_starts (s := s.atTick tick) (bit_startWord hen) h30

theorem execTimerDisable_eq (hn : n < 32) (hs : s.lclk = true) : ∃ v : Word, v.bit 31 = false ∧
    exec (.timerDisable n) s = .next ((s.setWord (Reg.TT_CTL.addr n 0) v).setTimer n Timer.init).counted := by
  have h31 : ((s.word (Reg.TT_CTL.addr n 0)).setBits 31 1 0).bit 31 = false := by
    rw [bit_eq_bits, Word.bits_setBits _ _ (by decide)]
    rfl
  exact ⟨_, (bit_ttCtlWord _).1.trans h31,
    (hostRow_lcsWrite hn hs).trans (congrArg (fun t : State => Host.Outcome.next t.counted) (writeTtCtl_of_stops h31))⟩

/-- A bit of TTn_CTL after a host row that stores `v` there. -/
theorem on_ttCtl (hn : n < 32) {t : State} {v : Word} (ht : t.word (Reg.TT_CTL.addr n 0) = v) {q : FieldRef}
    (hq : q.width = 1 ∧ q.base = Reg.TT_CTL.base ∧ q.st1 = Reg.TT_CTL.st1) : t.counted.on q n = v.bit q.lo := by
  obtain ⟨hw, hb, h1⟩ := hq
  have haddr : q.addr n 0 = Reg.TT_CTL.addr n 0 := by simp only [FieldRef.addr, hb, h1, Nat.zero_mul]
  rw [State.on, State.f_counted _ (FieldRef.addr_ne_hseq hn (by rw [hb, h1]; decide)), ← State.on, State.on_eq_bit _ hw, haddr, ht]

theorem State.word_started (s : State) (n : Nat) : (s.started n).word (Reg.TT_CTL.addr n 0) =
    ttCtlWord (s.word (Reg.TT_CTL.addr n 0) ||| 0x40000000) :=
  (State.word_setWord ..).trans (if_pos rfl)

/-- A start leaves the timer running to one span after the present tick. -/
theorem State.started_lcs (s : State) (hn : n < 32) : (s.started n).lcs = ((s.expireFirst n s.lcs.time).setTimer n
    { running := true, next := s.lcs.time + (s.started n).counted.timerSpan n, rem := 0, coast := false }).lcs := by
  rw [State.timerSpan_counted hn]
  rfl

theorem State.count_started (s : State) (hn : n < 32) :
    (s.started n).counted.f Fld.TT_CNT n = (s.expireFirst n s.lcs.time).f Fld.TT_CNT n := by
  rw [State.f_counted _ (FieldRef.addr_ne_hseq hn (by decide)), State.started, State.startTimer, State.setTimer_f]
  exact State.f_setWord_of_ne (by simp only [FieldRef.addr, Reg.TT_CTL, Fld.TT_CNT]; omega)

/-! ## The obligation -/

/-- A start in a tick in which the timer does not expire. -/
theorem State.expireFirst_of_not_due {tick : Nat} (h : (s.timer n).running = true → tick < (s.timer n).next) :
    s.expireFirst n tick = s :=
  if_neg fun ⟨hrun, hle⟩ => Nat.not_lt.mpr hle (h hrun)

/-- A start in the tick in which the timer expires: the expiry comes first (R79). -/
theorem State.expireFirst_of_due {tick : Nat} (hrun : (s.timer n).running = true) (h : (s.timer n).next ≤ tick) :
    s.expireFirst n tick = s.expireTimer n :=
  if_pos ⟨hrun, h⟩

theorem State.timer_congr {t : State} (h : t.lcs = s.lcs) (n : Nat) : t.timer n = s.timer n := by
  rw [State.timer, h, State.timer]

/-- Settles O16: a start and an expiry by what each makes of the timer, and by the word that the write of TTn_CTL stores. -/
theorem timersRunAndExpire : Obligations.TimersRunAndExpire := by
  refine ⟨fun s n tick hn hs hen hdue => ?_, fun s n tick hn hs hen hrun hdue => ?_, fun s n hn hs hrun hper => ?_,
    fun s n hn hs hrun hper => ?_, fun s n hn hs => ?_⟩
  · have hfirst : (s.atTick tick).expireFirst n (s.atTick tick).lcs.time = s.atTick tick := by
      rw [State.atTick_time hs]
      exact State.expireFirst_of_not_due hdue
    have hlcs := (s.atTick tick).started_lcs hn
    rw [hfirst, State.atTick_time hs] at hlcs
    have hw : LcsOnly [Reg.TWN_HSEQ.base, Reg.TT_CTL.addr n 0] s ((s.atTick tick).started n).counted := by
      rw [State.started, hfirst]
      exact .counted (.withLcs (.setWord (.withLcs .refl) (by simp))) (by simp)
    have hword := (s.atTick tick).word_started n
    obtain ⟨h31, h30⟩ := bit_ttCtlWord ((s.atTick tick).word (Reg.TT_CTL.addr n 0) ||| 0x40000000)
    refine ⟨_, execTimerStart_eq hn hs hen, (State.counted_lcs _).trans hlcs, ?_, ?_, hw.frame, hw.same⟩
    · exact ((on_ttCtl hn hword (q := Fld.TT_CTL_EN) (by decide)).trans h31).trans (bit_startWord hen)
    · exact (on_ttCtl hn hword (q := Fld.TT_CTL_START) (by decide)).trans h30
  · have hfirst : (s.atTick tick).expireFirst n (s.atTick tick).lcs.time = (s.atTick tick).expireTimer n :=
      State.expireFirst_of_due hrun (hdue.trans (State.atTick_time hs tick).symm).le
    rw [State.expireTimer_of_running (s := s.atTick tick) hrun] at hfirst
    have hlcs := ((s.atTick tick).started n).counted_lcs.trans ((s.atTick tick).started_lcs hn)
    rw [hfirst, State.atTick_time hs] at hlcs
    refine ⟨_, execTimerStart_eq hn hs hen, ?_, ?_, ?_⟩
    · exact (State.timer_congr hlcs n).trans ((State.timer_setTimer ..).trans (if_pos rfl))
    · exact congrArg Longcase.firings hlcs
    · rw [State.count_started _ hn, hfirst, State.setTimer_f, State.count_timerFired, State.atTick_f]
  · have hexec := execTimerExpiry_eq hn hs
    have hw := State.expireTimer_lcsOnly hrun
    rw [State.expireTimer_of_running hrun, hper, if_pos rfl] at hexec hw
    exact ⟨_, hexec, rfl, (State.timer_setTimer ..).trans (if_pos rfl), s.count_timerFired n, State.atTick_time hs _, hw.frame,
      hw.same⟩
  · have hexec := execTimerExpiry_eq hn hs
    have hw := State.expireTimer_lcsOnly hrun
    rw [State.expireTimer_of_running hrun, hper, if_neg Bool.false_ne_true] at hexec hw
    exact ⟨_, hexec, congrArg Timer.running ((State.timer_setTimer ..).trans (if_pos rfl)), s.count_timerFired n, hw.frame,
      hw.same⟩
  · obtain ⟨v, hv, ht⟩ := execTimerDisable_eq hn hs
    have hw : LcsOnly [Reg.TWN_HSEQ.base, Reg.TT_CTL.addr n 0] s
        ((s.setWord (Reg.TT_CTL.addr n 0) v).setTimer n Timer.init).counted :=
      .counted (.withLcs (.setWord .refl (by simp))) (by simp)
    have hword : ((s.setWord (Reg.TT_CTL.addr n 0) v).setTimer n Timer.init).word (Reg.TT_CTL.addr n 0) = v :=
      (State.word_setWord ..).trans (if_pos rfl)
    exact ⟨_, ht, (on_ttCtl hn hword (q := Fld.TT_CTL_EN) (by decide)).trans hv, State.counted_lcs _, hw.frame, hw.same⟩

end Sys2Proof.Machine
end

/-!
# Captures (O17)
-/

section
namespace Sys2Proof.Machine

variable {s : State} {k : Nat}

/-- The entry of an edge stamped `stamp` in capture unit `k` (R80). -/
def State.capEntry (s : State) (k stamp : Nat) : CapEntry :=
  let g := (s.trk (s.f Fld.CAP_CTL_REF k)).segAt stamp
  { ts := stamp, turn := turnOf g.2, frac := fracOf g.2, epoch := g.1.epoch, state := g.1.state.code }

/-- An edge that capture unit `k` takes up (R59, R80): it joins the entries, or meets 16 of them. -/
theorem execCaptureEdge_eq {stamp : Nat} {kind : EdgeKind} (hk : k < 16) (hs : s.lclk = true)
    (hen : s.on Fld.CAP_CTL_EN k = true) (hin : s.lcsInput (s.f Fld.CAP_CTL_KIND k) (s.f Fld.CAP_CTL_INDEX k) = true)
    (hedge : edgeMatches (s.f Fld.CAP_CTL_EDGE k) kind = true) :
    exec (.captureEdge k stamp kind) s = .next (if (s.capture k).length < 16 then
        ((s.atTick (stamp / 64)).setCapture k (s.capture k ++ [s.capEntry k stamp])).setBit Fld.LCS_RIRQ_BITS (8 + k)
      else s.flag Fld.CAP_STAT_OVF k) :=
  (onInst_of_lt hk).trans (congrArg Host.Outcome.next (if_pos ⟨hs, hen, hin, hedge⟩))

/-- Settles O17: an edge by whether the unit has room for it. -/
theorem capturesStampAndPop : Obligations.CapturesStampAndPop := by
  refine ⟨fun s k stamp kind hk hs hen hin hedge hroom => ?_, fun s k stamp kind hk hs hen hin hedge hfull => ?_,
    fun s k e rest hk hs hc => ?_⟩
  · have hexec := execCaptureEdge_eq (stamp := stamp) hk hs hen hin hedge
    rw [if_pos hroom] at hexec
    have hcap : ((s.atTick (stamp / 64)).setCapture k (s.capture k ++ [s.capEntry k stamp])).capture k =
        s.capture k ++ [s.capEntry k stamp] := (State.capture_setCapture ..).trans (if_pos rfl)
    have hw : LcsOnly [Fld.LCS_RIRQ_BITS.addr 0 0] s
        (((s.atTick (stamp / 64)).setCapture k (s.capture k ++ [s.capEntry k stamp])).setBit Fld.LCS_RIRQ_BITS (8 + k)) :=
      .setF (.withLcs (.withLcs .refl)) List.mem_cons_self
    exact ⟨_, hexec, hcap, State.f_setBit _ (by decide) (Nat.add_lt_add_left hk 8) 0 0,
      congrArg (fun c => ((s.atTick (stamp / 64)).setCapture k c).lcs) hcap.symm, hw.frame, hw.same⟩
  · have hexec := execCaptureEdge_eq (stamp := stamp) hk hs hen hin hedge
    rw [if_neg (Nat.not_lt.mpr hfull)] at hexec
    exact ⟨_, hexec, rfl⟩
  · refine ⟨_, hostRow_lcsWrite hk hs, ?_⟩
    rw [hc]
    rfl

end Sys2Proof.Machine
end

/-!
# Phase references (O12, O13)

A tracker is replaced by `State.putTrk`, which notes a change of its state; a reference that stops tracking ends the turns of the
resamplers locked to it, which is seen in the chains and their registers alone (`ChainsOnly`).
-/

section
namespace Sys2Proof.Machine

/-! ## Tables -/

theorem Tab.ins_ins {α : Type} (t : Tab α) (k : Nat) (v w : α) : (t.ins k v).ins k w = t.ins k w := by
  induction t with
  | nil => simp [Tab.ins]
  | cons e t ih =>
    obtain ⟨a, x⟩ := e
    rcases Nat.lt_trichotomy k a with h | rfl | h
    · simp [Tab.ins, h]
    · simp [Tab.ins]
    · simp [Tab.ins, Nat.lt_asymm h, h.ne', ih]

/-- Of two updates of one entry, the later one stands. -/
theorem Tab.put_put {α : Type} [DecidableEq α] (d : Nat → α) (t : Tab α) {k : Nat} {v w : α} (hv : v ≠ d k) (hw : w ≠ d k) :
    (t.put d k v).put d k w = t.put d k w := by
  rw [Tab.put, if_neg hw, Tab.put, if_neg hv, Tab.ins_ins, Tab.put, if_neg hw]

section
variable {s t u : State} {n : Nat}

theorem State.setTrk_setTrk {x y : Tracker} (hx : x ≠ Tracker.init) (hy : y ≠ Tracker.init) :
    (s.setTrk n x).setTrk n y = s.setTrk n y :=
  congrArg (fun l => ({ s with lcs := { s.lcs with trackers := l } } : State)) (Tab.put_put _ _ hx hy)

@[simp] theorem State.setF_trk (s : State) (r : FieldRef) (v i j m : Nat) : (s.setF r v i j).trk m = s.trk m := (rfl)

@[simp] theorem State.atTick_trk (s : State) (tick m : Nat) : (s.atTick tick).trk m = s.trk m := (rfl)

/-! ## A tracker is replaced -/

theorem State.putTrk_lcsOnly (s : State) (n : Nat) (x : Tracker) : LcsOnly [Fld.LCS_RIRQ_BITS.addr 0 0] s (s.putTrk n x) :=
  .ite (.withLcs .refl) (.setF (.withLcs .refl) List.mem_cons_self)

/-- The tracker is the new one, with the stretches of its phase. -/
theorem State.putTrk_eq (s : State) (n : Nat) (x : Tracker) : ∃ p, s.putTrk n x =
    if (s.trk n).state = x.state then s.setTrk n { x with past := p }
    else (s.setTrk n { x with past := p }).setBit Fld.LCS_RIRQ_BITS n := by
  unfold State.putTrk
  dsimp only
  by_cases h : x.seg = (s.trk n).seg
  · exact ⟨x.past, by rw [if_pos h]⟩
  · exact ⟨_, by rw [if_neg h]⟩

theorem State.trk_putTrk (s : State) (n : Nat) (x : Tracker) : ∃ p, (s.putTrk n x).trk n = { x with past := p } := by
  obtain ⟨p, hp⟩ := s.putTrk_eq n x
  refine ⟨p, ?_⟩
  rw [hp]
  split <;> exact (State.trk_setTrk ..).trans (if_pos rfl)

/-- A change of the tracker's state shows in LCS_RIRQ (R64). -/
theorem State.putTrk_of_change {x : Tracker} (hn : n < 24) (h : (s.trk n).state ≠ x.state) :
    (∃ p, (s.putTrk n x).trk n = { x with past := p }) ∧
      (s.putTrk n x).f Fld.LCS_RIRQ_BITS = s.f Fld.LCS_RIRQ_BITS ||| 2 ^ n ∧
      (s.putTrk n x).lcs = (s.setTrk n ((s.putTrk n x).trk n)).lcs := by
  obtain ⟨p, hp⟩ := s.putTrk_eq n x
  rw [if_neg h] at hp
  have htrk : (s.putTrk n x).trk n = { x with past := p } := by
    rw [hp]
    exact (State.trk_setTrk ..).trans (if_pos rfl)
  refine ⟨⟨p, htrk⟩, ?_, ?_⟩
  · rw [hp]
    exact State.f_setBit _ (by decide) hn 0 0
  · rw [htrk, hp]
    rfl

/-! ## Edges (O12) -/

/-- The instant of an edge stamped `stamp` at reference `n` (step 3 of R60). -/
def State.delayed (s : State) (n stamp : Nat) : Int := stamp + toSigned 16 (s.f Fld.PR_ADJ_DELAY n)

/-- Tracker `n` once its main input has shown an edge. -/
def State.seenMain (s : State) (n stamp : Nat) (kind : EdgeKind) : Tracker :=
  { s.trk n with level := kind == .rise, lastRaw := some stamp }

theorem State.seenMain_ne_init (s : State) (n stamp : Nat) (kind : EdgeKind) : s.seenMain n stamp kind ≠ Tracker.init :=
  fun h => by cases congrArg Tracker.lastRaw h

/-- An edge that an enabled reference selects goes to the hold-off (R60). -/
theorem execPrEdge_eq {stamp tick : Nat} {kind : EdgeKind} (hn : n < 8) (hs : s.lclk = true) (hin : s.mainInput n = true)
    (hq : s.qdec n = 0) (hen : s.on Fld.PR_CFG_EN n = true) (hedge : edgeMatches (s.f Fld.PR_CFG_EDGE n) kind = true) :
    exec (.prEdge n stamp tick kind) s =
      .next (((s.atTick tick).setTrk n (s.seenMain n stamp kind)).keepEdge n (s.delayed n stamp) tick false) := by
  refine (onInst_of_lclk hn hs).trans (congrArg Host.Outcome.next ?_)
  have hin' : (!(s.atTick tick).mainInput n) = false := by rw [Bool.not_eq_false']; exact hin
  have hq' : ¬ (s.atTick tick).qdec n ≠ 0 := not_not_intro hq
  unfold State.mainEdge
  dsimp only
  rw [if_neg (by rw [hin']; decide), if_neg hq', if_pos ⟨hen, hedge⟩]
  rfl

theorem State.keepEdge_of_kept {stamp : Int} {tick : Nat} {rev : Bool}
    (h : (s.trk n).keptMain.any (fun k => stamp - k < (s.f Fld.PR_ADJ_HOLDOFF n : Int) * 4096) = false) :
    s.keepEdge n stamp tick rev = s.setTrk n
      { s.trk n with keptMain := some stamp, queue := (s.trk n).queue ++ [⟨stamp, tick, rev⟩] } :=
  if_neg (by rw [h]; decide)

theorem State.keepEdge_of_held {stamp : Int} {tick : Nat} {rev : Bool}
    (h : (s.trk n).keptMain.any (fun k => stamp - k < (s.f Fld.PR_ADJ_HOLDOFF n : Int) * 4096) = true) :
    s.keepEdge n stamp tick rev = s.addSat Fld.PR_CNT_GLITCH 1 n :=
  if_pos h

/-- Past the hold-off of the last kept edge, or with none kept (R60). -/
theorem holdoff_past {o : Option Int} {x h : Int} (hp : o.all (fun k => decide (h ≤ x - k)) = true) :
    o.any (fun k => decide (x - k < h)) = false := by
  cases o with
  | none => rfl
  | some k => simpa using hp

/-- The tracker with the edge `e` taken from its queue, and the index edges up to it. -/
def Tracker.take (x : Tracker) (e : EdgeRec) (rest : List EdgeRec) : Tracker :=
  { x with queue := rest, indexEdges := x.indexEdges.filter fun i => !decide (i ≤ e.stamp) }

/-- The tracker in Acquiring with the edge `e`: P is the interval since the last edge (R64). -/
def Tracker.acquire (x : Tracker) (e : EdgeRec) : Tracker :=
  { x with state := .acquiring, p := satPeriod ((e.stamp - x.last).toNat * 256), last := e.stamp, good := 0 }

theorem Tracker.edge_of_second {x : Tracker} {e : EdgeRec} (hst : x.state = .unlocked) (hfirst : x.haveFirst = true)
    (hrev : e.rev = false) (c : TrkCfg) (tp : Int) (hit : Bool) : Tracker.edge c x e tp hit = ⟨x.acquire e, 0, 0, 0⟩ := by
  simp [Tracker.edge, Tracker.acquire, hst, hfirst, hrev]

/-- `s` with tracker `n` in Acquiring with its oldest edge, and the counters of reference `n` raised by nothing. -/
theorem State.processEdge_of_second {e : EdgeRec} {rest : List EdgeRec} (hq : (s.trk n).queue = e :: rest)
    (hst : (s.trk n).state = .unlocked) (hfirst : (s.trk n).haveFirst = true) (hrev : e.rev = false) :
    s.processEdge n = ((((s.atTick (e.tick + 8)).putTrk n (((s.trk n).take e rest).acquire e)).addSat
      Fld.PR_CNT_SLIP 0 n).addSat Fld.PR_CNT_MISS 0 n).addSat Fld.PR_CNT_DECERR 0 n := by
  have hedge := Tracker.edge_of_second (x := (s.trk n).take e rest) hst hfirst hrev (s.trkCfg n) ((e.tick + 9 : Nat) * 64)
    ((s.trk n).indexEdges.any fun x => decide (x ≤ e.stamp))
  rw [Tracker.take] at hedge
  unfold State.processEdge
  dsimp only
  rw [hq]
  dsimp only
  rw [hedge]
  rfl

/-! ## References that stop tracking -/

theorem State.followRef_of_kept {was : TrkState} (h : was.tracking = true → (s.trk n).state.tracking = true) :
    s.followRef was n = s := by
  refine if_neg ?_
  rw [Bool.and_eq_true, Bool.not_eq_true']
  exact fun ⟨hwas, hnow⟩ => by rw [h hwas] at hnow; cases hnow

end

section
variable {s : State} {n stamp tick : Nat} {kind : EdgeKind}

theorem prEdge_kept (hn : n < 8) (hs : s.lclk = true) (hin : s.mainInput n = true) (hq : s.qdec n = 0)
    (hen : s.on Fld.PR_CFG_EN n = true) (hedge : edgeMatches (s.f Fld.PR_CFG_EDGE n) kind = true)
    (hpast : (s.trk n).keptMain.all
      (fun k => decide ((s.f Fld.PR_ADJ_HOLDOFF n : Int) * 4096 ≤ s.delayed n stamp - k)) = true) :
    exec (.prEdge n stamp tick kind) s = .next ((s.atTick tick).setTrk n { s.seenMain n stamp kind with
      keptMain := some (s.delayed n stamp), queue := (s.trk n).queue ++ [⟨s.delayed n stamp, tick, false⟩] }) := by
  have hseen : ((s.atTick tick).setTrk n (s.seenMain n stamp kind)).trk n = s.seenMain n stamp kind :=
    (State.trk_setTrk ..).trans (if_pos rfl)
  rw [execPrEdge_eq hn hs hin hq hen hedge, State.keepEdge_of_kept (by rw [hseen]; exact holdoff_past hpast), hseen,
    State.setTrk_setTrk (s.seenMain_ne_init n stamp kind) fun h => ?_]
  · rfl
  · exact List.append_ne_nil_of_right_ne_nil _ (List.cons_ne_nil _ _) (congrArg Tracker.queue h)

theorem prEdge_held {k : Int} (hn : n < 8) (hs : s.lclk = true) (hin : s.mainInput n = true) (hq : s.qdec n = 0)
    (hen : s.on Fld.PR_CFG_EN n = true) (hedge : edgeMatches (s.f Fld.PR_CFG_EDGE n) kind = true)
    (hk : (s.trk n).keptMain = some k) (hheld : s.delayed n stamp - k < (s.f Fld.PR_ADJ_HOLDOFF n : Int) * 4096) :
    exec (.prEdge n stamp tick kind) s = .next (((s.atTick tick).setTrk n (s.seenMain n stamp kind)).setF Fld.PR_CNT_GLITCH
      (min (s.f Fld.PR_CNT_GLITCH n + 1) 255) n) := by
  have hseen : ((s.atTick tick).setTrk n (s.seenMain n stamp kind)).trk n = s.seenMain n stamp kind :=
    (State.trk_setTrk ..).trans (if_pos rfl)
  have hany : (s.seenMain n stamp kind).keptMain.any
      (fun k => s.delayed n stamp - k < (s.f Fld.PR_ADJ_HOLDOFF n : Int) * 4096) = true := by
    rw [State.seenMain, hk]
    exact decide_eq_true hheld
  rw [execPrEdge_eq hn hs hin hq hen hedge, State.keepEdge_of_held (by rw [hseen]; exact hany)]
  rfl

theorem prIndexEdge_kept (hn : n < 8) (hs : s.lclk = true)
    (hin : s.lcsInput (s.f Fld.PR_SRC_IKIND n) (s.f Fld.PR_SRC_IINDEX n) = true) (hen : s.on Fld.PR_CFG_EN n = true)
    (hpast : (s.trk n).keptIndex.all
      (fun k => decide ((s.f Fld.PR_ADJ_HOLDOFF n : Int) * 4096 ≤ s.delayed n stamp - k)) = true) :
    exec (.prIndexEdge n stamp tick .rise) s = .next ((s.atTick tick).setTrk n { s.trk n with
      keptIndex := some (s.delayed n stamp), indexEdges := (s.trk n).indexEdges ++ [s.delayed n stamp] }) := by
  refine (onInst_of_lt hn).trans (congrArg Host.Outcome.next ?_)
  rw [if_pos ⟨hs, hin, hen, rfl⟩]
  exact if_neg (ne_true_of_eq_false (holdoff_past hpast))

theorem execEdgeProcessing_of_unlocked (hn : n < 8) (hs : s.lclk = true) (hst : (s.trk n).state = .unlocked) :
    exec (.edgeProcessing n) s = .next (s.processEdge n) :=
  (onInst_of_lclk hn hs).trans (congrArg Host.Outcome.next (State.followRef_of_kept fun h => by rw [hst] at h; cases h))

end

/-- Processing the second edge in Unlocked (R64). -/
theorem State.processEdge_second_spec {s : State} {n : Nat} {e : EdgeRec} {rest : List EdgeRec} (hn : n < 8)
    (hq : (s.trk n).queue = e :: rest) (hst : (s.trk n).state = .unlocked) (hfirst : (s.trk n).haveFirst = true)
    (hrev : e.rev = false) :
    (∃ p, (s.processEdge n).trk n = { ((s.trk n).take e rest).acquire e with past := p }) ∧
      (s.processEdge n).f Fld.LCS_RIRQ_BITS = s.f Fld.LCS_RIRQ_BITS ||| 2 ^ n ∧
      (s.processEdge n).lcs = ((s.atTick (e.tick + 8)).setTrk n ((s.processEdge n).trk n)).lcs ∧
      LcsOnly [Fld.LCS_RIRQ_BITS.addr 0 0] s (s.processEdge n) := by
  obtain ⟨htrk, hirq, hlcs⟩ := State.putTrk_of_change (s := s.atTick (e.tick + 8)) (n := n)
    (x := ((s.trk n).take e rest).acquire e) (by omega) (fun h => by rw [State.atTick_trk, hst] at h; cases h)
  have hput := (s.atTick (e.tick + 8)).putTrk_lcsOnly n (((s.trk n).take e rest).acquire e)
  rw [State.processEdge_of_second hq hst hfirst hrev]
  refine ⟨?_, ?_, ?_, (LcsOnly.trans (.withLcs .refl) hput).addSatZero.addSatZero.addSatZero⟩
  · simpa only [State.addSat_eq, State.setF_trk] using htrk
  · rw [State.f_addSat_zero, State.f_addSat_zero, State.f_addSat_zero, hirq, State.atTick_f]
  · simpa only [State.addSat_eq, State.setF_trk, State.setF_lcs] using hlcs

/-- Settles O12: an edge by whether it is held off, and processing by the tracker it leaves. -/
theorem edgeIntakeAndProcessing : Obligations.EdgeIntakeAndProcessing := by
  refine ⟨fun s n stamp tick kind hn hs hin hq hen hedge hpast => ?_,
    fun s n stamp tick kind k hn hs hin hq hen hedge hk hheld => ?_, fun s n stamp tick hn hs hin hen hpast => ?_,
    fun s n e rest hn hs hq hst hfirst hrev => ?_⟩
  · refine ⟨_, prEdge_kept hn hs hin hq hen hedge hpast, ?_⟩
    rw [State.trk_setTrk, if_pos rfl]
    exact ⟨rfl, rfl, rfl, rfl⟩
  · refine ⟨_, prEdge_held hn hs hin hq hen hedge hk hheld, ?_⟩
    rw [State.setF_trk, State.trk_setTrk, if_pos rfl]
    exact ⟨rfl, rfl⟩
  · refine ⟨_, prIndexEdge_kept hn hs hin hen hpast, ?_⟩
    rw [State.trk_setTrk, if_pos rfl]
    exact ⟨rfl, rfl, rfl⟩
  · obtain ⟨⟨p, htrk⟩, hirq, hlcs, hw⟩ := State.processEdge_second_spec hn hq hst hfirst hrev
    refine ⟨_, execEdgeProcessing_of_unlocked hn hs hst, ?_, ?_, ?_, ?_, hirq, hlcs, hw.frame, hw.same⟩
    all_goals rw [htrk]; rfl

end Sys2Proof.Machine
end

/-!
# Coasting, enabling and disabling (O13)

A reference that stops tracking ends the turns of the resamplers locked to it (R213, R214): the chains and the registers of the
FC blocks alone show that (`ChainsOnly`).
-/

section
namespace Sys2Proof.Machine

/-! ## Chains alone -/

/-- The registers of the FC blocks. -/
def fcBlock (a : Nat) : Bool := within 0x200000 0x230000 a

/-- `t` is `s` but for the chains and the registers of the FC blocks. -/
structure ChainsOnly (s t : State) : Prop where
  frame : t = { s with regs := t.regs, chains := t.chains }
  same : SameOutside fcBlock s t

namespace ChainsOnly

section
variable {s t u : State}

theorem refl : ChainsOnly s s := ⟨rfl, fun _ _ => rfl⟩

theorem trans (h : ChainsOnly s t) (h' : ChainsOnly t u) : ChainsOnly s u where
  frame := h'.frame.trans (by rw [h.frame])
  same a ha := (h'.same a ha).trans (h.same a ha)

theorem lcs (h : ChainsOnly s t) : t.lcs = s.lcs := by
  rw [h.frame]

theorem ite {c : Prop} [Decidable c] (ht : ChainsOnly s t) (hu : ChainsOnly s u) : ChainsOnly s (if c then t else u) := by
  split <;> assumption

theorem setChain {n : Nat} {c : Chain} (h : ChainsOnly s t) : ChainsOnly s (t.setChain n c) :=
  h.trans ⟨rfl, fun _ _ => rfl⟩

/-- A field of FCn's block is written. -/
theorem setF {r : FieldRef} {n v : Nat} (h : ChainsOnly s t) (hn : n < 48)
    (hr : 0x200000 ≤ r.base ∧ r.base < 0x201000 ∧ r.st1 = 0x1000) : ChainsOnly s (t.setF r v n) := by
  refine h.trans ⟨rfl, fun a ha => ?_⟩
  have hne : r.addr n 0 ≠ a := by
    rintro rfl
    obtain ⟨hlo, hhi, hst⟩ := hr
    simp only [fcBlock, within, decide_eq_false_iff_not, FieldRef.addr, hst] at ha
    omega
  rw [State.word_setF, if_neg hne]

end

variable {s₀ s : State} {n : Nat}

theorem rsMarksLost {k : Nat} (h : ChainsOnly s₀ s) (hn : n < 48) : ChainsOnly s₀ (s.rsMarksLost n k) :=
  .ite h (h.setF hn (by decide))

theorem turnEnd (h : ChainsOnly s₀ s) (hn : n < 48) : ChainsOnly s₀ (s.turnEnd n) := by
  unfold State.turnEnd
  dsimp only
  split
  · exact h
  · exact .ite (h.setChain.setChain.setF hn (by decide)) (h.setChain.setF hn (by decide))

theorem rsPlace {x : RsInst} {p : Option Rat} (h : ChainsOnly s₀ s) (hn : n < 48) : ChainsOnly s₀ (s.rsPlace n x p) := by
  unfold State.rsPlace
  dsimp only
  split
  · exact .ite h (h.setChain.setF hn (by decide))
  · exact .ite h.setChain (.ite ((h.setChain.setF hn (by decide)).setF hn (by decide)) h.setChain)
  · exact h.setChain
  · exact h.setChain
  · exact h.setChain
  · exact h.setF hn (by decide)

theorem rsResolve {gapTo : Option Nat} {fuel : Nat} (h : ChainsOnly s₀ s) (hn : n < 48) :
    ChainsOnly s₀ (s.rsResolve n gapTo fuel) := by
  induction fuel generalizing s with
  | zero => exact h
  | succ k ih =>
    have hk {c : Chain} {x : RsInst} {p : Option Rat} :
        ChainsOnly s₀ (((s.setChain n c).rsPlace n x p).rsResolve n gapTo k) := ih (h.setChain.rsPlace hn)
    unfold State.rsResolve
    dsimp only
    split
    · exact h
    · split
      · exact hk
      · refine .ite ?_ (.ite hk h)
        split
        · exact hk
        · exact h

theorem rsRefLost {r : Nat} (h : ChainsOnly s₀ s) : ChainsOnly s₀ (s.rsRefLost r) := by
  refine List.foldlRecOn _ _ h fun t ht n hmem => ?_
  have hn : n < 48 := (List.mem_range.mp hmem).trans_le (by unfold Part.numFC; split <;> decide)
  exact .ite (((ht.rsResolve hn).turnEnd hn).rsMarksLost hn).setChain ht

theorem followRef {was : TrkState} {r : Nat} (h : ChainsOnly s₀ s) : ChainsOnly s₀ (s.followRef was r) :=
  .ite h.rsRefLost h

end ChainsOnly

section
variable {s t u : State} {n : Nat}

/-- The registers of Longcase stand outside the FC blocks. -/
theorem ChainsOnly.f_eq (h : ChainsOnly s t) {q : FieldRef} {i j : Nat} (hq : q.addr i j < 0x200000) :
    t.f q i j = s.f q i j := by
  rw [State.f, h.same, State.f]
  simp only [fcBlock, within, decide_eq_false_iff_not]
  omega

theorem ChainsOnly.trk (h : ChainsOnly s t) (m : Nat) : t.trk m = s.trk m := by
  rw [State.trk, h.lcs, State.trk]

/-- `t` is `s` but for Longcase, the chains and the registers of `own`. -/
structure LcsAndChains (own : Nat → Bool) (s t : State) : Prop where
  frame : t = { s with lcs := t.lcs, regs := t.regs, chains := t.chains }
  same : SameOutside own s t

theorem LcsOnly.andChains {l : List Nat} {own : Nat → Bool} (h : LcsOnly l s t) (h' : ChainsOnly t u)
    (hl : ∀ a ∈ l, own a = true) (hfc : ∀ a, fcBlock a = true → own a = true) : LcsAndChains own s u where
  frame := (h'.frame.trans (by rw [h.frame])).trans (by rw [h'.lcs])
  same a ha := by
    rw [h'.same a (Bool.eq_false_iff.mpr fun hf => by rw [hfc a hf] at ha; cases ha),
      h.same a fun hm => by rw [hl a hm] at ha; cases ha]

theorem LcsAndChains.counted {own : Nat → Bool} (h : LcsAndChains own s t) (hown : own Reg.TWN_HSEQ.base = true) :
    LcsAndChains own s t.counted where
  frame := by
    rw [h.frame]
    unfold State.counted
    split <;> rfl
  same a ha := by
    refine ((WritesOnly.refl.counted (l := [Reg.TWN_HSEQ.base]) List.mem_cons_self).same a fun hm => ?_).trans (h.same a ha)
    rw [List.mem_singleton.mp hm, hown] at ha
    cases ha

/-! ## Coasting -/

/-- Tracker `x` coasting from `at_` on with the settings `c` (R64). -/
def Tracker.coast (x : Tracker) (c : TrkCfg) (at_ : Int) : Tracker :=
  { x.hold at_ with state := .coasting, coastFrom := (x.hold at_).phi0, rate := freeRate c x.p }

theorem State.enterCoast_of_due {tick : Nat} (hst : (s.trk n).state = .locked)
    (hdue : s.edgeDue n < ((tick : Int) * 64 : Int)) (ht0 : (s.trk n).t0 ≤ (tick : Int) * 64)
    (hq : (s.trk n).queue.all (fun e => decide (s.edgeDue n < e.stamp)) = true) (hc : s.f Fld.PR_TRK_COAST n ≠ 0) :
    s.enterCoast n tick = (s.atTick tick).putTrk n ((s.trk n).coast (s.trkCfg n) ((tick : Int) * 64)) := by
  have hcoast : ¬ (s.trkCfg n).coast = 0 := hc
  unfold State.enterCoast
  dsimp only
  rw [if_pos ⟨hst, hdue, ht0, hq⟩, if_neg hcoast]
  rfl

theorem State.endCoast_of_limit {tick : Nat} (hst : (s.trk n).state = .coasting) (ht0 : (s.trk n).t0 ≤ (tick : Int) * 64)
    (hlim : (s.trk n).coastFrom + (s.f Fld.PR_TRK_COAST n) ≤ (s.trk n).phase ((tick : Int) * 64)) :
    s.endCoast n tick = (s.atTick tick).putTrk n { (s.trk n).hold ((tick : Int) * 64) with state := .lost } :=
  if_pos ⟨hst, ht0, hlim⟩

/-! ## Enabling -/

theorem guardWrite_free (old new : Word) : guardWrite old new 0 = (new, false) := by simp [guardWrite]

/-- The write of EN at a reference whose EN no quadrature pair holds at 0 (R61). -/
theorem State.enableRef_of_free (h : n % 2 = 0 ∨ s.qdec n = 0) (en : Bool) : s.enableRef n en =
    if s.on Fld.PR_CFG_EN n = true ∧ ¬ en = true then (s.setF Fld.PR_CFG_EN en.toNat n).unlockRef n
    else s.setF Fld.PR_CFG_EN en.toNat n := by
  have hprot : ¬ (n % 2 = 1 ∧ s.qdec n ≠ 0) := by omega
  have hnew : ((s.word (Fld.PR_CFG_EN.addr n 0)).setBits 31 1 en.toNat).bit 31 = en := by
    rw [bit_eq_bits, Word.bits_setBits _ _ (by decide)]
    cases en <;> rfl
  unfold State.enableRef
  dsimp only
  rw [if_neg hprot, guardWrite_free, hnew, State.on_eq_bit s rfl]
  rfl

theorem execPrEnable_eq (hn : n < 8) (hs : s.lclk = true) (en : Bool) :
    exec (.prEnable n en) s = .next (s.onPair n fun s => s.enableRef n en).counted :=
  hostRow_lcsWrite hn hs

/-- What follows the references of a pair sees chains alone. -/
theorem State.onPair_chainsOnly (s : State) (n : Nat) (k : State → State) : ChainsOnly (k s) (s.onPair n k) :=
  .ite (ChainsOnly.refl.followRef.followRef) ChainsOnly.refl.followRef

/-- Nothing follows where the trackers are as they were. -/
theorem State.onPair_of_kept {k : State → State} (h : ∀ m, (k s).trk m = s.trk m) : s.onPair n k = k s := by
  have hfollow (m : Nat) : (k s).followRef (s.trk m).state m = k s :=
    State.followRef_of_kept fun ht => by rw [h]; exact ht
  unfold State.onPair State.onRef
  dsimp only
  rw [hfollow, hfollow, ite_self]

/-- Tracker `x` in Unlocked, with its phase held from `at_` on (R63, R68). -/
def Tracker.unlock (x : Tracker) (at_ : Int) : Tracker :=
  { x.hold at_ with
    state := .unlocked, haveFirst := false, queue := [], indexEdges := [], keptMain := none, keptIndex := none }

theorem State.unlockRef_eq (s : State) (n : Nat) :
    s.unlockRef n = s.putTrk n ((s.trk n).unlock ((s.lcs.time : Int) * 64)) := (rfl)

/-- What disabling leaves of a reference (R63, R68). -/
theorem State.disableRef_spec (hn : n < 8) (hen : s.on Fld.PR_CFG_EN n = true) (hfree : n % 2 = 0 ∨ s.qdec n = 0) :
    (∃ p, (s.enableRef n false).trk n = { (s.trk n).unlock ((s.lcs.time : Int) * 64) with past := p }) ∧
      (s.enableRef n false).on Fld.PR_CFG_EN n = false ∧
      LcsOnly [Reg.PR_CFG.addr n 0, Fld.LCS_RIRQ_BITS.addr 0 0] s (s.enableRef n false) := by
  rw [State.enableRef_of_free hfree, if_pos ⟨hen, Bool.false_ne_true⟩, State.unlockRef_eq, State.setF_trk, State.setF_lcs]
  have hput := (s.setF Fld.PR_CFG_EN false.toNat n).putTrk_lcsOnly n ((s.trk n).unlock ((s.lcs.time : Int) * 64))
  have hset : LcsOnly [Reg.PR_CFG.addr n 0, Fld.LCS_RIRQ_BITS.addr 0 0] s (s.setF Fld.PR_CFG_EN false.toNat n) :=
    .setF .refl List.mem_cons_self
  refine ⟨State.trk_putTrk _ n _, ?_, hset.trans (hput.mono (List.subset_cons_self ..))⟩
  have hne : Fld.PR_CFG_EN.addr n 0 ∉ [Fld.LCS_RIRQ_BITS.addr 0 0] := by
    simp only [FieldRef.addr, Fld.PR_CFG_EN, Fld.LCS_RIRQ_BITS, List.mem_singleton]
    omega
  refine (hput.same.on_eq hne).trans ?_
  rw [State.on, State.f_setF _ _ _ _ _ (by decide)]
  rfl

end

theorem State.counted_trk (s : State) (m : Nat) : s.counted.trk m = s.trk m := by
  rw [State.trk, State.counted_lcs, State.trk]

/-! ## The obligation -/

/-- Settles O13: a reference that goes on tracking by the tracker it leaves, one that stops by what follows it as well. -/
theorem coastingAndEnabling : Obligations.CoastingAndEnabling := by
  refine ⟨fun s n tick hn hs hst hdue ht0 hq hc => ?_, fun s n tick hn hs hst ht0 hlim => ?_,
    fun s n hn hs hen hfree => ?_, fun s n hn hs hen hfree => ?_⟩
  · have hcoast := State.enterCoast_of_due hst hdue ht0 hq hc
    obtain ⟨⟨p, htrk⟩, hirq, hlcs⟩ := State.putTrk_of_change (s := s.atTick tick) (n := n)
      (x := (s.trk n).coast (s.trkCfg n) ((tick : Int) * 64)) (by omega) (fun h => by rw [State.atTick_trk, hst] at h; cases h)
    have hw := LcsOnly.trans (.withLcs .refl) ((s.atTick tick).putTrk_lcsOnly n ((s.trk n).coast (s.trkCfg n) ((tick : Int) * 64)))
    rw [← hcoast] at htrk hirq hlcs hw
    have hexec : exec (.coastEntry n tick) s = .next (s.enterCoast n tick) :=
      (onInst_of_lclk hn hs).trans (congrArg Host.Outcome.next (State.followRef_of_kept fun _ => by rw [htrk]; rfl))
    refine ⟨_, hexec, ?_, ?_, ?_, ?_, ?_, hirq, hlcs, hw.frame, hw.same⟩
    all_goals rw [htrk]; rfl
  · have hlost := State.endCoast_of_limit hst ht0 hlim
    obtain ⟨⟨p, htrk⟩, hirq, hlcs⟩ := State.putTrk_of_change (s := s.atTick tick) (n := n)
      (x := { (s.trk n).hold ((tick : Int) * 64) with state := .lost }) (by omega)
      (fun h => by rw [State.atTick_trk, hst] at h; cases h)
    have hput := LcsOnly.trans (.withLcs .refl)
      ((s.atTick tick).putTrk_lcsOnly n { (s.trk n).hold ((tick : Int) * 64) with state := .lost })
    rw [← hlost] at htrk hirq hlcs hput
    have hfollow : ChainsOnly (s.endCoast n tick) (s.onRef n fun s => s.endCoast n tick) := ChainsOnly.refl.followRef
    have hw := hput.andChains (own := fun a => a == Fld.LCS_RIRQ_BITS.addr 0 0 || within 0x200000 0x230000 a) hfollow
      (by simp) (fun a ha => Bool.or_eq_true_iff.mpr (.inr ha))
    refine ⟨_, onInst_of_lclk hn hs, ?_, ?_, ?_, (hfollow.f_eq (by decide)).trans hirq, ?_, hw.frame, hw.same⟩
    · rw [hfollow.trk, htrk]
    · rw [hfollow.trk, htrk]; rfl
    · rw [hfollow.trk, htrk]; rfl
    · rw [hfollow.lcs, hfollow.trk, hlcs]
  · have hset : s.enableRef n true = s.setF Fld.PR_CFG_EN 1 n := by
      rw [State.enableRef_of_free hfree, if_neg fun h => absurd rfl h.2]
      rfl
    have hexec := execPrEnable_eq hn hs true
    rw [State.onPair_of_kept fun m => by rw [hset, State.setF_trk], hset] at hexec
    have hw : LcsOnly [Reg.TWN_HSEQ.base, Reg.PR_CFG.addr n 0] s (s.setF Fld.PR_CFG_EN 1 n).counted :=
      .counted (.setF .refl (List.mem_cons_of_mem _ (List.mem_singleton.mpr rfl))) List.mem_cons_self
    refine ⟨_, hexec, ?_, ?_, ?_, hw.frame, hw.same⟩
    · rw [State.on, State.f_counted _ (FieldRef.addr_ne_hseq hn (by decide)), State.f_setF _ _ _ _ _ (by decide)]
      rfl
    · rw [State.counted_trk, State.setF_trk]
    · rw [State.f_counted _ (FieldRef.addr_ne_hseq hn (by decide)), State.f_setF_of_disjoint _ _ _ _ _ _ _ _ (by decide) (by decide)]
  · obtain ⟨⟨p, htrk⟩, hoff, hlcsOnly⟩ := State.disableRef_spec hn hen hfree
    have hfollow := s.onPair_chainsOnly n fun s => s.enableRef n false
    have hw := (hlcsOnly.andChains (own := fun a => a == Reg.PR_CFG.addr n 0 || a == Fld.LCS_RIRQ_BITS.addr 0 0 ||
      within 0x200000 0x230000 a || a == Reg.TWN_HSEQ.base) hfollow (by simp)
      (fun a ha => by simp [show within 0x200000 0x230000 a = true from ha])).counted (by simp)
    have htrk' : (s.onPair n fun s => s.enableRef n false).counted.trk n = (s.enableRef n false).trk n := by
      rw [State.counted_trk, hfollow.trk]
    have hoff' : (s.onPair n fun s => s.enableRef n false).counted.on Fld.PR_CFG_EN n = false := by
      rw [State.on, State.f_counted _ (FieldRef.addr_ne_hseq hn (by decide)),
        hfollow.f_eq (by simp only [FieldRef.addr, Fld.PR_CFG_EN]; omega)]
      exact hoff
    refine ⟨_, execPrEnable_eq hn hs false, hoff', ?_, ?_, ?_, ?_, ?_, hw.frame, hw.same⟩
    all_goals rw [htrk', htrk]
    all_goals rfl

end Sys2Proof.Machine
end

/-!
# The PLL (O18)

A lock moves LCS_TIME, the trackers and the timers; what follows it in the groups, chains, monitors and DACs leaves Longcase and
its registers as they are (`LongcaseKept`).
-/

section
namespace Sys2Proof.Machine

/-! ## What follows a lock -/

/-- Longcase, and the registers below the groups' blocks, are the same in `s` and `t`. -/
structure LongcaseKept (s t : State) : Prop where
  lcs : t.lcs = s.lcs
  same : ∀ a < 0x100000, t.word a = s.word a

namespace LongcaseKept

section
variable {s t u : State}

theorem refl : LongcaseKept s s := ⟨rfl, fun _ _ => rfl⟩

theorem trans (h : LongcaseKept s t) (h' : LongcaseKept t u) : LongcaseKept s u where
  lcs := h'.lcs.trans h.lcs
  same a ha := (h'.same a ha).trans (h.same a ha)

theorem of_regs (h : LongcaseKept s t) (hlcs : u.lcs = t.lcs) (hregs : u.regs = t.regs) : LongcaseKept s u :=
  h.trans ⟨hlcs, fun a _ => State.word_congr hregs a⟩

theorem of_chainsOnly (h : ChainsOnly s t) : LongcaseKept s t where
  lcs := h.lcs
  same a ha := h.same a (by simp only [fcBlock, within, decide_eq_false_iff_not]; omega)

theorem f_eq (h : LongcaseKept s t) {q : FieldRef} {i j : Nat} (hq : q.addr i j < 0x100000) : t.f q i j = s.f q i j := by
  rw [State.f, h.same _ hq, State.f]

theorem ite {c : Prop} [Decidable c] (ht : LongcaseKept s t) (hu : LongcaseKept s u) :
    LongcaseKept s (if c then t else u) := by
  split <;> assumption

theorem foldl {β : Type} {f : State → β → State} {l : List β} (h : LongcaseKept s t)
    (hf : ∀ {t b}, LongcaseKept s t → LongcaseKept s (f t b)) : LongcaseKept s (l.foldl f t) :=
  List.foldlRecOn l f h fun _ ht _ _ => hf ht

theorem setF {r : FieldRef} {v i j : Nat} (h : LongcaseKept s t) (hr : 0x100000 ≤ r.base) :
    LongcaseKept s (t.setF r v i j) := by
  refine h.trans ⟨rfl, fun a ha => ?_⟩
  rw [State.word_setF, if_neg (by unfold FieldRef.addr; omega)]

theorem setGroup {g : Nat} {x : Group} (h : LongcaseKept s t) : LongcaseKept s (t.setGroup g x) := h.of_regs rfl rfl

theorem setDac {d : Nat} {x : Dac} (h : LongcaseKept s t) : LongcaseKept s (t.setDac d x) := h.of_regs rfl rfl

end

variable {s₀ s : State}

/-! References of the groups -/

theorem logHandover {g : Nat} {o : Overlap} {r : Nat} (h : LongcaseKept s₀ s) : LongcaseKept s₀ (s.logHandover g o r) := by
  have hfresh : LongcaseKept s₀ { s with freeCount := s.freeCount + 1 } := h.of_regs rfl rfl
  exact (((((((hfresh.setF (by decide)).setF (by decide)).setF (by decide)).setF (by decide)).setF (by decide)).setF
    (by decide)).setF (by decide)).setF (by decide)

theorem abandon {g : Nat} (h : LongcaseKept s₀ s) : LongcaseKept s₀ (s.abandon g) := by
  unfold State.abandon
  dsimp only
  split
  · exact h
  · exact ((logHandover h.setGroup).setF (by decide)).setF (by decide)

theorem refFalls {g : Nat} (h : LongcaseKept s₀ s) : LongcaseKept s₀ (s.refFalls g) :=
  abandon (.ite h ((h.setF (by decide)).setF (by decide)))

/-! DACs -/

theorem segEnd {d : Nat} (h : LongcaseKept s₀ s) : LongcaseKept s₀ (s.segEnd d) := by
  have hirq : LongcaseKept s₀ (s.flagIf (s.dac d).seg.eirq Fld.DA_IRQ_SEG_END d) := .ite (h.setF (by decide)) h
  exact .ite (.ite hirq.setDac (hirq.setDac.setF (by decide))) h

theorem daHalt {d : Nat} (h : LongcaseKept s₀ s) : LongcaseKept s₀ (s.daHalt d) := by
  unfold State.daHalt
  extract_lets s1 x s2
  have h1 : LongcaseKept s₀ s1 := h.segEnd
  have h2 : LongcaseKept s₀ s2 := by
    unfold s2
    split
    · exact .ite ((((h1.setF (by decide)).setF (by decide)).setF (by decide)).setF (by decide)) h1
    · exact h1
  exact h2.setDac

theorem abandonDacs (h : LongcaseKept s₀ s) : LongcaseKept s₀ s.abandonDacs :=
  h.foldl fun h => (h.daHalt.setDac.setF (by decide)).setDac

theorem resumeDacs (h : LongcaseKept s₀ s) : LongcaseKept s₀ s.resumeDacs :=
  h.foldl fun h => .ite h.setDac h

/-! Monitors, cells and resamplers -/

theorem wmRelock (h : LongcaseKept s₀ s) : LongcaseKept s₀ s.wmRelock :=
  h.foldl fun h => h.of_regs rfl rfl

theorem restartAz (h : LongcaseKept s₀ s) : LongcaseKept s₀ s.restartAz :=
  h.foldl fun h => h.of_regs rfl rfl

theorem followRefs {before : State} (h : LongcaseKept s₀ s) : LongcaseKept s₀ (s.followRefs before) :=
  h.foldl fun h => h.trans (of_chainsOnly ChainsOnly.refl.followRef)

end LongcaseKept

section
variable {s : State}

/-- What a relock does beside R58 (R126, R241, R249). -/
theorem State.relock_kept (h : s.lcs.pll = .lost) : LongcaseKept s.pllRelock s.relock := by
  unfold State.relock
  rw [if_pos h]
  dsimp only
  have hfall {g : List Nat} : LongcaseKept s.pllRelock (g.foldl (fun t g => t.refFalls g) (s.pllRelock.followRefs s)) :=
    LongcaseKept.refl.followRefs.foldl fun h => h.refFalls
  exact .ite hfall.abandonDacs.wmRelock.restartAz.resumeDacs hfall.abandonDacs.wmRelock.restartAz

/-! ## Locks -/

theorem State.putTrk_lcs (s : State) (n : Nat) (x : Tracker) :
    (s.putTrk n x).lcs = { s.lcs with trackers := (s.putTrk n x).lcs.trackers } := by
  obtain ⟨p, hp⟩ := s.putTrk_eq n x
  rw [hp]
  split <;> rfl

/-- Of Longcase, the loss of the references is seen in the trackers alone. -/
theorem State.loseRefs_lcs (s : State) : s.loseRefs.lcs = { s.lcs with trackers := s.loseRefs.lcs.trackers } := by
  refine List.foldlRecOn _ _ (motive := fun t : State => t.lcs = { s.lcs with trackers := t.lcs.trackers }) rfl
    fun t ht n _ => ?_
  dsimp only
  split
  · rw [State.putTrk_lcs, ht]
  · exact ht

theorem State.loseRefs_lcsOnly (s : State) : LcsOnly [Fld.LCS_RIRQ_BITS.addr 0 0] s s.loseRefs :=
  LcsOnly.refl.foldl fun h => .ite (h.trans (State.putTrk_lcsOnly ..)) h

/-- Time goes on at `t`, and the running timers with it. -/
theorem State.resumeTime_eq (s : State) (t : Nat) :
    ∃ l, s.resumeTime t = { s with lcs := { s.lcs with time := t, timers := l } } := by
  refine List.foldlRecOn _ _ (motive := fun u : State => ∃ l, u = { s with lcs := { s.lcs with time := t, timers := l } })
    ⟨_, rfl⟩ fun u ⟨l, hu⟩ n _ => ?_
  dsimp only
  split
  · exact ⟨_, by rw [hu, State.setTimer]⟩
  · exact ⟨l, hu⟩

/-- The references enter Lost, and time goes on at `t` (R58). -/
theorem State.lostAt_spec (s : State) (t : Nat) :
    (∃ x l, (s.loseRefs.resumeTime t).lcs = { s.lcs with time := t, trackers := x, timers := l }) ∧
      (s.loseRefs.resumeTime t).f Fld.LCS_STAT_PLL_SLIPS = s.f Fld.LCS_STAT_PLL_SLIPS := by
  obtain ⟨l, hl⟩ := s.loseRefs.resumeTime_eq t
  rw [hl, State.loseRefs_lcs]
  exact ⟨⟨_, l, rfl⟩, s.loseRefs_lcsOnly.same.f_eq (by decide)⟩

/-- The first lock (R55). -/
theorem State.pllLock_lcs (h : s.lcs.pll = .waiting) (hm : s.mode ≠ .reset) :
    s.pllLock.lcs.pll = .locked ∧ s.pllLock.lcs.time = 0 := by
  obtain ⟨⟨x, l, hlcs⟩, -⟩ := State.lostAt_spec { s with lcs := { s.lcs with pll := .locked } } 0
  rw [State.pllLock, if_pos ⟨h, hm⟩, hlcs]
  exact ⟨rfl, rfl⟩

/-- `s` with the PLL locked again, and the relock counted (R57, R58). -/
def State.relocked (s : State) : State :=
  State.addSat { s with lcs := { s.lcs with pll := .locked, smpEdge := none, smpq := none } } Fld.LCS_STAT_PLL_SLIPS 1

theorem State.pllRelock_eq (h : s.lcs.pll = .lost) :
    s.pllRelock = s.relocked.loseRefs.resumeTime ((s.lcs.time + 4) / 5 * 5) := if_pos h

theorem State.slips_relocked (s : State) :
    s.relocked.f Fld.LCS_STAT_PLL_SLIPS = min (s.f Fld.LCS_STAT_PLL_SLIPS + 1) 255 := by
  rw [State.relocked, State.addSat_eq, State.f_setF _ _ _ _ _ (by decide)]
  exact Nat.mod_eq_of_lt (Nat.lt_of_le_of_lt (Nat.min_le_right ..) (by decide))

/-- A relock (R58). -/
theorem State.pllRelock_lcs (h : s.lcs.pll = .lost) :
    s.pllRelock.lcs.pll = .locked ∧ s.pllRelock.lcs.time = (s.lcs.time + 4) / 5 * 5 ∧ s.pllRelock.lcs.smpEdge = none ∧
      s.pllRelock.lcs.smpq = none ∧
      s.pllRelock.f Fld.LCS_STAT_PLL_SLIPS = min (s.f Fld.LCS_STAT_PLL_SLIPS + 1) 255 := by
  obtain ⟨⟨x, l, hlcs⟩, hslips⟩ := s.relocked.lostAt_spec ((s.lcs.time + 4) / 5 * 5)
  rw [State.pllRelock_eq h, hlcs, hslips, s.slips_relocked]
  exact ⟨rfl, rfl, rfl, rfl, rfl⟩

/-- LCS_TIME starts anew in what Longcase and the blocks hold of earlier instants (R55). -/
theorem State.rebase_lcs (s : State) (old : Nat) :
    (s.rebase old).lcs.pll = s.lcs.pll ∧ (s.rebase old).lcs.time = s.lcs.time := by
  exact List.foldlRecOn _ _ (motive := fun t : State => t.lcs.pll = s.lcs.pll ∧ t.lcs.time = s.lcs.time) ⟨rfl, rfl⟩
    fun _ ht _ _ => ht

theorem State.firstLock_lcs (h : s.lcs.pll = .waiting) (hm : s.mode ≠ .reset) :
    s.firstLock.lcs.pll = .locked ∧ s.firstLock.lcs.time = 0 := by
  obtain ⟨hpll, htime⟩ := State.pllLock_lcs h hm
  have hfollow : (s.pllLock.followRefs s).lcs = s.pllLock.lcs := LongcaseKept.refl.followRefs.lcs
  obtain ⟨hpll', htime'⟩ := (s.pllLock.followRefs s).rebase_lcs s.lcs.time
  have hlcs : s.firstLock.lcs = ((s.pllLock.followRefs s).rebase s.lcs.time).lcs := by
    rw [State.firstLock, if_pos ⟨h, hm⟩]
    exact LongcaseKept.refl.wmRelock.restartAz.lcs
  rw [hlcs, hpll', htime', hfollow]
  exact ⟨hpll, htime⟩

end

/-- Settles O18: a lock by what it does to Longcase, and by what follows it elsewhere. -/
theorem pllLockAndLoss : Obligations.PllLockAndLoss := by
  refine ⟨fun s h hm => ?_, fun s h => ?_, fun s h => ?_⟩
  · obtain ⟨hpll, htime⟩ := State.firstLock_lcs h hm
    have hmode : s.firstLock.mode = s.mode := (Kept.refl (s := s)).firstLock.mode
    exact ⟨_, rfl, hpll, htime, by simp [State.lclk, hpll, hmode, hm]⟩
  · have hlost : s.pllLost = { s with lcs := { s.lcs with pll := .lost } } := if_pos h
    refine ⟨_, rfl, ?_, hlost⟩
    rw [hlost]
    rfl
  · obtain ⟨hpll, htime, hedge, hq, hslips⟩ := State.pllRelock_lcs h
    have hkept := State.relock_kept h
    refine ⟨_, rfl, ?_, ?_, ?_, ?_, (hkept.f_eq (by decide)).trans hslips⟩
    all_goals rw [hkept.lcs]
    all_goals assumption

end Sys2Proof.Machine
end

/-!
# MARK, window comparators and the references of the groups (O27)
-/

section
namespace Sys2Proof.Machine

section
variable {s t u : State} {g : Nat}

/-! ## MARK -/

theorem State.cgInbox_of_head {k : Nat} {r : FiringRec} (f : FiringRec → State → State)
    (hr : headBit k (s.group g).inbox = some r) (hen : s.on Fld.CG_CTL_EN g = true) :
    s.cgInbox g k f = f r (s.setGroup g { s.group g with inbox := takeBit k (s.group g).inbox }) := by
  rw [State.cgInbox, hr]
  exact if_pos hen

theorem State.cgMark_of_unknown {r : FiringRec} (h : s.samplePos r.instant = none) :
    s.cgMark g r = s.addSat Fld.CG_EVCNT_MARK_LOST (lanePositions (s.f Fld.CG_CTL_MODE g)).length g := by
  rw [State.cgMark, h]

theorem State.cgMark_of_known {r : FiringRec} {p : Rat} (h : s.samplePos r.instant = some p) :
    s.cgMark g r = s.setGroup g (((List.range (lanePositions (s.f Fld.CG_CTL_MODE g)).length).map
      fun l => nearestEdge (s.f Fld.CG_CTL_MODE g) l p).foldl Group.markEdge (s.group g)) := by
  rw [State.cgMark, h, List.foldl_map]

/-- With no sample taken yet, every edge is one to come (R139). -/
theorem Group.markEdge_of_fresh {x : Group} (h : x.lastEdge = none) (e : Nat) :
    (x.markEdge e).lastEdge = none ∧ (x.markEdge e).core = x.core ∧ e ∈ (x.markEdge e).marksAhead ∧
      x.marksAhead ⊆ (x.markEdge e).marksAhead := by
  have hmark : x.markEdge e =
      if x.marksAhead.contains e then x else { x with marksAhead := x.marksAhead ++ [e] } :=
    if_pos (by rw [h]; rfl)
  rw [hmark]
  split
  · next he => exact ⟨h, rfl, List.contains_iff_mem.mp he, List.Subset.refl _⟩
  · exact ⟨h, rfl, List.mem_append_right _ List.mem_cons_self, List.subset_append_left ..⟩

theorem Group.markEdges_of_fresh (es : List Nat) : ∀ {x : Group}, x.lastEdge = none →
    (es.foldl Group.markEdge x).core = x.core ∧ (∀ e ∈ es, e ∈ (es.foldl Group.markEdge x).marksAhead) ∧
      x.marksAhead ⊆ (es.foldl Group.markEdge x).marksAhead := by
  induction es with
  | nil => exact fun _ => ⟨rfl, fun _ h => (List.not_mem_nil h).elim, List.Subset.refl _⟩
  | cons e es ih =>
    intro x h
    obtain ⟨hlast, hcore, hmem, hsub⟩ := Group.markEdge_of_fresh h e
    obtain ⟨hcores, hmems, hsubs⟩ := ih hlast
    refine ⟨hcores.trans hcore, fun d hd => ?_, fun _ hm => hsubs (hsub hm)⟩
    rcases List.mem_cons.mp hd with rfl | hd
    · exact hsubs hmem
    · exact hmems d hd

theorem lanePositions_pos (mode : Nat) : 0 < (lanePositions mode).length := by
  unfold lanePositions
  split
  · decide
  · split <;> decide

theorem execMark_eq {r : FiringRec} (hg : g < s.part.numCG) (hr : headBit 2 (s.group g).inbox = some r)
    (hen : s.on Fld.CG_CTL_EN g = true) : exec (.mark g) s =
      .next ((s.setGroup g { s.group g with inbox := takeBit 2 (s.group g).inbox }).cgMark g r) :=
  (ifPresent_of_lt hg (numCG_le _)).trans (congrArg Host.Outcome.next (State.cgInbox_of_head _ hr hen))

/-! ## Window comparators -/

theorem State.winReport_of_fired {l : Nat} {w : WinCmp} {side : Bool} {code : Int} (hw : (s.group g).cmps[l]? = some w)
    (hf : w.fired = some (side, code)) : s.winReport g l =
      (((s.setGroup g { s.group g with cmps := (s.group g).cmps.modify l fun w => { w with fired := none } }).setBit
        Fld.CG_IRQ_WIN l g).setB Fld.CG_WIN_HIT_SIDE side g l).setF Fld.CG_WIN_HIT_CODE (ofSigned 14 code) g l := by
  unfold State.winReport
  dsimp only
  rw [hw, Option.bind_some, hf]

/-- A one-bit field after a truth value is written to it. -/
theorem State.on_setB (s : State) {r : FieldRef} (b : Bool) (i j : Nat) (h : r.width = 1 ∧ r.lo + r.width ≤ 32) :
    (s.setB r b i j).on r i j = b := by
  obtain ⟨hw, hle⟩ := h
  rw [State.on, State.setB_eq, State.f_setF _ _ _ _ _ hle, hw]
  cases b <;> rfl

/-! ## The references -/

theorem State.setSettled_of_change {b : Bool} (h : s.on Fld.CG_STAT_REF_SETTLED g ≠ b) :
    s.setSettled g b = (s.setB Fld.CG_STAT_REF_SETTLED b g).flag Fld.CG_IRQ_REF_CHG g :=
  if_neg h

theorem SameBut.setF {l : List Nat} {r : FieldRef} {v i j : Nat} (h : SameBut l s t) (ha : r.addr i j ∈ l) :
    SameBut l s (t.setF r v i j) :=
  h.trans (WritesOnly.refl.setF ha).same

/-- The registers in which the end of a handover shows (R178). -/
def handoverRegs (g : Nat) : List Nat :=
  [Reg.CG_HO_LOG_SL.addr g 0, Reg.CG_HO_LOG_MS.addr g 0, Reg.CG_ROT_CNT.addr g 0, Reg.CG_ROT_STAT.addr g 0]

theorem State.logHandover_sameBut (s : State) (g : Nat) (o : Overlap) (r : Nat) :
    SameBut (handoverRegs g) s (s.logHandover g o r) := by
  have hfresh : SameBut (handoverRegs g) s { s with freeCount := s.freeCount + 1 } := fun _ _ => rfl
  refine SameBut.setF (.setF (.setF (.setF (.setF (.setF (.setF (.setF hfresh ?_) ?_) ?_) ?_) ?_) ?_) ?_) ?_
  all_goals repeat constructor

theorem State.abandon_sameBut (s : State) (g : Nat) : SameBut (handoverRegs g) s (s.abandon g) := by
  unfold State.abandon
  dsimp only
  split
  · exact fun _ _ => rfl
  · have hrot {r : Rotation} : SameBut (handoverRegs g) s (s.setRot g r) := fun _ _ => rfl
    exact .setF (.setF (hrot.trans (State.logHandover_sameBut _ _ _ _)) (.tail _ (.tail _ (.head _))))
      (.tail _ (.tail _ (.tail _ (.head _))))

/-- REFQq is outside its window: what group `g` makes of it (R126). -/
def State.refqFault (s : State) (g : Nat) : State :=
  if s.f Fld.CG_REF_SEL g = 1 then (s.flag Fld.CG_STAT_REF_FAULT g).refFalls g else s

theorem State.refqFault_sameBut (s : State) (g : Nat) :
    SameBut (Reg.CG_STAT.addr g 0 :: Reg.CG_IRQ.addr g 0 :: handoverRegs g) s (s.refqFault g) := by
  unfold State.refqFault
  split
  · have hflag : WritesOnly (Reg.CG_STAT.addr g 0 :: Reg.CG_IRQ.addr g 0 :: handoverRegs g) s
        (s.flag Fld.CG_STAT_REF_FAULT g) := .setF .refl List.mem_cons_self
    have hset := (hflag.setSettled (b := false) List.mem_cons_self (.tail _ (.head _))).same
    refine hset.trans fun a ha => State.abandon_sameBut _ _ a fun hm => ha ?_
    exact .tail _ (.tail _ hm)
  · exact fun _ _ => rfl

/-- A register of another group, or one that no fault writes. -/
theorem refq_not_mem {q : FieldRef} {h : Nat}
    (hq : q.base < 0x100400 ∧ 0x100000 ≤ q.base ∧ q.st1 = 0x1000 ∧ q.st2 = 0)
    (hg : h ≠ g ∨ (q.base ≠ Reg.CG_STAT.base ∧ q.base ≠ Reg.CG_IRQ.base)) :
    q.addr g 0 ∉ Reg.CG_STAT.addr h 0 :: Reg.CG_IRQ.addr h 0 :: handoverRegs h := by
  obtain ⟨hhi, hlo, h1, h2⟩ := hq
  simp only [Reg.CG_STAT, Reg.CG_IRQ] at hg
  simp only [handoverRegs, List.mem_cons, List.not_mem_nil, or_false, FieldRef.addr, h1, h2, Reg.CG_STAT, Reg.CG_IRQ,
    Reg.CG_HO_LOG_SL, Reg.CG_HO_LOG_MS, Reg.CG_ROT_CNT, Reg.CG_ROT_STAT]
  omega

/-- REF_FAULT and REF_SETTLED of a group, and its REF_CHG. -/
def State.refFlags (s : State) (g : Nat) : Bool × Bool × Bool :=
  (s.on Fld.CG_STAT_REF_FAULT g, s.on Fld.CG_STAT_REF_SETTLED g, s.on Fld.CG_IRQ_REF_CHG g)

theorem State.refFlags_of_sameBut {l : List Nat} (h : SameBut l s t) (hstat : Reg.CG_STAT.addr g 0 ∉ l)
    (hirq : Reg.CG_IRQ.addr g 0 ∉ l) : t.refFlags g = s.refFlags g := by
  rw [State.refFlags, h.on_eq (q := Fld.CG_STAT_REF_FAULT) hstat, h.on_eq (q := Fld.CG_STAT_REF_SETTLED) hstat,
    h.on_eq (q := Fld.CG_IRQ_REF_CHG) hirq, State.refFlags]

theorem State.on_setF_of_disjoint (s : State) {r q : FieldRef} (v i j k l : Nat) (h : r.lo + r.width ≤ 32)
    (hd : r.lo + r.width ≤ q.lo ∨ q.lo + q.width ≤ r.lo) : (s.setF r v i j).on q k l = s.on q k l := by
  rw [State.on, State.f_setF_of_disjoint _ _ _ _ _ _ _ _ h hd, State.on]

/-- REF_SETTLED takes the value, and a change of it shows (R126). -/
theorem State.refFlags_setSettled (s : State) (g : Nat) (b : Bool) : (s.setSettled g b).refFlags g =
    (s.on Fld.CG_STAT_REF_FAULT g, b, s.on Fld.CG_IRQ_REF_CHG g || s.on Fld.CG_STAT_REF_SETTLED g != b) := by
  by_cases h : s.on Fld.CG_STAT_REF_SETTLED g = b
  · rw [State.setSettled, if_pos h, State.refFlags, h, bne_self_eq_false, Bool.or_false]
  · rw [State.setSettled_of_change h, State.refFlags, State.on_flag _ (by decide) (by decide), bne_iff_ne.mpr h, Bool.or_true,
      State.flag, State.on_setF_of_disjoint _ _ _ _ _ _ (by decide) (by decide),
      State.on_setF_of_disjoint _ _ _ _ _ _ (by decide) (by decide), State.on_setB _ _ _ _ (by decide), State.setB_eq,
      State.on_setF_of_disjoint _ _ _ _ _ _ (by decide) (by decide)]

/-- A fault of the reference that the group uses (R126). -/
theorem State.refFlags_refqFault (s : State) (g : Nat) : (s.refqFault g).refFlags g =
    if s.f Fld.CG_REF_SEL g = 1 then (true, false, s.on Fld.CG_IRQ_REF_CHG g || s.on Fld.CG_STAT_REF_SETTLED g)
    else s.refFlags g := by
  unfold State.refqFault
  split
  · have hapart : Reg.CG_STAT.addr g 0 ∉ handoverRegs g ∧ Reg.CG_IRQ.addr g 0 ∉ handoverRegs g := by
      simp only [handoverRegs, List.mem_cons, List.not_mem_nil, or_false, FieldRef.addr, Reg.CG_STAT, Reg.CG_IRQ,
        Reg.CG_HO_LOG_SL, Reg.CG_HO_LOG_MS, Reg.CG_ROT_CNT, Reg.CG_ROT_STAT]
      omega
    rw [State.refFalls, State.refFlags_of_sameBut (State.abandon_sameBut _ g) hapart.1 hapart.2, State.refFlags_setSettled,
      State.on_flag _ (by decide) (by decide), State.flag, State.on_setF_of_disjoint _ _ _ _ _ _ (by decide) (by decide),
      State.on_setF_of_disjoint _ _ _ _ _ _ (by decide) (by decide), Bool.bne_false]
  · rfl

/-! ## The groups of a quadrant -/

theorem mem_quadOf (g : Nat) : g ∈ quadOf (g / 6) :=
  List.mem_map.mpr ⟨g % 6, List.mem_range.mpr (Nat.mod_lt _ (by decide)), Nat.div_add_mod g 6⟩

theorem quadOf_nodup (q : Nat) : (quadOf q).Nodup :=
  List.nodup_range.map fun _ _ h => Nat.add_left_cancel h

/-- A row of a quadrant that the part has. -/
theorem ifPresent_quad {q : Nat} {o : Out} (h : q < s.part.numCG / 6) : ifPresent q (s.part.numCG / 6) 4 s o = o :=
  ifPresent_of_lt h (Nat.div_le_div_right (numCG_le _))

/-- A fault of REFQq shows in each group of the quadrant that uses it. -/
theorem State.refFlags_refFault (s : State) {g : Nat} (hsel : s.f Fld.CG_REF_SEL g = 1) :
    ((quadOf (g / 6)).foldl State.refqFault s).refFlags g =
      (true, false, s.on Fld.CG_IRQ_REF_CHG g || s.on Fld.CG_STAT_REF_SETTLED g) := by
  refine (foldl_at (f := State.refqFault) (fun s => s.refFlags g) (fun s => s.f Fld.CG_REF_SEL g)
    (fun x sel => if sel = 1 then (true, false, x.2.2 || x.2.1) else x)
    (fun t j hj => State.refFlags_of_sameBut (t.refqFault_sameBut j)
      (refq_not_mem (q := Reg.CG_STAT) (by decide) (.inl hj)) (refq_not_mem (q := Reg.CG_IRQ) (by decide) (.inl hj)))
    (fun t j => (t.refqFault_sameBut j).f_eq (refq_not_mem (by decide) (.inr (by decide))))
    (fun t => t.refFlags_refqFault g) (quadOf_nodup _) (mem_quadOf g) s).trans ?_
  rw [if_pos hsel, State.refFlags]

/-- REF_FAULT goes in each group of the quadrant. -/
theorem State.on_fault_of_cleared (s : State) (g : Nat) :
    ((quadOf (g / 6)).foldl (fun s g => s.setF Fld.CG_STAT_REF_FAULT 0 g) s).on Fld.CG_STAT_REF_FAULT g = false := by
  refine foldl_at (fun s => s.on Fld.CG_STAT_REF_FAULT g) (fun _ => ()) (fun _ _ => false) (fun t j hj => ?_) (fun _ _ => rfl)
    (fun t => ?_) (quadOf_nodup _) (mem_quadOf g) s
  · rw [State.on, State.f_setF_of_addr, State.on]
    simp only [FieldRef.addr, Fld.CG_STAT_REF_FAULT]
    omega
  · rw [State.on, State.f_setF _ _ _ _ _ (by decide)]
    rfl

theorem State.cleared_writesOnly (s : State) (q : Nat) :
    WritesOnly ((quadOf q).map (Reg.CG_STAT.addr · 0)) s
      ((quadOf q).foldl (fun s g => s.setF Fld.CG_STAT_REF_FAULT 0 g) s) :=
  List.foldlRecOn _ _ (motive := WritesOnly _ s) .refl fun _ ht _ hg => ht.setF (List.mem_map_of_mem hg)

end

/-- Settles O27: each MARK by whether its instant has a place among the samples, the report by the fields of its two registers,
and the references by what one group of the quadrant makes of the fault, which no other group touches. -/
theorem markWindowAndReference : Obligations.MarkWindowAndReference := by
  refine ⟨fun s g r hg hr hen hp => ?_, fun s g r p hg hr hen hp hlast => ?_, fun s g l w side code hg hl hw hf => ?_,
    fun s g hg hclk hfault hset => ?_, fun s q g hq hgq hsel => ?_, fun s q g hq hgq => ?_⟩
  · exact ⟨_, (execMark_eq hg hr hen).trans (congrArg Host.Outcome.next (State.cgMark_of_unknown hp)), rfl⟩
  · obtain ⟨hcore, hmem, -⟩ := Group.markEdges_of_fresh
      ((List.range (lanePositions (s.f Fld.CG_CTL_MODE g)).length).map fun l => nearestEdge (s.f Fld.CG_CTL_MODE g) l p)
      (x := { s.group g with inbox := takeBit 2 (s.group g).inbox }) hlast
    refine ⟨_, (execMark_eq hg hr hen).trans (congrArg Host.Outcome.next (State.cgMark_of_known hp)), ?_, ?_, ?_, rfl⟩
    · rw [State.group_setGroup_same, State.group_setGroup_same]
      exact List.contains_iff_mem.mpr (hmem _ (List.mem_map.mpr ⟨0, List.mem_range.mpr (lanePositions_pos _), rfl⟩))
    · rw [State.group_setGroup_same, State.group_setGroup_same]
      exact hcore
    · intro d hd
      rw [State.group_setGroup_of_ne _ _ hd.symm, State.group_setGroup_of_ne _ _ hd.symm]
  · have hne : Reg.CG_WIN_HIT.addr g l ≠ Reg.CG_IRQ.addr g 0 := by
      simp only [FieldRef.addr, Reg.CG_WIN_HIT, Reg.CG_IRQ]
      omega
    have hwrites {u : State} : WritesOnly [Reg.CG_IRQ.addr g 0, Reg.CG_WIN_HIT.addr g l] u
        (((u.setBit Fld.CG_IRQ_WIN l g).setB Fld.CG_WIN_HIT_SIDE side g l).setF Fld.CG_WIN_HIT_CODE
          (ofSigned 14 code) g l) :=
      .setF (.setF (.setF .refl List.mem_cons_self) (.tail _ (.head _))) (.tail _ (.head _))
    refine ⟨_, (onInst_of_lt hl).trans ((ifPresent_of_lt hg (numCG_le _)).trans
      (congrArg Host.Outcome.next (State.winReport_of_fired hw hf))), ?_, ?_, ?_, rfl, ?_, hwrites.same⟩
    · exact (State.f_setF_of_addr _ Fld.CG_WIN_HIT_CODE Fld.CG_IRQ_WIN _ _ _ _ _ hne).trans
        ((State.f_setF_of_addr _ Fld.CG_WIN_HIT_SIDE Fld.CG_IRQ_WIN _ _ _ _ _ hne).trans (State.f_setBit _ (by decide) hl g 0))
    · rw [State.on_setF_of_disjoint _ _ _ _ _ _ (by decide) (by decide), State.on_setB _ _ _ _ (by decide)]
    · exact State.f_setF _ _ _ _ _ (by decide)
    · rfl
  · have hflags := State.refFlags_setSettled s g true
    rw [State.refFlags, hset] at hflags
    have hrow : ¬ (s.on Fld.CG_STAT_REF_FAULT g || !(s.sclk g || s.settling)) = true := by
      rw [hfault, hclk]
      decide
    have hwrites : WritesOnly [Reg.CG_STAT.addr g 0, Reg.CG_IRQ.addr g 0] s (s.setSettled g true) :=
      .setSettled .refl List.mem_cons_self (.tail _ (.head _))
    obtain ⟨-, hsettled, hchg⟩ := (Prod.mk.injEq ..).mp hflags |>.imp_right (Prod.mk.injEq ..).mp
    exact ⟨_, (ifPresent_of_lt hg (numCG_le _)).trans (congrArg Host.Outcome.next (if_neg hrow)), hsettled,
      hchg.trans (Bool.or_true _), hwrites.frame, hwrites.same⟩
  · subst hgq
    have hflags := s.refFlags_refFault hsel
    obtain ⟨hfault, hsettled, hchg⟩ := (Prod.mk.injEq ..).mp hflags |>.imp_right (Prod.mk.injEq ..).mp
    exact ⟨_, ifPresent_quad hq, hfault, hsettled, fun h => hchg.trans (by rw [h, Bool.or_true])⟩
  · subst hgq
    have hwrites := s.cleared_writesOnly (g / 6)
    exact ⟨_, ifPresent_quad hq, s.on_fault_of_cleared g, hwrites.frame, hwrites.same⟩

end Sys2Proof.Machine
end

/-!
# Overload and saturation (O22)
-/

section
namespace Sys2Proof.Machine

section
variable {s t : State} {l : List Nat} {c : Nat}

/-! ## Cells and registers -/

theorem numAP_le (p : Part) : p.numAP ≤ 96 := by
  unfold Part.numAP
  split <;> decide

theorem numAC_le (p : Part) : p.numAC ≤ 192 := by
  unfold Part.numAC
  split <;> decide

/-- `t` is `s` but for cell `c` and the registers listed. -/
structure CellOnly (l : List Nat) (c : Nat) (s t : State) : Prop where
  frame : t = { s with cells := t.cells, regs := t.regs }
  others : Others c s.cell t.cell
  same : SameBut l s t

namespace CellOnly

theorem refl : CellOnly l c s s := ⟨rfl, fun _ _ => rfl, fun _ _ => rfl⟩

theorem setCell {x : Cell} (h : CellOnly l c s t) : CellOnly l c s (t.setCell c x) where
  frame := by rw [h.frame]; rfl
  others d hd := by rw [State.cell_setCell, if_neg hd.symm, h.others d hd]
  same := h.same

theorem setWord {a : Nat} {w : Word} (h : CellOnly l c s t) (ha : a ∈ l) : CellOnly l c s (t.setWord a w) where
  frame := by rw [h.frame]; rfl
  others := h.others
  same := h.same.trans (WritesOnly.refl.setWord ha).same

theorem setF {r : FieldRef} {v i j : Nat} (h : CellOnly l c s t) (ha : r.addr i j ∈ l) : CellOnly l c s (t.setF r v i j) :=
  h.setWord ha

theorem ite {p : Prop} [Decidable p] {u : State} (ht : CellOnly l c s t) (hu : CellOnly l c s u) :
    CellOnly l c s (if p then t else u) := by
  split <;> assumption

theorem flagIf {b : Bool} {r : FieldRef} {i j : Nat} (h : CellOnly l c s t) (ha : r.addr i j ∈ l) :
    CellOnly l c s (t.flagIf b r i j) :=
  .ite (h.setF ha) h

theorem flag {r : FieldRef} {i j : Nat} (h : CellOnly l c s t) (ha : r.addr i j ∈ l) : CellOnly l c s (t.flag r i j) :=
  h.setF ha

theorem addSat {r : FieldRef} {n i j : Nat} (h : CellOnly l c s t) (ha : r.addr i j ∈ l) : CellOnly l c s (t.addSat r n i j) :=
  h.setF ha

theorem addWrap {r : FieldRef} {n i j : Nat} (h : CellOnly l c s t) (ha : r.addr i j ∈ l) :
    CellOnly l c s (t.addWrap r n i j) :=
  h.setF ha

/-- A host row counts in TWN_HSEQ. -/
theorem counted (h : CellOnly l c s t) (hl : Reg.TWN_HSEQ.base ∈ l) : CellOnly l c s t.counted :=
  .ite (h.setF hl) h

end CellOnly

theorem State.cell_setCell_same (s : State) (c : Nat) (x : Cell) : (s.setCell c x).cell c = x :=
  (s.cell_setCell c c x).trans (if_pos rfl)

theorem State.cell_setF (s : State) (r : FieldRef) (v i j c : Nat) : (s.setF r v i j).cell c = s.cell c := rfl

theorem State.cell_flagIf (s : State) (b : Bool) (r : FieldRef) (i j c : Nat) : (s.flagIf b r i j).cell c = s.cell c := by
  cases b <;> rfl

theorem State.cell_counted (s : State) (c : Nat) : s.counted.cell c = s.cell c := by
  unfold State.counted
  split <;> rfl

/-- A flag is set where it was set already or the event sets it. -/
theorem State.on_flagIf (s : State) (b : Bool) {r : FieldRef} (h : r.lo + r.width ≤ 32) (hw : r.width ≠ 0) (i j : Nat) :
    (s.flagIf b r i j).on r i j = (s.on r i j || b) := by
  cases b with
  | false => rw [State.flagIf_false, Bool.or_false]
  | true => exact (State.on_flag s h hw i j).trans (Bool.or_true _).symm

/-! ## Limits -/

theorem abs_le_of_bounds {v top : Rat} (hlo : -top ≤ v) (hhi : v ≤ top) : v.abs ≤ top := by
  unfold Rat.abs
  split <;> linarith

/-- A limited voltage stays within its limit (R95, R96). -/
theorem abs_limited_le {top : Rat} (h : 0 ≤ top) (v : Rat) : (limited top v).abs ≤ top :=
  abs_le_of_bounds (le_max_left ..) (max_le (by linarith) (min_le_left ..))

/-- The threshold of a range: 1.1 times the full scale 2^RANGE / 4 V (R90, R95). -/
theorem clampThreshold_eq (range : Nat) : clampThreshold range = 11 * 2 ^ range / 40 := by
  unfold clampThreshold portGain
  field_simp
  norm_num

/-! ## The rows -/

theorem execPortOverload_eq {n : Nat} (v : Rat) (hn : n < s.part.numAP) : exec (.portOverload n v) s =
    .next (({ s with apPins := Tab.put (fun _ => 0) s.apPins n v } : State).flagIf
      (s.portActive n && !s.on Fld.AP_CTL_DIR n && decide (11 * 2 ^ s.f Fld.AP_CTL_RANGE n / 40 < v.abs))
      Fld.AP_STAT_OVLD n) := by
  rw [← clampThreshold_eq]
  exact ifPresent_of_lt hn (numAP_le _)

/-- The cell after its inputs have been as they are for `dt` seconds (R96). -/
def State.cellSettled (s : State) (c : Nat) (dt : Rat) : Cell :=
  let x := s.cellRun c (s.sclk (homeGroup c)) (max 0 dt)
  let o := if s.f Fld.AC_CTL_FUNC c = 4 ∧ s.sclk (homeGroup c) = false then x.out else s.cellOutput c x
  { x with out := limited (11 / 10) o }

/-- Out of Slumber a cell settles, and may set SAT. -/
theorem State.cellTo_cellOnly (s : State) (c : Nat) (dt : Rat) : CellOnly [Fld.AC_STAT_SAT.addr c 0] c s (s.cellTo c dt) :=
  .ite .refl (.flagIf (.setCell .refl) List.mem_cons_self)

theorem State.cell_cellTo (dt : Rat) (hm : s.mode ≠ .slumber) : (s.cellTo c dt).cell c = s.cellSettled c dt := by
  rw [State.cellTo, if_neg hm, State.cellSettle, State.cell_flagIf, State.cell_setCell_same]
  rfl

theorem State.sat_cellTo (c : Nat) (dt : Rat) (h : s.on Fld.AC_STAT_SAT c = true) :
    (s.cellTo c dt).on Fld.AC_STAT_SAT c = true := by
  unfold State.cellTo
  split
  · exact h
  · rw [State.cellSettle, State.on_flagIf _ _ (by decide) (by decide), State.setCell_on, h, Bool.true_or]

/-- A buffer whose input, through its amplifier, lies beyond 1.1 V saturates. -/
theorem State.sat_cellTo_of_buffer (dt : Rat) (hm : s.mode ≠ .slumber) (hf : s.f Fld.AC_CTL_FUNC c = 1)
    (hv : 11 / 10 < (s.cellIn c 0).abs) : (s.cellTo c dt).on Fld.AC_STAT_SAT c = true := by
  have hout (x : Cell) : s.cellOutput c x = s.cellIn c 0 := by
    rw [State.cellOutput, hf]
    rfl
  have hfunc : ¬ (s.f Fld.AC_CTL_FUNC c = 4 ∧ s.sclk (homeGroup c) = false) := fun h => by omega
  rw [State.cellTo, if_neg hm, State.cellSettle, State.on_flagIf _ _ (by decide) (by decide), if_neg hfunc, hout,
    decide_eq_true hv, Bool.or_true]

end

/-- Settles O22: the port by what `flagIf` makes of its one condition, the cell by what it is settled to. -/
theorem overloadAndSaturation : Obligations.OverloadAndSaturation := by
  refine ⟨fun s n v hn hact hdir hv => ?_, fun s n v hn hv => ?_, fun s c dt hc hm _ => ?_, fun s c dt hc hm hf hv => ?_⟩
  · refine ⟨_, execPortOverload_eq v hn, ?_⟩
    rw [hact, hdir, decide_eq_true hv]
    have hw {u : State} : WritesOnly [Fld.AP_STAT_OVLD.addr n 0] u (u.flag Fld.AP_STAT_OVLD n) := .setF .refl List.mem_cons_self
    exact ⟨(Tab.get_put ..).trans (if_pos rfl), State.on_flag _ (by decide) (by decide) _ _, rfl, hw.same⟩
  · refine ⟨_, execPortOverload_eq v hn, ?_⟩
    rw [decide_eq_false (not_lt.mpr hv), Bool.and_false]
    exact ⟨(Tab.get_put ..).trans (if_pos rfl), rfl⟩
  · have hcell : (s.cellTo c dt).cell c = s.cellSettled c dt := State.cell_cellTo dt hm
    obtain ⟨hframe, hothers, hsame⟩ := s.cellTo_cellOnly c dt
    refine ⟨_, ifPresent_of_lt hc (numAC_le _), ?_, hothers, hframe, hsame, State.sat_cellTo c dt⟩
    rw [hcell]
    exact abs_limited_le (by norm_num) _
  · exact ⟨_, ifPresent_of_lt hc (numAC_le _), State.sat_cellTo_of_buffer dt hm hf hv⟩

end Sys2Proof.Machine
end

/-!
# The auto-zero cycle (O21)

Each row does one thing to its cell and writes registers of that cell, and of the calibration where a mark goes.
-/

section
namespace Sys2Proof.Machine

section
variable {s t : State} {c : Nat}

/-! ## Boundaries and swaps -/

theorem State.azBoundary_of_trimmed (haz : (s.cell c).az = .trimmed) (hclk : s.azClock c = true) :
    s.azBoundary c = s.setCell c { s.cell c with az := .parallel } := by
  simp [State.azBoundary, hclk, haz]

theorem State.azBoundary_of_trimming (haz : (s.cell c).az = .trimming) (hclk : s.azClock c = true) :
    s.azBoundary c = s.setCell c { s.cell c with azLate := true } := by
  simp [State.azBoundary, hclk, haz]

theorem State.azRuns_iff : s.azRuns c = true ↔
    (s.f Fld.AC_CTL_FUNC c = 7 ∧ s.on Fld.AC_AZ_HOLD c = false) ∧ s.azClock c = true := by
  simp [State.azRuns]

/-- Whether cycles run depends neither on the swaps counted nor on what the cell holds. -/
theorem State.azRuns_swapCounted (n : Nat) (x : Cell) :
    ((s.setCell c x).addWrap Fld.AC_AZCNT_SWAPS n c).azRuns c = s.azRuns c := by
  have hclksrc : ((s.setCell c x).addWrap Fld.AC_AZCNT_SWAPS n c).f Fld.LCS_CTL_CLKSRC = s.f Fld.LCS_CTL_CLKSRC :=
    State.f_setF_of_beside _ (by decide) _ _ _
  have hclock : ((s.setCell c x).addWrap Fld.AC_AZCNT_SWAPS n c).azClock c = s.azClock c := by
    unfold State.azClock State.sclk State.sampleClock
    rw [hclksrc]
    rfl
  rw [State.azRuns, State.azRuns, hclock, State.addWrap_eq, State.f_setF_beside _ _ _ _ _ _ (by decide), State.on, State.on,
    State.f_setF_beside _ _ _ _ _ _ (by decide), State.setCell_f, State.setCell_f]

/-- Where cycles run and none was running, one begins (R104). -/
theorem State.azSettle_of_stopped (hr : s.azRuns c = true) (haz : (s.cell c).az = .stopped) :
    s.azSettle c = s.setCell c { s.cell c with az := .trimming, azLate := false } := by
  obtain ⟨⟨hfunc, -⟩, -⟩ := State.azRuns_iff.mp hr
  simp [State.azSettle, hfunc, hr, haz]

/-- The cell whose amplifiers have changed places. -/
def Cell.swapped (x : Cell) : Cell := { x with az := .stopped, azLate := false, servingB := !x.servingB }

theorem State.azSwap_of_parallel (haz : (s.cell c).az = .parallel) (hr : s.azRuns c = true) :
    s.azSwap c = ((s.setCell c (s.cell c).swapped).addWrap Fld.AC_AZCNT_SWAPS 1 c).setCell c
      { (s.cell c).swapped with az := .trimming } := by
  have hcell : ((s.setCell c (s.cell c).swapped).addWrap Fld.AC_AZCNT_SWAPS 1 c).cell c = (s.cell c).swapped :=
    s.cell_setCell_same c _
  rw [State.azSwap, if_pos ⟨haz, (State.azRuns_iff.mp hr).2⟩]
  refine (State.azSettle_of_stopped ((State.azRuns_swapCounted 1 _).trans hr) (congrArg Cell.az hcell)).trans ?_
  rw [hcell]
  rfl

/-! ## Trims -/

/-- `s` with the agreed trim of amplifier `k` written. -/
def State.trimAgreed (s : State) (c k : Nat) (v : Int) : State :=
  ((s.setF Fld.AC_TRIM_OFS (ofSigned 10 v) c k).unmarkField Fld.AC_TRIM_OFS c k).setCell c
    ({ s.cell c with az := if (s.cell c).azLate then .parallel else .trimmed, azLate := false }.setNull k none)

theorem State.azTrim_of_agreed {tries : List (Int × Int)} {v : Int} (haz : (s.cell c).az = .trimming)
    (hclk : s.azClock c = true) (hv : calStep 1 tries = some v) :
    s.azTrim c tries = s.trimAgreed c (if (s.cell c).servingB then 0 else 1) v := by
  rw [State.azTrim, if_pos ⟨haz, hclk⟩, hv]
  rfl

theorem State.azTrim_of_disagreed {tries : List (Int × Int)} (haz : (s.cell c).az = .trimming)
    (hclk : s.azClock c = true) (hv : calStep 1 tries = none) (hlen : 4 ≤ tries.length) :
    s.azTrim c tries = ((s.setCell c { s.cell c with az := .skipping, azLate := false }).addSat Fld.AC_AZCNT_DISAGREE 1 c).flag
      Fld.AC_STAT_AZ_DIS c := by
  rw [State.azTrim, if_pos ⟨haz, hclk⟩, hv]
  exact if_neg (Nat.not_lt.mpr hlen)

/-- The mark of a field goes, and only the calibration's state and its count of marks show it (R268). -/
theorem State.unmarkField_spec (s : State) (r : FieldRef) (i j : Nat) :
    (s.unmarkField r i j).cal.marks.contains (r.addr i j, r.lo) = false ∧
      s.unmarkField r i j = { s with cal := (s.unmarkField r i j).cal, regs := (s.unmarkField r i j).regs } ∧
      SameBut [Reg.CAL_STAT.base] s (s.unmarkField r i j) := by
  unfold State.unmarkField
  dsimp only
  split
  · have hmarks (m : List (Nat × Nat)) : (s.setMarks m).cal.marks = m := rfl
    have hw (m : List (Nat × Nat)) : WritesOnly [Reg.CAL_STAT.base] ({ s with cal := { s.cal with marks := m } }) (s.setMarks m) :=
      .setF .refl List.mem_cons_self
    refine ⟨?_, rfl, (hw _).same⟩
    rw [hmarks, List.contains_eq_mem, decide_eq_false_iff_not, List.mem_filter, bne_self_eq_false]
    simp
  · next h => exact ⟨Bool.eq_false_iff.mpr h, rfl, fun _ _ => rfl⟩

theorem Cell.setNull_az (x : Cell) (k : Nat) (v : Option Rat) : (x.setNull k v).az = x.az := by
  unfold Cell.setNull
  split <;> rfl

/-- What an agreed trim of amplifier `k` leaves. -/
theorem State.trimAgreed_spec (s : State) (c : Nat) {k : Nat} (hk : k < 2) (v : Int) :
    (s.trimAgreed c k v).f Fld.AC_TRIM_OFS c k = ofSigned 10 v % 1024 ∧
      ((s.trimAgreed c k v).cell c).az = (if (s.cell c).azLate then .parallel else .trimmed) ∧
      (s.trimAgreed c k v).cal.marks.contains (Fld.AC_TRIM_OFS.addr c k, Fld.AC_TRIM_OFS.lo) = false ∧
      Others c s.cell (s.trimAgreed c k v).cell ∧
      s.trimAgreed c k v = { s with
        cells := (s.trimAgreed c k v).cells, regs := (s.trimAgreed c k v).regs, cal := (s.trimAgreed c k v).cal } ∧
      SameBut [Reg.AC_TRIM.addr c k, Reg.CAL_STAT.base] s (s.trimAgreed c k v) := by
  obtain ⟨hmark, hframe, hsame⟩ := (s.setF Fld.AC_TRIM_OFS (ofSigned 10 v) c k).unmarkField_spec Fld.AC_TRIM_OFS c k
  have hofs : Fld.AC_TRIM_OFS.addr c k ∉ [Reg.CAL_STAT.base] := by
    simp only [FieldRef.addr, Fld.AC_TRIM_OFS, Reg.CAL_STAT, List.mem_singleton]
    omega
  have hcells : ((s.setF Fld.AC_TRIM_OFS (ofSigned 10 v) c k).unmarkField Fld.AC_TRIM_OFS c k).cells = s.cells := by
    rw [hframe]
    rfl
  unfold State.trimAgreed
  generalize (s.setF Fld.AC_TRIM_OFS (ofSigned 10 v) c k).unmarkField Fld.AC_TRIM_OFS c k = u at *
  refine ⟨?_, ?_, hmark, fun d hd => ?_, ?_, fun a ha => ?_⟩
  · rw [State.setCell_f, hsame.f_eq hofs, State.f_setF _ _ _ _ _ (by decide)]
    rfl
  · rw [State.cell_setCell_same, Cell.setNull_az]
  · rw [State.cell_setCell, if_neg hd.symm, State.cell, hcells, State.cell]
  · rw [hframe]
    rfl
  · have hne : Fld.AC_TRIM_OFS.addr c k ≠ a := fun h => List.ne_of_not_mem_cons ha h.symm
    rw [State.setCell_word, hsame a (List.not_mem_of_not_mem_cons ha), State.word_setF, if_neg hne]

/-! ## RST -/

theorem State.func_cellTo (s : State) (c : Nat) (dt : Rat) : (s.cellTo c dt).f Fld.AC_CTL_FUNC c = s.f Fld.AC_CTL_FUNC c :=
  (s.cellTo_cellOnly c dt).same.f_eq (by simp only [FieldRef.addr, Fld.AC_CTL_FUNC, Fld.AC_STAT_SAT, List.mem_singleton]; omega)

theorem State.cellReset_of_integrator (h : s.f Fld.AC_CTL_FUNC c = 5) :
    s.cellReset c = s.setCell c { s.cell c with integ := 0, out := 0 } := by
  rw [State.cellReset, h]
  rfl

theorem State.cellReset_of_holds (h : s.f Fld.AC_CTL_FUNC c = 6) : ∃ o : Rat, o.abs ≤ 11 / 10 ∧
    s.cellReset c = s.setCell c { s.cell c with peakMax := s.cellIn c 0, peakMin := s.cellIn c 1, out := o } := by
  rw [State.cellReset, h]
  exact ⟨_, abs_limited_le (by norm_num) _, rfl⟩

/-- RST leaves the cell `x`. -/
theorem execRst_eq {dt : Rat} {x : Cell} (hc : c < s.part.numAC)
    (hx : (s.cellTo c dt).cellReset c = (s.cellTo c dt).setCell c x) :
    ∃ t, exec (.rst c dt) s = .next t ∧ t.cell c = x ∧ t = ((s.cellTo c dt).setCell c (t.cell c)).counted ∧
      SameBut [Reg.TWN_HSEQ.base, Fld.AC_STAT_SAT.addr c 0] s t := by
  have hcell : ((s.cellTo c dt).setCell c x).counted.cell c = x := by
    rw [State.cell_counted, State.cell_setCell_same]
  refine ⟨((s.cellTo c dt).setCell c x).counted, ?_, hcell, by rw [hcell], ?_⟩
  · rw [← hx]
    exact congrArg hostRow (ifPresent_of_lt hc (numAC_le _))
  · have hset : SameBut [Reg.TWN_HSEQ.base, Fld.AC_STAT_SAT.addr c 0] s ((s.cellTo c dt).setCell c x) :=
      fun a ha => (s.cellTo_cellOnly c dt).same a (List.not_mem_of_not_mem_cons ha)
    exact hset.trans (WritesOnly.refl.counted List.mem_cons_self).same

end

/-- Settles O21: each row by the one thing that it does to its cell. -/
theorem autoZeroCycle : Obligations.AutoZeroCycle := by
  refine ⟨fun s c hc haz hclk => ?_, fun s c hc haz hclk => ?_, fun s c hc haz _ hr => ?_, fun s c tries v hc haz hclk hv => ?_,
    fun s c tries hc haz hclk hv hlen => ?_, fun s c dt hc hf => ?_, fun s c dt hc hf => ?_⟩
  · exact ⟨_, ifPresent_of_lt hc (numAC_le _), State.azBoundary_of_trimmed haz hclk⟩
  · exact ⟨_, ifPresent_of_lt hc (numAC_le _), State.azBoundary_of_trimming haz hclk⟩
  · refine ⟨_, (ifPresent_of_lt hc (numAC_le _)).trans (congrArg Host.Outcome.next (State.azSwap_of_parallel haz hr)), ?_⟩
    have hw : CellOnly [Reg.AC_AZCNT.addr c 0] c s (((s.setCell c (s.cell c).swapped).addWrap Fld.AC_AZCNT_SWAPS 1 c).setCell c
        { (s.cell c).swapped with az := .trimming }) := .setCell (.addWrap (.setCell .refl) List.mem_cons_self)
    refine ⟨?_, ?_, ?_, hw.others, hw.frame, hw.same⟩
    · rw [State.cell_setCell_same]
      rfl
    · rw [State.cell_setCell_same]
    · rw [State.setCell_f, State.addWrap_eq, State.f_setF _ _ _ _ _ (by decide), State.setCell_f]
      rfl
  · exact ⟨_, (ifPresent_of_lt hc (numAC_le _)).trans (congrArg Host.Outcome.next (State.azTrim_of_agreed haz hclk hv)),
      s.trimAgreed_spec c (by split <;> decide) v⟩
  · refine ⟨_, (ifPresent_of_lt hc (numAC_le _)).trans (congrArg Host.Outcome.next
      (State.azTrim_of_disagreed haz hclk hv hlen)), ?_⟩
    have htrim (k : Nat) (hk : k < 2) : Reg.AC_TRIM.addr c k ∉ [Reg.AC_AZCNT.addr c 0, Reg.AC_STAT.addr c 0] := by
      simp only [FieldRef.addr, Reg.AC_TRIM, Reg.AC_AZCNT, Reg.AC_STAT, List.mem_cons, List.not_mem_nil, or_false]
      omega
    have hw : CellOnly [Reg.AC_AZCNT.addr c 0, Reg.AC_STAT.addr c 0] c s
        (((s.setCell c { s.cell c with az := .skipping, azLate := false }).addSat Fld.AC_AZCNT_DISAGREE 1 c).flag
          Fld.AC_STAT_AZ_DIS c) := .flag (.addSat (.setCell .refl) List.mem_cons_self) (.tail _ (.head _))
    refine ⟨?_, State.on_flag _ (by decide) (by decide) _ _, ?_,
      hw.same.f_eq (q := Fld.AC_TRIM_OFS) (htrim 0 (by decide)), hw.same.f_eq (q := Fld.AC_TRIM_OFS) (htrim 1 (by decide))⟩
    · rw [State.flag, State.cell_setF, State.addSat_eq, State.cell_setF, State.cell_setCell_same]
    · rw [State.flag, State.f_setF_beside _ _ _ _ _ _ (by decide), State.addSat_eq, State.f_setF _ _ _ _ _ (by decide),
        State.setCell_f]
      exact Nat.mod_eq_of_lt (Nat.lt_succ_of_le (Nat.min_le_right ..))
  · obtain ⟨t, hexec, hcell, hframe, hsame⟩ :=
      execRst_eq hc (State.cellReset_of_integrator ((s.func_cellTo c dt).trans hf))
    exact ⟨t, hexec, congrArg Cell.integ hcell, congrArg Cell.out hcell, hframe, hsame⟩
  · obtain ⟨o, ho, hreset⟩ := State.cellReset_of_holds ((s.func_cellTo c dt).trans hf)
    obtain ⟨t, hexec, hcell, hframe, hsame⟩ := execRst_eq hc hreset
    exact ⟨t, hexec, congrArg Cell.peakMax hcell, congrArg Cell.peakMin hcell, hcell ▸ ho, hframe, hsame⟩

end Sys2Proof.Machine
end

/-!
# Writes to the matrix (O20)

A write that no frame's check and no double-driven net holds back is `State.applyMatrix`; one that is refused names the net.
-/

section
namespace Sys2Proof.Machine

section
variable {s t : State} {a : Nat} {w : Word}

theorem WritesOnly.flagIf {l : List Nat} {b : Bool} {r : FieldRef} {i j : Nat} (h : WritesOnly l s t) (ha : r.addr i j ∈ l) :
    WritesOnly l s (t.flagIf b r i j) :=
  .ite (h.setF ha) h

/-! ## Words under a mask -/

/-- A field within a mask. -/
theorem Word.bits_and (w : Word) {m : Word} {lo width : Nat} (h : m.bits lo width = 2 ^ width - 1) :
    (w &&& m).bits lo width = w.bits lo width := by
  have hand : (w &&& m).bits lo width = w.bits lo width &&& m.bits lo width := by
    rw [Word.bits, Word.bits, Word.bits, BitVec.toNat_and, Nat.shiftRight_and_distrib, Nat.and_mod_two_pow]
  rw [hand, h, Nat.and_two_pow_sub_one_eq_mod, Nat.mod_eq_of_lt (Word.bits_lt ..)]

/-- TERM goes where the range is the widest (R91). -/
theorem apCtlStored_of_widest (hterm : w.bit 3 = true) (hdir : w.bit 4 = false) (hrange : 4 ≤ w.bits 0 3) :
    (apCtlStored w).2 = true ∧ (apCtlStored w).1.bits 3 1 = 0 ∧ (apCtlStored w).1.bits 0 3 = 4 := by
  have hr : (w &&& 0x11F).bits 0 3 = w.bits 0 3 := Word.bits_and w rfl
  have h3 : (w &&& 0x11F).bit 3 = true := by simpa [bit_eq_getLsbD] using hterm
  have h4 : (w &&& 0x11F).bit 4 = false := by simpa [bit_eq_getLsbD] using hdir
  have hstored : apCtlStored w = (((w &&& 0x11F).setBits 0 3 4).setBits 3 1 0, true) := by
    have hclip : (if (w &&& 0x11F).bits 0 3 > 4 then 4 else (w &&& 0x11F).bits 0 3) = 4 := by
      rw [hr]
      split <;> omega
    unfold apCtlStored
    simp only [hclip, h4, Bool.false_eq_true, false_and, if_false]
    rw [bit_setBits_of_disjoint _ _ (by decide) (by decide), h3]
    rfl
  rw [hstored]
  refine ⟨rfl, Word.bits_setBits _ _ (by decide), ?_⟩
  rw [Word.bits_setBits_of_disjoint _ _ (by decide) (by decide), Word.bits_setBits _ _ (by decide)]
  rfl

/-- A function that there is is stored (R96). -/
theorem func_acCtlStored (h : w.bits 0 4 ≤ 7) : (acCtlStored w).bits 0 4 = w.bits 0 4 := by
  have hf : (w &&& 0xB0F).bits 0 4 = w.bits 0 4 := Word.bits_and w rfl
  unfold acCtlStored
  dsimp only
  rw [hf, if_neg (Nat.not_lt.mpr h)]
  split
  · rw [Word.bits_setBits_of_disjoint _ _ (by decide) (by decide), hf]
  · exact hf

/-! ## Where the registers stand -/

theorem matrixReg_apCtl {n : Nat} (h : matrixReg a = some (.apCtl n)) : a = Reg.AP_CTL.addr n 0 := by
  unfold matrixReg at h
  dsimp only at h
  split_ifs at h <;> simp only [Option.some.injEq, MatrixReg.apCtl.injEq, reduceCtorEq] at h
  simp only [FieldRef.addr, Reg.AP_CTL]
  omega

theorem matrixReg_acCtl {c : Nat} (h : matrixReg a = some (.acCtl c)) : a = Reg.AC_CTL.addr c 0 := by
  unfold matrixReg at h
  dsimp only at h
  split_ifs at h <;> simp only [Option.some.injEq, MatrixReg.acCtl.injEq, reduceCtorEq] at h
  simp only [FieldRef.addr, Reg.AC_CTL]
  omega

/-- The matrix stands beside the census and TWN_HSEQ. -/
theorem matrixReg_beside {r : MatrixReg} (h : matrixReg a = some r) :
    a ∉ [Reg.TWN_HSEQ.base, Reg.AC_CENSUS.base, Reg.AC_CENSUS_TRK.base, Reg.AC_CENSUS_DRV.base] := by
  intro ha
  simp only [List.mem_cons, List.not_mem_nil, or_false] at ha
  rcases ha with rfl | rfl | rfl | rfl <;> exact absurd h (by decide +revert)

/-! ## The row -/

theorem execMatrixWrite_eq {r : MatrixReg} (hu : s.underCheck a = false) (hr : matrixReg a = some r)
    (hp : hasMatrix s.part r = true) : exec (.matrixWrite a w) s = .next (s.writeMatrix a r w).counted := by
  refine congrArg hostRow (?_ : _ = Host.Outcome.next (s.writeMatrix a r w))
  rw [hr]
  dsimp only
  rw [if_pos hp, State.imageWrite, hu]
  rfl

theorem State.writeMatrix_of_allowed {r : MatrixReg}
    (h : s.mode.checksMatrix = false ∨ refusedNet s (s.applyMatrix a r w) a = none) :
    s.writeMatrix a r w = s.applyMatrix a r w := by
  unfold State.writeMatrix
  dsimp only
  rcases h with h | h
  · rw [h]
    rfl
  · rw [h, ite_self]

/-- A write that is allowed, of a register of the part. -/
theorem execMatrixWrite_of_allowed {r : MatrixReg} (hu : s.underCheck a = false) (hr : matrixReg a = some r)
    (hp : hasMatrix s.part r = true) (h : s.mode.checksMatrix = false ∨ refusedNet s (s.applyMatrix a r w) a = none) :
    exec (.matrixWrite a w) s = .next (s.applyMatrix a r w).counted := by
  rw [execMatrixWrite_eq hu hr hp, State.writeMatrix_of_allowed h]

/-! ## Ports -/

/-- A port whose monitor is off stores the word and notes an adjusted TERM (R91). -/
theorem State.applyMatrix_apCtl {n : Nat} (ha : a = Reg.AP_CTL.addr n 0) (hn : n < 96) (hm : s.on Fld.WM_CTL_EN n = false) :
    s.applyMatrix a (.apCtl n) w =
      (s.setWord a (apCtlStored w).1).flagIf (apCtlStored w).2 Fld.AP_STAT_TERM_ADJ n := by
  have hw : WritesOnly [a, Reg.AP_STAT.addr n 0] s
      ((s.setWord a (apCtlStored w).1).flagIf (apCtlStored w).2 Fld.AP_STAT_TERM_ADJ n) :=
    .flagIf (.setWord .refl List.mem_cons_self) (.tail _ (.head _))
  have hen : Fld.WM_CTL_EN.addr n 0 ∉ [a, Reg.AP_STAT.addr n 0] := by
    simp only [ha, FieldRef.addr, Fld.WM_CTL_EN, Reg.AP_CTL, Reg.AP_STAT, List.mem_cons, List.not_mem_nil, or_false]
    omega
  have hhold : ((s.setWord a (apCtlStored w).1).flagIf (apCtlStored w).2 Fld.AP_STAT_TERM_ADJ n).wmHold n =
      (s.setWord a (apCtlStored w).1).flagIf (apCtlStored w).2 Fld.AP_STAT_TERM_ADJ n := by
    rw [State.wmHold, hw.same.on_eq hen, hm]
    rfl
  unfold State.applyMatrix MatrixReg.stored
  dsimp only
  rw [hhold, ite_self]

/-- What an allowed write of APn_CTL leaves, with the port's monitor off. -/
theorem execMatrixWrite_apCtl {n : Nat} (hu : s.underCheck a = false) (hr : matrixReg a = some (.apCtl n))
    (hn : n < s.part.numAP) (h : s.mode.checksMatrix = false ∨ refusedNet s (s.applyMatrix a (.apCtl n) w) a = none)
    (hm : s.on Fld.WM_CTL_EN n = false) :
    ∃ t, exec (.matrixWrite a w) s = .next t ∧ t.word a = (apCtlStored w).1 ∧
      t.on Fld.AP_STAT_TERM_ADJ n = (s.on Fld.AP_STAT_TERM_ADJ n || (apCtlStored w).2) ∧
      t = { s with regs := t.regs } ∧ SameBut [Reg.TWN_HSEQ.base, a, Fld.AP_STAT_TERM_ADJ.addr n 0] s t := by
  have ha := matrixReg_apCtl hr
  have hn' := hn.trans_le (numAP_le _)
  have hstat : Fld.AP_STAT_TERM_ADJ.addr n 0 ≠ a ∧ a ≠ Reg.TWN_HSEQ.base ∧
      Fld.AP_STAT_TERM_ADJ.addr n 0 ≠ Reg.TWN_HSEQ.base := by
    simp only [ha, FieldRef.addr, Fld.AP_STAT_TERM_ADJ, Reg.AP_CTL, Reg.TWN_HSEQ]
    omega
  obtain ⟨hne, hseq, hstatSeq⟩ := hstat
  have hw : WritesOnly [Reg.TWN_HSEQ.base, a, Fld.AP_STAT_TERM_ADJ.addr n 0] s
      ((s.setWord a (apCtlStored w).1).flagIf (apCtlStored w).2 Fld.AP_STAT_TERM_ADJ n).counted :=
    .counted (.flagIf (.setWord .refl (.tail _ (.head _))) (.tail _ (.tail _ (.head _)))) List.mem_cons_self
  refine ⟨_, (execMatrixWrite_of_allowed hu hr (decide_eq_true hn) h).trans
    (congrArg (fun t => Host.Outcome.next (State.counted t)) (State.applyMatrix_apCtl ha hn' hm)), ?_, ?_, hw.frame, hw.same⟩
  · have hflag : WritesOnly [Reg.TWN_HSEQ.base, Fld.AP_STAT_TERM_ADJ.addr n 0] (s.setWord a (apCtlStored w).1)
        ((s.setWord a (apCtlStored w).1).flagIf (apCtlStored w).2 Fld.AP_STAT_TERM_ADJ n).counted :=
      .counted (.flagIf .refl (.tail _ (.head _))) List.mem_cons_self
    rw [hflag.same a (by simp [hseq, hne.symm]), State.word_setWord, if_pos rfl]
  · have hadj : (s.setWord a (apCtlStored w).1).on Fld.AP_STAT_TERM_ADJ n = s.on Fld.AP_STAT_TERM_ADJ n :=
      congrArg (· != 0) (State.f_setWord_of_ne hne.symm)
    rw [State.on, State.f_counted _ hstatSeq]
    exact (State.on_flagIf _ _ (by decide) (by decide) _ _).trans (congrArg (· || (apCtlStored w).2) hadj)

/-! ## Cells -/

/-- A cell away from function 7: amplifier A serves (R104). -/
def Cell.unserved (x : Cell) : Cell := { x with az := .stopped, azLate := false, servingB := false }

theorem State.func_setWord {c : Nat} (ha : a = Reg.AC_CTL.addr c 0) : (s.setWord a w).f Fld.AC_CTL_FUNC c = w.bits 0 4 := by
  have haddr : a = Fld.AC_CTL_FUNC.addr c 0 := ha
  rw [State.f, State.word_setWord, if_pos haddr]
  rfl

/-- A discharged integrator. -/
def Cell.discharged (x : Cell) : Cell := { x.unserved with integ := 0, out := 0 }

/-- ACc_CTL written with FUNC 5 and RST discharges the integrator (R100). -/
theorem State.applyMatrix_integrator {c : Nat} (ha : a = Reg.AC_CTL.addr c 0) (hf : w.bits 0 4 = 5) (hrst : w.bit 10 = true) :
    s.applyMatrix a (.acCtl c) w = ((s.setWord a (acCtlStored w)).setCell c (s.cell c).unserved).setCell c
      (s.cell c).discharged := by
  have hfunc : (s.setWord a (acCtlStored w)).f Fld.AC_CTL_FUNC c = 5 := by
    rw [State.func_setWord ha, func_acCtlStored (by omega), hf]
  have hsettle : (s.setWord a (acCtlStored w)).azSettle c =
      (s.setWord a (acCtlStored w)).setCell c (s.cell c).unserved := by
    rw [State.azSettle, hfunc]
    rfl
  have hcell : ((s.setWord a (acCtlStored w)).setCell c (s.cell c).unserved).cell c = (s.cell c).unserved :=
    State.cell_setCell_same ..
  unfold State.applyMatrix MatrixReg.stored
  dsimp only
  rw [hsettle, hrst, if_pos rfl, State.cellReset_of_integrator ((State.setCell_f ..).trans hfunc), hcell]
  rfl

/-! ## Refusals -/

theorem State.nameNet_writesOnly (s : State) (trk : Nat) (d : Nat × Nat) :
    WritesOnly [Reg.AC_CENSUS_TRK.base, Reg.AC_CENSUS_DRV.base] s (s.nameNet trk d) :=
  .setF (.setF (.setF .refl (by decide)) (by decide)) (by decide)

/-- A write that is refused sets WR_REFUSED and names a net (R113). -/
theorem State.writeMatrix_of_refused {r : MatrixReg} (hm : s.mode.checksMatrix = true)
    (h : refusedNet s (s.applyMatrix a r w) a ≠ none) :
    ∃ trk d, s.writeMatrix a r w = (s.flag Fld.AC_CENSUS_WR_REFUSED).nameNet trk d := by
  obtain ⟨net, hnet⟩ := Option.ne_none_iff_exists'.mp h
  unfold State.writeMatrix
  dsimp only
  rw [hm, if_pos rfl, hnet]
  exact ⟨_, _, rfl⟩

end

/-- Settles O20: what an allowed write stores by `State.applyMatrix`, and what a refused one leaves. -/
theorem matrixWritesStoreOrRefuse : Obligations.MatrixWritesStoreOrRefuse := by
  refine ⟨fun s a c w hu hr hc h => ?_, fun s a g w hu hr hg h => ?_, fun s a d w hu hr hd h => ?_,
    fun s a n w hu hr hn h hm hterm hdir hrange => ?_, fun s a c w hu hr hc h hf hrst => ?_, fun s a r w hu hr hp hm h => ?_,
    fun s a n w hu hr hn h hm => execMatrixWrite_apCtl hu hr hn h hm⟩
  · exact ⟨_, execMatrixWrite_of_allowed hu hr (decide_eq_true hc) h, rfl⟩
  · exact ⟨_, execMatrixWrite_of_allowed hu hr (decide_eq_true hg) h, rfl⟩
  · exact ⟨_, execMatrixWrite_of_allowed hu hr (decide_eq_true hd) h, rfl⟩
  · obtain ⟨hadj, hterm', hrange'⟩ := apCtlStored_of_widest hterm hdir hrange
    obtain ⟨t, hexec, hword, hstat, hframe, hsame⟩ := execMatrixWrite_apCtl hu hr hn h hm
    obtain rfl := matrixReg_apCtl hr
    have hfield (q : FieldRef) (hq : q.addr n 0 = Reg.AP_CTL.addr n 0) : t.f q n = (apCtlStored w).1.bits q.lo q.width := by
      rw [State.f, hq, hword]
    refine ⟨t, hexec, (hfield Fld.AP_CTL_TERM rfl).trans hterm', (hfield Fld.AP_CTL_RANGE rfl).trans hrange', ?_, hframe, hsame⟩
    rw [hstat, hadj, Bool.or_true]
  · have ha := matrixReg_acCtl hr
    have hne : a ≠ Reg.TWN_HSEQ.base := fun e => matrixReg_beside hr (e ▸ List.mem_cons_self)
    have hw : CellOnly [Reg.TWN_HSEQ.base, a] c s (((s.setWord a (acCtlStored w)).setCell c (s.cell c).unserved).setCell c
        (s.cell c).discharged).counted :=
      .counted (.setCell (.setCell (.setWord .refl (.tail _ (.head _))))) List.mem_cons_self
    have hcell : (((s.setWord a (acCtlStored w)).setCell c (s.cell c).unserved).setCell c
        (s.cell c).discharged).counted.cell c = (s.cell c).discharged :=
      (State.cell_counted ..).trans (State.cell_setCell_same ..)
    have hfunc : Fld.AC_CTL_FUNC.addr c 0 ≠ Reg.TWN_HSEQ.base := fun e => hne (ha.trans e)
    refine ⟨_, (execMatrixWrite_of_allowed hu hr (decide_eq_true hc) h).trans
      (congrArg (fun t => Host.Outcome.next (State.counted t)) (State.applyMatrix_integrator ha hf hrst)),
      congrArg Cell.integ hcell, ?_, (congrArg Cell.peakMax hcell).trans rfl, (congrArg Cell.peakMin hcell).trans rfl,
      hw.others, hw.frame, hw.same⟩
    rw [State.f_counted _ hfunc, State.setCell_f, State.setCell_f, State.func_setWord ha, func_acCtlStored (by omega), hf]
  · obtain ⟨trk, d, hwrite⟩ := State.writeMatrix_of_refused hm h
    have hw : WritesOnly [Reg.TWN_HSEQ.base, Reg.AC_CENSUS.base, Reg.AC_CENSUS_TRK.base, Reg.AC_CENSUS_DRV.base] s
        ((s.flag Fld.AC_CENSUS_WR_REFUSED).nameNet trk d).counted :=
      .counted (.trans (.setF .refl (.tail _ (.head _)))
        ((State.nameNet_writesOnly ..).mono fun _ hm => .tail _ (.tail _ hm))) List.mem_cons_self
    have hnamed := (State.nameNet_writesOnly (s.flag Fld.AC_CENSUS_WR_REFUSED) trk d).same.on_eq
      (q := Fld.AC_CENSUS_WR_REFUSED) (i := 0) (j := 0) (by decide)
    refine ⟨_, (execMatrixWrite_eq hu hr hp).trans (congrArg (fun t => Host.Outcome.next (State.counted t)) hwrite),
      hw.same a (matrixReg_beside hr), ?_, hw.frame, hw.same⟩
    rw [State.on, State.f_counted _ (by decide)]
    exact hnamed.trans (State.on_flag _ (by decide) (by decide) _ _)

end Sys2Proof.Machine
end

/-!
# Loads arrive, are verified and finished (O43)

A load's end lets held words go on (`State.pump`), which leaves the marks of each cabinet and the registers below the
rings alone.
What the end of a full load shows of a cabinet is established by its release, and everything after it keeps it (`LoadKept`).
-/

section
namespace Sys2Proof.Machine

section
variable {s t u : State} {k : Nat}

/-! ## Words arrive -/

/-- A load takes words from BAR4. -/
theorem State.bar4_of_open (hm : s.mode = .load) (ha : s.stream.active = true) (hsrc : s.stream.src = 0)
    (ws : List (Word × Bool)) : s.bar4 ws =
      (s.setStream { s.stream with waiting := s.stream.waiting ++ (ws.filter (·.2)).map (·.1) }).flagIf
        (decide (((ws.filter (·.2)).map (·.1)).length ≠ ws.length)) Fld.CFG_STAT_STRAY := by
  unfold State.bar4
  simp only [hm, ha, hsrc, beq_self_eq_true, Bool.and_self, if_true]

/-- No load takes words from BAR4. -/
theorem State.bar4_of_shut (h : s.mode ≠ .load ∨ s.stream.active = false ∨ s.stream.src ≠ 0) {ws : List (Word × Bool)}
    (hws : ws ≠ []) : s.bar4 ws = s.flag Fld.CFG_STAT_STRAY := by
  have hshut : (s.mode == .load && s.stream.active && s.stream.src == 0) = false := by
    rcases h with h | h | h <;> simp [h]
  have hlen : ([] : List Word).length ≠ ws.length := fun h => hws (List.length_eq_zero_iff.mp h.symm)
  unfold State.bar4
  dsimp only
  rw [hshut, if_neg Bool.false_ne_true, decide_eq_true hlen, List.append_nil]
  rfl

theorem filter_enabled (ws : List Word) : ((ws.map fun w => (w, true)).filter (·.2)).map (·.1) = ws := by
  induction ws with
  | nil => rfl
  | cons w ws ih => simp [ih]

theorem execBar4Write_eq (hf : s.funcAnswers 0 = true) (ws : List (Word × Bool)) :
    exec (.bar4Write ws) s = .next (s.bar4 ws) :=
  congrArg Host.Outcome.next (if_pos hf)

/-! ## What stays of the cabinets while words go on -/

/-- What a load and the Bureau note of a cabinet. -/
def Cabinet.marks (x : Cabinet) : Bool × (Bool × Bool) × MeasRec := (x.released, x.loaded, x.meas)

theorem State.marks_setCab (s : State) (j k : Nat) {x : Cabinet} (hx : x.marks = (s.cab j).marks) :
    ((s.setCab j x).cab k).marks = (s.cab k).marks := by
  rw [State.cab_setCab]
  split
  · next h => rw [hx, h]
  · rfl

/-- `s` without its cabinets' ports and the words that wait at consumers. -/
def State.portless (s : State) : State := { s with cabs := [], feeds := [] }

theorem State.emit_spec (s : State) (code : Nat) (ws : List StreamWord) :
    (s.emit code ws).portless = s.portless ∧ (s.emit code ws).cabs = s.cabs := by
  unfold State.emit
  split <;> exact ⟨rfl, rfl⟩

theorem State.cab_congr (h : t.cabs = s.cabs) (k : Nat) : t.cab k = s.cab k := by
  rw [State.cab, h]
  rfl

theorem State.fpDrain_spec (k j fuel : Nat) (s : State) : (s.fpDrain k j fuel).portless = s.portless ∧
    ∀ m, ((s.fpDrain k j fuel).cab m).marks = (s.cab m).marks := by
  induction fuel generalizing s with
  | zero => exact ⟨rfl, fun _ => rfl⟩
  | succ n ih =>
    unfold State.fpDrain
    dsimp only
    split
    · exact ⟨rfl, fun _ => rfl⟩
    · split
      · exact ⟨rfl, fun _ => rfl⟩
      · obtain ⟨hrest, hmarks⟩ := ih ((s.setOutPort k j _).emit (portCode k j) _)
        obtain ⟨hemit, hcabs⟩ := (s.setOutPort k j _).emit_spec (portCode k j) _
        refine ⟨hrest.trans (hemit.trans rfl), fun m => (hmarks m).trans ?_⟩
        rw [State.cab_congr hcabs]
        exact s.marks_setCab k m rfl

theorem State.portless_drainPorts (s : State) : s.drainPorts.portless = s.portless :=
  foldl_preserves State.portless (fun _ _ => foldl_preserves State.portless (fun s j => (s.fpDrain_spec _ j 256).1) _ _) _ _

theorem State.marks_drainPorts (s : State) (k : Nat) : (s.drainPorts.cab k).marks = (s.cab k).marks :=
  foldl_preserves (fun s : State => (s.cab k).marks)
    (fun _ _ => foldl_preserves (fun s : State => (s.cab k).marks) (fun s j => (s.fpDrain_spec _ j 256).2 k) _ _) _ _

theorem State.cabs_countBlock (s : State) (r : Nat) : (s.countBlock r).cabs = s.cabs := by
  unfold State.countBlock
  dsimp only
  split <;> rfl

theorem State.cabs_deliver (s : State) (r w : Nat) : (s.deliver r w).cabs = s.cabs := by
  unfold State.deliver
  dsimp only
  split
  · exact (State.emit_spec _ _ _).2
  · exact (State.cabs_countBlock _ _).trans (State.emit_spec _ _ _).2

theorem State.cabs_pumpRing (r fuel : Nat) (s : State) : (s.pumpRing r fuel).cabs = s.cabs := by
  induction fuel generalizing s with
  | zero => rfl
  | succ n ih =>
    unfold State.pumpRing
    split
    · rfl
    · split
      · rfl
      · exact (ih _).trans (State.cabs_deliver ..)

theorem State.cabs_countLate (s : State) (r : Nat) : (s.countLate r).cabs = s.cabs := by
  unfold State.countLate
  dsimp only
  split <;> rfl

theorem State.marks_pump (s : State) (k : Nat) : (s.pump.cab k).marks = (s.cab k).marks := by
  have hcabs : s.pump.cabs = s.drainPorts.cabs := by
    refine foldl_preserves State.cabs (fun s e => ?_) _ _
    split
    · rfl
    · exact (State.cabs_pumpRing ..).trans (State.cabs_countLate ..)
  rw [State.cab_congr hcabs, State.marks_drainPorts]

/-- No downstream ring has words that wait. -/
def State.noneArrived (s : State) : Bool := s.rings.all fun e => e.2.arrived.isEmpty && e.2.late.isEmpty

/-- Then only the ports go on. -/
theorem State.pump_of_noneArrived (h : s.noneArrived = true) : s.pump = s.drainPorts := by
  have hrings : s.drainPorts.rings = s.rings := (congrArg State.rings s.portless_drainPorts :)
  unfold State.pump
  dsimp only
  rw [hrings]
  refine List.foldlRecOn _ _ (motive := fun t => t = s.drainPorts) rfl fun t ht e he => ?_
  rw [if_pos (List.all_eq_true.mp h e he), ht]

/-! ## A stream ends -/

/-- `s` with its stream gone, and the words beyond the FIFO noted (R357). -/
def State.cutStream (s : State) : State := { s.strayWords with stream := { Stream.init with src := s.stream.src } }

theorem State.dropStream_delivered (s : State) : Delivered s.cutStream s.dropStream :=
  (State.connect_delivered s.cutStream feedCfg 0).trans (Delivered.pump _)

theorem State.dropStream_active (s : State) : s.dropStream.stream.active = false := by
  rw [s.dropStream_delivered.frame]
  rfl

theorem State.f_cutStream {q : FieldRef} (h : Fld.CFG_STAT_STRAY.beside q = true) : s.cutStream.f q = s.f q := by
  have hf : s.cutStream.f q = s.strayWords.f q := rfl
  rw [hf, State.strayWords, State.flagIf]
  split
  · exact s.f_setF_of_beside h 1 0 0
  · rfl

/-- A register of a single field beside STRAY, after a stream's end. -/
theorem State.f_dropStream {q : FieldRef} (h : Fld.CFG_STAT_STRAY.beside q = true) (hq : q.addr 0 0 < Reg.DMA_CFG.base) :
    s.dropStream.f q = s.f q :=
  (s.dropStream_delivered.f_eq hq).trans (State.f_cutStream h)

theorem State.strayWords_writesOnly (s : State) : WritesOnly [Reg.CFG_STAT.base] s s.strayWords :=
  .flagIf .refl List.mem_cons_self

theorem State.cutStream_same (s : State) : SameBut [Reg.CFG_STAT.base] s s.cutStream :=
  s.strayWords_writesOnly.same

/-- A register of cabinet `k`, after a stream's end. -/
theorem State.f_dropStream_cab {q : FieldRef} (hk : k < 24) (h1 : 0x40000 < q.base)
    (h2 : q.base + 24 * q.st1 < Reg.DMA_CFG.base) :
    s.dropStream.f q k = s.f q k := by
  have hle := Nat.mul_le_mul_right q.st1 hk.le
  refine (s.dropStream_delivered.f_eq ?_).trans (s.cutStream_same.f_eq ?_)
  · simp only [FieldRef.addr, Nat.zero_mul]
    omega
  · simp only [FieldRef.addr, Reg.CFG_STAT, List.mem_singleton]
    omega

theorem State.marks_dropStream (s : State) (k : Nat) : (s.dropStream.cab k).marks = (s.cab k).marks := by
  have hcabs : ((s.cutStream).connect feedCfg 0).cabs = s.cabs := by
    have hcut : s.cutStream.cabs = s.cabs := by
      rw [State.cutStream, s.strayWords_writesOnly.frame]
    unfold State.connect
    split
    · exact hcut
    · exact hcut
  exact (State.marks_pump _ k).trans (congrArg Cabinet.marks (State.cab_congr hcabs k))

/-! ### A full load fails -/

theorem State.toMode_faultSt (s : State) (m : Mode) (cause : Nat) :
    (s.toMode m cause).f Fld.DEV_MODE_FAULT_ST = s.f Fld.DEV_MODE_FAULT_ST := by
  rw [State.f_toMode _ _ _ (by decide), State.modeNoted, State.flag]
  simp (disch := decide) only [State.f_setF_of_disjoint]
  rfl

theorem State.loadFail_spec (s : State) (reason pos : Nat) : (s.loadFail reason pos).mode = .faultMode ∧
    (s.loadFail reason pos).f Fld.CFG_STAT_REASON = reason % 256 ∧ (s.loadFail reason pos).f Fld.CFG_ERRPOS = pos % 2 ^ 32 ∧
    (s.loadFail reason pos).f Fld.DEV_MODE_FAULT_ST = reasonStatus reason % 256 := by
  unfold State.loadFail
  refine ⟨State.toMode_mode .., ?_, ?_, ?_⟩
  · rw [State.f_toMode_beside _ _ _ (by decide) (by decide), State.f_setF_of_beside _ (by decide),
      State.f_dropStream (by decide) (by decide), State.f_setF_of_beside _ (by decide), State.f_setF _ _ _ _ _ (by decide)]
    rfl
  · rw [State.f_toMode_beside _ _ _ (by decide) (by decide), State.f_setF_of_beside _ (by decide),
      State.f_dropStream (by decide) (by decide), State.f_setF _ _ _ _ _ (by decide)]
    rfl
  · rw [State.toMode_faultSt, State.f_setF _ _ _ _ _ (by decide)]
    rfl

/-! ### A partial stream fails -/

/-- `s` with the failure of CBk's stream noted (R385). -/
def State.regionFailNoted (s : State) (k reason pos phase : Nat) : State :=
  let n := ((s.setF Fld.SCRB_RLD_STAT_PHASE phase).setF Fld.SCRB_RLD_STAT_REASON reason).setF Fld.SCRB_RLD_STAT_STATUS
    (reasonStatus reason)
  let n := (n.setF Fld.SCRB_RLD_ERRPOS pos).setF Fld.SCRB_CB_STATE_REASON reason k
  let n := (n.setCbState k 4).flag Fld.SCRB_RLD_IRQ_FAIL
  n.setMeas k { (n.cab k).meas with dstate := 3, reason := reason }

theorem State.regionFail_eq (s : State) (k reason pos phase : Nat) :
    s.regionFail k reason pos phase = (s.regionFailNoted k reason pos phase).dropStream.endPartial := rfl

theorem State.regionFailNoted_spec (s : State) (k reason pos phase : Nat) :
    (s.regionFailNoted k reason pos phase).cbState k = 4 ∧
      (s.regionFailNoted k reason pos phase).f Fld.SCRB_RLD_STAT_REASON = reason % 256 ∧
      (s.regionFailNoted k reason pos phase).f Fld.SCRB_RLD_STAT_STATUS = reasonStatus reason % 256 ∧
      (s.regionFailNoted k reason pos phase).f Fld.SCRB_RLD_ERRPOS = pos % 2 ^ 32 ∧
      (s.regionFailNoted k reason pos phase).on Fld.SCRB_RLD_IRQ_FAIL = true ∧
      ((s.regionFailNoted k reason pos phase).cab k).meas.dstate = 3 := by
  have hmeas (n : State) (m : MeasRec) (q : FieldRef) (i : Nat) : (n.setMeas k m).f q i = n.f q i := rfl
  have hirq : Fld.SCRB_RLD_IRQ_FAIL.addr 0 0 ≠ Fld.SCRB_CB_STATE_STATE.addr k 0 := by
    simp only [FieldRef.addr, Fld.SCRB_RLD_IRQ_FAIL, Fld.SCRB_CB_STATE_STATE]
    omega
  unfold State.regionFailNoted State.setCbState State.flag
  dsimp only
  refine ⟨?_, ?_, ?_, ?_, ?_, ?_⟩
  · rw [State.cbState, hmeas, State.f_setF_of_addr _ _ _ _ _ _ _ _ hirq, State.f_setF _ _ _ _ _ (by decide)]
    rfl
  · rw [hmeas]
    simp (disch := decide) only [State.f_setF_of_beside, State.f_setF]
    rfl
  · rw [hmeas]
    simp (disch := decide) only [State.f_setF_of_beside, State.f_setF]
    rfl
  · rw [hmeas]
    simp (disch := decide) only [State.f_setF_of_beside, State.f_setF]
    rfl
  · rw [State.on, hmeas, State.f_setF _ _ _ _ _ (by decide)]
    rfl
  · rw [State.setMeas, State.cab_setCab, if_pos rfl]

theorem State.cab_endPartial (s : State) (k : Nat) : s.endPartial.cab k = s.cab k := by
  have hmark (n : State) : n.markRun.cab k = n.cab k := rfl
  unfold State.endPartial
  split
  · rw [hmark, State.toMode_cab]
  · rfl

/-- What shows of a partial stream that has failed. -/
theorem State.regionFail_spec (s : State) (hk : k < 24) (reason pos phase : Nat) :
    (s.regionFail k reason pos phase).cbState k = 4 ∧
      (s.regionFail k reason pos phase).f Fld.SCRB_RLD_STAT_REASON = reason % 256 ∧
      (s.regionFail k reason pos phase).f Fld.SCRB_RLD_STAT_STATUS = reasonStatus reason % 256 ∧
      (s.regionFail k reason pos phase).f Fld.SCRB_RLD_ERRPOS = pos % 2 ^ 32 ∧
      (s.regionFail k reason pos phase).on Fld.SCRB_RLD_IRQ_FAIL = true ∧
      ((s.regionFail k reason pos phase).cab k).meas.dstate = 3 := by
  obtain ⟨hstate, hreason, hstatus, hpos, hirq, hmeas⟩ := s.regionFailNoted_spec k reason pos phase
  rw [State.regionFail_eq]
  generalize s.regionFailNoted k reason pos phase = n at *
  have hend := n.dropStream.endPartial_same
  have hmarks : (n.dropStream.endPartial.cab k).marks = (n.cab k).marks := by
    rw [State.cab_endPartial, State.marks_dropStream]
  have hdrop (q : FieldRef) (hq : q.addr 0 0 ∉ [Reg.DEV_MODE.base, Reg.SCRB_STAT.base])
      (hstray : Fld.CFG_STAT_STRAY.beside q = true) (hlow : q.addr 0 0 < Reg.DMA_CFG.base) :
      n.dropStream.endPartial.f q = n.f q := (hend.f_eq hq).trans (State.f_dropStream hstray hlow)
  obtain ⟨-, -, -, hoff, -⟩ := cab_beside hk
  refine ⟨?_, (hdrop _ (by decide) (by decide) (by decide)).trans hreason,
    (hdrop _ (by decide) (by decide) (by decide)).trans hstatus, (hdrop _ (by decide) (by decide) (by decide)).trans hpos,
    ?_, ?_⟩
  · rw [State.cbState, hend.f_eq (q := Fld.SCRB_CB_STATE_STATE) hoff,
      State.f_dropStream_cab hk (by decide) (by decide)]
    exact hstate
  · rw [State.on, hdrop _ (by decide) (by decide) (by decide)]
    exact hirq
  · exact (congrArg (fun m => m.2.2.dstate) hmarks).trans hmeas

/-! ## A partial stream is verified -/

/-- `s` with CBk loaded, its stream not ended yet (R383). -/
def State.regionLoaded (s : State) (k : Nat) : State :=
  let n := (s.setCbState k 3).setF Fld.SCRB_RLD_STAT_PHASE 4
  let n := n.setMeas k { (n.cab k).meas with dstate := 2, signed := s.stream.signed }
  n.setCab k { n.cab k with loaded := (s.stream.secure, s.stream.cbmask.testBit k) }

section
variable (hcrc : s.stream.crc ^^^ 0xFFFFFFFF = s.stream.crcEnd) (hnext : s.stream.next = none) (hpol : s.policyMet = true)
include hcrc hnext hpol

theorem State.verifyRegion_of_unsigned (hsec : s.stream.secure = true ∨ s.stream.wasSecure = true)
    (hsig : s.stream.signed = false) : s.verifyRegion k = s.regionFail k 0x22 (s.f Fld.SCRB_RLD_WORDS) 6 := by
  unfold State.verifyRegion
  dsimp only
  rw [if_neg (not_not.mpr hcrc), hnext, if_neg (by decide), hpol, if_neg (by decide), hsig,
    if_pos ⟨hsec, Bool.false_ne_true⟩]

theorem State.verifyRegion_of_good (h : (s.stream.secure = true ∨ s.stream.wasSecure = true) → s.stream.signed = true) :
    s.verifyRegion k = (s.regionLoaded k).dropStream.flag Fld.SCRB_RLD_IRQ_DONE := by
  unfold State.verifyRegion
  dsimp only
  rw [if_neg (not_not.mpr hcrc), hnext, if_neg (by decide), hpol, if_neg (by decide), if_neg (fun hs => hs.2 (h hs.1))]
  rfl

end

theorem State.regionLoaded_spec (s : State) (k : Nat) : (s.regionLoaded k).cbState k = 3 ∧
    (s.regionLoaded k).f Fld.SCRB_RLD_STAT_PHASE = 4 ∧ (s.regionLoaded k).mode = s.mode ∧
    ((s.regionLoaded k).cab k).meas.dstate = 2 ∧ ((s.regionLoaded k).cab k).meas.signed = s.stream.signed ∧
    ((s.regionLoaded k).cab k).loaded = (s.stream.secure, s.stream.cbmask.testBit k) := by
  have hphase : Fld.SCRB_RLD_STAT_PHASE.addr 0 0 ≠ Fld.SCRB_CB_STATE_STATE.addr k 0 := by
    simp only [FieldRef.addr, Fld.SCRB_RLD_STAT_PHASE, Fld.SCRB_CB_STATE_STATE]
    omega
  have hset {n : State} {x : Cabinet} (q : FieldRef) (i : Nat) : (n.setCab k x).f q i = n.f q i := rfl
  have hcab {n : State} {x : Cabinet} : (n.setCab k x).cab k = x := (State.cab_setCab ..).trans (if_pos rfl)
  have hmode {n : State} {x : Cabinet} : (n.setCab k x).mode = n.mode := rfl
  unfold State.regionLoaded State.setMeas State.setCbState
  dsimp only
  refine ⟨?_, ?_, ?_, ?_, ?_, ?_⟩
  · rw [State.cbState, hset, hset, State.f_setF_of_addr _ _ _ _ _ _ _ _ hphase, State.f_setF _ _ _ _ _ (by decide)]
    rfl
  · rw [hset, hset, State.f_setF _ _ _ _ _ (by decide)]
    rfl
  · rw [hmode, hmode, State.setF_mode, State.setF_mode]
  · rw [hcab, hcab]
  · rw [hcab, hcab]
  · rw [hcab]

/-- What shows of a partial stream whose checks pass. -/
theorem State.regionLoads_spec (s : State) (hk : k < 24) (ht : t = (s.regionLoaded k).dropStream.flag Fld.SCRB_RLD_IRQ_DONE) :
    t.cbState k = 3 ∧ t.f Fld.SCRB_RLD_STAT_PHASE = 4 ∧ t.on Fld.SCRB_RLD_IRQ_DONE = true ∧ (t.cab k).meas.dstate = 2 ∧
      (t.cab k).meas.signed = s.stream.signed ∧ (t.cab k).loaded = (s.stream.secure, s.stream.cbmask.testBit k) ∧
      t.stream.active = false ∧ t.mode = s.mode := by
  obtain ⟨hstate, hphase, hmode, hdstate, hsigned, hloaded⟩ := s.regionLoaded_spec k
  rw [ht]
  generalize s.regionLoaded k = n at *
  have hflag (u : State) : (u.flag Fld.SCRB_RLD_IRQ_DONE).cab k = u.cab k ∧
      (u.flag Fld.SCRB_RLD_IRQ_DONE).stream = u.stream ∧ (u.flag Fld.SCRB_RLD_IRQ_DONE).mode = u.mode := ⟨rfl, rfl, rfl⟩
  obtain ⟨hcab, hstream, hflagMode⟩ := hflag n.dropStream
  have hmarks := n.marks_dropStream k
  have hirq : Fld.SCRB_RLD_IRQ_DONE.addr 0 0 ≠ Fld.SCRB_CB_STATE_STATE.addr k 0 := by
    simp only [FieldRef.addr, Fld.SCRB_RLD_IRQ_DONE, Fld.SCRB_CB_STATE_STATE]
    omega
  rw [hcab, hstream, hflagMode]
  refine ⟨?_, ?_, State.on_flag _ (by decide) (by decide) _ _, (congrArg (fun m => m.2.2.dstate) hmarks).trans hdstate,
    (congrArg (fun m => m.2.2.signed) hmarks).trans hsigned, (congrArg (fun m => m.2.1) hmarks).trans hloaded,
    n.dropStream_active, (Kept.refl (s := n)).dropStream.mode.trans hmode⟩
  · rw [State.cbState, State.flag, State.f_setF_of_addr _ _ _ _ _ _ _ _ hirq,
      State.f_dropStream_cab hk (by decide) (by decide)]
    exact hstate
  · rw [State.flag, State.f_setF_of_beside _ (by decide), State.f_dropStream (by decide) (by decide), hphase]

theorem execRegionVerify_eq (hkind : s.stream.kind = .region k) (hend : s.stream.ended = true) (hrun : s.bur.running = true) :
    exec .regionVerify s = .next (s.verifyRegion k) := by
  refine congrArg Host.Outcome.next ?_
  rw [hkind]
  exact if_pos ⟨hend, hrun⟩

/-! ## A full load is verified -/

theorem State.census_writesOnly (s : State) :
    WritesOnly [Reg.AC_CENSUS.base, Reg.AC_CENSUS_TRK.base, Reg.AC_CENSUS_DRV.base] s s.census := by
  have hname {n : State} (trk : Nat) (d : Nat × Nat) :
      WritesOnly [Reg.AC_CENSUS.base, Reg.AC_CENSUS_TRK.base, Reg.AC_CENSUS_DRV.base] n (n.nameNet trk d) :=
    (n.nameNet_writesOnly trk d).mono fun _ hm => .tail _ hm
  unfold State.census
  extract_lets _ _ _ _ s1 s2
  have h2 : WritesOnly [Reg.AC_CENSUS.base, Reg.AC_CENSUS_TRK.base, Reg.AC_CENSUS_DRV.base] s s2 :=
    .setF (.setF (.setF .refl List.mem_cons_self) List.mem_cons_self) List.mem_cons_self
  split
  · exact h2.trans (hname ..)
  · exact h2.trans (hname ..)

section
variable (hcrc : s.stream.crc ^^^ 0xFFFFFFFF = s.stream.crcEnd)
include hcrc

theorem State.verifyLoad_of_missing (hnext : s.stream.next.isSome = true) :
    s.verifyLoad = s.loadFail 0x11 (s.f Fld.CFG_WORDS) := by
  unfold State.verifyLoad
  dsimp only
  rw [if_neg (not_not.mpr hcrc), if_pos hnext]

variable (hrun : s.bur.running = true) (hnext : s.stream.next = none)
include hrun hnext

theorem State.verifyLoad_of_unsigned (hpol : s.policyMet = false) : s.verifyLoad = s.loadFail 0x14 (s.f Fld.CFG_WORDS) := by
  unfold State.verifyLoad
  dsimp only
  rw [if_neg (not_not.mpr hcrc), hnext, if_neg (by decide), hrun, if_neg (by decide), hpol]
  rfl

theorem State.verifyLoad_of_met (hpol : s.policyMet = true) : s.verifyLoad =
    if s.census.on Fld.AC_CENSUS_PASS then s.census.enterWakeUp else s.census.loadFail 0x15 (s.f Fld.CFG_WORDS) := by
  unfold State.verifyLoad
  dsimp only
  rw [if_neg (not_not.mpr hcrc), hnext, if_neg (by decide), hrun, if_neg (by decide), hpol, if_neg (by decide)]

end

theorem State.policyMet_of_unsigned (hsig : s.stream.signed = false) (hreq : s.on Fld.BUR_POLICY_REQ_SIGNED = true) :
    s.policyMet = false := by
  rw [State.policyMet, hsig, hreq]
  rfl

theorem execVerify_eq (hm : s.mode = .verify) : exec .verify s = .next s.verifyLoad :=
  congrArg Host.Outcome.next (if_pos hm)

/-- Verify runs no test of the pins, so that its end ends none (R544). -/
theorem State.testEnded_of_verify (hm : s.mode = .verify) : s.testEnded = s := by
  have hforce : s.tapInForce = .bypass ∨ s.tapInForce = .sample := by
    unfold State.tapInForce
    rw [hm]
    cases s.pins.jtag <;> simp
  have hleaves : s.tapLeaves = s.pins.jtag := by
    unfold State.tapLeaves
    rcases hforce with h | h <;> rw [h]
  rw [State.testEnded, hleaves]

theorem State.toMode_scrub (s : State) {m : Mode} (hm : m.scrubs = false) (cause : Nat) :
    (s.toMode m cause).scrub = Scrub.init := by
  rw [State.toMode_eq, hm]
  rfl

/-- `s` with the digest of the hard blocks handed to the Bureau (R366). -/
def State.digested (s : State) : State :=
  { s with bur := { s.bur with
      hard := shakeWords ((Tab.get (fun _ => []) s.stream.meas 32).reverse ++ s.stream.analog.reverse) } }

theorem State.enterWakeUp_eq (s : State) : s.enterWakeUp = (s.digested.setF Fld.CFG_STAT_PHASE 4).toMode .wakeUp 6 := rfl

/-- What shows of a load that Verify passes, and what it leaves. -/
theorem State.enterWakeUp_spec (s : State) (hm : s.mode = .verify) (ht : t = s.census.enterWakeUp) :
    t.mode = .wakeUp ∧ t.f Fld.DEV_MODE_CAUSE = 6 ∧ t.f Fld.CFG_STAT_PHASE = 4 ∧
      t.bur.hard = shakeWords ((Tab.get (fun _ => []) s.stream.meas 32).reverse ++ s.stream.analog.reverse) ∧
      t.bur = { s.bur with firstBlank := false, hard := t.bur.hard } ∧
      t = { s with mode := .wakeUp, bur := t.bur, scrub := Scrub.init, regs := t.regs } ∧
      SameBut [Reg.AC_CENSUS.base, Reg.AC_CENSUS_TRK.base, Reg.AC_CENSUS_DRV.base, Reg.CFG_STAT.base, Reg.DEV_MODE.base,
        Reg.SCRB_STAT.base] s t := by
  obtain ⟨r, hr⟩ : ∃ r, s.census = { s with regs := r } := ⟨_, s.census_writesOnly.frame⟩
  have hcensus := s.census_writesOnly.same
  rw [ht, State.enterWakeUp_eq]
  have hphase : WritesOnly [Reg.CFG_STAT.base] s.census.digested (s.census.digested.setF Fld.CFG_STAT_PHASE 4) :=
    .setF .refl List.mem_cons_self
  have hmode : (s.census.digested.setF Fld.CFG_STAT_PHASE 4).mode = .verify := by
    rw [hr]
    exact hm
  have hbur : (s.census.digested.setF Fld.CFG_STAT_PHASE 4).bur = s.digested.bur := by
    rw [hr]
    rfl
  have hframe := State.toMode_frame (s.census.digested.setF Fld.CFG_STAT_PHASE 4) .wakeUp 6
  rw [State.testEnded_of_verify hmode, State.toMode_scrub _ rfl, hmode, hbur] at hframe
  have htbur := State.toMode_bur (s.census.digested.setF Fld.CFG_STAT_PHASE 4) .wakeUp 6
  rw [hmode, hbur] at htbur
  refine ⟨State.toMode_mode .., State.toMode_cause .., ?_, ?_, ?_, ?_, fun a ha => ?_⟩
  · rw [State.f_toMode_beside _ _ _ (by decide) (by decide), State.f_setF _ _ _ _ _ (by decide)]
    rfl
  · rw [htbur]
    rfl
  · rw [htbur]
    simp [State.digested]
  · rw [htbur]
    exact hframe.trans (by rw [hr]; rfl)
  · simp only [List.mem_cons, List.not_mem_nil, or_false, not_or] at ha
    obtain ⟨h1, h2, h3, hcfg, hdev, hscrub⟩ := ha
    have hdigested : s.census.digested.word a = s.census.word a := rfl
    rw [State.toMode_same _ _ _ a (by simp [hdev, hscrub]), hphase.same a (by simp [hcfg]), hdigested,
      hcensus a (by simp [h1, h2, h3])]

/-! ## What the end of a full load keeps -/

/-- The offsets among which stand the registers of the controller, of the cabinets' states and of their clock enables. -/
def loadBlock (a : Nat) : Prop := (0x40000 ≤ a ∧ a < 0x50400) ∨ (0x600000 ≤ a ∧ a < 0x618000)

/-- No copy of `r` in a cabinet or group, of four at most, stands there. -/
def FieldRef.offLoad (r : FieldRef) : Bool :=
  decide (r.base + 23 * r.st1 + 3 * r.st2 < 0x40000 ∨
    (0x50400 ≤ r.base ∧ r.base + 23 * r.st1 + 3 * r.st2 < 0x600000) ∨ 0x618000 ≤ r.base)

theorem FieldRef.not_loadBlock {r : FieldRef} {i j : Nat} (h : r.offLoad = true) (hi : i < 24) (hj : j < 4) :
    ¬ loadBlock (r.addr i j) := by
  have hi' := Nat.mul_le_mul_right r.st1 (Nat.le_sub_one_of_lt hi)
  have hj' := Nat.mul_le_mul_right r.st2 (Nat.le_sub_one_of_lt hj)
  simp only [FieldRef.offLoad, decide_eq_true_eq] at h
  simp only [loadBlock, FieldRef.addr]
  omega

/-- What a load's end rests on beside the cabinets: the stream, CFG_DONE, the DIO pins, the rings and the check words. -/
def State.loadParts (s : State) : Stream × Bool × Dio × Tab Ring × Tab Nat :=
  (s.stream, s.pins.done, s.dio, s.rings, s.checks)

/-- `t` has the load's parts of `s`, REF_TMO and CFG_TIME, and of each cabinet in `K` the marks, the state and the clock
enable. -/
structure LoadKept (K : Nat → Prop) (s t : State) : Prop where
  parts : t.loadParts = s.loadParts
  cfg : ∀ q ∈ [Fld.CFG_STAT_REF_TMO, Fld.CFG_TIME], t.f q = s.f q
  cab : ∀ k < 24, K k → t.word (Reg.FAB_CTL.addr k 0) = s.word (Reg.FAB_CTL.addr k 0) ∧
    t.word (Reg.SCRB_CB_STATE.addr k 0) = s.word (Reg.SCRB_CB_STATE.addr k 0) ∧ (t.cab k).marks = (s.cab k).marks

namespace LoadKept

variable {K : Nat → Prop} {r : FieldRef} {v i j : Nat}

theorem refl : LoadKept K s s := ⟨rfl, fun _ _ => rfl, fun _ _ _ => ⟨rfl, rfl, rfl⟩⟩

theorem trans (h : LoadKept K s t) (h' : LoadKept K t u) : LoadKept K s u where
  parts := h'.parts.trans h.parts
  cfg q hq := (h'.cfg q hq).trans (h.cfg q hq)
  cab k hk hK := by
    obtain ⟨hfab, hstate, hmarks⟩ := h.cab k hk hK
    obtain ⟨hfab', hstate', hmarks'⟩ := h'.cab k hk hK
    exact ⟨hfab'.trans hfab, hstate'.trans hstate, hmarks'.trans hmarks⟩

theorem same (h : LoadKept K u s) (e : (t.loadParts, t.regs, t.cabs) = (s.loadParts, s.regs, s.cabs)) : LoadKept K u t := by
  obtain ⟨hparts, hrest⟩ := Prod.mk.inj e
  obtain ⟨hregs, hcabs⟩ := Prod.mk.inj hrest
  exact h.trans ⟨hparts, fun q _ => State.f_congr hregs q 0 0, fun k _ _ =>
    ⟨State.word_congr hregs _, State.word_congr hregs _, congrArg Cabinet.marks (State.cab_congr hcabs k)⟩⟩

/-- A register beyond the controller's is written, none of a cabinet in `K`. -/
theorem setCabWord {a : Nat} {w : Word} (h : LoadKept K u s) (ha : 0x50000 ≤ a)
    (hcab : ∀ k < 24, K k → a ≠ Reg.FAB_CTL.addr k 0 ∧ a ≠ Reg.SCRB_CB_STATE.addr k 0) : LoadKept K u (s.setWord a w) := by
  refine h.trans ⟨rfl, fun q hq => ?_, fun k hk hK => ?_⟩
  · have hlt : q.addr 0 0 < 0x50000 :=
      (by decide : ∀ q ∈ [Fld.CFG_STAT_REF_TMO, Fld.CFG_TIME], q.addr 0 0 < 0x50000) q hq
    exact State.f_setWord_of_ne (by omega)
  · obtain ⟨hfab, hstate⟩ := hcab k hk hK
    exact ⟨by rw [State.word_setWord, if_neg hfab], by rw [State.word_setWord, if_neg hstate], rfl⟩

theorem setWord {a : Nat} {w : Word} (h : LoadKept K u s) (ha : ¬ loadBlock a) : LoadKept K u (s.setWord a w) := by
  simp only [loadBlock] at ha
  refine h.trans ⟨rfl, fun q hq => ?_, fun k hk _ => ?_⟩
  · have hlt : 0x40000 ≤ q.addr 0 0 ∧ q.addr 0 0 < 0x50000 :=
      (by decide : ∀ q ∈ [Fld.CFG_STAT_REF_TMO, Fld.CFG_TIME], 0x40000 ≤ q.addr 0 0 ∧ q.addr 0 0 < 0x50000) q hq
    exact State.f_setWord_of_ne (by omega)
  · rw [State.word_setWord, State.word_setWord, if_neg, if_neg]
    · exact ⟨rfl, rfl, rfl⟩
    · simp only [FieldRef.addr, Reg.SCRB_CB_STATE]
      omega
    · simp only [FieldRef.addr, Reg.FAB_CTL]
      omega

theorem setF (h : LoadKept K u s) (hr : r.offLoad = true) (hi : i < 24) (hj : j < 4) : LoadKept K u (s.setF r v i j) :=
  h.setWord (FieldRef.not_loadBlock hr hi hj)

theorem addSat (h : LoadKept K u s) (hr : r.offLoad = true) (hi : i < 24) (hj : j < 4) : LoadKept K u (s.addSat r v i j) :=
  h.setF hr hi hj

theorem addWrap (h : LoadKept K u s) (hr : r.offLoad = true) (hi : i < 24) (hj : j < 4) : LoadKept K u (s.addWrap r v i j) :=
  h.setF hr hi hj

theorem ite {c : Prop} [Decidable c] (ht : LoadKept K u s) (hu : LoadKept K u t) : LoadKept K u (if c then s else t) := by
  split <;> assumption

theorem flagIf {b : Bool} (h : LoadKept K u s) (hr : r.offLoad = true) (hi : i < 24) (hj : j < 4) :
    LoadKept K u (s.flagIf b r i j) :=
  .ite (h.setF hr hi hj) h

theorem foldl {β : Type} {f : State → β → State} {l : List β} (h : LoadKept K u s)
    (hf : ∀ {t b}, b ∈ l → LoadKept K u t → LoadKept K u (f t b)) : LoadKept K u (l.foldl f s) :=
  List.foldlRecOn l f h fun _ ht _ hb => hf hb ht

/-- A cabinet outside `K`, or one whose marks stay, is replaced. -/
theorem setCab {x : Cabinet} (h : LoadKept K u s) (hx : K j → x.marks = (s.cab j).marks) : LoadKept K u (s.setCab j x) := by
  refine h.trans ⟨rfl, fun _ _ => rfl, fun k _ hK => ⟨rfl, rfl, ?_⟩⟩
  rw [State.cab_setCab]
  split
  · next e => exact (hx (e ▸ hK)).trans (by rw [e])
  · rfl

theorem setInPort {x : InPort} (h : LoadKept K u s) : LoadKept K u (s.setInPort j i x) := h.setCab fun _ => rfl

theorem setOutPort {x : OutPort} (h : LoadKept K u s) : LoadKept K u (s.setOutPort j i x) := h.setCab fun _ => rfl

theorem setAgent {x : AgentPort} (h : LoadKept K u s) : LoadKept K u (s.setAgent j i x) := h.setCab fun _ => rfl

/-! ### Releases -/

theorem xrst {bit : Nat} {lost : Bool} (h : LoadKept K u s) : LoadKept K u (s.xrst bit lost) :=
  .ite (h.setF (by decide) (by decide) (by decide)) h

theorem startCells (h : LoadKept K u s) : LoadKept K u (s.startCells j) :=
  h.foldl fun _ h => h.same rfl

theorem flushBoundary (h : LoadKept K u s) (hj : j < 24) : LoadKept K u (s.flushBoundary j) := by
  refine h.foldl fun hi h => ?_
  have hi' := List.mem_range.mp hi
  exact .setOutPort (.setInPort (.xrst (.addWrap (.addWrap h (by decide) hj hi') (by decide) hj hi')))

theorem clearCrossings (h : LoadKept K u s) : LoadKept K u (s.clearCrossings j) := by
  unfold State.clearCrossings
  extract_lets lost note ps evs rqs s1 s2
  have h1 : LoadKept K u s1 := h.setAgent.setAgent
  have h2 : LoadKept K u s2 := h1.same rfl
  exact h2.xrst.xrst.xrst.xrst

theorem noteVectors {before : State} {acc : Bool} {vs : List (Nat × Nat)} (h : LoadKept K u s) :
    LoadKept K u (s.noteVectors before acc vs) := by
  refine h.foldl fun _ h => h.trans ?_
  unfold State.noteVector
  extract_lets c can x y rose lost
  repeat' split
  all_goals exact LoadKept.refl.same rfl

theorem freeSecure (h : LoadKept K u s) : LoadKept K u (s.freeSecure j) := by
  refine h.foldl fun {t e} _ h => .ite ?_ h
  have hlower : LoadKept K u (t.lowerChan e.1 { Chan.init with word := (t.chan e.1).word }) :=
    (h.same rfl : LoadKept K u (t.setChan e.1 _)).noteVectors
  exact (hlower.setF (by decide) (by decide) (by decide)).setF (by decide) (by decide) (by decide)

/-- The registers of CBj are no other cabinet's. -/
theorem setOwn (h : LoadKept (· ≠ j) u s) (hj : j < 24)
    (hr : r.addr j 0 = Reg.FAB_CTL.addr j 0 ∨ r.addr j 0 = Reg.SCRB_CB_STATE.addr j 0) :
    LoadKept (· ≠ j) u (s.setF r v j) := by
  simp only [FieldRef.addr, Reg.FAB_CTL, Reg.SCRB_CB_STATE] at hr
  refine h.setCabWord ?_ fun k hk hne => ?_
  · simp only [FieldRef.addr]
    omega
  · simp only [FieldRef.addr, Reg.FAB_CTL, Reg.SCRB_CB_STATE]
    omega

theorem markCab {secure : Bool} (h : LoadKept (· ≠ j) u s) (hj : j < 24) : LoadKept (· ≠ j) u (s.markCab j secure) := by
  unfold State.markCab
  extract_lets s1 s2 v
  have h1 : LoadKept (· ≠ j) u s1 :=
    .setWord (.setOwn h hj (.inr rfl)) (FieldRef.not_loadBlock (r := Reg.BUR_CLAIM) (by decide) hj (by decide))
  have h2 : LoadKept (· ≠ j) u s2 := .ite h1 h1.freeSecure
  exact h2.setF (by decide) (by decide) (by decide)

theorem releaseCab (h : LoadKept (· ≠ j) u s) (hj : j < 24) : LoadKept (· ≠ j) u (s.releaseCab j) := by
  have hstarted : LoadKept (· ≠ j) u (((s.startCells j).flushBoundary j).clearCrossings j) :=
    (h.startCells.flushBoundary hj).clearCrossings
  unfold State.releaseCab State.setCbState State.setB
  dsimp only
  exact .setCab (.markCab (.setOwn (.setOwn hstarted hj (.inl rfl)) hj (.inr rfl)) hj) fun e => absurd rfl e

/-! ### The return to Run -/

theorem cgNow {f : CgCore → CgCore} (h : LoadKept K u s) (hi : i < 24) : LoadKept K u (s.cgNow i f) := by
  unfold State.cgNow State.cgCommit
  extract_lets x c s1 s2 s3 s4 s5
  have h1 : LoadKept K u s1 := h.same rfl
  have h2 : LoadKept K u s2 := (h1.addSat (by decide) hi (by decide)).addWrap (by decide) hi (by decide)
  have h3 : LoadKept K u s3 := h2.addSat (by decide) hi (by decide)
  have h4 : LoadKept K u s4 := (h3.flagIf (by decide) hi (by decide)).flagIf (by decide) hi (by decide)
  have h5 : LoadKept K u s5 := (h4.flagIf (by decide) hi (by decide)).flagIf (by decide) hi (by decide)
  exact (h5.setF (by decide) hi (by decide)).setF (by decide) hi (by decide)

theorem startConverting (h : LoadKept K u s) : LoadKept K u s.startConverting := by
  have hgroups : LoadKept K u s.resumeGroups :=
    h.foldl fun hg h => h.cgNow ((List.mem_range.mp hg).trans_le (numCG_le _))
  have hchains : LoadKept K u s.resumeGroups.resumeChains := hgroups.foldl fun _ h => .ite h (.ite (h.same rfl) (h.same rfl))
  have hdacs : LoadKept K u s.resumeGroups.resumeChains.resumeDacs := hchains.foldl fun _ h => .ite (h.same rfl) h
  exact hdacs.foldl fun _ h => .ite h (h.same rfl)

/-- With no ring's words to deliver, a pump writes no register. -/
theorem pump (h : LoadKept K u s) (hn : s.noneArrived = true) : LoadKept K u s.pump := by
  rw [State.pump_of_noneArrived hn]
  have hparts : s.drainPorts.loadParts = s.loadParts := (congrArg State.loadParts s.portless_drainPorts :)
  have hregs : s.drainPorts.regs = s.regs := (congrArg State.regs s.portless_drainPorts :)
  exact h.trans ⟨hparts, fun q _ => State.f_congr hregs q 0 0, fun k _ _ =>
    ⟨State.word_congr hregs _, State.word_congr hregs _, s.marks_drainPorts k⟩⟩

theorem noneArrived (h : LoadKept K s t) (hn : s.noneArrived = true) : t.noneArrived = true := by
  have hrings : t.rings = s.rings := congrArg (fun p => p.2.2.2.1) h.parts
  rw [State.noneArrived, hrings]
  exact hn

end LoadKept

/-! ## The end of a full load -/

/-- Once step `k` of a fold has established `P`, no other step undoes it, `I` holding throughout. -/
theorem foldl_establishes {σ ι : Type} {f : σ → ι → σ} {I P : σ → Prop} {l : List ι} {k : ι}
    (hI : ∀ s, ∀ j ∈ l, I s → I (f s j)) (hP : ∀ s, I s → P (f s k)) (hkeep : ∀ s, ∀ j ∈ l, j ≠ k → P s → P (f s j))
    (hk : k ∈ l) {s : σ} (h : I s) : I (l.foldl f s) ∧ P (l.foldl f s) := by
  obtain ⟨l₁, l₂, rfl⟩ := List.append_of_mem hk
  have hfirst : I (l₁.foldl f s) :=
    List.foldlRecOn l₁ f h fun t ht j hj => hI t j (List.mem_append_left _ hj) ht
  rw [List.foldl_append, List.foldl_cons]
  refine List.foldlRecOn l₂ f (motive := fun t => I t ∧ P t) ⟨hI _ k hk hfirst, hP _ hfirst⟩ fun t ht j hj => ?_
  have hj' : j ∈ l₁ ++ k :: l₂ := List.mem_append_right _ (List.mem_cons_of_mem _ hj)
  refine ⟨hI t j hj' ht.1, ?_⟩
  by_cases hjk : j = k
  · rw [hjk]
    exact hP t ht.1
  · exact hkeep t j hj' hjk ht.2

/-- CBk runs as the stream `x` says (R339, R384). -/
structure CabRuns (x : Stream) (k : Nat) (s : State) : Prop where
  state : s.cbState k = 1
  clken : s.on Fld.FAB_CTL_CLKEN k = x.cbmask.testBit k
  secure : s.isSecure k = x.secmask.testBit k
  released : (s.cab k).released = true
  frames : (s.cab k).meas.frames = 768
  design : (s.cab k).meas.design = x.design

theorem CabRuns.congr {x : Stream} (h : CabRuns x k s) (hfab : t.word (Reg.FAB_CTL.addr k 0) = s.word (Reg.FAB_CTL.addr k 0))
    (hstate : t.word (Reg.SCRB_CB_STATE.addr k 0) = s.word (Reg.SCRB_CB_STATE.addr k 0))
    (hmarks : (t.cab k).marks = (s.cab k).marks) : CabRuns x k t where
  state := (congrArg (fun w : Word => w.bits 0 3) hstate).trans h.state
  clken := (congrArg (fun w : Word => w.bits 0 1 != 0) hfab).trans h.clken
  secure := (congrArg (fun w : Word => w.bits 8 1 != 0) hstate).trans h.secure
  released := (congrArg (fun m => m.1) hmarks).trans h.released
  frames := (congrArg (fun m => m.2.2.frames) hmarks).trans h.frames
  design := (congrArg (fun m => m.2.2.design) hmarks).trans h.design

theorem CabRuns.kept {K : Nat → Prop} {x : Stream} (h : CabRuns x k s) (e : LoadKept K s t) (hk : k < 24) (hK : K k) :
    CabRuns x k t := by
  obtain ⟨hfab, hstate, hmarks⟩ := e.cab k hk hK
  exact h.congr hfab hstate hmarks

/-- `s` with CBk's clock enable, state and marks as its release writes them. -/
def State.cabWritten (s : State) (k : Nat) (clken secure : Bool) : State :=
  ((s.setB Fld.FAB_CTL_CLKEN clken k).setCbState k 1).markCab k secure

theorem State.cabWritten_spec (s : State) (hk : k < 24) (clken secure : Bool) :
    (s.cabWritten k clken secure).cbState k = 1 ∧ (s.cabWritten k clken secure).on Fld.FAB_CTL_CLKEN k = clken ∧
      (s.cabWritten k clken secure).isSecure k = secure := by
  obtain ⟨hstate, -⟩ := cab_beside hk
  obtain ⟨hclaimState, hfabState, hfabClaim⟩ := claim_ne_state hk
  have hfab : Fld.FAB_CTL_CLKEN.addr k 0 ∉ [Reg.DEV_XSTAT.base, Reg.PGH_ALLOC.base, Reg.BUR_TAINT.base] := by
    simp only [FieldRef.addr, Fld.FAB_CTL_CLKEN, Reg.DEV_XSTAT, Reg.PGH_ALLOC, Reg.BUR_TAINT, List.mem_cons,
      List.not_mem_nil, or_false]
    omega
  have hclaim (u : State) (w : Word) {q : FieldRef} (hq : Reg.BUR_CLAIM.addr k 0 ≠ q.addr k 0) :
      (u.setWord (Reg.BUR_CLAIM.addr k 0) w).f q k = u.f q k := State.f_setWord_of_ne hq
  have hsec : Fld.SCRB_CB_STATE_SECURE.addr k 0 ≠ Fld.FAB_CTL_CLKEN.addr k 0 := hfabState.symm
  have hst : Fld.SCRB_CB_STATE_STATE.addr k 0 ≠ Fld.FAB_CTL_CLKEN.addr k 0 := hfabState.symm
  have hsame := ((s.setB Fld.FAB_CTL_CLKEN clken k).setCbState k 1).markCab_same k secure
  unfold State.cabWritten
  refine ⟨?_, ?_, (State.markCab_spec _ hk _).1⟩
  · rw [State.cbState, hsame.f_eq (q := Fld.SCRB_CB_STATE_STATE) hstate,
      hclaim _ _ (q := Fld.SCRB_CB_STATE_STATE) hclaimState, State.setB,
      State.f_setF_of_disjoint _ _ _ _ _ _ _ _ (by decide) (by decide), State.setCbState, State.f_setF _ _ _ _ _ (by decide)]
    rfl
  · rw [State.on, hsame.f_eq (q := Fld.FAB_CTL_CLKEN) hfab, hclaim _ _ (q := Fld.FAB_CTL_CLKEN) hfabClaim.symm, State.setB,
      State.f_setF_of_addr _ _ _ _ _ _ _ _ hsec, State.setCbState, State.f_setF_of_addr _ _ _ _ _ _ _ _ hst, State.setB,
      State.f_setF _ _ _ _ _ (by decide)]
    cases clken <;> rfl

/-- The release of a cabinet makes it run. -/
theorem State.releaseCab_runs (s : State) (hk : k < 24) : CabRuns s.stream k (s.releaseCab k) := by
  unfold State.releaseCab
  dsimp only
  generalize ((s.startCells k).flushBoundary k).clearCrossings k = n
  obtain ⟨hstate, hclken, hsecure⟩ := n.cabWritten_spec hk (s.stream.cbmask.testBit k) (s.stream.secmask.testBit k)
  unfold State.cabWritten at hstate hclken hsecure
  generalize ((n.setB Fld.FAB_CTL_CLKEN (s.stream.cbmask.testBit k) k).setCbState k 1).markCab k
    (s.stream.secmask.testBit k) = m at *
  refine ⟨hstate, hclken, hsecure, ?_, ?_, ?_⟩
  all_goals rw [State.cab_setCab, if_pos rfl]

/-- `s` with every present cabinet released (R363). -/
def State.cabsReleased (s : State) : State := (List.range s.part.numCB).foldl (fun s k => s.releaseCab k) s

theorem LoadKept.stream {K : Nat → Prop} (h : LoadKept K s t) : t.stream = s.stream := congrArg (·.1) h.parts

theorem LoadKept.checks {K : Nat → Prop} (h : LoadKept K s t) : t.checks = s.checks := congrArg (·.2.2.2.2) h.parts

theorem LoadKept.mono {K L : Nat → Prop} (h : LoadKept K s t) (hKL : ∀ k, L k → K k) : LoadKept L s t where
  parts := h.parts
  cfg := h.cfg
  cab k hk hL := h.cab k hk (hKL k hL)

/-- Each cabinet runs once all are released. -/
theorem State.cabsReleased_spec (s : State) (hk : k < s.part.numCB) :
    LoadKept (fun _ => False) s s.cabsReleased ∧ CabRuns s.stream k s.cabsReleased := by
  have hlt {j : Nat} (hj : j ∈ List.range s.part.numCB) : j < 24 := (List.mem_range.mp hj).trans_le (numCB_le _)
  refine foldl_establishes (fun t j hj h => h.trans (.mono (.releaseCab .refl (hlt hj)) fun _ => False.elim)) (fun t h => ?_)
    (fun t j hj hne h => h.kept (.releaseCab .refl (hlt hj)) (hlt (List.mem_range.mpr hk)) hne.symm)
    (List.mem_range.mpr hk) .refl
  rw [← h.stream]
  exact t.releaseCab_runs (hlt (List.mem_range.mpr hk))

theorem State.kept_cabsReleased (s : State) : Kept s s.cabsReleased :=
  Kept.refl.foldlMem fun _ h => h.releaseCab

/-- The I/O-enable step writes no register; it changes the DIO pins, the twin's switches and the monitors. -/
theorem State.enableIo_frame (s : State) : s.enableIo = { s with
    dio := { s.dio with ioOn := true }, twin := { s.twin with fenced := false, silent := false },
    monitors := s.enableIo.monitors } := by
  unfold State.enableIo
  refine List.foldlRecOn _ _ (motive := fun t : State => t = { s with
    dio := { s.dio with ioOn := true }, twin := { s.twin with fenced := false, silent := false }, monitors := t.monitors })
    rfl fun t ht n _ => ?_
  unfold State.wmHold
  split
  · rw [ht]
    rfl
  · exact ht

/-- `s` with what the end of its load says noted. -/
def State.timed (s : State) (mclk : Nat) : State := (s.setF Fld.CFG_STAT_PHASE 5).setF Fld.CFG_TIME (min mclk (2 ^ 32 - 1))

/-- `s` with DONE high and the time of Run's entry noted. -/
def State.withDone (s : State) : State :=
  { s with pins := { s.pins with done := true }, pwr := { s.pwr with lastRun := some s.lcs.time } }

/-- `s` in Run, with DONE high (R366). -/
def State.doneHigh (s : State) : State := (s.toMode .run 7).withDone

theorem State.finishLoad_eq (h : s.stream.deferred = []) (mclk : Nat) :
    s.finishLoad mclk = (s.cabsReleased.enableIo.timed mclk).dropStream.doneHigh.startConverting.pump := by
  have hdef : s.applyDeferred = s := by rw [State.applyDeferred, h, List.foldl_nil]
  unfold State.finishLoad State.doneHigh State.withDone State.timed State.cabsReleased
  dsimp only
  rw [hdef]

theorem State.withDone_regs (s : State) : s.withDone.regs = s.regs := rfl
theorem State.withDone_mode (s : State) : s.withDone.mode = s.mode := rfl
theorem State.withDone_cabs (s : State) : s.withDone.cabs = s.cabs := rfl
theorem State.withDone_frames (s : State) : s.withDone.frames = s.frames := rfl
theorem State.withDone_parts (s : State) : s.withDone.loadParts = (s.stream, true, s.dio, s.rings, s.checks) := rfl

theorem State.doneHigh_regs (s : State) : s.doneHigh.regs = (s.toMode .run 7).regs := State.withDone_regs _

theorem State.doneHigh_mode (s : State) : s.doneHigh.mode = .run := (State.withDone_mode _).trans (s.toMode_mode .run 7)

theorem State.doneHigh_cause (s : State) : s.doneHigh.f Fld.DEV_MODE_CAUSE = 7 :=
  (State.f_congr s.doneHigh_regs _ 0 0).trans (s.toMode_cause .run 7)

theorem State.doneHigh_same (s : State) : SameBut [Reg.DEV_MODE.base, Reg.SCRB_STAT.base] s s.doneHigh := fun a ha =>
  (State.word_congr s.doneHigh_regs a).trans (s.toMode_same .run 7 a ha)

theorem State.doneHigh_cab (s : State) (k : Nat) : s.doneHigh.cab k = s.cab k :=
  (State.cab_congr (State.withDone_cabs _) k).trans (s.toMode_cab .run 7 k)

theorem State.doneHigh_frames (s : State) : s.doneHigh.frames = s.frames :=
  (State.withDone_frames _).trans (s.toMode_frames .run 7).1

theorem State.doneHigh_parts (s : State) : s.doneHigh.loadParts = (s.stream, true, s.dio, s.rings, s.checks) := by
  have hframe : (s.toMode .run 7).loadParts = s.loadParts := by
    rw [State.toMode_frame, State.testEnded]
    rfl
  simp only [State.loadParts, Prod.mk.injEq] at hframe
  obtain ⟨hstream, -, hdio, hrings, hchecks⟩ := hframe
  rw [State.doneHigh, State.withDone_parts, hstream, hdio, hrings, hchecks]

/-- With no ring's words to deliver, a stream's end writes no register beside STRAY. -/
theorem State.dropStream_kept (h : s.noneArrived = true) : LoadKept (fun _ => True) s.cutStream s.dropStream := by
  have hrings : s.cutStream.rings = s.rings := by rw [State.cutStream, s.strayWords_writesOnly.frame]
  have hnone : s.cutStream.noneArrived = true := by rw [State.noneArrived, hrings]; exact h
  have hconnect : LoadKept (fun _ => True) s.cutStream (s.cutStream.connect feedCfg 0) := .ite .refl (.same .refl rfl)
  exact hconnect.pump (hconnect.noneArrived hnone)

theorem State.cutStream_parts (s : State) :
    s.cutStream.loadParts = ({ Stream.init with src := s.stream.src }, s.loadParts.2) := by
  rw [State.cutStream, s.strayWords_writesOnly.frame]
  rfl

theorem State.cutStream_cab (s : State) (k : Nat) : s.cutStream.cab k = s.cab k := by
  rw [State.cutStream, s.strayWords_writesOnly.frame]
  rfl

/-- What the end of a stream leaves where no ring has words to deliver. -/
theorem State.dropStream_quiet (h : s.noneArrived = true) :
    s.dropStream.loadParts = ({ Stream.init with src := s.stream.src }, s.loadParts.2) ∧
      (∀ k < 24, s.dropStream.word (Reg.FAB_CTL.addr k 0) = s.word (Reg.FAB_CTL.addr k 0) ∧
        s.dropStream.word (Reg.SCRB_CB_STATE.addr k 0) = s.word (Reg.SCRB_CB_STATE.addr k 0) ∧
        (s.dropStream.cab k).marks = (s.cab k).marks) := by
  obtain ⟨hparts, -, hcab⟩ := State.dropStream_kept h
  refine ⟨hparts.trans s.cutStream_parts, fun k hk => ?_⟩
  obtain ⟨hfab, hstate, hmarks⟩ := hcab k hk trivial
  refine ⟨hfab.trans (s.cutStream_same _ ?_), hstate.trans (s.cutStream_same _ ?_), hmarks.trans ?_⟩
  · simp only [FieldRef.addr, Reg.FAB_CTL, Reg.CFG_STAT, List.mem_singleton]
    omega
  · simp only [FieldRef.addr, Reg.SCRB_CB_STATE, Reg.CFG_STAT, List.mem_singleton]
    omega
  · rw [s.cutStream_cab]

/-- What shows of a full load that is over, and what its end leaves. -/
structure LoadOver (mclk : Nat) (s t : State) : Prop where
  mode : t.mode = .run
  cause : t.f Fld.DEV_MODE_CAUSE = 7
  phase : t.f Fld.CFG_STAT_PHASE = 5
  time : t.f Fld.CFG_TIME = min mclk (2 ^ 32 - 1)
  tmo : t.f Fld.CFG_STAT_REF_TMO = s.f Fld.CFG_STAT_REF_TMO
  parts : t.loadParts = ({ Stream.init with src := s.stream.src }, true, s.loadParts.2.2)
  frames : t.frames = s.frames
  cab : ∀ k < 24, t.word (Reg.FAB_CTL.addr k 0) = s.word (Reg.FAB_CTL.addr k 0) ∧
    t.word (Reg.SCRB_CB_STATE.addr k 0) = s.word (Reg.SCRB_CB_STATE.addr k 0) ∧ (t.cab k).marks = (s.cab k).marks

theorem State.doneHigh_over (h : s.noneArrived = true) (mclk : Nat) : LoadOver mclk s (s.timed mclk).dropStream.doneHigh := by
  have hword (a : Nat) (h1 : a ≠ Reg.CFG_STAT.base) (h2 : a ≠ Reg.CFG_TIME.base) : (s.timed mclk).word a = s.word a := by
    have hphase : Fld.CFG_STAT_PHASE.addr 0 0 ≠ a := h1.symm
    have htime : Fld.CFG_TIME.addr 0 0 ≠ a := h2.symm
    rw [State.timed, State.word_setF, if_neg htime, State.word_setF, if_neg hphase]
  have hphase : (s.timed mclk).f Fld.CFG_STAT_PHASE = 5 := by
    rw [State.timed, State.f_setF_of_beside _ (by decide), State.f_setF _ _ _ _ _ (by decide)]
    rfl
  have htime : (s.timed mclk).f Fld.CFG_TIME = min mclk (2 ^ 32 - 1) := by
    rw [State.timed, State.f_setF _ _ _ _ _ (by decide)]
    exact Nat.mod_eq_of_lt (by simp only [Fld.CFG_TIME]; omega)
  have htmo : (s.timed mclk).f Fld.CFG_STAT_REF_TMO = s.f Fld.CFG_STAT_REF_TMO := by
    rw [State.timed, State.f_setF_of_beside _ (by decide), State.f_setF_of_beside _ (by decide)]
  have hframes : (s.timed mclk).frames = s.frames := rfl
  have hstart : (s.timed mclk).loadParts = s.loadParts := rfl
  have hsrc : (s.timed mclk).stream.src = s.stream.src := rfl
  have hcabs (k : Nat) : (s.timed mclk).cab k = s.cab k := rfl
  have hnone : (s.timed mclk).noneArrived = true := h
  generalize s.timed mclk = n at *
  obtain ⟨hparts, hcab⟩ := State.dropStream_quiet hnone
  have hdrop {q : FieldRef} (h1 : Fld.CFG_STAT_STRAY.beside q = true) (h2 : q.addr 0 0 < Reg.DMA_CFG.base) :
      n.dropStream.f q = n.f q := State.f_dropStream h1 h2
  have hdropFrames : n.dropStream.frames = n.frames := (Kept.refl (s := n)).dropStream.frames
  have hphase' := (hdrop (by decide) (by decide)).trans hphase
  have htime' := (hdrop (by decide) (by decide)).trans htime
  have htmo' := (hdrop (by decide) (by decide)).trans htmo
  generalize n.dropStream = m at *
  refine ⟨m.doneHigh_mode, m.doneHigh_cause, (m.doneHigh_same.f_eq (by decide)).trans hphase',
    (m.doneHigh_same.f_eq (by decide)).trans htime', (m.doneHigh_same.f_eq (by decide)).trans htmo', ?_,
    m.doneHigh_frames.trans (hdropFrames.trans hframes), fun k hk => ?_⟩
  · rw [m.doneHigh_parts]
    rw [hstart, hsrc] at hparts
    simp only [State.loadParts, Prod.mk.injEq] at hparts ⊢
    obtain ⟨hstream, -, hrest⟩ := hparts
    exact ⟨hstream, trivial, hrest⟩
  · obtain ⟨-, -, hfabOff, hstateOff, -⟩ := cab_beside hk
    obtain ⟨hfab, hstate, hmarks⟩ := hcab k hk
    rw [m.doneHigh_same _ hfabOff, m.doneHigh_same _ hstateOff, m.doneHigh_cab, hfab, hstate, hmarks, hcabs]
    refine ⟨hword _ ?_ ?_, hword _ ?_ ?_, rfl⟩
    all_goals
      simp only [FieldRef.addr, Reg.FAB_CTL, Reg.SCRB_CB_STATE, Reg.CFG_STAT, Reg.CFG_TIME]
      omega

/-- What the return to Run with its converters keeps of a load that is over. -/
theorem LoadOver.converting {mclk : Nat} (h : LoadOver mclk s t) (hn : s.noneArrived = true) :
    LoadOver mclk s t.startConverting.pump := by
  have hkept : Kept t t.startConverting.pump := Kept.refl.startConverting.pump
  have hnone : t.noneArrived = true := by
    have hrings : t.rings = s.rings := congrArg (fun p => p.2.2.2.1) h.parts
    rw [State.noneArrived, hrings]
    exact hn
  have hstart : LoadKept (fun _ => True) t t.startConverting := LoadKept.refl.startConverting
  have hload : LoadKept (fun _ => True) t t.startConverting.pump := hstart.pump (hstart.noneArrived hnone)
  generalize t.startConverting.pump = u at *
  refine ⟨hkept.mode.trans h.mode, (hkept.fields _ (by decide)).trans h.cause, (hkept.fields _ (by decide)).trans h.phase,
    (hload.cfg _ (by decide)).trans h.time, (hload.cfg _ (by decide)).trans h.tmo, hload.parts.trans h.parts,
    hkept.frames.trans h.frames, fun k hk => ?_⟩
  obtain ⟨hfab, hstate, hmarks⟩ := h.cab k hk
  obtain ⟨hfab', hstate', hmarks'⟩ := hload.cab k hk trivial
  exact ⟨hfab'.trans hfab, hstate'.trans hstate, hmarks'.trans hmarks⟩

/-- What shows of a full load that has ended (R363, R366). -/
theorem State.finishLoad_spec (s : State) (mclk : Nat) (hk : k < s.part.numCB) (hdef : s.stream.deferred = [])
    (hn : s.noneArrived = true) (ht : t = s.finishLoad mclk) :
    t.mode = .run ∧ t.f Fld.DEV_MODE_CAUSE = 7 ∧ t.f Fld.CFG_STAT_PHASE = 5 ∧
      t.on Fld.CFG_STAT_REF_TMO = s.on Fld.CFG_STAT_REF_TMO ∧ t.f Fld.CFG_TIME = min mclk (2 ^ 32 - 1) ∧
      t.pins.done = true ∧ t.dio.ioOn = true ∧ CabRuns s.stream k t ∧ t.stream.active = false ∧ t.frames = s.frames ∧
      t.checks = s.checks := by
  obtain ⟨hkept, hruns⟩ := s.cabsReleased_spec hk
  have hframes := s.kept_cabsReleased.frames
  have hk24 : k < 24 := hk.trans_le (numCB_le _)
  rw [ht, State.finishLoad_eq hdef]
  generalize s.cabsReleased = r at *
  have hnone := hkept.noneArrived hn
  have hio := r.enableIo_frame
  have hioParts : r.enableIo.loadParts = (r.stream, r.pins.done, { r.dio with ioOn := true }, r.rings, r.checks) := by
    rw [hio]
    rfl
  have hioRegs : r.enableIo.regs = r.regs := by rw [hio]
  have hioCab : r.enableIo.cab k = r.cab k := State.cab_congr (by rw [hio]) k
  have hioFrames : r.enableIo.frames = r.frames := by rw [hio]
  have hioRings : r.enableIo.rings = r.rings := by rw [hio]
  have hioNone : r.enableIo.noneArrived = true := by rw [State.noneArrived, hioRings]; exact hnone
  have hover := (State.doneHigh_over hioNone mclk).converting hioNone
  generalize (r.enableIo.timed mclk).dropStream.doneHigh.startConverting.pump = u at *
  generalize r.enableIo = e at *
  obtain ⟨hfab, hstate, hmarks⟩ := hover.cab k hk24
  have hparts := hover.parts
  have hchecks : r.checks = s.checks := hkept.checks
  rw [hioParts] at hparts
  simp only [State.loadParts, Prod.mk.injEq] at hparts
  obtain ⟨hstream, hdone, hdio, -, hload⟩ := hparts
  refine ⟨hover.mode, hover.cause, hover.phase, ?_, hover.time, hdone, congrArg Dio.ioOn hdio, ?_,
    congrArg Stream.active hstream, hover.frames.trans (hioFrames.trans hframes), hload.trans hchecks⟩
  · rw [State.on, hover.tmo, State.f_congr hioRegs, hkept.cfg _ (by decide), State.on]
  · exact hruns.congr (hfab.trans (State.word_congr hioRegs _)) (hstate.trans (State.word_congr hioRegs _))
      (hmarks.trans (congrArg Cabinet.marks hioCab))

theorem State.flag_tables (s : State) (r : FieldRef) :
    (s.flag r).stream = s.stream ∧ (s.flag r).part = s.part ∧ (s.flag r).rings = s.rings := ⟨rfl, rfl, rfl⟩

theorem execReferenceWait_eq (hm : s.mode = .wakeUp) (h : s.stream.refwait = false ∨ s.allSettled = true) (mclk : Nat) :
    exec (.referenceWait mclk) s = .next (s.finishLoad mclk) :=
  congrArg Host.Outcome.next (if_pos ⟨hm, by rcases h with h | h <;> simp [h]⟩)

section
variable (hm : s.mode = .wakeUp) (hwait : s.stream.refwait = true) (hset : s.allSettled = false)
include hwait hset

theorem execReferenceWait_of_waiting (mclk : Nat) : exec (.referenceWait mclk) s = .next s :=
  congrArg Host.Outcome.next (if_neg fun h => by simp [hwait, hset] at h)

include hm

theorem execRefTmo_eq (mclk : Nat) : exec (.refTmo mclk) s = .next ((s.flag Fld.CFG_STAT_REF_TMO).finishLoad mclk) :=
  congrArg Host.Outcome.next (if_pos ⟨hm, hwait, by simp [hset]⟩)

end

theorem State.verifyLoad_of_corrupt (hcrc : s.stream.crc ^^^ 0xFFFFFFFF ≠ s.stream.crcEnd) :
    s.verifyLoad = s.loadFail 0x10 (s.f Fld.CFG_WORDS) :=
  if_pos hcrc

/-- The position of a failure is a word count, which its register holds. -/
theorem State.words_mod (s : State) : s.f Fld.CFG_WORDS % 2 ^ 32 = s.f Fld.CFG_WORDS ∧
    s.f Fld.SCRB_RLD_WORDS % 2 ^ 32 = s.f Fld.SCRB_RLD_WORDS :=
  ⟨Nat.mod_eq_of_lt (Word.bits_lt ..), Nat.mod_eq_of_lt (Word.bits_lt ..)⟩

theorem execTwinStreamWord_eq (hpart : s.part.isTwin = true) (hm : s.mode = .load) (ha : s.stream.active = true)
    (hsrc : s.stream.src = 3) (w : Word) :
    exec (.twinStreamWord w) s = .next (s.setStream { s.stream with waiting := s.stream.waiting ++ [w] }) :=
  congrArg Host.Outcome.next (if_pos ⟨hpart, ha, hsrc, hm⟩)

theorem execRegionStreamStart_eq (hkind : s.stream.kind = .region k) (ha : s.stream.active = true) :
    exec .regionStreamStart s = .next (s.setStream { s.stream with gate := true }) := by
  refine congrArg Host.Outcome.next ?_
  rw [hkind]
  exact if_pos ha

end

/-- Settles O43: each clause follows from what its command answers there and what shows of the state that it answers. -/
theorem loadsAreVerifiedAndFinished : Obligations.LoadsAreVerifiedAndFinished := by
  refine ⟨fun s ws hf hm ha hsrc => ⟨_, execBar4Write_eq hf _, ?_⟩, fun s ws hf hshut hws => ⟨_, execBar4Write_eq hf _, ?_⟩,
    fun s w hf hm ha hsrc => ⟨_, execBar4Write_eq hf _, ?_⟩,
    fun s w hpart hm ha hsrc => ⟨_, execTwinStreamWord_eq hpart hm ha hsrc w, rfl⟩,
    fun s hm _ hcrc => ⟨_, execVerify_eq hm, ?_⟩, fun s hm _ hcrc hnext => ⟨_, execVerify_eq hm, ?_⟩,
    fun s hm hrun hcrc hnext hsig hreq => ⟨_, execVerify_eq hm, ?_⟩,
    fun s hm hrun hcrc hnext hpol hpass => ⟨_, execVerify_eq hm, ?_⟩,
    fun s hm hrun hcrc hnext hpol hpass => ⟨_, execVerify_eq hm, ?_⟩,
    fun s mclk k hm hready hk _ hdef hn => ⟨_, execReferenceWait_eq hm hready mclk, ?_⟩,
    fun s mclk k hm hwait hset hk _ hdef hn => ⟨_, execRefTmo_eq hm hwait hset mclk, ?_⟩,
    fun s mclk hm hwait hset => ⟨s, execReferenceWait_of_waiting hwait hset mclk, rfl⟩,
    fun s k hkind ha => ⟨_, execRegionStreamStart_eq hkind ha, rfl⟩,
    fun s k hk hkind hend hrun hcrc hnext hpol hgood => ⟨_, execRegionVerify_eq hkind hend hrun, ?_⟩,
    fun s k hk hkind hend hrun hcrc hnext hpol hsec hsig => ⟨_, execRegionVerify_eq hkind hend hrun, ?_⟩⟩
  case refine_1 =>
    rw [State.bar4_of_open hm ha hsrc, filter_enabled, List.length_map]
    simp [State.flagIf, State.setStream]
  case refine_2 =>
    rw [State.bar4_of_shut hshut hws]
    exact ⟨rfl, State.on_flag _ (by decide) (by decide) _ _⟩
  case refine_3 =>
    rw [State.bar4_of_open hm ha hsrc]
    simp [State.flagIf, State.setStream]
  case refine_4 =>
    rw [State.verifyLoad_of_corrupt hcrc]
    obtain ⟨hmode, hreason, hpos, hstatus⟩ := s.loadFail_spec 0x10 (s.f Fld.CFG_WORDS)
    exact ⟨hmode, hreason, hpos.trans s.words_mod.1, hstatus⟩
  case refine_5 =>
    rw [State.verifyLoad_of_missing hcrc hnext]
    obtain ⟨hmode, hreason, hpos, hstatus⟩ := s.loadFail_spec 0x11 (s.f Fld.CFG_WORDS)
    exact ⟨hmode, hreason, hpos.trans s.words_mod.1, hstatus⟩
  case refine_6 =>
    rw [State.verifyLoad_of_unsigned hcrc hrun hnext (State.policyMet_of_unsigned hsig hreq)]
    obtain ⟨hmode, hreason, -, hstatus⟩ := s.loadFail_spec 0x14 (s.f Fld.CFG_WORDS)
    exact ⟨hmode, hreason, hstatus⟩
  case refine_7 =>
    generalize ht : s.verifyLoad = t
    rw [State.verifyLoad_of_met hcrc hrun hnext hpol, if_pos hpass] at ht
    exact State.enterWakeUp_spec s hm ht.symm
  case refine_8 =>
    rw [State.verifyLoad_of_met hcrc hrun hnext hpol, if_neg (Bool.eq_false_iff.mp hpass)]
    obtain ⟨hmode, hreason, -, hstatus⟩ := s.census.loadFail_spec 0x15 (s.f Fld.CFG_WORDS)
    exact ⟨hmode, hreason, hstatus⟩
  case refine_9 =>
    generalize ht : s.finishLoad mclk = t
    obtain ⟨hmode, hcause, hphase, htmo, htime, hdone, hio, hruns, hactive, hframes, hchecks⟩ :=
      State.finishLoad_spec s mclk hk hdef hn ht.symm
    exact ⟨hmode, hcause, hphase, htmo, htime, hdone, hio, hruns.state, hruns.clken, hruns.secure, hruns.released,
      hruns.frames, hruns.design, hactive, hframes, hchecks⟩
  case refine_10 =>
    have hflag := State.on_flag s (r := Fld.CFG_STAT_REF_TMO) (by decide) (by decide) 0 0
    have hflagged := s.flag_tables Fld.CFG_STAT_REF_TMO
    generalize s.flag Fld.CFG_STAT_REF_TMO = n at *
    obtain ⟨hstream, hpart, hrings⟩ := hflagged
    generalize ht : n.finishLoad mclk = t
    obtain ⟨hmode, -, hphase, htmo, -, hdone, hio, hruns, -⟩ :=
      State.finishLoad_spec n mclk (hpart ▸ hk) (hstream ▸ hdef) (by rw [State.noneArrived, hrings]; exact hn) ht.symm
    rw [hstream] at hruns
    exact ⟨hmode, htmo.trans hflag, hphase, hdone, hio, hruns.state, hruns.clken, hruns.released⟩
  case refine_11 =>
    generalize ht : s.verifyRegion k = t
    rw [State.verifyRegion_of_good hcrc hnext hpol hgood] at ht
    exact State.regionLoads_spec s hk ht.symm
  case refine_12 =>
    rw [State.verifyRegion_of_unsigned hcrc hnext hpol (.inl hsec) hsig]
    obtain ⟨hstate, hreason, hstatus, hpos, hirq, hmeas⟩ := s.regionFail_spec hk 0x22 (s.f Fld.SCRB_RLD_WORDS) 6
    exact ⟨hstate, hreason, hstatus, hpos.trans s.words_mod.2, hirq, hmeas⟩

end Sys2Proof.Machine
end

/-!
# No word is lost (O5)

`CgCore.Balanced` is the balance of R137. Each operation of the sequencer keeps it, and so each change of a group does; of the
functions of the model `State.Balanced.f` says that they keep it for every group, in the order of the model's files. Groups are
all that `State.Balanced` speaks of: where a function changes only other parts, `⟨h.groups⟩` proves it.
-/

section
namespace Sys2Proof.Machine

/-! ## Entries of a table -/

theorem Tab.mem_put {α : Type} [DecidableEq α] {d : Nat → α} {t : Tab α} {k : Nat} {v : α} {e : Nat × α}
    (h : e ∈ t.put d k v) : e = (k, v) ∨ e ∈ t := by
  unfold Tab.put at h
  split at h
  · exact .inr (List.mem_of_mem_filter h)
  · exact Tab.mem_ins h

/-- What is read is listed or the default. -/
theorem Tab.get_mem_or {α : Type} (d : Nat → α) (t : Tab α) (k : Nat) : (k, Tab.get d t k) ∈ t ∨ Tab.get d t k = d k := by
  induction t with
  | nil => exact .inr rfl
  | cons e t ih =>
    obtain ⟨a, v⟩ := e
    rw [Tab.get_cons]
    split
    · next ha =>
      subst ha
      exact .inl List.mem_cons_self
    · exact ih.imp_left (List.mem_cons_of_mem _)

/-! ## The core -/

/-- The word counts balance (R137). -/
def CgCore.Balanced (c : CgCore) : Prop := c.conv = c.emit + c.sdisc + c.pdisc + 4 * c.held.length

theorem CgCore.balanced_iff {c : CgCore} : c.balanced = true ↔ c.Balanced := beq_iff_eq

namespace CgCore.Balanced

variable {c : CgCore} {f : SeqCfg}

theorem ite {p : Prop} [Decidable p] {d : CgCore} (hc : c.Balanced) (hd : d.Balanced) : (if p then c else d).Balanced := by
  split <;> assumption

theorem start (h : c.Balanced) : (c.start f).Balanced := h

/-- The beats of the partial dwell move from HELD to PDISC. -/
theorem interrupt (h : c.Balanced) : c.interrupt.Balanced := by
  have hsplit := interrupt_words c
  change c.conv = c.emit + c.sdisc + c.interrupt.pdisc + 4 * c.interrupt.held.length
  unfold CgCore.Balanced at h
  omega

theorem settleFate (h : c.Balanced) : c.settleFate.Balanced := by
  rw [CgCore.Balanced, CgCore.settleFate, List.length_map]
  exact h

theorem complete (h : c.Balanced) : (c.complete f).Balanced := .ite h h

theorem advance (h : c.Balanced) : (c.advance f).Balanced := by
  unfold CgCore.advance
  dsimp only
  split
  · exact .ite h h
  · exact .ite h h
  · exact .ite h h
  · exact .ite (.ite h h) h
  · exact h

theorem stop (h : c.Balanced) : c.stop.Balanced := h.interrupt

theorem go (h : c.Balanced) : (c.go f).Balanced := .ite (.ite h (.ite h h)) h

theorem seqStart (h : c.Balanced) : (c.seqStart f).Balanced := by
  unfold CgCore.seqStart
  split
  · exact .ite h h
  · exact .ite h.interrupt h
  · exact .ite h.interrupt h
  · exact .ite h h
  · exact .ite h h
  · exact h

theorem urgent (h : c.Balanced) : c.urgent.Balanced := by
  unfold CgCore.urgent
  split
  · exact h.interrupt
  · exact h.interrupt
  · exact h

theorem apply {r : CgReqs} (h : c.Balanced) : (c.apply f r).Balanced := by
  unfold CgCore.apply
  extract_lets c1 c2 c3 c4
  have h1 : c1.Balanced := h.advance
  have h2 : c2.Balanced := .ite h1.stop h1
  have h3 : c3.Balanced := .ite h2.go h2
  have h4 : c4.Balanced := .ite h3.seqStart h3
  exact .ite h4.urgent h4

theorem pause (h : c.Balanced) : (c.pause f).Balanced := by
  unfold CgCore.pause
  extract_lets d go
  have hd : d.Balanced := h.advance
  split
  · exact hd.interrupt
  · exact hd.interrupt
  · exact hd.interrupt
  · exact hd.interrupt
  · exact hd

theorem resume (h : c.Balanced) : (c.resume f).Balanced := .ite (.ite h h) h

/-- Every held beat moves from HELD to PDISC. -/
theorem discardAll (h : c.Balanced) : c.discardAll.Balanced := by
  change c.conv = c.emit + c.sdisc + (c.pdisc + 4 * c.held.length) + 4 * 0
  unfold CgCore.Balanced at h
  omega

theorem clear (h : c.Balanced) : (c.clear f).Balanced := h.advance.stop.discardAll

theorem enter (h : c.Balanced) : (c.enter f).Balanced := .ite h h

/-- A settle beat counts as converted and as discarded. -/
theorem takeSettle {n : Nat} (h : c.Balanced) : (c.takeSettle f n).Balanced := by
  have h1 : ({ c with conv := c.conv + 4, sdisc := c.sdisc + 4, marksLost := c.marksLost + n } : CgCore).Balanced := by
    unfold CgCore.Balanced at h ⊢
    dsimp only
    omega
  exact .ite h1 h1.complete

/-- A dwell beat counts as converted and joins the delay line. -/
theorem takeDwell {b : HeldBeat} (h : c.Balanced) : (c.takeDwell f b).Balanced := by
  have h1 : ({ c with conv := c.conv + 4, held := c.held ++ [b] } : CgCore).Balanced := by
    unfold CgCore.Balanced at h ⊢
    rw [List.length_append, List.length_singleton]
    dsimp only
    omega
  unfold CgCore.takeDwell
  dsimp only
  split
  · exact h1.settleFate
  · exact .ite h1.complete.settleFate h1

/-- An emitted beat moves from HELD to EMIT. -/
theorem release (h : c.Balanced) : c.release.Balanced := by
  unfold CgCore.release
  split
  · next hheld =>
    unfold CgCore.Balanced at h ⊢
    rw [hheld, List.length_cons] at h
    dsimp only
    omega
  · exact h

end CgCore.Balanced

/-! ## The group -/

/-- The group balances, as it stands and as the events of the present SCLK cycle found it. -/
structure Group.Balanced (x : Group) : Prop where
  core : x.core.Balanced
  base : ∀ c, x.base = some c → c.Balanced

namespace Group.Balanced

variable {x : Group}

theorem getD (h : x.Balanced) : (x.base.getD x.core).Balanced := by
  cases hb : x.base with
  | none => exact h.core
  | some c => exact h.base c hb

theorem ofCore {x : Group} (h : x.core.Balanced) (hb : x.base = none) : x.Balanced :=
  ⟨h, fun _ hc => by rw [hb] at hc; cases hc⟩

/-- The same change of the group as it stands and as it was found. -/
theorem map {k : CgCore → CgCore} (h : x.Balanced) (hk : ∀ c : CgCore, c.Balanced → (k c).Balanced) :
    Group.Balanced { x with core := k x.core, base := x.base.map k } := by
  refine ⟨hk _ h.core, fun c hc => ?_⟩
  obtain ⟨d, hd, rfl⟩ := Option.map_eq_some_iff.mp hc
  exact hk d (h.base d hd)

/-- MARK rewrites held beats, or counts as lost (R139). -/
theorem markEdge {e : Nat} (h : x.Balanced) : (x.markEdge e).Balanced := by
  unfold Group.markEdge
  extract_lets put
  split
  · split
    · exact h
    · exact ⟨h.core, h.base⟩
  · refine h.map fun c hc => ?_
    simp only [put]
    split
    · rw [CgCore.Balanced, List.length_map]
      exact hc
    · exact hc

end Group.Balanced

/-! ## The state -/

/-- Every group balances. -/
structure State.Balanced (s : State) : Prop where
  groups : ∀ e ∈ s.groups, e.2.Balanced

theorem State.balanced_iff {s : State} : s.balanced = true ↔ s.Balanced := by
  simp only [State.balanced, List.all_eq_true, Bool.and_eq_true, CgCore.balanced_iff, Option.all_eq_true]
  exact ⟨fun h => ⟨fun e he => ⟨(h e he).1, (h e he).2⟩⟩, fun h e he => ⟨(h.groups e he).core, (h.groups e he).base⟩⟩

/-- Where a command answers a next state, it balances. -/
def OutBalanced (o : Out) : Prop := ∀ t, o = .next t → t.Balanced

variable {s : State}

theorem State.Balanced.group {g : Nat} (h : s.Balanced) : (s.group g).Balanced := by
  rcases Tab.get_mem_or (fun _ => Group.init) s.groups g with hm | hd
  · exact h.groups _ hm
  · rw [State.group, hd]
    exact .ofCore rfl rfl

theorem State.Balanced.setGroup {g : Nat} {x : Group} (h : s.Balanced) (hx : x.Balanced) : (s.setGroup g x).Balanced := by
  refine ⟨fun e he => ?_⟩
  rcases Tab.mem_put (d := fun _ => Group.init) he with rfl | he
  · exact hx
  · exact h.groups e he

/-- A change of the group that leaves its core alone, and the core that the present SCLK cycle found. -/
theorem State.Balanced.setRest {g : Nat} {x : Group} (h : s.Balanced) (hcore : x.core = (s.group g).core)
    (hbase : x.base = (s.group g).base) : (s.setGroup g x).Balanced :=
  h.setGroup ⟨hcore ▸ h.group.core, hbase ▸ h.group.base⟩

theorem State.Balanced.ite {c : Prop} [Decidable c] {t u : State} (ht : t.Balanced) (hu : u.Balanced) :
    (if c then t else u).Balanced := by
  split
  · exact ht
  · exact hu

theorem State.Balanced.foldl {β : Type} {f : State → β → State} {l : List β} (h : s.Balanced)
    (hf : ∀ {t b}, t.Balanced → (f t b).Balanced) : (l.foldl f s).Balanced := by
  induction l generalizing s with
  | nil => exact h
  | cons b l ih => exact ih (hf h)

theorem State.Balanced.reset : State.reset.Balanced :=
  ⟨fun _ he => nomatch he⟩

/-! ## Outcomes -/

theorem OutBalanced.next {t : State} (h : t.Balanced) : OutBalanced (.next t) := by
  rintro _ ⟨⟩
  exact h

theorem OutBalanced.fault {r : Fault} : OutBalanced (.fault r) := by
  rintro _ ⟨⟩

theorem OutBalanced.ite {c : Prop} [Decidable c] {o p : Out} (ho : OutBalanced o) (hp : OutBalanced p) :
    OutBalanced (if c then o else p) := by
  split
  · exact ho
  · exact hp

theorem OutBalanced.inst {n bound k} (hk : OutBalanced k) : OutBalanced (onInst n bound k) := .ite hk .fault

theorem OutBalanced.present {n count bound k} (h : s.Balanced) (hk : OutBalanced k) :
    OutBalanced (ifPresent n count bound s k) :=
  .inst (.ite hk (.next h))

theorem State.Balanced.counted (h : s.Balanced) : s.counted.Balanced := .ite ⟨h.groups⟩ h

theorem OutBalanced.readPresent {n count bound k} (h : s.Balanced) (hk : OutBalanced k) :
    OutBalanced (readPresent n count bound s k) :=
  .inst (.ite hk (.next ⟨h.groups⟩))

theorem OutBalanced.hostRow {o : Out} (ho : OutBalanced o) : OutBalanced (hostRow o) := by
  cases o with
  | next t => exact .next (ho t rfl).counted
  | fault r => exact .fault
  | refused r => rintro _ ⟨⟩

namespace State.Balanced

/-! A part that holds no group may take any value. -/

theorem withFreeCount {x} (h : s.Balanced) : ({ s with freeCount := x } : State).Balanced := ⟨h.groups⟩
theorem withReadData {x} (h : s.Balanced) : ({ s with readData := x } : State).Balanced := ⟨h.groups⟩
theorem withLcs {x} (h : s.Balanced) : ({ s with lcs := x } : State).Balanced := ⟨h.groups⟩
theorem withCal {x} (h : s.Balanced) : ({ s with cal := x } : State).Balanced := ⟨h.groups⟩
theorem withDio {x} (h : s.Balanced) : ({ s with dio := x } : State).Balanced := ⟨h.groups⟩
theorem withStream {x} (h : s.Balanced) : ({ s with stream := x } : State).Balanced := ⟨h.groups⟩
theorem withScrub {x} (h : s.Balanced) : ({ s with scrub := x } : State).Balanced := ⟨h.groups⟩
theorem withVoted {x} (h : s.Balanced) : ({ s with voted := x } : State).Balanced := ⟨h.groups⟩
theorem withPins {x} (h : s.Balanced) : ({ s with pins := x } : State).Balanced := ⟨h.groups⟩
theorem withHost {x} (h : s.Balanced) : ({ s with host := x } : State).Balanced := ⟨h.groups⟩
theorem withBur {x} (h : s.Balanced) : ({ s with bur := x } : State).Balanced := ⟨h.groups⟩
theorem withPwr {x} (h : s.Balanced) : ({ s with pwr := x } : State).Balanced := ⟨h.groups⟩
theorem withTwin {x} (h : s.Balanced) : ({ s with twin := x } : State).Balanced := ⟨h.groups⟩
theorem withArb {x} (h : s.Balanced) : ({ s with arb := x } : State).Balanced := ⟨h.groups⟩

theorem foldlFst {α β : Type} {f : State × α → β → State × α} {l : List β} {a : State × α} (h : a.1.Balanced)
    (hf : ∀ {t b}, t.1.Balanced → (f t b).1.Balanced) : (l.foldl f a).1.Balanced := by
  induction l generalizing a with
  | nil => exact h
  | cons b l ih => exact ih (hf h)

/-! ### Machine/Ops -/

theorem setWord {a w} (h : s.Balanced) : (s.setWord a w).Balanced := ⟨h.groups⟩
theorem setF {r v i j} (h : s.Balanced) : (s.setF r v i j).Balanced := h.setWord
theorem setB {r b i j} (h : s.Balanced) : (s.setB r b i j).Balanced := h.setF
theorem flag {r i j} (h : s.Balanced) : (s.flag r i j).Balanced := h.setF
theorem flagIf {b r i j} (h : s.Balanced) : (s.flagIf b r i j).Balanced := .ite h.flag h
theorem addSat {r n i j} (h : s.Balanced) : (s.addSat r n i j).Balanced := h.setF
theorem addWrap {r n i j} (h : s.Balanced) : (s.addWrap r n i j).Balanced := h.setF
theorem setBit {r k i j} (h : s.Balanced) : (s.setBit r k i j).Balanced := h.setF
theorem setPair {lo hi v i j} (h : s.Balanced) : (s.setPair lo hi v i j).Balanced := h.setF.setF

/-! ### Machine/Longcase -/

theorem setTrk {n t} (h : s.Balanced) : (s.setTrk n t).Balanced := h.withLcs
theorem setAlarm {n a} (h : s.Balanced) : (s.setAlarm n a).Balanced := h.withLcs
theorem setTimer {n t} (h : s.Balanced) : (s.setTimer n t).Balanced := h.withLcs
theorem setCapture {n l} (h : s.Balanced) : (s.setCapture n l).Balanced := h.withLcs
theorem atTick {t} (h : s.Balanced) : (s.atTick t).Balanced := h.withLcs
theorem stopWrite {a} (h : s.Balanced) : (s.stopWrite a).Balanced := h.flag.setF.setF.setF

theorem writeIn {runs a k} (h : s.Balanced) (hk : ∀ {t}, t.Balanced → (k t).Balanced) : (s.writeIn runs a k).Balanced :=
  .ite (hk h) h.stopWrite

theorem lcsWrite {a k} (h : s.Balanced) (hk : ∀ {t}, t.Balanced → (k t).Balanced) : (s.lcsWrite a k).Balanced := h.writeIn hk

theorem sclkWrite {g a k} (h : s.Balanced) (hk : ∀ {t}, t.Balanced → (k t).Balanced) : (s.sclkWrite g a k).Balanced :=
  h.writeIn hk

theorem smpStamp {stamp} (h : s.Balanced) : (s.smpStamp stamp).Balanced := .ite h.withLcs h
theorem smpLost (h : s.Balanced) : s.smpLost.Balanced := h.withLcs
theorem putTrk {n t} (h : s.Balanced) : (s.putTrk n t).Balanced := .ite h.setTrk h.setTrk.setBit

theorem processEdge {n} (h : s.Balanced) : (s.processEdge n).Balanced := by
  unfold State.processEdge
  dsimp only
  split
  · exact h
  · exact h.atTick.putTrk.addSat.addSat.addSat

theorem keepEdge {n stamp tick rev} (h : s.Balanced) : (s.keepEdge n stamp tick rev).Balanced := .ite h.addSat h.setTrk

theorem undoQuad {m} (h : s.Balanced) : (s.undoQuad m).Balanced := by
  unfold State.undoQuad
  dsimp only
  split
  · exact h
  · exact h.setTrk.setF

theorem quadOne {n stamp tick rise} (h : s.Balanced) : (s.quadOne n stamp tick rise).Balanced :=
  .ite (.ite h.setTrk.undoQuad.addSat (setTrk (.ite h.setTrk.keepEdge h.setTrk))) h.setTrk

theorem quadEdge {n stamp tick kind} (h : s.Balanced) : (s.quadEdge n stamp tick kind).Balanced := by
  unfold State.quadEdge
  dsimp only
  split
  · exact .ite (.ite h.setTrk.setTrk.addSat h.setTrk.setTrk) h.quadOne
  · exact h.quadOne

theorem mainEdge {n stamp tick kind} (h : s.Balanced) : (s.mainEdge n stamp tick kind).Balanced :=
  .ite h.atTick (.ite h.atTick.quadEdge (.ite h.atTick.setTrk.keepEdge h.atTick.setTrk))

theorem prIndexEdge {n stamp tick kind} (h : s.Balanced) : OutBalanced (execPrIndexEdge n stamp tick kind s) :=
  .inst (.next (.ite (.ite h.atTick.addSat h.atTick.setTrk) h))

theorem enterCoast {n tick} (h : s.Balanced) : (s.enterCoast n tick).Balanced := .ite h.atTick.putTrk h
theorem endCoast {n tick} (h : s.Balanced) : (s.endCoast n tick).Balanced := .ite h.atTick.putTrk h
theorem unlockRef {n} (h : s.Balanced) : (s.unlockRef n).Balanced := h.putTrk

theorem writePrCfg {n w} (h : s.Balanced) : (s.writePrCfg n w).Balanced := by
  unfold State.writePrCfg
  extract_lets _ _ _ _ _ _ _ _ _ s1 s2
  have h1 : s1.Balanced := h.setWord.flagIf
  have h2 : s2.Balanced := .ite h1.unlockRef h1
  exact .ite h2.setF.unlockRef h2

theorem enableRef {n en} (h : s.Balanced) : (s.enableRef n en).Balanced := .ite h.setWord.flagIf.unlockRef h.setWord.flagIf
theorem snapRef {n} (h : s.Balanced) : (s.snapRef n).Balanced := h.setPair.setF.setF.setF.setPair
theorem snapTime (h : s.Balanced) : s.snapTime.Balanced := h.setPair.setPair.setPair

theorem loadShadow {n} (h : s.Balanced) : (s.loadShadow n).Balanced := by
  unfold State.loadShadow
  extract_lets _ s1 s2
  have h1 : s1.Balanced := by unfold s1; split <;> [exact h.setWord; exact h]
  have h2 : s2.Balanced := by unfold s2; split <;> [exact h1.setWord; exact h1]
  exact h2.setAlarm.setF

theorem pushFiring {r} (h : s.Balanced) : (s.pushFiring r).Balanced := h.withLcs
theorem startTimer {n tick rem coast} (h : s.Balanced) : (s.startTimer n tick rem coast).Balanced := h.setTimer
theorem expireTimer {n} (h : s.Balanced) : (s.expireTimer n).Balanced := .ite h.atTick.addWrap.pushFiring.setTimer h
theorem expireFirst {n tick} (h : s.Balanced) : (s.expireFirst n tick).Balanced := .ite h.expireTimer h

theorem armTimers {n tick rem coast} (h : s.Balanced) : (s.armTimers n tick rem coast).Balanced :=
  h.foldl (fun h => .ite (.ite h.expireFirst h.expireFirst.startTimer) h)

theorem fireAlarm {n tick a inst} (h : s.Balanced) : (s.fireAlarm n tick a inst).Balanced :=
  h.setAlarm.addWrap.setF.setF.setB.pushFiring.armTimers.loadShadow

theorem testAlarm {n tick} (h : s.Balanced) : (s.testAlarm n tick).Balanced := by
  unfold State.testAlarm
  dsimp only
  split
  · split
    · exact h
    · exact .ite h.atTick.setAlarm.fireAlarm h.atTick.setAlarm.setAlarm
  · exact h

theorem writePaCtl {n w} (h : s.Balanced) : (s.writePaCtl n w).Balanced := by
  unfold State.writePaCtl
  dsimp only
  split
  · exact h.setWord.flagIf.setAlarm
  · exact h.setWord.flagIf.loadShadow
  · exact h.setWord.flagIf

theorem writePaTarget {n w} (h : s.Balanced) : (s.writePaTarget n w).Balanced := .ite h.setAlarm.flag h.setWord
theorem writePaFilter {n w} (h : s.Balanced) : (s.writePaFilter n w).Balanced := .ite h.setAlarm.flag h.setWord

theorem writeTtCtl {n w} (h : s.Balanced) : (s.writeTtCtl n w).Balanced :=
  .ite h.setWord.setTimer (.ite h.expireFirst.setWord.startTimer (.ite h.setWord.setTimer h.setWord))

theorem captureEdge {k stamp kind} (h : s.Balanced) : OutBalanced (execCaptureEdge k stamp kind s) :=
  .inst (.next (.ite (.ite h.atTick.setCapture.setBit h.flag) h))

theorem updateNext {tick} (h : s.Balanced) : (s.updateNext tick).Balanced := by
  unfold State.updateNext
  dsimp only
  split
  · exact h.atTick.withLcs.setB.setF
  · exact h.atTick.withLcs

theorem loseRefs (h : s.Balanced) : s.loseRefs.Balanced := h.foldl (fun h => .ite h.putTrk h)
theorem resumeTime {t} (h : s.Balanced) : (s.resumeTime t).Balanced := h.withLcs.foldl (fun h => .ite h.setTimer h)
theorem pllRestart (h : s.Balanced) : s.pllRestart.Balanced := h.withLcs
theorem writeLcsCtl {w} (h : s.Balanced) : (s.writeLcsCtl w).Balanced := .ite h.flagIf (.ite h.setWord.pllRestart.flagIf h.flag)
theorem pllLock (h : s.Balanced) : s.pllLock.Balanced := .ite h.withLcs.loseRefs.resumeTime h
theorem pllLost (h : s.Balanced) : s.pllLost.Balanced := .ite h.withLcs h
theorem pllRelock (h : s.Balanced) : s.pllRelock.Balanced := .ite h.withLcs.addSat.loseRefs.resumeTime h

/-! ### Machine/Vectors -/

theorem setChan {c x} (h : s.Balanced) : (s.setChan c x).Balanced := ⟨h.groups⟩
theorem setFunc {f x} (h : s.Balanced) : (s.setFunc f x).Balanced := h.withHost
theorem aer {func k} (h : s.Balanced) : (s.aer func k).Balanced := h.setFunc
theorem aerAdvisory {func} (h : s.Balanced) : (s.aerAdvisory func).Balanced := h.setFunc
theorem setVec {f v x} (h : s.Balanced) : (s.setVec f v x).Balanced := h.withHost

theorem noteVector {before : State} {acc f v} (h : s.Balanced) : (s.noteVector before acc f v).Balanced :=
  .ite h.setVec (.ite h.setVec (.ite h.setVec h.setVec))

theorem noteVectors {before : State} {acc vs} (h : s.Balanced) : (s.noteVectors before acc vs).Balanced :=
  h.foldl (fun h => h.noteVector)

theorem lowerChan {c x} (h : s.Balanced) : (s.lowerChan c x).Balanced := h.setChan.noteVectors

/-! ### Machine/Wake -/

theorem setSettled {g b} (h : s.Balanced) : (s.setSettled g b).Balanced := .ite h h.setB.flag
theorem leave (h : s.Balanced) : s.leave.Balanced := .ite h.withPwr (h.withPwr.foldl (fun h => h.setSettled))

theorem wakeOwn {why} (h : s.Balanced) : (s.wakeOwn why).Balanced := by
  unfold State.wakeOwn
  dsimp only
  split
  · split
    · exact .ite h h.withPwr.setF
    · exact h.withPwr.setF.leave
    · exact h
  · exact .ite h.withPwr h

theorem wake {why} (h : s.Balanced) : (s.wake why).Balanced := .ite h h.wakeOwn

/-! ### Machine/Monitor -/

theorem setWm {n m} (h : s.Balanced) : (s.setWm n m).Balanced := ⟨h.groups⟩
theorem wmResolveAll {n v} (h : s.Balanced) : (s.wmResolveAll n v).Balanced := h.setWm

theorem wmActivate {n up tick} (h : s.Balanced) : (s.wmActivate n up tick).Balanced :=
  .ite h.setWm.flag.addWrap.wake h.setWm.flag.addWrap

theorem wmFeed {n up level stamp tick} (h : s.Balanced) : (s.wmFeed n up level stamp tick).Balanced := by
  unfold State.wmFeed
  extract_lets kind ek
  refine (h.foldl ?_).foldl ?_
  · intro t r h
    extract_lets u
    have hu : u.Balanced := .ite h.mainEdge h
    split
    · split
      · exact prIndexEdge hu _ ‹_›
      · exact hu
    · exact hu
  · intro t k h
    split
    · split
      · exact captureEdge h _ ‹_›
      · exact h
    · exact h

theorem wmDeliver {n e tick} (h : s.Balanced) : (s.wmDeliver n e tick).Balanced := by
  unfold State.wmDeliver
  extract_lets _ _ _ s1 s2
  have h1 : s1.Balanced := h.setWm
  have h2 : s2.Balanced := .ite h1.wmActivate h1
  exact h2.wmFeed

theorem wmEdge {n e} (h : s.Balanced) : (s.wmEdge n e).Balanced := .ite h.addSat (.ite h (.ite h.setWm h.wmDeliver))

theorem wmSense {n up v stamp unresOnly} (h : s.Balanced) : (s.wmSense n up v stamp unresOnly).Balanced := by
  unfold State.wmSense
  dsimp only
  split
  · exact h
  · exact .ite (.ite h.setWm h.setWm.wmEdge) (.ite h h.setWm.wmEdge)

theorem writeWmCtl {n w} (h : s.Balanced) : (s.writeWmCtl n w).Balanced := by
  unfold State.writeWmCtl
  dsimp only
  split
  · exact h.setWord.setWm
  · exact h.setWord.setWm
  · exact h.setWord

theorem wmHold {n} (h : s.Balanced) : (s.wmHold n).Balanced := .ite h.setWm h
theorem writeWmThr {n w} (h : s.Balanced) : (s.writeWmThr n w).Balanced := h.setWord.wmHold
theorem writeWmHys {n w} (h : s.Balanced) : (s.writeWmHys n w).Balanced := h.setF.setF.wmHold
theorem writeWmTrim {n w} (h : s.Balanced) : (s.writeWmTrim n w).Balanced := h.setWord.wmHold

theorem wmRelease {n tick} (h : s.Balanced) : (s.wmRelease n tick).Balanced := by
  unfold State.wmRelease
  dsimp only
  split
  · exact h
  · exact setWm (.ite h.setWm.addSat h.setWm.wmDeliver)

theorem wmReleaseAll {n tick fuel} (h : s.Balanced) : (s.wmReleaseAll n tick fuel).Balanced := by
  induction fuel generalizing s with
  | zero => exact h
  | succ k ih => exact ih h.wmRelease

theorem writeWmBlank {n w} (h : s.Balanced) : (s.writeWmBlank n w).Balanced :=
  .ite (setWm (.ite h.setWord.wmReleaseAll h.setWord.setWm)) h.setWord

theorem writeWmPclr {n w} (h : s.Balanced) : (s.writeWmPclr n w).Balanced := h.setWord
theorem wmBroadcast {r} (h : s.Balanced) : (s.wmBroadcast r).Balanced := h.foldl (fun h => .ite h h.setWm)
theorem wmPeriod {n up t} (h : s.Balanced) : (s.wmPeriod n up t).Balanced := h.setWm.setB.setB
theorem writeWmLatch {n w} (h : s.Balanced) : (s.writeWmLatch n w).Balanced := h.foldl (fun h => .ite h h.setWm.setB)
theorem wmRelock (h : s.Balanced) : s.wmRelock.Balanced := h.foldl (fun h => h.setWm)

/-! ### Machine/Streams -/

theorem setFeed {c x} (h : s.Balanced) : (s.setFeed c x).Balanced := ⟨h.groups⟩

theorem emit {code ws} (h : s.Balanced) : (s.emit code ws).Balanced := by
  unfold State.emit
  split
  · exact h
  · exact ⟨h.groups⟩

theorem connect {c code} (h : s.Balanced) : (s.connect c code).Balanced := .ite h h.setFeed
theorem consume {c n} (h : s.Balanced) : (s.consume c n).Balanced := h.setFeed

/-! ### Machine/Converter -/

theorem setCore {g c} (h : s.Balanced) (hc : c.Balanced) : (s.setCore g c).Balanced := h.setGroup ⟨hc, h.group.base⟩

theorem cgRequest {g r} (h : s.Balanced) : (s.cgRequest g r).Balanced :=
  h.setGroup ⟨h.group.getD.apply, by rintro _ ⟨⟩; exact h.group.getD⟩

theorem cgCommit {g} (h : s.Balanced) : (s.cgCommit g).Balanced := by
  unfold State.cgCommit
  extract_lets _ _ s1
  have h1 : s1.Balanced := h.setGroup (.ofCore h.group.core rfl)
  exact h1.addSat.addWrap.addSat.flagIf.flagIf.flagIf.flagIf.setF.setF

theorem cgNow {g k} (h : s.Balanced) (hk : ∀ {c : CgCore}, c.Balanced → (k c).Balanced) : (s.cgNow g k).Balanced :=
  (h.setCore (hk h.group.core)).cgCommit

theorem pauseGroups (h : s.Balanced) : s.pauseGroups.Balanced := h.foldl fun h => h.cgNow fun h => h.pause
theorem resumeGroups (h : s.Balanced) : s.resumeGroups.Balanced := h.foldl fun h => h.cgNow fun h => h.resume
theorem benchGroups (h : s.Balanced) : s.benchGroups.Balanced := h.foldl fun h => h.cgNow fun h => h.discardAll

theorem cgMark {g r} (h : s.Balanced) : (s.cgMark g r).Balanced := by
  unfold State.cgMark
  dsimp only
  split
  · exact h.setGroup (List.foldlRecOn _ _ h.group fun _ hx _ _ => hx.markEdge)
  · exact h.addSat

theorem cgWindows {g} (h : s.Balanced) : (s.cgWindows g).Balanced := h.setRest rfl rfl

theorem winReport {g l} (h : s.Balanced) : (s.winReport g l).Balanced := by
  unfold State.winReport
  extract_lets
  split
  · exact setF (setB (setBit (h.setRest rfl rfl)))
  · exact h

theorem elogPush {g r} (h : s.Balanced) : (s.elogPush g r).Balanced := .ite (h.setRest rfl rfl) h.flag
theorem cgEnable {g} (h : s.Balanced) : (s.cgEnable g).Balanced := h.setGroup (.ofCore rfl rfl)
theorem cgDisable {g} (h : s.Balanced) : (s.cgDisable g).Balanced := cgCommit (h.setGroup (.ofCore h.group.getD.clear rfl))
theorem writeSeqctl {g w} (h : s.Balanced) : (s.writeSeqctl g w).Balanced := .ite h.setWord.cgRequest h.setWord
theorem writeListen {g k w} (h : s.Balanced) : (s.writeListen g k w).Balanced := h.setWord
theorem writeFtrig {g w} (h : s.Balanced) : (s.writeFtrig g w).Balanced := h.setWord

theorem writeWinArm {g l w} (h : s.Balanced) : (s.writeWinArm g l w).Balanced :=
  .ite (h.setWord.setRest rfl rfl) h.setWord

/-! ### Machine/Chain -/

theorem setChain {n c} (h : s.Balanced) : (s.setChain n c).Balanced := ⟨h.groups⟩
theorem checkBank {n bank} (h : s.Balanced) : (s.checkBank n bank).Balanced := .ite h.setB h
theorem updateGdelay {n} (h : s.Balanced) : (s.updateGdelay n).Balanced := h.setF.setB.setB

theorem fadeEnd {n} (h : s.Balanced) : (s.fadeEnd n).Balanced := by
  unfold State.fadeEnd
  dsimp only
  split
  · exact .ite h h.setChain.setF.setF.flag.checkBank
  · exact h

theorem fadeStart {n} (h : s.Balanced) : (s.fadeStart n).Balanced := by
  unfold State.fadeStart
  dsimp only
  split
  · exact .ite h.setChain.setF.updateGdelay h
  · exact h

theorem fadeCross {n} (h : s.Balanced) : (s.fadeCross n).Balanced := .ite h.fadeEnd.setChain h.fadeEnd

theorem writeBank {n bank} (h : s.Balanced) : (s.writeBank n bank).Balanced := by
  unfold State.writeBank
  extract_lets s1 _ s2
  have h1 : s1.Balanced := h.fadeEnd
  have h2 : s2.Balanced := h1.setF
  exact .ite h1.setF.setF.checkBank (.ite h1 (.ite h1.flag h2.setChain.checkBank))

theorem pushGap {n g} (h : s.Balanced) : (s.pushGap n g).Balanced := .ite h.setChain.flag h.flag

theorem formWord {n val b} (h : s.Balanced) : (s.formWord n val b).Balanced :=
  .ite (emit (by split <;> [exact h.setChain.pushGap.flagIf; exact h.setChain])) h.setChain

theorem markLost {n b} (h : s.Balanced) : (s.markLost n b).Balanced := .ite h h.addSat
theorem formOut {n val b} (h : s.Balanced) : (s.formOut n val b).Balanced := h.formWord.markLost

/-! ### Machine/Detect -/

theorem setDet {n d} (h : s.Balanced) : (s.setDet n d).Balanced := h.setChain

theorem detLatch {n} (h : s.Balanced) : (s.detLatch n).Balanced := by
  unfold State.detLatch
  dsimp only
  split
  · exact h
  · split
    · exact h.withFreeCount.setDet.setF.setF.setF.setF.setB.setB.setPair.addWrap.flag.flagIf.formOut
    · exact h.withFreeCount.setDet.setF.setF.setF.setF.setB.setB.setPair.addWrap.flag.flagIf.formOut.formWord
    · exact h.withFreeCount.setDet.setF.setF.setF.setF.setB.setB.setPair.addWrap.flag.flagIf

theorem detClose {n} (h : s.Balanced) : (s.detClose n).Balanced := by
  unfold State.detClose
  dsimp only
  split
  · exact h.detLatch.setDet
  · exact h.detLatch

theorem detAlign {n} (h : s.Balanced) : (s.detAlign n).Balanced := .ite h.detClose h

theorem detSpans {n pos fuel} (h : s.Balanced) : (s.detSpans n pos fuel).Balanced := by
  induction fuel generalizing s with
  | zero => exact h
  | succ k ih =>
    unfold State.detSpans
    dsimp only
    split
    · exact .ite (ih (.ite h.setDet.detClose.setDet h.setDet.detClose)) h
    · exact h

theorem detSample {n y pos b} (h : s.Balanced) : (s.detSample n y pos b).Balanced := by
  unfold State.detSample
  extract_lets _ s1 s2 s3 _ _ win _ s4 s5
  have h2 : s2.Balanced := .ite h.detLatch.detSpans h.detLatch
  have h4 : s4.Balanced := h2.detLatch.setDet.setF
  have h5 : s5.Balanced := .ite h4.formOut h4
  clear_value s5 win
  split
  · exact .ite (.ite h5.setDet.detClose h5) (.ite h5.detClose h5)
  · exact h5

/-! ### Machine/Resampler -/

theorem rsMark {n m} (h : s.Balanced) : (s.rsMark n m).Balanced := .ite h.setChain h.addSat
theorem rsMarksLost {n k} (h : s.Balanced) : (s.rsMarksLost n k).Balanced := .ite h h.addSat

theorem turnEnd {n} (h : s.Balanced) : (s.turnEnd n).Balanced := by
  unfold State.turnEnd
  dsimp only
  split
  · exact h
  · exact .ite h.setChain.setChain.flag h.setChain.flag

theorem turnFirst {n x} (h : s.Balanced) : (s.turnFirst n x).Balanced := .ite h.setChain.detAlign h.setChain

theorem turnSlot {n x} (h : s.Balanced) : (s.turnSlot n x).Balanced := by
  unfold State.turnSlot
  dsimp only
  split
  · exact .ite h.setChain h.turnEnd.turnFirst
  · exact h.turnFirst

theorem rsForm {n p next slot} (h : s.Balanced) : (s.rsForm n p next slot).Balanced := by
  unfold State.rsForm
  extract_lets _ _ _ _ _ _ s1 s2 s3 s4
  have h1 : s1.Balanced := h.setChain.rsMarksLost
  have h2 : s2.Balanced := .ite h1.addSat h1
  have h3 : s3.Balanced := by unfold s3; split <;> [exact h2.turnSlot; exact h2]
  have h4 : s4.Balanced := .ite h3.detSample h3
  exact .ite h4.formOut h4

theorem rsPass {n p next} (h : s.Balanced) : (s.rsPass n p next).Balanced := h.setChain.rsMarksLost

theorem rsRun {n m fuel} (h : s.Balanced) : (s.rsRun n m fuel).Balanced := by
  induction fuel generalizing s with
  | zero => exact h
  | succ k ih =>
    unfold State.rsRun
    dsimp only
    split
    · exact .ite (ih h.setChain.rsForm) h
    · split
      · exact .ite (ih (.ite h.setChain.rsPass h.setChain.rsForm)) h
      · exact h

theorem rsPlace {n x p} (h : s.Balanced) : (s.rsPlace n x p).Balanced := by
  unfold State.rsPlace
  dsimp only
  split
  · exact .ite h h.setChain.addSat
  · exact .ite h.setChain (.ite h.setChain.addSat.flag h.setChain)
  · exact h.setChain
  · exact h.setDet
  · exact h.setDet
  · exact h.addSat

theorem rsResolve {n gapTo fuel} (h : s.Balanced) : (s.rsResolve n gapTo fuel).Balanced := by
  induction fuel generalizing s with
  | zero => exact h
  | succ k ih =>
    have hk {x p rest} : (((s.setChain n rest).rsPlace n x p).rsResolve n gapTo k).Balanced := ih h.setChain.rsPlace
    unfold State.rsResolve
    dsimp only
    split
    · exact h
    · split
      · exact hk
      · refine .ite ?_ (.ite hk h)
        split
        · exact hk
        · exact h

theorem rsQueue {n inst what} (h : s.Balanced) : (s.rsQueue n inst what).Balanced := h.setChain.rsResolve
theorem rsSweep {g} (h : s.Balanced) : (s.rsSweep g).Balanced := h.foldl (fun h => .ite h.rsResolve h)

theorem rsInstant {n r} (h : s.Balanced) : (s.rsInstant n r).Balanced := by
  unfold State.rsInstant
  extract_lets _ _ s1
  have h1 : s1.Balanced := .ite (.ite h.addSat h.rsQueue) h
  exact .ite (.ite h1.rsQueue (.ite h1.rsQueue h1)) h1

theorem rsSlot {n tick} (h : s.Balanced) : (s.rsSlot n tick).Balanced := .ite (.ite h.atTick.setChain.rsQueue h) h

theorem rsRefLost {r} (h : s.Balanced) : (s.rsRefLost r).Balanced :=
  h.foldl (fun h => .ite h.rsResolve.turnEnd.rsMarksLost.setChain h)

/-! ### Machine/RingCore -/

theorem setRing {r x} (h : s.Balanced) : (s.setRing r x).Balanced := ⟨h.groups⟩

theorem closeBlock {r} (h : s.Balanced) : (s.closeBlock r).Balanced := by
  unfold State.closeBlock
  dsimp only
  split
  · exact h.setRing
  · exact h

theorem ringRestart {r} (h : s.Balanced) : (s.ringRestart r).Balanced := h.closeBlock.setRing

theorem sourceStops {code} (h : s.Balanced) : (s.sourceStops code).Balanced :=
  h.foldl (fun h => .ite (.ite h.ringRestart h.setRing) h)

theorem closeHere {r w} (h : s.Balanced) : (s.closeHere r w).Balanced := .ite h.closeBlock.withTwin h

theorem placeWord {r w at_} (h : s.Balanced) : (s.placeWord r w at_).Balanced := by
  unfold State.placeWord
  dsimp only
  split
  · exact .ite (closeBlock (by split <;> exact h.setRing)) (by split <;> exact h.setRing)
  · exact by split <;> exact h.setRing

theorem dropWord {r} (h : s.Balanced) : (s.dropWord r).Balanced := h.closeBlock.setRing.flag
theorem refillTokens {r ns} (h : s.Balanced) : (s.refillTokens r ns).Balanced := h.setRing

theorem ringStep {r} (h : s.Balanced) : (s.ringStep r).Balanced := by
  unfold State.ringStep
  dsimp only
  split
  · exact h.ringRestart.setRing
  · exact h.ringRestart.setRing
  · exact h.setRing
  · exact h

theorem ringWord {r ns at_} (h : s.Balanced) : (s.ringWord r ns at_).Balanced := by
  unfold State.ringWord
  extract_lets s1
  have h1 : s1.Balanced := h.refillTokens
  split
  · exact h1
  · refine .ite ?_ h1.consume
    extract_lets s2 _ _ _ s3
    have h3 : s3.Balanced := (closeHere (.ite h1.ringRestart h1)).flagIf
    exact .ite h3.consume.setRing.placeWord.ringStep (.ite h3 h3.consume.setRing.dropWord.ringStep)

theorem gstat (h : s.Balanced) : s.gstat.Balanced := h.setB.setB
theorem addCharge {r on} (h : s.Balanced) : (s.addCharge r on).Balanced := gstat (.ite h.setF h.setF)
theorem detachRing {r} (h : s.Balanced) : (s.detachRing r).Balanced := h.setFeed
theorem countBlock {r} (h : s.Balanced) : (s.countBlock r).Balanced := .ite h.setRing.flag h.setRing
theorem passTail {r} (h : s.Balanced) : (s.passTail r).Balanced := .ite (h.addWrap.foldl (fun h => h.countBlock)) h

theorem retireRing {r} (h : s.Balanced) : (s.retireRing r).Balanced :=
  .ite (detachRing (.ite h.passTail.setRing.withTwin.setBit h.passTail.setRing.withTwin)).addCharge.setF.flag h

theorem retireRings {func} (h : s.Balanced) : (s.retireRings func).Balanced := h.foldl (fun h => .ite h.retireRing h)

/-! ### Machine/CalStep -/

theorem setMarks {m} (h : s.Balanced) : (s.setMarks m).Balanced := h.withCal.setF
theorem markField {r i j} (h : s.Balanced) : (s.markField r i j).Balanced := .ite h h.setMarks
theorem unmarkField {r i j} (h : s.Balanced) : (s.unmarkField r i j).Balanced := .ite h.setMarks h
theorem unmarkHalf {a low} (h : s.Balanced) : (s.unmarkHalf a low).Balanced := .ite h.setMarks h

theorem calField_fst {r i j tol tries} (h : s.Balanced) : (s.calField r i j tol tries).1.Balanced := by
  unfold State.calField
  split
  · exact h.setF.unmarkField
  · exact h.markField

/-! ### Machine/Rotation -/

theorem setRot {g r} (h : s.Balanced) : (s.setRot g r).Balanced := h.setRest rfl rfl
theorem setRotst {g v} (h : s.Balanced) : (s.setRotst g v).Balanced := h.setF
theorem busUpdate {q} (h : s.Balanced) : (s.busUpdate q).Balanced := .ite h h.withCal
theorem busUpdates (h : s.Balanced) : s.busUpdates.Balanced := h.foldl (fun h => h.busUpdate)

theorem logHandover {g o result} (h : s.Balanced) : (s.logHandover g o result).Balanced :=
  h.withFreeCount.setF.setF.setF.setF.setF.setF.setF.setF

theorem abandon {g} (h : s.Balanced) : (s.abandon g).Balanced := by
  unfold State.abandon
  dsimp only
  split
  · exact h
  · exact h.setRot.logHandover.addSat.setRotst

theorem abandonAll (h : s.Balanced) : s.abandonAll.Balanced := (h.foldl (fun h => h.abandon)).withCal
theorem refFalls {g} (h : s.Balanced) : (s.refFalls g).Balanced := h.setSettled.abandon
theorem retire {g sl} (h : s.Balanced) : (s.retire g sl).Balanced := h.flag.flag.setRot.setRotst
theorem sendCalib {g sl retry} (h : s.Balanced) : (s.sendCalib g sl retry).Balanced := h.setRot.setRotst.setB.busUpdate
theorem checkSat {g sl} (h : s.Balanced) : (s.checkSat g sl).Balanced := .ite h.flag.flag h

theorem handoverEnd {g} (h : s.Balanced) : (s.handoverEnd g).Balanced := by
  unfold State.handoverEnd
  dsimp only
  split
  · exact h
  · refine .ite h (.ite ?_ ?_)
    · exact h.setRot.setF.setF.setPair.logHandover.addWrap.flag.setF.setBit.checkSat.sendCalib
    · exact .ite h.setRot.logHandover.addSat.flag.setF.retire h.setRot.logHandover.addSat.flag.setF.sendCalib

theorem overlapSample {g out inc} (h : s.Balanced) : (s.overlapSample g out inc).Balanced := by
  unfold State.overlapSample
  dsimp only
  split
  · exact h
  · exact .ite h (.ite (.ite h.setRot.abandon h.setRot) h.setRot)

theorem rotDue {g slice} (h : s.Balanced) : (s.rotDue g slice).Balanced := h.setRot.setRotst
theorem dueOnReturn (h : s.Balanced) : s.dueOnReturn.Balanced := .ite (h.foldl (fun h => .ite h.rotDue h)) h

theorem firstReading {k} (h : s.Balanced) : (s.firstReading k).Balanced :=
  .ite (h.withPwr.foldl (fun h => by split <;> [(split <;> [exact h.rotDue; exact h]); exact h])) h

theorem rotCheck {g} (h : s.Balanced) : (s.rotCheck g).Balanced := by
  unfold State.rotCheck
  split
  · split
    · exact h.rotDue
    · split
      · exact h.rotDue
      · exact .ite h.rotDue h
  · exact h

theorem overlapStart {g} (h : s.Balanced) : (s.overlapStart g).Balanced := .ite h.setRot.setRotst h

theorem sliceSteps_fst {g sl c} (h : s.Balanced) : (s.sliceSteps g sl c).1.Balanced :=
  h.calField_fst.calField_fst.calField_fst.calField_fst.calField_fst.setF.setF.setF

theorem calSlice_fst {g sl c} (h : s.Balanced) : (s.calSlice g sl c).1.Balanced := .ite h.sliceSteps_fst.setRot h.sliceSteps_fst

theorem calibEnd {g c} (h : s.Balanced) : (s.calibEnd g c).Balanced := by
  unfold State.calibEnd
  extract_lets s1
  have h1 : s1.Balanced := h.busUpdate
  split
  · exact h1
  · have h2 {sl} : (s1.calSlice g sl c).1.Balanced := h1.calSlice_fst
    exact .ite (.ite h2.setRot.withCal.setRotst.busUpdate (.ite h2.withCal.retire.busUpdate h2.setRot.withCal.busUpdate)) h1

theorem refillMap {g} (h : s.Balanced) : (s.refillMap g).Balanced :=
  (h.foldl (fun h => h.setF)).setF.setRot.setRotst.flagIf.foldl (fun h => h.checkSat)

theorem moveField {r g sl est} (h : s.Balanced) : (s.moveField r g sl est).Balanced := .ite h.setF.flag.flag h.setF

theorem setSpur {g est} (h : s.Balanced) : (s.setSpur g est).Balanced := by
  unfold State.setSpur
  dsimp only
  split
  · exact h
  · exact h.withFreeCount.setF.setF.setF

theorem estimate {g} (h : s.Balanced) : (s.estimate g).Balanced := by
  unfold State.estimate
  dsimp only
  split
  · refine .ite ?_ h.setRot
    have {c} [Decidable c] {t : State} {x} (h : t.Balanced) : (if c then t.setSpur g x else t).Balanced := .ite h.setSpur h
    exact this (h.setRot.foldl fun h => .ite h.moveField.moveField.moveField h.moveField.moveField)
  · exact h

theorem estCount {g ys} (h : s.Balanced) : (s.estCount g ys).Balanced := .ite h.setRot h.setRot.setF.flagIf
theorem estBreak {g} (h : s.Balanced) : (s.estBreak g).Balanced := .ite h h.setRot
theorem estClear (h : s.Balanced) : s.estClear.Balanced := h.foldl (fun h => h.setRot.setF)
theorem writeRotCtl {g w} (h : s.Balanced) : (s.writeRotCtl g w).Balanced := h.setWord
theorem writeSlice {g a mask open_ w} (h : s.Balanced) : (s.writeSlice g a mask open_ w).Balanced := h.setWord.flagIf

theorem writeResidual {g sl a mask w} (h : s.Balanced) : (s.writeResidual g sl a mask w).Balanced :=
  .ite h.writeSlice h.writeSlice.checkSat

/-! ### Machine/Nets -/

theorem nameNet {trk d} (h : s.Balanced) : (s.nameNet trk d).Balanced := h.setF.setF.setF

theorem census (h : s.Balanced) : s.census.Balanced := by
  unfold State.census
  dsimp only
  split <;> exact h.setF.setF.setB.nameNet

/-! ### Machine/Signal -/

theorem setCell {c x} (h : s.Balanced) : (s.setCell c x).Balanced := ⟨h.groups⟩
theorem cellSettle {c clocked dt} (h : s.Balanced) : (s.cellSettle c clocked dt).Balanced := h.setCell.flagIf

theorem cellReset {c} (h : s.Balanced) : (s.cellReset c).Balanced := by
  unfold State.cellReset
  dsimp only
  split
  · exact h.setCell
  · exact h.setCell
  · exact h

/-! ### Machine/Beat -/

theorem emitBeat {g} (h : s.Balanced) : (s.emitBeat g).Balanced := by
  unfold State.emitBeat
  dsimp only
  split
  · exact h
  · have hx : Group.Balanced { s.group g with core := (s.group g).core.release } := ⟨h.group.core.release, h.group.base⟩
    refine foldl (.ite (elogPush ?_) ?_) fun h => h.emit
    all_goals exact h.setGroup ⟨hx.core, hx.base⟩

theorem convertBeat {g e tick raw before after inc} (h : s.Balanced) :
    (s.convertBeat g e tick raw before after inc).Balanced := by
  unfold State.convertBeat
  extract_lets _ _ core _ _ _ _ _ _ _ _ _ ov b _ x _ s1 s2 s3
  have hcore : core.Balanced := h.group.core.enter
  have hx : x.Balanced := by
    unfold x
    split
    · exact ⟨hcore, h.group.base⟩
    · exact ⟨hcore.takeSettle, h.group.base⟩
    · exact ⟨hcore.takeDwell, h.group.base⟩
  have h1 : s1.Balanced := h.setGroup ⟨hx.core, hx.base⟩
  have h2 : s2.Balanced := by
    unfold s2
    split
    · exact h1
    · exact h1.foldl fun h => h.addSat
  have h3 : s3.Balanced := by
    unfold s3
    clear_value ov s2
    split
    · exact h2.overlapSample
    · exact h2
  exact .ite h3.estCount h3.estBreak

theorem cgDrain {g} (h : s.Balanced) : (s.cgDrain g).Balanced :=
  foldl (h.setRest rfl rfl) fun h => .ite h h.setChain

theorem cgEdge {g e tick raw before after inc} (h : s.Balanced) : (s.cgEdge g e tick raw before after inc).Balanced := by
  unfold State.cgEdge
  extract_lets s1 s2 _ s3 _ s4 _ _ _ _ s5
  have h1 : s1.Balanced := h.atTick.cgDrain.cgCommit.handoverEnd
  have h2 : s2.Balanced := h1.foldl (fun h => h.winReport)
  clear_value s2
  have h3 : s3.Balanced := h2.setGroup ⟨h2.group.core.advance, h2.group.base⟩
  have h4 : s4.Balanced := .ite h3.convertBeat h3
  have h5 : s5.Balanced := h4.setGroup ⟨h4.group.core, h4.group.base⟩
  exact h5.emitBeat.cgWindows.cgCommit.rsSweep

theorem cgInbox {g k f} (h : s.Balanced) (hf : ∀ {r t}, t.Balanced → (f r t).Balanced) : (s.cgInbox g k f).Balanced := by
  unfold State.cgInbox
  dsimp only
  split
  · exact .ite (hf (h.setRest rfl rfl)) (h.setRest rfl rfl)
  · exact h

theorem writeCgCtl {g w} (h : s.Balanced) : (s.writeCgCtl g w).Balanced := by
  unfold State.writeCgCtl
  dsimp only
  split
  · exact h.setWord.flagIf.cgEnable
  · exact h.cgDisable.abandon.setWord.flagIf.foldl (fun h => h.sourceStops)
  · exact h.setWord.flagIf

theorem cgAdvance {g ok} (h : s.Balanced) : (s.cgAdvance g ok).Balanced :=
  .ite (h.setGroup (h.group.map fun _ hc => hc.advance)) h

theorem cgSnap {g} (h : s.Balanced) : (s.cgSnap g).Balanced := h.setPair.setPair.setPair.setPair
theorem writeCgRef {g w} (h : s.Balanced) : (s.writeCgRef g w).Balanced := .ite h (refFalls (.ite h.setF h.setF.setF))

/-! ### Machine/ChainOut -/

theorem fcMark {n t} (h : s.Balanced) : (s.fcMark n t).Balanced := .ite h.setChain h.addSat

theorem takeWord_fst {n w} (h : s.Balanced) : (s.takeWord n w).1.Balanced := by
  unfold State.takeWord
  extract_lets _ _ _ _ _ _ s1 _ _ _ s2 s3 s4
  have h1 : s1.Balanced := .ite h.rsResolve h
  have h2 : s2.Balanced := h1.setChain
  have h3 : s3.Balanced := .ite h2.rsResolve h2
  have h4 : s4.Balanced := .ite h3.fcMark h3
  exact h4

theorem firForm {n u} (h : s.Balanced) : (s.firForm n u).Balanced := by
  unfold State.firForm
  extract_lets s1 _ _ _ _ _ s2 s3 _ s4 _ _ s5 _ s6 _ _ s7 s8
  have h1 : s1.Balanced := h.fadeEnd.fadeStart
  have h2 : s2.Balanced := h1.setChain
  have h3 : s3.Balanced := .ite h2.flag.flag.addSat h2
  have h4 : s4.Balanced := .ite h3.flag.flag.addSat h3
  have h5 : s5.Balanced := h4.setB
  have h6 : s6.Balanced := h5.setChain
  have h7 : s7.Balanced := .ite h6.detSample h6
  have h8 : s8.Balanced := .ite h7 h7.rsMark
  exact .ite (.ite h8 h8.rsRun) (.ite h7.formOut h7)

theorem chainTake {n fuel} (h : s.Balanced) : (s.chainTake n fuel).Balanced := by
  induction fuel generalizing s with
  | zero => exact h
  | succ k ih =>
    unfold State.chainTake
    dsimp only
    split
    · exact h
    · split
      · exact h.consume.takeWord_fst.firForm
      · exact ih h.consume.takeWord_fst

theorem chainDrain {n fuel} (h : s.Balanced) : (s.chainDrain n fuel).Balanced := by
  induction fuel generalizing s with
  | zero => exact h
  | succ k ih => exact .ite h (ih h.chainTake)

theorem resumeChains (h : s.Balanced) : s.resumeChains.Balanced := h.foldl (fun h => .ite h (.ite h.setChain h.setFeed))

theorem fcStart {n} (h : s.Balanced) : (s.fcStart n).Balanced := by
  unfold State.fcStart
  extract_lets _ _ s1 _ s2 s3 s4
  have h1 : s1.Balanced := h.setFeed
  have h2 : s2.Balanced := h1.setChain
  have h3 : s3.Balanced := h2.rsMarksLost.foldl (fun h => h.setWord)
  have h4 : s4.Balanced := h3.checkBank.updateGdelay
  exact .ite h4.setF h4

theorem fcStop {n} (h : s.Balanced) : (s.fcStop n).Balanced :=
  .ite h.fadeEnd.setChain.setF h.fadeEnd.setChain.setF.setF.checkBank

theorem writeFcCtl {n w} (h : s.Balanced) : (s.writeFcCtl n w).Balanced := by
  unfold State.writeFcCtl
  dsimp only
  split
  · exact h.setWord.flagIf.fcStart
  · exact h.setWord.flagIf.fcStop.sourceStops
  · exact h.setWord.flagIf

theorem writeWhileOff {n a w flag} (h : s.Balanced) : (s.writeWhileOff n a w flag).Balanced := h.setWord.flagIf
theorem writeFcSrc {n v} (h : s.Balanced) : (s.writeFcSrc n v).Balanced := .ite h.flag (setF (.ite h.chainDrain h)).connect
theorem writeFcCic {n w} (h : s.Balanced) : (s.writeFcCic n w).Balanced := h.writeWhileOff.setF
theorem writeFcFir {n w} (h : s.Balanced) : (s.writeFcFir n w).Balanced := h.writeWhileOff.writeBank
theorem writeFcBank {n b a w} (h : s.Balanced) : (s.writeFcBank n b a w).Balanced := h.fadeEnd.setWord.flagIf
theorem writeFcInfo {n b w} (h : s.Balanced) : (s.writeFcInfo n b w).Balanced := h.writeFcBank
theorem writeRsCtl {n w} (h : s.Balanced) : (s.writeRsCtl n w).Balanced := h.writeWhileOff
theorem commitInc {n w} (h : s.Balanced) : (s.commitInc n w).Balanced := h.setF.setPair.setChain
theorem caddrNext {n} (h : s.Balanced) : (s.caddrNext n).Balanced := h.setF
theorem cdataWrite {n w} (h : s.Balanced) : (s.cdataWrite n w).Balanced := caddrNext (.ite h.flag h.setChain)
theorem cdataRead {n} (h : s.Balanced) : (s.cdataRead n).Balanced := h.caddrNext.withReadData

theorem fcWrite {n a k} (h : s.Balanced) (hk : ∀ {t}, t.Balanced → (k t).Balanced) : (s.fcWrite n a k).Balanced :=
  h.sclkWrite hk

/-! ### Machine/Dac -/

theorem setDac {d x} (h : s.Balanced) : (s.setDac d x).Balanced := ⟨h.groups⟩

theorem daWrite {d a k} (h : s.Balanced) (hk : ∀ {t}, t.Balanced → (k t).Balanced) : (s.daWrite d a k).Balanced :=
  h.sclkWrite hk

theorem segStart {d k} (h : s.Balanced) : (s.segStart d k).Balanced := h.setDac.addWrap
theorem segEnter {d k} (h : s.Balanced) : (s.segEnter d k).Balanced := .ite h.setDac h.segStart
theorem segEnd {d} (h : s.Balanced) : (s.segEnd d).Balanced := .ite h.flagIf.segEnter h
theorem segDrop {d} (h : s.Balanced) : (s.segDrop d).Balanced := h.addSat.flag

theorem segFire {d r} (h : s.Balanced) : (s.segFire d r).Balanced := by
  unfold State.segFire
  dsimp only
  split
  · exact h.segEnd.segDrop
  · split
    · exact h.segEnd.segDrop
    · exact h.segEnd.segStart.setDac.setF

theorem daHalt {d} (h : s.Balanced) : (s.daHalt d).Balanced :=
  setDac (by split <;> [exact .ite h.segEnd.setF.setF.segDrop h.segEnd; exact h.segEnd])

theorem daGo {d} (h : s.Balanced) : (s.daGo d).Balanced := .ite h.segEnter h

theorem daFill {d fuel} (h : s.Balanced) : (s.daFill d fuel).Balanced := by
  induction fuel generalizing s with
  | zero => exact h
  | succ k ih =>
    unfold State.daFill
    dsimp only
    split
    · exact h
    · exact .ite (ih h.consume.setDac.addWrap) (.ite (ih h.consume.setDac) h)

theorem daTake {d} (h : s.Balanced) : (s.daTake d).Balanced := .ite h.daFill h
theorem daFlush {d} (h : s.Balanced) : (s.daFlush d).Balanced := h.setDac.addWrap
theorem daUnderrun {d} (h : s.Balanced) : (s.daUnderrun d).Balanced := h.setDac.addWrap.addSat.flagIf

theorem daPlay {d} (h : s.Balanced) : (s.daPlay d).Balanced := by
  unfold State.daPlay
  dsimp only
  split
  · split
    · exact .ite h.setDac h.setDac
    · exact h.setDac
  · exact h.setDac

theorem daShortOut {d} (h : s.Balanced) : (s.daShortOut d).Balanced := .ite h.setDac h
theorem daBegin {d e} (h : s.Balanced) : (s.daBegin d e).Balanced := .ite h h.setF

theorem daSample {d e} (h : s.Balanced) : (s.daSample d e).Balanced := by
  unfold State.daSample
  dsimp only
  split
  · exact .ite h.segEnd.setDac.setDac h.segEnd.setDac.daBegin.daPlay.daShortOut
  · exact h.segEnd.setDac.setDac
  · exact h.segEnd.setDac.setDac.withFreeCount

theorem daEdge {d e tick} (h : s.Balanced) : (s.daEdge d e tick).Balanced := by
  unfold State.daEdge
  extract_lets s1 _ s2 _ s3
  have h1 : s1.Balanced := h.atTick.daUnderrun.daTake
  have h2 : s2.Balanced := h1.setDac
  have h3 : s3.Balanced := .ite h2.setDac h2
  exact h3.daSample.daSample

theorem daAbandon {d} (h : s.Balanced) : (s.daAbandon d).Balanced := h.daHalt.daFlush.setDac
theorem abandonDacs (h : s.Balanced) : s.abandonDacs.Balanced := h.foldl (fun h => h.daAbandon)
theorem resumeDacs (h : s.Balanced) : s.resumeDacs.Balanced := h.foldl (fun h => .ite h.setDac h)
theorem daEnable {d} (h : s.Balanced) : (s.daEnable d).Balanced := h.setFeed.setDac.setF.setF
theorem daDisable {d} (h : s.Balanced) : (s.daDisable d).Balanced := h.daHalt.daUnderrun.setDac

theorem writeDaCtl {d w} (h : s.Balanced) : (s.writeDaCtl d w).Balanced := by
  unfold State.writeDaCtl
  extract_lets _ s1 s2 s3
  have h1 : s1.Balanced := h.setWord
  have h2 : s2.Balanced := by unfold s2; split <;> [exact h1.daEnable; exact h1.daDisable; exact h1]
  have h3 : s3.Balanced := .ite h2.daHalt h2
  exact .ite h3.daGo h3

theorem writeDaSrc {d v} (h : s.Balanced) : (s.writeDaSrc d v).Balanced := .ite h.flagIf h.setF.connect
theorem writeDaListen {d k w} (h : s.Balanced) : (s.writeDaListen d k w).Balanced := h.setWord
theorem writeSegLen {d k w} (h : s.Balanced) : (s.writeSegLen d k w).Balanced := h.setF
theorem paddrNext {d} (h : s.Balanced) : (s.paddrNext d).Balanced := h.setF
theorem pdataWrite {d w} (h : s.Balanced) : (s.pdataWrite d w).Balanced := h.setDac.paddrNext
theorem pdataRead {d} (h : s.Balanced) : (s.pdataRead d).Balanced := h.paddrNext.withReadData

/-! ### Machine/Pulse -/

theorem setCab {k c} (h : s.Balanced) : (s.setCab k c).Balanced := ⟨h.groups⟩
theorem setAgent {k a p} (h : s.Balanced) : (s.setAgent k a p).Balanced := h.setCab
theorem setInPort {k j p} (h : s.Balanced) : (s.setInPort k j p).Balanced := h.setCab
theorem setOutPort {k j p} (h : s.Balanced) : (s.setOutPort k j p).Balanced := h.setCab
theorem xovf {bit lost} (h : s.Balanced) : (s.xovf bit lost).Balanced := .ite h.setBit h
theorem xrst {bit lost} (h : s.Balanced) : (s.xrst bit lost).Balanced := .ite h.setBit h

/-! ### Machine/Pigeon -/

theorem pulsePort {k a isFault} (h : s.Balanced) : (s.pulsePort k a isFault).Balanced := h.setAgent.xovf

theorem notifyEmpty {c} (h : s.Balanced) : (s.notifyEmpty c).Balanced := by
  unfold State.notifyEmpty
  dsimp only
  split
  · exact h.setChan
  · split
    · exact h
    · split
      · exact h.setChan
      · exact h.pulsePort
      · exact h

theorem notifyFault {c aborted} (h : s.Balanced) : (s.notifyFault c aborted).Balanced := by
  unfold State.notifyFault
  dsimp only
  split
  · exact h.setChan
  · exact h.pulsePort
  · exact h

theorem postOn {c w} (h : s.Balanced) : (s.postOn c w).Balanced := h.setChan
theorem takeFrom {c} (h : s.Balanced) : (s.takeFrom c).Balanced := .ite h.lowerChan.notifyEmpty h
theorem setDoorbell {c w} (h : s.Balanced) : (s.setDoorbell c w).Balanced := h.setChan
theorem clearDoorbell {c w} (h : s.Balanced) : (s.clearDoorbell c w).Balanced := h.lowerChan
theorem countChans (h : s.Balanced) : s.countChans.Balanced := h.setF.setF
theorem freeChan {c} (h : s.Balanced) : (s.freeChan c).Balanced := h.lowerChan.countChans
theorem allocChan {c snd rcv} (h : s.Balanced) : (s.allocChan c snd rcv).Balanced := h.setChan.countChans
theorem freeSecure {k} (h : s.Balanced) : (s.freeSecure k).Balanced := h.foldl (fun h => .ite h.freeChan h)
theorem receiverReset {c} (h : s.Balanced) : (s.receiverReset c).Balanced := .ite h h.lowerChan.notifyFault
theorem senderReset {c} (h : s.Balanced) : (s.senderReset c).Balanced := h.setChan

theorem resetAgents {p} (h : s.Balanced) : (s.resetAgents p).Balanced :=
  h.foldl (fun h => .ite (.ite (senderReset (.ite h.receiverReset h)) (.ite h.receiverReset h)) h)

theorem resetHosts (h : s.Balanced) : s.resetHosts.Balanced := h.resetAgents
theorem resetBureauAgent (h : s.Balanced) : s.resetBureauAgent.Balanced := h.resetAgents
theorem resetTwinAgent (h : s.Balanced) : s.resetTwinAgent.Balanced := h.resetAgents

theorem clearCrossings {k} (h : s.Balanced) : (s.clearCrossings k).Balanced := by
  unfold State.clearCrossings
  extract_lets _ _ _ _ _ s1 s2
  have h1 : s1.Balanced := h.setAgent.setAgent
  have h2 : s2.Balanced := ⟨h1.groups⟩
  exact h2.xrst.xrst.xrst.xrst

theorem resetPortAgents {p} (h : s.Balanced) : (s.resetPortAgents p).Balanced := h.resetAgents
theorem resetPorts {k} (h : s.Balanced) : (s.resetPorts k).Balanced := h.clearCrossings.resetPortAgents
theorem badPage {func c} (h : s.Balanced) : (s.badPage func c).Balanced := h.flag.setF.setF
theorem writeSndCtl {c w} (h : s.Balanced) : (s.writeSndCtl c w).Balanced := h.setChan

theorem pageWrite {func c ofs w} (h : s.Balanced) : (s.pageWrite func c ofs w).Balanced := by
  unfold State.pageWrite
  dsimp only
  split
  · exact .ite h.postOn h.badPage
  · exact .ite h.setChan h.badPage
  · exact .ite h.setChan h.badPage
  · exact .ite h.setDoorbell h.badPage
  · exact .ite h.clearDoorbell h.badPage
  · exact .ite h.writeSndCtl h.badPage
  · exact .ite h.setChan h.badPage
  · exact .ite h h.badPage
  · exact .ite h h.badPage
  · exact h.badPage

theorem msgTake {func c} (h : s.Balanced) : (s.msgTake func c).Balanced := by
  unfold State.msgTake
  dsimp only
  split
  · exact h.takeFrom.withReadData
  · exact h.badPage.withReadData

/-! ### Machine/Fabric -/

theorem setFrameWord {fa k v} (h : s.Balanced) : (s.setFrameWord fa k v).Balanced := ⟨h.groups⟩
theorem setFcell {k i x} (h : s.Balanced) : (s.setFcell k i x).Balanced := ⟨h.groups⟩
theorem setLineX {k e x} (h : s.Balanced) : (s.setLineX k e x).Balanced := ⟨h.groups⟩

theorem isolate {k} (h : s.Balanced) : (s.isolate k).Balanced := by
  unfold State.isolate
  dsimp only
  split
  · exact h
  · exact h.setCab

theorem endIsolation {k} (h : s.Balanced) : (s.endIsolation k).Balanced := h.setCab
theorem setCbState {k v} (h : s.Balanced) : (s.setCbState k v).Balanced := h.setF

theorem flushBoundary {k} (h : s.Balanced) : (s.flushBoundary k).Balanced :=
  h.foldl (fun h => h.addWrap.addWrap.xrst.setInPort.setOutPort)

theorem startCells {k} (h : s.Balanced) : (s.startCells k).Balanced := h.foldl (fun h => h.setFcell)
theorem storeGclk {i w} (h : s.Balanced) : (s.storeGclk i w).Balanced := h.setWord
theorem storeFpll {m} (h : s.Balanced) : (s.storeFpll m).Balanced := foldl (.ite h h.setF.setF) (fun h => .ite h.setF h)

theorem writeIf {t : State} {ok a ignored} (h : s.Balanced) (h1 : t.Balanced)
    (hignored : ∀ {t}, t.Balanced → (ignored t).Balanced) : (s.writeIf t ok a ignored).Balanced :=
  .ite h1 (.ite h (hignored h))

theorem writeGclk {i w} (h : s.Balanced) : (s.writeGclk i w).Balanced := h.writeIf h.storeGclk (fun h => h.flag)
theorem writeFpll {w} (h : s.Balanced) : (s.writeFpll w).Balanced := h.writeIf h.storeFpll (fun h => h.flag)
theorem writeFabCtl {k w} (h : s.Balanced) : (s.writeFabCtl k w).Balanced := h.writeIf h.setB (fun h => h.flag)
theorem peek {k} (h : s.Balanced) : (s.peek k).Balanced := .ite h.flag.withReadData h.withReadData

/-! ### Machine/Images -/

theorem touchFrame {fa} (h : s.Balanced) : (s.touchFrame fa).Balanced := .ite h.withScrub h

theorem imageWrite {x k} (h : s.Balanced) (hk : ∀ {t}, t.Balanced → (k t).Balanced) : (s.imageWrite x k).Balanced :=
  .ite (hk h) (.ite h.withScrub (.ite (hk h) (hk h).withScrub))

/-! ### Machine/Boundary -/

theorem showGroup {k j} (h : s.Balanced) : (s.showGroup k j).Balanced := .ite h (.ite h.setInPort h)

theorem fpIn {k j} (h : s.Balanced) : (s.fpIn k j).Balanced := by
  unfold State.fpIn
  dsimp only
  split
  · exact h
  · exact .ite h.consume.setInPort.showGroup h.consume.setInPort.addWrap

theorem fpTake {k j} (h : s.Balanced) : (s.fpTake k j).Balanced := .ite h.setInPort.showGroup h

theorem fpInAll {k j fuel} (h : s.Balanced) : (s.fpInAll k j fuel).Balanced := by
  induction fuel generalizing s with
  | zero => exact h
  | succ n ih => exact .ite h (ih h.fpIn)

theorem writeFpiSrc {k j v} (h : s.Balanced) : (s.writeFpiSrc k j v).Balanced :=
  .ite h h.fpTake.fpInAll.setInPort.addWrap.setF.connect

theorem regroup {k j} (h : s.Balanced) : (s.regroup k j).Balanced := .ite h.showGroup h.setInPort

theorem fpDrain {k j fuel} (h : s.Balanced) : (s.fpDrain k j fuel).Balanced := by
  induction fuel generalizing s with
  | zero => exact h
  | succ n ih =>
    unfold State.fpDrain
    dsimp only
    split
    · exact h
    · exact .ite h (ih h.setOutPort.emit)

theorem fpOut {k j} (h : s.Balanced) : (s.fpOut k j).Balanced := by
  unfold State.fpOut
  dsimp only
  split
  · exact h
  · exact fpDrain (.ite h.setOutPort h.setOutPort.addWrap)

theorem drainPorts (h : s.Balanced) : s.drainPorts.Balanced := h.foldl (fun ht => ht.foldl (fun h => h.fpDrain))

theorem deliver {r w} (h : s.Balanced) : (s.deliver r w).Balanced :=
  .ite h.setRing.emit h.setRing.emit.setRing.addWrap.countBlock

theorem pumpRing {r fuel} (h : s.Balanced) : (s.pumpRing r fuel).Balanced := by
  induction fuel generalizing s with
  | zero => exact h
  | succ n ih =>
    unfold State.pumpRing
    split
    · exact h
    · exact .ite h (ih h.deliver)

theorem countLate {r} (h : s.Balanced) : (s.countLate r).Balanced := .ite h h.setRing
theorem pump (h : s.Balanced) : s.pump.Balanced := h.drainPorts.foldl (fun h => .ite h h.countLate.pumpRing)
theorem setFrqX {f x} (h : s.Balanced) : (s.setFrqX f x).Balanced := ⟨h.groups⟩
theorem scanFrq {k} (h : s.Balanced) : (s.scanFrq k).Balanced := h.foldl (fun h => .ite h.setCab.setFrqX.xovf h.setCab)
theorem frqEdges {k} (h : s.Balanced) : (s.frqEdges k).Balanced := h.foldl (fun h => h.setFrqX)
theorem settlePorts {k} (h : s.Balanced) : (s.settlePorts k).Balanced := h.foldl (fun h => h.fpTake.fpOut)
theorem takeCab {u : State} {k} (h : s.Balanced) : (s.takeCab u k).Balanced := ⟨h.groups⟩

theorem fabEdge {mask pins} (h : s.Balanced) : (s.fabEdge mask pins).Balanced := by
  unfold State.fabEdge
  extract_lets _ _ _ s1 _ s2 s3
  have h1 : s1.Balanced := h.withDio.foldl (fun h => h.settlePorts)
  have h2 : s2.Balanced := h1.foldl (fun h => h.takeCab)
  have h3 : s3.Balanced := h2.foldl (fun h => scanFrq (.ite h.frqEdges h))
  exact ⟨h3.groups⟩

theorem latchPins (h : s.Balanced) : s.latchPins.Balanced := h.withDio
theorem writePinCfg {n w} (h : s.Balanced) : (s.writePinCfg n w).Balanced := h.writeIf h.setWord (fun h => h.flag)
theorem writeBankCtl {b w} (h : s.Balanced) : (s.writeBankCtl b w).Balanced := h.writeIf h.setB (fun h => h.flag)
theorem writeBnd {k a v} (h : s.Balanced) : (s.writeBnd k a v).Balanced := h.writeIf h.setWord (fun h => h.flag)
theorem setFpiCfg {k j w} (h : s.Balanced) : (s.setFpiCfg k j w).Balanced := h.fpTake.setWord.regroup

theorem writeFpiCfg {k j w} (h : s.Balanced) : (s.writeFpiCfg k j w).Balanced :=
  h.writeIf (.ite h h.setFpiCfg) (fun h => h.flag)

theorem setProbe {p x} (h : s.Balanced) : (s.setProbe p x).Balanced := ⟨h.groups⟩
theorem tapProbe {p} (h : s.Balanced) : (s.tapProbe p).Balanced := h.connect

theorem writePrbCtl {p w} (h : s.Balanced) : (s.writePrbCtl p w).Balanced := by
  unfold State.writePrbCtl
  extract_lets _ _ _ s1 s2
  have h1 : s1.Balanced := h.setWord.flagIf
  have h2 : s2.Balanced := by unfold s2; split <;> [exact h1.setProbe; exact h1.sourceStops; exact h1]
  exact h2.tapProbe

theorem writePrbSel {p w} (h : s.Balanced) : (s.writePrbSel p w).Balanced := (h.writeIf h.setWord (fun h => h.flag)).tapProbe
theorem probeEmit {p w} (h : s.Balanced) : (s.probeEmit p w).Balanced := h.setProbe.emit.addWrap

theorem probeSample {p} (h : s.Balanced) : (s.probeSample p).Balanced := by
  unfold State.probeSample
  dsimp only
  split
  · exact h
  · split
    · exact .ite (.ite h.flagIf.probeEmit h.setProbe) h
    · exact .ite (.ite h.flagIf.probeEmit h.setProbe) h
    · split
      · exact h
      · exact .ite h.consume.probeEmit h.consume.setProbe
    · exact h

theorem grantPort {k a} (h : s.Balanced) : (s.grantPort k a).Balanced := h.withArb

theorem portPosts {k a c w} (h : s.Balanced) : (s.portPosts k a c w).Balanced :=
  .ite h.setAgent.postOn.setAgent h.setAgent.flag.setAgent

theorem agentPost {k a} (h : s.Balanced) : (s.agentPost k a).Balanced := by
  unfold State.agentPost
  split
  · exact h
  · exact .ite h.grantPort.portPosts h

theorem agentTake {k a} (h : s.Balanced) : (s.agentTake k a).Balanced := by
  unfold State.agentTake
  dsimp only
  split
  · exact h
  · exact .ite (.ite h.grantPort.setAgent.takeFrom h.grantPort.setAgent) h

theorem agentDbclr {k a} (h : s.Balanced) : (s.agentDbclr k a).Balanced := by
  unfold State.agentDbclr
  dsimp only
  split
  · exact h
  · exact .ite (.ite h.grantPort.setAgent.clearDoorbell h.grantPort.setAgent) h

theorem fabricRequest {f} (h : s.Balanced) : (s.fabricRequest f).Balanced :=
  .ite (h.setFrqX.foldl (fun h => .ite h.cgRequest h)) h

/-! ### Machine/Analog -/

theorem azSettle {c} (h : s.Balanced) : (s.azSettle c).Balanced := .ite h.setCell (.ite (.ite h.setCell h) (.ite h h.setCell))

theorem azBoundary {c} (h : s.Balanced) : (s.azBoundary c).Balanced := by
  unfold State.azBoundary
  dsimp only
  split
  · exact h
  · split
    · exact h.setCell
    · exact h.setCell
    · exact h.setCell
    · exact h

theorem azSwap {c} (h : s.Balanced) : (s.azSwap c).Balanced := .ite h.setCell.addWrap.azSettle h

theorem azTrim {c tries} (h : s.Balanced) : (s.azTrim c tries).Balanced := by
  unfold State.azTrim
  dsimp only
  split
  · split
    · exact h.setF.unmarkField.setCell
    · exact .ite h h.setCell.addSat.flag
  · exact h

theorem applyMatrix {a r w} (h : s.Balanced) : (s.applyMatrix a r w).Balanced := by
  unfold State.applyMatrix
  dsimp only
  split
  · exact .ite h.setWord.flagIf.wmHold h.setWord.flagIf
  · exact .ite h.setWord.azSettle.cellReset h.setWord.azSettle
  · exact h.setWord

theorem writeMatrix {a r w} (h : s.Balanced) : (s.writeMatrix a r w).Balanced := by
  unfold State.writeMatrix
  dsimp only
  split
  · exact h.flag.nameNet
  · exact h.applyMatrix

theorem writeAcAz {c w} (h : s.Balanced) : (s.writeAcAz c w).Balanced := h.setF.setF.azSettle
theorem writeAcTrim {c k w} (h : s.Balanced) : (s.writeAcTrim c k w).Balanced := (setWord (.ite h h.setCell)).flagIf
theorem writeAcGain {c w} (h : s.Balanced) : (s.writeAcGain c w).Balanced := h.setF
theorem writeAcTune {c w} (h : s.Balanced) : (s.writeAcTune c w).Balanced := h.setWord.setF
theorem writeAcSc {c w} (h : s.Balanced) : (s.writeAcSc c w).Balanced := h.setF.setF
theorem restartAz (h : s.Balanced) : s.restartAz.Balanced := h.foldl (fun h => h.setCell)
theorem clearHeld (h : s.Balanced) : s.clearHeld.Balanced := ⟨h.groups⟩
theorem cellTo {c dt} (h : s.Balanced) : (s.cellTo c dt).Balanced := .ite h h.cellSettle

/-! ### Machine/CalStore -/

theorem loadCal {v} (h : s.Balanced) : (s.loadCal v).Balanced :=
  (h.foldl (fun h => .ite h h.setWord)).foldl (fun h => h.refillMap)

theorem bootCal {ok} (h : s.Balanced) : (s.bootCal ok).Balanced := by
  unfold State.bootCal
  split
  · exact h.loadCal.setF.flag
  · exact h.loadCal.setF.setF

/-! ### Machine/LcsClock -/

theorem followRef {was n} (h : s.Balanced) : (s.followRef was n).Balanced := .ite h.rsRefLost h
theorem onRef {n k} (h : s.Balanced) (hk : ∀ {t}, t.Balanced → (k t).Balanced) : (s.onRef n k).Balanced := (hk h).followRef

theorem onPair {n k} (h : s.Balanced) (hk : ∀ {t}, t.Balanced → (k t).Balanced) : (s.onPair n k).Balanced :=
  .ite (h.onRef hk).followRef (h.onRef (fun h => hk h))

theorem followRefs {before : State} (h : s.Balanced) : (s.followRefs before).Balanced := h.foldl (fun h => h.followRef)

theorem rebase {old} (h : s.Balanced) : (s.rebase old).Balanced :=
  foldl ⟨h.groups⟩ fun h => h.setRest rfl rfl

theorem firstLock (h : s.Balanced) : s.firstLock.Balanced := .ite h.pllLock.followRefs.rebase.wmRelock.restartAz h

theorem relock (h : s.Balanced) : s.relock.Balanced := by
  unfold State.relock
  extract_lets t u v
  have hv : v.Balanced := (h.pllRelock.followRefs.foldl fun h => h.refFalls).abandonDacs.wmRelock.restartAz
  exact .ite (.ite hv.resumeDacs hv) h

/-! ### Machine/Rings -/

theorem pdirLo {w} (h : s.Balanced) : (s.pdirLo w).Balanced := h.setWord
theorem pdirHi {w} (h : s.Balanced) : (s.pdirHi w).Balanced := setF (.ite h (.ite h.flag ⟨h.groups⟩))
theorem writeTail {r w} (h : s.Balanced) : (s.writeTail r w).Balanced := .ite h.setF h.flag
theorem writeHead {r w} (h : s.Balanced) : (s.writeHead r w).Balanced := .ite h.setF h.flag
theorem hostWrite {a bytes} (h : s.Balanced) : (s.hostWrite a bytes).Balanced := ⟨h.groups⟩
theorem issueBlock {r b} (h : s.Balanced) : (s.issueBlock r b).Balanced := h.hostWrite.hostWrite.setRing.setF.countBlock
theorem replayLevel (h : s.Balanced) : s.replayLevel.Balanced := h.setF.setF
theorem passBlock {r b} (h : s.Balanced) : (s.passBlock r b).Balanced := h.setRing.setF
theorem confirm {r} (h : s.Balanced) : (s.confirm r).Balanced := (h.withTwin.foldl (fun h => h.passBlock)).replayLevel

theorem toReplay {r b} (h : s.Balanced) : (s.toReplay r b).Balanced := by
  unfold State.toReplay
  dsimp only
  split
  · exact h.withTwin.replayLevel.confirm
  · exact .ite h.passBlock.flag.withTwin.replayLevel.confirm h.withTwin.replayLevel.confirm

theorem writeBlock {r} (h : s.Balanced) : (s.writeBlock r).Balanced := by
  unfold State.writeBlock
  dsimp only
  split
  · exact h
  · exact .ite h.setRing.toReplay (.ite h.setRing.issueBlock h)

theorem grantWrite {r} (h : s.Balanced) : (s.grantWrite r).Balanced := .ite h.withArb.writeBlock.pump h

theorem writeBlocks {r fuel} (h : s.Balanced) : (s.writeBlocks r fuel).Balanced := by
  induction fuel generalizing s with
  | zero => exact h
  | succ n ih => exact ih h.writeBlock

theorem flushRings (h : s.Balanced) : s.flushRings.Balanced := h.foldl (fun h => .ite h h.closeBlock.writeBlocks)

theorem admitRing {r} (h : s.Balanced) : (s.admitRing r).Balanced :=
  .ite h.setRing.flag.setF.setF.addCharge.withTwin h.setRing.flag.setF.setF.addCharge.withTwin.setFeed

theorem endRing {r} (h : s.Balanced) : (s.endRing r).Balanced :=
  (passTail (.ite h.detachRing h.detachRing.closeBlock.writeBlocks)).setRing.addCharge.setF

theorem fetch {r} (h : s.Balanced) : (s.fetch r).Balanced := .ite h.setRing.withArb h
theorem fetched {r data} (h : s.Balanced) : (s.fetched r data).Balanced := .ite h.setRing.pumpRing h.setRing
theorem snapRing {r} (h : s.Balanced) : (s.snapRing r).Balanced := h.setPair.setPair.setPair
theorem writeRingCfg {r a v} (h : s.Balanced) : (s.writeRingCfg r a v).Balanced := h.writeIf h.setWord (fun h => h.flag)

/-! ### Machine/Modes -/

theorem resetRegs {p keep} (h : s.Balanced) : (s.resetRegs p keep).Balanced := ⟨h.groups⟩

theorem stopSources (h : s.Balanced) : s.stopSources.Balanced :=
  (h.foldl (fun ht => .ite (ht.foldl (fun h => h.sourceStops)) ht)).foldl (fun h => .ite h.sourceStops h)

theorem unplug (h : s.Balanced) : s.unplug.Balanced := ⟨h.groups⟩
theorem refSelReset (h : s.Balanced) : s.refSelReset.Balanced := h.foldl (fun h => .ite h h.refFalls)
theorem portsReset (h : s.Balanced) : s.portsReset.Balanced := h.foldl (fun h => .ite h h.wmHold)

theorem resetHard (h : s.Balanced) : s.resetHard.Balanced := by
  unfold State.resetHard
  extract_lets _ s1 s2 _ _ _ _ s3
  have h2 : s2.unplug.Balanced := h.stopSources.refSelReset.portsReset.resetRegs.unplug
  clear_value s2
  have h3 : s3.Balanced := by
    refine ⟨fun e he => ?_⟩
    obtain ⟨d, -, hd⟩ := List.mem_filterMap.mp he
    dsimp only at hd
    split at hd
    · cases hd
    · cases hd
      exact .ofCore rfl rfl
  exact h3.noteVectors

theorem stopPorts {k} (h : s.Balanced) : (s.stopPorts k).Balanced := .ite h (h.foldl (fun h => h.sourceStops))

theorem emptyCabs (h : s.Balanced) : s.emptyCabs.Balanced := by
  unfold State.emptyCabs
  extract_lets _ s1
  have h1 : s1.Balanced := (h.foldl (fun h => h.stopPorts.flushBoundary.clearCrossings)).resetPortAgents
  exact h1.setF.setF.foldl (fun h => h.freeSecure.setWord.setWord.setWord.setF.setCab)

theorem strayWords (h : s.Balanced) : s.strayWords.Balanced := h.flagIf
theorem dropStream (h : s.Balanced) : s.dropStream.Balanced := h.strayWords.withStream.connect.pump

theorem enterBlank {frames} (h : s.Balanced) : (s.enterBlank frames).Balanced := by
  unfold State.enterBlank
  extract_lets s1 _ _ _ _ s2
  have h1 : s1.Balanced := h.abandonAll.emptyCabs.resetHard.strayWords
  clear_value s1
  have h2 : s2.Balanced := ⟨h1.groups⟩
  exact .ite ⟨h2.groups⟩ h2

theorem enterLoad {src ring} (h : s.Balanced) : (s.enterLoad src ring).Balanced := by
  unfold State.enterLoad
  extract_lets s1 _ _ s2 s3 s4 s5
  have h1 : s1.Balanced := .ite h.emptyCabs.resetHard h.enterBlank
  have h2 : s2.Balanced := ⟨h1.groups⟩
  have h3 : s3.Balanced := h2.setF.setF.setF
  have h4 : s4.Balanced := h3.setF.setF.setF
  have h5 : s5.Balanced := h4.setF.setF
  exact .ite h5.connect.pump h5

theorem toMode {m cause} (h : s.Balanced) : (s.toMode m cause).Balanced := by
  unfold State.toMode
  extract_lets _ _ s1 s2 s3 _ s4
  have h1 : s1.Balanced := ⟨h.groups⟩
  have h3 : s3.Balanced := h1.setF.setF.setF.flag
  clear_value s3
  have h4 : s4.Balanced := ⟨h3.groups⟩
  clear_value s4
  exact .ite h4 (setF ⟨h4.groups⟩)

theorem goBlank {cause frames} (h : s.Balanced) : (s.goBlank cause frames).Balanced := h.enterBlank.toMode
theorem goLoad {src ring cause} (h : s.Balanced) : (s.goLoad src ring cause).Balanced := h.enterLoad.toMode
theorem stopConverting (h : s.Balanced) : s.stopConverting.Balanced := h.abandonAll.abandonDacs.pauseGroups
theorem startConverting (h : s.Balanced) : s.startConverting.Balanced := h.resumeGroups.resumeChains.resumeDacs.busUpdates

theorem goBench (h : s.Balanced) : s.goBench.Balanced := by
  unfold State.goBench
  extract_lets s1
  have h1 : s1.Balanced := h.latchPins.stopConverting.benchGroups.estClear.clearHeld
  exact h1.toMode

theorem benchToRun (h : s.Balanced) : s.benchToRun.Balanced := by
  unfold State.benchToRun
  extract_lets s1 _ _ s2
  have h1 : s1.Balanced := h.toMode
  clear_value s1
  have h2 : s2.Balanced := startConverting ⟨h1.groups⟩
  exact h2.restartAz.pump

theorem heldMemories : s.heldMemories.Balanced := ⟨fun _ he => nomatch he⟩
theorem keepOutside {s t : State} (ht : t.Balanced) : (s.keepOutside t).Balanced := foldl ⟨ht.groups⟩ fun h => h.setB

theorem goReset {cause held} : (s.goReset cause held).Balanced := by
  unfold State.goReset
  extract_lets t _ u
  have ht : t.Balanced := keepOutside (.ite heldMemories reset)
  clear_value t
  have hu : u.Balanced := .ite ⟨ht.groups⟩ ht
  exact hu.setF

/-! ### Machine/Access -/

theorem writePlain {a w} (h : s.Balanced) : (s.writePlain a w).Balanced := by
  unfold State.writePlain
  split
  · exact h.setWord
  · exact h

theorem writeGuarded {a w prot closed flag} (h : s.Balanced) (hflag : ∀ {t}, t.Balanced → (flag t).Balanced) :
    (s.writeGuarded a w prot closed flag).Balanced := by
  unfold State.writeGuarded
  dsimp only
  split
  · exact .ite (hflag h.setWord) h.setWord
  · exact h

theorem writeCal {a w whole k} (h : s.Balanced) (hk : ∀ {t}, t.Balanced → (k t).Balanced) : (s.writeCal a w whole k).Balanced :=
  .ite h.writePlain.flag ((hk h).foldl (fun h => .ite h.setF.unmarkHalf h))

theorem writeDev {a w} (h : s.Balanced) : (s.writeDev a w).Balanced := .ite (h.writeGuarded (fun h => h.flag)) h.writePlain

theorem writeBur {a w} (h : s.Balanced) : (s.writeBur a w).Balanced :=
  .ite (.ite h.flag (.ite h.setF h)) (.ite h.flag h.writePlain)

theorem writeLcs {r a w} (h : s.Balanced) : (s.writeLcs r a w).Balanced := by
  unfold State.writeLcs
  extract_lets
  exact h.lcsWrite (fun ht => .ite ht.writeLcsCtl.followRefs <| .ite (.ite ht.snapTime ht) <|
    .ite (ht.writeGuarded (fun h => h.flag)) <| .ite (ht.writeGuarded (fun h => h.flag)) <|
    .ite (ht.onPair (fun h => h.writePrCfg)) <| .ite (.ite ht.snapRef ht) <| .ite ht.writePaCtl <|
    .ite ht.writePaTarget <| .ite ht.writePaFilter <| .ite ht.writeTtCtl <| .ite ht.writePlain <|
    .ite (.ite ht.setCapture ht) ht.writePlain)

theorem writeAnalog {r a w} (h : s.Balanced) : (s.writeAnalog r a w).Balanced := by
  unfold State.writeAnalog
  dsimp only
  split
  · exact .ite h.writeMatrix h
  · exact .ite h.writeAcGain <| .ite h.writeAcTune <| .ite h.writeAcSc <| .ite h.writeAcAz <|
      .ite (h.writeCal (fun h => h.writeAcTrim)) <| .ite (h.writeCal (fun h => h.writePlain)) h.writePlain

theorem writeCg {r a w} (h : s.Balanced) : (s.writeCg r a w).Balanced := by
  unfold State.writeCg
  extract_lets
  exact h.sclkWrite (fun ht => .ite ht.writeCgCtl <| .ite ht.writeSeqctl <| .ite ht.writeCgRef <| .ite ht.writeListen <|
    .ite ht.writeFtrig <| .ite ht.writeWinArm <| .ite (.ite ht.cgSnap ht) <| .ite (.ite (ht.setRest rfl rfl) ht) <|
    .ite ht.writeRotCtl <| .ite (ht.writeCal (fun h => h.writeSlice)) <| .ite (ht.writeCal (fun h => h.writeSlice)) <|
    .ite (ht.writeCal (fun h => h.writeResidual)) <| .ite (ht.writeCal (fun h => h.writeResidual)) ht.writePlain)

theorem writeFc {r a w} (h : s.Balanced) : (s.writeFc r a w).Balanced := by
  unfold State.writeFc
  extract_lets
  exact h.fcWrite (fun ht => .ite ht.writeFcCtl <| .ite ht.writeFcSrc <| .ite ht.writeFcCic <| .ite ht.writeWhileOff <|
    .ite ht.writeFcFir <| .ite ht.writeFcInfo <| .ite ht.writeFcBank <| .ite ht.writeFcBank <|
    .ite (.ite ht.setPair.setPair.setPair ht) <| .ite (.ite ht.setChain ht) <| .ite (.ite ht.setChain ht) <|
    .ite ht.writeRsCtl <| .ite ht.commitInc <| .ite (ht.writeGuarded (fun h => h.flag)) <|
    .ite ht.cdataWrite ht.writePlain)

theorem writeDa {r a w} (h : s.Balanced) : (s.writeDa r a w).Balanced := by
  unfold State.writeDa
  extract_lets
  exact h.daWrite (fun ht => .ite ht.writeDaCtl <| .ite ht.writeDaSrc <| .ite ht.writeDaListen <| .ite ht.writeSegLen <|
    .ite ht.pdataWrite <| .ite (ht.writeCal (fun h => h.writePlain)) ht.writePlain)

theorem writeWm {r a w} (h : s.Balanced) : (s.writeWm r a w).Balanced := by
  unfold State.writeWm
  extract_lets
  exact .ite h.writeWmCtl <| .ite h.writeWmThr <| .ite h.writeWmHys <| .ite (h.writeCal (fun h => h.writeWmTrim)) <|
    .ite h.writeWmBlank <| .ite h.writeWmLatch <| .ite h.writeWmPclr h.writePlain

theorem writeCalBlock {a w} (h : s.Balanced) : (s.writeCalBlock a w).Balanced :=
  .ite h.writePlain (h.writeCal (fun ht => ht.writeGuarded (fun h => h.flag)))

theorem writeScrb {a w} (h : s.Balanced) : (s.writeScrb a w).Balanced := by
  unfold State.writeScrb
  extract_lets s1 _ _ s2
  have h1 : s1.Balanced := h.writePlain
  have h2 : s2.Balanced := ⟨h1.groups⟩
  exact .ite h1.withVoted (.ite (.ite h2 h2.withScrub.setF) h1)

theorem writeDma {r a w} (h : s.Balanced) : (s.writeDma r a w).Balanced := by
  unfold State.writeDma
  extract_lets
  exact .ite h.writeRingCfg <| .ite h.writeRingCfg <| .ite h.writeRingCfg <| .ite h.writeRingCfg <|
    .ite h.writeTail.pump <| .ite h.writeHead <| .ite (.ite h.snapRing h) <| .ite h.pdirLo <| .ite h.pdirHi h.writePlain

theorem writeFabric {r a w} (h : s.Balanced) : (s.writeFabric r a w).Balanced := by
  unfold State.writeFabric
  extract_lets
  exact .ite h.writeFabCtl <| .ite h.writePlain <| .ite h.writeGclk <| .ite h.writeFpll <| .ite h.writePinCfg <|
    .ite h.writeBankCtl <| .ite h.writeBnd <| .ite h.writeBnd <| .ite h.writeFpiSrc <| .ite h.writeFpiCfg <|
    .ite h.writePrbCtl <| .ite h.writePrbSel h.writePlain

theorem writeTwn {a w} (h : s.Balanced) : (s.writeTwn a w).Balanced := .ite h.writePlain h.writePlain

theorem writeNow {a w} (h : s.Balanced) : (s.writeNow a w).Balanced := by
  unfold State.writeNow
  split
  · exact h
  · exact .ite h <| .ite h.writeDev <| .ite h.writePlain <| .ite h.writePlain <| .ite h.writeScrb <| .ite h.writeBur <|
      .ite h.writeLcs <| .ite h.writeAnalog <| .ite h.writeCg <| .ite h.writeFc <| .ite h.writeWm <| .ite h.writeDa <|
      .ite h.writeCalBlock <| .ite h.writePlain <| .ite h.writeDma <| .ite h.writeFabric <| .ite h.writeTwn h

theorem copyNow {a w} (h : s.Balanced) : (s.copyNow a w).Balanced := by
  unfold State.copyNow
  dsimp only
  split
  · exact h
  · split
    · exact .ite h.applyMatrix h
    · exact .ite h (.ite h.writeFpiSrc (.ite (.ite h h.setFpiCfg) (.ite h.setWord h.writeNow)))

theorem writeHeld {l} (h : s.Balanced) : (s.writeHeld l).Balanced := h.foldl (fun h => .ite h.copyNow h.writeNow)

theorem writeReg {a w} (h : s.Balanced) : (s.writeReg a w).Balanced :=
  .ite h.writeNow.writeHeld (h.imageWrite (fun h => h.writeNow))

theorem copyReg {a w} (h : s.Balanced) : (s.copyReg a w).Balanced := h.imageWrite (fun h => h.copyNow)

/-! ### Machine/Boot -/

theorem showKeys {i} (h : s.Balanced) : (s.showKeys i).Balanced := h.setPair.setPair
theorem keyLow (h : s.Balanced) : s.keyLow.Balanced := h.flagIf

theorem release {compat boot} (h : s.Balanced) : (s.release compat boot).Balanced := by
  unfold State.release
  extract_lets _ _ s1
  have h1 : s1.Balanced := ⟨h.groups⟩
  exact h1.setB.setB.setF

theorem bootEnds {err trng store} (h : s.Balanced) : (s.bootEnds err trng store).Balanced := by
  unfold State.bootEnds
  extract_lets _ _ s1 s2 s3 s4
  have h1 : s1.Balanced := ⟨h.groups⟩
  have h2 : s2.Balanced := h1.setWord.flagIf
  have h3 : s3.Balanced := h2.setF.showKeys.keyLow.bootCal
  have h4 : s4.Balanced := h3.flag.setF
  exact .ite h2.setF h4.withBur.toMode

/-! ### Machine/Frames -/

theorem setCheck {fa c} (h : s.Balanced) : (s.setCheck fa c).Balanced := ⟨h.groups⟩

theorem writeImage {a v} (h : s.Balanced) : (s.writeImage a v).Balanced := by
  unfold State.writeImage
  dsimp only
  split
  · exact h
  · exact .ite h.setWord (.ite h.setB (.ite h.storeGclk (.ite h.storeFpll h.writeReg)))

theorem writeFrame {fa ws} (h : s.Balanced) : (s.writeFrame fa ws).Balanced := by
  unfold State.writeFrame
  extract_lets s1 s2
  have h1 : s1.Balanced := h.touchFrame
  have h2 : s2.Balanced := h1.foldl (fun h => h.setFrameWord)
  exact .ite h2.setCheck (h1.foldl (fun h => by split <;> [exact h.writeImage; exact h]))

/-! ### Machine/Loader -/

theorem setStream {x} (h : s.Balanced) : (s.setStream x).Balanced := h.withStream
theorem markRun (h : s.Balanced) : s.markRun.Balanced := h.withPwr
theorem endPartial (h : s.Balanced) : s.endPartial.Balanced := .ite h.toMode.markRun h
theorem setMeas {k m} (h : s.Balanced) : (s.setMeas k m).Balanced := h.setCab

theorem regionFail {k reason pos phase} (h : s.Balanced) : (s.regionFail k reason pos phase).Balanced :=
  h.setF.setF.setF.setF.setF.setCbState.flag.setMeas.dropStream.endPartial

theorem loadFail {reason pos} (h : s.Balanced) : (s.loadFail reason pos).Balanced := by
  unfold State.loadFail
  extract_lets s1
  have h1 : s1.Balanced := h.setF.setF.setF
  exact h1.dropStream.setF.toMode

theorem streamFailAt {reason pos} (h : s.Balanced) : (s.streamFailAt reason pos).Balanced := by
  unfold State.streamFailAt
  split
  · exact h.loadFail
  · exact h.regionFail

theorem streamFail {reason} (h : s.Balanced) : (s.streamFail reason).Balanced := h.streamFailAt

theorem countWord (h : s.Balanced) : s.countWord.Balanced := by
  unfold State.countWord
  split
  · exact h.setF.setF
  · exact h.setF

theorem setPhase {p} (h : s.Balanced) : (s.setPhase p).Balanced := by
  unfold State.setPhase
  split <;> exact h.setF

theorem takeDevice {i w} (h : s.Balanced) : (s.takeDevice i w).Balanced := by
  unfold State.takeDevice
  dsimp only
  split
  · exact .ite h.streamFail h
  · exact .ite h.streamFail (.ite h.streamFail h)
  · exact .ite h.setStream.setF h.setStream
  · exact .ite h.setStream.setF h.setStream.setMeas
  · exact .ite (.ite h.streamFail h) (.ite h.streamFail (.ite h.streamFail h.setStream))

theorem takeRegion {w} (h : s.Balanced) : (s.takeRegion w).Balanced := .ite h.streamFail (.ite h.streamFail h.setStream)

theorem endFrame {fa ws} (h : s.Balanced) : (s.endFrame fa ws).Balanced := by
  unfold State.endFrame
  dsimp only
  split
  · exact h.writeFrame.setStream.setF.setF
  · exact h.writeFrame.setStream.setMeas.setF

theorem takeFrameWord {w} (h : s.Balanced) : (s.takeFrameWord w).Balanced := by
  unfold State.takeFrameWord
  dsimp only
  split
  · exact h.streamFail
  · exact h.streamFail
  · exact .ite h.streamFail (.ite h.endFrame h.setStream)

theorem takeFrames {i w} (h : s.Balanced) : (s.takeFrames i w).Balanced := by
  unfold State.takeFrames
  dsimp only
  split
  · exact .ite h.streamFail h.setStream
  · exact .ite h.streamFail (.ite h.streamFail h)
  · exact h.takeFrameWord

theorem streamWrite {a v} (h : s.Balanced) : (s.streamWrite a v).Balanced := h.writeReg.setF
theorem analogValue {a v} (h : s.Balanced) : (s.analogValue a v).Balanced := .ite (.ite h.streamFail h.setStream) h.streamWrite

theorem takeAnalog {left w} (h : s.Balanced) : (s.takeAnalog left w).Balanced := by
  unfold State.takeAnalog
  extract_lets _ s1
  have h1 : s1.Balanced := h.setStream
  split
  · exact .ite h1.streamFail (.ite h1.streamFail (.ite h1.streamFail h1.setStream))
  · exact .ite h1.streamFail (.ite h1.streamFail h1.setStream)
  · exact h1.setStream.analogValue
  · exact h1.setStream.analogValue

theorem takeStartup {i w} (h : s.Balanced) : (s.takeStartup i w).Balanced := by
  unfold State.takeStartup
  dsimp only
  split
  · exact .ite h.streamFail h.setStream
  · exact .ite h.streamFail h.setStream
  · exact h.setStream
  · exact h
  · exact .ite h.streamFail h

theorem takeDigest {i w} (h : s.Balanced) : (s.takeDigest i w).Balanced := .ite h.streamFail h.setStream

theorem takeSignature {i w} (h : s.Balanced) : (s.takeSignature i w).Balanced :=
  .ite h.streamFail (.ite h.streamFail h.setStream)

theorem takeEnd {w} (h : s.Balanced) : (s.takeEnd w).Balanced := by
  unfold State.takeEnd
  dsimp only
  split
  · exact h.strayWords.setStream.setPhase.connect.pump.setF.toMode
  · exact h.strayWords.setStream.setPhase.connect.pump

theorem takePreamble {w} (h : s.Balanced) : (s.takePreamble w).Balanced :=
  .ite h.setStream.setPhase.countWord (.ite h.setStream h.streamFailAt)

theorem takeHeader {w} (h : s.Balanced) : (s.takeHeader w).Balanced := by
  unfold State.takeHeader
  extract_lets
  exact .ite h.streamFail (.ite h.streamFail (.ite h.streamFail (.ite h.streamFail (.ite h.streamFail h.setStream))))

theorem takeBody {w} (h : s.Balanced) : (s.takeBody w).Balanced := by
  unfold State.takeBody
  extract_lets _ _ _ s1
  have h1 : s1.Balanced := h.setStream
  exact .ite h1.takeDevice <| .ite h1.takeRegion <| .ite h1.takeFrames <| .ite h1.takeAnalog <| .ite h1.takeStartup <|
    .ite h1.takeDigest <| .ite h1.takeSignature h1.takeEnd

theorem takeStreamWord {w} (h : s.Balanced) : (s.takeStreamWord w).Balanced :=
  .ite h.takePreamble (.ite h.setStream.countWord.takeHeader h.setStream.countWord.takeBody)

theorem streamPop (h : s.Balanced) : s.streamPop.Balanced := .ite h.consume.pumpRing h.setStream

theorem takeUnit {u fuel} (h : s.Balanced) : (s.takeUnit u fuel).Balanced := by
  induction fuel generalizing s with
  | zero => exact h
  | succ k ih =>
    unfold State.takeUnit
    dsimp only
    split
    · exact .ite (.ite h.streamPop.takeStreamWord (ih h.streamPop.takeStreamWord)) h
    · exact h

theorem runUnit {u flash} (h : s.Balanced) : (s.runUnit u flash).Balanced := takeUnit (.ite h.setStream h)
theorem bar4 {words} (h : s.Balanced) : (s.bar4 words).Balanced := h.setStream.flagIf

/-! ### Machine/LoadEnd -/

theorem enterWakeUp (h : s.Balanced) : s.enterWakeUp.Balanced := by
  unfold State.enterWakeUp
  extract_lets _ _ _ s1
  have h1 : s1.Balanced := ⟨h.groups⟩
  exact h1.setF.toMode

theorem verifyLoad (h : s.Balanced) : s.verifyLoad.Balanced := by
  unfold State.verifyLoad
  extract_lets _ _ s1
  have h1 : s1.Balanced := h.census
  exact .ite h.loadFail (.ite h.loadFail (.ite h (.ite h.loadFail (.ite h1.enterWakeUp h1.loadFail))))

theorem applyDeferred (h : s.Balanced) : s.applyDeferred.Balanced := h.foldl (fun h => h.streamWrite)

theorem markCab {k secure} (h : s.Balanced) : (s.markCab k secure).Balanced :=
  setF (.ite h.setB.setWord h.setB.setWord.freeSecure)

theorem releaseCab {k} (h : s.Balanced) : (s.releaseCab k).Balanced :=
  h.startCells.flushBoundary.clearCrossings.setB.setCbState.markCab.setCab

theorem enableIo (h : s.Balanced) : s.enableIo.Balanced := by
  unfold State.enableIo
  extract_lets _ _ s1
  have h1 : s1.Balanced := ⟨h.groups⟩
  exact h1.foldl (fun h => h.wmHold)

theorem finishLoad {mclk} (h : s.Balanced) : (s.finishLoad mclk).Balanced := by
  unfold State.finishLoad
  extract_lets s1 s2 s3 s4 _ _ s5
  have h2 : s2.Balanced := (h.applyDeferred.foldl fun h => h.releaseCab).enableIo
  have h4 : s4.Balanced := h2.setF.setF.dropStream.toMode
  clear_value s4
  have h5 : s5.Balanced := ⟨h4.groups⟩
  exact h5.startConverting.pump

theorem regionBegin {k src ring} (h : s.Balanced) : (s.regionBegin k src ring).Balanced := by
  unfold State.regionBegin
  extract_lets _ s1 s2 s3 s4 s5 _ s6 _ s7 s8
  have h1 : s1.Balanced := h.stopPorts.isolate
  have h2 : s2.Balanced := h1.setF.resetPorts
  have h3 : s3.Balanced := h2.setWord.setWord.setF
  have h4 : s4.Balanced := h3.setF.setF.setF
  have h5 : s5.Balanced := h4.setWord
  have h6 : s6.Balanced := h5.setCbState.setMeas
  have h7 : s7.Balanced := h6.setStream
  have h8 : s8.Balanced := .ite h7.connect.pump h7
  exact .ite h8.toMode h8

theorem verifyRegion {k} (h : s.Balanced) : (s.verifyRegion k).Balanced := by
  unfold State.verifyRegion
  extract_lets _ _ s1 _ s2 _ s3
  have h1 : s1.Balanced := h.setCbState.setF
  have h2 : s2.Balanced := h1.setMeas
  have h3 : s3.Balanced := h2.setCab
  exact .ite h.regionFail (.ite h.regionFail (.ite h.regionFail (.ite h.regionFail h3.dropStream.flag)))

theorem regionRelease {k} (h : s.Balanced) : (s.regionRelease k).Balanced :=
  h.stopPorts.startCells.flushBoundary.clearCrossings.markCab.endIsolation.setB.setCbState.endPartial

/-! ### Machine/View -/

theorem readReg {a} (h : s.Balanced) : (s.readReg a).Balanced := by
  unfold State.readReg
  dsimp only
  split
  · exact ⟨h.groups⟩
  · exact .ite h.withReadData <| .ite h.withReadData <| .ite h.cdataRead <| .ite h.pdataRead <|
      .ite h.peek h.withReadData.setWord

/-! ### Machine/Bureau -/

theorem setJob {j} (h : s.Balanced) : (s.setJob j).Balanced := h.withBur
theorem answer {status} (h : s.Balanced) : (s.answer status).Balanced := h.setJob
theorem answerOk {results} (h : s.Balanced) : (s.answerOk results).Balanced := h.setJob

theorem judged {code absent own k} (h : s.Balanced) (hk : ∀ {t}, t.Balanced → (k t).Balanced) :
    (s.judged code absent own k).Balanced :=
  .ite h.answer (.ite h.answer (.ite h.answer (hk h)))

theorem submit {i code tag args k} (h : s.Balanced) (hk : ∀ {b t}, t.Balanced → (k b t).Balanced) :
    (s.submit i code tag args k).Balanced := by
  unfold State.submit
  extract_lets take _ s2 s3
  have htake {t b} (h : t.Balanced) : (take t b).Balanced := .ite (hk h) ⟨h.groups⟩
  have h2 : s2.Balanced := (h.foldl fun h => h.setWord).setF.setF
  have h3 : s3.Balanced := h2.setF
  clear_value s3
  exact .ite (.ite (htake h) h.flag) (.ite h2.flag (htake ⟨h3.groups⟩))

theorem sendBulk {r bytes results} (h : s.Balanced) : (s.sendBulk r bytes results).Balanced := h.setFeed.setRing.setJob
theorem takeIndex (h : s.Balanced) : s.takeIndex.Balanced := (showKeys (.ite h.withBur h)).keyLow
theorem writeResults {l} (h : s.Balanced) : (s.writeResults l).Balanced := h.foldl (fun h => h.setWord)
theorem endCommand {status} (h : s.Balanced) : (s.endCommand status).Balanced := h.setF.flag.setF.setF.setF.withBur.connect.pump
theorem commitSet {c} (h : s.Balanced) : (s.commitSet c).Balanced := h.withCal.setF.setF.setF.setF.setF.setF

theorem importRecord_fst {bytes} (h : s.Balanced) : (s.importRecord bytes).1.Balanced := by
  unfold State.importRecord
  split
  · exact h
  · split
    · exact h.loadCal.setMarks.flag.flag
    · exact h

theorem jobEnds {j t status} (h : s.Balanced) (ht : s.jobEnds j = some (t, status)) : t.Balanced := by
  unfold State.jobEnds at ht; dsimp only at ht
  split at ht
  · split at ht
    · cases ht; exact h
    · split at ht
      · cases ht; exact h
      · cases ht
  · split at ht
    · cases ht; exact h
    · split at ht
      · obtain rfl : _ = t := congrArg Prod.fst (Option.some.inj ht)
        exact h.importRecord_fst
      · split at ht
        · cases ht
        · cases ht; exact h

theorem complete {peer} (h : s.Balanced) : (s.complete peer).Balanced := by
  unfold State.complete
  dsimp only
  split
  · exact h
  · next j _ =>
    split
    · exact h
    · next t status ht =>
      have h1 : (if status = stOk ∨ j.always then t.writeResults j.results else t).Balanced :=
        .ite (h.jobEnds ht).writeResults (h.jobEnds ht)
      refine endCommand (flagIf ?_)
      split
      · exact .ite h1.commitSet h1
      · exact h1

theorem haltBureau (h : s.Balanced) : s.haltBureau.Balanced := by
  unfold State.haltBureau
  extract_lets s1
  have h1 : s1.Balanced := by
    unfold s1
    split
    · refine endCommand ?_
      split
      · exact h.setFeed.setRing
      · exact h
    · exact h
  clear_value s1
  exact .ite (resetBureauAgent (flag (addSat ⟨h1.groups⟩))) h

theorem serve {c ops k} (h : s.Balanced) (hk : ∀ {t cb w}, t.Balanced → (k cb w t).1.Balanced) :
    (s.serve c ops k).Balanced := by
  unfold State.serve
  dsimp only
  split
  · split
    · split
      · exact h.takeFrom.flag
      · exact .ite h (hk h.takeFrom).postOn
    · exact h
  · exact h

theorem freeReply_fst {status} (h : s.Balanced) : (s.freeReply status).1.Balanced := ⟨h.groups⟩
theorem claim_fst {high k w} (h : s.Balanced) : (s.claim high k w).1.Balanced := h.setWord

/-! ### Machine/Cal -/

theorem runSlice_fst {g sl m} (h : s.Balanced) : (s.runSlice g sl m).1.Balanced := by
  unfold State.runSlice
  extract_lets _ a b t
  have hb : b.1.Balanced := by
    unfold b
    split
    · exact h.calSlice_fst
    · exact h.calSlice_fst.calSlice_fst
  exact hb.setB.flagIf

theorem runTarget_fst {a t vstd m} (h : s.Balanced) : (s.runTarget a t vstd m).1.Balanced := by
  cases t with
  | monitor n =>
    unfold State.runTarget
    dsimp only
    split
    · exact h
    · exact h.foldl fun h => h.calField_fst
  | slice g sl => exact h.runSlice_fst
  | rbuf q =>
    unfold State.runTarget
    dsimp only
    refine foldl ?_ fun h => h.calField_fst
    split
    · exact h.setWord
    · exact h
  | cell c => exact foldl (h.foldl fun h => .ite h.setCell h) fun h => h.calField_fst
  | cdac _ | port _ | dac _ => exact h.foldl fun h => h.calField_fst

theorem runTargets_fst {a vstd ts ms} (h : s.Balanced) : (s.runTargets a vstd ts ms).1.Balanced := by
  induction ts generalizing s a ms with
  | nil => exact h
  | cons t ts ih => exact ih h.runTarget_fst

theorem calRun {meas} (h : s.Balanced) : (s.calRun meas).Balanced :=
  .ite h.answer (h.runTargets_fst.foldl (fun h => h.refillMap)).flag.flag.setJob

theorem takeCalRun {own meas} (h : s.Balanced) : (s.takeCalRun own meas).Balanced := h.judged (fun h => h.calRun)
theorem refuseCommit {status why} (h : s.Balanced) : (s.refuseCommit status why).Balanced := h.setF.answer

theorem calCommit (h : s.Balanced) : s.calCommit.Balanced :=
  .ite h.refuseCommit (.ite h.refuseCommit (.ite h.refuseCommit (.ite h.answer h.takeIndex.setJob)))

theorem takeCalCommit {own} (h : s.Balanced) : (s.takeCalCommit own).Balanced := h.judged (fun h => h.calCommit)

theorem calExport (h : s.Balanced) : s.calExport.Balanced := by
  unfold State.calExport
  dsimp only
  split
  · exact h.answer
  · split
    · exact .ite h.sendBulk h.answer
    · exact h.answer

theorem takeCalExport {own} (h : s.Balanced) : (s.takeCalExport own).Balanced := h.judged (fun h => h.calExport)
theorem calImport (h : s.Balanced) : s.calImport.Balanced := .ite h.answer h.withBur.connect.setJob.pump
theorem takeCalImport {own} (h : s.Balanced) : (s.takeCalImport own).Balanced := h.judged (fun h => h.calImport)

/-! ### Machine/Power -/

theorem armWake {t forTick} (h : s.Balanced) : (s.armWake t forTick).Balanced := h.withPwr.setPair
theorem stopSensors (h : s.Balanced) : s.stopSensors.Balanced := h.foldl (fun h => .ite h h.setF)

theorem enterLow {c} (h : s.Balanced) : (s.enterLow c).Balanced := by
  unfold State.enterLow
  extract_lets s1 s2 s3 s4 s5 _ s6
  have h1 : s1.Balanced := h.armWake
  have h2 : s2.Balanced := h1.latchPins
  have h3 : s3.Balanced := .ite h2 h2.stopConverting
  have h4 : s4.Balanced := .ite h3.writeHeld.flushRings.clearHeld.stopSensors h3
  have h5 : s5.Balanced := h4.toMode
  have h6 : s6.Balanced := ⟨h5.groups⟩
  split <;> exact h6.addWrap

theorem moveWake (h : s.Balanced) : s.moveWake.Balanced := by
  unfold State.moveWake
  dsimp only
  split
  · exact h
  · exact .ite h (.ite h.armWake.wake h.armWake)

theorem exitLow (h : s.Balanced) : s.exitLow.Balanced := by
  unfold State.exitLow
  extract_lets _ _ _ _ s1 s2 s3 _ _ _ s4 s5 s6
  have h1 : s1.Balanced := h.toMode
  have h2 : s2.Balanced := h1.armWake.flag
  have h3 : s3.Balanced := h2.flagIf
  have h4 : s4.Balanced := ⟨h3.groups⟩
  have h5 : s5.Balanced := .ite h4.dueOnReturn.startConverting h4
  have h6 : s6.Balanced := .ite h5.restartAz h5
  exact h6.pump

/-! ### Machine/Twin -/

theorem toSolo {primary} (h : s.Balanced) : (s.toSolo primary).Balanced := h.withTwin.setB.setB.resetTwinAgent
theorem split (h : s.Balanced) : s.split.Balanced := (toSolo (.ite h.retireRings.withTwin.replayLevel h)).flag
theorem fence (h : s.Balanced) : s.fence.Balanced := (h.foldl (fun h => .ite h h.closeBlock.writeBlocks)).withTwin.toSolo
theorem replayRing {r} (h : s.Balanced) : (s.replayRing r).Balanced := (h.setRing.foldl (fun h => h.passBlock)).setRing.withTwin
theorem markWaiting (h : s.Balanced) : s.markWaiting.Balanced := ⟨h.groups⟩

theorem takeover {cause} (h : s.Balanced) : (s.takeover cause).Balanced := by
  unfold State.takeover
  extract_lets s1 _ s2 s3 s4 s5
  have h1 : s1.Balanced := h.markWaiting.foldl (fun h => .ite h h.replayRing)
  have h2 : s2.Balanced := h1.withTwin.replayLevel
  have h3 : s3.Balanced := h2.toSolo.setF
  have h4 : s4.Balanced := h3.setPair.addWrap
  have h5 : s5.Balanced := h4.flag
  exact h5.foldl (fun h => .ite h h.writeBlocks)

theorem triggered {cause} (h : s.Balanced) : (s.triggered cause).Balanced := .ite h.split.setF h.fence
theorem trigger {cause} (h : s.Balanced) : (s.trigger cause).Balanced := .ite (.ite h.triggered h.withTwin) h

theorem heartbeatLost (h : s.Balanced) : s.heartbeatLost.Balanced :=
  .ite (.ite h.setB.setB.takeover h.setB.setB.withTwin) h.setB.setB

theorem splits {cause} (h : s.Balanced) : (s.splits cause).Balanced := .ite h (.ite h.split.setF h.withTwin)

theorem resumeTrigger (h : s.Balanced) : s.resumeTrigger.Balanced := by
  unfold State.resumeTrigger
  dsimp only
  split
  · exact h
  · exact .ite h.takeover h.withTwin
  · exact .ite h.withTwin.splits h.withTwin.trigger

theorem scrubEvent {k corrected} (h : s.Balanced) : (s.scrubEvent k corrected).Balanced :=
  .ite (.ite h h.withTwin) (trigger (.ite h h.withTwin))

theorem placeAgain {r blocks} (h : s.Balanced) : (s.placeAgain r blocks).Balanced :=
  h.foldl (fun ht => foldl (.ite ht.closeBlock.setRing ht) (fun h => h.placeWord))

theorem cutAt {r idx} (h : s.Balanced) : (s.cutAt r idx).Balanced := by
  unfold State.cutAt
  dsimp only
  split
  · exact ⟨h.groups⟩
  · exact .ite h h.withTwin.setRing.placeAgain.replayLevel

theorem hear {r seq} (h : s.Balanced) : (s.hear r seq).Balanced := h.withTwin.confirm
theorem peerLoadFails (h : s.Balanced) : s.peerLoadFails.Balanced := .ite h.loadFail h

theorem setLink {good} (h : s.Balanced) : (s.setLink good).Balanced := by
  unfold State.setLink
  extract_lets _ s1 _ _ s2 s3
  have h1 : s1.Balanced := h.foldl (fun h => h.setB)
  have h2 : s2.Balanced := h1.setF.setB
  have h3 : s3.Balanced := h2.flagIf
  exact .ite h3.resetTwinAgent.peerLoadFails h3

/-! ### Machine/Commands -/

theorem getInfo (h : s.Balanced) : s.getInfo.Balanced := .ite h.answerOk (.ite h.answer h.sendBulk)
theorem takeGetInfo {own} (h : s.Balanced) : (s.takeGetInfo own).Balanced := h.judged (fun h => h.getInfo)

theorem setModeCmd (h : s.Balanced) : s.setModeCmd.Balanced := by
  unfold State.setModeCmd
  dsimp only
  split
  · exact h.answer
  · split
    · exact h.answer
    · split
      · exact .ite h.goBench.answer h.answer
      · exact .ite h.goBench.answer h.goBlank.answer
      · exact .ite h.goBlank.answer h.answer
      · exact .ite h.answer (.ite h.goBlank.answer h.benchToRun.answer)
      · exact .ite h.wakeOwn.answer h.answer
      · exact .ite h.wakeOwn.answer h.answer
      · exact .ite h.wakeOwn.answer h.answer
      · exact h.answer

theorem takeSetMode {own} (h : s.Balanced) : (s.takeSetMode own).Balanced := h.judged (fun h => h.setModeCmd)
theorem takeGetMode {own} (h : s.Balanced) : (s.takeGetMode own).Balanced := h.judged (fun h => h.answerOk)
theorem cfgBegin (h : s.Balanced) : s.cfgBegin.Balanced := .ite h.answer h.goLoad.answer
theorem takeCfgBegin {own} (h : s.Balanced) : (s.takeCfgBegin own).Balanced := h.judged (fun h => h.cfgBegin)

theorem cfgAbort (h : s.Balanced) : s.cfgAbort.Balanced := by
  unfold State.cfgAbort
  dsimp only
  split
  · exact h.setF.setF.goBlank.answer
  · split
    · exact h.regionFail.answer
    · exact h.answer

theorem takeCfgAbort {own} (h : s.Balanced) : (s.takeCfgAbort own).Balanced := h.judged (fun h => h.cfgAbort)
theorem takeCfgStatus {own} (h : s.Balanced) : (s.takeCfgStatus own).Balanced := h.judged (fun h => h.answerOk)
theorem regionLoadBegin (h : s.Balanced) : s.regionLoadBegin.Balanced := .ite h.answer (.ite h.answer h.regionBegin.answer)

theorem takeRegionLoadBegin {own} (h : s.Balanced) : (s.takeRegionLoadBegin own).Balanced :=
  h.judged (fun h => h.regionLoadBegin)

theorem regionReleaseCmd (h : s.Balanced) : s.regionReleaseCmd.Balanced := .ite h.answer (.ite h.answer h.regionRelease.answer)
theorem takeRegionRelease {own} (h : s.Balanced) : (s.takeRegionRelease own).Balanced := h.judged (fun h => h.regionReleaseCmd)

theorem rotateNow (h : s.Balanced) : s.rotateNow.Balanced :=
  .ite h.answer (.ite h.answer (.ite h.answer h.setRot.rotDue.answer))

theorem takeRotateNow {own} (h : s.Balanced) : (s.takeRotateNow own).Balanced := h.judged (fun h => h.rotateNow)

theorem chanAlloc (h : s.Balanced) : s.chanAlloc.Balanced := by
  unfold State.chanAlloc
  dsimp only
  split
  · refine .ite h.answer ?_
    split
    · exact h.answer
    · exact h.allocChan.answerOk
  · exact h.answer

theorem takeChanAlloc {own} (h : s.Balanced) : (s.takeChanAlloc own).Balanced := h.judged (fun h => h.chanAlloc)
theorem chanFree (h : s.Balanced) : s.chanFree.Balanced := .ite h.answer (.ite h.freeChan.answer h.answer)
theorem takeChanFree {own} (h : s.Balanced) : (s.takeChanFree own).Balanced := h.judged (fun h => h.chanFree)
theorem ringAdmit {peer} (h : s.Balanced) : (s.ringAdmit peer).Balanced := .ite h.admitRing.answer.pump h.answer
theorem takeRingAdmit {own peer} (h : s.Balanced) : (s.takeRingAdmit own peer).Balanced := h.judged (fun h => h.ringAdmit)
theorem ringRetire (h : s.Balanced) : s.ringRetire.Balanced := .ite h.endRing.answer.pump h.answer
theorem takeRingRetire {own} (h : s.Balanced) : (s.takeRingRetire own).Balanced := h.judged (fun h => h.ringRetire)
theorem attest (h : s.Balanced) : s.attest.Balanced := .ite h.answer (.ite h.keyLow.answer h.takeIndex.sendBulk)
theorem takeAttest {own} (h : s.Balanced) : (s.takeAttest own).Balanced := h.judged (fun h => h.attest)
theorem blow {bits} (h : s.Balanced) : (s.blow bits).Balanced := h.withBur.setWord

theorem keyEnroll {good} (h : s.Balanced) : (s.keyEnroll good).Balanced :=
  .ite (.ite h.answer (.ite h.answer h.blow.answer)) (.ite h.answer (.ite h.answer h.withBur.blow.answer))

theorem takeKeyEnroll {own good} (h : s.Balanced) : (s.takeKeyEnroll own good).Balanced := h.judged (fun h => h.keyEnroll)
theorem policySet (h : s.Balanced) : s.policySet.Balanced := setJob (.ite h.blow h)
theorem takePolicySet {own} (h : s.Balanced) : (s.takePolicySet own).Balanced := h.judged (fun h => h.policySet)

theorem copyPrimary {p} (h : s.Balanced) : (s.copyPrimary p).Balanced := by
  unfold State.copyPrimary
  extract_lets s1
  have h1 : s1.Balanced := h.foldl fun h => .ite h.copyReg h
  exact ⟨h1.groups⟩

theorem pair {primary p} (h : s.Balanced) : (s.pair primary p).Balanced :=
  (flag (.ite h.withTwin h.withTwin.copyPrimary)).setB.replayLevel.resetTwinAgent

theorem pairEnds {st} (h : s.Balanced) : (s.pairEnds st).Balanced := h.setJob
theorem twinPair {p} (h : s.Balanced) : (s.twinPair p).Balanced := pairEnds (.ite h.pair h)

theorem takeTwinPair {own p} (h : s.Balanced) : (s.takeTwinPair own p).Balanced :=
  h.judged (fun h => .ite h.pairEnds h.twinPair)

theorem twinSplit (h : s.Balanced) : s.twinSplit.Balanced := .ite h.split.answer h.answer
theorem takeTwinSplit {own} (h : s.Balanced) : (s.takeTwinSplit own).Balanced := h.judged (fun h => h.twinSplit)
theorem pwrCeiling (h : s.Balanced) : s.pwrCeiling.Balanced := .ite h.answer (answerOk (.ite h.setF.wakeOwn h.setF))
theorem takePwrCeiling {own} (h : s.Balanced) : (s.takePwrCeiling own).Balanced := h.judged (fun h => h.pwrCeiling)
theorem takeUnknown (h : s.Balanced) : s.takeUnknown.Balanced := h.answer

theorem takeWaiting {i} (h : s.Balanced) : (s.takeWaiting i).Balanced := by
  unfold State.takeWaiting
  dsimp only
  split
  · exact h.takeGetInfo
  · exact h.takeSetMode
  · exact h.takeGetMode
  · exact h.takeCfgBegin
  · exact h.takeCfgAbort
  · exact h.takeCfgStatus
  · exact h.takeRegionLoadBegin
  · exact h.takeRegionRelease
  · exact h.takeCalRun
  · exact h.takeCalCommit
  · exact h.takeCalExport
  · exact h.takeCalImport
  · exact h.takeRotateNow
  · exact h.takeChanAlloc
  · exact h.takeChanFree
  · exact h.takeRingAdmit
  · exact h.takeRingRetire
  · exact h.takeAttest
  · exact h.takeKeyEnroll
  · exact h.takePolicySet
  · exact h.takeTwinPair
  · exact h.takeTwinSplit
  · exact h.takePwrCeiling
  · exact h.takeUnknown
  · exact h

theorem resumeBureau {err} (h : s.Balanced) : (s.resumeBureau err).Balanced := by
  unfold State.resumeBureau
  dsimp only
  split
  · exact h
  · split
    · exact h.withBur.setF.setF
    · split
      · exact h.withBur.showKeys.keyLow.busUpdates.resumeTrigger.withBur.takeWaiting
      · exact h.withBur.showKeys.keyLow.busUpdates.resumeTrigger

/-! ### Machine/Firing -/

theorem firingCg {g r} (h : s.Balanced) : (s.firingCg g r).Balanced := .ite h (xovf (h.setRest rfl rfl))
theorem firingFc {n r} (h : s.Balanced) : (s.firingFc n r).Balanced := .ite h h.setChain.xovf
theorem firingDa {d r} (h : s.Balanced) : (s.firingDa d r).Balanced := .ite h h.setDac.xovf

theorem broadcast (h : s.Balanced) : s.broadcast.Balanced := by
  unfold State.broadcast
  dsimp only
  split
  · exact h
  · exact (((h.withLcs.foldl (fun h => h.firingCg)).foldl (fun h => h.firingFc)).foldl (fun h => h.firingDa)).wmBroadcast

theorem perform {k f} (h : s.Balanced) (hf : ∀ {r t}, t.Balanced → (f r t).Balanced) : (s.perform k f).Balanced := by
  unfold State.perform
  split
  · exact h
  · exact hf ⟨h.groups⟩

theorem eventPulse {r} (h : s.Balanced) : (s.eventPulse r).Balanced := .ite h (h.withLcs.foldl (fun h => h.setLineX.xovf))
theorem ringDoorbell {r} (h : s.Balanced) : (s.ringDoorbell r).Balanced := .ite h.setDoorbell h.flag
theorem firingIrq {r} (h : s.Balanced) : (s.firingIrq r).Balanced := .ite h.setBit h.setBit

/-! ### Machine/HostIf -/

theorem sendMessage {f v} (h : s.Balanced) : (s.sendMessage f v).Balanced := h.hostWrite
theorem lookVector {f v} (h : s.Balanced) : (s.lookVector f v).Balanced := setVec (.ite h.sendMessage h)
theorem afterAccess {before : State} (h : s.Balanced) : (s.afterAccess before).Balanced := h.noteVectors
theorem resetTable {f} (h : s.Balanced) : (s.resetTable f).Balanced := h.resetRegs.withHost.foldl (fun h => .ite h.setVec h)
theorem completes {c} (h : s.Balanced) : (s.completes c).Balanced := h.withHost
theorem noFunction (h : s.Balanced) : s.noFunction.Balanced := h.completes
theorem badOfs {func bar ofs} (h : s.Balanced) : (s.badOfs func bar ofs).Balanced := h.setF.setF.setF

theorem readWord {func bar ofs} (h : s.Balanced) : (s.readWord func bar ofs).Balanced := by
  unfold State.readWord
  dsimp only
  split
  · exact h.readReg
  · split
    · exact .ite h.readReg h.withReadData
    · exact ⟨h.groups⟩
    · exact h.withReadData.flag.badOfs
  · split
    · exact h.msgTake
    · split
      · exact ⟨h.groups⟩
      · exact h.badPage.withReadData

theorem writeWord {func bar ofs w} (h : s.Balanced) : (s.writeWord func bar ofs w).Balanced := by
  unfold State.writeWord
  dsimp only
  split
  · exact .ite h.writeReg h.flag.badOfs
  · split
    · exact .ite (.ite h.writeReg h.flag.badOfs) h.writePlain
    · exact h
    · exact h.flag.badOfs
  · exact h.pageWrite

theorem writeWords {x} (h : s.Balanced) : (s.writeWords x).Balanced := h.foldl (fun h => .ite h.flag.badOfs h.writeWord)
theorem readWords {x} (h : s.Balanced) : (s.readWords x).Balanced := (h.foldlFst (fun h => h.readWord)).completes

theorem applyAccess {x mirror} (h : s.Balanced) : (s.applyAccess x mirror).Balanced :=
  afterAccess (.ite (withBur (.ite h.writeWords h.readWords)) (.ite h.writeWords h.readWords))

theorem holdAccess {x mirror} (h : s.Balanced) : (s.holdAccess x mirror).Balanced := h.withHost
theorem releaseHeld (h : s.Balanced) : s.releaseHeld.Balanced := h.withHost.foldl (fun h => .ite h.holdAccess h.applyAccess)

theorem performAccess {x mirror} (h : s.Balanced) : (s.performAccess x mirror).Balanced :=
  .ite (holdAccess (.ite h.releaseHeld h)) (applyAccess (.ite h.releaseHeld h))

theorem standbyWrite {x} (h : s.Balanced) : (s.standbyWrite x).Balanced := h.foldl (fun h => .ite h.flag h.performAccess)
theorem refuseRequest {x} (h : s.Balanced) : (s.refuseRequest x).Balanced := .ite h.aer h.aer.aerAdvisory.completes

theorem deliverAccess {x} (h : s.Balanced) : (s.deliverAccess x).Balanced :=
  .ite (.ite h.standbyWrite (.ite h.completes h.performAccess)) (.ite (withTwin (.ite h h.completes)) h.performAccess)

theorem hostAccess {x} (h : s.Balanced) : (s.hostAccess x).Balanced :=
  .ite h.noFunction (.ite h.completes (.ite h.flag.refuseRequest (.ite h.aer h.deliverAccess)))

theorem atAccess {tick} (h : s.Balanced) : (s.atAccess tick).Balanced := .ite h.atTick h
theorem withLook {s t : State} (h1 : t.Balanced) : (s.withLook t).Balanced := h1.afterAccess

theorem onPage {func c k} (h : s.Balanced) (hk : ∀ {t}, t.Balanced → (k t).Balanced) : (s.onPage func c k).Balanced :=
  .ite (hk h).withLook h.noFunction

theorem dropAccesses {p} (h : s.Balanced) : (s.dropAccesses p).Balanced := by
  unfold State.dropAccesses
  extract_lets _ s1
  have h1 : s1.Balanced := h.xrst
  exact ⟨h1.groups⟩

theorem resetFuncs {p flr} (h : s.Balanced) : (s.resetFuncs p flr).Balanced :=
  (h.dropAccesses.foldl (fun h => h.setFunc.retireRings)).resetAgents.foldl (fun h => h.resetTable)

theorem dropVfs {n} (h : s.Balanced) : (s.dropVfs n).Balanced := h.resetFuncs.setF

theorem configure {func item} (h : s.Balanced) : (s.configure func item).Balanced := by
  unfold State.configure
  dsimp only
  split
  · exact h.completes
  · exact h.completes
  · exact h.completes
  · exact h.completes
  · exact h.completes
  · exact h.completes
  · exact h.setFunc.completes
  · exact h.setFunc.completes
  · exact h.setFunc.completes.pump
  · exact h.setFunc.completes.pump
  · exact h.setFunc.afterAccess.completes
  · exact h.setFunc.afterAccess.completes
  · exact .ite h.dropVfs.completes h.completes
  · exact .ite h.withHost.completes h.completes

theorem trained {speed width mps mrrs} (h : s.Balanced) : (s.trained speed width mps mrrs).Balanced :=
  h.flag.setF.setF.setF.setF.flagIf.withHost.setF.gstat.pump

theorem linkReset (h : s.Balanced) : s.linkReset.Balanced := by
  unfold State.linkReset
  extract_lets _ s1 _ s2 s3 _ s4 s5
  have h1 : s1.Balanced := h.dropAccesses
  have h2 : s2.Balanced := ⟨h1.groups⟩
  have h3 : s3.Balanced := h2.resetRegs
  have h4 : s4.Balanced := .ite h3.setStream.xrst h3
  have h5 : s5.Balanced := h4.retireRings.resetHosts
  exact h5.foldl (fun h => h.resetTable)

theorem flr {f} (h : s.Balanced) : (s.flr f).Balanced := .ite h.resetFuncs.setF.withHost (.ite h.resetFuncs h)

/-! ### Machine/Jtag -/

/-! ### Machine/Scrub -/

theorem turnTo {fa} (h : s.Balanced) : (s.turnTo fa).Balanced := withScrub (by split <;> [exact h.setF; exact h])

theorem storeFrame {fa ws check} (h : s.Balanced) : (s.storeFrame fa ws check).Balanced :=
  (h.foldl (fun h => h.setFrameWord)).setCheck

theorem quarantine {k fa} (h : s.Balanced) : (s.quarantine k fa).Balanced := by
  unfold State.quarantine
  extract_lets s1 s2 s3 _ s4
  have h1 : s1.Balanced := .ite h h.flag.setF
  have h2 : s2.Balanced := h1.flag
  have h3 : s3.Balanced := h2.stopPorts.isolate.setCbState
  have h4 : s4.Balanced := .ite h3.setMeas.endPartial h2
  exact h4.scrubEvent

theorem corrected {k} (h : s.Balanced) : (s.corrected k).Balanced := by
  unfold State.corrected
  extract_lets s1
  have h1 : s1.Balanced := h.addSat.flag
  exact h1.withBur.scrubEvent

theorem checkFrame {fa l} (h : s.Balanced) : (s.checkFrame fa l).Balanced := by
  unfold State.checkFrame
  dsimp only
  split
  · split
    · exact h.setF
    · exact h.setF.addSat
    · exact h.setF.addSat
  · split
    · exact h.setF.storeFrame
    · exact h.setF.storeFrame.corrected
    · exact h.setF.storeFrame.quarantine

theorem rereadFrame {fa} (h : s.Balanced) : (s.rereadFrame fa).Balanced := h.setF.withScrub

theorem scrubOn {fa held} (h : s.Balanced) : (s.scrubOn fa held).Balanced :=
  writeHeld (by split <;> [exact h; (split <;> [exact h.turnTo.addWrap; exact h.turnTo])])

end State.Balanced

/-! ## The commands -/

theorem execBlankOpen_balanced {n} (h : s.Balanced) : OutBalanced (execBlankOpen n s) := by
  refine .present h (.next ?_)
  dsimp only
  split
  · exact h.setWm
  · exact h

theorem execBlankClose_balanced {n} (h : s.Balanced) : OutBalanced (execBlankClose n s) := by
  refine .present h (.next ?_)
  dsimp only
  split
  · exact h.setWm
  · exact h

theorem execPeriodClear_balanced {n} (h : s.Balanced) : OutBalanced (execPeriodClear n s) := by
  refine .present h (.next ?_)
  dsimp only
  split
  · exact h.setWm.wmPeriod.wmPeriod.noteVectors
  · exact h

theorem execCdata_balanced {n acc} (h : s.Balanced) : OutBalanced (execCdata n acc s) := by
  unfold execCdata
  split
  · exact .readPresent h (.next (.ite h.cdataRead h.withReadData))
  · exact .hostRow (.present h (.next (h.fcWrite (fun h => h.cdataWrite))))

theorem execRsInstant_balanced {n} (h : s.Balanced) : OutBalanced (execRsInstant n s) := by
  refine .present h (.next ?_)
  dsimp only
  split
  · exact .ite h.setChain.rsInstant h.setChain
  · exact h

theorem execSegStart_balanced {d} (h : s.Balanced) : OutBalanced (execSegStart d s) := by
  refine .present h (.next ?_)
  dsimp only
  split
  · exact h.setDac.segFire
  · exact h

theorem execPdata_balanced {d acc} (h : s.Balanced) : OutBalanced (execPdata d acc s) := by
  unfold execPdata
  split
  · exact .readPresent h (.next (.ite h.pdataRead h.withReadData))
  · exact .hostRow (.present h (.next (h.daWrite (fun h => h.pdataWrite))))

theorem execSignatureVerification_balanced {mclk} (h : s.Balanced) : OutBalanced (execSignatureVerification mclk s) := by
  unfold execSignatureVerification
  extract_lets _ s1
  have h1 : s1.Balanced := h.setStream
  refine .ite .fault (.next ?_)
  split
  · split
    · split <;> exact h1.setF
    · exact h.streamFail
  · exact h

theorem execRandom_balanced {c v} (h : s.Balanced) : OutBalanced (execRandom c v s) := by
  refine .inst (.next (h.serve fun h => ?_))
  split
  · exact h.freeReply_fst
  · exact h

theorem execNextEventUpdate_balanced {t peer} (h : s.Balanced) : OutBalanced (execNextEventUpdate t peer s) := by
  have h1 := h.updateNext (tick := t)
  refine .ite (.next h) (.ite (.next ?_) (.ite (.next ?_) (.ite (.next h1.moveWake) (.next h1))))
  · split
    · exact .ite (.ite h1.enterLow h1) (.ite h1.wakeOwn h1)
    · exact h1
  · split
    · exact h1
    · split
      · exact h1.enterLow
      · exact h1

theorem execSelfWake_balanced (h : s.Balanced) : OutBalanced (execSelfWake s) := by
  unfold execSelfWake
  dsimp only
  split
  · exact .next (.ite h.atTick.wake h.atTick)
  · exact .next h

theorem execRotationCheck_balanced (h : s.Balanced) : OutBalanced (execRotationCheck s) := by
  unfold execRotationCheck
  extract_lets _ s1 s2
  have h1 : s1.Balanced := ⟨h.groups⟩
  have h2 : s2.Balanced := h1.foldl (fun h => h.rotCheck)
  exact .next (.ite (.ite h2.trigger h2) h1)

theorem execTwinCompare_balanced {k differ peer} (h : s.Balanced) : OutBalanced (execTwinCompare k differ peer s) := by
  have h1 {x} : ({ s with twin := x } : State).Balanced := ⟨h.groups⟩
  exact .present h (.next (.ite (.ite h1 <| .ite h1.splits <| .ite h1.trigger <| .ite h1.trigger h1.addSat.flag) h))

theorem execForwardedWrite_balanced {tick peer} (h : s.Balanced) : OutBalanced (execForwardedWrite tick peer s) := by
  refine .ite .fault (.next ?_)
  have h1 := h.atAccess (tick := tick)
  split
  · exact .ite h1.performAccess.addWrap h1.performAccess
  · exact h1
  · exact .ite (.ite h1.withTwin.performAccess.addWrap h1.withTwin.performAccess) h1
  · exact h1

theorem exec_balanced {i : Instr} (h : s.Balanced) : OutBalanced (exec i s) := by
  cases i with
  | powerOn => exact .next .goReset
  | porstNAssert => exact .next (.ite h .goReset)
  | porstNRelease => exact .ite .fault (.next (.ite h.release h))
  | bureauBootComplete => exact .ite .fault (.next (.ite h.bootEnds h))
  | brownOut => exact .next .goReset
  | autonomousBoot =>
    refine .next ?_
    split
    · split
      · exact h.setF.setF.goLoad
      · exact .ite h.goLoad h
      · exact h
    · exact h
  | perstNAssert => exact .next h.linkReset
  | perstNRelease => exact .next h.withHost
  | linkTraining => exact .ite .fault (.next (.ite h.trained h))
  | functionLevelReset => exact .inst (.next h.flr)
  | configRequest => exact .inst (.next (.ite h.completes (.ite h.completes (.ite h.configure h.completes))))
  | watchdogExpiry => exact .next h.haltBureau
  | sramUncorrectableError => exact .next h.haltBureau
  | getInfo => exact .next (h.submit (fun h => h.takeGetInfo))
  | setMode => exact .next (h.submit (fun h => h.takeSetMode))
  | getMode => exact .next (h.submit (fun h => h.takeGetMode))
  | cfgBegin => exact .next (h.submit (fun h => h.takeCfgBegin))
  | cfgAbort => exact .next (h.submit (fun h => h.takeCfgAbort))
  | cfgStatus => exact .next (h.submit (fun h => h.takeCfgStatus))
  | regionLoadBegin => exact .next (h.submit (fun h => h.takeRegionLoadBegin))
  | regionRelease => exact .next (h.submit (fun h => h.takeRegionRelease))
  | calRun => exact .next (h.submit (fun h => h.takeCalRun))
  | calCommit => exact .next (h.submit (fun h => h.takeCalCommit))
  | calExport => exact .next (h.submit (fun h => h.takeCalExport))
  | calImport => exact .next (h.submit (fun h => h.takeCalImport))
  | rotateNow => exact .next (h.submit (fun h => h.takeRotateNow))
  | chanAlloc => exact .next (h.submit (fun h => h.takeChanAlloc))
  | chanFree => exact .next (h.submit (fun h => h.takeChanFree))
  | ringAdmit => exact .next (h.submit (fun h => h.takeRingAdmit))
  | ringRetire => exact .next (h.submit (fun h => h.takeRingRetire))
  | attest => exact .next (h.submit (fun h => h.takeAttest))
  | keyEnroll => exact .next (h.submit (fun h => h.takeKeyEnroll))
  | policySet => exact .next (h.submit (fun h => h.takePolicySet))
  | twinPair =>
    refine .next ?_
    split
    · exact h.submit fun h => h.takeTwinPair
    · exact .ite h.pair h
  | twinSplit =>
    refine .next ?_
    split
    · exact h.submit fun h => h.takeTwinSplit
    · exact .ite (.ite h.split h.split.setF) h
  | pwrCeiling => exact .next (h.submit (fun h => h.takePwrCeiling))
  | commandComplete => exact .next (.ite h.complete h)
  | random => exact execRandom_balanced h
  | digestRequest => exact .inst (.next (h.serve fun h => h))
  | claimLow => exact .inst (.next (h.serve fun h => h.claim_fst))
  | claimHigh => exact .inst (.next (h.serve fun h => h.claim_fst))
  | bar4Write => exact .next (.ite h.bar4 h)
  | twinStreamWord => exact .next (.ite h.setStream h)
  | preambleWord => exact .next h.runUnit
  | syncWord => exact .next h.runUnit
  | device => exact .next h.runUnit
  | frames => exact .next h.runUnit
  | frame => exact .next h.runUnit
  | analogEntry => exact .next h.runUnit
  | startup => exact .next h.runUnit
  | digest => exact .next h.runUnit
  | signature => exact .next h.runUnit
  | signatureVerification => exact execSignatureVerification_balanced h
  | endRecord => exact .next h.runUnit
  | region => exact .next h.runUnit
  | verify => exact .next (.ite h.verifyLoad h)
  | referenceWait => exact .next (.ite h.finishLoad h)
  | refTmo => exact .next (.ite h.flag.finishLoad h)
  | regionStreamStart =>
    refine .next ?_
    split
    · exact .ite h.setStream h
    · exact h
  | regionVerify =>
    refine .next ?_
    split
    · exact .ite h.verifyRegion h
    · exact h
  | scrubPassStart => exact .next (.ite h.turnTo.setB h)
  | scrubFrameCheck =>
    refine .ite .fault (.next ?_)
    split
    · exact h.withVoted
    · exact .ite h.withVoted.rereadFrame h.withVoted.checkFrame.scrubOn
  | voteRepair =>
    refine .next (.ite h (State.Balanced.flag (.flag (.withVoted ?_))))
    exact .ite h.setWord.setWord h.setWord.setWord.withScrub.setB
  | pllLockLoss => exact .next h.pllLost
  | pllRelock => exact .next h.relock
  | smpclkStamp => exact .ite (.next (.ite h.withLcs.restartAz.smpStamp h.smpStamp)) (.next h)
  | smpclkStall => exact .ite (.next h.smpLost.withLcs) (.next h)
  | prEdge => exact .inst (.next (.ite h.mainEdge h))
  | prIndexEdge => exact h.prIndexEdge
  | edgeProcessing => exact .inst (.next (.ite (h.onRef (fun h => h.processEdge)) h))
  | coastEntry => exact .inst (.next (.ite (h.onRef (fun h => h.enterCoast)) h))
  | coastLimit => exact .inst (.next (.ite (h.onRef (fun h => h.endCoast)) h))
  | prEnable => exact .hostRow (.inst (.next (h.lcsWrite (fun ht => ht.onPair (fun h => h.enableRef)))))
  | prSnap => exact .hostRow (.inst (.next (h.lcsWrite (fun h => h.atTick.snapRef))))
  | lcsTimeSnap => exact .hostRow (.next (h.lcsWrite (fun h => h.atTick.snapTime)))
  | paEnable => exact .hostRow (.inst (.next (h.lcsWrite (fun h => h.atTick.writePaCtl))))
  | alarmFiring => exact .inst (.next (.ite h.testAlarm h))
  | timerStart => exact .hostRow (.inst (.next (h.lcsWrite (fun h => h.atTick.writeTtCtl))))
  | timerExpiry => exact .inst (.next (.ite h.expireTimer h))
  | firingRecord => exact .next (.ite h.broadcast h)
  | seqStart => exact .present h (.next (h.cgInbox (fun h => h.cgRequest)))
  | urgent => exact .present h (.next (h.cgInbox (fun h => h.cgRequest)))
  | mark => exact .present h (.next (h.cgInbox (fun h => h.cgMark)))
  | rsInstant => exact execRsInstant_balanced h
  | segStart => exact execSegStart_balanced h
  | blankOpen => exact execBlankOpen_balanced h
  | blankClose => exact execBlankClose_balanced h
  | event => exact .next (.ite (h.perform (fun h => h.eventPulse)) h)
  | doorbell => exact .next (.ite (h.perform (fun h => h.ringDoorbell)) h)
  | wakeFiring => exact .next (.ite (h.perform (fun h => h.wake)) h)
  | irq => exact .next (.ite (h.perform (fun h => h.firingIrq)) h)
  | periodClear => exact execPeriodClear_balanced h
  | captureEdge => exact h.captureEdge
  | capPop => exact .hostRow (.inst (.next (h.lcsWrite (fun h => h.setCapture))))
  | nextEventUpdate => exact execNextEventUpdate_balanced h
  | selfWake => exact execSelfWake_balanced h
  | powerStateEntry =>
    have hflush {c : Prop} [Decidable c] : (if c then s.flushRings else s).Balanced := .ite h.flushRings h
    exact .ite (.next (.ite hflush.leave hflush.withPwr)) (.next h)
  | powerStateExit => exact .ite (.next h.atTick.exitLow) (.next h)
  | tempConversion => exact .inst (.next (.ite h h.setF.setF.firstReading))
  | cgEnable => exact .hostRow (.present h (.next (h.sclkWrite (fun h => h.writeCgCtl))))
  | cgDisable => exact .hostRow (.present h (.next (h.sclkWrite (fun h => h.writeCgCtl))))
  | cgGo => exact .hostRow (.present h (.next (h.sclkWrite (fun h => h.writeSeqctl))))
  | cgStop => exact .hostRow (.present h (.next (h.sclkWrite (fun h => h.writeSeqctl))))
  | fabricRequest => exact .inst (.next h.scanFrq.fabricRequest)
  | settleEnd => exact .present h (.next h.cgAdvance)
  | dwellComplete => exact .present h (.next h.cgAdvance)
  | urgentDwellComplete => exact .present h (.next h.cgAdvance)
  | cgCntSnap => exact .hostRow (.present h (.next (h.sclkWrite (fun h => h.cgSnap))))
  | elogPop => exact .hostRow (.present h (.next (h.sclkWrite (fun h => h.setRest rfl rfl))))
  | windowComparatorFire => exact .inst (.present h (.next h.winReport))
  | refSettled => exact .present h (.next (.ite h h.setSettled))
  | refFault => exact .present h (.next (h.foldl (fun h => .ite h.flag.refFalls h)))
  | rotationCheck => exact execRotationCheck_balanced h
  | overlapStart => exact .present h (.next h.atTick.overlapStart)
  | handoverTest => exact .present h (.next h.handoverEnd)
  | sliceCalibration => exact .present h (.next h.calibEnd)
  | estimatorBlock => exact .present h (.next (.ite h.atTick.estimate.setWord h.atTick.estimate))
  | azBoundary => exact .present h (.next h.azBoundary)
  | azSwap => exact .present h (.next h.azSwap)
  | rst => exact .hostRow (.present h (.next h.cellTo.cellReset))
  | portOverload => exact .present h (.next (State.Balanced.flagIf ⟨h.groups⟩))
  | cellSaturation => exact .present h (.next h.cellTo)
  | matrixWrite =>
    refine .hostRow ?_
    split
    · exact .fault
    · exact .next (.ite (h.imageWrite fun h => h.writeMatrix) h)
  | fcEnable => exact .hostRow (.present h (.next (h.fcWrite (fun h => h.writeFcCtl))))
  | sourceWrite => exact .hostRow (.ite (.next h.writeWord) .fault)
  | bank => exact .hostRow (.inst (.present h (.next (h.fcWrite (fun h => h.writeBank)))))
  | xfadeStart => exact .present h (.next (.ite h.fadeCross h))
  | xfDone => exact .present h (.next (.ite h.fadeEnd h))
  | fcCntSnap => exact .hostRow (.present h (.next (h.fcWrite (fun h => h.setPair.setPair.setPair))))
  | gapPop => exact .hostRow (.present h (.next (h.fcWrite (fun h => h.setChain))))
  | cdata => exact execCdata_balanced h
  | incCommit => exact .hostRow (.present h (.next (h.fcWrite (fun h => h.commitInc))))
  | slot => exact .present h (.next h.rsSlot)
  | tlogPop => exact .hostRow (.present h (.next (h.fcWrite (fun h => h.setChain))))
  | detWindowClose => exact .present h (.next (.ite h.detLatch h))
  | wmEnable => exact .hostRow (.present h (.next h.writeWmCtl))
  | wmPowerUp => exact .present h (.next (.ite h.wmResolveAll h))
  | wmConditionWrite => exact .hostRow (.present h (.next (by split <;> exact h.writeReg)))
  | wmSettle => exact .present h (.next (.ite h.wmResolveAll h))
  | wmDisable => exact .hostRow (.present h (.next h.writeWmCtl))
  | comparatorEdge =>
    refine .present h (.next ?_)
    split
    · exact h.atTick.wmSense.wmSense
    · exact h.atTick.wmSense.wmSense
    · exact h
  | wmResolve => exact .present h (.next (.ite h.atTick.wmSense.wmSense h))
  | edgeDelivery =>
    refine .present h (.next ?_)
    split
    · exact h
    · exact .ite h.atTick.wmRelease h
  | daGo => exact .hostRow (.present h (.next (h.daWrite (fun h => h.daGo))))
  | daStop => exact .hostRow (.present h (.next (h.daWrite (fun h => h.daHalt))))
  | daEnable => exact .hostRow (.present h (.next (h.daWrite (fun h => h.writeDaCtl))))
  | segmentEnd => exact .present h (.next h.segEnd)
  | underrun => exact .present h (.next h.daUnderrun)
  | pdata => exact execPdata_balanced h
  | clkenWrite => exact .hostRow (.present h (.next h.writeFabCtl))
  | fpllMWrite => exact .hostRow (.inst (.next h.writeFpll))
  | fpllLock => exact .next (.ite h h.flag)
  | peekData => exact .readPresent h (.next h.peek)
  | fpInputWord => exact .inst (.present h (.next h.fpIn))
  | fpInputGroupTake => exact .inst (.present h (.next h.fpTake.pump))
  | fpOutputWord => exact .inst (.present h (.next h.fpOut))
  | agentPost => exact .inst (.present h (.next h.agentPost))
  | agentTake => exact .inst (.present h (.next h.agentTake))
  | agentDbclr => exact .inst (.present h (.next h.agentDbclr))
  | vccioChange => exact .inst (.next h.withDio.setB)
  | dioPinCfgWrite => exact .hostRow (.inst (.next (h.imageWrite (fun h => h.writePinCfg))))
  | dmaPdirLo => exact .hostRow (.next h.pdirLo)
  | dmaPdirHi => exact .hostRow (.next h.pdirHi)
  | tailWrite => exact .hostRow (.inst (.next h.writeTail.pump))
  | headWrite => exact .hostRow (.inst (.next h.writeHead))
  | ringWord => exact .inst (.next (.ite h.ringWord.pump h))
  | ageClose => exact .inst (.next (.ite h.closeBlock h))
  | blockWrite => exact .inst (.next h.grantWrite)
  | blkHold => exact .inst (.next (.ite h.setRing.flag h))
  | dmaSnap => exact .hostRow (.inst (.next h.snapRing))
  | ringFetch => exact .inst (.next h.fetch)
  | fetchCompletion => exact .inst (.ite .fault (.next (.ite h.fetched h)))
  | completionTimeout => exact .inst (.next (.ite h.flag.aer h))
  | msgPost => exact .inst (.inst (.next (h.onPage (fun h => h.pageWrite.counted))))
  | msgTake => exact .inst (.inst (.next (h.onPage (fun h => h.msgTake))))
  | dbSet => exact .inst (.inst (.next (h.onPage (fun h => h.pageWrite.counted))))
  | dbClr => exact .inst (.inst (.next (h.onPage (fun h => h.pageWrite.counted))))
  | channelTimeout => exact .inst (.next (.ite h.setChan.notifyFault h))
  | msixMessage => exact .inst (.inst (.next h.lookVector))
  | clockStopped => exact .inst (.next h.withHost.releaseHeld)
  | rcRead => exact .ite (.next h.atAccess.hostAccess) .fault
  | registerWrite => exact .ite (.next h.atAccess.hostAccess) .fault
  | heartbeat =>
    refine .ite (.next h) (.next (.ite ?_ h.setB.setB))
    exact (h.setB.setB.foldl fun h => h.cutAt).foldl fun h => h.hear
  | heartbeatLoss => exact .next (.ite h.heartbeatLost h)
  | primaryPllLoss => exact .next (.ite h h.trigger)
  | fenced =>
    refine .next (.ite (State.Balanced.takeover (.foldl (.foldl h fun h => ?_) fun h => h.hear)) h)
    split
    · exact h.cutAt
    · exact h
  | twinCompare => exact execTwinCompare_balanced h
  | forwardedWrite => exact execForwardedWrite_balanced h
  | laneErrorBurst => exact .next (.ite h.withTwin h)
  | linkDown => exact .next (.ite h.setLink.setB.peerLoadFails h)
  | jtagInstruction => exact .next h.withPins
  | jtagReset => exact .next h.withPins
  | pllLock => exact .next h.firstLock
  | refqWindowReturn => exact .present h (.next (h.foldl (fun h => h.setF)))
  | pcieLinkDown => exact .next h.setF
  | unknownCommandCode => exact .ite .fault (.next (h.submit (fun h => h.takeUnknown)))
  | unknownSecureOp => exact .inst (.next (h.serve fun h => h.freeReply_fst))
  | firmwareResume => exact .ite .fault (.next h.resumeBureau)
  | bunkLinkTraining => exact .ite .fault (.next (.ite (h.foldl (fun h => h.setF)).withTwin.setLink h))
  | wakeNRelease => exact .next h.withPins
  | flrComplete => exact .inst (.next h.setFunc)
  | autoZeroTrim => exact .present h (.next h.azTrim)
  | conversionBeat => exact .ite (.present h (.next (.ite h.cgEdge h))) .fault
  | chainOutput => exact .present h (.next (.ite (.ite h.chainTake.drainPorts h.chainTake) h))
  | dacSample => exact .present h (.next (.ite (.ite h.daEdge h.daEdge.pump) h))
  | cellClock => exact .next h.fabEdge.pump
  | probeSample => exact .inst (.next h.probeSample)
  | fcDisable => exact .hostRow (.present h (.next (h.fcWrite (fun h => h.writeFcCtl))))
  | timerDisable => exact .hostRow (.inst (.next (h.lcsWrite (fun h => h.writeTtCtl))))

theorem step_balanced (h : s.Balanced) : OutBalanced (step s) := by
  unfold step
  split
  · exact .next h
  · exact exec_balanced ⟨h.groups⟩

/-- Settles O5: each operation of the sequencer keeps the balance, so each function of the model, each command and each step
does. -/
theorem converterWordsBalance : Obligations.ConverterWordsBalance := by
  intro s t hs ht
  exact State.balanced_iff.mpr (step_balanced (State.balanced_iff.mp hs) t ht)

end Sys2Proof.Machine
end

/-!
# The ends of settle and dwell (O25)
-/

section
namespace Sys2Proof.Machine

/-! ## Transitions that are due -/

/-- The settle count is reached (R135). -/
theorem advance_of_settled {c : CgCore} (f : SeqCfg) (hst : c.seq.st = .settle) (hf : c.seq.fresh = false)
    (hl : c.seq.settleLeft = 0) : c.advance f = { c with seq := { c.seq with st := .dwell } } := by
  simp [CgCore.advance, hst, hf, hl]

/-- The dwell is complete (R129, R135). -/
theorem advance_of_dwelt {c : CgCore} (f : SeqCfg) (hst : c.seq.st = .dwell) (hl : c.seq.dwellLeft = some 0) :
    c.advance f = { c with seq := { c.seq with st := .settle, entry := c.seq.next, fresh := true } } := by
  simp only [CgCore.advance, hst, hl, if_true]

/-- The urgent dwell is complete (R133, R135). -/
theorem advance_of_udwelt {c : CgCore} (f : SeqCfg) (hst : c.seq.st = .udwell) (hl : c.seq.dwellLeft = some 0) :
    c.advance f = if c.seq.restart then c.start f
      else { c with seq := { c.seq with st := .settle, entry := c.seq.resume, fresh := true } } := by
  simp only [CgCore.advance, hst, hl, if_true]

/-- No transition is due in a dwell that is not complete. -/
theorem advance_of_dwelling {c : CgCore} (f : SeqCfg) (hst : c.seq.st = .dwell) (hl : c.seq.dwellLeft ≠ some 0) :
    c.advance f = c := by
  simp only [CgCore.advance, hst, hl, if_false]

/-! ## The rows -/

section
variable {s : State} {g : Nat} {ok : SeqSt → Bool}

/-- The row of a transition that is due: the group's core advances, as it stands and as the cycle found it. -/
theorem cgAdvance_next (hg : g < s.part.numCG) (hok : ok (s.group g).core.seq.st = true) :
    ifPresent g s.part.numCG 24 s (.next (s.cgAdvance g ok)) = .next (s.setGroup g { s.group g with
      core := (s.group g).core.advance (s.seqCfg g),
      base := (s.group g).base.map fun c => c.advance (s.seqCfg g) }) := by
  rw [ifPresent_of_lt hg (numCG_le _), State.cgAdvance, if_pos hok]

end

/-- Settles O25: each row makes the transition that `CgCore.advance` finds due. -/
theorem settleAndDwellEnds : Obligations.SettleAndDwellEnds := by
  refine ⟨fun s g hg hst hf hl hb => ?_, fun s g hg hst hl => ?_, fun s g hg hst hl => ?_⟩
  · refine ⟨_, cgAdvance_next hg (by rw [hst]; rfl), ?_⟩
    have hbase : ((s.group g).base.map fun c => c.advance (s.seqCfg g)) = (s.group g).base := by
      rw [hb]
      rfl
    rw [advance_of_settled _ hst hf hl, hbase]
    rfl
  · refine ⟨_, cgAdvance_next hg (by rw [hst]; rfl), ?_⟩
    rw [State.group_setGroup_same, advance_of_dwelt _ hst hl]
    exact ⟨rfl, rfl, rfl, rfl, rfl⟩
  · refine ⟨_, cgAdvance_next hg (by rw [hst]; rfl), ?_⟩
    rw [State.group_setGroup_same, advance_of_udwelt _ hst hl]
    cases hr : (s.group g).core.seq.restart with
    | true => exact ⟨rfl, rfl, rfl, rfl, rfl, rfl⟩
    | false => exact ⟨rfl, rfl, hr, rfl, rfl, rfl⟩

end Sys2Proof.Machine
end

/-!
# The requests to a sequencer (O24)
-/

section
namespace Sys2Proof.Machine

/-! ## Requests that come alone in their cycle -/

/-- No transition is due in IDLE, ARMED and PAUSED (R135). -/
theorem advance_of_still {c : CgCore} (f : SeqCfg) (h : c.seq.st ∈ [SeqSt.idle, .armed, .paused]) : c.advance f = c := by
  simp only [List.mem_cons, List.not_mem_nil, or_false] at h
  rcases h with h | h | h <;> simp only [CgCore.advance, h]

/-- No transition is due before a settle's first beat (R128). -/
theorem advance_of_entering {c : CgCore} (f : SeqCfg) (hst : c.seq.st = .settle) (hf : c.seq.fresh = true) :
    c.advance f = c := by
  simp [CgCore.advance, hst, hf]

/-- GO alone, STOP alone, a SEQ_START firing alone and an urgent request alone (R134). -/
theorem apply_go (c : CgCore) (f : SeqCfg) : c.apply f { CgReqs.nil with go := true } = (c.advance f).go f := rfl
theorem apply_stop (c : CgCore) (f : SeqCfg) : c.apply f { CgReqs.nil with stop := true } = (c.advance f).stop := rfl
theorem apply_seqStart (c : CgCore) (f : SeqCfg) :
    c.apply f { CgReqs.nil with seqStart := true } = (c.advance f).seqStart f := rfl
theorem apply_urgent (c : CgCore) (f : SeqCfg) : c.apply f { CgReqs.nil with urgent := true } = (c.advance f).urgent := rfl

theorem go_of_starts {c : CgCore} {f : SeqCfg} (hen : f.en = true) (hst : c.seq.st = .idle) (ht : f.trig = false)
    (hc : f.converts = true) : c.go f = c.start f := by
  simp [CgCore.go, hen, hst, ht, hc]

theorem go_of_arms {c : CgCore} {f : SeqCfg} (hen : f.en = true) (hst : c.seq.st = .idle) (ht : f.trig = true) :
    c.go f = { c with seq := { c.seq with st := .armed } } := by
  simp [CgCore.go, hen, hst, ht]

theorem seqStart_of_armed {c : CgCore} {f : SeqCfg} (hst : c.seq.st = .armed) (hc : f.converts = true) :
    c.seqStart f = c.start f := by
  simp [CgCore.seqStart, hst, hc]

/-- An urgent request in a dwell interrupts the running entry (R133). -/
theorem urgent_of_dwell {c : CgCore} (hst : c.seq.st = .dwell) : c.urgent = { c.interrupt with
    seq := { c.interrupt.seq with st := .usettle, resume := c.seq.entry, entry := 16, fresh := true } } := by
  simp only [CgCore.urgent, hst]
  rfl

/-- An urgent request where no entry runs is dropped (R134). -/
theorem urgent_of_still {c : CgCore} (h : c.seq.st ∈ [SeqSt.idle, .armed, .paused]) :
    c.urgent = { c with drops := c.drops + 1 } := by
  simp only [List.mem_cons, List.not_mem_nil, or_false] at h
  rcases h with h | h | h <;> simp only [CgCore.urgent, h]

/-! ## A request that reaches a group -/

/-- The group after a request, which its sequencer meets with what it reads of the registers (R134). -/
def Group.request (x : Group) (f : SeqCfg) (r : CgReqs → CgReqs) : Group :=
  let base := x.base.getD x.core
  let reqs := r (if x.base.isSome then x.reqs else CgReqs.nil)
  { x with base := some base, reqs := reqs, core := base.apply f reqs }

theorem State.cgRequest_eq (s : State) (g : Nat) (r : CgReqs → CgReqs) :
    s.cgRequest g r = s.setGroup g ((s.group g).request (s.seqCfg g) r) := rfl

/-- The first request of a cycle acts on the group as it stands. -/
theorem Group.request_core {x : Group} (h : x.base = none) (f : SeqCfg) (r : CgReqs → CgReqs) :
    (x.request f r).core = x.core.apply f (r CgReqs.nil) := by
  rw [Group.request, h]
  rfl

/-! ## CGg_SEQCTL -/

section
variable {s : State} {g : Nat}

/-- What a sequencer reads of registers and mode, none of it in TWN_HSEQ. -/
theorem State.seqCfg_counted (s : State) (hg : g < 24) : s.counted.seqCfg g = s.seqCfg g := by
  have hw {q : FieldRef} {e : Nat} (hq : q.base + 24 * q.st1 + 16 * q.st2 ≤ 0x6C0000) (he : e < 16) :
      s.counted.word (q.addr g e) = s.word (q.addr g e) := by
    refine (WritesOnly.counted .refl List.mem_cons_self : WritesOnly [Reg.TWN_HSEQ.base] s s.counted).same _ fun h => ?_
    have h1 := Nat.mul_le_mul_right q.st1 hg.le
    have h2 := Nat.mul_le_mul_right q.st2 he.le
    simp only [FieldRef.addr, Reg.TWN_HSEQ, List.mem_singleton] at h
    omega
  have hmode : s.counted.mode = s.mode := by rw [State.counted]; split <;> rfl
  have hrow (k e : Nat) (he : e < 16) :
      readEntry k (s.counted.word (Reg.CG_SEQ_CFG.addr g e)) (s.counted.word (Reg.CG_SEQ_DWELL.addr g e)) false =
        readEntry k (s.word (Reg.CG_SEQ_CFG.addr g e)) (s.word (Reg.CG_SEQ_DWELL.addr g e)) false := by
    rw [hw (by decide) he, hw (by decide) he]
  simp only [State.seqCfg, State.on, State.f, hmode, List.map_congr_left fun e he => hrow _ e (List.mem_range.mp he)]
  simp (disch := decide) only [hw]

/-- `t` is `s` with group `g` as `x` and CGg_SEQCTL written, by a host row. -/
structure SeqctlWritten (g : Nat) (x : Group) (s t : State) : Prop where
  own : t.group g = x
  groups : t.groups = (s.setGroup g x).groups
  frame : t = { s with groups := t.groups, regs := t.regs }
  same : SameBut [Reg.TWN_HSEQ.base, Reg.CG_SEQCTL.addr g 0] s t

theorem SeqctlWritten.others {x : Group} {t : State} (h : SeqctlWritten g x s t) : Others g s.group t.group :=
  fun d hd => (State.group_congr h.groups d).trans (State.group_setGroup_of_ne _ _ hd.symm)

theorem seqctlWritten (s : State) (g : Nat) (v : Word) (x : Group) :
    SeqctlWritten g x s ((s.setWord (Reg.CG_SEQCTL.addr g 0) v).setGroup g x).counted := by
  have hw : WritesOnly [Reg.TWN_HSEQ.base, Reg.CG_SEQCTL.addr g 0] (s.setGroup g x)
      ((s.setGroup g x).setWord (Reg.CG_SEQCTL.addr g 0) v).counted :=
    (WritesOnly.refl.setWord (.tail _ (.head _))).counted List.mem_cons_self
  change SeqctlWritten g x s ((s.setGroup g x).setWord (Reg.CG_SEQCTL.addr g 0) v).counted
  have hgroups : ((s.setGroup g x).setWord (Reg.CG_SEQCTL.addr g 0) v).counted.groups = (s.setGroup g x).groups := by
    rw [hw.frame]
  refine ⟨(State.group_congr hgroups g).trans (s.group_setGroup_same g x), hgroups, ?_, hw.same⟩
  rw [hw.frame]
  rfl

/-- What a write to CGg_SEQCTL stores. -/
def seqctlWord (w : Word) : Word := w &&& 0x001F0100

theorem bit_seqctlWord (w : Word) : (seqctlWord w).bit 8 = w.bit 8 := by
  simp [seqctlWord, bit_eq_getLsbD]

/-- A write of GO or STOP is a request to the sequencer (R131). -/
theorem writeSeqctl_of_requests {w : Word} (h : w.bit 0 = true ∨ w.bit 1 = true) : s.writeSeqctl g w =
    (s.setWord (Reg.CG_SEQCTL.addr g 0) (seqctlWord w)).cgRequest g fun r =>
      { r with stop := r.stop || w.bit 1, go := r.go || w.bit 0 } :=
  if_pos h

/-- What the sequencer reads beside CGg_SEQCTL does not change with it. -/
theorem seqCfg_setSeqctl (s : State) (g : Nat) (w : Word) :
    ((s.setWord (Reg.CG_SEQCTL.addr g 0) w).seqCfg g).en = s.on Fld.CG_CTL_EN g ∧
    ((s.setWord (Reg.CG_SEQCTL.addr g 0) w).seqCfg g).trig = w.bit 8 ∧
    ((s.setWord (Reg.CG_SEQCTL.addr g 0) w).seqCfg g).converts = s.mode.converts := by
  refine ⟨?_, ?_, rfl⟩
  · have hne : Reg.CG_SEQCTL.addr g 0 ≠ Fld.CG_CTL_EN.addr g 0 := by
      simp only [FieldRef.addr, Reg.CG_SEQCTL, Fld.CG_CTL_EN]
      omega
    rw [State.seqCfg, State.on, State.f, State.word_setWord, if_neg hne]
    rfl
  · refine (State.on_eq_bit _ rfl g 0).trans ?_
    rw [State.word_setWord]
    exact congrArg (Word.bit · 8) (if_pos rfl)

/-- A write that requests: what the sequencer makes of the requests, and what the row writes. -/
theorem seqctlRow {w : Word} (hg : g < s.part.numCG) (hb : (s.group g).base = none) (h : w.bit 0 = true ∨ w.bit 1 = true) :
    ∃ x : Group, SeqctlWritten g x s (s.writeSeqctl g w).counted ∧
      x.core = (s.group g).core.apply ((s.writeSeqctl g w).counted.seqCfg g)
        { CgReqs.nil with stop := w.bit 1, go := w.bit 0 } ∧
      (s.writeSeqctl g w).counted.seqCfg g = (s.setWord (Reg.CG_SEQCTL.addr g 0) (seqctlWord w)).seqCfg g := by
  have hcfg (x : Group) : ((s.setWord (Reg.CG_SEQCTL.addr g 0) (seqctlWord w)).setGroup g x).counted.seqCfg g =
      (s.setWord (Reg.CG_SEQCTL.addr g 0) (seqctlWord w)).seqCfg g :=
    State.seqCfg_counted _ (hg.trans_le (numCG_le _))
  rw [writeSeqctl_of_requests h, State.cgRequest_eq]
  refine ⟨_, seqctlWritten s g (seqctlWord w) _, ?_, hcfg _⟩
  rw [hcfg]
  refine (Group.request_core hb _ _).trans ?_
  simp only [CgReqs.nil, Bool.false_or]

end

theorem bit_or_one (v : Word) : (v ||| 1).bit 0 = true ∧ (v ||| 1).bit 1 = v.bit 1 ∧ (v ||| 1).bit 8 = v.bit 8 := by
  simp [bit_eq_getLsbD]

theorem bit_or_two (v : Word) : (v ||| 2).bit 1 = true ∧ (v ||| 2).bit 0 = v.bit 0 := by
  simp [bit_eq_getLsbD]

/-- GO alone. -/
theorem exec_cgGo {s : State} {g : Nat} (hg : g < s.part.numCG) (hs : s.sclk g = true) (hb : (s.group g).base = none)
    (hstop : s.on Fld.CG_SEQCTL_STOP g = false) : ∃ (t : State) (x : Group),
      exec (.cgGo g) s = .next t ∧ SeqctlWritten g x s t ∧ x.core = ((s.group g).core.advance (t.seqCfg g)).go (t.seqCfg g) ∧
      (t.seqCfg g).en = s.on Fld.CG_CTL_EN g ∧ (t.seqCfg g).trig = s.on Fld.CG_SEQCTL_TRIG g ∧
      (t.seqCfg g).converts = s.mode.converts := by
  obtain ⟨h0, h1, h8⟩ := bit_or_one (s.word (Reg.CG_SEQCTL.addr g 0))
  have hstop : (s.word (Reg.CG_SEQCTL.addr g 0)).bit 1 = false :=
    (State.on_eq_bit s (r := Fld.CG_SEQCTL_STOP) rfl g 0).symm.trans hstop
  obtain ⟨x, hw, hcore, hcfg⟩ := seqctlRow hg hb (.inl h0)
  obtain ⟨hen, htrig, hconv⟩ := seqCfg_setSeqctl s g (seqctlWord (s.word (Reg.CG_SEQCTL.addr g 0) ||| 1))
  refine ⟨_, x, hostRow_sclkWrite hg hs, hw, ?_, ?_, ?_, ?_⟩
  · rw [hcore, h0, h1, hstop]
    exact apply_go _ _
  · rw [hcfg, hen]
  · rw [hcfg, htrig, bit_seqctlWord, h8]
    exact (State.on_eq_bit s (r := Fld.CG_SEQCTL_TRIG) rfl g 0).symm
  · rw [hcfg, hconv]

/-- STOP alone. -/
theorem exec_cgStop {s : State} {g : Nat} (hg : g < s.part.numCG) (hs : s.sclk g = true) (hb : (s.group g).base = none)
    (hgo : s.on Fld.CG_SEQCTL_GO g = false) : ∃ (t : State) (x : Group),
      exec (.cgStop g) s = .next t ∧ SeqctlWritten g x s t ∧ x.core = ((s.group g).core.advance (t.seqCfg g)).stop := by
  obtain ⟨h1, h0⟩ := bit_or_two (s.word (Reg.CG_SEQCTL.addr g 0))
  have hgo : (s.word (Reg.CG_SEQCTL.addr g 0)).bit 0 = false :=
    (State.on_eq_bit s (r := Fld.CG_SEQCTL_GO) rfl g 0).symm.trans hgo
  obtain ⟨x, hw, hcore, -⟩ := seqctlRow hg hb (.inr h1)
  refine ⟨_, x, hostRow_sclkWrite hg hs, hw, ?_⟩
  rw [hcore, h1, h0, hgo]
  exact apply_stop _ _

/-! ## Firings -/

section
variable {s : State} {g : Nat}

/-- A firing whose bit `k` requests `r` of the sequencer. -/
theorem cgInbox_request {k : Nat} {q : FiringRec} (r : CgReqs → CgReqs) (hq : headBit k (s.group g).inbox = some q)
    (hen : s.on Fld.CG_CTL_EN g = true) (hb : (s.group g).base = none) : ∃ x : Group,
      (s.cgInbox g k fun _ s => s.cgRequest g r).group g = x ∧
      x.core = (s.group g).core.apply (s.seqCfg g) (r CgReqs.nil) ∧ x.inbox = takeBit k (s.group g).inbox ∧
      Others g s.group (s.cgInbox g k fun _ s => s.cgRequest g r).group ∧
      (s.cgInbox g k fun _ s => s.cgRequest g r) =
        { s with groups := (s.cgInbox g k fun _ s => s.cgRequest g r).groups } := by
  rw [State.cgInbox_of_head _ hq hen, State.cgRequest_eq, State.group_setGroup_same, State.group_setGroup_same]
  refine ⟨_, rfl, Group.request_core hb _ _, rfl, fun d hd => ?_, rfl⟩
  rw [State.group_setGroup_of_ne _ _ hd.symm, State.group_setGroup_of_ne _ _ hd.symm]

end

/-! ## Request lines -/

section
variable {s t u : State}

/-- A pulse that arrives at the source half leaves what waits at the destination. -/
theorem PulseX.push_got (x : PulseX) (nd : Nat) : (x.push nd).1.got = x.got := by
  unfold PulseX.push
  split
  · rfl
  · split <;> rfl

/-- A crossing that holds a pulse delivers it (R494). -/
theorem PulseX.deliver_of_got {x : PulseX} (h : 0 < x.got) (nd back : Nat) :
    x.deliver nd back = ({ x with got := x.got - 1 }, true) := by
  rw [PulseX.deliver, if_neg h.ne', decide_eq_true h]

theorem State.frqX_setFrqX (s : State) (f k : Nat) (x : PulseX) :
    (s.setFrqX f x).frqX k = if f = k then x else s.frqX k := by
  simp [State.frqX, State.setFrqX]

/-- `t` is `s` but for what a cabinet last saw of its request lines, for pulses that enter their crossings and for XOVF, which
shows those lost. -/
structure FrqScanned (s t : State) : Prop where
  frame : t = { s with cabs := t.cabs, frqs := t.frqs, regs := t.regs }
  same : SameBut [Reg.DEV_XSTAT.base] s t
  got : ∀ f, (t.frqX f).got = (s.frqX f).got

theorem FrqScanned.trans (h : FrqScanned s t) (h' : FrqScanned t u) : FrqScanned s u where
  frame := h'.frame.trans (by rw [h.frame])
  same := h.same.trans h'.same
  got f := (h'.got f).trans (h.got f)

theorem State.setCab_frqScanned (s : State) (k : Nat) (c : Cabinet) : FrqScanned s (s.setCab k c) :=
  ⟨rfl, fun _ _ => rfl, fun _ => rfl⟩

theorem State.push_frqScanned (s : State) (f nd : Nat) : FrqScanned s (s.setFrqX f ((s.frqX f).push nd).1) where
  frame := rfl
  same _ _ := rfl
  got k := by
    rw [State.frqX_setFrqX]
    split
    · subst k
      exact PulseX.push_got _ nd
    · rfl

theorem State.xovf_frqScanned (s : State) (bit : Nat) (lost : Bool) : FrqScanned s (s.xovf bit lost) where
  frame := by rw [(s.xovf_writesOnly bit lost).frame]
  same := (s.xovf_writesOnly bit lost).same
  got f := by rw [(s.xovf_writesOnly bit lost).frame]; rfl

theorem State.scanFrq_frqScanned (s : State) (k : Nat) : FrqScanned s (s.scanFrq k) := by
  refine List.foldlRecOn (List.range 2) _ (motive := FrqScanned s) ⟨rfl, fun _ _ => rfl, fun _ => rfl⟩ fun t ht i _ => ?_
  dsimp only
  split
  · exact ((ht.trans (t.setCab_frqScanned ..)).trans (State.push_frqScanned ..)).trans (State.xovf_frqScanned ..)
  · exact ht.trans (t.setCab_frqScanned ..)

/-- Whether group `d` listens to request line `f` (R132). -/
def State.listens (s : State) (f d : Nat) : Bool :=
  s.on Fld.CG_CTL_EN d && s.on Fld.CG_FTRIG_EN d && s.f Fld.CG_FTRIG_LINE d == f

theorem State.listens_of_sameBut (h : SameBut [Reg.DEV_XSTAT.base] s t) (f d : Nat) : t.listens f d = s.listens f d := by
  unfold State.listens
  simp (disch := decide) only [h.on_eq (FieldRef.addr_not_mem_xstat _), h.f_eq (FieldRef.addr_not_mem_xstat _)]

/-- The group after request line `f` rose, of which it reads in `s` (R132). -/
def Group.hearFrq (x : Group) (f d : Nat) (s : State) : Group :=
  if s.listens f d then x.request (s.seqCfg d) (fun r => { r with urgent := true }) else x

/-- The rise of request line `f` reaches group `d`. -/
def State.hearFrq (f : Nat) (s : State) (d : Nat) : State :=
  if s.listens f d then s.cgRequest d (fun r => { r with urgent := true }) else s

theorem State.hearFrq_frame (f : Nat) (s : State) (d : Nat) :
    ({ s.hearFrq f d with groups := [] } : State) = { s with groups := [] } := by
  unfold State.hearFrq
  split <;> rfl

theorem State.group_hearFrq (f : Nat) (s : State) (d : Nat) :
    (s.hearFrq f d).group d = (s.group d).hearFrq f d { s with groups := [] } := by
  unfold State.hearFrq Group.hearFrq
  rw [show State.listens { s with groups := [] } f d = s.listens f d from rfl]
  split
  · exact s.group_setGroup_same d _
  · rfl

theorem State.group_hearFrq_of_ne (f : Nat) (s : State) {d e : Nat} (h : e ≠ d) : (s.hearFrq f e).group d = s.group d := by
  unfold State.hearFrq
  split
  · exact s.group_setGroup_of_ne _ h
  · rfl

/-- A crossing that holds a pulse delivers it to every group that listens. -/
theorem State.fabricRequest_of_got {f : Nat} (h : 0 < (s.frqX f).got) : s.fabricRequest f =
    (List.range s.part.numCG).foldl (State.hearFrq f) (s.setFrqX f { s.frqX f with got := (s.frqX f).got - 1 }) := by
  rw [State.fabricRequest, PulseX.deliver_of_got h, if_pos rfl]
  refine congrArg (fun h => List.foldl h _ _) (funext fun s => funext fun d => ?_)
  simp only [State.hearFrq, State.listens, Bool.and_eq_true, beq_iff_eq, and_assoc]

/-- The group after a rise that every listening group hears. -/
theorem State.group_foldl_hearFrq (f : Nat) (s : State) {n d : Nat} (hd : d < n) :
    ((List.range n).foldl (State.hearFrq f) s).group d = (s.group d).hearFrq f d { s with groups := [] } :=
  foldl_at (fun s : State => s.group d) (fun s : State => ({ s with groups := [] } : State)) (fun x t => x.hearFrq f d t)
    (fun s _ h => s.group_hearFrq_of_ne f h) (State.hearFrq_frame f) (fun s => s.group_hearFrq f d) List.nodup_range
    (List.mem_range.mpr hd) s

theorem State.group_foldl_hearFrq_of_le (f : Nat) (s : State) {n d : Nat} (hd : n ≤ d) :
    ((List.range n).foldl (State.hearFrq f) s).group d = s.group d :=
  List.foldlRecOn (motive := fun t : State => t.group d = s.group d) _ _ rfl fun t ht _ he =>
    (State.group_hearFrq_of_ne f t ((List.mem_range.mp he).trans_le hd).ne).trans ht

/-- The fold leaves all but the groups. -/
theorem State.foldl_hearFrq_frame (f : Nat) (s : State) (l : List Nat) :
    l.foldl (State.hearFrq f) s = { s with groups := (l.foldl (State.hearFrq f) s).groups } := by
  have h := foldl_preserves (fun s : State => ({ s with groups := [] } : State)) (State.hearFrq_frame f) l s
  exact congrArg (fun t : State => { t with groups := (l.foldl (State.hearFrq f) s).groups }) h

theorem exec_fabricRequest {f : Nat} (hf : f < 48) (h : 0 < (s.frqX f).got) :
    exec (.fabricRequest f) s = .next ((List.range s.part.numCG).foldl (State.hearFrq f)
      ((s.scanFrq (f / 2)).setFrqX f { (s.scanFrq (f / 2)).frqX f with got := (s.frqX f).got - 1 })) := by
  have hscan := s.scanFrq_frqScanned (f / 2)
  have hpart : (s.scanFrq (f / 2)).part = s.part := by rw [hscan.frame]
  refine (onInst_of_lt hf).trans (congrArg Host.Outcome.next ?_)
  rw [State.fabricRequest_of_got (by rw [hscan.got]; exact h), hpart, hscan.got]

/-- A rise that is delivered: what becomes of the groups, of the crossing and of the rest. -/
theorem fabricRequest_delivers {f : Nat} (hf : f < 48) (h : 0 < (s.frqX f).got) : ∃ t, exec (.fabricRequest f) s = .next t ∧
    (∀ d < s.part.numCG, ∃ u : State, u.listens f d = s.listens f d ∧ t.group d = (s.group d).hearFrq f d u) ∧
    (∀ d, s.part.numCG ≤ d → t.group d = s.group d) ∧ (t.frqX f).got = (s.frqX f).got - 1 ∧
    t = { s with groups := t.groups, cabs := t.cabs, frqs := t.frqs, regs := t.regs } := by
  refine ⟨_, exec_fabricRequest hf h, ?_⟩
  have hscan := s.scanFrq_frqScanned (f / 2)
  generalize s.scanFrq (f / 2) = u at hscan ⊢
  have hgroup (d : Nat) : (u.setFrqX f { u.frqX f with got := (s.frqX f).got - 1 }).group d = s.group d := by
    rw [hscan.frame]
    rfl
  have hframe := State.foldl_hearFrq_frame f (u.setFrqX f { u.frqX f with got := (s.frqX f).got - 1 })
    (List.range s.part.numCG)
  refine ⟨fun d hd => ⟨_, ?_, (State.group_foldl_hearFrq f _ hd).trans (by rw [hgroup])⟩,
    fun d hd => (State.group_foldl_hearFrq_of_le f _ hd).trans (hgroup d), ?_, ?_⟩
  · exact State.listens_of_sameBut (s := s) hscan.same f d
  · rw [hframe]
    exact congrArg PulseX.got ((u.frqX_setFrqX f f _).trans (if_pos rfl))
  · rw [hframe, hscan.frame]
    rfl

end

/-- Settles O24: a request that comes alone in its cycle finds no transition due, so the group after it is the group that
`CgCore.go`, `stop`, `seqStart` or `urgent` makes of the group as it stands. -/
theorem sequencerRequests : Obligations.SequencerRequests := by
  refine ⟨fun s g hg hs hen hm hb hst ht hstop => ?_, fun s g hg hs hen hb hst ht hstop => ?_,
    fun s g hg hs hb hgo hst hf => ?_, fun s g r hg hr hen hm hb hst => ?_, fun s g r hg hr hen hb hst hl => ?_,
    fun s g r hg hr hen hb hst => ?_, fun s f g hf hg hgot hen hft hline hb hst hl => ?_⟩
  · obtain ⟨t, x, ht', hw, hcore, hcen, hctrig, hconv⟩ := exec_cgGo hg hs hb hstop
    rw [advance_of_still _ (by simp [hst]), go_of_starts (hcen.trans hen) hst (hctrig.trans ht) (hconv.trans hm)] at hcore
    refine ⟨t, ht', ?_⟩
    rw [hw.own, hcore]
    exact ⟨rfl, rfl, rfl, rfl, rfl, hw.groups, hw.frame, hw.same⟩
  · obtain ⟨t, x, ht', hw, hcore, hcen, hctrig, -⟩ := exec_cgGo hg hs hb hstop
    rw [advance_of_still _ (by simp [hst]), go_of_arms (hcen.trans hen) hst (hctrig.trans ht)] at hcore
    refine ⟨t, ht', ?_⟩
    rw [hw.own]
    exact ⟨hcore, hw.others, hw.frame, hw.same⟩
  · obtain ⟨t, x, ht, hw, hcore⟩ := exec_cgStop hg hs hb hgo
    rw [advance_of_entering _ hst hf] at hcore
    refine ⟨t, ht, ?_⟩
    rw [hw.own, hcore]
    exact ⟨rfl, rfl, rfl, hw.others, hw.frame, hw.same⟩
  · obtain ⟨x, hown, hcore, hinbox, hothers, hframe⟩ :=
      cgInbox_request (fun r => { r with seqStart := true }) hr hen hb
    rw [apply_seqStart, advance_of_still _ (by simp [hst]), seqStart_of_armed hst hm] at hcore
    refine ⟨_, ifPresent_of_lt hg (numCG_le _), ?_⟩
    rw [hown, hcore, hinbox]
    exact ⟨rfl, rfl, rfl, hothers, hframe⟩
  · obtain ⟨x, hown, hcore, hinbox, hothers, hframe⟩ :=
      cgInbox_request (fun r => { r with urgent := true }) hr hen hb
    rw [apply_urgent, advance_of_dwelling _ hst hl, urgent_of_dwell hst] at hcore
    refine ⟨_, ifPresent_of_lt hg (numCG_le _), ?_⟩
    rw [hown, hcore]
    exact ⟨rfl, rfl, rfl, rfl, rfl, rfl, hothers, hframe⟩
  · obtain ⟨x, hown, hcore, hinbox, hothers, hframe⟩ :=
      cgInbox_request (fun r => { r with urgent := true }) hr hen hb
    rw [apply_urgent, advance_of_still _ hst, urgent_of_still hst] at hcore
    refine ⟨_, ifPresent_of_lt hg (numCG_le _), ?_⟩
    rw [hown]
    exact ⟨hcore, hinbox, hothers, hframe⟩
  · obtain ⟨t, ht, hin, hout, hgot', hframe⟩ := fabricRequest_delivers hf hgot
    have hlisten : s.listens f g = true := by simp [State.listens, hen, hft, hline]
    obtain ⟨u, hu, hg'⟩ := hin g hg
    rw [Group.hearFrq, if_pos (hu.trans hlisten)] at hg'
    have hcore : (t.group g).core = (s.group g).core.urgent := by
      rw [hg', Group.request_core hb, apply_urgent, advance_of_dwelling _ hst hl]
    rw [urgent_of_dwell hst] at hcore
    refine ⟨t, ht, ?_⟩
    rw [hcore]
    refine ⟨rfl, rfl, rfl, hgot', fun d _ hd => ?_, hframe⟩
    rcases lt_or_ge d s.part.numCG with hlt | hge
    · obtain ⟨v, hv, hd'⟩ := hin d hlt
      rw [hd', Group.hearFrq, hv, State.listens, hd]
      rfl
    · exact hout d hge

end Sys2Proof.Machine
end

/-!
# The counts of one conversion beat (O26)

An SCLK edge of a group is a row of steps, of which few touch the sequencer's core: `cgEdge_spec` says what the core becomes in
all of them together, and the four cases of the obligation evaluate it.
-/

section
namespace Sys2Proof.Machine

/-! ## The core at an SCLK edge -/

/-- What becomes of a beat, once the running entry's fields are read (R129, R130, R136). -/
def CgCore.takeBeat (c : CgCore) (f : SeqCfg) (h : HeldBeat) : CgCore :=
  match c.fate with
  | .unused => { c with marksLost := c.marksLost + h.marks }
  | .settle => c.takeSettle f h.marks
  | .dwell => c.takeDwell f h

/-- A beat whose latency is over leaves the delay line (R136). -/
def CgCore.emitDue (c : CgCore) (beat : Nat) : CgCore := if (c.due beat).isSome then c.release else c

/-- What an SCLK edge makes of the core: `o` is the beat converted, where the group converts. -/
def CgCore.atEdge (c : CgCore) (f : SeqCfg) (o : Option HeldBeat) : CgCore :=
  match o with
  | none => c
  | some h => (c.enter f).takeBeat f h

/-- `n` MARKs find no sample (R139). -/
def CgCore.loseMarks (c : CgCore) (n : Nat) : CgCore := { c with marksLost := c.marksLost + n }

/-- `h` is the beat converted at SCLK edge `beat`. -/
structure HeldBeat.FreshAt (h : HeldBeat) (beat : Nat) : Prop where
  beat_eq : h.beat = beat
  lat : 14 ≤ h.lat

theorem HeldBeat.FreshAt.not_due {h : HeldBeat} {beat : Nat} (hf : h.FreshAt beat) : beat < h.beat + h.lat := by
  have := hf.beat_eq
  have := hf.lat
  omega

section
variable {c : CgCore} {f : SeqCfg} {h : HeldBeat} {b : Nat}

/-- No transition is due while the settle counts. -/
theorem advance_of_settling (f : SeqCfg) (hst : c.seq.st = .settle) (hl : c.seq.settleLeft ≠ 0) : c.advance f = c := by
  simp [CgCore.advance, hst, hl]

theorem CgCore.enter_of_read (hf : c.seq.fresh = false) : c.enter f = c := by
  simp [CgCore.enter, hf]

theorem takeBeat_of_settle (hst : c.seq.st = .settle) : c.takeBeat f h = { c with
    conv := c.conv + 4, sdisc := c.sdisc + 4, marksLost := c.marksLost + h.marks,
    seq := { c.seq with settleLeft := c.seq.settleLeft - 1 } } := by
  simp [CgCore.takeBeat, CgCore.fate, CgCore.takeSettle, hst]

theorem takeBeat_of_dwell (hst : c.seq.st = .dwell) (he : c.seq.empty = false) : c.takeBeat f h = c.takeDwell f h := by
  simp [CgCore.takeBeat, CgCore.fate, hst, he]

/-- Outside a sequence an edge counts no word: a beat that is converted is not used. -/
theorem atEdge_of_idle (hst : c.seq.st = .idle) (hf : c.seq.fresh = false) (o : Option HeldBeat) :
    ∃ n, c.atEdge f o = c.loseMarks n := by
  cases o with
  | none => exact ⟨0, rfl⟩
  | some h =>
    refine ⟨h.marks, ?_⟩
    rw [CgCore.atEdge, CgCore.enter_of_read hf]
    simp only [CgCore.takeBeat, CgCore.fate, hst, CgCore.loseMarks]

/-- A beat of a dwell that is not its last (R129). -/
theorem takeDwell_of_more {m : Nat} (hl : c.seq.dwellLeft = some (m + 2)) : c.takeDwell f h = { c with
    conv := c.conv + 4, held := c.held ++ [h], seq := { c.seq with dwellLeft := some (m + 1) } } := by
  simp [CgCore.takeDwell, hl]

/-- The last beat of a dwell (R129). -/
theorem takeDwell_of_last (hst : c.seq.st = .dwell) (hl : c.seq.dwellLeft = some 1) : c.takeDwell f h = { c with
    conv := c.conv + 4, held := (c.held ++ [h]).map fun h => { h with done := true },
    ends := c.ends || c.seq.eirq, wraps := c.wraps || decide (f.last ≤ c.seq.entry),
    seq := { c.seq with dwellLeft := some 0, next := if f.last ≤ c.seq.entry then 0 else c.seq.entry + 1 } } := by
  simp [CgCore.takeDwell, CgCore.complete, CgCore.settleFate, hst, hl]

theorem emitDue_ends_wraps (c : CgCore) (b : Nat) : (c.emitDue b).ends = c.ends ∧ (c.emitDue b).wraps = c.wraps := by
  unfold CgCore.emitDue CgCore.release
  split
  · split <;> exact ⟨rfl, rfl⟩
  · exact ⟨rfl, rfl⟩

theorem emitDue_of_empty (hh : c.held = []) : c.emitDue b = c := by
  simp [CgCore.emitDue, CgCore.due, hh]

/-- A beat whose latency is not over is not due. -/
theorem emitDue_of_fresh (hh : c.held = [h]) (hb : b < h.beat + h.lat) : c.emitDue b = c := by
  simp [CgCore.emitDue, CgCore.due, hh, hb]

theorem emitDue_of_due (hh : c.held = [h]) (hd : h.done = true) (hb : h.beat + h.lat ≤ b) :
    c.emitDue b = { c with held := [], emit := c.emit + 4 } := by
  simp [CgCore.emitDue, CgCore.due, CgCore.release, hh, hd, hb]

end

/-! ## Steps before the beat -/

section
variable {s t : State} {g : Nat}

/-- What an SCLK edge goes by: the core, the beat's number, a handover, and the registers and mode that say what to count. -/
structure BeatView where
  core : CgCore
  beat : Nat
  overlap : Option Overlap
  en : Bool
  converts : Bool
  last : Nat

def State.beatView (s : State) (g : Nat) : BeatView :=
  { core := (s.group g).core, beat := (s.group g).beat, overlap := (s.group g).rot.overlap, en := s.on Fld.CG_CTL_EN g,
    converts := s.mode.converts, last := s.f Fld.CG_SEQCTL_LAST g }

/-- The registers beyond CGg_SEQCTL are not looked at. -/
theorem State.beatView_setF (s : State) (g v j : Nat) {r : FieldRef} (h : 0x100004 < r.base ∧ r.st1 = 0x1000) :
    (s.setF r v g j).beatView g = s.beatView g := by
  have hne {q : FieldRef} (hq : q.base ≤ 0x100004 ∧ q.st1 = 0x1000) : r.addr g j ≠ q.addr g 0 := by
    simp only [FieldRef.addr, h.2, hq.2]
    omega
  rw [State.beatView, State.on, State.f_setF_of_addr _ _ _ _ _ _ _ _ (hne (by decide)),
    State.f_setF_of_addr _ _ _ _ _ _ _ _ (hne (by decide))]
  rfl

theorem State.beatView_flagIf (s : State) (g j : Nat) (b : Bool) {r : FieldRef} (h : 0x100004 < r.base ∧ r.st1 = 0x1000) :
    (s.flagIf b r g j).beatView g = s.beatView g := by
  cases b with
  | false => rfl
  | true => exact s.beatView_setF g 1 j h

theorem State.beatView_setGroup (s : State) (g : Nat) (x : Group) : (s.setGroup g x).beatView g =
    { s.beatView g with core := x.core, beat := x.beat, overlap := x.rot.overlap } := by
  rw [State.beatView, State.group_setGroup_same]
  rfl

theorem State.beatView_cgDrain (s : State) (g : Nat) : (s.cgDrain g).beatView g = s.beatView g := by
  refine (foldl_preserves (fun s : State => s.beatView g) (fun t e => ?_) _ _).trans (s.beatView_setGroup g _)
  dsimp only
  split <;> rfl

theorem State.beatView_cgCommit (s : State) (g : Nat) :
    (s.cgCommit g).beatView g = { s.beatView g with core := (s.group g).core.settleUp } := by
  unfold State.cgCommit
  dsimp only [State.addSat, State.addWrap]
  simp (disch := decide) only [State.beatView_setF, State.beatView_flagIf, State.beatView_setGroup]
  rfl

theorem State.beatView_winReport (s : State) (g l : Nat) : (s.winReport g l).beatView g = s.beatView g := by
  unfold State.winReport
  dsimp only [State.setBit, State.setB]
  split
  · simp (disch := decide) only [State.beatView_setF, State.beatView_setGroup]
    rfl
  · rfl

theorem State.handoverEnd_of_none (h : (s.group g).rot.overlap = none) : s.handoverEnd g = s := by
  rw [State.handoverEnd]
  simp only [State.rot, h]

/-- The state that an SCLK edge converts in: what happened since the last edge shows in the registers, and a transition that is
due is made. -/
def State.edgeStart (s : State) (g e tick : Nat) : State :=
  let s := (List.range 4).foldl (fun s l => s.winReport g l) ((((s.atTick tick).cgDrain g).cgCommit g).handoverEnd g)
  s.setGroup g { s.group g with
    beat := (s.group g).beat + 1, lastEdge := some e, core := (s.group g).core.advance (s.seqCfg g) }

theorem State.beatView_edgeStart {e tick : Nat} (h : (s.group g).rot.overlap = none) : ∃ f : SeqCfg,
    (s.edgeStart g e tick).beatView g =
      { s.beatView g with core := (s.group g).core.settleUp.advance f, beat := (s.group g).beat + 1 } := by
  have hdrain := (s.atTick tick).beatView_cgDrain g
  have hcommit := ((s.atTick tick).cgDrain g).beatView_cgCommit g
  rw [hdrain, show (((s.atTick tick).cgDrain g).group g).core = (s.group g).core from congrArg BeatView.core hdrain] at hcommit
  have hover : (((s.atTick tick).cgDrain g).cgCommit g).handoverEnd g = ((s.atTick tick).cgDrain g).cgCommit g :=
    State.handoverEnd_of_none ((congrArg BeatView.overlap hcommit).trans h)
  have hview := (foldl_preserves (fun s : State => s.beatView g) (fun s l => s.beatView_winReport g l) (List.range 4)
    (((s.atTick tick).cgDrain g).cgCommit g)).trans hcommit
  rw [State.edgeStart, hover]
  generalize (List.range 4).foldl _ _ = t at hview ⊢
  refine ⟨t.seqCfg g, ?_⟩
  dsimp only
  rw [State.beatView_setGroup, hview, show (t.group g).core = _ from congrArg BeatView.core hview,
    show (t.group g).beat = _ from congrArg BeatView.beat hview,
    show (t.group g).rot.overlap = _ from congrArg BeatView.overlap hview]
  rfl

end

/-! ## The beat -/

section
variable {s : State} {g : Nat}

/-- The estimator changes the rotation alone. -/
theorem State.estCount_taken (s : State) (g : Nat) (ys : List Rat) :
    ((s.estCount g ys).group g).core = (s.group g).core ∧ ((s.estCount g ys).group g).beat = (s.group g).beat := by
  unfold State.estCount
  extract_lets r pc old stats full t new
  have ht : (t.group g).core = (s.group g).core ∧ (t.group g).beat = (s.group g).beat := by
    rw [show t.group g = _ from s.group_setGroup_same g _]
    exact ⟨rfl, rfl⟩
  split
  · exact ht
  · rw [State.group_congr (State.groups_flagIf ..), State.group_congr (State.setF_groups ..)]
    exact ht

theorem State.estBreak_taken (s : State) (g : Nat) :
    ((s.estBreak g).group g).core = (s.group g).core ∧ ((s.estBreak g).group g).beat = (s.group g).beat := by
  unfold State.estBreak
  dsimp only
  split
  · exact ⟨rfl, rfl⟩
  · rw [State.setRot, State.group_setGroup_same]
    exact ⟨rfl, rfl⟩

/-- The group takes a beat, where no handover runs. -/
theorem State.convertBeat_spec {e tick : Nat} {raw : List (List Int)} {b a i : Int}
    (h : (s.group g).rot.overlap = none) : ∃ y : HeldBeat, y.FreshAt (s.group g).beat ∧
      ((s.convertBeat g e tick raw b a i).group g).core = ((s.group g).core.enter (s.seqCfg g)).takeBeat (s.seqCfg g) y ∧
      ((s.convertBeat g e tick raw b a i).group g).beat = (s.group g).beat := by
  obtain ⟨u, hu⟩ : ∃ u, s.convertBeat g e tick raw b a i = u := ⟨_, rfl⟩
  rw [hu]
  unfold State.convertBeat at hu
  extract_lets cfg x core mode insel link raw before inc ys res lanes ov y inDwell x' last s₁ s₂ s₃ at hu
  have hov : ov = none := by simp only [ov, x, h]
  have h₁ : s₁.group g = { x' with lane0 := if mode = 0 then some (e, last, a) else none } := s.group_setGroup_same g _
  have h₂ : s₂.group g = s₁.group g := by
    refine State.group_congr ?_ g
    dsimp only [s₂]
    split
    · rfl
    · exact foldl_preserves State.groups (fun s e => s.setF_groups _ _ _ _) _ _
  have h₃ : s₃ = s₂ := by simp only [s₃, hov]
  have htaken : (s₃.group g).core = core.takeBeat cfg y ∧ (s₃.group g).beat = x.beat := by
    rw [h₃, h₂, h₁]
    dsimp only [x', CgCore.takeBeat]
    cases core.fate <;> exact ⟨rfl, rfl⟩
  refine ⟨y, ⟨rfl, Nat.le_add_right _ _⟩, ?_⟩
  subst hu
  rw [← htaken.1, ← htaken.2]
  split
  · exact s₃.estCount_taken g ys
  · exact s₃.estBreak_taken g

end

/-! ## Steps after the beat -/

section
variable {s : State} {g : Nat}

theorem State.elogPush_taken (s : State) (g : Nat) (r : ElogRec) :
    ((s.elogPush g r).group g).core = (s.group g).core ∧ ((s.elogPush g r).group g).beat = (s.group g).beat := by
  unfold State.elogPush
  dsimp only
  split
  · rw [State.group_setGroup_same]
    exact ⟨rfl, rfl⟩
  · exact ⟨rfl, rfl⟩

theorem State.groups_emit (s : State) (code : Nat) (ws : List StreamWord) : (s.emit code ws).groups = s.groups := by
  unfold State.emit
  split <;> rfl

/-- The words of the beat that is due go out; of the group that is all that its core tells. -/
theorem State.emitBeat_taken (s : State) (g : Nat) :
    ((s.emitBeat g).group g).core = (s.group g).core.emitDue (s.group g).beat ∧
      ((s.emitBeat g).group g).beat = (s.group g).beat := by
  unfold State.emitBeat CgCore.emitDue
  dsimp only
  cases hdue : (s.group g).core.due (s.group g).beat with
  | none => exact ⟨rfl, rfl⟩
  | some h =>
    dsimp only
    rw [State.group_congr (foldl_preserves State.groups (fun s l => s.groups_emit _ _) _ _)]
    split
    · rw [(State.elogPush_taken _ g _).1, (State.elogPush_taken _ g _).2, State.group_setGroup_same]
      exact ⟨rfl, rfl⟩
    · rw [State.group_setGroup_same]
      exact ⟨rfl, rfl⟩

theorem State.cgWindows_taken (s : State) (g : Nat) :
    ((s.cgWindows g).group g).core = (s.group g).core ∧ ((s.cgWindows g).group g).beat = (s.group g).beat := by
  unfold State.cgWindows
  dsimp only
  rw [State.group_setGroup_same]
  exact ⟨rfl, rfl⟩

theorem State.on_flagIf_of_disjoint (s : State) (b : Bool) {r q : FieldRef} (i j k l : Nat) (h : r.lo + r.width ≤ 32)
    (hd : r.lo + r.width ≤ q.lo ∨ q.lo + q.width ≤ r.lo) : (s.flagIf b r i j).on q k l = s.on q k l := by
  cases b with
  | false => rfl
  | true => exact s.on_setF_of_disjoint _ _ _ _ _ h hd

theorem State.on_setF_beside (s : State) {r q : FieldRef} (v i j : Nat)
    (h : r.st1 = q.st1 ∧ r.st2 = q.st2 ∧ r.base ≠ q.base) : (s.setF r v i j).on q i j = s.on q i j := by
  rw [State.on, s.f_setF_beside _ _ _ _ _ h, State.on]

/-- What ended shows in the group's flags (R129). -/
theorem State.on_cgCommit (s : State) (g : Nat) :
    ((s.group g).core.ends = true → (s.cgCommit g).on Fld.CG_IRQ_ENTRY_END g = true) ∧
    ((s.group g).core.wraps = true → (s.cgCommit g).on Fld.CG_IRQ_WRAP g = true) := by
  unfold State.cgCommit
  dsimp only
  refine ⟨fun h => ?_, fun h => ?_⟩ <;>
    rw [State.on_setF_beside _ _ _ _ (by decide), State.on_setF_beside _ _ _ _ (by decide),
      State.on_flagIf_of_disjoint _ _ _ _ _ _ (by decide) (by decide)]
  · rw [State.on_flagIf _ _ (by decide) (by decide), h, Bool.or_true]
  · rw [State.on_flagIf_of_disjoint _ _ _ _ _ _ (by decide) (by decide), State.on_flagIf _ _ (by decide) (by decide), h,
      Bool.or_true]

/-! The chains' instants are swept in the chains and the registers beyond 0x200000. -/

/-- `t` is `s` to the groups and the registers below the FC blocks. -/
structure BelowKept (s t : State) : Prop where
  groups : t.groups = s.groups
  same : ∀ a < 0x200000, t.word a = s.word a

namespace BelowKept

variable {s₀ s : State} {n : Nat}

theorem refl : BelowKept s s := ⟨rfl, fun _ _ => rfl⟩

theorem ite {c : Prop} [Decidable c] {t : State} (hs : BelowKept s₀ s) (ht : BelowKept s₀ t) :
    BelowKept s₀ (if c then s else t) := by
  split <;> assumption

theorem setChain {c : Chain} (h : BelowKept s₀ s) : BelowKept s₀ (s.setChain n c) := ⟨h.groups, h.same⟩

theorem setF {r : FieldRef} {v i j : Nat} (h : BelowKept s₀ s) (hr : 0x200000 ≤ r.base) : BelowKept s₀ (s.setF r v i j) where
  groups := h.groups
  same a ha := by
    rw [State.word_setF, if_neg, h.same a ha]
    simp only [FieldRef.addr]
    omega

theorem rsPlace {x : RsInst} {p : Option Rat} (h : BelowKept s₀ s) : BelowKept s₀ (s.rsPlace n x p) := by
  unfold State.rsPlace
  dsimp only
  split
  · exact .ite h (h.setChain.setF (by decide))
  · exact .ite h.setChain (.ite ((h.setChain.setF (by decide)).setF (by decide)) h.setChain)
  · exact h.setChain
  · exact h.setChain
  · exact h.setChain
  · exact h.setF (by decide)

theorem rsResolve {gapTo : Option Nat} {fuel : Nat} (h : BelowKept s₀ s) : BelowKept s₀ (s.rsResolve n gapTo fuel) := by
  induction fuel generalizing s with
  | zero => exact h
  | succ k ih =>
    have hplaced {c : Chain} {x : RsInst} {p : Option Rat} :
        BelowKept s₀ (((s.setChain n c).rsPlace n x p).rsResolve n gapTo k) := ih h.setChain.rsPlace
    unfold State.rsResolve
    dsimp only
    split
    · exact h
    · split
      · exact hplaced
      · refine .ite ?_ (.ite hplaced h)
        split
        · exact hplaced
        · exact h

theorem rsSweep {g : Nat} : BelowKept s (s.rsSweep g) :=
  List.foldlRecOn _ _ refl fun _ ht _ _ => .ite ht.rsResolve ht

theorem on {t : State} (h : BelowKept s t) {q : FieldRef} {i j : Nat} (hq : q.addr i j < 0x200000) : t.on q i j = s.on q i j := by
  rw [State.on, State.f, h.same _ hq, State.on, State.f]

end BelowKept

/-- The end of an SCLK edge: the marks it passed are forgotten, the beat that is due goes out, and the registers show what
happened. -/
def State.edgeFinish (s : State) (g : Nat) (ahead : List Nat) (lost : Nat) : State :=
  ((((s.setGroup g { s.group g with
    marksAhead := ahead, core := (s.group g).core.loseMarks lost }).emitBeat g).cgWindows g).cgCommit g).rsSweep g

/-- An SCLK edge is its start, the beat where the group converts, and its end. -/
theorem State.cgEdge_eq (s : State) (g e tick : Nat) (raw : List (List Int)) (b a i : Int) : ∃ ahead lost,
    s.cgEdge g e tick raw b a i =
      (if (s.edgeStart g e tick).on Fld.CG_CTL_EN g && (s.edgeStart g e tick).mode.converts
        then (s.edgeStart g e tick).convertBeat g e tick raw b a i else s.edgeStart g e tick).edgeFinish g ahead lost :=
  ⟨_, _, rfl⟩

/-- `t` is the state after SCLK edge `beat`, which has made of the core of group `g` the core `c`. -/
structure EdgeLeft (g beat : Nat) (c : CgCore) (t : State) : Prop where
  core : (t.group g).core = (c.emitDue beat).settleUp
  beat_eq : (t.group g).beat = beat
  ends : c.ends = true → t.on Fld.CG_IRQ_ENTRY_END g = true
  wraps : c.wraps = true → t.on Fld.CG_IRQ_WRAP g = true

theorem State.edgeFinish_spec (s : State) {g : Nat} (ahead : List Nat) (lost : Nat) (hg : g < 24) :
    EdgeLeft g (s.group g).beat ((s.group g).core.loseMarks lost) (s.edgeFinish g ahead lost) := by
  unfold State.edgeFinish
  generalize hu : s.setGroup g _ = u
  have hgroup := s.group_setGroup_same g { s.group g with marksAhead := ahead, core := (s.group g).core.loseMarks lost }
  rw [hu] at hgroup
  obtain ⟨hcore, hbeat⟩ := u.emitBeat_taken g
  obtain ⟨hcore', hbeat'⟩ := (u.emitBeat g).cgWindows_taken g
  rw [hcore, hgroup] at hcore'
  rw [hbeat, hgroup] at hbeat'
  have hswept := BelowKept.rsSweep (s := ((u.emitBeat g).cgWindows g).cgCommit g) (g := g)
  have hcommit := (State.group_congr hswept.groups g).trans (State.group_cgCommit _ g)
  obtain ⟨hends, hwraps⟩ := ((u.emitBeat g).cgWindows g).on_cgCommit g
  rw [hcore', (emitDue_ends_wraps _ _).1] at hends
  rw [hcore', (emitDue_ends_wraps _ _).2] at hwraps
  have hirq {q : FieldRef} (hst : q.st1 ≠ 0) (hq : q.base + 24 * q.st1 ≤ 0x200000) : q.addr g 0 < 0x200000 := by
    have := Nat.mul_lt_mul_of_lt_of_le hg le_rfl (Nat.pos_of_ne_zero hst)
    simp only [FieldRef.addr]
    omega
  refine ⟨?_, ?_, fun h => ?_, fun h => ?_⟩
  · rw [hcommit, ← hcore']
  · rw [hcommit, ← hbeat']
  · rw [hswept.on (hirq (by decide) (by decide)), hends h]
  · rw [hswept.on (hirq (by decide) (by decide)), hwraps h]

/-- An SCLK edge, where no handover runs. -/
theorem State.cgEdge_spec (s : State) {g : Nat} (e tick : Nat) (raw : List (List Int)) (b a i : Int) (hg : g < 24)
    (h : (s.group g).rot.overlap = none) : ∃ (f f' : SeqCfg) (o : Option HeldBeat) (lost : Nat),
      o.isSome = (s.on Fld.CG_CTL_EN g && s.mode.converts) ∧ (∀ y ∈ o, y.FreshAt ((s.group g).beat + 1)) ∧
      f'.last = s.f Fld.CG_SEQCTL_LAST g ∧
      EdgeLeft g ((s.group g).beat + 1)
        ((((s.group g).core.settleUp.advance f).atEdge f' o).loseMarks lost)
        (s.cgEdge g e tick raw b a i) := by
  obtain ⟨f, hview⟩ := State.beatView_edgeStart (e := e) (tick := tick) h
  obtain ⟨ahead, lost, hedge⟩ := s.cgEdge_eq g e tick raw b a i
  rw [hedge]
  generalize s.edgeStart g e tick = u at hview ⊢
  have hcore : (u.group g).core = _ := congrArg BeatView.core hview
  have hbeat : (u.group g).beat = _ := congrArg BeatView.beat hview
  have hover : (u.group g).rot.overlap = none := (congrArg BeatView.overlap hview).trans h
  have hen : u.on Fld.CG_CTL_EN g = s.on Fld.CG_CTL_EN g := congrArg BeatView.en hview
  have hconv : u.mode.converts = s.mode.converts := congrArg BeatView.converts hview
  have hlast : (u.seqCfg g).last = s.f Fld.CG_SEQCTL_LAST g := congrArg BeatView.last hview
  rw [hen, hconv]
  cases hruns : s.on Fld.CG_CTL_EN g && s.mode.converts with
  | false =>
    refine ⟨f, u.seqCfg g, none, lost, rfl, by simp, hlast, ?_⟩
    have hfinish := u.edgeFinish_spec ahead lost hg
    rw [hcore, hbeat] at hfinish
    exact hfinish
  | true =>
    obtain ⟨y, hy, hcore', hbeat'⟩ := u.convertBeat_spec (e := e) (tick := tick) (raw := raw) (b := b) (a := a) (i := i) hover
    have hfinish := (u.convertBeat g e tick raw b a i).edgeFinish_spec ahead lost hg
    rw [hcore', hcore, hbeat', hbeat] at hfinish
    rw [hbeat] at hy
    exact ⟨f, u.seqCfg g, some y, lost, rfl, by simpa using hy, hlast, hfinish⟩

theorem exec_conversionBeat {e tick : Nat} {raw : List (List Int)} {b a i : Int} (hg : g < s.part.numCG)
    (hs : s.sclk g = true) (hraw : raw.length = 4) (hall : raw.all (·.length = 4) = true) :
    exec (.conversionBeat g e tick raw b a i) s = .next (s.cgEdge g e tick raw b a i) := by
  refine (if_pos ⟨hraw, hall⟩).trans ((ifPresent_of_lt hg (numCG_le _)).trans ?_)
  rw [if_pos hs]

/-- The edge of an enabled group in a converting mode in which no transition is due and the running entry has been read. -/
theorem cgEdge_of_runs {e tick : Nat} {raw : List (List Int)} {b a i : Int} (hg : g < s.part.numCG)
    (hen : s.on Fld.CG_CTL_EN g = true) (hm : s.mode.converts = true) (hov : (s.group g).rot.overlap = none)
    (hadv : ∀ f, (s.group g).core.settleUp.advance f = (s.group g).core.settleUp) (hfresh : (s.group g).core.seq.fresh = false) :
    ∃ (f : SeqCfg) (y : HeldBeat) (lost : Nat), y.FreshAt ((s.group g).beat + 1) ∧ f.last = s.f Fld.CG_SEQCTL_LAST g ∧
      EdgeLeft g ((s.group g).beat + 1)
        (((s.group g).core.settleUp.takeBeat f y).loseMarks lost)
        (s.cgEdge g e tick raw b a i) := by
  obtain ⟨f, f', o, lost, ho, hy, hlast, hleft⟩ := s.cgEdge_spec e tick raw b a i (hg.trans_le (numCG_le _)) hov
  rw [hen, hm] at ho
  obtain ⟨y, rfl⟩ := Option.isSome_iff_exists.mp ho
  rw [hadv, CgCore.atEdge, CgCore.enter_of_read (c := (s.group g).core.settleUp) hfresh] at hleft
  exact ⟨f', y, lost, hy y rfl, hlast, hleft⟩

end

/-- Settles O26: `cgEdge_spec` gives the core after the edge, on which each case is evaluated. A beat that was just held is not
due, since its latency is 14 cycles at least. -/
theorem conversionBeatCounts : Obligations.ConversionBeatCounts := by
  refine ⟨fun s g e tick raw b a i hg hs hraw hall hen hm hov hst hf hl hh => ?_,
    fun s g e tick m raw b a i hg hs hraw hall hen hm hov hst hf he hl hh => ?_,
    fun s g e tick raw b a i hg hs hraw hall hen hm hov hst hf he hl hh => ?_,
    fun s g e tick raw b a i h hg hs hraw hall hov hst hf hh hd hlat => ?_⟩ <;>
    refine ⟨_, exec_conversionBeat hg hs hraw hall, ?_⟩
  · obtain ⟨f, y, lost, hy, -, hleft⟩ := cgEdge_of_runs hg hen hm hov (fun f => advance_of_settling f hst hl) hf
    rw [takeBeat_of_settle (c := (s.group g).core.settleUp) hst] at hleft
    have hcore := hleft.core.trans (congrArg CgCore.settleUp (emitDue_of_empty hh))
    rw [hcore, hleft.beat_eq]
    exact ⟨rfl, rfl, rfl, hh, rfl, rfl⟩
  · obtain ⟨f, y, lost, hy, -, hleft⟩ :=
      cgEdge_of_runs hg hen hm hov (fun f => advance_of_dwelling f hst (by simp [CgCore.settleUp, hl])) hf
    rw [takeBeat_of_dwell (c := (s.group g).core.settleUp) hst he,
      takeDwell_of_more (c := (s.group g).core.settleUp) hl] at hleft
    have hheld : (s.group g).core.held ++ [y] = [y] := by rw [hh, List.nil_append]
    have hcore := hleft.core.trans (congrArg CgCore.settleUp (emitDue_of_fresh hheld hy.not_due))
    rw [hcore]
    exact ⟨rfl, congrArg List.length hheld, rfl, rfl, rfl⟩
  · obtain ⟨f, y, lost, hy, hlast, hleft⟩ :=
      cgEdge_of_runs hg hen hm hov (fun f => advance_of_dwelling f hst (by simp [CgCore.settleUp, hl])) hf
    rw [takeBeat_of_dwell (c := (s.group g).core.settleUp) hst he,
      takeDwell_of_last (c := (s.group g).core.settleUp) hst hl, hlast] at hleft
    have hheld : ((s.group g).core.held ++ [y]).map (fun h => { h with done := true }) = [{ y with done := true }] := by
      rw [hh, List.nil_append, List.map_singleton]
    have hcore := hleft.core.trans (congrArg CgCore.settleUp (emitDue_of_fresh hheld hy.not_due))
    rw [hcore]
    exact ⟨rfl, congrArg (List.map (·.done)) hheld, rfl, rfl, hleft.ends, fun h => hleft.wraps (decide_eq_true h)⟩
  · obtain ⟨f, f', o, lost, -, -, -, hleft⟩ := s.cgEdge_spec e tick raw b a i (hg.trans_le (numCG_le _)) hov
    rw [advance_of_still f (c := (s.group g).core.settleUp) (by simp [CgCore.settleUp, hst])] at hleft
    obtain ⟨n, hn⟩ := atEdge_of_idle (c := (s.group g).core.settleUp) (f := f') hst hf o
    rw [hn] at hleft
    have hcore := hleft.core.trans (congrArg CgCore.settleUp (emitDue_of_due hh hd hlat))
    rw [hcore]
    exact ⟨rfl, rfl, rfl⟩

end Sys2Proof.Machine
end
